-- ==== Sys2Proof/Word.lean ====
section
/-!
DEFINITION. The words of the hub and their plainest readings: bytes, 32-bit register words and the numbers the
manual's time formats use (00_scope.md R2, R3).
-/

namespace Sys2Proof

/-- One byte of a packet, a frame, a record or an addressed buffer. -/
abbrev Byte := BitVec 8

/-- One 32-bit register word (00_scope.md R4). -/
abbrev Word := BitVec 32

/-- The byte with value `n` modulo 256. -/
def byte (n : Nat) : Byte := BitVec.ofNat 8 n

/-- The word with value `n` modulo 2^32. -/
def word (n : Nat) : Word := BitVec.ofNat 32 n

end Sys2Proof
end

