-- ==== Sys2Proof/Syntax.lean ====
section
/-!
DEFINITION. The commands of the hub: one constructor for each row of the table of operations and events
(opcode_table.json, 95_what_each_step_holds.md), with the operands the row's rule names. The table gives no operands
and no bits; log entry 2 says how they were read. Every row's first operand `t` is the instant at which it takes
place, as a fine count F = XC * 8,192 + phase (05_time_base.md R145).
-/

namespace Sys2Proof

/-- A command packet as it arrives, less its opcode (12_command_packets.md R367, Table 12-1). `arrival` is the port 0
to 7 it came by, or 8 for the service SPI. `length` is bytes 10-11, `b21` byte 21, `rsvd14` bytes 14-15, `rsvd22` bytes
22-31, `mac` the bytes after the parameters. -/
structure Packet where
  arrival : Nat
  version : Nat
  flags : Nat
  tag : Nat
  source : Nat
  dest : Nat
  length : Nat
  slot : Nat
  rsvd14 : Nat
  counter : Nat
  ttl : Nat
  b21 : Nat
  rsvd22 : List Byte
  params : List Byte
  mac : List Byte
  deriving DecidableEq, Repr

/-- One domain's half of a time cell's payload (05_time_base.md Table 05-3): ST64 transmission time, ST64 reception
time of the receiver's latest block and its number, byte +18, hop count, seconds [47:24], TAI - UTC, root head. -/
structure TimeCellDom where
  txTime : Nat
  rxTime : Nat
  rxSeq : Nat
  flags : Nat
  hops : Nat
  secHigh : Nat
  taiUtc : Int
  root : Nat
  deriving DecidableEq, Repr

/-- A time cell (05_time_base.md Table 05-3): number of the time block it follows, sender, both domains, and whether
its CRC was right. -/
structure TimeCell where
  seq : Nat
  sender : Nat
  domA : TimeCellDom
  domB : TimeCellDom
  crcOk : Bool
  deriving DecidableEq, Repr

/-- What a decoder answers to one read of its test word (14_memory_and_ecc.md R449): data without error, data corrected
with a syndrome, an uncorrectable error, or poison. -/
inductive TestRead where
  | clean (data : Nat)
  | corrected (data syndrome : Nat)
  | uncorrectable
  | poison
  deriving DecidableEq, Repr

/-- What boot fill and self-test found (14_memory_and_ecc.md R439, R448 to R450): a bit for each memory whose fill failed,
what each decoder answered in its self-test (DRAM channels 0 and 1, then memories 1 to 4), whether DRAM training failed,
the density of each channel in GiB, the duration in ms, the ports whose deskew buffer failed, one bit each, and whether a command
cache failed (R456). -/
structure FillResult where
  fillFailed : Nat
  answers : List (List TestRead)
  trainFailed : Bool
  gib0 : Nat
  gib1 : Nat
  fillMs : Nat
  deskewFailed : Nat := 0
  cacheFailed : Bool := false
  deriving DecidableEq, Repr

/-- The verdict of one common-mode pilot window (02_front_end.md R64). -/
inductive PilotResult where
  | passed
  | openCable
  | shortCable
  deriving DecidableEq, Repr

/-- What the monitors of a bay measured over one excitation period (02_front_end.md R53, R54, R64, Table 02-5):
amplitude at EXSb in units of 40 uV, output current in units of 10 uA, loop in regulation, current limit active, and
the common mode of each input in 1/1000 of the sense amplitude, and whether the amplitude detector was on its internal reference
(16_calibration.md R490). The amplitude is as the detector reads it, before its calibrated gain. -/
structure ExcMeasure where
  senseAmp : Nat
  current : Nat
  regulated : Bool
  limit : Bool
  commonMode : List Nat
  onRef : Bool := false
  deriving DecidableEq, Repr

/-- The branch of a chain that delivers an output sample: the channel's stream output, the bay's history tap, or one of
its two pane taps (04_decimation.md R121, R133, R134). -/
inductive Branch where
  | stream
  | history
  | tap0
  | tap1
  deriving DecidableEq, Repr

/-- TRAIN IDENT content (11_serial_lanes_and_syrilink.md Table 11-4 step 1): address, port, role, requested rate and
width, with the mask of this port's lanes that reached block lock. -/
structure Ident where
  addr : Nat
  port : Nat
  role : Nat
  rate : Nat
  width : Nat
  lockMask : Nat
  deriving DecidableEq, Repr

/-- A block as the ingress deskew of a port gives it (11_serial_lanes_and_syrilink.md R327): lane index in the port, sync header
(1 data, 2 control), descrambled payload with byte 0 in its low bits, and, of an ALIGN, the payloads its lane has carried since the
ALIGN before it. -/
structure Block where
  lane : Nat
  sync : Nat
  payload : BitVec 64
  since : List (BitVec 64) := []
  deriving DecidableEq, Repr

/-- The header of a cell and the payload bytes it uses (09_queues_and_retention.md Table 09-1). -/
structure Cell where
  cls : Nat
  first : Bool
  last : Bool
  fsf : Bool
  resent : Bool
  number : Nat
  addr : Nat
  rtype : Nat
  index : Nat
  pane : Nat
  payload : List Byte
  deriving DecidableEq, Repr

/-- An alignment marker that a lane received while its port trained (11_serial_lanes_and_syrilink.md Table 11-4 step 6): its fine
count, and the lane index and port number it carries. -/
structure Marker where
  at_ : Nat
  lane : Nat
  port : Nat
  deriving DecidableEq, Repr

/-- The condition by which a lane in use is lost (11_serial_lanes_and_syrilink.md R336), in the manual's order: its last sync
headers, up to 64; loss of clock recovery lock; no valid ALIGN; an ALIGN of another lane or port; BIP-8 errors; loss of signal. -/
inductive LaneFault where
  | sync (headers : List Nat)
  | lock
  | align
  | place
  | bip
  | los
  deriving DecidableEq, Repr

/-- One port of a link state: role, UP or DEGRADED, grants S and B credits (11_serial_lanes_and_syrilink.md
Table 11-8). -/
structure PortState where
  role : Nat
  up : Bool
  sb : Bool
  deriving DecidableEq, Repr

/-- A link-state cell's payload (11_serial_lanes_and_syrilink.md Table 11-8). -/
structure LinkState where
  origin : Nat
  generation : Nat
  head : Nat
  ports : List PortState
  deriving DecidableEq, Repr

/-- A LINK block (11_serial_lanes_and_syrilink.md Table 11-2): the lane index it came on, cumulative ACK, NAK, cumulative credits C,
T, S, B. -/
structure LinkBlock where
  lane : Nat
  ack : Nat
  nak : Bool
  credC : Nat
  credT : Nat
  credS : Nat
  credB : Nat
  deriving DecidableEq, Repr

/-- A HEARTBEAT head cell (13_head_redundancy.md Table 13-4). -/
structure Heartbeat where
  sender : Nat
  dest : Nat
  path : Nat
  seq : Nat
  state : Nat
  flags : Nat
  witness : Nat
  epoch : Nat
  leaseMs : Nat
  mirrorSeq : Nat
  st64 : Nat
  deriving DecidableEq, Repr

/-- A MIRROR head cell (13_head_redundancy.md Table 13-4): sender, destination, path, first mirror sequence, item type, the
32-byte items. -/
structure MirrorCell where
  sender : Nat
  dest : Nat
  path : Nat
  firstSeq : Nat
  itemType : Nat
  items : List (List Byte)
  deriving DecidableEq, Repr

/-- A DIGEST head cell (13_head_redundancy.md Table 13-4): sender, destination, path, cutoff, digest, entries in the window,
second described. -/
structure DigestCell where
  sender : Nat
  dest : Nat
  path : Nat
  cutoff : Nat
  digest : Nat
  entries : Nat
  st64 : Nat
  deriving DecidableEq, Repr

/-- What an optical module answered (11_serial_lanes_and_syrilink.md R359): present, read succeeded, identifier, loss of signal per
lane index, alarm flag, temperature in 1/256 degree as 16 bits, supply, and for each lane bias, transmit power and receive power, as
the module gives them. -/
structure ModuleRead where
  present : Bool
  readOk : Bool
  ident : Nat
  los : Nat
  alarm : Bool
  temp : Nat
  supply : Nat
  bias : List Nat
  tx : List Nat
  rx : List Nat
  deriving DecidableEq, Repr

/-- One value of a calibration run as its two passes found it (16_calibration.md R495): the entry of the group's record it
belongs to (channel of the die, converter, code or lane), the byte offset of its field in that entry (Table 16-5), and both
passes in units of the field. -/
structure CalValue where
  element : Nat
  field : Nat
  pass1 : Int
  pass2 : Int
  deriving DecidableEq, Repr

/-- The JTAG instructions of 17_counters_and_test.md R512. -/
inductive Jtag where
  | bypass
  | idcode
  | samplePreload
  | extest
  | extestPulse
  | extestTrain
  | clamp
  | highz
  deriving DecidableEq, Repr

/-- The access paths that keep read and write shadows (12_command_packets.md R397, R398). -/
inductive Path where
  | porter
  | command
  | spi
  deriving DecidableEq, Repr

/-- One command for each row of the table of operations and events. (DESIGN CHOICE, log entries 2 and 67). -/
inductive Instr where
  -- supplies, reset, boot and Porter (15, 18)
  | powerOn (t : Nat)
  | resetNPulse (t widthNs : Nat)
  | supplyBrownout (t durNs : Nat)
  | pfwNFall (t : Nat)
  | pfwRecoveryReset (t : Nat)
  | memoryFillDone (t : Nat) (r : FillResult)
  | bootOk (t : Nat) (refused : Bool)
  | bootTimeout (t : Nat)
  | watchdogExpiry (t : Nat)
  | lockstepMismatch (t : Nat)
  | powerTransitionDone (t : Nat)
  | sensorPoll (t : Nat)
  | bbAllowanceRefill (t : Nat)
  | configStoreWrite (t : Nat)
  | consoleStatusQuery (t : Nat) (c : Byte)
  -- time base (05)
  | crystalSecond (t : Nat) (refSpan : Option Nat)
  | incrementBoundary (t : Nat)
  | timeBlockReceived (t : Nat) (p : Fin 8) (seq : Nat)
  | timeCellReceived (t : Nat) (p : Fin 8) (cell : TimeCell)
  | holdoverEntry (t : Nat) (d : Fin 2)
  | ppsEdge (t : Nat) (d : Fin 2) (falling : Bool)
  | todMessage (t : Nat) (n : Fin 4) (bytes : List Byte) (start : Nat)
  | timedActionLaunch (t : Nat) (slot : Fin 32)
  -- interval unit (06)
  | edgeStamp (t : Nat) (src : Fin 64) (falling : Bool) (others : List (Fin 64 × Bool × Nat))
  | loopUnlock (t : Nat) (v : Fin 8) (slow : Bool)
  | vernierCalDone (t : Nat) (v : Fin 8) (values : List CalValue) (quality : Nat)
  | freqGateOpen (t : Nat) (b : Fin 64)
  | freqGateClose (t : Nat) (b : Fin 64)
  -- front end and chains (02, 04)
  | rawCodeArrival (t : Nat) (c : Fin 512) (code : BitVec 16)
  | chargeReset (t : Nat) (c : Fin 512)
  | clampOnset (t : Nat) (c : Fin 512) (until_ : Nat)
  | excLimit (t : Nat) (b : Fin 64)
  | pilotWindow (t : Nat) (c : Fin 512) (r : PilotResult)
  | testTick (t : Nat) (caps : List (Nat × Option Nat))
  | injectOppositeEdge (t : Nat) (c : Fin 512)
  | outputSampleDelivered (t : Nat) (c : Fin 512) (br : Branch) (idx : Nat)
  | streamStart (t : Nat) (c : Fin 512)
  | timeTrigger (t : Nat) (u : Fin 32)
  | tripStale (t : Nat) (o : Fin 16)
  | tripMinOnExpiry (t : Nat) (o : Fin 16)
  | paneHeldTime (t : Nat) (id : Nat)
  | paneCut (t : Nat) (id : Nat)
  | extractServe (t : Nat) (tag source : Nat)
  | historyRepartition (t : Nat)
  -- converters (03)
  | burstWindowWake (t : Nat) (b : Fin 64)
  | burstWindowEnd (t : Nat) (b : Fin 64)
  | reliefCompareEnd (t : Nat) (k : Fin 4) (diffs : List Int)
  | bayCalibrationDone (t : Nat) (k : Fin 4) (values : List CalValue)
  | transomPeriodTrigger (t : Nat)
  | trigInEdge (t : Nat) (j : Fin 4) (falling : Bool)
  | transomEntryDone (t : Nat) (codes : List Nat)
  | transomCalibrationDone (t : Nat)
  -- field ports (08)
  | fieldPortPoll (t : Nat) (n : Fin 4)
  | frameReceived (t : Nat) (n : Fin 4) (chars : List (Byte × Nat)) (charError : Bool)
  -- queues, retention, compression (09, 10)
  | pushResumed (t : Nat) (q : Fin 64)
  | spill (t : Nat) (rid : Nat)
  | retentionReturn (t : Nat) (rid : Nat)
  | rewindTimeout (t : Nat) (q : Fin 64)
  | rewindApply (t : Nat) (q : Fin 64)
  | shutterExpiry (t : Nat) (n : Fin 32)
  | eventRecordClose (t : Nat)
  | cmpRecordDone (t : Nat) (rid : Nat)
  | cmpJobDone (t : Nat) (tag source : Nat)
  | cmpFlushDrained (t : Nat)
  -- ports and Syrilink (11)
  | portTrainingStart (t : Nat) (p : Fin 8)
  | trainIdentReceived (t : Nat) (p : Fin 8) (ident : Ident)
  | trainReadyReceived (t : Nat) (p : Fin 8) (markers : List (Option Marker))
  | trainingTimeout (t : Nat) (p : Fin 8)
  | trainingRestart (t : Nat) (p : Fin 8)
  | mismatchRetry (t : Nat) (p : Fin 8)
  | laneLost (t : Nat) (l : Fin 32) (f : LaneFault)
  | restripeReceived (t : Nat) (p : Fin 8) (mask : Nat) (ack : Bool)
  | laneReadmitted (t : Nat) (l : Fin 32) (lockAt skew : Nat)
  | idleFreeze (t : Nat) (l : Fin 32)
  | idleRefresh (t : Nat) (l : Fin 32)
  | egressCellStart (t : Nat) (p : Fin 8)
  | cellReceived (t : Nat) (p : Fin 8) (blocks : List Block)
  | linkBlockReceived (t : Nat) (p : Fin 8) (blk : LinkBlock)
  | linkBlockSend (t : Nat) (p : Fin 8)
  | replayTimeout (t : Nat) (p : Fin 8)
  | linkStateRefresh (t : Nat)
  | linkStateReceived (t : Nat) (p : Fin 8) (ls : LinkState)
  | linkStateExpiry (t : Nat) (origin : Nat)
  | transitHoldExpiry (t : Nat)
  | modulePoll (t : Nat) (p : Fin 8) (r : ModuleRead)
  | eyeScanDone (t : Nat) (p : Fin 8) (counts : List Nat)
  -- command engine and service SPI (12)
  | packetRelay (t op : Nat) (p : Packet)
  | replyReceived (t : Nat) (op : Nat) (p : Packet)
  | commandTimeout (t : Nat) (op : Nat) (p : Packet)
  | seenCacheExpiry (t : Nat)
  | replyCacheExpiry (t : Nat)
  | spiStatus (t : Nat)
  | spiRegRead (t : Nat) (addr n : Nat)
  | spiRegWrite (t : Nat) (addr : Nat) (words : List Word)
  | spiPktWrite (t : Nat) (bytes : List Byte) (crc : Nat) (complete : Bool)
  | spiPktRead (t : Nat) (complete : Bool)
  | spiFrameIgnored (t : Nat) (code : Byte)
  -- head redundancy (13)
  | heartbeatSend (t : Nat)
  | heartbeatReceived (t : Nat) (p : Fin 8) (h : Heartbeat)
  | pathFailed (t : Nat) (ring : Bool)
  | pathRestored (t : Nat) (ring : Bool)
  | latchRenewSend (t : Nat)
  | leaseExpiry (t : Nat)
  | latchRequestSend (t : Nat)
  | startHoldoffExpiry (t : Nat)
  | witnessLeaseExpiry (t : Nat) (k : Fin 4)
  | quietPeriodEnd (t : Nat) (k : Fin 4)
  | mirrorReceived (t : Nat) (p : Fin 8) (m : MirrorCell)
  | mirrorResend (t : Nat)
  | mirrorStateRefresh (t : Nat)
  | digestSend (t : Nat)
  | digestReceived (t : Nat) (p : Fin 8) (d : DigestCell)
  | digestTimeout (t : Nat)
  | ledgerReplaySend (t : Nat)
  | switchoverTimeout (t : Nat)
  | drillDone (t : Nat)
  -- memories, calibration, counters and test (14, 16, 17)
  | dramTempPoll (t : Nat) (mr4 : Nat)
  | scrubDone (t : Nat)
  | calPeriodExpiry (t : Nat) (g : Fin 29)
  | calGroupStart (t : Nat) (g : Fin 29)
  | calGroupDone (t : Nat) (g : Fin 29) (values : List CalValue) (quality : Nat)
  | calRetry (t : Nat) (g : Fin 29)
  | pmcDump (t : Nat)
  | jtagInstruction (t : Nat) (j : Jtag)
  -- register writes
  | registerWrite (t : Nat) (path : Path) (addr : Nat) (w : Word)
  | nextAddrWrite (t : Nat) (a : Nat)
  | tbIncrCommit (t : Nat) (path : Path) (d : Fin 2) (hi : Word)
  | anchorGo (t : Nat) (d : Fin 2)
  | timedActionArm (t : Nat) (slot : Fin 32) (w : Word)
  | timedActionCancel (t : Nat) (slot : Fin 32)
  | transomStart (t : Nat)
  | transomCommit (t : Nat)
  | engineArmWrite (t : Nat) (e : Fin 16) (arm : Bool)
  | tripLock (t : Nat)
  | consoleLock (t : Nat)
  | pmcClear (t : Nat)
  | pmcToneWrite (t : Nat) (b : Fin 64) (w : Word)
  -- command packets (12, Table 12-5)
  | ping (t : Nat) (p : Packet)
  | identify (t : Nat) (p : Packet)
  | setPowerState (t : Nat) (p : Packet)
  | regRead (t : Nat) (p : Packet)
  | regWrite (t : Nat) (p : Packet)
  | regRead64 (t : Nat) (p : Packet)
  | softReset (t : Nat) (p : Packet)
  | updateBegin (t : Nat) (p : Packet)
  | updateData (t : Nat) (p : Packet)
  | updateCommit (t : Nat) (p : Packet)
  | updateCommitDone (t : Nat)
  | updateActivate (t : Nat) (p : Packet)
  | logRead (t : Nat) (p : Packet)
  | logMark (t : Nat) (p : Packet)
  | sensorRead (t : Nat) (p : Packet)
  | abort (t : Nat) (p : Packet)
  | chConfig (t : Nat) (p : Packet)
  | chQuery (t : Nat) (p : Packet)
  | bayExcitation (t : Nat) (p : Packet)
  | chTestInject (t : Nat) (p : Packet)
  | clampStatus (t : Nat) (p : Packet)
  | bayMode (t : Nat) (p : Packet)
  | transomSequence (t : Nat) (p : Packet)
  | transomUrgent (t : Nat) (p : Packet)
  | chainConfig (t : Nat) (p : Packet)
  | detectorConfig (t : Nat) (p : Packet)
  | streamEnable (t : Nat) (p : Packet)
  | timeRead (t : Nat) (p : Packet)
  | timeDomainConfig (t : Nat) (p : Packet)
  | timeSelectDomain (t : Nat) (p : Packet)
  | timeSchedule (t : Nat) (p : Packet)
  | timeAsymmetrySet (t : Nat) (p : Packet)
  | timeStatus (t : Nat) (p : Packet)
  | tiuRoute (t : Nat) (p : Packet)
  | freqMeasure (t : Nat) (p : Packet) (loops : List Nat)
  | stampRead (t : Nat) (p : Packet)
  | triggerConfig (t : Nat) (p : Packet)
  | paneOpen (t : Nat) (p : Packet)
  | paneClose (t : Nat) (p : Packet)
  | triggerAnnounce (t : Nat) (p : Packet)
  | historyExtract (t : Nat) (p : Packet)
  | measureConfig (t : Nat) (p : Packet)
  | fieldPortConfig (t : Nat) (p : Packet)
  | fieldDecoderConfig (t : Nat) (p : Packet)
  | tripConfig (t : Nat) (p : Packet)
  | foutConfig (t : Nat) (p : Packet)
  | tripReset (t : Nat) (p : Packet)
  | queueConfig (t : Nat) (p : Packet)
  | queueStatus (t : Nat) (p : Packet)
  | release (t : Nat) (p : Packet)
  | retentionConfig (t : Nat) (p : Packet)
  | shutter (t : Nat) (p : Packet)
  | shutterOpen (t : Nat) (p : Packet)
  | cmpConfig (t : Nat) (p : Packet)
  | cmpJob (t : Nat) (p : Packet)
  | cmpFlush (t : Nat) (p : Packet)
  | portConfig (t : Nat) (p : Packet)
  | portStatus (t : Nat) (p : Packet)
  | laneEyeScan (t : Nat) (p : Packet)
  | lanePattern (t : Nat) (p : Packet)
  | laneLoopback (t : Nat) (p : Packet)
  | portRetrain (t : Nat) (p : Packet)
  | credInstall (t : Nat) (p : Packet)
  | credRevoke (t : Nat) (p : Packet)
  | credStatus (t : Nat) (p : Packet)
  | headConfig (t : Nat) (p : Packet)
  | headStatus (t : Nat) (p : Packet)
  | latchRequest (t : Nat) (p : Packet)
  | latchRenew (t : Nat) (p : Packet)
  | latchRelease (t : Nat) (p : Packet)
  | headDrill (t : Nat) (p : Packet)
  | scrub (t : Nat) (p : Packet)
  | memStatus (t : Nat) (p : Packet)
  | memInject (t : Nat) (p : Packet)
  | pmcConfig (t : Nat) (p : Packet)
  | pmcRead (t : Nat) (p : Packet)
  | pmcDumpConfig (t : Nat) (p : Packet)
  | calRun (t : Nat) (p : Packet)
  | calStatus (t : Nat) (p : Packet)
  | calCoeffRead (t : Nat) (p : Packet)
  | calPolicy (t : Nat) (p : Packet)
  -- later rows of the table
  | pfwNRise (t : Nat)
  | imageLoadDone (t : Nat)
  | porterReloadDone (t : Nat) (ok : Bool)
  | loopRelock (t : Nat) (v : Fin 8)
  | excitationPeriod (t : Nat) (b : Fin 64) (m : ExcMeasure)
  | checkerLockChange (t : Nat) (l : Fin 32) (bits : List Bool)
  | resetAfterReply (t : Nat)
  | newScanSetting (t : Nat) (b : Fin 64)
  deriving DecidableEq, Repr

end Sys2Proof
end

