-- ==== Sys2Proof/Decode.lean ====
section
/-!
DEFINITION. The decoder the host asks for. The table of operations and events gives no row any bits: a command reaches
the hub as a packet, a register access, a cell, an edge or a condition, never as one word (log entry 2). So no word spells
a command.
-/

namespace Sys2Proof

/-- The command that a word of `nbits` bits spells: none, since the table gives no bits. (DESIGN CHOICE, log entry 2). -/
def decodeTableWord (_nbits _w : Nat) : Option Instr := none

end Sys2Proof
end

