-- ==== Sys2Proof/Config.lean ====
section
/-!
DEFINITION. What the manual leaves open: free values, opaque so that no proof can lean on one. Each takes the model's
own counter (`State.free`), which advances where the value is drawn, or the operands it depends on. Log entry 5.
-/

namespace Sys2Proof.Config

/-- The boot ROM version that IDENTIFY reports (15_porter_management.md Table 15-7 gives it no value). -/
opaque bootRomVersion : Nat → BitVec 32

/-- The increment the holdover model or the REFCLK_IN ratio gives at a boundary (05_time_base.md R166, R168): the manual
does not give the fit. -/
opaque holdoverIncr : Nat → BitVec 64

/-- The three-standard-deviation rate uncertainty, in units of 10^-15, and drift uncertainty, in units of 10^-21 per
second, of the reference or crystal model (05_time_base.md R166). -/
opaque holdoverRate : Nat → BitVec 32
opaque holdoverDrift : Nat → BitVec 32

/-- Where the block slots of a lane lie at an increment boundary, in fine counts (06_interval_unit.md R187). -/
opaque slotPhase : Nat → BitVec 16

/-- The loop resistance, in 0.1 Ω, that the check before a drive measures for a command whose row does not carry it
(02_front_end.md R56). -/
opaque loopRead : Nat → BitVec 32

/-- The increment the servo commits in TRACK (05_time_base.md R149, R165: bounds, no steering law). -/
opaque servoIncr : Nat → BitVec 64

/-- The syndrome that the self-test expects of a decoder for the error it injects at a position (14_memory_and_ecc.md R449: no code
matrices are given). -/
opaque testSyndrome : Nat → Nat → Nat → Nat → BitVec 16

/-- The syndrome of an error found in a memory (14_memory_and_ecc.md MEM_ERR_INFO: no code matrices are given). -/
opaque syndrome : Nat → BitVec 16

/-- Whether an F32 result that 24 bits do not hold is taken up (07_panes_and_triggers.md Table 07-8: no rounding mode is
given). -/
opaque f32Round : Int → Nat → BitVec 1

/-- A byte of the ideal vernier table and loop words that stand in for a missing record (16_calibration.md R499: no figures are
given). -/
opaque calByte : Nat → BitVec 8

/-- Where the PRBS generator of a lane starts in its sequence, for a pattern of Table 11-12 (8 for the REFRESH blocks of an idle run):
the manual gives no seed (11_serial_lanes_and_syrilink.md R340, R357). -/
opaque prbsSeed : Nat → Nat → BitVec 31

/-- A byte of a job's destination buffers after the job was aborted (10_compression.md R318: undefined). -/
opaque abortedByte : Nat → Nat → BitVec 8

/-- Occurrences of a counted event that no row shows, by its number (17_counters_and_test.md Table 17-1: Porter's clocks, DRAM bursts). -/
opaque unseenCount : Nat → Nat → BitVec 32

/-- The coordinates of the Dunqua firmware key (15_porter_management.md R460: the boot ROM holds its SHA-256; no value is given). -/
opaque firmwareKey : Nat → BitVec 256

/-- The size in bytes of memory 4, the other on-die buffers (14_memory_and_ecc.md Table 14-1 gives none). -/
opaque mem4Size : Nat → BitVec 24

/-- The cell of the pool that holds cell `k` of held record `rid`, and where a spilled record lies in the retention area
(09_queues_and_retention.md R271, R285: no allocation order is given). -/
opaque poolCell : Nat → Nat → BitVec 16
opaque retentionPlace : Nat → BitVec 48

/-- Where in its 32 MiB of the work area a ledger entry lies (13_head_redundancy.md R423: no layout is given). -/
opaque ledgerPlace : Nat → BitVec 25

/-- Where in the history area a kept sample of a channel lies (07_panes_and_triggers.md R214: no layout is given). -/
opaque historyPlace : Nat → Nat → BitVec 48

/-- Whether a value that is no whole number is taken up, where the manual gives no rounding, by its numerator and
denominator. -/
opaque roundUp : Nat → Nat → BitVec 1

/-- The design part of the input-stage delay, in ps, by mode, range and anti-alias setting (16_calibration.md R487: in the
firmware, not in the manual). -/
opaque afeDesign : Nat → Nat → Nat → BitVec 16

/-- A replaced sample where fewer than four raw samples stand before the switch (02_front_end.md R70: the extrapolation has no
samples to work from), in internal units. -/
opaque replaced : Nat → BitVec 48

/-- The level that a charge stage is expected at after a reset, by the slope of its last samples, in internal units (02_front_end.md R49:
no formula is given). -/
opaque postReset : Int → BitVec 48

/-- The greatest difference at which the passes of a calibrated value agree where the manual gives none, by item and field
(16_calibration.md R495 names some of the values of Table 16-5). -/
opaque calTolerance : Nat → Nat → BitVec 16

/-- A coefficient of the 63-tap Hilbert transformer, by its distance from the centre (04_decimation.md Table 04-5: none is given). -/
opaque hilbertTap : Nat → Rat

/-- A coefficient of the chain's filters (04_decimation.md R118, Table 04-3 gives responses, no coefficients): by kind (0 intermediate
half-band, 1 decimate-by-5, 2 final half-band, 3 resampler prototype by phase), stage, and distance from the centre. -/
opaque filterTap : Nat → Nat → Nat → BitVec 48

/-- The amplitude that the generator will have measured in an excitation period that began at a fine count and has not ended when a
bridge sample held in it is due, in units of 40 µV (04_decimation.md R125). -/
opaque ampAhead : Nat → Nat → BitVec 16

/-- The comparator delay of a channel, mode and range, in ps (06_interval_unit.md Table 06-2: from calibration, in no record
of Table 16-5). -/
opaque compDelay : Nat → Nat → Nat → BitVec 16

/-- The design latency of a lane's transmitter or receiver and its measured deskew, in ps (16_calibration.md R491: in the
firmware, not in the manual): by lane and direction. -/
opaque laneDelay : Nat → Bool → BitVec 24

/-- How far a running scrub has come, in 1/256 of its range, by the fine counts since it began (14_memory_and_ecc.md MEM_SCRUB_STAT: only
the DRAM's rate is given, as a bound). -/
opaque scrubProgress : Nat → BitVec 8

end Sys2Proof.Config
end

