-- ==== Sys2Proof/Machine/Operands.lean ====
section
/-!
DEFINITION. The fields of parameters, packets, records and registers as numbers: little-endian bytes (00_scope.md R2,
R3), bit fields, signed values, saturation, and the two checksums the manual names.
-/

namespace Sys2Proof.Machine

/-- The low `n` bytes of a number, least significant first (R3). -/
def le : Nat → Nat → List Byte
  | 0, _ => []
  | n + 1, v => byte v :: le n (v / 256)

/-- A signed number as `n` bytes, two's complement, least significant first. -/
def leI (n : Nat) (v : Int) : List Byte := le n (v % (2 ^ (8 * n) : Nat)).toNat

/-- The number that bytes spell, least significant first. -/
def ofLe : List Byte → Nat
  | [] => 0
  | b :: bs => b.toNat + 256 * ofLe bs

/-- The `n` bytes from offset `off`. -/
def bytesAt (bs : List Byte) (off n : Nat) : List Byte := (bs.drop off).take n

/-- The number in the `n` bytes from offset `off`. -/
def num (bs : List Byte) (off n : Nat) : Nat := ofLe (bytesAt bs off n)

/-- Bits [lo + w - 1 : lo] of a number. -/
def bits (v lo w : Nat) : Nat := v / 2 ^ lo % 2 ^ w

/-- Bit `i` of a number. -/
def bit (v i : Nat) : Bool := v / 2 ^ i % 2 == 1

/-- A flag as a number. -/
def b2n (b : Bool) : Nat := if b then 1 else 0

/-- The signed value of a `w`-bit number. -/
def signed (w v : Nat) : Int := if v % 2 ^ w < 2 ^ (w - 1) then (v % 2 ^ w : Nat) else (v % 2 ^ w : Nat) - (2 ^ w : Nat)

/-- The `w`-bit two's complement number of a signed value. -/
def unsigned (w : Nat) (v : Int) : Nat := (v % (2 ^ w : Nat)).toNat

/-- A signed value held to the range of `w` bits. -/
def satI (w : Nat) (v : Int) : Int :=
  if v < -(2 ^ (w - 1) : Nat) then -(2 ^ (w - 1) : Nat) else if v ≥ (2 ^ (w - 1) : Nat) then (2 ^ (w - 1) : Nat) - 1 else v

/-- A number held to the range of `w` bits. -/
def satN (w v : Nat) : Nat := min v (2 ^ w - 1)

/-- The signed number in the `n` bytes from offset `off`. -/
def numI (bs : List Byte) (off n : Nat) : Int := signed (8 * n) (num bs off n)

/-- Are the bytes from offset `off`, `n` of them, all zero? -/
def zeroAt (bs : List Byte) (off n : Nat) : Bool := (bytesAt bs off n).all fun b => b == 0#8

/-- Bytes padded with zeros to a multiple of 4 (R209). -/
def pad4 (bs : List Byte) : List Byte := bs ++ List.replicate ((4 - bs.length % 4) % 4) 0#8

/-- `n` divided by `d`, rounded up. -/
def ceilDiv (n d : Nat) : Nat := (n + d - 1) / d

/-- One bit of a reflected CRC. -/
def crcBit (poly c : Nat) : Nat := if c % 2 = 1 then (c / 2) ^^^ poly else c / 2

/-- One byte of a reflected CRC. -/
def crcByte (poly c : Nat) (b : Byte) : Nat :=
  let p := crcBit poly
  p (p (p (p (p (p (p (p (c ^^^ b.toNat))))))))

/-- CRC-32C of some bytes. -/
def crc32c (bs : List Byte) : Nat := bs.foldl (crcByte 0x82F63B78) 0xFFFFFFFF ^^^ 0xFFFFFFFF

/-- CRC-16 of Modbus (08_field_ports_and_outputs.md). -/
def crc16 (bs : List Byte) : Nat := bs.foldl (crcByte 0xA001) 0xFFFF

/-- The `k` 32-bit words that bytes spell. -/
def wordsOf (bs : List Byte) : Nat → List Nat
  | 0 => []
  | k + 1 => num bs 0 4 :: wordsOf (bs.drop 4) k

/-- The first element of a list that satisfies a test, else a default. -/
def findD {α : Type} (d : α) (f : α → Bool) (l : List α) : α := (l.find? f).getD d

/-- A list with `f` applied to the elements that satisfy a test. -/
def mapIf {α : Type} (p : α → Bool) (f : α → α) (l : List α) : List α := l.map fun x => if p x then f x else x

/-- Do the numbers of a range all satisfy a test? -/
def allIn (first count : Nat) (f : Nat → Bool) : Bool := (List.range count).all fun i => f (first + i)

end Sys2Proof.Machine
end

