-- ==== Sys2Proof/Machine/Sha.lean ====
section
/-!
DEFINITION. SHA-256 (FIPS 180-4) and the verification of an ECDSA signature over NIST P-256 (FIPS 186-4), by which a firmware image
verifies (15_porter_management.md R460).
-/

namespace Sys2Proof.Machine

/-- Is `n` a prime above 2? -/
def isPrime (n : Nat) : Bool := (List.range n).all fun d => d < 2 || n % d != 0

/-- The first primes, of whose roots the constants of SHA-256 are made. -/
def primes (n : Nat) : List Nat := ((List.range 312).filter fun p => 2 ≤ p && isPrime p).take n

/-- The greatest `r` with `r ^ k ≤ v`, by its bits from bit `i - 1` down. -/
def rootGo (k v : Nat) : Nat → Nat → Nat
  | 0, r => r
  | i + 1, r => rootGo k v i (if (r + 2 ^ i) ^ k ≤ v then r + 2 ^ i else r)

/-- The first 32 bits of the fractional part of the `k`-th root of `p`. -/
def rootFrac (k p : Nat) : Nat := rootGo k (p * 2 ^ (32 * k)) 40 0 % 2 ^ 32

/-- Rotation of a 32-bit word to the right. -/
def rotr (n x : Nat) : Nat := x / 2 ^ n + x % 2 ^ n * 2 ^ (32 - n)

/-- The message schedule grows by `n` words, the latest first. -/
def schedule : Nat → List Nat → List Nat
  | 0, w => w
  | n + 1, w =>
    let g := fun i => w.getD (i - 1) 0
    let s0 := rotr 7 (g 15) ^^^ rotr 18 (g 15) ^^^ (g 15 / 8)
    let s1 := rotr 17 (g 2) ^^^ rotr 19 (g 2) ^^^ (g 2 / 1024)
    schedule n (((g 16 + s0 + g 7 + s1) % 2 ^ 32) :: w)

/-- One round on the eight working words. -/
def shaRound (h : List Nat) (kw : Nat) : List Nat :=
  match h with
  | [a, b, c, d, e, f, g, x] =>
    let t1 := x + (rotr 6 e ^^^ rotr 11 e ^^^ rotr 25 e) + ((e &&& f) ^^^ ((2 ^ 32 - 1 - e) &&& g)) + kw
    let t2 := (rotr 2 a ^^^ rotr 13 a ^^^ rotr 22 a) + ((a &&& b) ^^^ (a &&& c) ^^^ (b &&& c))
    [(t1 + t2) % 2 ^ 32, a, b, c, (d + t1) % 2 ^ 32, e, f, g]
  | _ => h

/-- The number that bytes spell, the first most significant. -/
def bigNum (b : List Byte) : Nat := b.foldl (fun n x => n * 256 + x.toNat) 0

/-- One 64-byte block taken into the hash. -/
def shaBlock (k : List Nat) (h : List Nat) (blk : List Byte) : List Nat :=
  let w := (schedule 48 ((List.range 16).map fun i => bigNum ((blk.drop (4 * i)).take 4)).reverse).reverse
  let r := (List.zipWith (· + ·) k w).foldl shaRound h
  List.zipWith (fun x y => (x + y) % 2 ^ 32) h r

/-- The blocks of a padded message, in order. -/
def shaGo (k : List Nat) : Nat → List Nat → List Byte → List Nat
  | 0, h, _ => h
  | n + 1, h, m => shaGo k n (shaBlock k h (m.take 64)) (m.drop 64)

/-- SHA-256 of bytes, as a number (FIPS 180-4). -/
def sha256 (m : List Byte) : Nat :=
  let n := m.length
  let pad := m ++ [0x80#8] ++ List.replicate ((119 - n % 64) % 64) 0#8 ++ (List.range 8).map fun i => byte (8 * n / 256 ^ (7 - i))
  (shaGo ((primes 64).map (rootFrac 3)) (pad.length / 64) ((primes 8).map (rootFrac 2)) pad).foldl (fun x w => x * 2 ^ 32 + w) 0

/-- The field prime, the coefficient b, the order and the base point of NIST P-256. -/
def p256p : Nat := 0xFFFFFFFF00000001000000000000000000000000FFFFFFFFFFFFFFFFFFFFFFFF
def p256b : Nat := 0x5AC635D8AA3A93E7B3EBBD55769886BC651D06B0CC53B0F63BCE3C3E27D2604B
def p256n : Nat := 0xFFFFFFFF00000000FFFFFFFFFFFFFFFFBCE6FAADA7179E84F3B9CAC2FC632551
def p256G : Nat × Nat := (0x6B17D1F2E12C4247F8BCE6E563A440F277037D812DEB33A0F4A13945D898C296, 0x4FE342E2FE1A7F9B8EE7EB4A7C0F9E162BCE33576B315ECECBB6406837BF51F5)

/-- `x ^ e` modulo `m`, by the low `i` bits of `e`. -/
def powMod (m e : Nat) : Nat → Nat → Nat
  | 0, _ => 1 % m
  | i + 1, x =>
    let y := powMod m (e / 2) i (x * x % m)
    if e % 2 = 1 then y * x % m else y

/-- The inverse modulo a 256-bit prime. -/
def invMod (m x : Nat) : Nat := powMod m (m - 2) 256 (x % m)

/-- A point of the curve, `none` at infinity. -/
abbrev CurvePoint := Option (Nat × Nat)

/-- The sum of two points of P-256. -/
def pointAdd (a b : CurvePoint) : CurvePoint :=
  match a, b with
  | none, q => q
  | q, none => q
  | some (x1, y1), some (x2, y2) =>
    let p := p256p
    if x1 = x2 ∧ (y1 + y2) % p = 0 then none
    else
      let l := if x1 = x2 then (3 * x1 * x1 + (p - 3)) * invMod p (2 * y1) % p else (y2 + p - y1) * invMod p (x2 + p - x1) % p
      let x := (l * l + 2 * p - x1 - x2) % p
      some (x, (l * (x1 + p - x) + p - y1) % p)

/-- A multiple of a point, by the low `i` bits of the factor. -/
def pointMul (e : Nat) : Nat → CurvePoint → CurvePoint
  | 0, _ => none
  | i + 1, q =>
    let r := pointMul (e / 2) i (pointAdd q q)
    if e % 2 = 1 then pointAdd r q else r

/-- Does the signature (r, s) of a hash verify under a public key (FIPS 186-4)? -/
def ecdsaOk (key : Nat × Nat) (hash r s : Nat) : Bool :=
  let n := p256n
  let w := invMod n s
  let q := pointAdd (pointMul (hash * w % n) 256 (some p256G)) (pointMul (r * w % n) 256 (some key))
  decide (1 ≤ r) && decide (r < n) && decide (1 ≤ s) && decide (s < n) && match q with
    | none => false
    | some (x, _) => x % n == r

end Sys2Proof.Machine
end

