-- ==== Sys2Proof/Machine/Crypto.lean ====
section
/-!
DEFINITION. AES-128, the AES-128-CMAC of RFC 4493 that authenticates packets (12_command_packets.md R373), and the key
unwrap of RFC 3394 (R403).
-/

namespace Sys2Proof.Machine

/-- The AES substitution box as one number, entry x in bits [8x + 7 : 8x]. -/
def sbox : Nat := 0x16BB54B00F2D99416842E6BF0D89A18CDF2855CEE9871E9B948ED9691198F8E19E1DC186B95735610EF6034866B53E708A8BBD4B1F74DDE8C6B4A61C2E2578BA08AE7A65EAF4566CA94ED58D6D37C8E779E4959162ACD3C25C2406490A3A32E0DB0B5EDE14B8EE4688902A22DC4F816073195D643D7EA7C41744975FEC130CCDD2F3FF1021DAB6BCF5389D928F40A351A89F3C507F02F94585334D43FBAAEFD0CF584C4A39BECB6A5BB1FC20ED00D153842FE329B3D63B52A05A6E1B1A2C830975B227EBE28012079A059618C323C7041531D871F1E5A534CCF73F362693FDB7C072A49CAFA2D4ADF04759FA7DC982CA76ABD7FE2B670130C56F6BF27B777C63

/-- The inverse substitution box, laid out likewise. -/
def sboxInv : Nat := 0x7D0C2155631469E126D677BA7E042B17619953833CBBEBC8B0F52AAE4D3BE0A0EF9CC9939F7AE52D0D4AB519A97F51605FEC8027591012B131C7078833A8DD1FF45ACD78FEC0DB9A2079D2C64B3E56FC1BBE18AA0E62B76F89C5291D711AF1476EDF751CE837F9E28535ADE72274AC9673E6B4F0CECFF297EADC674F4111913A6B8A130103BDAFC1020F3FCA8F1E2CD00645B3B80558E4F70AD3BC8C00ABD890849D8DA75746155EDAB9EDFD5048706C92B6655DCC5CA4D41698688664F6F87225D18B6D49A25B76B224D92866A12E084EC3FA420B954CEE3D23C2A632947B54CBE9DEC444438E3487FF2F9B8239E37CFBD7F3819EA340BF38A53630D56A0952

/-- One substitution. -/
def subst (tab x : Nat) : Nat := (tab >>> (8 * x)) % 256

/-- Multiplication by x in the AES field. -/
def xtime (x : Nat) : Nat := if x < 128 then 2 * x else (2 * x) ^^^ 0x11B

/-- Multiplication in the AES field by a constant below 16. -/
def gmul (k x : Nat) : Nat :=
  (if bit k 0 then x else 0) ^^^ (if bit k 1 then xtime x else 0) ^^^ (if bit k 2 then xtime (xtime x) else 0)
    ^^^ (if bit k 3 then xtime (xtime (xtime x)) else 0)

/-- Exclusive or of two blocks. -/
def xorL (a b : List Nat) : List Nat := List.zipWith (· ^^^ ·) a b

/-- The round key after a given one. -/
def nextKey (rc : Nat) (k : List Nat) : List Nat :=
  let g := fun i => k.getD i 0
  let w0 := xorL (k.take 4) [subst sbox (g 13) ^^^ rc, subst sbox (g 14), subst sbox (g 15), subst sbox (g 12)]
  let w1 := xorL (bytes4 k 4) w0
  let w2 := xorL (bytes4 k 8) w1
  w0 ++ w1 ++ w2 ++ xorL (bytes4 k 12) w2
where
  bytes4 (k : List Nat) (i : Nat) : List Nat := (k.drop i).take 4

/-- The eleven round keys. -/
def roundKeys (k : List Nat) : List (List Nat) :=
  ([1, 2, 4, 8, 16, 32, 64, 128, 0x1B, 0x36].foldl
    (fun (acc : List (List Nat) × List Nat) rc => let n := nextKey rc acc.2; (acc.1 ++ [n], n)) ([k], k)).1

/-- The byte order after ShiftRows. -/
def shiftRows (b : List Nat) : List Nat :=
  [0, 5, 10, 15, 4, 9, 14, 3, 8, 13, 2, 7, 12, 1, 6, 11].map fun i => b.getD i 0

/-- The byte order after the inverse of ShiftRows. -/
def shiftRowsInv (b : List Nat) : List Nat :=
  [0, 13, 10, 7, 4, 1, 14, 11, 8, 5, 2, 15, 12, 9, 6, 3].map fun i => b.getD i 0

/-- MixColumns with the coefficients a, b, c, d of the first row. -/
def mixCols (a b c d : Nat) : List Nat → List Nat
  | x :: y :: z :: w :: rest =>
    [gmul a x ^^^ gmul b y ^^^ gmul c z ^^^ gmul d w, gmul d x ^^^ gmul a y ^^^ gmul b z ^^^ gmul c w,
     gmul c x ^^^ gmul d y ^^^ gmul a z ^^^ gmul b w, gmul b x ^^^ gmul c y ^^^ gmul d z ^^^ gmul a w]
      ++ mixCols a b c d rest
  | _ => []

/-- AES-128 encryption of a 16-byte block. -/
def aesEnc (key blk : List Nat) : List Nat :=
  match roundKeys key with
  | [k0, k1, k2, k3, k4, k5, k6, k7, k8, k9, k10] =>
    let rnd := fun st k => xorL (mixCols 2 3 1 1 (shiftRows (st.map (subst sbox)))) k
    xorL (shiftRows (([k1, k2, k3, k4, k5, k6, k7, k8, k9].foldl rnd (xorL blk k0)).map (subst sbox))) k10
  | _ => []

/-- AES-128 decryption of a 16-byte block. -/
def aesDec (key blk : List Nat) : List Nat :=
  match roundKeys key with
  | [k0, k1, k2, k3, k4, k5, k6, k7, k8, k9, k10] =>
    let rnd := fun st k => mixCols 14 11 13 9 (xorL ((shiftRowsInv st).map (subst sboxInv)) k)
    xorL ((shiftRowsInv ([k9, k8, k7, k6, k5, k4, k3, k2, k1].foldl rnd (xorL blk k10))).map (subst sboxInv)) k0
  | _ => []

/-- The number a block spells, first byte most significant. -/
def beNum (b : List Nat) : Nat := b.foldl (fun a x => a * 256 + x) 0

/-- The `n` bytes of a number, first byte most significant. -/
def beBytes (n v : Nat) : List Nat := (List.range n).map fun i => v / 256 ^ (n - 1 - i) % 256

/-- Doubling in the field of the CMAC subkeys. -/
def cmacDbl (v : Nat) : Nat := if v < 2 ^ 127 then 2 * v else (2 * v) % 2 ^ 128 ^^^ 0x87

/-- The blocks of a message before the last, chained; then the last block under its subkey. -/
def cmacGo (key : List Nat) (k1 k2 : Nat) : Nat → List Nat → List Nat → List Nat
  | 0, x, _ => x
  | fuel + 1, x, m =>
    if m.length > 16 then cmacGo key k1 k2 fuel (aesEnc key (xorL x (m.take 16))) (m.drop 16)
    else if m.length = 16 then aesEnc key (xorL x (xorL m (beBytes 16 k1)))
    else aesEnc key (xorL x (xorL (m ++ [0x80] ++ List.replicate (15 - m.length) 0) (beBytes 16 k2)))

/-- AES-128-CMAC (RFC 4493). -/
def cmac (key msg : List Byte) : List Byte :=
  let k := key.map BitVec.toNat
  let k1 := cmacDbl (beNum (aesEnc k (List.replicate 16 0)))
  (cmacGo k k1 (cmacDbl k1) (msg.length + 1) (List.replicate 16 0) (msg.map BitVec.toNat)).map byte

/-- One step of the key unwrap of RFC 3394 with two key halves. -/
def unwrapStep (key : List Nat) (acc : List Nat × List Nat × List Nat) (t : Nat) : List Nat × List Nat × List Nat :=
  let (a, r1, r2) := acc
  let at_ := beBytes 8 (beNum a ^^^ t)
  if t % 2 = 0 then
    let b := aesDec key (at_ ++ r2); (b.take 8, r1, b.drop 8)
  else
    let b := aesDec key (at_ ++ r1); (b.take 8, b.drop 8, r2)

/-- The 16-byte key that 24 wrapped bytes hold, none where the integrity check fails (RFC 3394). -/
def keyUnwrap (key wrapped : List Byte) : Option (List Byte) :=
  let w := wrapped.map BitVec.toNat
  let (a, r1, r2) := [12, 11, 10, 9, 8, 7, 6, 5, 4, 3, 2, 1].foldl (unwrapStep (key.map BitVec.toNat))
    (w.take 8, (w.drop 8).take 8, w.drop 16)
  if a = List.replicate 8 0xA6 then some ((r1 ++ r2).map byte) else none

end Sys2Proof.Machine
end

