-- ==== Sys2Proof/Machine/RegMap.lean ====
section
/-!
DEFINITION. The register map: every register of the manual's register tables, its address, its fields, their access
types and reset values (Table 01-3, R4, R5, R8 and the register tables of chapters 01 to 17). Written from those
tables; a field whose Reset column says NVM carries the mark `nvm` and value 0 until boot loads it (R5). An address is
given for every instance number; a number beyond the last instance stands for it modulo the count, so that an address
never leaves its array.
-/

namespace Sys2Proof.Machine

/-- The access types of Table 00-4. -/
inductive Acc where
  | rw | ro | wo | w1c | w1s | rc | rwl
  deriving DecidableEq, Repr

/-- The place of a field in its register: lowest bit and width (R2). -/
structure Fld where
  lo : Nat
  width : Nat
  deriving DecidableEq, Repr

/-- One field of a register table: place, access type, reset value, and whether the reset value comes from NVM. -/
structure FldDesc where
  lo : Nat
  width : Nat
  acc : Acc
  reset : Nat
  nvm : Bool
  deriving DecidableEq, Repr

/-- One register table: name, first address, step between instances (0 for a single one), instances, 32-bit words,
fields other than rsvd. -/
structure RegDesc where
  name : String
  base : Nat
  step : Nat
  count : Nat
  words : Nat
  fields : List FldDesc
  deriving DecidableEq, Repr

end Sys2Proof.Machine

namespace Sys2Proof.Machine.Reg

/-- SYS_HUB_ADDR (01_architecture.md). -/
def SYS_HUB_ADDR : Nat := 0x00104

/-- SYS_PWR_STATE (01_architecture.md). -/
def SYS_PWR_STATE : Nat := 0x00100

/-- AFE_CH_CFG(c) (02_front_end.md). -/
def AFE_CH_CFG (c : Nat) : Nat := 0x10000 + 0x10 * (c % 512)

/-- AFE_CH_THR(c) (02_front_end.md). -/
def AFE_CH_THR (c : Nat) : Nat := 0x10004 + 0x10 * (c % 512)

/-- AFE_CH_STAT(c) (02_front_end.md). -/
def AFE_CH_STAT (c : Nat) : Nat := 0x10008 + 0x10 * (c % 512)

/-- AFE_BAY_EXC(b) (02_front_end.md). -/
def AFE_BAY_EXC (b : Nat) : Nat := 0x12000 + 0x10 * (b % 64)

/-- AFE_BAY_SWEEP(b) (02_front_end.md). -/
def AFE_BAY_SWEEP (b : Nat) : Nat := 0x12004 + 0x10 * (b % 64)

/-- AFE_BAY_MON(b) (02_front_end.md). -/
def AFE_BAY_MON (b : Nat) : Nat := 0x12008 + 0x10 * (b % 64)

/-- AFE_CTRL (02_front_end.md). -/
def AFE_CTRL : Nat := 0x13000

/-- AFE_WIRE_BREAK(k) (02_front_end.md). -/
def AFE_WIRE_BREAK (k : Nat) : Nat := 0x13100 + 4 * (k % 16)

/-- AFE_CLAMP_SEEN(k) (02_front_end.md). -/
def AFE_CLAMP_SEEN (k : Nat) : Nat := 0x13180 + 4 * (k % 16)

/-- CONV_BAY_MODE(b) (03_conversion.md). -/
def CONV_BAY_MODE (b : Nat) : Nat := 0x20000 + 0x10 * (b % 64)

/-- CONV_BAY_BURST(b) (03_conversion.md). -/
def CONV_BAY_BURST (b : Nat) : Nat := 0x20004 + 0x10 * (b % 64)

/-- CONV_BAY_STAT(b) (03_conversion.md). -/
def CONV_BAY_STAT (b : Nat) : Nat := 0x20008 + 0x10 * (b % 64)

/-- CONV_TRIM(c) (03_conversion.md). -/
def CONV_TRIM (c : Nat) : Nat := 0x21000 + 4 * (c % 512)

/-- CONV_RELIEF(k) (03_conversion.md). -/
def CONV_RELIEF (k : Nat) : Nat := 0x22000 + 4 * (k % 4)

/-- CONV_TSEQ(i) (03_conversion.md). -/
def CONV_TSEQ (i : Nat) : Nat := 0x23000 + 4 * (i % 64)

/-- CONV_TSEQ_CTRL (03_conversion.md). -/
def CONV_TSEQ_CTRL : Nat := 0x23100

/-- CONV_TSEQ_STAT (03_conversion.md). -/
def CONV_TSEQ_STAT : Nat := 0x23104

/-- CONV_TRESULT(s) (03_conversion.md). -/
def CONV_TRESULT (s : Nat) : Nat := 0x23200 + 4 * (s % 64)

/-- DEC_CH_CFG(c) (04_decimation.md). -/
def DEC_CH_CFG (c : Nat) : Nat := 0x30000 + 0x10 * (c % 512)

/-- DEC_CH_STAT(c) (04_decimation.md). -/
def DEC_CH_STAT (c : Nat) : Nat := 0x30004 + 0x10 * (c % 512)

/-- DEC_CH_DELAY(c) (04_decimation.md). -/
def DEC_CH_DELAY (c : Nat) : Nat := 0x30008 + 0x10 * (c % 512)

/-- DEC_BAY_CFG(b) (04_decimation.md). -/
def DEC_BAY_CFG (b : Nat) : Nat := 0x32000 + 0x10 * (b % 64)

/-- DEC_BAY_STAT(b) (04_decimation.md). -/
def DEC_BAY_STAT (b : Nat) : Nat := 0x32004 + 0x10 * (b % 64)

/-- DEC_DET_CFG(c) (04_decimation.md). -/
def DEC_DET_CFG (c : Nat) : Nat := 0x34000 + 8 * (c % 512)

/-- DEC_DET_VAL(c) (04_decimation.md). -/
def DEC_DET_VAL (c : Nat) : Nat := 0x34004 + 8 * (c % 512)

/-- DEC_STREAM(c) (04_decimation.md). -/
def DEC_STREAM (c : Nat) : Nat := 0x36000 + 4 * (c % 592)

/-- DEC_LOAD (04_decimation.md). -/
def DEC_LOAD : Nat := 0x37000

/-- TB_CTRL (05_time_base.md). -/
def TB_CTRL : Nat := 0x40000

/-- TB_STATUS (05_time_base.md). -/
def TB_STATUS : Nat := 0x40004

/-- TB_XC (05_time_base.md). -/
def TB_XC : Nat := 0x40008

/-- TB_REF (05_time_base.md). -/
def TB_REF : Nat := 0x40010

/-- TB_DOM_CFG(d) (05_time_base.md). -/
def TB_DOM_CFG (d : Nat) : Nat := 0x40100 + 0x100 * (d % 2)

/-- TB_DOM_STAT(d) (05_time_base.md). -/
def TB_DOM_STAT (d : Nat) : Nat := 0x40104 + 0x100 * (d % 2)

/-- TB_PPS_DELAY(d) (05_time_base.md). -/
def TB_PPS_DELAY (d : Nat) : Nat := 0x40108 + 0x100 * (d % 2)

/-- TB_INCR(d) (05_time_base.md). -/
def TB_INCR (d : Nat) : Nat := 0x40110 + 0x100 * (d % 2)

/-- TB_ANCHOR_XC(d) (05_time_base.md). -/
def TB_ANCHOR_XC (d : Nat) : Nat := 0x40118 + 0x100 * (d % 2)

/-- TB_ANCHOR_SEC(d) (05_time_base.md). -/
def TB_ANCHOR_SEC (d : Nat) : Nat := 0x40120 + 0x100 * (d % 2)

/-- TB_ANCHOR_FRAC(d) (05_time_base.md). -/
def TB_ANCHOR_FRAC (d : Nat) : Nat := 0x40128 + 0x100 * (d % 2)

/-- TB_ANCHOR_CTRL(d) (05_time_base.md). -/
def TB_ANCHOR_CTRL (d : Nat) : Nat := 0x40130 + 0x100 * (d % 2)

/-- TB_PORT_ASYM(p) (05_time_base.md). -/
def TB_PORT_ASYM (p : Nat) : Nat := 0x41000 + 0x20 * (p % 8)

/-- TB_PORT_DELAY(p) (05_time_base.md). -/
def TB_PORT_DELAY (p : Nat) : Nat := 0x41004 + 0x20 * (p % 8)

/-- TB_PORT_OFFSET(p,d) (05_time_base.md). -/
def TB_PORT_OFFSET (p d : Nat) : Nat := 0x41008 + 0x20 * (p % 8) + 4 * (d % 2)

/-- TB_PORT_FLAGS(p) (05_time_base.md). -/
def TB_PORT_FLAGS (p : Nat) : Nat := 0x41010 + 0x20 * (p % 8)

/-- TB_ACT_CTRL(i) (05_time_base.md). -/
def TB_ACT_CTRL (i : Nat) : Nat := 0x42000 + 0x20 * (i % 32)

/-- TB_ACT_ARG(i) (05_time_base.md). -/
def TB_ACT_ARG (i : Nat) : Nat := 0x42004 + 0x20 * (i % 32)

/-- TB_ACT_TIME(i) (05_time_base.md). -/
def TB_ACT_TIME (i : Nat) : Nat := 0x42008 + 0x20 * (i % 32)

/-- TIU_SRC_CFG(s) (06_interval_unit.md). -/
def TIU_SRC_CFG (s : Nat) : Nat := 0x50000 + 4 * (s % 64)

/-- TIU_CORE_STAT(v) (06_interval_unit.md). -/
def TIU_CORE_STAT (v : Nat) : Nat := 0x50100 + 0x10 * (v % 8)

/-- TIU_CORE_ERR(v) (06_interval_unit.md). -/
def TIU_CORE_ERR (v : Nat) : Nat := 0x50104 + 0x10 * (v % 8)

/-- TIU_HOST_STAT (06_interval_unit.md). -/
def TIU_HOST_STAT : Nat := 0x50200

/-- CAP_TRIG_CFG(t) (07_panes_and_triggers.md). -/
def CAP_TRIG_CFG (t : Nat) : Nat := 0x60000 + 0x20 * (t % 32)

/-- CAP_TRIG_LINTEL(t) (07_panes_and_triggers.md). -/
def CAP_TRIG_LINTEL (t : Nat) : Nat := 0x60004 + 0x20 * (t % 32)

/-- CAP_TRIG_SILL(t) (07_panes_and_triggers.md). -/
def CAP_TRIG_SILL (t : Nat) : Nat := 0x60008 + 0x20 * (t % 32)

/-- CAP_TRIG_PARAM(t) (07_panes_and_triggers.md). -/
def CAP_TRIG_PARAM (t : Nat) : Nat := 0x6000C + 0x20 * (t % 32)

/-- CAP_TRIG_STAT(t) (07_panes_and_triggers.md). -/
def CAP_TRIG_STAT (t : Nat) : Nat := 0x60010 + 0x20 * (t % 32)

/-- CAP_ENG_CFG(e) (07_panes_and_triggers.md). -/
def CAP_ENG_CFG (e : Nat) : Nat := 0x61000 + 0x40 * (e % 16)

/-- CAP_ENG_CHAN(e) (07_panes_and_triggers.md). -/
def CAP_ENG_CHAN (e : Nat) : Nat := 0x61004 + 0x40 * (e % 16)

/-- CAP_ENG_PRE(e) (07_panes_and_triggers.md). -/
def CAP_ENG_PRE (e : Nat) : Nat := 0x61008 + 0x40 * (e % 16)

/-- CAP_ENG_POST(e) (07_panes_and_triggers.md). -/
def CAP_ENG_POST (e : Nat) : Nat := 0x6100C + 0x40 * (e % 16)

/-- CAP_ENG_MAXLEN(e) (07_panes_and_triggers.md). -/
def CAP_ENG_MAXLEN (e : Nat) : Nat := 0x61010 + 0x40 * (e % 16)

/-- CAP_ENG_TRIG(e) (07_panes_and_triggers.md). -/
def CAP_ENG_TRIG (e : Nat) : Nat := 0x61014 + 0x40 * (e % 16)

/-- CAP_ENG_STAT(e) (07_panes_and_triggers.md). -/
def CAP_ENG_STAT (e : Nat) : Nat := 0x61018 + 0x40 * (e % 16)

/-- CAP_ENG_CNT(e) (07_panes_and_triggers.md). -/
def CAP_ENG_CNT (e : Nat) : Nat := 0x6101C + 0x40 * (e % 16)

/-- CAP_MEAS_CFG(c) (07_panes_and_triggers.md). -/
def CAP_MEAS_CFG (c : Nat) : Nat := 0x62000 + 4 * (c % 512)

/-- CAP_HIST_STAT (07_panes_and_triggers.md). -/
def CAP_HIST_STAT : Nat := 0x63000

/-- CAP_ANN_CFG (07_panes_and_triggers.md). -/
def CAP_ANN_CFG : Nat := 0x63100

/-- FLD_PORT_CFG(n) (08_field_ports_and_outputs.md). -/
def FLD_PORT_CFG (n : Nat) : Nat := 0x70000 + 0x40 * (n % 4)

/-- FLD_PORT_TIMING(n) (08_field_ports_and_outputs.md). -/
def FLD_PORT_TIMING (n : Nat) : Nat := 0x70004 + 0x40 * (n % 4)

/-- FLD_PORT_TX(n) (08_field_ports_and_outputs.md). -/
def FLD_PORT_TX (n : Nat) : Nat := 0x70008 + 0x40 * (n % 4)

/-- FLD_PORT_STAT(n) (08_field_ports_and_outputs.md). -/
def FLD_PORT_STAT (n : Nat) : Nat := 0x7000C + 0x40 * (n % 4)

/-- FLD_DEC_CFG(d) (08_field_ports_and_outputs.md). -/
def FLD_DEC_CFG (d : Nat) : Nat := 0x71000 + 0x20 * (d % 64)

/-- FLD_DEC_MATCH(d) (08_field_ports_and_outputs.md). -/
def FLD_DEC_MATCH (d : Nat) : Nat := 0x71004 + 0x20 * (d % 64)

/-- FLD_DEC_MASK(d) (08_field_ports_and_outputs.md). -/
def FLD_DEC_MASK (d : Nat) : Nat := 0x71008 + 0x20 * (d % 64)

/-- FLD_DEC_LINTEL(d) (08_field_ports_and_outputs.md). -/
def FLD_DEC_LINTEL (d : Nat) : Nat := 0x7100C + 0x20 * (d % 64)

/-- FLD_DEC_SILL(d) (08_field_ports_and_outputs.md). -/
def FLD_DEC_SILL (d : Nat) : Nat := 0x71010 + 0x20 * (d % 64)

/-- FLD_TRIP_CFG(t) (08_field_ports_and_outputs.md). -/
def FLD_TRIP_CFG (t : Nat) : Nat := 0x72000 + 0x20 * (t % 16)

/-- FLD_TRIP_LINTEL(t) (08_field_ports_and_outputs.md). -/
def FLD_TRIP_LINTEL (t : Nat) : Nat := 0x72004 + 0x20 * (t % 16)

/-- FLD_TRIP_SILL(t) (08_field_ports_and_outputs.md). -/
def FLD_TRIP_SILL (t : Nat) : Nat := 0x72008 + 0x20 * (t % 16)

/-- FLD_TRIP_TIME(t) (08_field_ports_and_outputs.md). -/
def FLD_TRIP_TIME (t : Nat) : Nat := 0x7200C + 0x20 * (t % 16)

/-- FLD_TRIP_STAT(t) (08_field_ports_and_outputs.md). -/
def FLD_TRIP_STAT (t : Nat) : Nat := 0x72010 + 0x20 * (t % 16)

/-- FLD_FOUT_CFG(o) (08_field_ports_and_outputs.md). -/
def FLD_FOUT_CFG (o : Nat) : Nat := 0x73000 + 0x20 * (o % 8)

/-- FLD_FOUT_VLO(o) (08_field_ports_and_outputs.md). -/
def FLD_FOUT_VLO (o : Nat) : Nat := 0x73004 + 0x20 * (o % 8)

/-- FLD_FOUT_VHI(o) (08_field_ports_and_outputs.md). -/
def FLD_FOUT_VHI (o : Nat) : Nat := 0x73008 + 0x20 * (o % 8)

/-- FLD_FOUT_RANGE(o) (08_field_ports_and_outputs.md). -/
def FLD_FOUT_RANGE (o : Nat) : Nat := 0x7300C + 0x20 * (o % 8)

/-- FLD_CTRL (08_field_ports_and_outputs.md). -/
def FLD_CTRL : Nat := 0x74000

/-- QM_Q_CFG(q) (09_queues_and_retention.md). -/
def QM_Q_CFG (q : Nat) : Nat := 0x80000 + 0x20 * (q % 64)

/-- QM_Q_WM(q) (09_queues_and_retention.md). -/
def QM_Q_WM (q : Nat) : Nat := 0x80004 + 0x20 * (q % 64)

/-- QM_Q_STAT(q) (09_queues_and_retention.md). -/
def QM_Q_STAT (q : Nat) : Nat := 0x80008 + 0x20 * (q % 64)

/-- QM_Q_FLAGS(q) (09_queues_and_retention.md). -/
def QM_Q_FLAGS (q : Nat) : Nat := 0x8000C + 0x20 * (q % 64)

/-- QM_CTRL (09_queues_and_retention.md). -/
def QM_CTRL : Nat := 0x81000

/-- QM_POOL_STAT (09_queues_and_retention.md). -/
def QM_POOL_STAT : Nat := 0x81004

/-- QM_RET_CFG (09_queues_and_retention.md). -/
def QM_RET_CFG : Nat := 0x81010

/-- QM_RET_STAT (09_queues_and_retention.md). -/
def QM_RET_STAT : Nat := 0x81014

/-- QM_RET_USED (09_queues_and_retention.md). -/
def QM_RET_USED : Nat := 0x81018

/-- QM_DROP_STAT (09_queues_and_retention.md). -/
def QM_DROP_STAT : Nat := 0x81020

/-- QM_REL_STAT (09_queues_and_retention.md). -/
def QM_REL_STAT : Nat := 0x81024

/-- QM_SHUT_CTRL(i) (09_queues_and_retention.md). -/
def QM_SHUT_CTRL (i : Nat) : Nat := 0x82000 + 0x10 * (i % 32)

/-- QM_SHUT_HUB(i) (09_queues_and_retention.md). -/
def QM_SHUT_HUB (i : Nat) : Nat := 0x82004 + 0x10 * (i % 32)

/-- QM_SHUT_CHAN(i) (09_queues_and_retention.md). -/
def QM_SHUT_CHAN (i : Nat) : Nat := 0x82008 + 0x10 * (i % 32)

/-- QM_SHUT_TYPE(i) (09_queues_and_retention.md). -/
def QM_SHUT_TYPE (i : Nat) : Nat := 0x8200C + 0x10 * (i % 32)

/-- CMP_CTRL (10_compression.md). -/
def CMP_CTRL : Nat := 0x90000

/-- CMP_STAT (10_compression.md). -/
def CMP_STAT : Nat := 0x90004

/-- CMP_RATIO (10_compression.md). -/
def CMP_RATIO : Nat := 0x90008

/-- CMP_ERR (10_compression.md). -/
def CMP_ERR : Nat := 0x9000C

/-- CMP_LAST_ERR (10_compression.md). -/
def CMP_LAST_ERR : Nat := 0x90010

/-- CMP_LAST_POS (10_compression.md). -/
def CMP_LAST_POS : Nat := 0x90014

/-- CMP_SLOT(s) (10_compression.md). -/
def CMP_SLOT (s : Nat) : Nat := 0x90100 + 0x10 * (s % 4)

/-- CMP_SLOT_OUT(s) (10_compression.md). -/
def CMP_SLOT_OUT (s : Nat) : Nat := 0x90104 + 0x10 * (s % 4)

/-- LNK_PORT_CFG(p) (11_serial_lanes_and_syrilink.md). -/
def LNK_PORT_CFG (p : Nat) : Nat := 0xA0000 + 0x40 * (p % 8)

/-- LNK_PORT_CREDIT(p) (11_serial_lanes_and_syrilink.md). -/
def LNK_PORT_CREDIT (p : Nat) : Nat := 0xA0004 + 0x40 * (p % 8)

/-- LNK_PORT_STAT(p) (11_serial_lanes_and_syrilink.md). -/
def LNK_PORT_STAT (p : Nat) : Nat := 0xA0008 + 0x40 * (p % 8)

/-- LNK_PORT_ERR(p) (11_serial_lanes_and_syrilink.md). -/
def LNK_PORT_ERR (p : Nat) : Nat := 0xA000C + 0x40 * (p % 8)

/-- LNK_PORT_CNT(p) (11_serial_lanes_and_syrilink.md). -/
def LNK_PORT_CNT (p : Nat) : Nat := 0xA0010 + 0x40 * (p % 8)

/-- LNK_PORT_RTT(p) (11_serial_lanes_and_syrilink.md). -/
def LNK_PORT_RTT (p : Nat) : Nat := 0xA0014 + 0x40 * (p % 8)

/-- LNK_LANE_STAT(l) (11_serial_lanes_and_syrilink.md). -/
def LNK_LANE_STAT (l : Nat) : Nat := 0xA1000 + 0x10 * (l % 32)

/-- LNK_ROUTE_CFG (11_serial_lanes_and_syrilink.md). -/
def LNK_ROUTE_CFG : Nat := 0xA2000

/-- LNK_ROUTE_STAT (11_serial_lanes_and_syrilink.md). -/
def LNK_ROUTE_STAT : Nat := 0xA2004

/-- LNK_MOD_STAT(p) (11_serial_lanes_and_syrilink.md). -/
def LNK_MOD_STAT (p : Nat) : Nat := 0xA3000 + 0x10 * (p % 8)

/-- CMD_STAT (12_command_packets.md). -/
def CMD_STAT : Nat := 0xB0000

/-- CMD_ERR (12_command_packets.md). -/
def CMD_ERR : Nat := 0xB0004

/-- CMD_CACHE (12_command_packets.md). -/
def CMD_CACHE : Nat := 0xB0008

/-- CMD_SPI_CTRL (12_command_packets.md). -/
def CMD_SPI_CTRL : Nat := 0xB0010

/-- CMD_SLOT(s) (12_command_packets.md). -/
def CMD_SLOT (s : Nat) : Nat := 0xB0100 + 0x10 * (s % 16)

/-- CMD_SLOT_CTR(s) (12_command_packets.md). -/
def CMD_SLOT_CTR (s : Nat) : Nat := 0xB0104 + 0x10 * (s % 16)

/-- RED_CFG (13_head_redundancy.md). -/
def RED_CFG : Nat := 0xC0000

/-- RED_PARTNER (13_head_redundancy.md). -/
def RED_PARTNER : Nat := 0xC0004

/-- RED_WITNESS (13_head_redundancy.md). -/
def RED_WITNESS : Nat := 0xC0008

/-- RED_STAT (13_head_redundancy.md). -/
def RED_STAT : Nat := 0xC0010

/-- RED_EPOCH (13_head_redundancy.md). -/
def RED_EPOCH : Nat := 0xC0014

/-- RED_COUNT (13_head_redundancy.md). -/
def RED_COUNT : Nat := 0xC0018

/-- RED_LEDGER (13_head_redundancy.md). -/
def RED_LEDGER : Nat := 0xC001C

/-- RED_MIRROR (13_head_redundancy.md). -/
def RED_MIRROR : Nat := 0xC0020

/-- RED_WIT_CFG(k) (13_head_redundancy.md). -/
def RED_WIT_CFG (k : Nat) : Nat := 0xC0100 + 0x10 * (k % 4)

/-- RED_WIT_STAT(k) (13_head_redundancy.md). -/
def RED_WIT_STAT (k : Nat) : Nat := 0xC0104 + 0x10 * (k % 4)

/-- RED_WIT_EPOCH(k) (13_head_redundancy.md). -/
def RED_WIT_EPOCH (k : Nat) : Nat := 0xC0108 + 0x10 * (k % 4)

/-- MEM_BOOT_STAT (14_memory_and_ecc.md). -/
def MEM_BOOT_STAT : Nat := 0xD0000

/-- MEM_LAYOUT (14_memory_and_ecc.md). -/
def MEM_LAYOUT : Nat := 0xD0004

/-- MEM_DRAM_CFG (14_memory_and_ecc.md). -/
def MEM_DRAM_CFG : Nat := 0xD0008

/-- MEM_SCRUB_STAT (14_memory_and_ecc.md). -/
def MEM_SCRUB_STAT : Nat := 0xD000C

/-- MEM_ERR(m) (14_memory_and_ecc.md). -/
def MEM_ERR (m : Nat) : Nat := 0xD0100 + 0x20 * (m % 5)

/-- MEM_ERR_INFO(m) (14_memory_and_ecc.md). -/
def MEM_ERR_INFO (m : Nat) : Nat := 0xD0104 + 0x20 * (m % 5)

/-- MEM_ERR_ADDR(m) (14_memory_and_ecc.md). -/
def MEM_ERR_ADDR (m : Nat) : Nat := 0xD0108 + 0x20 * (m % 5)

/-- SYS_ID (15_porter_management.md). -/
def SYS_ID : Nat := 0x00000

/-- SYS_SERIAL (15_porter_management.md). -/
def SYS_SERIAL : Nat := 0x00008

/-- SYS_RESET_CAUSE (15_porter_management.md). -/
def SYS_RESET_CAUSE : Nat := 0x00110

/-- SYS_BOOT_STAT (15_porter_management.md). -/
def SYS_BOOT_STAT : Nat := 0x00114

/-- SYS_SLOT(s) (15_porter_management.md). -/
def SYS_SLOT (s : Nat) : Nat := 0x00120 + 8 * (s % 2)

/-- SYS_BOOT_CFG (15_porter_management.md). -/
def SYS_BOOT_CFG : Nat := 0x00130

/-- SYS_PORTER_STAT (15_porter_management.md). -/
def SYS_PORTER_STAT : Nat := 0x00134

/-- SYS_BB_CFG (15_porter_management.md). -/
def SYS_BB_CFG : Nat := 0x00140

/-- SYS_BB_STAT (15_porter_management.md). -/
def SYS_BB_STAT : Nat := 0x00144

/-- SYS_BB_SEQ (15_porter_management.md). -/
def SYS_BB_SEQ : Nat := 0x00148

/-- SYS_SENSOR_ALM (15_porter_management.md). -/
def SYS_SENSOR_ALM : Nat := 0x00150

/-- SYS_CON_CFG (15_porter_management.md). -/
def SYS_CON_CFG : Nat := 0x00160

/-- CAL_POLICY (16_calibration.md). -/
def CAL_POLICY : Nat := 0xF0000

/-- CAL_PERIOD (16_calibration.md). -/
def CAL_PERIOD : Nat := 0xF0004

/-- CAL_STAT (16_calibration.md). -/
def CAL_STAT : Nat := 0xF0010

/-- CAL_COUNT (16_calibration.md). -/
def CAL_COUNT : Nat := 0xF0014

/-- CAL_GRP_STAT(g) (16_calibration.md). -/
def CAL_GRP_STAT (g : Nat) : Nat := 0xF0100 + 0x10 * (g % 29)

/-- CAL_GRP_QUAL(g) (16_calibration.md). -/
def CAL_GRP_QUAL (g : Nat) : Nat := 0xF0104 + 0x10 * (g % 29)

/-- PMC_CTRL (17_counters_and_test.md). -/
def PMC_CTRL : Nat := 0xE0000

/-- PMC_STAT (17_counters_and_test.md). -/
def PMC_STAT : Nat := 0xE0004

/-- PMC_CYCLE (17_counters_and_test.md). -/
def PMC_CYCLE : Nat := 0xE0008

/-- PMC_DUMP (17_counters_and_test.md). -/
def PMC_DUMP : Nat := 0xE0010

/-- PMC_CFG(i) (17_counters_and_test.md). -/
def PMC_CFG (i : Nat) : Nat := 0xE0100 + 0x10 * (i % 8)

/-- PMC_CNT(i) (17_counters_and_test.md). -/
def PMC_CNT (i : Nat) : Nat := 0xE0104 + 0x10 * (i % 8)

/-- PMC_TONE(b) (17_counters_and_test.md). -/
def PMC_TONE (b : Nat) : Nat := 0xE0200 + 4 * (b % 64)

end Sys2Proof.Machine.Reg

namespace Sys2Proof.Machine.Bits

/-- VALID [31] of SYS_HUB_ADDR. -/
def SYS_HUB_ADDR_VALID : Fld := ⟨31, 1⟩

/-- LIVE_ADDR [26:16] of SYS_HUB_ADDR. -/
def SYS_HUB_ADDR_LIVE_ADDR : Fld := ⟨16, 11⟩

/-- NEXT_ADDR [10:0] of SYS_HUB_ADDR. -/
def SYS_HUB_ADDR_NEXT_ADDR : Fld := ⟨0, 11⟩

/-- LAST_CAUSE [15:12] of SYS_PWR_STATE. -/
def SYS_PWR_STATE_LAST_CAUSE : Fld := ⟨12, 4⟩

/-- TARGET [10:8] of SYS_PWR_STATE. -/
def SYS_PWR_STATE_TARGET : Fld := ⟨8, 3⟩

/-- IN_TRANSITION [7] of SYS_PWR_STATE. -/
def SYS_PWR_STATE_IN_TRANSITION : Fld := ⟨7, 1⟩

/-- CURRENT [2:0] of SYS_PWR_STATE. -/
def SYS_PWR_STATE_CURRENT : Fld := ⟨0, 3⟩

/-- WET [26] of AFE_CH_CFG. -/
def AFE_CH_CFG_WET : Fld := ⟨26, 1⟩

/-- RESET_LVL [25:24] of AFE_CH_CFG. -/
def AFE_CH_CFG_RESET_LVL : Fld := ⟨24, 2⟩

/-- CM_CHECK [22] of AFE_CH_CFG. -/
def AFE_CH_CFG_CM_CHECK : Fld := ⟨22, 1⟩

/-- PILOT [21] of AFE_CH_CFG. -/
def AFE_CH_CFG_PILOT : Fld := ⟨21, 1⟩

/-- WIRE_EN [20] of AFE_CH_CFG. -/
def AFE_CH_CFG_WIRE_EN : Fld := ⟨20, 1⟩

/-- AAF [17:16] of AFE_CH_CFG. -/
def AFE_CH_CFG_AAF : Fld := ⟨16, 2⟩

/-- RANGE_FINE [14:12] of AFE_CH_CFG. -/
def AFE_CH_CFG_RANGE_FINE : Fld := ⟨12, 3⟩

/-- RANGE_WIDE [10:8] of AFE_CH_CFG. -/
def AFE_CH_CFG_RANGE_WIDE : Fld := ⟨8, 3⟩

/-- AUTO [7] of AFE_CH_CFG. -/
def AFE_CH_CFG_AUTO : Fld := ⟨7, 1⟩

/-- RANGE [6:4] of AFE_CH_CFG. -/
def AFE_CH_CFG_RANGE : Fld := ⟨4, 3⟩

/-- MODE [2:0] of AFE_CH_CFG. -/
def AFE_CH_CFG_MODE : Fld := ⟨0, 3⟩

/-- LINTEL [25:16] of AFE_CH_THR. -/
def AFE_CH_THR_LINTEL : Fld := ⟨16, 10⟩

/-- SILL [9:0] of AFE_CH_THR. -/
def AFE_CH_THR_SILL : Fld := ⟨0, 10⟩

/-- CLAMP_COUNT [31:16] of AFE_CH_STAT. -/
def AFE_CH_STAT_CLAMP_COUNT : Fld := ⟨16, 16⟩

/-- CLAMP_NOW [15] of AFE_CH_STAT. -/
def AFE_CH_STAT_CLAMP_NOW : Fld := ⟨15, 1⟩

/-- WIRE_CAUSE [14:12] of AFE_CH_STAT. -/
def AFE_CH_STAT_WIRE_CAUSE : Fld := ⟨12, 3⟩

/-- WIRE_NOW [11] of AFE_CH_STAT. -/
def AFE_CH_STAT_WIRE_NOW : Fld := ⟨11, 1⟩

/-- RANGE_NOW [10:8] of AFE_CH_STAT. -/
def AFE_CH_STAT_RANGE_NOW : Fld := ⟨8, 3⟩

/-- RESET_COUNT [7:0] of AFE_CH_STAT. -/
def AFE_CH_STAT_RESET_COUNT : Fld := ⟨0, 8⟩

/-- EMODE [31:30] of AFE_BAY_EXC. -/
def AFE_BAY_EXC_EMODE : Fld := ⟨30, 2⟩

/-- BOOST [29] of AFE_BAY_EXC. -/
def AFE_BAY_EXC_BOOST : Fld := ⟨29, 1⟩

/-- AMP [27:16] of AFE_BAY_EXC. -/
def AFE_BAY_EXC_AMP : Fld := ⟨16, 12⟩

/-- DIV [11:0] of AFE_BAY_EXC. -/
def AFE_BAY_EXC_DIV : Fld := ⟨0, 12⟩

/-- END_DIV [31:20] of AFE_BAY_SWEEP. -/
def AFE_BAY_SWEEP_END_DIV : Fld := ⟨20, 12⟩

/-- DURATION [15:8] of AFE_BAY_SWEEP. -/
def AFE_BAY_SWEEP_DURATION : Fld := ⟨8, 8⟩

/-- PULSES [7:0] of AFE_BAY_SWEEP. -/
def AFE_BAY_SWEEP_PULSES : Fld := ⟨0, 8⟩

/-- SENSE_AMP [31:16] of AFE_BAY_MON. -/
def AFE_BAY_MON_SENSE_AMP : Fld := ⟨16, 16⟩

/-- EXC_CURRENT [15:8] of AFE_BAY_MON. -/
def AFE_BAY_MON_EXC_CURRENT : Fld := ⟨8, 8⟩

/-- LIMIT [7] of AFE_BAY_MON. -/
def AFE_BAY_MON_LIMIT : Fld := ⟨7, 1⟩

/-- REGULATED [6] of AFE_BAY_MON. -/
def AFE_BAY_MON_REGULATED : Fld := ⟨6, 1⟩

/-- TEST_TICK [15:0] of AFE_CTRL. -/
def AFE_CTRL_TEST_TICK : Fld := ⟨0, 16⟩

/-- BREAK [31:0] of AFE_WIRE_BREAK. -/
def AFE_WIRE_BREAK_BREAK : Fld := ⟨0, 32⟩

/-- SEEN [31:0] of AFE_CLAMP_SEEN. -/
def AFE_CLAMP_SEEN_SEEN : Fld := ⟨0, 32⟩

/-- BMODE [5:4] of CONV_BAY_MODE. -/
def CONV_BAY_MODE_BMODE : Fld := ⟨4, 2⟩

/-- SCAN [1:0] of CONV_BAY_MODE. -/
def CONV_BAY_MODE_SCAN : Fld := ⟨0, 2⟩

/-- PERIOD [31:16] of CONV_BAY_BURST. -/
def CONV_BAY_BURST_PERIOD : Fld := ⟨16, 16⟩

/-- LEN [15:0] of CONV_BAY_BURST. -/
def CONV_BAY_BURST_LEN : Fld := ⟨0, 16⟩

/-- BURST_COUNT [31:16] of CONV_BAY_STAT. -/
def CONV_BAY_STAT_BURST_COUNT : Fld := ⟨16, 16⟩

/-- CAL_BUSY [4] of CONV_BAY_STAT. -/
def CONV_BAY_STAT_CAL_BUSY : Fld := ⟨4, 1⟩

/-- RELIEF [3] of CONV_BAY_STAT. -/
def CONV_BAY_STAT_RELIEF : Fld := ⟨3, 1⟩

/-- AWAKE [2] of CONV_BAY_STAT. -/
def CONV_BAY_STAT_AWAKE : Fld := ⟨2, 1⟩

/-- SCAN_NOW [1:0] of CONV_BAY_STAT. -/
def CONV_BAY_STAT_SCAN_NOW : Fld := ⟨0, 2⟩

/-- TRIM [6:0] of CONV_TRIM. -/
def CONV_TRIM_TRIM : Fld := ⟨0, 7⟩

/-- MISMATCH_COUNT [31:16] of CONV_RELIEF. -/
def CONV_RELIEF_MISMATCH_COUNT : Fld := ⟨16, 16⟩

/-- LAST_DIFF [15:8] of CONV_RELIEF. -/
def CONV_RELIEF_LAST_DIFF : Fld := ⟨8, 8⟩

/-- ACTIVE [7] of CONV_RELIEF. -/
def CONV_RELIEF_ACTIVE : Fld := ⟨7, 1⟩

/-- BAY [5:0] of CONV_RELIEF. -/
def CONV_RELIEF_BAY : Fld := ⟨0, 6⟩

/-- LAST [31] of CONV_TSEQ. -/
def CONV_TSEQ_LAST : Fld := ⟨31, 1⟩

/-- SETTLE [23:16] of CONV_TSEQ. -/
def CONV_TSEQ_SETTLE : Fld := ⟨16, 8⟩

/-- AVG [12:10] of CONV_TSEQ. -/
def CONV_TSEQ_AVG : Fld := ⟨10, 3⟩

/-- BIAS [9:8] of CONV_TSEQ. -/
def CONV_TSEQ_BIAS : Fld := ⟨8, 2⟩

/-- SRC [5:0] of CONV_TSEQ. -/
def CONV_TSEQ_SRC : Fld := ⟨0, 6⟩

/-- PERIOD [31:16] of CONV_TSEQ_CTRL. -/
def CONV_TSEQ_CTRL_PERIOD : Fld := ⟨16, 16⟩

/-- TRIG_IN_EN [15:12] of CONV_TSEQ_CTRL. -/
def CONV_TSEQ_CTRL_TRIG_IN_EN : Fld := ⟨12, 4⟩

/-- START [9] of CONV_TSEQ_CTRL. -/
def CONV_TSEQ_CTRL_START : Fld := ⟨9, 1⟩

/-- COMMIT [8] of CONV_TSEQ_CTRL. -/
def CONV_TSEQ_CTRL_COMMIT : Fld := ⟨8, 1⟩

/-- FIRST [5:0] of CONV_TSEQ_CTRL. -/
def CONV_TSEQ_CTRL_FIRST : Fld := ⟨0, 6⟩

/-- OVERRUN [31:16] of CONV_TSEQ_STAT. -/
def CONV_TSEQ_STAT_OVERRUN : Fld := ⟨16, 16⟩

/-- RUNNING [15] of CONV_TSEQ_STAT. -/
def CONV_TSEQ_STAT_RUNNING : Fld := ⟨15, 1⟩

/-- PENDING [14] of CONV_TSEQ_STAT. -/
def CONV_TSEQ_STAT_PENDING : Fld := ⟨14, 1⟩

/-- CAL [13] of CONV_TSEQ_STAT. -/
def CONV_TSEQ_STAT_CAL : Fld := ⟨13, 1⟩

/-- URGENT_DEPTH [12:10] of CONV_TSEQ_STAT. -/
def CONV_TSEQ_STAT_URGENT_DEPTH : Fld := ⟨10, 3⟩

/-- ENTRY [5:0] of CONV_TSEQ_STAT. -/
def CONV_TSEQ_STAT_ENTRY : Fld := ⟨0, 6⟩

/-- VALID [31] of CONV_TRESULT. -/
def CONV_TRESULT_VALID : Fld := ⟨31, 1⟩

/-- CODE [17:0] of CONV_TRESULT. -/
def CONV_TRESULT_CODE : Fld := ⟨0, 18⟩

/-- FORMAT [11:10] of DEC_CH_CFG. -/
def DEC_CH_CFG_FORMAT : Fld := ⟨10, 2⟩

/-- GRID [8] of DEC_CH_CFG. -/
def DEC_CH_CFG_GRID : Fld := ⟨8, 1⟩

/-- RATE [7:0] of DEC_CH_CFG. -/
def DEC_CH_CFG_RATE : Fld := ⟨0, 8⟩

/-- RUNNING [31] of DEC_CH_STAT. -/
def DEC_CH_STAT_RUNNING : Fld := ⟨31, 1⟩

/-- WAITING [30] of DEC_CH_STAT. -/
def DEC_CH_STAT_WAITING : Fld := ⟨30, 1⟩

/-- SCALE [29:27] of DEC_CH_STAT. -/
def DEC_CH_STAT_SCALE : Fld := ⟨27, 3⟩

/-- RESTARTS [15:0] of DEC_CH_STAT. -/
def DEC_CH_STAT_RESTARTS : Fld := ⟨0, 16⟩

/-- AFE_DELAY [63:48] of DEC_CH_DELAY. -/
def DEC_CH_DELAY_AFE_DELAY : Fld := ⟨48, 16⟩

/-- GD [47:0] of DEC_CH_DELAY. -/
def DEC_CH_DELAY_GD : Fld := ⟨0, 48⟩

/-- PHASE_TRIM [31:20] of DEC_BAY_CFG. -/
def DEC_BAY_CFG_PHASE_TRIM : Fld := ⟨20, 12⟩

/-- HIST_EN [16] of DEC_BAY_CFG. -/
def DEC_BAY_CFG_HIST_EN : Fld := ⟨16, 1⟩

/-- HIST_RATE [7:0] of DEC_BAY_CFG. -/
def DEC_BAY_CFG_HIST_RATE : Fld := ⟨0, 8⟩

/-- HIST_RUN [2] of DEC_BAY_STAT. -/
def DEC_BAY_STAT_HIST_RUN : Fld := ⟨2, 1⟩

/-- PANE_TAPS [1:0] of DEC_BAY_STAT. -/
def DEC_BAY_STAT_PANE_TAPS : Fld := ⟨0, 2⟩

/-- EN [31] of DEC_DET_CFG. -/
def DEC_DET_CFG_EN : Fld := ⟨31, 1⟩

/-- TYPE [30:29] of DEC_DET_CFG. -/
def DEC_DET_CFG_TYPE : Fld := ⟨29, 2⟩

/-- SRC [28:27] of DEC_DET_CFG. -/
def DEC_DET_CFG_SRC : Fld := ⟨27, 2⟩

/-- K [20:16] of DEC_DET_CFG. -/
def DEC_DET_CFG_K : Fld := ⟨16, 5⟩

/-- SETTLING [31] of DEC_DET_VAL. -/
def DEC_DET_VAL_SETTLING : Fld := ⟨31, 1⟩

/-- VALUE [30:0] of DEC_DET_VAL. -/
def DEC_DET_VAL_VALUE : Fld := ⟨0, 31⟩

/-- EN [31] of DEC_STREAM. -/
def DEC_STREAM_EN : Fld := ⟨31, 1⟩

/-- CMP [30] of DEC_STREAM. -/
def DEC_STREAM_CMP : Fld := ⟨30, 1⟩

/-- PRIO [29:28] of DEC_STREAM. -/
def DEC_STREAM_PRIO : Fld := ⟨28, 2⟩

/-- REC_PERIOD [15:0] of DEC_STREAM. -/
def DEC_STREAM_REC_PERIOD : Fld := ⟨0, 16⟩

/-- LIMIT [31:16] of DEC_LOAD. -/
def DEC_LOAD_LIMIT : Fld := ⟨16, 16⟩

/-- LOAD [15:0] of DEC_LOAD. -/
def DEC_LOAD_LOAD : Fld := ⟨0, 16⟩

/-- PREFER_B [2] of TB_CTRL. -/
def TB_CTRL_PREFER_B : Fld := ⟨2, 1⟩

/-- SELECT [1:0] of TB_CTRL. -/
def TB_CTRL_SELECT : Fld := ⟨0, 2⟩

/-- REF_OK [7] of TB_STATUS. -/
def TB_STATUS_REF_OK : Fld := ⟨7, 1⟩

/-- SLEWING [6] of TB_STATUS. -/
def TB_STATUS_SLEWING : Fld := ⟨6, 1⟩

/-- TQ [3:2] of TB_STATUS. -/
def TB_STATUS_TQ : Fld := ⟨2, 2⟩

/-- SERVED [0] of TB_STATUS. -/
def TB_STATUS_SERVED : Fld := ⟨0, 1⟩

/-- XC [63:0] of TB_XC. -/
def TB_XC_XC : Fld := ⟨0, 64⟩

/-- REF_EN [31] of TB_REF. -/
def TB_REF_REF_EN : Fld := ⟨31, 1⟩

/-- FREQ_ERR [23:0] of TB_REF. -/
def TB_REF_FREQ_ERR : Fld := ⟨0, 24⟩

/-- GM_EN [31] of TB_DOM_CFG. -/
def TB_DOM_CFG_GM_EN : Fld := ⟨31, 1⟩

/-- PPS_FALL [30] of TB_DOM_CFG. -/
def TB_DOM_CFG_PPS_FALL : Fld := ⟨30, 1⟩

/-- TOD_PORT [29:28] of TB_DOM_CFG. -/
def TB_DOM_CFG_TOD_PORT : Fld := ⟨28, 2⟩

/-- TOD_FMT [27:26] of TB_DOM_CFG. -/
def TB_DOM_CFG_TOD_FMT : Fld := ⟨26, 2⟩

/-- STEP_REACQ [25] of TB_DOM_CFG. -/
def TB_DOM_CFG_STEP_REACQ : Fld := ⟨25, 1⟩

/-- HOLD_LIMIT [23:16] of TB_DOM_CFG. -/
def TB_DOM_CFG_HOLD_LIMIT : Fld := ⟨16, 8⟩

/-- UTC_OFFSET [15:0] of TB_DOM_CFG. -/
def TB_DOM_CFG_UTC_OFFSET : Fld := ⟨0, 16⟩

/-- STATE [27:26] of TB_DOM_STAT. -/
def TB_DOM_STAT_STATE : Fld := ⟨26, 2⟩

/-- TQ [25:24] of TB_DOM_STAT. -/
def TB_DOM_STAT_TQ : Fld := ⟨24, 2⟩

/-- ASYM_UNK [23] of TB_DOM_STAT. -/
def TB_DOM_STAT_ASYM_UNK : Fld := ⟨23, 1⟩

/-- FROZEN [22] of TB_DOM_STAT. -/
def TB_DOM_STAT_FROZEN : Fld := ⟨22, 1⟩

/-- INCR_PENDING [21] of TB_DOM_STAT. -/
def TB_DOM_STAT_INCR_PENDING : Fld := ⟨21, 1⟩

/-- UPSTREAM [19:16] of TB_DOM_STAT. -/
def TB_DOM_STAT_UPSTREAM : Fld := ⟨16, 4⟩

/-- HOPS [15:8] of TB_DOM_STAT. -/
def TB_DOM_STAT_HOPS : Fld := ⟨8, 8⟩

/-- STEP_COUNT [7:0] of TB_DOM_STAT. -/
def TB_DOM_STAT_STEP_COUNT : Fld := ⟨0, 8⟩

/-- PPS_DELAY [31:0] of TB_PPS_DELAY. -/
def TB_PPS_DELAY_PPS_DELAY : Fld := ⟨0, 32⟩

/-- INCR [63:0] of TB_INCR. -/
def TB_INCR_INCR : Fld := ⟨0, 64⟩

/-- XC [63:0] of TB_ANCHOR_XC. -/
def TB_ANCHOR_XC_XC : Fld := ⟨0, 64⟩

/-- SEC [47:0] of TB_ANCHOR_SEC. -/
def TB_ANCHOR_SEC_SEC : Fld := ⟨0, 48⟩

/-- FRAC [47:0] of TB_ANCHOR_FRAC. -/
def TB_ANCHOR_FRAC_FRAC : Fld := ⟨0, 48⟩

/-- GO [31] of TB_ANCHOR_CTRL. -/
def TB_ANCHOR_CTRL_GO : Fld := ⟨31, 1⟩

/-- REFUSED_COUNT [15:0] of TB_ANCHOR_CTRL. -/
def TB_ANCHOR_CTRL_REFUSED_COUNT : Fld := ⟨0, 16⟩

/-- ASYM [31:0] of TB_PORT_ASYM. -/
def TB_PORT_ASYM_ASYM : Fld := ⟨0, 32⟩

/-- MEAN_DELAY [31:0] of TB_PORT_DELAY. -/
def TB_PORT_DELAY_MEAN_DELAY : Fld := ⟨0, 32⟩

/-- OFFSET [31:0] of TB_PORT_OFFSET. -/
def TB_PORT_OFFSET_OFFSET : Fld := ⟨0, 32⟩

/-- STEP_COUNT [31:16] of TB_PORT_FLAGS. -/
def TB_PORT_FLAGS_STEP_COUNT : Fld := ⟨16, 16⟩

/-- ASYM_UNKNOWN [3] of TB_PORT_FLAGS. -/
def TB_PORT_FLAGS_ASYM_UNKNOWN : Fld := ⟨3, 1⟩

/-- PATH_STEP_SEEN [2] of TB_PORT_FLAGS. -/
def TB_PORT_FLAGS_PATH_STEP_SEEN : Fld := ⟨2, 1⟩

/-- LEGACY [1] of TB_PORT_FLAGS. -/
def TB_PORT_FLAGS_LEGACY : Fld := ⟨1, 1⟩

/-- EXCHANGING [0] of TB_PORT_FLAGS. -/
def TB_PORT_FLAGS_EXCHANGING : Fld := ⟨0, 1⟩

/-- ARMED [31] of TB_ACT_CTRL. -/
def TB_ACT_CTRL_ARMED : Fld := ⟨31, 1⟩

/-- ACTION [27:24] of TB_ACT_CTRL. -/
def TB_ACT_CTRL_ACTION : Fld := ⟨24, 4⟩

/-- P1 [23] of TB_ACT_CTRL. -/
def TB_ACT_CTRL_P1 : Fld := ⟨23, 1⟩

/-- P0 [22] of TB_ACT_CTRL. -/
def TB_ACT_CTRL_P0 : Fld := ⟨22, 1⟩

/-- COUNT [19:10] of TB_ACT_CTRL. -/
def TB_ACT_CTRL_COUNT : Fld := ⟨10, 10⟩

/-- FIRST [9:0] of TB_ACT_CTRL. -/
def TB_ACT_CTRL_FIRST : Fld := ⟨0, 10⟩

/-- ARG [31:0] of TB_ACT_ARG. -/
def TB_ACT_ARG_ARG : Fld := ⟨0, 32⟩

/-- TIME [63:0] of TB_ACT_TIME. -/
def TB_ACT_TIME_TIME : Fld := ⟨0, 64⟩

/-- EN [31] of TIU_SRC_CFG. -/
def TIU_SRC_CFG_EN : Fld := ⟨31, 1⟩

/-- CORE [30:28] of TIU_SRC_CFG. -/
def TIU_SRC_CFG_CORE : Fld := ⟨28, 3⟩

/-- CONSUMER [27:26] of TIU_SRC_CFG. -/
def TIU_SRC_CFG_CONSUMER : Fld := ⟨26, 2⟩

/-- EDGE [25] of TIU_SRC_CFG. -/
def TIU_SRC_CFG_EDGE : Fld := ⟨25, 1⟩

/-- BOTH [24] of TIU_SRC_CFG. -/
def TIU_SRC_CFG_BOTH : Fld := ⟨24, 1⟩

/-- CHANNEL [9:0] of TIU_SRC_CFG. -/
def TIU_SRC_CFG_CHANNEL : Fld := ⟨0, 10⟩

/-- MISSED [31:16] of TIU_CORE_STAT. -/
def TIU_CORE_STAT_MISSED : Fld := ⟨16, 16⟩

/-- LOCK_F [11] of TIU_CORE_STAT. -/
def TIU_CORE_STAT_LOCK_F : Fld := ⟨11, 1⟩

/-- LOCK_S [10] of TIU_CORE_STAT. -/
def TIU_CORE_STAT_LOCK_S : Fld := ⟨10, 1⟩

/-- CAL [9] of TIU_CORE_STAT. -/
def TIU_CORE_STAT_CAL : Fld := ⟨9, 1⟩

/-- MOVED [8] of TIU_CORE_STAT. -/
def TIU_CORE_STAT_MOVED : Fld := ⟨8, 1⟩

/-- DEPTH [6:0] of TIU_CORE_STAT. -/
def TIU_CORE_STAT_DEPTH : Fld := ⟨0, 7⟩

/-- OVERFLOW [31:16] of TIU_CORE_ERR. -/
def TIU_CORE_ERR_OVERFLOW : Fld := ⟨16, 16⟩

/-- STAMPS [15:0] of TIU_CORE_ERR. -/
def TIU_CORE_ERR_STAMPS : Fld := ⟨0, 16⟩

/-- LOST [31:16] of TIU_HOST_STAT. -/
def TIU_HOST_STAT_LOST : Fld := ⟨16, 16⟩

/-- DEPTH [10:0] of TIU_HOST_STAT. -/
def TIU_HOST_STAT_DEPTH : Fld := ⟨0, 11⟩

/-- EN [31] of CAP_TRIG_CFG. -/
def CAP_TRIG_CFG_EN : Fld := ⟨31, 1⟩

/-- TYPE [30:28] of CAP_TRIG_CFG. -/
def CAP_TRIG_CFG_TYPE : Fld := ⟨28, 3⟩

/-- POL [27] of CAP_TRIG_CFG. -/
def CAP_TRIG_CFG_POL : Fld := ⟨27, 1⟩

/-- ANNOUNCE [26] of CAP_TRIG_CFG. -/
def CAP_TRIG_CFG_ANNOUNCE : Fld := ⟨26, 1⟩

/-- SIG [25:24] of CAP_TRIG_CFG. -/
def CAP_TRIG_CFG_SIG : Fld := ⟨24, 2⟩

/-- GROUP [23:16] of CAP_TRIG_CFG. -/
def CAP_TRIG_CFG_GROUP : Fld := ⟨16, 8⟩

/-- SEL [9:0] of CAP_TRIG_CFG. -/
def CAP_TRIG_CFG_SEL : Fld := ⟨0, 10⟩

/-- LINTEL [31:0] of CAP_TRIG_LINTEL. -/
def CAP_TRIG_LINTEL_LINTEL : Fld := ⟨0, 32⟩

/-- SILL [31:0] of CAP_TRIG_SILL. -/
def CAP_TRIG_SILL_SILL : Fld := ⟨0, 32⟩

/-- PARAM [31:0] of CAP_TRIG_PARAM. -/
def CAP_TRIG_PARAM_PARAM : Fld := ⟨0, 32⟩

/-- FIRES [31:16] of CAP_TRIG_STAT. -/
def CAP_TRIG_STAT_FIRES : Fld := ⟨16, 16⟩

/-- READY [15] of CAP_TRIG_STAT. -/
def CAP_TRIG_STAT_READY : Fld := ⟨15, 1⟩

/-- ANN_SUPPRESSED [7:0] of CAP_TRIG_STAT. -/
def CAP_TRIG_STAT_ANN_SUPPRESSED : Fld := ⟨0, 8⟩

/-- ARM [31] of CAP_ENG_CFG. -/
def CAP_ENG_CFG_ARM : Fld := ⟨31, 1⟩

/-- SOURCE [30] of CAP_ENG_CFG. -/
def CAP_ENG_CFG_SOURCE : Fld := ⟨30, 1⟩

/-- GRID [29] of CAP_ENG_CFG. -/
def CAP_ENG_CFG_GRID : Fld := ⟨29, 1⟩

/-- RETRIG [28:27] of CAP_ENG_CFG. -/
def CAP_ENG_CFG_RETRIG : Fld := ⟨27, 2⟩

/-- PRIO [26:25] of CAP_ENG_CFG. -/
def CAP_ENG_CFG_PRIO : Fld := ⟨25, 2⟩

/-- FORMAT [24:23] of CAP_ENG_CFG. -/
def CAP_ENG_CFG_FORMAT : Fld := ⟨23, 2⟩

/-- RATE [7:0] of CAP_ENG_CFG. -/
def CAP_ENG_CFG_RATE : Fld := ⟨0, 8⟩

/-- COUNT [22:16] of CAP_ENG_CHAN. -/
def CAP_ENG_CHAN_COUNT : Fld := ⟨16, 7⟩

/-- FIRST [8:0] of CAP_ENG_CHAN. -/
def CAP_ENG_CHAN_FIRST : Fld := ⟨0, 9⟩

/-- PRE [23:0] of CAP_ENG_PRE. -/
def CAP_ENG_PRE_PRE : Fld := ⟨0, 24⟩

/-- POST [23:0] of CAP_ENG_POST. -/
def CAP_ENG_POST_POST : Fld := ⟨0, 24⟩

/-- MAX_LEN [23:0] of CAP_ENG_MAXLEN. -/
def CAP_ENG_MAXLEN_MAX_LEN : Fld := ⟨0, 24⟩

/-- MASK [31:0] of CAP_ENG_TRIG. -/
def CAP_ENG_TRIG_MASK : Fld := ⟨0, 32⟩

/-- LOST [31:16] of CAP_ENG_STAT. -/
def CAP_ENG_STAT_LOST : Fld := ⟨16, 16⟩

/-- SLOTS [2:0] of CAP_ENG_STAT. -/
def CAP_ENG_STAT_SLOTS : Fld := ⟨0, 3⟩

/-- EXTENDS [31:16] of CAP_ENG_CNT. -/
def CAP_ENG_CNT_EXTENDS : Fld := ⟨16, 16⟩

/-- IGNORED [15:8] of CAP_ENG_CNT. -/
def CAP_ENG_CNT_IGNORED : Fld := ⟨8, 8⟩

/-- COINCIDENT [7:0] of CAP_ENG_CNT. -/
def CAP_ENG_CNT_COINCIDENT : Fld := ⟨0, 8⟩

/-- PER_RECORD [31] of CAP_MEAS_CFG. -/
def CAP_MEAS_CFG_PER_RECORD : Fld := ⟨31, 1⟩

/-- PER_PANE [30] of CAP_MEAS_CFG. -/
def CAP_MEAS_CFG_PER_PANE : Fld := ⟨30, 1⟩

/-- HYST [23:20] of CAP_MEAS_CFG. -/
def CAP_MEAS_CFG_HYST : Fld := ⟨20, 4⟩

/-- SEL [5:0] of CAP_MEAS_CFG. -/
def CAP_MEAS_CFG_SEL : Fld := ⟨0, 6⟩

/-- DEPTH_MS [31:8] of CAP_HIST_STAT. -/
def CAP_HIST_STAT_DEPTH_MS : Fld := ⟨8, 24⟩

/-- RUN [0] of CAP_HIST_STAT. -/
def CAP_HIST_STAT_RUN : Fld := ⟨0, 1⟩

/-- SCOPE [31:30] of CAP_ANN_CFG. -/
def CAP_ANN_CFG_SCOPE : Fld := ⟨30, 2⟩

/-- TTL [23:16] of CAP_ANN_CFG. -/
def CAP_ANN_CFG_TTL : Fld := ⟨16, 8⟩

/-- SLOT [3:0] of CAP_ANN_CFG. -/
def CAP_ANN_CFG_SLOT : Fld := ⟨0, 4⟩

/-- MODE [31:29] of FLD_PORT_CFG. -/
def FLD_PORT_CFG_MODE : Fld := ⟨29, 3⟩

/-- STAMP [28] of FLD_PORT_CFG. -/
def FLD_PORT_CFG_STAMP : Fld := ⟨28, 1⟩

/-- CHECK [27:26] of FLD_PORT_CFG. -/
def FLD_PORT_CFG_CHECK : Fld := ⟨26, 2⟩

/-- PARITY [25:24] of FLD_PORT_CFG. -/
def FLD_PORT_CFG_PARITY : Fld := ⟨24, 2⟩

/-- STOP2 [23] of FLD_PORT_CFG. -/
def FLD_PORT_CFG_STOP2 : Fld := ⟨23, 1⟩

/-- DATA7 [22] of FLD_PORT_CFG. -/
def FLD_PORT_CFG_DATA7 : Fld := ⟨22, 1⟩

/-- SPI_MODE [21:20] of FLD_PORT_CFG. -/
def FLD_PORT_CFG_SPI_MODE : Fld := ⟨20, 2⟩

/-- END_DELIM [19] of FLD_PORT_CFG. -/
def FLD_PORT_CFG_END_DELIM : Fld := ⟨19, 1⟩

/-- TX_LEN [18:16] of FLD_PORT_CFG. -/
def FLD_PORT_CFG_TX_LEN : Fld := ⟨16, 3⟩

/-- DELIM [15:8] of FLD_PORT_CFG. -/
def FLD_PORT_CFG_DELIM : Fld := ⟨8, 8⟩

/-- RX_LEN [7:0] of FLD_PORT_CFG. -/
def FLD_PORT_CFG_RX_LEN : Fld := ⟨0, 8⟩

/-- POLL [31:16] of FLD_PORT_TIMING. -/
def FLD_PORT_TIMING_POLL : Fld := ⟨16, 16⟩

/-- RATE [15:0] of FLD_PORT_TIMING. -/
def FLD_PORT_TIMING_RATE : Fld := ⟨0, 16⟩

/-- TX [31:0] of FLD_PORT_TX. -/
def FLD_PORT_TX_TX : Fld := ⟨0, 32⟩

/-- FRAMES [31:16] of FLD_PORT_STAT. -/
def FLD_PORT_STAT_FRAMES : Fld := ⟨16, 16⟩

/-- ERRORS [15:8] of FLD_PORT_STAT. -/
def FLD_PORT_STAT_ERRORS : Fld := ⟨8, 8⟩

/-- WAITING [2:0] of FLD_PORT_STAT. -/
def FLD_PORT_STAT_WAITING : Fld := ⟨0, 3⟩

/-- EN [31] of FLD_DEC_CFG. -/
def FLD_DEC_CFG_EN : Fld := ⟨31, 1⟩

/-- CMP [30:28] of FLD_DEC_CFG. -/
def FLD_DEC_CFG_CMP : Fld := ⟨28, 3⟩

/-- PORT [27:26] of FLD_DEC_CFG. -/
def FLD_DEC_CFG_PORT : Fld := ⟨26, 2⟩

/-- SIGN [25] of FLD_DEC_CFG. -/
def FLD_DEC_CFG_SIGN : Fld := ⟨25, 1⟩

/-- BIG [24] of FLD_DEC_CFG. -/
def FLD_DEC_CFG_BIG : Fld := ⟨24, 1⟩

/-- WIDTH [21:16] of FLD_DEC_CFG. -/
def FLD_DEC_CFG_WIDTH : Fld := ⟨16, 6⟩

/-- OFFSET [10:0] of FLD_DEC_CFG. -/
def FLD_DEC_CFG_OFFSET : Fld := ⟨0, 11⟩

/-- MMASK [31:24] of FLD_DEC_MATCH. -/
def FLD_DEC_MATCH_MMASK : Fld := ⟨24, 8⟩

/-- MVALUE [23:16] of FLD_DEC_MATCH. -/
def FLD_DEC_MATCH_MVALUE : Fld := ⟨16, 8⟩

/-- MBYTE [7:0] of FLD_DEC_MATCH. -/
def FLD_DEC_MATCH_MBYTE : Fld := ⟨0, 8⟩

/-- MASK [31:0] of FLD_DEC_MASK. -/
def FLD_DEC_MASK_MASK : Fld := ⟨0, 32⟩

/-- LINTEL [31:0] of FLD_DEC_LINTEL. -/
def FLD_DEC_LINTEL_LINTEL : Fld := ⟨0, 32⟩

/-- SILL [31:0] of FLD_DEC_SILL. -/
def FLD_DEC_SILL_SILL : Fld := ⟨0, 32⟩

/-- EN [31] of FLD_TRIP_CFG. -/
def FLD_TRIP_CFG_EN : Fld := ⟨31, 1⟩

/-- POL [30] of FLD_TRIP_CFG. -/
def FLD_TRIP_CFG_POL : Fld := ⟨30, 1⟩

/-- LATCH [29] of FLD_TRIP_CFG. -/
def FLD_TRIP_CFG_LATCH : Fld := ⟨29, 1⟩

/-- FAULT_TRIP [28] of FLD_TRIP_CFG. -/
def FLD_TRIP_CFG_FAULT_TRIP : Fld := ⟨28, 1⟩

/-- SRC [27:26] of FLD_TRIP_CFG. -/
def FLD_TRIP_CFG_SRC : Fld := ⟨26, 2⟩

/-- SEL [9:0] of FLD_TRIP_CFG. -/
def FLD_TRIP_CFG_SEL : Fld := ⟨0, 10⟩

/-- LINTEL [31:0] of FLD_TRIP_LINTEL. -/
def FLD_TRIP_LINTEL_LINTEL : Fld := ⟨0, 32⟩

/-- SILL [31:0] of FLD_TRIP_SILL. -/
def FLD_TRIP_SILL_SILL : Fld := ⟨0, 32⟩

/-- MIN_ON [31:16] of FLD_TRIP_TIME. -/
def FLD_TRIP_TIME_MIN_ON : Fld := ⟨16, 16⟩

/-- STALE [15:0] of FLD_TRIP_TIME. -/
def FLD_TRIP_TIME_STALE : Fld := ⟨0, 16⟩

/-- TRIPS [31:16] of FLD_TRIP_STAT. -/
def FLD_TRIP_STAT_TRIPS : Fld := ⟨16, 16⟩

/-- CAUSE [5:3] of FLD_TRIP_STAT. -/
def FLD_TRIP_STAT_CAUSE : Fld := ⟨3, 3⟩

/-- READY [2] of FLD_TRIP_STAT. -/
def FLD_TRIP_STAT_READY : Fld := ⟨2, 1⟩

/-- LATCHED [1] of FLD_TRIP_STAT. -/
def FLD_TRIP_STAT_LATCHED : Fld := ⟨1, 1⟩

/-- HEALTHY [0] of FLD_TRIP_STAT. -/
def FLD_TRIP_STAT_HEALTHY : Fld := ⟨0, 1⟩

/-- MODE [31:30] of FLD_FOUT_CFG. -/
def FLD_FOUT_CFG_MODE : Fld := ⟨30, 2⟩

/-- SRC [29:28] of FLD_FOUT_CFG. -/
def FLD_FOUT_CFG_SRC : Fld := ⟨28, 2⟩

/-- SEL [9:0] of FLD_FOUT_CFG. -/
def FLD_FOUT_CFG_SEL : Fld := ⟨0, 10⟩

/-- V_LO [31:0] of FLD_FOUT_VLO. -/
def FLD_FOUT_VLO_V_LO : Fld := ⟨0, 32⟩

/-- V_HI [31:0] of FLD_FOUT_VHI. -/
def FLD_FOUT_VHI_V_HI : Fld := ⟨0, 32⟩

/-- F_HI [31:16] of FLD_FOUT_RANGE. -/
def FLD_FOUT_RANGE_F_HI : Fld := ⟨16, 16⟩

/-- F_LO [15:0] of FLD_FOUT_RANGE. -/
def FLD_FOUT_RANGE_F_LO : Fld := ⟨0, 16⟩

/-- TRIP_LOCK [0] of FLD_CTRL. -/
def FLD_CTRL_TRIP_LOCK : Fld := ⟨0, 1⟩

/-- LIMIT [31:16] of QM_Q_CFG. -/
def QM_Q_CFG_LIMIT : Fld := ⟨16, 16⟩

/-- RESERVE [15:0] of QM_Q_CFG. -/
def QM_Q_CFG_RESERVE : Fld := ⟨0, 16⟩

/-- LINTEL [31:16] of QM_Q_WM. -/
def QM_Q_WM_LINTEL : Fld := ⟨16, 16⟩

/-- SILL [15:0] of QM_Q_WM. -/
def QM_Q_WM_SILL : Fld := ⟨0, 16⟩

/-- HELD [31:16] of QM_Q_STAT. -/
def QM_Q_STAT_HELD : Fld := ⟨16, 16⟩

/-- DEPTH [15:0] of QM_Q_STAT. -/
def QM_Q_STAT_DEPTH : Fld := ⟨0, 16⟩

/-- CROSSINGS [31:16] of QM_Q_FLAGS. -/
def QM_Q_FLAGS_CROSSINGS : Fld := ⟨16, 16⟩

/-- FULL [4] of QM_Q_FLAGS. -/
def QM_Q_FLAGS_FULL : Fld := ⟨4, 1⟩

/-- UNDERRUN [3] of QM_Q_FLAGS. -/
def QM_Q_FLAGS_UNDERRUN : Fld := ⟨3, 1⟩

/-- CROSSED [2] of QM_Q_FLAGS. -/
def QM_Q_FLAGS_CROSSED : Fld := ⟨2, 1⟩

/-- LEVEL [1] of QM_Q_FLAGS. -/
def QM_Q_FLAGS_LEVEL : Fld := ⟨1, 1⟩

/-- EMPTY [0] of QM_Q_FLAGS. -/
def QM_Q_FLAGS_EMPTY : Fld := ⟨0, 1⟩

/-- CUT [31:24] of QM_CTRL. -/
def QM_CTRL_CUT : Fld := ⟨24, 8⟩

/-- REL_TIMEOUT [15:0] of QM_CTRL. -/
def QM_CTRL_REL_TIMEOUT : Fld := ⟨0, 16⟩

/-- FREE [31:16] of QM_POOL_STAT. -/
def QM_POOL_STAT_FREE : Fld := ⟨16, 16⟩

/-- REPLAY [15:0] of QM_POOL_STAT. -/
def QM_POOL_STAT_REPLAY : Fld := ⟨0, 16⟩

/-- RET_CMP [31] of QM_RET_CFG. -/
def QM_RET_CFG_RET_CMP : Fld := ⟨31, 1⟩

/-- SPILL_HIGH [23:16] of QM_RET_CFG. -/
def QM_RET_CFG_SPILL_HIGH : Fld := ⟨16, 8⟩

/-- SPILL_AGE [15:0] of QM_RET_CFG. -/
def QM_RET_CFG_SPILL_AGE : Fld := ⟨0, 16⟩

/-- FILL [31:24] of QM_RET_STAT. -/
def QM_RET_STAT_FILL : Fld := ⟨24, 8⟩

/-- REWINDS [15:0] of QM_RET_STAT. -/
def QM_RET_STAT_REWINDS : Fld := ⟨0, 16⟩

/-- USED [63:0] of QM_RET_USED. -/
def QM_RET_USED_USED : Fld := ⟨0, 64⟩

/-- EXHAUSTED [31] of QM_DROP_STAT. -/
def QM_DROP_STAT_EXHAUSTED : Fld := ⟨31, 1⟩

/-- GAPS [30:16] of QM_DROP_STAT. -/
def QM_DROP_STAT_GAPS : Fld := ⟨16, 15⟩

/-- EVENTS_SUPPRESSED [15:0] of QM_DROP_STAT. -/
def QM_DROP_STAT_EVENTS_SUPPRESSED : Fld := ⟨0, 16⟩

/-- FREED [31:16] of QM_REL_STAT. -/
def QM_REL_STAT_FREED : Fld := ⟨16, 16⟩

/-- UNMATCHED [15:0] of QM_REL_STAT. -/
def QM_REL_STAT_UNMATCHED : Fld := ⟨0, 16⟩

/-- ACTIVE [31] of QM_SHUT_CTRL. -/
def QM_SHUT_CTRL_ACTIVE : Fld := ⟨31, 1⟩

/-- DISCARD [30] of QM_SHUT_CTRL. -/
def QM_SHUT_CTRL_DISCARD : Fld := ⟨30, 1⟩

/-- CLS_B [29] of QM_SHUT_CTRL. -/
def QM_SHUT_CTRL_CLS_B : Fld := ⟨29, 1⟩

/-- CLS_S [28] of QM_SHUT_CTRL. -/
def QM_SHUT_CTRL_CLS_S : Fld := ⟨28, 1⟩

/-- ID [15:0] of QM_SHUT_CTRL. -/
def QM_SHUT_CTRL_ID : Fld := ⟨0, 16⟩

/-- HUB_LAST [26:16] of QM_SHUT_HUB. -/
def QM_SHUT_HUB_HUB_LAST : Fld := ⟨16, 11⟩

/-- HUB_FIRST [10:0] of QM_SHUT_HUB. -/
def QM_SHUT_HUB_HUB_FIRST : Fld := ⟨0, 11⟩

/-- CH_LAST [25:16] of QM_SHUT_CHAN. -/
def QM_SHUT_CHAN_CH_LAST : Fld := ⟨16, 10⟩

/-- CH_FIRST [9:0] of QM_SHUT_CHAN. -/
def QM_SHUT_CHAN_CH_FIRST : Fld := ⟨0, 10⟩

/-- REMAIN [31:16] of QM_SHUT_TYPE. -/
def QM_SHUT_TYPE_REMAIN : Fld := ⟨16, 16⟩

/-- TYPES [8:0] of QM_SHUT_TYPE. -/
def QM_SHUT_TYPE_TYPES : Fld := ⟨0, 9⟩

/-- VERIFY [31] of CMP_CTRL. -/
def CMP_CTRL_VERIFY : Fld := ⟨31, 1⟩

/-- MAX_ORDER [27:26] of CMP_CTRL. -/
def CMP_CTRL_MAX_ORDER : Fld := ⟨26, 2⟩

/-- WINDOW [11:0] of CMP_CTRL. -/
def CMP_CTRL_WINDOW : Fld := ⟨0, 12⟩

/-- RECORDS [31:16] of CMP_STAT. -/
def CMP_STAT_RECORDS : Fld := ⟨16, 16⟩

/-- VERIFY_FAIL [15:0] of CMP_STAT. -/
def CMP_STAT_VERIFY_FAIL : Fld := ⟨0, 16⟩

/-- STORED_RECORDS [31:16] of CMP_RATIO. -/
def CMP_RATIO_STORED_RECORDS : Fld := ⟨16, 16⟩

/-- RATIO [15:0] of CMP_RATIO. -/
def CMP_RATIO_RATIO : Fld := ⟨0, 16⟩

/-- DECODE_ERRORS [31:16] of CMP_ERR. -/
def CMP_ERR_DECODE_ERRORS : Fld := ⟨16, 16⟩

/-- BYPASSED [15:0] of CMP_ERR. -/
def CMP_ERR_BYPASSED : Fld := ⟨0, 16⟩

/-- CODE [31:28] of CMP_LAST_ERR. -/
def CMP_LAST_ERR_CODE : Fld := ⟨28, 4⟩

/-- BLOCK [27:16] of CMP_LAST_ERR. -/
def CMP_LAST_ERR_BLOCK : Fld := ⟨16, 12⟩

/-- PATH [15] of CMP_LAST_ERR. -/
def CMP_LAST_ERR_PATH : Fld := ⟨15, 1⟩

/-- BIT_OFFSET [31:0] of CMP_LAST_POS. -/
def CMP_LAST_POS_BIT_OFFSET : Fld := ⟨0, 32⟩

/-- OPEN [31] of CMP_SLOT. -/
def CMP_SLOT_OPEN : Fld := ⟨31, 1⟩

/-- BUSY [30] of CMP_SLOT. -/
def CMP_SLOT_BUSY : Fld := ⟨30, 1⟩

/-- WIDTH [29:27] of CMP_SLOT. -/
def CMP_SLOT_WIDTH : Fld := ⟨27, 3⟩

/-- PENDING [12:0] of CMP_SLOT. -/
def CMP_SLOT_PENDING : Fld := ⟨0, 13⟩

/-- OUT_BYTES [31:0] of CMP_SLOT_OUT. -/
def CMP_SLOT_OUT_OUT_BYTES : Fld := ⟨0, 32⟩

/-- ROLE [31:28] of LNK_PORT_CFG. -/
def LNK_PORT_CFG_ROLE : Fld := ⟨28, 4⟩

/-- RATE [27:26] of LNK_PORT_CFG. -/
def LNK_PORT_CFG_RATE : Fld := ⟨26, 2⟩

/-- WIDTH [25:24] of LNK_PORT_CFG. -/
def LNK_PORT_CFG_WIDTH : Fld := ⟨24, 2⟩

/-- TEST [23] of LNK_PORT_CFG. -/
def LNK_PORT_CFG_TEST : Fld := ⟨23, 1⟩

/-- QUIET_BYP [22] of LNK_PORT_CFG. -/
def LNK_PORT_CFG_QUIET_BYP : Fld := ⟨22, 1⟩

/-- MODULE [21:20] of LNK_PORT_CFG. -/
def LNK_PORT_CFG_MODULE : Fld := ⟨20, 2⟩

/-- PRESET [19:16] of LNK_PORT_CFG. -/
def LNK_PORT_CFG_PRESET : Fld := ⟨16, 4⟩

/-- MOD_SLOW [15] of LNK_PORT_CFG. -/
def LNK_PORT_CFG_MOD_SLOW : Fld := ⟨15, 1⟩

/-- REPLAY [11:0] of LNK_PORT_CFG. -/
def LNK_PORT_CFG_REPLAY : Fld := ⟨0, 12⟩

/-- CREDIT_S [15:8] of LNK_PORT_CREDIT. -/
def LNK_PORT_CREDIT_CREDIT_S : Fld := ⟨8, 8⟩

/-- CREDIT_B [7:0] of LNK_PORT_CREDIT. -/
def LNK_PORT_CREDIT_CREDIT_B : Fld := ⟨0, 8⟩

/-- STATE [31:29] of LNK_PORT_STAT. -/
def LNK_PORT_STAT_STATE : Fld := ⟨29, 3⟩

/-- RATE_NOW [28:27] of LNK_PORT_STAT. -/
def LNK_PORT_STAT_RATE_NOW : Fld := ⟨27, 2⟩

/-- WIDTH_NOW [26:25] of LNK_PORT_STAT. -/
def LNK_PORT_STAT_WIDTH_NOW : Fld := ⟨25, 2⟩

/-- LANES [23:20] of LNK_PORT_STAT. -/
def LNK_PORT_STAT_LANES : Fld := ⟨20, 4⟩

/-- TIME_LANE [19:18] of LNK_PORT_STAT. -/
def LNK_PORT_STAT_TIME_LANE : Fld := ⟨18, 2⟩

/-- PEER_VALID [15] of LNK_PORT_STAT. -/
def LNK_PORT_STAT_PEER_VALID : Fld := ⟨15, 1⟩

/-- PEER_ROLE [14:11] of LNK_PORT_STAT. -/
def LNK_PORT_STAT_PEER_ROLE : Fld := ⟨11, 4⟩

/-- PEER_ADDR [10:0] of LNK_PORT_STAT. -/
def LNK_PORT_STAT_PEER_ADDR : Fld := ⟨0, 11⟩

/-- CRC_ERR [31:16] of LNK_PORT_ERR. -/
def LNK_PORT_ERR_CRC_ERR : Fld := ⟨16, 16⟩

/-- REPLAYS [15:8] of LNK_PORT_ERR. -/
def LNK_PORT_ERR_REPLAYS : Fld := ⟨8, 8⟩

/-- VIOL [7:0] of LNK_PORT_ERR. -/
def LNK_PORT_ERR_VIOL : Fld := ⟨0, 8⟩

/-- RETRAINS [31:16] of LNK_PORT_CNT. -/
def LNK_PORT_CNT_RETRAINS : Fld := ⟨16, 16⟩

/-- LANE_LOSSES [15:0] of LNK_PORT_CNT. -/
def LNK_PORT_CNT_LANE_LOSSES : Fld := ⟨0, 16⟩

/-- RTT [31:12] of LNK_PORT_RTT. -/
def LNK_PORT_RTT_RTT : Fld := ⟨12, 20⟩

/-- REPLAY_PEAK [11:0] of LNK_PORT_RTT. -/
def LNK_PORT_RTT_REPLAY_PEAK : Fld := ⟨0, 12⟩

/-- BIP_ERR [31:16] of LNK_LANE_STAT. -/
def LNK_LANE_STAT_BIP_ERR : Fld := ⟨16, 16⟩

/-- SYNC_ERR [15:8] of LNK_LANE_STAT. -/
def LNK_LANE_STAT_SYNC_ERR : Fld := ⟨8, 8⟩

/-- LOCK [7] of LNK_LANE_STAT. -/
def LNK_LANE_STAT_LOCK : Fld := ⟨7, 1⟩

/-- IN_USE [6] of LNK_LANE_STAT. -/
def LNK_LANE_STAT_IN_USE : Fld := ⟨6, 1⟩

/-- GOOD [5] of LNK_LANE_STAT. -/
def LNK_LANE_STAT_GOOD : Fld := ⟨5, 1⟩

/-- LOS [4] of LNK_LANE_STAT. -/
def LNK_LANE_STAT_LOS : Fld := ⟨4, 1⟩

/-- FROZEN [3] of LNK_LANE_STAT. -/
def LNK_LANE_STAT_FROZEN : Fld := ⟨3, 1⟩

/-- GEN [31:16] of LNK_ROUTE_CFG. -/
def LNK_ROUTE_CFG_GEN : Fld := ⟨16, 16⟩

/-- SPLIT [15] of LNK_ROUTE_CFG. -/
def LNK_ROUTE_CFG_SPLIT : Fld := ⟨15, 1⟩

/-- HEAD_VALID [14] of LNK_ROUTE_CFG. -/
def LNK_ROUTE_CFG_HEAD_VALID : Fld := ⟨14, 1⟩

/-- HEAD_POS [11:6] of LNK_ROUTE_CFG. -/
def LNK_ROUTE_CFG_HEAD_POS : Fld := ⟨6, 6⟩

/-- SEG_LAST [5:0] of LNK_ROUTE_CFG. -/
def LNK_ROUTE_CFG_SEG_LAST : Fld := ⟨0, 6⟩

/-- PORT_EVEN [31:28] of LNK_ROUTE_STAT. -/
def LNK_ROUTE_STAT_PORT_EVEN : Fld := ⟨28, 4⟩

/-- PORT_ODD [27:24] of LNK_ROUTE_STAT. -/
def LNK_ROUTE_STAT_PORT_ODD : Fld := ⟨24, 4⟩

/-- HOPS_EVEN [23:16] of LNK_ROUTE_STAT. -/
def LNK_ROUTE_STAT_HOPS_EVEN : Fld := ⟨16, 8⟩

/-- HOPS_ODD [15:8] of LNK_ROUTE_STAT. -/
def LNK_ROUTE_STAT_HOPS_ODD : Fld := ⟨8, 8⟩

/-- HELD_DISCARDS [7:0] of LNK_ROUTE_STAT. -/
def LNK_ROUTE_STAT_HELD_DISCARDS : Fld := ⟨0, 8⟩

/-- PRESENT [31] of LNK_MOD_STAT. -/
def LNK_MOD_STAT_PRESENT : Fld := ⟨31, 1⟩

/-- READ_OK [30] of LNK_MOD_STAT. -/
def LNK_MOD_STAT_READ_OK : Fld := ⟨30, 1⟩

/-- LOS [29:26] of LNK_MOD_STAT. -/
def LNK_MOD_STAT_LOS : Fld := ⟨26, 4⟩

/-- ALARM [25] of LNK_MOD_STAT. -/
def LNK_MOD_STAT_ALARM : Fld := ⟨25, 1⟩

/-- TEMP [15:0] of LNK_MOD_STAT. -/
def LNK_MOD_STAT_TEMP : Fld := ⟨0, 16⟩

/-- AUTH_FAIL [31:16] of CMD_STAT. -/
def CMD_STAT_AUTH_FAIL : Fld := ⟨16, 16⟩

/-- REPLAYED [15:0] of CMD_STAT. -/
def CMD_STAT_REPLAYED : Fld := ⟨0, 16⟩

/-- MALFORMED [31:24] of CMD_ERR. -/
def CMD_ERR_MALFORMED : Fld := ⟨24, 8⟩

/-- TTL_DROPS [23:16] of CMD_ERR. -/
def CMD_ERR_TTL_DROPS : Fld := ⟨16, 8⟩

/-- BUSY_REFUSED [15:8] of CMD_ERR. -/
def CMD_ERR_BUSY_REFUSED : Fld := ⟨8, 8⟩

/-- TIMEOUTS [7:0] of CMD_ERR. -/
def CMD_ERR_TIMEOUTS : Fld := ⟨0, 8⟩

/-- DUPLICATES [31:16] of CMD_CACHE. -/
def CMD_CACHE_DUPLICATES : Fld := ⟨16, 16⟩

/-- EVICTIONS [15:8] of CMD_CACHE. -/
def CMD_CACHE_EVICTIONS : Fld := ⟨8, 8⟩

/-- LONG_OPS [4:0] of CMD_CACHE. -/
def CMD_CACHE_LONG_OPS : Fld := ⟨0, 5⟩

/-- FRAMES [31:16] of CMD_SPI_CTRL. -/
def CMD_SPI_CTRL_FRAMES : Fld := ⟨16, 16⟩

/-- FRAME_ERR [1] of CMD_SPI_CTRL. -/
def CMD_SPI_CTRL_FRAME_ERR : Fld := ⟨1, 1⟩

/-- DIRECT_WR [0] of CMD_SPI_CTRL. -/
def CMD_SPI_CTRL_DIRECT_WR : Fld := ⟨0, 1⟩

/-- VALID [31] of CMD_SLOT. -/
def CMD_SLOT_VALID : Fld := ⟨31, 1⟩

/-- PERMS [11:0] of CMD_SLOT. -/
def CMD_SLOT_PERMS : Fld := ⟨0, 12⟩

/-- LAST [31:0] of CMD_SLOT_CTR. -/
def CMD_SLOT_CTR_LAST : Fld := ⟨0, 32⟩

/-- ROLE [31:30] of RED_CFG. -/
def RED_CFG_ROLE : Fld := ⟨30, 2⟩

/-- PRIMARY [29] of RED_CFG. -/
def RED_CFG_PRIMARY : Fld := ⟨29, 1⟩

/-- HEAD_SLOT [27:24] of RED_CFG. -/
def RED_CFG_HEAD_SLOT : Fld := ⟨24, 4⟩

/-- LEDGER_AGE [8:0] of RED_CFG. -/
def RED_CFG_LEDGER_AGE : Fld := ⟨0, 9⟩

/-- PARTNER [10:0] of RED_PARTNER. -/
def RED_PARTNER_PARTNER : Fld := ⟨0, 11⟩

/-- WIT_B [26:16] of RED_WITNESS. -/
def RED_WITNESS_WIT_B : Fld := ⟨16, 11⟩

/-- WIT_A [10:0] of RED_WITNESS. -/
def RED_WITNESS_WIT_A : Fld := ⟨0, 11⟩

/-- STATE [31:29] of RED_STAT. -/
def RED_STAT_STATE : Fld := ⟨29, 3⟩

/-- HOLDS_LATCH [28] of RED_STAT. -/
def RED_STAT_HOLDS_LATCH : Fld := ⟨28, 1⟩

/-- MIRROR_OK [27] of RED_STAT. -/
def RED_STAT_MIRROR_OK : Fld := ⟨27, 1⟩

/-- DIRECT_UP [26] of RED_STAT. -/
def RED_STAT_DIRECT_UP : Fld := ⟨26, 1⟩

/-- RING_UP [25] of RED_STAT. -/
def RED_STAT_RING_UP : Fld := ⟨25, 1⟩

/-- WITNESS_OK [24] of RED_STAT. -/
def RED_STAT_WITNESS_OK : Fld := ⟨24, 1⟩

/-- LEASE_MS [15:0] of RED_STAT. -/
def RED_STAT_LEASE_MS : Fld := ⟨0, 16⟩

/-- EPOCH [31:0] of RED_EPOCH. -/
def RED_EPOCH_EPOCH : Fld := ⟨0, 32⟩

/-- TAKEOVERS [31:24] of RED_COUNT. -/
def RED_COUNT_TAKEOVERS : Fld := ⟨24, 8⟩

/-- FENCES [23:16] of RED_COUNT. -/
def RED_COUNT_FENCES : Fld := ⟨16, 8⟩

/-- DIGEST_FAIL [15:8] of RED_COUNT. -/
def RED_COUNT_DIGEST_FAIL : Fld := ⟨8, 8⟩

/-- FENCE_DISCARDS [7:0] of RED_COUNT. -/
def RED_COUNT_FENCE_DISCARDS : Fld := ⟨0, 8⟩

/-- OVERFLOW [31] of RED_LEDGER. -/
def RED_LEDGER_OVERFLOW : Fld := ⟨31, 1⟩

/-- ENTRIES [20:0] of RED_LEDGER. -/
def RED_LEDGER_ENTRIES : Fld := ⟨0, 21⟩

/-- SEQ [31:0] of RED_MIRROR. -/
def RED_MIRROR_SEQ : Fld := ⟨0, 32⟩

/-- EN [31] of RED_WIT_CFG. -/
def RED_WIT_CFG_EN : Fld := ⟨31, 1⟩

/-- SEGMENT [26:22] of RED_WIT_CFG. -/
def RED_WIT_CFG_SEGMENT : Fld := ⟨22, 5⟩

/-- HEAD_B [21:11] of RED_WIT_CFG. -/
def RED_WIT_CFG_HEAD_B : Fld := ⟨11, 11⟩

/-- HEAD_A [10:0] of RED_WIT_CFG. -/
def RED_WIT_CFG_HEAD_A : Fld := ⟨0, 11⟩

/-- HELD [31] of RED_WIT_STAT. -/
def RED_WIT_STAT_HELD : Fld := ⟨31, 1⟩

/-- QUIET [30] of RED_WIT_STAT. -/
def RED_WIT_STAT_QUIET : Fld := ⟨30, 1⟩

/-- HOLDER [26:16] of RED_WIT_STAT. -/
def RED_WIT_STAT_HOLDER : Fld := ⟨16, 11⟩

/-- REMAIN_MS [15:0] of RED_WIT_STAT. -/
def RED_WIT_STAT_REMAIN_MS : Fld := ⟨0, 16⟩

/-- EPOCH [31:0] of RED_WIT_EPOCH. -/
def RED_WIT_EPOCH_EPOCH : Fld := ⟨0, 32⟩

/-- FILL_DONE [31] of MEM_BOOT_STAT. -/
def MEM_BOOT_STAT_FILL_DONE : Fld := ⟨31, 1⟩

/-- TEST_DONE [30] of MEM_BOOT_STAT. -/
def MEM_BOOT_STAT_TEST_DONE : Fld := ⟨30, 1⟩

/-- FAILED [29] of MEM_BOOT_STAT. -/
def MEM_BOOT_STAT_FAILED : Fld := ⟨29, 1⟩

/-- FAIL_MEM [28:24] of MEM_BOOT_STAT. -/
def MEM_BOOT_STAT_FAIL_MEM : Fld := ⟨24, 5⟩

/-- FILL_MS [15:0] of MEM_BOOT_STAT. -/
def MEM_BOOT_STAT_FILL_MS : Fld := ⟨0, 16⟩

/-- HIST [23:16] of MEM_LAYOUT. -/
def MEM_LAYOUT_HIST : Fld := ⟨16, 8⟩

/-- WORK [7:0] of MEM_LAYOUT. -/
def MEM_LAYOUT_WORK : Fld := ⟨0, 8⟩

/-- HIST_NOW [31:24] of MEM_DRAM_CFG. -/
def MEM_DRAM_CFG_HIST_NOW : Fld := ⟨24, 8⟩

/-- RET_NOW [23:16] of MEM_DRAM_CFG. -/
def MEM_DRAM_CFG_RET_NOW : Fld := ⟨16, 8⟩

/-- WORK_NOW [15:8] of MEM_DRAM_CFG. -/
def MEM_DRAM_CFG_WORK_NOW : Fld := ⟨8, 8⟩

/-- INSTALLED [7:3] of MEM_DRAM_CFG. -/
def MEM_DRAM_CFG_INSTALLED : Fld := ⟨3, 5⟩

/-- RATE [1:0] of MEM_DRAM_CFG. -/
def MEM_DRAM_CFG_RATE : Fld := ⟨0, 2⟩

/-- RUNNING [31] of MEM_SCRUB_STAT. -/
def MEM_SCRUB_STAT_RUNNING : Fld := ⟨31, 1⟩

/-- MEMORY [30:28] of MEM_SCRUB_STAT. -/
def MEM_SCRUB_STAT_MEMORY : Fld := ⟨28, 3⟩

/-- MODE [27] of MEM_SCRUB_STAT. -/
def MEM_SCRUB_STAT_MODE : Fld := ⟨27, 1⟩

/-- PROGRESS [7:0] of MEM_SCRUB_STAT. -/
def MEM_SCRUB_STAT_PROGRESS : Fld := ⟨0, 8⟩

/-- CORRECTED [31:16] of MEM_ERR. -/
def MEM_ERR_CORRECTED : Fld := ⟨16, 16⟩

/-- UNCORR [15:0] of MEM_ERR. -/
def MEM_ERR_UNCORR : Fld := ⟨0, 16⟩

/-- TYPE [31:30] of MEM_ERR_INFO. -/
def MEM_ERR_INFO_TYPE : Fld := ⟨30, 2⟩

/-- REQ [29:27] of MEM_ERR_INFO. -/
def MEM_ERR_INFO_REQ : Fld := ⟨27, 3⟩

/-- PARTIAL [26] of MEM_ERR_INFO. -/
def MEM_ERR_INFO_PARTIAL : Fld := ⟨26, 1⟩

/-- SYNDROME [15:0] of MEM_ERR_INFO. -/
def MEM_ERR_INFO_SYNDROME : Fld := ⟨0, 16⟩

/-- ADDR [63:0] of MEM_ERR_ADDR. -/
def MEM_ERR_ADDR_ADDR : Fld := ⟨0, 64⟩

/-- PART [31:16] of SYS_ID. -/
def SYS_ID_PART : Fld := ⟨16, 16⟩

/-- STEPPING [15:8] of SYS_ID. -/
def SYS_ID_STEPPING : Fld := ⟨8, 8⟩

/-- GRADE [7:4] of SYS_ID. -/
def SYS_ID_GRADE : Fld := ⟨4, 4⟩

/-- SERIAL [63:0] of SYS_SERIAL. -/
def SYS_SERIAL_SERIAL : Fld := ⟨0, 64⟩

/-- CAUSE [7:0] of SYS_RESET_CAUSE. -/
def SYS_RESET_CAUSE_CAUSE : Fld := ⟨0, 8⟩

/-- SLOT_NOW [31:30] of SYS_BOOT_STAT. -/
def SYS_BOOT_STAT_SLOT_NOW : Fld := ⟨30, 2⟩

/-- BOOT_OK [29] of SYS_BOOT_STAT. -/
def SYS_BOOT_STAT_BOOT_OK : Fld := ⟨29, 1⟩

/-- TRIAL_FAILED [28] of SYS_BOOT_STAT. -/
def SYS_BOOT_STAT_TRIAL_FAILED : Fld := ⟨28, 1⟩

/-- FAILS [27:24] of SYS_BOOT_STAT. -/
def SYS_BOOT_STAT_FAILS : Fld := ⟨24, 4⟩

/-- REASON [23:16] of SYS_BOOT_STAT. -/
def SYS_BOOT_STAT_REASON : Fld := ⟨16, 8⟩

/-- BOOT_MS [15:0] of SYS_BOOT_STAT. -/
def SYS_BOOT_STAT_BOOT_MS : Fld := ⟨0, 16⟩

/-- VERSION [63:32] of SYS_SLOT. -/
def SYS_SLOT_VERSION : Fld := ⟨32, 32⟩

/-- SEC_VER [31:2] of SYS_SLOT. -/
def SYS_SLOT_SEC_VER : Fld := ⟨2, 30⟩

/-- TRIAL [1] of SYS_SLOT. -/
def SYS_SLOT_TRIAL : Fld := ⟨1, 1⟩

/-- VALID [0] of SYS_SLOT. -/
def SYS_SLOT_VALID : Fld := ⟨0, 1⟩

/-- SEC_FLOOR [31:1] of SYS_BOOT_CFG. -/
def SYS_BOOT_CFG_SEC_FLOOR : Fld := ⟨1, 31⟩

/-- ACTIVE_SLOT [0] of SYS_BOOT_CFG. -/
def SYS_BOOT_CFG_ACTIVE_SLOT : Fld := ⟨0, 1⟩

/-- RESTARTS [31:24] of SYS_PORTER_STAT. -/
def SYS_PORTER_STAT_RESTARTS : Fld := ⟨24, 8⟩

/-- LAST [23:22] of SYS_PORTER_STAT. -/
def SYS_PORTER_STAT_LAST : Fld := ⟨22, 2⟩

/-- BLOCKS [15:0] of SYS_BB_CFG. -/
def SYS_BB_CFG_BLOCKS : Fld := ⟨0, 16⟩

/-- DROPPED [31:16] of SYS_BB_STAT. -/
def SYS_BB_STAT_DROPPED : Fld := ⟨16, 16⟩

/-- MIRROR_SKIPPED [15:8] of SYS_BB_STAT. -/
def SYS_BB_STAT_MIRROR_SKIPPED : Fld := ⟨8, 8⟩

/-- ALLOWANCE [6:0] of SYS_BB_STAT. -/
def SYS_BB_STAT_ALLOWANCE : Fld := ⟨0, 7⟩

/-- NEXT [31:0] of SYS_BB_SEQ. -/
def SYS_BB_SEQ_NEXT : Fld := ⟨0, 32⟩

/-- SEEN [24:0] of SYS_SENSOR_ALM. -/
def SYS_SENSOR_ALM_SEEN : Fld := ⟨0, 25⟩

/-- INPUT [1] of SYS_CON_CFG. -/
def SYS_CON_CFG_INPUT : Fld := ⟨1, 1⟩

/-- LOCK [0] of SYS_CON_CFG. -/
def SYS_CON_CFG_LOCK : Fld := ⟨0, 1⟩

/-- CONV_AUTO [31] of CAL_POLICY. -/
def CAL_POLICY_CONV_AUTO : Fld := ⟨31, 1⟩

/-- VERN_AUTO [30] of CAL_POLICY. -/
def CAL_POLICY_VERN_AUTO : Fld := ⟨30, 1⟩

/-- EXC_AUTO [29] of CAL_POLICY. -/
def CAL_POLICY_EXC_AUTO : Fld := ⟨29, 1⟩

/-- TEMP_STEP [23:16] of CAL_POLICY. -/
def CAL_POLICY_TEMP_STEP : Fld := ⟨16, 8⟩

/-- CONV_MIN [31:24] of CAL_PERIOD. -/
def CAL_PERIOD_CONV_MIN : Fld := ⟨24, 8⟩

/-- EXC_MIN [23:16] of CAL_PERIOD. -/
def CAL_PERIOD_EXC_MIN : Fld := ⟨16, 8⟩

/-- VERN_S [15:0] of CAL_PERIOD. -/
def CAL_PERIOD_VERN_S : Fld := ⟨0, 16⟩

/-- RUNNING [21:16] of CAL_STAT. -/
def CAL_STAT_RUNNING : Fld := ⟨16, 6⟩

/-- RECORD_BAD [13:8] of CAL_STAT. -/
def CAL_STAT_RECORD_BAD : Fld := ⟨8, 6⟩

/-- REJECT [5:0] of CAL_STAT. -/
def CAL_STAT_REJECT : Fld := ⟨0, 6⟩

/-- RUNS [31:16] of CAL_COUNT. -/
def CAL_COUNT_RUNS : Fld := ⟨16, 16⟩

/-- REJECTS [15:0] of CAL_COUNT. -/
def CAL_COUNT_REJECTS : Fld := ⟨0, 16⟩

/-- TEMP [31:16] of CAL_GRP_STAT. -/
def CAL_GRP_STAT_TEMP : Fld := ⟨16, 16⟩

/-- OUTCOME [15:12] of CAL_GRP_STAT. -/
def CAL_GRP_STAT_OUTCOME : Fld := ⟨12, 4⟩

/-- VALID [11] of CAL_GRP_STAT. -/
def CAL_GRP_STAT_VALID : Fld := ⟨11, 1⟩

/-- PENDING [10] of CAL_GRP_STAT. -/
def CAL_GRP_STAT_PENDING : Fld := ⟨10, 1⟩

/-- AGE_MIN [7:0] of CAL_GRP_STAT. -/
def CAL_GRP_STAT_AGE_MIN : Fld := ⟨0, 8⟩

/-- QUALITY [31:16] of CAL_GRP_QUAL. -/
def CAL_GRP_QUAL_QUALITY : Fld := ⟨16, 16⟩

/-- GENERATION [15:0] of CAL_GRP_QUAL. -/
def CAL_GRP_QUAL_GENERATION : Fld := ⟨0, 16⟩

/-- ENABLE [31] of PMC_CTRL. -/
def PMC_CTRL_ENABLE : Fld := ⟨31, 1⟩

/-- CLEAR [0] of PMC_CTRL. -/
def PMC_CTRL_CLEAR : Fld := ⟨0, 1⟩

/-- OVF [7:0] of PMC_STAT. -/
def PMC_STAT_OVF : Fld := ⟨0, 8⟩

/-- CYCLE [63:0] of PMC_CYCLE. -/
def PMC_CYCLE_CYCLE : Fld := ⟨0, 64⟩

/-- DUMP_EN [31] of PMC_DUMP. -/
def PMC_DUMP_DUMP_EN : Fld := ⟨31, 1⟩

/-- DELTA [30] of PMC_DUMP. -/
def PMC_DUMP_DELTA : Fld := ⟨30, 1⟩

/-- SKIPPED [23:16] of PMC_DUMP. -/
def PMC_DUMP_SKIPPED : Fld := ⟨16, 8⟩

/-- PERIOD [15:0] of PMC_DUMP. -/
def PMC_DUMP_PERIOD : Fld := ⟨0, 16⟩

/-- EN [31] of PMC_CFG. -/
def PMC_CFG_EN : Fld := ⟨31, 1⟩

/-- CHAIN [30] of PMC_CFG. -/
def PMC_CFG_CHAIN : Fld := ⟨30, 1⟩

/-- QUAL [22:16] of PMC_CFG. -/
def PMC_CFG_QUAL : Fld := ⟨16, 7⟩

/-- EVENT [11:0] of PMC_CFG. -/
def PMC_CFG_EVENT : Fld := ⟨0, 12⟩

/-- COUNT [31:0] of PMC_CNT. -/
def PMC_CNT_COUNT : Fld := ⟨0, 32⟩

/-- EN [31] of PMC_TONE. -/
def PMC_TONE_EN : Fld := ⟨31, 1⟩

/-- LEVEL [2:0] of PMC_TONE. -/
def PMC_TONE_LEVEL : Fld := ⟨0, 3⟩

end Sys2Proof.Machine.Bits

namespace Sys2Proof.Machine

/-- Registers of block 0x0, SYS, part 0 (Table 01-2). -/
def regsSYS0 : List RegDesc :=
  [
   ⟨"SYS_HUB_ADDR", 0x00104, 0, 1, 1,
     [⟨31, 1, .ro, 0x0, true⟩, ⟨16, 11, .ro, 0x0, true⟩, ⟨0, 11, .rw, 0x0, true⟩]⟩,
   ⟨"SYS_PWR_STATE", 0x00100, 0, 1, 1,
     [⟨12, 4, .ro, 0x0, false⟩, ⟨8, 3, .ro, 0x0, false⟩, ⟨7, 1, .ro, 0x0, false⟩, ⟨0, 3, .ro, 0x0, false⟩]⟩,
   ⟨"SYS_ID", 0x00000, 0, 1, 1,
     [⟨16, 16, .ro, 0x512, false⟩, ⟨8, 8, .ro, 0x2, false⟩, ⟨4, 4, .ro, 0x0, true⟩]⟩,
   ⟨"SYS_SERIAL", 0x00008, 0, 1, 2,
     [⟨0, 64, .ro, 0x0, true⟩]⟩,
   ⟨"SYS_RESET_CAUSE", 0x00110, 0, 1, 1,
     [⟨0, 8, .ro, 0x0, false⟩]⟩,
   ⟨"SYS_BOOT_STAT", 0x00114, 0, 1, 1,
     [⟨30, 2, .ro, 0x2, false⟩, ⟨29, 1, .ro, 0x0, false⟩, ⟨28, 1, .w1c, 0x0, true⟩, ⟨24, 4, .ro, 0x0, true⟩, ⟨16, 8, .ro, 0x0, true⟩, ⟨0, 16, .ro, 0x0, false⟩]⟩,
   ⟨"SYS_SLOT", 0x00120, 8, 2, 2,
     [⟨32, 32, .ro, 0x0, true⟩, ⟨2, 30, .ro, 0x0, true⟩, ⟨1, 1, .ro, 0x0, true⟩, ⟨0, 1, .ro, 0x0, true⟩]⟩,
   ⟨"SYS_BOOT_CFG", 0x00130, 0, 1, 1,
     [⟨1, 31, .ro, 0x0, true⟩, ⟨0, 1, .ro, 0x0, true⟩]⟩
  ]

/-- Registers of block 0x0, SYS, part 1 (Table 01-2). -/
def regsSYS1 : List RegDesc :=
  [
   ⟨"SYS_PORTER_STAT", 0x00134, 0, 1, 1,
     [⟨24, 8, .rc, 0x0, false⟩, ⟨22, 2, .ro, 0x0, false⟩]⟩,
   ⟨"SYS_BB_CFG", 0x00140, 0, 1, 1,
     [⟨0, 16, .rw, 0x0, true⟩]⟩,
   ⟨"SYS_BB_STAT", 0x00144, 0, 1, 1,
     [⟨16, 16, .rc, 0x0, false⟩, ⟨8, 8, .rc, 0x0, false⟩, ⟨0, 7, .ro, 0x40, false⟩]⟩,
   ⟨"SYS_BB_SEQ", 0x00148, 0, 1, 1,
     [⟨0, 32, .ro, 0x0, true⟩]⟩,
   ⟨"SYS_SENSOR_ALM", 0x00150, 0, 1, 1,
     [⟨0, 25, .w1c, 0x0, false⟩]⟩,
   ⟨"SYS_CON_CFG", 0x00160, 0, 1, 1,
     [⟨1, 1, .rwl, 0x0, false⟩, ⟨0, 1, .w1s, 0x0, false⟩]⟩
  ]

/-- Registers of block 0x0, SYS. -/
def regsSYS : List RegDesc := regsSYS0 ++ regsSYS1

/-- Registers of block 0x1, AFE, part 0 (Table 01-2). -/
def regsAFE0 : List RegDesc :=
  [
   ⟨"AFE_CH_CFG", 0x10000, 16, 512, 1,
     [⟨26, 1, .rw, 0x0, false⟩, ⟨24, 2, .rw, 0x1, false⟩, ⟨22, 1, .rw, 0x0, false⟩, ⟨21, 1, .rw, 0x0, false⟩, ⟨20, 1, .rw, 0x0, false⟩, ⟨16, 2, .rw, 0x0, false⟩, ⟨12, 3, .rw, 0x7, false⟩, ⟨8, 3, .rw, 0x0, false⟩, ⟨7, 1, .rw, 0x0, false⟩, ⟨4, 3, .rw, 0x0, false⟩, ⟨0, 3, .rw, 0x0, false⟩]⟩,
   ⟨"AFE_CH_THR", 0x10004, 16, 512, 1,
     [⟨16, 10, .rw, 0x10, false⟩, ⟨0, 10, .rw, 0x3F0, false⟩]⟩,
   ⟨"AFE_CH_STAT", 0x10008, 16, 512, 1,
     [⟨16, 16, .rc, 0x0, false⟩, ⟨15, 1, .ro, 0x0, false⟩, ⟨12, 3, .ro, 0x0, false⟩, ⟨11, 1, .ro, 0x0, false⟩, ⟨8, 3, .ro, 0x0, false⟩, ⟨0, 8, .rc, 0x0, false⟩]⟩,
   ⟨"AFE_BAY_EXC", 0x12000, 16, 64, 1,
     [⟨30, 2, .rw, 0x0, false⟩, ⟨29, 1, .rw, 0x0, false⟩, ⟨16, 12, .rw, 0x0, false⟩, ⟨0, 12, .rw, 0x190, false⟩]⟩,
   ⟨"AFE_BAY_SWEEP", 0x12004, 16, 64, 1,
     [⟨20, 12, .rw, 0x190, false⟩, ⟨8, 8, .rw, 0x32, false⟩, ⟨0, 8, .rw, 0x1, false⟩]⟩,
   ⟨"AFE_BAY_MON", 0x12008, 16, 64, 1,
     [⟨16, 16, .ro, 0x0, false⟩, ⟨8, 8, .ro, 0x0, false⟩, ⟨7, 1, .ro, 0x0, false⟩, ⟨6, 1, .ro, 0x0, false⟩]⟩,
   ⟨"AFE_CTRL", 0x13000, 0, 1, 1,
     [⟨0, 16, .rw, 0x3E8, false⟩]⟩,
   ⟨"AFE_WIRE_BREAK", 0x13100, 4, 16, 1,
     [⟨0, 32, .w1c, 0x0, false⟩]⟩
  ]

/-- Registers of block 0x1, AFE, part 1 (Table 01-2). -/
def regsAFE1 : List RegDesc :=
  [
   ⟨"AFE_CLAMP_SEEN", 0x13180, 4, 16, 1,
     [⟨0, 32, .w1c, 0x0, false⟩]⟩
  ]

/-- Registers of block 0x1, AFE. -/
def regsAFE : List RegDesc := regsAFE0 ++ regsAFE1

/-- Registers of block 0x2, CONV, part 0 (Table 01-2). -/
def regsCONV0 : List RegDesc :=
  [
   ⟨"CONV_BAY_MODE", 0x20000, 16, 64, 1,
     [⟨4, 2, .rw, 0x0, false⟩, ⟨0, 2, .rw, 0x3, false⟩]⟩,
   ⟨"CONV_BAY_BURST", 0x20004, 16, 64, 1,
     [⟨16, 16, .rw, 0x3E8, false⟩, ⟨0, 16, .rw, 0xA, false⟩]⟩,
   ⟨"CONV_BAY_STAT", 0x20008, 16, 64, 1,
     [⟨16, 16, .rc, 0x0, false⟩, ⟨4, 1, .ro, 0x0, false⟩, ⟨3, 1, .ro, 0x0, false⟩, ⟨2, 1, .ro, 0x0, false⟩, ⟨0, 2, .ro, 0x3, false⟩]⟩,
   ⟨"CONV_TRIM", 0x21000, 4, 512, 1,
     [⟨0, 7, .rw, 0x0, true⟩]⟩,
   ⟨"CONV_RELIEF", 0x22000, 4, 4, 1,
     [⟨16, 16, .rc, 0x0, false⟩, ⟨8, 8, .ro, 0x0, false⟩, ⟨7, 1, .ro, 0x0, false⟩, ⟨0, 6, .ro, 0x0, false⟩]⟩,
   ⟨"CONV_TSEQ", 0x23000, 4, 64, 1,
     [⟨31, 1, .rw, 0x0, false⟩, ⟨16, 8, .rw, 0x8, false⟩, ⟨10, 3, .rw, 0x0, false⟩, ⟨8, 2, .rw, 0x0, false⟩, ⟨0, 6, .rw, 0x0, false⟩]⟩,
   ⟨"CONV_TSEQ_CTRL", 0x23100, 0, 1, 1,
     [⟨16, 16, .rw, 0x0, false⟩, ⟨12, 4, .rw, 0x0, false⟩, ⟨9, 1, .w1s, 0x0, false⟩, ⟨8, 1, .w1s, 0x0, false⟩, ⟨0, 6, .rw, 0x0, false⟩]⟩,
   ⟨"CONV_TSEQ_STAT", 0x23104, 0, 1, 1,
     [⟨16, 16, .rc, 0x0, false⟩, ⟨15, 1, .ro, 0x0, false⟩, ⟨14, 1, .ro, 0x0, false⟩, ⟨13, 1, .ro, 0x0, false⟩, ⟨10, 3, .ro, 0x0, false⟩, ⟨0, 6, .ro, 0x0, false⟩]⟩
  ]

/-- Registers of block 0x2, CONV, part 1 (Table 01-2). -/
def regsCONV1 : List RegDesc :=
  [
   ⟨"CONV_TRESULT", 0x23200, 4, 64, 1,
     [⟨31, 1, .ro, 0x0, false⟩, ⟨0, 18, .ro, 0x0, false⟩]⟩
  ]

/-- Registers of block 0x2, CONV. -/
def regsCONV : List RegDesc := regsCONV0 ++ regsCONV1

/-- Registers of block 0x3, DEC, part 0 (Table 01-2). -/
def regsDEC0 : List RegDesc :=
  [
   ⟨"DEC_CH_CFG", 0x30000, 16, 512, 1,
     [⟨10, 2, .rw, 0x1, false⟩, ⟨8, 1, .rw, 0x1, false⟩, ⟨0, 8, .rw, 0x2B, false⟩]⟩,
   ⟨"DEC_CH_STAT", 0x30004, 16, 512, 1,
     [⟨31, 1, .ro, 0x0, false⟩, ⟨30, 1, .ro, 0x0, false⟩, ⟨27, 3, .ro, 0x0, false⟩, ⟨0, 16, .rc, 0x0, false⟩]⟩,
   ⟨"DEC_CH_DELAY", 0x30008, 16, 512, 2,
     [⟨48, 16, .ro, 0x0, true⟩, ⟨0, 48, .ro, 0x1B1EF98, false⟩]⟩,
   ⟨"DEC_BAY_CFG", 0x32000, 16, 64, 1,
     [⟨20, 12, .rw, 0x0, true⟩, ⟨16, 1, .rw, 0x0, false⟩, ⟨0, 8, .rw, 0x18, false⟩]⟩,
   ⟨"DEC_BAY_STAT", 0x32004, 16, 64, 1,
     [⟨2, 1, .ro, 0x0, false⟩, ⟨0, 2, .ro, 0x0, false⟩]⟩,
   ⟨"DEC_DET_CFG", 0x34000, 8, 512, 1,
     [⟨31, 1, .rw, 0x0, false⟩, ⟨29, 2, .rw, 0x0, false⟩, ⟨27, 2, .rw, 0x0, false⟩, ⟨16, 5, .rw, 0xA, false⟩]⟩,
   ⟨"DEC_DET_VAL", 0x34004, 8, 512, 1,
     [⟨31, 1, .ro, 0x0, false⟩, ⟨0, 31, .ro, 0x0, false⟩]⟩,
   ⟨"DEC_STREAM", 0x36000, 4, 592, 1,
     [⟨31, 1, .ro, 0x0, false⟩, ⟨30, 1, .rw, 0x0, false⟩, ⟨28, 2, .rw, 0x1, false⟩, ⟨0, 16, .rw, 0x3E8, false⟩]⟩
  ]

/-- Registers of block 0x3, DEC, part 1 (Table 01-2). -/
def regsDEC1 : List RegDesc :=
  [
   ⟨"DEC_LOAD", 0x37000, 0, 1, 1,
     [⟨16, 16, .ro, 0xCB20, false⟩, ⟨0, 16, .ro, 0x0, false⟩]⟩
  ]

/-- Registers of block 0x3, DEC. -/
def regsDEC : List RegDesc := regsDEC0 ++ regsDEC1

/-- Registers of block 0x4, TB, part 0 (Table 01-2). -/
def regsTB0 : List RegDesc :=
  [
   ⟨"TB_CTRL", 0x40000, 0, 1, 1,
     [⟨2, 1, .rw, 0x0, false⟩, ⟨0, 2, .rw, 0x0, false⟩]⟩,
   ⟨"TB_STATUS", 0x40004, 0, 1, 1,
     [⟨7, 1, .ro, 0x0, false⟩, ⟨6, 1, .ro, 0x0, false⟩, ⟨2, 2, .ro, 0x3, false⟩, ⟨0, 1, .ro, 0x0, false⟩]⟩,
   ⟨"TB_XC", 0x40008, 0, 1, 2,
     [⟨0, 64, .ro, 0x0, false⟩]⟩,
   ⟨"TB_REF", 0x40010, 0, 1, 1,
     [⟨31, 1, .rw, 0x0, false⟩, ⟨0, 24, .ro, 0x0, false⟩]⟩,
   ⟨"TB_DOM_CFG", 0x40100, 256, 2, 1,
     [⟨31, 1, .rw, 0x0, false⟩, ⟨30, 1, .rw, 0x0, false⟩, ⟨28, 2, .rw, 0x0, false⟩, ⟨26, 2, .rw, 0x0, false⟩, ⟨25, 1, .rw, 0x1, false⟩, ⟨16, 8, .rw, 0xA, false⟩, ⟨0, 16, .rw, 0x25, false⟩]⟩,
   ⟨"TB_DOM_STAT", 0x40104, 256, 2, 1,
     [⟨26, 2, .ro, 0x0, false⟩, ⟨24, 2, .ro, 0x3, false⟩, ⟨23, 1, .ro, 0x0, false⟩, ⟨22, 1, .ro, 0x0, false⟩, ⟨21, 1, .ro, 0x0, false⟩, ⟨16, 4, .ro, 0xF, false⟩, ⟨8, 8, .ro, 0xFF, false⟩, ⟨0, 8, .rc, 0x0, false⟩]⟩,
   ⟨"TB_PPS_DELAY", 0x40108, 256, 2, 1,
     [⟨0, 32, .rw, 0x0, false⟩]⟩,
   ⟨"TB_INCR", 0x40110, 256, 2, 2,
     [⟨0, 64, .rw, 0x53E2D6238DA3C2, false⟩]⟩
  ]

/-- Registers of block 0x4, TB, part 1 (Table 01-2). -/
def regsTB1 : List RegDesc :=
  [
   ⟨"TB_ANCHOR_XC", 0x40118, 256, 2, 2,
     [⟨0, 64, .rw, 0x0, false⟩]⟩,
   ⟨"TB_ANCHOR_SEC", 0x40120, 256, 2, 2,
     [⟨0, 48, .rw, 0x0, false⟩]⟩,
   ⟨"TB_ANCHOR_FRAC", 0x40128, 256, 2, 2,
     [⟨0, 48, .rw, 0x0, false⟩]⟩,
   ⟨"TB_ANCHOR_CTRL", 0x40130, 256, 2, 1,
     [⟨31, 1, .w1s, 0x0, false⟩, ⟨0, 16, .rc, 0x0, false⟩]⟩,
   ⟨"TB_PORT_ASYM", 0x41000, 32, 8, 1,
     [⟨0, 32, .rw, 0x0, true⟩]⟩,
   ⟨"TB_PORT_DELAY", 0x41004, 32, 8, 1,
     [⟨0, 32, .ro, 0x0, false⟩]⟩,
   ⟨"TB_PORT_OFFSET_A", 0x41008, 32, 8, 1,
     [⟨0, 32, .ro, 0x0, false⟩]⟩,
   ⟨"TB_PORT_OFFSET_B", 0x4100C, 32, 8, 1,
     [⟨0, 32, .ro, 0x0, false⟩]⟩
  ]

/-- Registers of block 0x4, TB, part 2 (Table 01-2). -/
def regsTB2 : List RegDesc :=
  [
   ⟨"TB_PORT_FLAGS", 0x41010, 32, 8, 1,
     [⟨16, 16, .rc, 0x0, false⟩, ⟨3, 1, .ro, 0x0, false⟩, ⟨2, 1, .w1c, 0x0, false⟩, ⟨1, 1, .ro, 0x0, false⟩, ⟨0, 1, .ro, 0x0, false⟩]⟩,
   ⟨"TB_ACT_CTRL", 0x42000, 32, 32, 1,
     [⟨31, 1, .rw, 0x0, false⟩, ⟨24, 4, .rw, 0x0, false⟩, ⟨23, 1, .rw, 0x0, false⟩, ⟨22, 1, .rw, 0x0, false⟩, ⟨10, 10, .rw, 0x0, false⟩, ⟨0, 10, .rw, 0x0, false⟩]⟩,
   ⟨"TB_ACT_ARG", 0x42004, 32, 32, 1,
     [⟨0, 32, .rw, 0x0, false⟩]⟩,
   ⟨"TB_ACT_TIME", 0x42008, 32, 32, 2,
     [⟨0, 64, .rw, 0x0, false⟩]⟩
  ]

/-- Registers of block 0x4, TB. -/
def regsTB : List RegDesc := regsTB0 ++ regsTB1 ++ regsTB2

/-- Registers of block 0x5, TIU, part 0 (Table 01-2). -/
def regsTIU0 : List RegDesc :=
  [
   ⟨"TIU_SRC_CFG", 0x50000, 4, 64, 1,
     [⟨31, 1, .rw, 0x0, false⟩, ⟨28, 3, .rw, 0x2, false⟩, ⟨26, 2, .rw, 0x0, false⟩, ⟨25, 1, .rw, 0x0, false⟩, ⟨24, 1, .rw, 0x0, false⟩, ⟨0, 10, .rw, 0x0, false⟩]⟩,
   ⟨"TIU_CORE_STAT", 0x50100, 16, 8, 1,
     [⟨16, 16, .rc, 0x0, false⟩, ⟨11, 1, .ro, 0x0, false⟩, ⟨10, 1, .ro, 0x0, false⟩, ⟨9, 1, .ro, 0x0, false⟩, ⟨8, 1, .ro, 0x0, false⟩, ⟨0, 7, .ro, 0x0, false⟩]⟩,
   ⟨"TIU_CORE_ERR", 0x50104, 16, 8, 1,
     [⟨16, 16, .rc, 0x0, false⟩, ⟨0, 16, .rc, 0x0, false⟩]⟩,
   ⟨"TIU_HOST_STAT", 0x50200, 0, 1, 1,
     [⟨16, 16, .rc, 0x0, false⟩, ⟨0, 11, .ro, 0x0, false⟩]⟩
  ]

/-- Registers of block 0x5, TIU. -/
def regsTIU : List RegDesc := regsTIU0

/-- Registers of block 0x6, CAP, part 0 (Table 01-2). -/
def regsCAP0 : List RegDesc :=
  [
   ⟨"CAP_TRIG_CFG", 0x60000, 32, 32, 1,
     [⟨31, 1, .rw, 0x0, false⟩, ⟨28, 3, .rw, 0x0, false⟩, ⟨27, 1, .rw, 0x0, false⟩, ⟨26, 1, .rw, 0x0, false⟩, ⟨24, 2, .rw, 0x0, false⟩, ⟨16, 8, .rw, 0x0, false⟩, ⟨0, 10, .rw, 0x0, false⟩]⟩,
   ⟨"CAP_TRIG_LINTEL", 0x60004, 32, 32, 1,
     [⟨0, 32, .rw, 0x1, false⟩]⟩,
   ⟨"CAP_TRIG_SILL", 0x60008, 32, 32, 1,
     [⟨0, 32, .rw, 0x0, false⟩]⟩,
   ⟨"CAP_TRIG_PARAM", 0x6000C, 32, 32, 1,
     [⟨0, 32, .rw, 0x1, false⟩]⟩,
   ⟨"CAP_TRIG_STAT", 0x60010, 32, 32, 1,
     [⟨16, 16, .rc, 0x0, false⟩, ⟨15, 1, .ro, 0x0, false⟩, ⟨0, 8, .rc, 0x0, false⟩]⟩,
   ⟨"CAP_ENG_CFG", 0x61000, 64, 16, 1,
     [⟨31, 1, .rw, 0x0, false⟩, ⟨30, 1, .rw, 0x0, false⟩, ⟨29, 1, .rw, 0x1, false⟩, ⟨27, 2, .rw, 0x0, false⟩, ⟨25, 2, .rw, 0x1, false⟩, ⟨23, 2, .rw, 0x1, false⟩, ⟨0, 8, .rw, 0x8, false⟩]⟩,
   ⟨"CAP_ENG_CHAN", 0x61004, 64, 16, 1,
     [⟨16, 7, .rw, 0x8, false⟩, ⟨0, 9, .rw, 0x0, false⟩]⟩,
   ⟨"CAP_ENG_PRE", 0x61008, 64, 16, 1,
     [⟨0, 24, .rw, 0x0, false⟩]⟩
  ]

/-- Registers of block 0x6, CAP, part 1 (Table 01-2). -/
def regsCAP1 : List RegDesc :=
  [
   ⟨"CAP_ENG_POST", 0x6100C, 64, 16, 1,
     [⟨0, 24, .rw, 0x400, false⟩]⟩,
   ⟨"CAP_ENG_MAXLEN", 0x61010, 64, 16, 1,
     [⟨0, 24, .rw, 0xFFFFFF, false⟩]⟩,
   ⟨"CAP_ENG_TRIG", 0x61014, 64, 16, 1,
     [⟨0, 32, .rw, 0x0, false⟩]⟩,
   ⟨"CAP_ENG_STAT", 0x61018, 64, 16, 1,
     [⟨16, 16, .rc, 0x0, false⟩, ⟨0, 3, .ro, 0x0, false⟩]⟩,
   ⟨"CAP_ENG_CNT", 0x6101C, 64, 16, 1,
     [⟨16, 16, .rc, 0x0, false⟩, ⟨8, 8, .rc, 0x0, false⟩, ⟨0, 8, .rc, 0x0, false⟩]⟩,
   ⟨"CAP_MEAS_CFG", 0x62000, 4, 512, 1,
     [⟨31, 1, .rw, 0x0, false⟩, ⟨30, 1, .rw, 0x0, false⟩, ⟨20, 4, .rw, 0x2, false⟩, ⟨0, 6, .rw, 0x0, false⟩]⟩,
   ⟨"CAP_HIST_STAT", 0x63000, 0, 1, 1,
     [⟨8, 24, .ro, 0x0, false⟩, ⟨0, 1, .ro, 0x0, false⟩]⟩,
   ⟨"CAP_ANN_CFG", 0x63100, 0, 1, 1,
     [⟨30, 2, .rw, 0x1, false⟩, ⟨16, 8, .rw, 0x40, false⟩, ⟨0, 4, .rw, 0x1, false⟩]⟩
  ]

/-- Registers of block 0x6, CAP. -/
def regsCAP : List RegDesc := regsCAP0 ++ regsCAP1

/-- Registers of block 0x7, FLD, part 0 (Table 01-2). -/
def regsFLD0 : List RegDesc :=
  [
   ⟨"FLD_PORT_CFG", 0x70000, 64, 4, 1,
     [⟨29, 3, .rw, 0x0, false⟩, ⟨28, 1, .rw, 0x0, false⟩, ⟨26, 2, .rw, 0x0, false⟩, ⟨24, 2, .rw, 0x0, false⟩, ⟨23, 1, .rw, 0x0, false⟩, ⟨22, 1, .rw, 0x0, false⟩, ⟨20, 2, .rw, 0x0, false⟩, ⟨19, 1, .rw, 0x0, false⟩, ⟨16, 3, .rw, 0x0, false⟩, ⟨8, 8, .rw, 0x2, false⟩, ⟨0, 8, .rw, 0x4, false⟩]⟩,
   ⟨"FLD_PORT_TIMING", 0x70004, 64, 4, 1,
     [⟨16, 16, .rw, 0x0, false⟩, ⟨0, 16, .rw, 0x30, false⟩]⟩,
   ⟨"FLD_PORT_TX", 0x70008, 64, 4, 1,
     [⟨0, 32, .rw, 0x0, false⟩]⟩,
   ⟨"FLD_PORT_STAT", 0x7000C, 64, 4, 1,
     [⟨16, 16, .rc, 0x0, false⟩, ⟨8, 8, .rc, 0x0, false⟩, ⟨0, 3, .ro, 0x0, false⟩]⟩,
   ⟨"FLD_DEC_CFG", 0x71000, 32, 64, 1,
     [⟨31, 1, .rw, 0x0, false⟩, ⟨28, 3, .rw, 0x0, false⟩, ⟨26, 2, .rw, 0x0, false⟩, ⟨25, 1, .rw, 0x0, false⟩, ⟨24, 1, .rw, 0x0, false⟩, ⟨16, 6, .rw, 0x10, false⟩, ⟨0, 11, .rw, 0x0, false⟩]⟩,
   ⟨"FLD_DEC_MATCH", 0x71004, 32, 64, 1,
     [⟨24, 8, .rw, 0x0, false⟩, ⟨16, 8, .rw, 0x0, false⟩, ⟨0, 8, .rw, 0x0, false⟩]⟩,
   ⟨"FLD_DEC_MASK", 0x71008, 32, 64, 1,
     [⟨0, 32, .rw, 0xFFFFFFFF, false⟩]⟩,
   ⟨"FLD_DEC_LINTEL", 0x7100C, 32, 64, 1,
     [⟨0, 32, .rw, 0x1, false⟩]⟩
  ]

/-- Registers of block 0x7, FLD, part 1 (Table 01-2). -/
def regsFLD1 : List RegDesc :=
  [
   ⟨"FLD_DEC_SILL", 0x71010, 32, 64, 1,
     [⟨0, 32, .rw, 0x0, false⟩]⟩,
   ⟨"FLD_TRIP_CFG", 0x72000, 32, 16, 1,
     [⟨31, 1, .rwl, 0x0, false⟩, ⟨30, 1, .rwl, 0x0, false⟩, ⟨29, 1, .rwl, 0x0, false⟩, ⟨28, 1, .rwl, 0x0, false⟩, ⟨26, 2, .rwl, 0x0, false⟩, ⟨0, 10, .rwl, 0x0, false⟩]⟩,
   ⟨"FLD_TRIP_LINTEL", 0x72004, 32, 16, 1,
     [⟨0, 32, .rwl, 0x7FFFFFFF, false⟩]⟩,
   ⟨"FLD_TRIP_SILL", 0x72008, 32, 16, 1,
     [⟨0, 32, .rwl, 0x7FFFFFFE, false⟩]⟩,
   ⟨"FLD_TRIP_TIME", 0x7200C, 32, 16, 1,
     [⟨16, 16, .rwl, 0x0, false⟩, ⟨0, 16, .rwl, 0x0, false⟩]⟩,
   ⟨"FLD_TRIP_STAT", 0x72010, 32, 16, 1,
     [⟨16, 16, .rc, 0x0, false⟩, ⟨3, 3, .ro, 0x5, false⟩, ⟨2, 1, .ro, 0x0, false⟩, ⟨1, 1, .ro, 0x0, false⟩, ⟨0, 1, .ro, 0x0, false⟩]⟩,
   ⟨"FLD_FOUT_CFG", 0x73000, 32, 8, 1,
     [⟨30, 2, .rw, 0x0, false⟩, ⟨28, 2, .rw, 0x0, false⟩, ⟨0, 10, .rw, 0x0, false⟩]⟩,
   ⟨"FLD_FOUT_VLO", 0x73004, 32, 8, 1,
     [⟨0, 32, .rw, 0x0, false⟩]⟩
  ]

/-- Registers of block 0x7, FLD, part 2 (Table 01-2). -/
def regsFLD2 : List RegDesc :=
  [
   ⟨"FLD_FOUT_VHI", 0x73008, 32, 8, 1,
     [⟨0, 32, .rw, 0x1, false⟩]⟩,
   ⟨"FLD_FOUT_RANGE", 0x7300C, 32, 8, 1,
     [⟨16, 16, .rw, 0x0, false⟩, ⟨0, 16, .rw, 0x0, false⟩]⟩,
   ⟨"FLD_CTRL", 0x74000, 0, 1, 1,
     [⟨0, 1, .w1s, 0x0, false⟩]⟩
  ]

/-- Registers of block 0x7, FLD. -/
def regsFLD : List RegDesc := regsFLD0 ++ regsFLD1 ++ regsFLD2

/-- Registers of block 0x8, QM, part 0 (Table 01-2). -/
def regsQM0 : List RegDesc :=
  [
   ⟨"QM_Q_CFG", 0x80000, 32, 64, 1,
     [⟨16, 16, .rw, 0x0, false⟩, ⟨0, 16, .rw, 0x0, false⟩]⟩,
   ⟨"QM_Q_WM", 0x80004, 32, 64, 1,
     [⟨16, 16, .rw, 0x0, false⟩, ⟨0, 16, .rw, 0x0, false⟩]⟩,
   ⟨"QM_Q_STAT", 0x80008, 32, 64, 1,
     [⟨16, 16, .ro, 0x0, false⟩, ⟨0, 16, .ro, 0x0, false⟩]⟩,
   ⟨"QM_Q_FLAGS", 0x8000C, 32, 64, 1,
     [⟨16, 16, .rc, 0x0, false⟩, ⟨4, 1, .ro, 0x0, false⟩, ⟨3, 1, .w1c, 0x0, false⟩, ⟨2, 1, .w1c, 0x0, false⟩, ⟨1, 1, .ro, 0x0, false⟩, ⟨0, 1, .ro, 0x1, false⟩]⟩,
   ⟨"QM_CTRL", 0x81000, 0, 1, 1,
     [⟨24, 8, .rw, 0x1, false⟩, ⟨0, 16, .rw, 0x2710, false⟩]⟩,
   ⟨"QM_POOL_STAT", 0x81004, 0, 1, 1,
     [⟨16, 16, .ro, 0x0, false⟩, ⟨0, 16, .ro, 0x0, false⟩]⟩,
   ⟨"QM_RET_CFG", 0x81010, 0, 1, 1,
     [⟨31, 1, .rw, 0x1, false⟩, ⟨16, 8, .rw, 0x4B, false⟩, ⟨0, 16, .rw, 0xC8, false⟩]⟩,
   ⟨"QM_RET_STAT", 0x81014, 0, 1, 1,
     [⟨24, 8, .ro, 0x0, false⟩, ⟨0, 16, .rc, 0x0, false⟩]⟩
  ]

/-- Registers of block 0x8, QM, part 1 (Table 01-2). -/
def regsQM1 : List RegDesc :=
  [
   ⟨"QM_RET_USED", 0x81018, 0, 1, 2,
     [⟨0, 64, .ro, 0x0, false⟩]⟩,
   ⟨"QM_DROP_STAT", 0x81020, 0, 1, 1,
     [⟨31, 1, .ro, 0x0, false⟩, ⟨16, 15, .rc, 0x0, false⟩, ⟨0, 16, .rc, 0x0, false⟩]⟩,
   ⟨"QM_REL_STAT", 0x81024, 0, 1, 1,
     [⟨16, 16, .rc, 0x0, false⟩, ⟨0, 16, .rc, 0x0, false⟩]⟩,
   ⟨"QM_SHUT_CTRL", 0x82000, 16, 32, 1,
     [⟨31, 1, .ro, 0x0, false⟩, ⟨30, 1, .ro, 0x0, false⟩, ⟨29, 1, .ro, 0x0, false⟩, ⟨28, 1, .ro, 0x0, false⟩, ⟨0, 16, .ro, 0x0, false⟩]⟩,
   ⟨"QM_SHUT_HUB", 0x82004, 16, 32, 1,
     [⟨16, 11, .ro, 0x0, false⟩, ⟨0, 11, .ro, 0x0, false⟩]⟩,
   ⟨"QM_SHUT_CHAN", 0x82008, 16, 32, 1,
     [⟨16, 10, .ro, 0x0, false⟩, ⟨0, 10, .ro, 0x0, false⟩]⟩,
   ⟨"QM_SHUT_TYPE", 0x8200C, 16, 32, 1,
     [⟨16, 16, .ro, 0x0, false⟩, ⟨0, 9, .ro, 0x0, false⟩]⟩
  ]

/-- Registers of block 0x8, QM. -/
def regsQM : List RegDesc := regsQM0 ++ regsQM1

/-- Registers of block 0x9, CMP, part 0 (Table 01-2). -/
def regsCMP0 : List RegDesc :=
  [
   ⟨"CMP_CTRL", 0x90000, 0, 1, 1,
     [⟨31, 1, .rw, 0x1, false⟩, ⟨26, 2, .rw, 0x2, false⟩, ⟨0, 12, .rw, 0x400, false⟩]⟩,
   ⟨"CMP_STAT", 0x90004, 0, 1, 1,
     [⟨16, 16, .rc, 0x0, false⟩, ⟨0, 16, .rc, 0x0, false⟩]⟩,
   ⟨"CMP_RATIO", 0x90008, 0, 1, 1,
     [⟨16, 16, .rc, 0x0, false⟩, ⟨0, 16, .ro, 0x100, false⟩]⟩,
   ⟨"CMP_ERR", 0x9000C, 0, 1, 1,
     [⟨16, 16, .rc, 0x0, false⟩, ⟨0, 16, .rc, 0x0, false⟩]⟩,
   ⟨"CMP_LAST_ERR", 0x90010, 0, 1, 1,
     [⟨28, 4, .ro, 0x0, false⟩, ⟨16, 12, .ro, 0x0, false⟩, ⟨15, 1, .ro, 0x0, false⟩]⟩,
   ⟨"CMP_LAST_POS", 0x90014, 0, 1, 1,
     [⟨0, 32, .ro, 0x0, false⟩]⟩,
   ⟨"CMP_SLOT", 0x90100, 16, 4, 1,
     [⟨31, 1, .ro, 0x0, false⟩, ⟨30, 1, .ro, 0x0, false⟩, ⟨27, 3, .ro, 0x0, false⟩, ⟨0, 13, .ro, 0x0, false⟩]⟩,
   ⟨"CMP_SLOT_OUT", 0x90104, 16, 4, 1,
     [⟨0, 32, .ro, 0x0, false⟩]⟩
  ]

/-- Registers of block 0x9, CMP. -/
def regsCMP : List RegDesc := regsCMP0

/-- Registers of block 0xA, LNK, part 0 (Table 01-2). -/
def regsLNK0 : List RegDesc :=
  [
   ⟨"LNK_PORT_CFG", 0xA0000, 64, 8, 1,
     [⟨28, 4, .rw, 0x0, true⟩, ⟨26, 2, .rw, 0x0, true⟩, ⟨24, 2, .rw, 0x0, true⟩, ⟨23, 1, .rw, 0x0, false⟩, ⟨22, 1, .rw, 0x0, false⟩, ⟨20, 2, .rw, 0x0, true⟩, ⟨16, 4, .rw, 0x0, true⟩, ⟨15, 1, .rw, 0x0, false⟩, ⟨0, 12, .rw, 0x100, false⟩]⟩,
   ⟨"LNK_PORT_CREDIT", 0xA0004, 64, 8, 1,
     [⟨8, 8, .rw, 0x80, false⟩, ⟨0, 8, .rw, 0x20, false⟩]⟩,
   ⟨"LNK_PORT_STAT", 0xA0008, 64, 8, 1,
     [⟨29, 3, .ro, 0x0, false⟩, ⟨27, 2, .ro, 0x2, false⟩, ⟨25, 2, .ro, 0x0, false⟩, ⟨20, 4, .ro, 0x0, false⟩, ⟨18, 2, .ro, 0x0, false⟩, ⟨15, 1, .ro, 0x0, false⟩, ⟨11, 4, .ro, 0x0, false⟩, ⟨0, 11, .ro, 0x0, false⟩]⟩,
   ⟨"LNK_PORT_ERR", 0xA000C, 64, 8, 1,
     [⟨16, 16, .rc, 0x0, false⟩, ⟨8, 8, .rc, 0x0, false⟩, ⟨0, 8, .rc, 0x0, false⟩]⟩,
   ⟨"LNK_PORT_CNT", 0xA0010, 64, 8, 1,
     [⟨16, 16, .rc, 0x0, false⟩, ⟨0, 16, .rc, 0x0, false⟩]⟩,
   ⟨"LNK_PORT_RTT", 0xA0014, 64, 8, 1,
     [⟨12, 20, .ro, 0x0, false⟩, ⟨0, 12, .rc, 0x0, false⟩]⟩,
   ⟨"LNK_LANE_STAT", 0xA1000, 16, 32, 1,
     [⟨16, 16, .rc, 0x0, false⟩, ⟨8, 8, .rc, 0x0, false⟩, ⟨7, 1, .ro, 0x0, false⟩, ⟨6, 1, .ro, 0x0, false⟩, ⟨5, 1, .ro, 0x0, false⟩, ⟨4, 1, .ro, 0x0, false⟩, ⟨3, 1, .ro, 0x0, false⟩]⟩,
   ⟨"LNK_ROUTE_CFG", 0xA2000, 0, 1, 1,
     [⟨16, 16, .ro, 0x0, false⟩, ⟨15, 1, .rw, 0x1, false⟩, ⟨14, 1, .ro, 0x0, false⟩, ⟨6, 6, .ro, 0x0, false⟩, ⟨0, 6, .rw, 0x0, true⟩]⟩
  ]

/-- Registers of block 0xA, LNK, part 1 (Table 01-2). -/
def regsLNK1 : List RegDesc :=
  [
   ⟨"LNK_ROUTE_STAT", 0xA2004, 0, 1, 1,
     [⟨28, 4, .ro, 0xF, false⟩, ⟨24, 4, .ro, 0xF, false⟩, ⟨16, 8, .ro, 0xFF, false⟩, ⟨8, 8, .ro, 0xFF, false⟩, ⟨0, 8, .rc, 0x0, false⟩]⟩,
   ⟨"LNK_MOD_STAT", 0xA3000, 16, 8, 1,
     [⟨31, 1, .ro, 0x0, false⟩, ⟨30, 1, .ro, 0x0, false⟩, ⟨26, 4, .ro, 0x0, false⟩, ⟨25, 1, .ro, 0x0, false⟩, ⟨0, 16, .ro, 0x0, false⟩]⟩
  ]

/-- Registers of block 0xA, LNK. -/
def regsLNK : List RegDesc := regsLNK0 ++ regsLNK1

/-- Registers of block 0xB, CMD, part 0 (Table 01-2). -/
def regsCMD0 : List RegDesc :=
  [
   ⟨"CMD_STAT", 0xB0000, 0, 1, 1,
     [⟨16, 16, .rc, 0x0, false⟩, ⟨0, 16, .rc, 0x0, false⟩]⟩,
   ⟨"CMD_ERR", 0xB0004, 0, 1, 1,
     [⟨24, 8, .rc, 0x0, false⟩, ⟨16, 8, .rc, 0x0, false⟩, ⟨8, 8, .rc, 0x0, false⟩, ⟨0, 8, .rc, 0x0, false⟩]⟩,
   ⟨"CMD_CACHE", 0xB0008, 0, 1, 1,
     [⟨16, 16, .rc, 0x0, false⟩, ⟨8, 8, .rc, 0x0, false⟩, ⟨0, 5, .ro, 0x0, false⟩]⟩,
   ⟨"CMD_SPI_CTRL", 0xB0010, 0, 1, 1,
     [⟨16, 16, .rc, 0x0, false⟩, ⟨1, 1, .w1c, 0x0, false⟩, ⟨0, 1, .rw, 0x0, false⟩]⟩,
   ⟨"CMD_SLOT", 0xB0100, 16, 16, 1,
     [⟨31, 1, .ro, 0x0, true⟩, ⟨0, 12, .ro, 0x0, true⟩]⟩,
   ⟨"CMD_SLOT_CTR", 0xB0104, 16, 16, 1,
     [⟨0, 32, .ro, 0x0, true⟩]⟩
  ]

/-- Registers of block 0xB, CMD. -/
def regsCMD : List RegDesc := regsCMD0

/-- Registers of block 0xC, RED, part 0 (Table 01-2). -/
def regsRED0 : List RegDesc :=
  [
   ⟨"RED_CFG", 0xC0000, 0, 1, 1,
     [⟨30, 2, .rw, 0x0, true⟩, ⟨29, 1, .rw, 0x0, true⟩, ⟨24, 4, .rw, 0x0, true⟩, ⟨0, 9, .rw, 0x0, true⟩]⟩,
   ⟨"RED_PARTNER", 0xC0004, 0, 1, 1,
     [⟨0, 11, .rw, 0x0, true⟩]⟩,
   ⟨"RED_WITNESS", 0xC0008, 0, 1, 1,
     [⟨16, 11, .rw, 0x0, true⟩, ⟨0, 11, .rw, 0x0, true⟩]⟩,
   ⟨"RED_STAT", 0xC0010, 0, 1, 1,
     [⟨29, 3, .ro, 0x0, false⟩, ⟨28, 1, .ro, 0x0, false⟩, ⟨27, 1, .ro, 0x0, false⟩, ⟨26, 1, .ro, 0x0, false⟩, ⟨25, 1, .ro, 0x0, false⟩, ⟨24, 1, .ro, 0x0, false⟩, ⟨0, 16, .ro, 0x0, false⟩]⟩,
   ⟨"RED_EPOCH", 0xC0014, 0, 1, 1,
     [⟨0, 32, .ro, 0x0, false⟩]⟩,
   ⟨"RED_COUNT", 0xC0018, 0, 1, 1,
     [⟨24, 8, .rc, 0x0, false⟩, ⟨16, 8, .rc, 0x0, false⟩, ⟨8, 8, .rc, 0x0, false⟩, ⟨0, 8, .rc, 0x0, false⟩]⟩,
   ⟨"RED_LEDGER", 0xC001C, 0, 1, 1,
     [⟨31, 1, .w1c, 0x0, false⟩, ⟨0, 21, .ro, 0x0, false⟩]⟩,
   ⟨"RED_MIRROR", 0xC0020, 0, 1, 1,
     [⟨0, 32, .ro, 0x0, false⟩]⟩
  ]

/-- Registers of block 0xC, RED, part 1 (Table 01-2). -/
def regsRED1 : List RegDesc :=
  [
   ⟨"RED_WIT_CFG", 0xC0100, 16, 4, 1,
     [⟨31, 1, .rw, 0x0, true⟩, ⟨22, 5, .rw, 0x0, true⟩, ⟨11, 11, .rw, 0x0, true⟩, ⟨0, 11, .rw, 0x0, true⟩]⟩,
   ⟨"RED_WIT_STAT", 0xC0104, 16, 4, 1,
     [⟨31, 1, .ro, 0x0, false⟩, ⟨30, 1, .ro, 0x0, false⟩, ⟨16, 11, .ro, 0x0, false⟩, ⟨0, 16, .ro, 0x0, false⟩]⟩,
   ⟨"RED_WIT_EPOCH", 0xC0108, 16, 4, 1,
     [⟨0, 32, .ro, 0x0, false⟩]⟩
  ]

/-- Registers of block 0xC, RED. -/
def regsRED : List RegDesc := regsRED0 ++ regsRED1

/-- Registers of block 0xD, MEM, part 0 (Table 01-2). -/
def regsMEM0 : List RegDesc :=
  [
   ⟨"MEM_BOOT_STAT", 0xD0000, 0, 1, 1,
     [⟨31, 1, .ro, 0x0, false⟩, ⟨30, 1, .ro, 0x0, false⟩, ⟨29, 1, .ro, 0x0, false⟩, ⟨24, 5, .ro, 0x0, false⟩, ⟨0, 16, .ro, 0x0, false⟩]⟩,
   ⟨"MEM_LAYOUT", 0xD0004, 0, 1, 1,
     [⟨16, 8, .rw, 0x0, true⟩, ⟨0, 8, .rw, 0x0, true⟩]⟩,
   ⟨"MEM_DRAM_CFG", 0xD0008, 0, 1, 1,
     [⟨24, 8, .ro, 0x0, false⟩, ⟨16, 8, .ro, 0x0, false⟩, ⟨8, 8, .ro, 0x0, false⟩, ⟨3, 5, .ro, 0x0, false⟩, ⟨0, 2, .rw, 0x0, true⟩]⟩,
   ⟨"MEM_SCRUB_STAT", 0xD000C, 0, 1, 1,
     [⟨31, 1, .ro, 0x0, false⟩, ⟨28, 3, .ro, 0x0, false⟩, ⟨27, 1, .ro, 0x0, false⟩, ⟨0, 8, .ro, 0x0, false⟩]⟩,
   ⟨"MEM_ERR", 0xD0100, 32, 5, 1,
     [⟨16, 16, .rc, 0x0, false⟩, ⟨0, 16, .rc, 0x0, false⟩]⟩,
   ⟨"MEM_ERR_INFO", 0xD0104, 32, 5, 1,
     [⟨30, 2, .ro, 0x0, false⟩, ⟨27, 3, .ro, 0x0, false⟩, ⟨26, 1, .ro, 0x0, false⟩, ⟨0, 16, .ro, 0x0, false⟩]⟩,
   ⟨"MEM_ERR_ADDR", 0xD0108, 32, 5, 2,
     [⟨0, 64, .ro, 0x0, false⟩]⟩
  ]

/-- Registers of block 0xD, MEM. -/
def regsMEM : List RegDesc := regsMEM0

/-- Registers of block 0xE, PMC, part 0 (Table 01-2). -/
def regsPMC0 : List RegDesc :=
  [
   ⟨"PMC_CTRL", 0xE0000, 0, 1, 1,
     [⟨31, 1, .rw, 0x0, false⟩, ⟨0, 1, .w1s, 0x0, false⟩]⟩,
   ⟨"PMC_STAT", 0xE0004, 0, 1, 1,
     [⟨0, 8, .w1c, 0x0, false⟩]⟩,
   ⟨"PMC_CYCLE", 0xE0008, 0, 1, 2,
     [⟨0, 64, .ro, 0x0, false⟩]⟩,
   ⟨"PMC_DUMP", 0xE0010, 0, 1, 1,
     [⟨31, 1, .rw, 0x0, false⟩, ⟨30, 1, .rw, 0x0, false⟩, ⟨16, 8, .rc, 0x0, false⟩, ⟨0, 16, .rw, 0x3E8, false⟩]⟩,
   ⟨"PMC_CFG", 0xE0100, 16, 8, 1,
     [⟨31, 1, .rw, 0x0, false⟩, ⟨30, 1, .rw, 0x0, false⟩, ⟨16, 7, .rw, 0x7F, false⟩, ⟨0, 12, .rw, 0x0, false⟩]⟩,
   ⟨"PMC_CNT", 0xE0104, 16, 8, 1,
     [⟨0, 32, .ro, 0x0, false⟩]⟩,
   ⟨"PMC_TONE", 0xE0200, 4, 64, 1,
     [⟨31, 1, .rw, 0x0, false⟩, ⟨0, 3, .rw, 0x1, false⟩]⟩
  ]

/-- Registers of block 0xE, PMC. -/
def regsPMC : List RegDesc := regsPMC0

/-- Registers of block 0xF, CAL, part 0 (Table 01-2). -/
def regsCAL0 : List RegDesc :=
  [
   ⟨"CAL_POLICY", 0xF0000, 0, 1, 1,
     [⟨31, 1, .rw, 0x0, true⟩, ⟨30, 1, .rw, 0x0, true⟩, ⟨29, 1, .rw, 0x0, true⟩, ⟨16, 8, .rw, 0x0, true⟩]⟩,
   ⟨"CAL_PERIOD", 0xF0004, 0, 1, 1,
     [⟨24, 8, .rw, 0x0, true⟩, ⟨16, 8, .rw, 0x0, true⟩, ⟨0, 16, .rw, 0x0, true⟩]⟩,
   ⟨"CAL_STAT", 0xF0010, 0, 1, 1,
     [⟨16, 6, .ro, 0x0, false⟩, ⟨8, 6, .w1c, 0x0, false⟩, ⟨0, 6, .w1c, 0x0, false⟩]⟩,
   ⟨"CAL_COUNT", 0xF0014, 0, 1, 1,
     [⟨16, 16, .rc, 0x0, false⟩, ⟨0, 16, .rc, 0x0, false⟩]⟩,
   ⟨"CAL_GRP_STAT", 0xF0100, 16, 29, 1,
     [⟨16, 16, .ro, 0x0, true⟩, ⟨12, 4, .ro, 0x0, false⟩, ⟨11, 1, .ro, 0x0, false⟩, ⟨10, 1, .ro, 0x0, false⟩, ⟨0, 8, .ro, 0xFF, false⟩]⟩,
   ⟨"CAL_GRP_QUAL", 0xF0104, 16, 29, 1,
     [⟨16, 16, .ro, 0x0, true⟩, ⟨0, 16, .ro, 0x0, true⟩]⟩
  ]

/-- Registers of block 0xF, CAL. -/
def regsCAL : List RegDesc := regsCAL0

/-- The registers of block `n` (Table 01-2). -/
def blockRegs (n : Nat) : List RegDesc :=
  match n with
  | 0 => regsSYS
  | 1 => regsAFE
  | 2 => regsCONV
  | 3 => regsDEC
  | 4 => regsTB
  | 5 => regsTIU
  | 6 => regsCAP
  | 7 => regsFLD
  | 8 => regsQM
  | 9 => regsCMP
  | 10 => regsLNK
  | 11 => regsCMD
  | 12 => regsRED
  | 13 => regsMEM
  | 14 => regsPMC
  | 15 => regsCAL
  | _ => []

end Sys2Proof.Machine
end

