-- ==== Sys2Proof/Machine/Tab.lean ====
section
/-!
DEFINITION. Sparse tables: a list of (key, value) pairs with strictly rising keys and no entry equal to what an
unlisted key reads as. The register file, the addressed buffers and the per-channel and per-queue state are tables, so
that equal contents are equal data.
-/

namespace Sys2Proof.Machine

/-- A table from numbers to values; an unlisted key reads as a default its user names. -/
abbrev Tab (α : Type) := List (Nat × α)

/-- The value at key `k`, `d` where the key is not listed. -/
def Tab.get {α : Type} (d : α) : Tab α → Nat → α
  | [], _ => d
  | (j, v) :: rest, k => if j = k then v else Tab.get d rest k

/-- The table without key `k`. -/
def Tab.erase {α : Type} : Tab α → Nat → Tab α
  | [], _ => []
  | (j, v) :: rest, k => if j = k then Tab.erase rest k else (j, v) :: Tab.erase rest k

/-- The table with value `v` listed at key `k`. -/
def Tab.insert {α : Type} : Tab α → Nat → α → Tab α
  | [], k, v => [(k, v)]
  | (j, w) :: rest, k, v =>
    if j = k then (k, v) :: rest
    else if k < j then (k, v) :: (j, w) :: rest
    else (j, w) :: Tab.insert rest k v

/-- The table in which key `k` reads `v`: writing the default removes the entry. -/
def Tab.set {α : Type} [DecidableEq α] (d : α) (t : Tab α) (k : Nat) (v : α) : Tab α :=
  if v = d then t.erase k else t.insert k v

/-- The keys of a table rise strictly from above `lo`. -/
def Tab.rising {α : Type} : Option Nat → Tab α → Bool
  | _, [] => true
  | none, (j, _) :: rest => Tab.rising (some j) rest
  | some i, (j, _) :: rest => decide (i < j) && Tab.rising (some j) rest

/-- The canonical form: keys strictly rising, no entry equal to the default. -/
def Tab.wf {α : Type} [DecidableEq α] (d : α) (t : Tab α) : Bool :=
  Tab.rising none t && t.all fun e => decide (e.2 ≠ d)

/-- An addressed buffer of bytes: (address, byte) pairs in canonical form. -/
abbrev Mem := Tab Byte

/-- The byte at address `a` of a buffer whose unlisted addresses read `d`. -/
def Mem.read (d : Byte) (m : Mem) (a : Nat) : Byte := Tab.get d m a

/-- The buffer with byte `b` at address `a`. -/
def Mem.write (d : Byte) (m : Mem) (a : Nat) (b : Byte) : Mem := Tab.set d m a b

/-- The buffer with the bytes `bs` from address `a` upward. -/
def Mem.writeBytes (d : Byte) (m : Mem) (a : Nat) : List Byte → Mem
  | [] => m
  | b :: bs => Mem.writeBytes d (Mem.write d m a b) (a + 1) bs

/-- The `n` bytes from address `a` upward. -/
def Mem.readBytes (d : Byte) (m : Mem) (a : Nat) : Nat → List Byte
  | 0 => []
  | n + 1 => Mem.read d m a :: Mem.readBytes d m (a + 1) n

/-- The canonical form of a buffer. -/
def Mem.wf (d : Byte) (m : Mem) : Bool := Tab.wf d m

end Sys2Proof.Machine
end

