-- ==== Sys2Proof/Machine/State.lean ====
section
/-!
DEFINITION. The state of one hub as plain data. The registers stand in `regs` (by word address, an unlisted word reads
its reset value); what the manual gives the hub beside its registers stands in one structure per block. NVM and flash
keep their contents over a hub reset, everything else starts again (00_scope.md R5).
-/

namespace Sys2Proof.Machine

/-- Where boot stands (15_porter_management.md Table 15-3, R450, R466): waiting at step 1 for PFW_N, filling memories,
loading the image, loading the configuration, running after BOOT_OK, MINIMAL, held in BOOT by a failure of memory 2,
or without supply order. -/
inductive Phase where
  | waitPfw
  | fill
  | imageLoad
  | configLoad
  | running
  | minimal
  | held
  deriving DecidableEq, Repr

/-- One credential slot in NVM (12_command_packets.md R374, R375). -/
structure Cred where
  valid : Bool
  key : List Byte
  perms : Nat
  ceiling : Nat
  deriving DecidableEq, Repr

/-- One image slot's boot-state marks (15_porter_management.md SYS_SLOT). -/
structure SlotMark where
  valid : Bool
  trial : Bool
  version : Nat
  secVer : Nat
  deriving DecidableEq, Repr

/-- One black-box entry (15_porter_management.md Table 15-6), less its CRC, which its image computes. -/
structure BBEntry where
  seq : Nat
  st : Nat
  tqByte : Nat
  block : Nat
  kind : Nat
  code : Nat
  xc : Nat
  starts : Nat
  items : List Nat
  deriving DecidableEq, Repr

/-- One copy of the configuration store (15_porter_management.md R461): erased, or a generation with the register
words it holds, with the validity of its CRC. -/
structure CfgCopy where
  erased : Bool
  valid : Bool
  generation : Nat
  words : Tab Word
  deriving DecidableEq, Repr

/-- A calibration record (16_calibration.md R499, Tables 16-4, 16-5): validity of magic, item, index and CRC,
generation, instant, temperature, quality, payload. -/
structure CalRec where
  valid : Bool
  generation : Nat
  st : Nat
  temp : Int
  quality : Nat
  payload : List Byte
  deriving DecidableEq, Repr

/-- What NVM, the boot ROM and the boot state hold; it survives every reset. `nextAddrAt` is the instant NEXT_ADDR was last written
and not yet stored (01_architecture.md R20). `firmwareKey` is the Dunqua firmware key in the boot ROM, x and y of its point
(15_porter_management.md R460): the manual gives it no value. (DESIGN CHOICE, log entries 3 and 37). -/
structure Nvm where
  hubAddr : Option Nat := none
  nextAddr : Option Nat := none
  nextAddrAt : Nat := 0
  activeSlot : Nat := 0
  slotA : SlotMark := ⟨true, false, 0, 0⟩
  slotB : SlotMark := ⟨false, false, 0, 0⟩
  secFloor : Nat := 0
  fails : Nat := 0
  reason : Nat := 0
  trialFailed : Bool := false
  trialRunning : Option Nat := none
  trialFailedSince : Bool := false
  startCount : Nat := 0
  bootPower : Nat := 3
  creds : List Cred := ⟨true, List.replicate 16 0#8, 0x0600, 0⟩ :: List.replicate 15 ⟨false, [], 0, 0⟩
  bb : List BBEntry := []
  bbNext : Nat := 0
  cfg0 : CfgCopy := ⟨true, false, 0, []⟩
  cfg1 : CfgCopy := ⟨true, false, 0, []⟩
  words : Tab Word := [(0x00140, 0x3811#32), (0xF0000, 0x00100000#32), (0xF0004, 0x0A0A003C#32)]
  calStore : Tab CalRec := []
  calStaging : Option (Nat × CalRec) := none
  heldAtReset : Nat := 0
  heldOldest : Nat := 0
  firmwareKey : Nat × Nat := ((Config.firmwareKey 0).toNat, (Config.firmwareKey 1).toNat)
  deriving DecidableEq, Repr

/-- The addressed buffers outside the cell pool: flash (unlisted bytes 0xFF) and the DRAM work area (unlisted bytes 0,
14_memory_and_ecc.md R448). (DESIGN CHOICE, log entry 4). -/
structure Bufs where
  flash : Mem := []
  work : Mem := []
  deriving DecidableEq, Repr

/-- Who waits for a reply: arrival, source, slot, tag, counter, opcode, whether scoped, ACK_ALL,
HUB_ORIGIN, the key and permissions it was authenticated under, and the CRC-32C of its parameters.
(DEDUCED, log entry 12). -/
structure Caller where
  arrival : Nat
  source : Nat
  slot : Nat
  tag : Nat
  counter : Nat
  opcode : Nat
  isScoped : Bool
  ackAll : Bool
  origin : Bool
  key : List Byte
  perms : Nat
  paramCrc : Nat
  deriving DecidableEq, Repr

/-- A power-state transition in progress (01_architecture.md R34 to R36, 15_porter_management.md R477). -/
structure Transition where
  target : Nat
  persist : Bool
  caller : Caller
  deriving DecidableEq, Repr

/-- The update session (15_porter_management.md R468). -/
structure Session where
  slot : Nat
  length : Nat
  received : Nat
  deriving DecidableEq, Repr

/-- One line the console printed (15_porter_management.md R475). -/
inductive ConLine where
  | bootStep (n : Nat)
  | startFailed (reason : Nat)
  | minimal (reason : Nat)
  | status (power slot : Nat)
  deriving DecidableEq, Repr

/-- Events held back by a per-second limit (00_scope.md R541): key (event code, instance), the second counted, events
sent in it, occurrences held back, payload of the latest, position of the count in the payload, whether the count takes
in the occurrence the event describes, position of an item taken from the first held occurrence (9 for none) with its
value, and the limit. -/
structure Limited where
  code : Nat
  inst : Nat
  second : Nat
  sent : Nat
  held : Nat
  items : List Nat
  countAt : Nat
  incl : Bool
  firstAt : Nat
  first : Nat
  cap : Nat
  deriving DecidableEq, Repr

/-- System block state beside its registers. (DESIGN CHOICE, log entry 3). -/
structure Sys where
  phase : Phase := .fill
  pfwNLow : Bool := false
  pfwRoseAt : Option Nat := none
  jtag : Option Jtag := none
  resetAfterReply : Option (Nat × Nat) := none
  transition : Option Transition := none
  session : Option Session := none
  commits : List (Caller × Session) := []
  restarts : List Nat := []
  reloading : Bool := false
  stepFourAt : Nat := 0
  bootSlot : Nat := 0
  bootFromTrial : Bool := false
  conOut : List ConLine := []
  deskewFailed : Nat := 0
  cacheFailed : Bool := false
  sensorCodes : Tab Nat := []
  sensorAlarm : Nat := 0
  sensorAt : Option Nat := none
  sensorSt : Nat := 0
  limits : List Limited := []
  bbDropped : Nat := 0
  bbLastSecond : Nat := 0
  minimalTold : Bool := false
  deriving DecidableEq, Repr

/-- One event-record entry (07_panes_and_triggers.md R211). -/
structure EvEntry where
  code : Nat
  st : Nat
  items : List Nat
  deriving DecidableEq, Repr

/-- The event record being filled (07_panes_and_triggers.md R211). -/
structure EvRec where
  openedAt : Nat
  tqByte : Nat
  entries : List EvEntry
  deriving DecidableEq, Repr

/-- Where a held record is (09_queues_and_retention.md R271 to R285, 10_compression.md R301): entering or waiting
in its queue, in the engine, partly sent, delivered, in retention, or being brought back. -/
inductive Place where
  | queued
  | engine
  | sending
  | delivered
  | spilling
  | retention
  | returning
  deriving DecidableEq, Repr

/-- What a gap record declares (07_panes_and_triggers.md R213): type and reason, first and last missing index or sequence
number, ST64 of the last missing sample, records lost. -/
structure Gap where
  rtype : Nat
  reason : Nat
  first : Nat
  last : Nat
  stLast : Nat
  records : Nat
  deriving DecidableEq, Repr

/-- A record the hub holds (07_panes_and_triggers.md Table 07-2). `addr` is header bytes 4-6; `first` and `last` are full
indices, or the sequence number; `prio` is the stream's or pane's priority; `wantCmp` says the stream or extract asks for
compression; `fsf` says the payload is an FSF stream; `spilled` is the form it has in retention, `exts` the extents of
retention that hold it; `aq` is the queue it was formed in and `inAsm` its cells charged there, `q` its egress queue (64
for none yet) and `entered` its cells there; `deliveredAt` is set once its LAST cell is acknowledged; `ctrl` is CMP_CTRL as it entered the engine (R319). -/
structure Rec where
  id : Nat
  rtype : Nat
  addr : Nat
  fmt : Nat
  first : Nat
  last : Nat
  st : Nat
  stLast : Nat
  rate : Nat
  tqByte : Nat
  flags : Nat
  count : Nat
  pane : Nat
  payload : List Byte
  prio : Nat
  wantCmp : Bool
  fsf : Bool
  spilled : Option (List Byte)
  closedAt : Nat
  agedFrom : Nat
  q : Nat
  aq : Nat
  inAsm : Nat
  entered : Nat
  place : Place
  popped : Nat
  resent : Bool
  deliveredAt : Option Nat
  exts : List Nat
  gapOf : Option Gap
  ctrl : Word := 0#32
  deriving DecidableEq, Repr

/-- A record in assembly: a channel's or pane channel's samples so far (07_panes_and_triggers.md R202, R203, R226), with the
period length, channel mode, unit and measurement word it began under (04_decimation.md R141; R244), and the instants of its
samples. -/
structure Asm where
  key : Nat
  rtype : Nat
  addr : Nat
  fmt : Nat
  first : Nat
  st : Nat
  stLast : Nat
  last : Nat
  rate : Nat
  tqByte : Nat
  flags : Nat
  recFlags : Nat
  pane : Nat
  prio : Nat
  wantCmp : Bool
  period : Nat
  recMs : Nat
  mode : Nat
  unit : Nat × Nat
  meas : Word
  aq : Nat
  inAsm : Nat
  values : List Int
  times : List Nat
  deriving DecidableEq, Repr

/-- What a class C or T cell carries, or a packet queued for one of the block's own queues. -/
inductive Ctl where
  | packet (op : Nat) (p : Packet)
  | timeCell (c : TimeCell)
  | linkState (ls : LinkState)
  | heartbeat (h : Heartbeat)
  | mirror (m : MirrorCell)
  | digest (d : DigestCell)
  | transit (cell : Cell)
  | bbMirror (entries : List BBEntry)
  deriving DecidableEq, Repr

/-- An entry of a queue that holds packets or transit cells: its number, queue, cells, contents, arrival port (8 for none),
URGENT, cells entered, the instant it was queued, cells sent. It stays charged until the next hop has acknowledged its last
cell (09_queues_and_retention.md R283). -/
structure QItem where
  iid : Nat
  q : Nat
  cells : Nat
  ctl : Ctl
  fromPort : Nat
  urgent : Bool
  entered : Nat
  at_ : Nat
  sent : Nat
  deriving DecidableEq, Repr

/-- A cell or packet held without a route (11_serial_lanes_and_syrilink.md R353). -/
structure HeldItem where
  item : QItem
  since : Nat
  deriving DecidableEq, Repr

/-- A queue's own state beside QM registers (09_queues_and_retention.md R275 to R277, R279, R280, R284, R289, R295): last cell
delivered, the transit record partly sent (address, type, index, pane), underrun and rewind counts, the cause of a rewind that awaits
its record boundary, LEVEL; by core-logic clock, the cells pushed in it, the record released in it that a pop in it still meets, and the
change of the watermark pair. (DEDUCED, log entry 55). -/
structure QState where
  lastCell : List Byte := []
  mid : Option (Nat × Nat × Nat × Nat) := none
  underruns : Nat := 0
  rewinds : Nat := 0
  rewindCause : Option Nat := none
  level : Bool := false
  pushed : Nat × Nat := (0, 0)
  freed : Option (Nat × Rec) := none
  pairIn : Option Nat := none
  deriving DecidableEq, Repr

/-- Samples discarded while an assembly queue's staging is full (09_queues_and_retention.md R274): the record type,
address, rate code, grid bit and pane they would have had, their queue, first and last index and instant, and how many. -/
structure Lost where
  key : Nat
  rtype : Nat
  addr : Nat
  rate : Nat
  grid : Nat
  pane : Nat
  aq : Nat
  first : Nat
  last : Nat
  st : Nat
  stLast : Nat
  count : Nat
  deriving DecidableEq, Repr

/-- Queue-manager state beside its registers. -/
structure Qm where
  recs : List Rec := []
  nextRec : Nat := 0
  items : List QItem := []
  nextItem : Nat := 0
  holdItems : List HeldItem := []
  queues : Tab QState := []
  asm : List Asm := []
  lost : List Lost := []
  evRec : Option EvRec := none
  seqs : Tab Nat := []
  shutEnd : Tab Nat := []
  shutOld : Tab (Option (Nat × List Word)) := []
  retExt : Nat := 0
  retFill : Nat := 0
  exhausted : Bool := false
  withheld : Nat := 0
  dropped : Nat := 0
  freed : Nat := 0
  replayCells : Tab Nat := []
  deriving DecidableEq, Repr

/-- A test-charge injection whose opposite edge is due (02_front_end.md R73, R74): the number of its command, that
command's first channel and count, this channel's first edge, the ST64 of the command's first edge, the instant of the
opposite edge, charge, sign and mode. -/
structure Inject where
  cmd : Nat
  first : Nat
  count : Nat
  edge : Nat
  edgeSt : Nat
  back : Nat
  qcode : Nat
  negative : Bool
  common : Bool
  deriving DecidableEq, Repr

/-- A span of raw time in which samples carry a flag (07_panes_and_triggers.md Table 07-1): flag bit, from, to (`none`
while it lasts). -/
structure Span where
  flag : Nat
  from_ : Nat
  to_ : Option Nat
  deriving DecidableEq, Repr

/-- A closed record of a channel as a later quality amendment names it (02_front_end.md R66): type, address, rate code, header
byte 21, flags, pane, first and last index, ST64 of both. -/
structure RecMark where
  rtype : Nat
  addr : Nat
  rate : Nat
  tqByte : Nat
  flags : Nat
  pane : Nat
  first : Nat
  last : Nat
  st : Nat
  stLast : Nat
  deriving DecidableEq, Repr

/-- One raw sample in the correction stage (04_decimation.md, Stages in order): the fine count of its strobe, its value before
stitching in units of 2^-29 of the unit of full scale (nV or fC), whether it is OVERLOAD. -/
structure Raw where
  hold : Nat
  value : Rat
  overload : Bool
  deriving DecidableEq, Repr

/-- Front-end and chain state of one analogue channel (02_front_end.md R47 to R75, 04_decimation.md): its last raw samples,
newest first; the last code as R69 scales it; earlier configuration words, ranges, trims and scale ranges with the strobes
that ended them; the scale range; the switch strobes of its ranges; time held below the threshold and below 7/8 of full scale
in an episode, both in clocks; the stitch accumulator, strobes that a reset follows, a reset that is due; its correction
outputs (comparator states in SWITCH mode) by strobe, newest first; end of the present clamp; proven-good point; loop
reference and readings; injection, and the last edge; spans of flags; closed records since the proven-good point; the span of
its history, whether its next sample is the first after an offset step, the served times of its breaks, where the present span
begins, the next index it keeps. -/
structure ChState where
  raws : List Raw := []
  last : Option Int := none
  words : List (Nat × Word) := []
  ranges : List (Nat × Nat) := []
  trims : List (Nat × Nat) := []
  scales : List (Nat × Nat) := []
  scale : Nat := 0
  switches : List Nat := []
  holdClocks : Nat := 0
  episode : Option Nat := none
  stitch : Int := 0
  resets : List Nat := []
  resetDue : Bool := false
  outs : List (Nat × Int) := []
  clampUntil : Nat := 0
  proven : Option Nat := none
  loopRef : Option Nat := none
  loopLast : Nat := 0
  capLast : Nat := 0
  inject : Option Inject := none
  edgeAt : Option Nat := none
  spans : List Span := []
  closed : List RecMark := []
  histGen : Nat := 0
  histStep : Bool := false
  breaks : List Nat := []
  histFrom : Nat := 0
  histNext : Nat := 0
  deriving DecidableEq, Repr

/-- An excitation period that has ended (02_front_end.md R53; 04_decimation.md R125): its start and end, the programmed amplitude
code, the amplitude measured in it in units of 40 µV, and the PHASE_TRIM that held in it (16_calibration.md R497). -/
structure ExcPeriod where
  from_ : Nat
  to_ : Nat
  amp : Nat
  meas : Nat
  trim : Nat := 0
  deriving DecidableEq, Repr

/-- State of one bay: an excitation word still in force until the present period ends, the start of that period, the periods that
have ended, newest first; the PHASE_TRIM and the detector gain of the present period; the instant SINE excitation began, the current learned in its first second; a scan setting awaiting
its strobe; earlier scan settings and whether it converted with the strobes that ended them, and whether it converts; earlier
window schedules with the instants from which their successors hold; the window in progress and the one before, with their
schedules. -/
structure BayState where
  excOld : Option Word := none
  perFrom : Option Nat := none
  periods : List ExcPeriod := []
  excTrim : Nat := 0
  excGain : Int := 0
  excOn : Option Nat := none
  excLevel : Option Nat := none
  scanNext : Option (Nat × Nat) := none
  scans : List (Nat × Nat) := []
  convs : List (Nat × Bool) := []
  conv : Bool := false
  burst : List (Nat × Word) := []
  window : Option (Nat × Word) := none
  past : Option (Nat × Word) := none
  deriving DecidableEq, Repr

/-- The rotation of a CONV run on one die (03_conversion.md Table 03-5; 16_calibration.md R488): the bay under takeover as a
number within the die, the step reached and its start, the converter's previous coefficients, what is still to calibrate (16
is the relief converter), and whether the relief converter must calibrate before its next takeover (R96). -/
structure Takeover where
  bay : Option Nat := none
  step : Nat := 0
  since : Nat := 0
  prev : List Byte := []
  left : List Nat := []
  reliefDue : Bool := false
  deriving DecidableEq, Repr

/-- An urgent transom request (03_conversion.md R103): entry word and who waits for it. -/
structure Urgent where
  entry : Word
  caller : Option Caller
  deriving DecidableEq, Repr

/-- What the transom converter is doing (03_conversion.md R100 to R107): the active table, the sequence entry in course, the
urgent request in course, the start of what is in course, the pending slot, the urgent queue; calibration, its last and the
FE0 temperature then; the last periodic trigger, in 2^-80 s; the sample clock in which a run ended with the slot full; the
sources that Porter's poll has still to ask for. -/
structure Transom where
  active : List Word := []
  running : Option Nat := none
  urgentNow : Option Urgent := none
  since : Nat := 0
  pendingSlot : Bool := false
  urgent : List Urgent := []
  calibrating : Bool := false
  lastCal : Option (Nat × Int) := none
  lastPeriodAt : Nat := 0
  fullAt : Option Nat := none
  poll : List Nat := []
  deriving DecidableEq, Repr

/-- What is left of a stream that has ended: the last index it still delivers, the chain word, mode and unit of its samples
(04_decimation.md R121, R131). -/
structure Tail where
  last : Nat
  cfg : Word
  mode : Nat
  unit : Nat × Nat
  deriving DecidableEq, Repr

/-- Dynamic state of one stream, channels 0 to 591 (04_decimation.md R122, R131, R132): whether it is in force (running, or
awaiting its first sample in a bay that converts); the instant its first sample's support must lie after, and the one that
sample itself must not precede; the next index, whether that follows an offset step, the next index of its branch while it
does not run; what is left of its last course; on channels 512 to 591, whether its start has been told. -/
structure StreamState where
  inForce : Bool := false
  waitFrom : Nat := 0
  notBefore : Nat := 0
  next : Nat := 0
  stepped : Bool := false
  fed : Nat := 0
  tail : Option Tail := none
  told : Bool := false
  deriving DecidableEq, Repr

/-- One detector (04_decimation.md R136 to R138): the value of its recursion in S32 LSB (squared for RMS), previous input,
DC-blocker value, input samples still to settle, its last inputs, and the values it has shown with the instants of their input
samples in 2^-80 s, newest first (none while it settles). -/
structure DetState where
  value : Rat := 0
  prev : Int := 0
  dc : Rat := 0
  settle : Nat := 0
  recent : List Int := []
  shown : List (Nat × Option Nat) := []
  deriving DecidableEq, Repr

/-- A pane tap of a bay (04_decimation.md R134): which of the two, rate code, grid, the instant it began, the engines that draw from
it, the channels whose next sample is the first after an offset step. -/
structure PaneTap where
  bay : Nat
  slot : Nat
  rate : Nat
  grid : Bool
  since : Nat
  engines : List Nat
  stepped : List Nat
  deriving DecidableEq, Repr

/-- Front-end, converter and chain state beside the registers: the multiple of TEST_TICK in ms last taken and the fine count of
its check, test injections commanded so far, the pane taps. -/
structure Acq where
  ch : Tab ChState := []
  bay : Tab BayState := []
  dies : Tab Takeover := []
  transom : Transom := {}
  stream : Tab StreamState := []
  det : Tab DetState := []
  lastTick : Nat := 0
  tickAt : Option Nat := none
  injects : Nat := 0
  taps : List PaneTap := []
  deriving DecidableEq, Repr

/-- A stamped PPS edge (05_time_base.md Table 05-5): fine count, its label once a message gives one, and whether acquisition
may still use it. -/
structure PpsEdge where
  fine : Nat
  label : Option Nat
  live : Bool
  deriving DecidableEq, Repr

/-- Grandmaster acquisition (05_time_base.md Table 05-5): the latest edges, newest first, whether the map has been anchored,
consecutive good edges since, whether the source reports degraded time. -/
structure GmState where
  edges : List PpsEdge := []
  anchored : Bool := false
  good : Nat := 0
  degraded : Bool := false
  deriving DecidableEq, Repr

/-- What a port's peer announces for one domain (05_time_base.md Table 05-3 bytes +18 to +27), and the boundary it last did at. -/
structure Offer where
  valid : Bool
  isYou : Bool
  legacy : Bool
  asymUnk : Bool
  state : Nat
  tq : Nat
  hops : Nat
  root : Nat
  taiUtc : Int
  at_ : Nat
  deriving DecidableEq, Repr

/-- Holdover of a domain (05_time_base.md R166): entry, b0 and the present bound in units of 10^-15 s. -/
structure Hold where
  since : Nat
  b0 : Nat
  bound : Nat
  deriving DecidableEq, Repr

/-- A map of a domain in force from a fine count onward (05_time_base.md R144; 06_interval_unit.md R191). -/
structure TMap where
  fromF : Nat
  offset : Nat
  incr : Nat
  deriving DecidableEq, Repr

/-- One time domain beside its registers (05_time_base.md R144 to R168): offset; the increments committed and not yet in force,
newest first, each with the instant of its commit; a step requested (in 2^-80 s, with its cause); acquisition from PPS, or from a link by its stage (first average, two for the slope, those within
5 ns), the second its upstream was chosen in, its averages since, newest first, in ps; holdover; a freeze after a path step,
until an instant or until two averages agree; the last average or edge error in ps; whether an offset is being removed by rate
after a return from holdover, and the increment at that return; the boundaries of the last valid cell, and of the last at which
another port qualified; TAI - UTC; the root head; a stepped port; the present map's start and the superseded maps; the duration of
10,000,000 periods of REFCLK_IN as learned in TRACK, in 2^-80 s times 8,192. -/
structure Dom where
  offset : Nat := 0
  pending : List (Nat × Nat) := []
  stepReq : Option (Int × Nat) := none
  gm : GmState := {}
  stage : Nat := 0
  agree : Nat := 0
  upSecond : Nat := 0
  avgs : List Int := []
  hold : Option Hold := none
  freeze : Option (Option Nat) := none
  lastError : Int := 0
  reacquire : Bool := false
  home : Nat := 0
  lastCell : Nat := 0
  lastOther : Nat := 0
  taiUtc : Option Int := none
  root : Nat := 0
  avoid : Option Nat := none
  mapFrom : Nat := 0
  old : List TMap := []
  refLearn : Option Nat := none
  deriving DecidableEq, Repr

/-- Exchanges of a second that paired, and the sums of their mean path delays and offsets in 2^-80 s (05_time_base.md R157). -/
structure ExSums where
  n : Nat := 0
  mean : Int := 0
  off : Int := 0
  deriving DecidableEq, Repr

/-- One port's time exchange (05_time_base.md R156, R157, R161): number of its latest transmitted time block, stamps of the
last of them, number and stamp of the latest received; the second it began in; the sums of the present second in each domain; the
reference delay in ps, and the first second whose average may be one; the last averages of both domains, newest first; what the
peer announces. -/
structure PortTime where
  txSeq : Nat := 0
  txStamps : List (Nat × Nat) := []
  rxSeq : Nat := 0
  rxStamp : Option Nat := none
  began : Option Nat := none
  sumsA : ExSums := {}
  sumsB : ExSums := {}
  ref : Option Int := none
  refFrom : Nat := 0
  last : List (Int × Int) := []
  offerA : Option Offer := none
  offerB : Option Offer := none
  deriving DecidableEq, Repr

/-- A timed-action entry beside its registers (05_time_base.md R169, R172, R176): full time in 2^-40 s, whether its last arming
ended in a launch, whether a forward step has passed its time. -/
structure ActState where
  time : Nat := 0
  launched : Bool := false
  late : Bool := false
  deriving DecidableEq, Repr

/-- Time-base state beside its registers: both domains, the served one and the residual D; whether any domain has been served
at TQ2 or better; ports and timed actions; the last boundary and crystal second taken; earlier served domains and residuals
with the fine counts they began at; seconds the crystal model has learned for, and the cavity temperatures it saw; the fine counts of 10,000,000 periods of REFCLK_IN in
the last second. -/
structure Tb where
  a : Dom := {}
  b : Dom := {}
  served : Nat := 0
  d : Int := 0
  everServed : Bool := false
  port : Tab PortTime := []
  acts : Tab ActState := []
  lastBoundary : Nat := 0
  lastSecond : Nat := 0
  servedFrom : Nat := 0
  oldServed : List (Nat × Nat × Int) := []
  learned : Nat := 0
  temps : Option (Int × Int) := none
  refSpan : Option Nat := none
  deriving DecidableEq, Repr

/-- A stamp (06_interval_unit.md R180, R191, R200): fine count, served time in 2^-80 s, and tag. -/
structure Stamp where
  fine : Nat
  time : Nat
  src : Nat
  falling : Bool
  missBefore : Bool
  lost : Bool
  moved : Bool
  core : Nat
  deriving DecidableEq, Repr

/-- A vernier core beside its registers (06_interval_unit.md R181 to R190): its FIFO, the last accepted edge and source, those of time
blocks still to go out, marks for the next stamp, stamps not yet counted in units of 65,536, when the FIFO was last popped, in 1/25
fine count, and the loss of lock after which it has not yet calibrated. -/
structure CoreState where
  fifo : List Stamp := []
  lastEdge : Option (Nat × Nat) := none
  ahead : List (Nat × Nat) := []
  missNext : Bool := false
  lostNext : Bool := false
  taken : Nat := 0
  popAt : Nat := 0
  lostAt : Option Nat := none
  deriving DecidableEq, Repr

/-- One channel of a frequency gate (06_interval_unit.md R192): its source, edges counted, fine counts stamped, marks, and the
cause its loop check gave. -/
structure GateCh where
  ch : Nat
  src : Nat
  edges : Nat
  stamps : List Nat
  lost : Bool
  missed : Bool
  few : Bool
  wire : Nat
  deriving DecidableEq, Repr

/-- A frequency measurement on a bay (06_interval_unit.md R193 to R199). -/
structure Gate where
  bay : Nat
  chans : List GateCh
  drive : Bool
  record : Bool
  falling : Bool
  gateMs : Nat
  fLo : Nat
  fHi : Nat
  caller : Caller
  driveEnd : Nat
  openAt : Option Nat
  pausedAt : Option Nat
  paused : Nat
  everPaused : Bool
  deriving DecidableEq, Repr

/-- Interval-unit state beside its registers. -/
structure Tiu where
  cores : Tab CoreState := []
  host : List Stamp := []
  gates : List Gate := []
  deriving DecidableEq, Repr

/-- A pane (07_panes_and_triggers.md R220 to R225): its engine, whether it is OPEN, the time a HELD pane waits for, trigger
sample and window, opening order; the next index due of each channel; the samples
(index, instant, value) that PER_PANE measurements need with the union of their flags, and the measurement words it began
under. -/
structure Pane where
  id : Nat
  engine : Nat
  opened : Bool
  heldTime : Option Nat
  trig : Nat
  nt : Nat
  first : Nat
  last : Nat
  truncated : Bool
  extCount : Nat
  order : Nat
  next : Tab Nat
  data : Tab (List (Nat × Nat × Int))
  flagsOr : Nat
  meas : Tab Word
  deriving DecidableEq, Repr

/-- A pane engine beside its registers: panes, last count, the IDs it has issued, the trigger samples judged in the present
core-logic clock, and the slots freed in one clock with that clock (07_panes_and_triggers.md R221, R222, R231, R232). -/
structure EngState where
  panes : List Pane := []
  nextCount : Nat := 0
  issued : List Nat := []
  judged : List (Nat × Nat) := []
  freed : Nat × Nat := (0, 0)
  deriving DecidableEq, Repr

/-- A trigger unit beside its registers (07_panes_and_triggers.md R227, R228, R234): its latest values with their instants,
when it last announced, the source it claims, the last multiple of PARAM it fired at. -/
structure UnitState where
  recent : List (Int × Nat) := []
  annAt : Option Nat := none
  src : Option Nat := none
  lastTime : Nat := 0
  deriving DecidableEq, Repr

/-- One sample kept in a pre-trigger ring of tap 0 or 1, or in history (tap 2): channel, index, instant in 2^-80 s, value in
internal units, sample flags, header byte 21, the span of history it belongs to, the mode and unit of its channel then, and
whether it is the first after an offset step. -/
structure Kept where
  ch : Nat
  tap : Nat
  idx : Nat
  t : Nat
  v : Int
  flags : Nat
  tqByte : Nat
  gen : Nat
  mode : Nat
  unit : Nat × Nat
  step : Bool
  deriving DecidableEq, Repr

/-- The records an extract has formed, its first and last sample's ST64 and its report's flags, until they are queued
(07_panes_and_triggers.md R243). -/
structure Extracted where
  recs : List Nat
  first : Nat
  last : Nat
  flags : Nat
  deriving DecidableEq, Repr

/-- A history extract waiting to be served, or for its records to be queued (07_panes_and_triggers.md R243). -/
structure Extract where
  first : Nat
  count : Nat
  startSt : Nat
  endSt : Nat
  cmp : Bool
  caller : Caller
  out : Option Extracted
  deriving DecidableEq, Repr

/-- An announcement received (07_panes_and_triggers.md R235). -/
structure Announce where
  origin : Nat
  group : Nat
  time : Nat
  pane : Nat
  at_ : Nat
  deriving DecidableEq, Repr

/-- Capture state beside its registers: trigger units and engines; history, rings and extracts; announcements heard; the
second of a re-partition and the depth of history in force, in 2^-80 s (07_panes_and_triggers.md R214, R215). -/
structure Cap where
  units : Tab UnitState := []
  engines : Tab EngState := []
  history : List Kept := []
  rings : List Kept := []
  extracts : List Extract := []
  seen : List Announce := []
  repartAt : Option Nat := none
  depth : Nat := 0
  deriving DecidableEq, Repr

/-- A transaction of a field port (08_field_ports_and_outputs.md R247 to R250): when it began and ends, the words of its port then, and
the bytes it sends. -/
structure Xfer where
  from_ : Nat
  to_ : Nat
  cfg : Word
  timing : Word
  out : List Byte
  deriving DecidableEq, Repr

/-- A field port beside its registers (08_field_ports_and_outputs.md R250, R251, R253): its latest transaction, and whether that one's
frame has been taken, the last poll instant taken, the instant from which its frames begin, and the stamps of its frame-start source
by fine count and served time, newest first. -/
structure FPort where
  xfer : Option Xfer := none
  taken : Bool := false
  lastPoll : Nat := 0
  from_ : Nat := 0
  stamps : List (Nat × Nat) := []
  deriving DecidableEq, Repr

/-- What a field decoder keeps beside its registers (08_field_ports_and_outputs.md R256): its previous value, ready, condition. -/
structure DecCond where
  prev : Option Int := none
  ready : Bool := false
  cond : Bool := false
  deriving DecidableEq, Repr

/-- A field decoder beside its registers: the same under its present configuration, and, with the core-logic clock of the latest change
of that, its words and what it kept at the start of that clock (08_field_ports_and_outputs.md R257). -/
structure DecState where
  cur : DecCond := {}
  old : Option (Nat × List Word × DecCond) := none
  deriving DecidableEq, Repr

/-- A trip output beside its registers (08_field_ports_and_outputs.md R262, R265): its condition is healthy, STALE has passed,
end of MIN_ON, instant of its latest value, a reset that awaits the end of MIN_ON, the core-logic clock of a reset that found its
condition not healthy. -/
structure TripState where
  condOk : Bool := false
  stale : Bool := false
  minOnEnd : Nat := 0
  since : Nat := 0
  resetPending : Bool := false
  resetIn : Option Nat := none
  deriving DecidableEq, Repr

/-- A frequency output beside its registers (08_field_ports_and_outputs.md R267): the last value it received, the increment of its phase
accumulator and its high time (in 2^-32 periods) in the present period, its phase and the fine count at which it had that phase. -/
structure Fout where
  latest : Option Int := none
  incr : Nat := 0
  duty : Nat := 0
  phase : Nat := 0
  at_ : Nat := 0
  deriving DecidableEq, Repr

/-- Field-block state beside its registers. -/
structure FldS where
  ports : Tab FPort := []
  decs : Tab DecState := []
  trips : Tab TripState := []
  fouts : Tab Fout := []
  deriving DecidableEq, Repr

/-- A compression job slot (10_compression.md R316): open, width, elements pending in the current block, the last two
elements before them, bytes written, and what is left of the chain its last job wrote to. -/
structure CSlot where
  opened : Bool := false
  width : Nat := 0
  pending : List Nat := []
  prev1 : Nat := 0
  prev2 : Nat := 0
  out : Nat := 0
  rest : List (Nat × Nat) := []
  deriving DecidableEq, Repr

/-- A compression job in progress (10_compression.md R317, R318); `opens` says that it opened its slot. -/
structure CJob where
  op : Nat
  slot : Nat
  finish : Bool
  flush : Bool
  width : Nat
  src : Nat
  len : Nat
  bufs : List (Nat × Nat)
  opens : Bool
  caller : Caller
  deriving DecidableEq, Repr

/-- A drain flush that waits for records (10_compression.md R322). -/
structure Drain where
  recs : List Nat
  blocks : Nat
  caller : Caller
  deriving DecidableEq, Repr

/-- Compression state beside its registers: records compressed and not yet counted in RECORDS, slots, jobs, flushes that
wait, bytes in and out in the present second, and bytes not yet counted in units of 256 (17_counters_and_test.md Table
17-1). -/
structure Cmp where
  count : Nat := 0
  slots : Tab CSlot := []
  jobs : List CJob := []
  drains : List Drain := []
  bytesIn : Nat := 0
  bytesOut : Nat := 0
  inRem : Nat := 0
  outRem : Nat := 0
  deriving DecidableEq, Repr

/-- A cell in the replay buffer (11_serial_lanes_and_syrilink.md R345): number, class, the held record or the queue entry it
belongs to with LAST, STOMP, its header and the payload bytes used, and when its END was sent. -/
structure Sent where
  seq : Nat
  cls : Nat
  rid : Option Nat
  item : Option Nat
  lastCell : Bool
  stomp : Bool
  bytes : List Byte
  at_ : Nat
  deriving DecidableEq, Repr

/-- A cell that has begun to arrive (11_serial_lanes_and_syrilink.md R328): the class of its START, the bytes so far, and whether it is
already to be discarded. -/
structure RxCell where
  cls : Nat
  data : List Byte
  bad : Bool
  deriving DecidableEq, Repr

/-- Training progress (11_serial_lanes_and_syrilink.md Table 11-4). -/
inductive Train where
  | idle
  | ident
  | agreed
  | paused
  deriving DecidableEq, Repr

/-- A count for each traffic class C, T, S, B. -/
structure Four where
  c : Nat := 0
  t : Nat := 0
  s : Nat := 0
  b : Nat := 0
  deriving DecidableEq, Repr

/-- A port beside its registers (11_serial_lanes_and_syrilink.md R326 to R347): training, its kind and start, what the peer
announced, good lanes; numbers sent and expected, replay buffer and how far a replay has come; cumulative credits granted by
the peer and cells sent, credits given and cells received, by class; when LINK last went out and what is due; violations in
the last second; the size of the replay buffer in force. On the wire: the cells arriving, the innermost first, and the ports on which
the class C packet arriving is forwarded; the blocks (sync header, payload) that go out in the rotation, from place `wireAt` of it,
the place from which the last cell of them may be suspended, when the rotation over the present lanes began, and the blocks (lane index,
payload) sent last outside it. -/
structure PortSt where
  train : Train := .idle
  trainAt : Nat := 0
  planned : Bool := false
  peer : Option Ident := none
  goodMask : Nat := 0
  txSeq : Nat := 0
  rxNext : Nat := 0
  replay : List Sent := []
  replayFrom : Option Nat := none
  replaysInRow : Nat := 0
  ackAt : Nat := 0
  granted : Four := {}
  sent : Four := {}
  given : Four := {}
  got : Four := {}
  linkAt : Nat := 0
  linkDue : Bool := false
  sRun : Nat := 0
  creditViol : List Nat := []
  ackViol : List Nat := []
  discardUntil : Option Nat := none
  replaySize : Nat := 0
  nakDue : Bool := false
  rx : List RxCell := []
  cutTo : List Nat := []
  wire : List (Nat × Nat) := []
  wireAt : Nat := 0
  suspendAt : Option Nat := none
  stripeAt : Nat := 0
  aside : List (Nat × Nat) := []
  deriving DecidableEq, Repr

/-- A lane beside its registers: the start of its idle run in each direction with the LINK and TIME blocks in it, REFRESH blocks sent in
it and before it; pattern generator and checker (pattern, USER pattern, bits generated, the checker's last 64 bits and errors, newest
first, its error-free bits), loopback, instant it was lost; invalid sync headers not yet counted in units of 256; lane index and port
of its ALIGN blocks at training and last, the instant of its last valid and its last faulty ALIGN, BIP-8 errors in consecutive marker
periods; and the fine counts by which it arrives behind the earliest lane of its port. -/
structure LaneSt where
  idleFrom : Nat := 0
  idleOther : Nat := 0
  txIdleFrom : Nat := 0
  txIdleOther : Nat := 0
  refreshes : Nat := 0
  refreshed : Nat := 0
  genAt : Nat := 0
  window : List Bool := []
  wrong : List Bool := []
  clean : Nat := 0
  found : Nat × Nat := (0, 0)
  seen : Nat × Nat := (0, 0)
  alignAt : Nat := 0
  faultAt : Nat := 0
  bipRun : Nat := 0
  gen : Bool := false
  chk : Bool := false
  locked : Bool := false
  pattern : Nat := 0
  user : Nat := 0
  bits : Nat := 0
  errors : Nat := 0
  lockLosses : Nat := 0
  loopback : Nat := 0
  lostAt : Nat := 0
  syncRem : Nat := 0
  skew : Nat := 0
  deriving DecidableEq, Repr

/-- A stored link state with the instant of its last refresh. -/
structure LsEntry where
  ls : LinkState
  at_ : Nat
  deriving DecidableEq, Repr

/-- A peephole scan in progress (11_serial_lanes_and_syrilink.md R356). -/
structure EyeScan where
  port : Nat
  lane : Nat
  d : Nat
  phase0 : Nat
  phases : Nat
  phaseStep : Nat
  thr0 : Nat
  thrs : Nat
  thrStep : Nat
  since : Nat
  caller : Caller
  deriving DecidableEq, Repr

/-- The module of a port (11_serial_lanes_and_syrilink.md R359): its last answer, when it was read, and whether its transmitters are
disabled. -/
structure Module where
  read : Option ModuleRead := none
  at_ : Option Nat := none
  txOff : Bool := false
  deriving DecidableEq, Repr

/-- Link state beside its registers. -/
structure Lnk where
  modules : Tab Module := []
  ports : Tab PortSt := []
  lanes : Tab LaneSt := []
  table : List LsEntry := []
  lastHead : Option Nat := none
  scans : List EyeScan := []
  refreshedAt : Nat := 0
  deriving DecidableEq, Repr

/-- A seen-cache entry (12_command_packets.md R372). -/
structure Seen where
  source : Nat
  slot : Nat
  counter : Nat
  opcode : Nat
  tag : Nat
  at_ : Nat
  deriving DecidableEq, Repr

/-- A reply-cache entry (12_command_packets.md R386): key and the last reply sent, as parameters with its REPORT mark. -/
structure Cached where
  source : Nat
  slot : Nat
  tag : Nat
  opcode : Nat
  paramCrc : Nat
  reply : List Byte
  report : Bool
  counter : Nat
  at_ : Nat
  deriving DecidableEq, Repr

/-- A long operation running (12_command_packets.md R389). -/
structure LongOp where
  caller : Caller
  deriving DecidableEq, Repr

/-- A packet this hub originated and awaits a reply to (12_command_packets.md R544). -/
structure Awaited where
  opcode : Nat
  tag : Nat
  slot : Nat
  counter : Nat
  sentAt : Nat
  purpose : Nat
  deriving DecidableEq, Repr

/-- A read or write shadow of one path (12_command_packets.md R397, R398): the register's low-word address and the word
held. -/
structure Shadow where
  read : Option (Nat × Word) := none
  write : Option (Nat × Word) := none
  deriving DecidableEq, Repr

/-- Command-engine state beside its registers. `inflight` is what waits in Q56 or with Porter for
its reply, with the instant it was taken. -/
structure Cmd where
  seen : List Seen := []
  cache : List Cached := []
  ops : List LongOp := []
  awaited : List Awaited := []
  originTag : Nat := 0
  shadowPorter : Shadow := {}
  shadowCommand : Shadow := {}
  shadowSpi : Shadow := {}
  spiOut : List Byte := []
  resetArmed : Option (Nat × Nat) := none
  inflight : List (Caller × Nat) := []
  authReplies : Nat × Nat := (0, 0)
  deriving DecidableEq, Repr

/-- A ledger entry (13_head_redundancy.md Table 13-9 type 1): the RELEASE entry and the ST64 of its arrival. -/
structure Ledger where
  seq : Nat
  entry : List Byte
  st : Nat
  deriving DecidableEq, Repr

/-- A journal entry (13_head_redundancy.md Table 13-9 type 2). -/
structure Journal where
  seq : Nat
  source : Nat
  dest : Nat
  opcode : Nat
  tag : Nat
  slot : Nat
  status : Nat
  counter : Nat
  st : Nat
  deriving DecidableEq, Repr

/-- A drill in progress (13_head_redundancy.md Table 13-10). -/
structure Drill where
  kind : Nat
  caller : Caller
  startAt : Nat
  committedAt : Option Nat
  witnessOk : Bool
  answered : Bool
  fault : Nat
  asked : Nat
  deriving DecidableEq, Repr

/-- One heartbeat path as a head sees it (13_head_redundancy.md R416). -/
structure PathSt where
  up : Bool := false
  txSeq : Nat := 0
  rxSeq : Nat := 0
  lastRx : Option Nat := none
  run : Nat := 0
  deriving DecidableEq, Repr

/-- A witness entry beside its registers (13_head_redundancy.md R418, R420): the end of the lease of its holder, which stays the holder
when its lease has run out; quiet end, highest epoch presented in the quiet period with its sender. -/
structure WitSt where
  lease : Option Nat := none
  quiet : Option Nat := none
  best : Option (Nat × Nat) := none
  deriving DecidableEq, Repr

/-- Redundancy state beside its registers. -/
structure Red where
  direct : PathSt := {}
  ring : PathSt := {}
  partner : Option Heartbeat := none
  noHoldSince : Nat := 0
  resync : Bool := false
  handover : Bool := false
  stateSince : Nat := 0
  renewSentAt : Nat := 0
  renewOut : Option Nat := none
  confirmedAt : Nat := 0
  requestSentAt : Nat := 0
  requestOut : Bool := false
  asking : Bool := false
  hbSentAt : Nat := 0
  partnerResync : Bool := false
  stateSentAt : Nat := 0
  digestSecond : Nat := 0
  replayAt : Nat := 0
  witNow : Nat := 0
  ledger : List Ledger := []
  journal : List Journal := []
  stateItems : List (Nat × List Word) := []
  nextMirror : Nat := 0
  acked : Nat := 0
  ackedAt : Nat := 0
  unacked : List (Nat × Nat × List Byte) := []
  mirror : List (Nat × Nat × List Byte) := []
  mirrorNext : Nat := 0
  digestWait : Option (DigestCell × Nat) := none
  replayLeft : Option (List Ledger) := none
  replayOldest : Nat := 0
  replaySent : Nat := 0
  drill : Option Drill := none
  wit : Tab WitSt := []
  bbOthers : List (Nat × BBEntry) := []
  fenceCells : Nat := 0
  deriving DecidableEq, Repr

/-- A damaged word (14_memory_and_ecc.md R444, R454): memory, word offset, kind (0 correctable, 1 uncorrectable,
2 poison), the clock that injected it, and the clock whose whole-word write mends it: reads of that clock still meet it (R447). -/
structure Damage where
  mem : Nat
  offset : Nat
  kind : Nat
  injected : Option Nat := none
  mended : Option Nat := none
  deriving DecidableEq, Repr

/-- A scrub in progress (14_memory_and_ecc.md R451, R452). -/
structure Scrub where
  mem : Nat
  correct : Bool
  start : Nat
  stop : Nat
  rate : Nat
  since : Nat
  caller : Caller
  deriving DecidableEq, Repr

/-- Memory state beside its registers. -/
structure MemS where
  damage : List Damage := []
  scrub : Option Scrub := none
  refresh : Nat := 0
  deriving DecidableEq, Repr

/-- A calibration run in progress (16_calibration.md R493, R494, R496, R500): group, start, temperature, not to be stored, the
worst outcome so far, the values in force before it, and the excitation periods that the detector of each bay has spent on its reference
(R490). -/
structure CalRun where
  g : Nat
  since : Nat
  temp : Int
  noStore : Bool
  worst : Nat
  before : CalRec
  refs : Tab Nat := []
  deriving DecidableEq, Repr

/-- A CAL_RUN long operation: its groups still to run, and (group, outcome, quality) of those done. -/
structure CalOp where
  caller : Caller
  left : List Nat
  done : List (Nat × Nat × Nat)
  noStore : Bool
  deriving DecidableEq, Repr

/-- Calibration state beside its registers: groups queued and running; values in force; retries due with how many have been
made in succession (R493); the last run and the last committed run of a group with its temperature; CAL_RUN operations; the
last eight accepted values of each vernier element (06_interval_unit.md R181), by core × 256 + element. -/
structure Cal where
  queued : List Nat := []
  running : List CalRun := []
  values : Tab CalRec := []
  retryAt : Tab (Nat × Nat) := []
  lastRun : Tab Nat := []
  lastCommit : Tab (Nat × Int) := []
  ops : List CalOp := []
  tables : Tab (List Int) := []
  deriving DecidableEq, Repr

/-- Counter state beside its registers: PMC_CYCLE; the clock of the latest PMC_CONFIG with the words and ENABLE from before it, and the clock
of the latest wrap with OVF from before it (17_counters_and_test.md R508); the ST64 the next dump's interval starts at, dumps skipped since the
last one, and the served time of the next dump in 2^-40 s (17_counters_and_test.md R505, R509, R510). -/
structure Pmc where
  cycle : Nat := 0
  was : Option (Nat × List Word × Bool) := none
  ovfWas : Nat × Nat := (0, 0)
  intervalStart : Nat := 0
  skippedSince : Nat := 0
  nextDump : Nat := 0
  deriving DecidableEq, Repr

/-- A count or bit that hardware has set in one clock (00_scope.md R9): the core-logic clock, the register and its field, and
how many, or which bits. -/
structure Fresh where
  clock : Nat
  addr : Nat
  lo : Nat
  n : Nat
  deriving DecidableEq, Repr

/-- The hub. `now` is the fine count since the last hub reset (05_time_base.md R145); `pending` holds the commands that
wait, first in, first out; `fresh` what hardware set in the present core-logic clock; `free` is the model's own counter behind free values (log entry 5), not the manual's. -/
structure State where
  now : Nat
  pending : List Instr
  regs : Tab Word
  fresh : List Fresh
  nvm : Nvm
  bufs : Bufs
  sys : Sys
  qm : Qm
  acq : Acq
  tb : Tb
  tiu : Tiu
  cap : Cap
  fblk : FldS
  cmp : Cmp
  lnk : Lnk
  cmd : Cmd
  red : Red
  mem : MemS
  cal : Cal
  pmcBlk : Pmc
  free : Nat
  deriving DecidableEq, Repr

/-- Reasons a step could stop with a fault. The hub has no fault of its own: errors are statuses, events and flags
(NOTES.md, Stops). -/
inductive Fault where
  /-- Raised by no meaning; kept so that the type has a name to print. Safe. -/
  | none_
  deriving DecidableEq, Repr

/-- Reasons a step could answer without a meaning. -/
inductive Refusal where
  /-- Raised by exec's arm of a row that has no meaning in this model. Safe: nothing is claimed of it. -/
  | notModelled (mnemonic : String)
  deriving DecidableEq, Repr

/-- The hub right after its first hub reset: every register at its reset value (R5), every buffer, queue and table empty,
NVM as log entry 3 names it, boot waiting for the memories to be filled (15_porter_management.md Table 15-3). -/
def State.reset : State :=
  { now := 0, pending := [], regs := [(0x00140, 0x3811#32), (0xF0000, 0x00100000#32), (0xF0004, 0x0A0A003C#32)], fresh := [], nvm := {}, bufs := {}, sys := {}, qm := {}, acq := {}, tb := {}, tiu := {},
    cap := {}, fblk := {}, cmp := {}, lnk := {}, cmd := {}, red := {}, mem := {}, cal := {}, pmcBlk := {}, free := 0 }

end Sys2Proof.Machine
end

