-- ==== Sys2Proof/Machine/Ops.lean ====
section
/-!
DEFINITION. The named operations over registers: a register word, a field, a saturating count, and what an unlisted
register reads (00_scope.md R4, R5).
-/

namespace Sys2Proof.Machine

open Reg Bits

/-- The instance and word of a register description that address `a` falls in, none where it falls in none. -/
def RegDesc.locate (d : RegDesc) (a : Nat) : Option (Nat × Nat) :=
  if a < d.base then none
  else if d.step = 0 then if a - d.base < 4 * d.words then some (0, (a - d.base) / 4) else none
  else
    if (a - d.base) / d.step < d.count ∧ (a - d.base) % d.step < 4 * d.words then
      some ((a - d.base) / d.step, (a - d.base) % d.step / 4)
    else none

/-- The register description, instance and word at address `a`. -/
def findReg (a : Nat) : Option (RegDesc × Nat × Nat) :=
  (blockRegs (a / 0x10000)).findSome? fun d => (d.locate a).map fun p => (d, p.1, p.2)

/-- LIMIT and RESERVE of queue `q` after reset (09_queues_and_retention.md Table 09-2). -/
def queueReset (q : Nat) : Nat × Nat :=
  if q < 32 then match q % 4 with
    | 0 | 1 => (256, 16)
    | 2 => (65535, 0)
    | _ => (16384, 0)
  else if q < 49 then (2048, 64)
  else match q with
    | 49 => (8192, 1024)
    | 50 | 51 => (1024, 64)
    | 52 | 53 => (4096, 128)
    | 54 => (4096, 0)
    | 55 => (256, 16)
    | 56 | 57 => (512, 64)
    | 58 => (512, 16)
    | 59 | 60 | 61 => (256, 32)
    | _ => (1024, 0)

/-- The 64-bit image of a register's fields at reset (R5). -/
def RegDesc.resetImage (d : RegDesc) : Nat := d.fields.foldl (fun n f => n + f.reset * 2 ^ f.lo) 0

/-- What the register word at address `a` reads after reset (R5; R13 where there is no register; the limits of
Table 09-2 for QM_Q_CFG). -/
def resetWord (a : Nat) : Word :=
  match findReg a with
  | none => 0#32
  | some (d, i, w) =>
    if d.base = 0x80000 then word ((queueReset i).1 * 0x10000 + (queueReset i).2)
    else word (d.resetImage / 2 ^ (32 * w))

/-- The stored word at address `a`. -/
def State.rd (s : State) (a : Nat) : Word := Tab.get (resetWord a) s.regs a

/-- The state with word `w` stored at address `a`. -/
def State.wr (s : State) (a : Nat) (w : Word) : State := { s with regs := Tab.set (resetWord a) s.regs a w }

/-- The stored 64-bit register at address `a` (12_command_packets.md R397). -/
def State.rd64 (s : State) (a : Nat) : Nat := (s.rd a).toNat + 2 ^ 32 * (s.rd (a + 4)).toNat

/-- The state with a 64-bit register stored at address `a`. -/
def State.wr64 (s : State) (a : Nat) (v : Nat) : State := (s.wr a (word v)).wr (a + 4) (word (v / 2 ^ 32))

/-- A word with field `f` holding `v`. -/
def setBits (w : Word) (f : Fld) (v : Nat) : Word :=
  let o := w.toNat
  word (o - bits o f.lo f.width * 2 ^ f.lo + v % 2 ^ f.width * 2 ^ f.lo)

/-- The value of field `f` of the register at address `a`. (DESIGN CHOICE, log entry 7). -/
def State.fld (s : State) (a : Nat) (f : Fld) : Nat :=
  if f.lo + f.width ≤ 32 then bits (s.rd a).toNat f.lo f.width else bits (s.rd64 a) f.lo f.width

/-- The state with field `f` of the register at address `a` holding `v`. (DESIGN CHOICE, log entry 7). -/
def State.setFld (s : State) (a : Nat) (f : Fld) (v : Nat) : State :=
  if f.lo + f.width ≤ 32 then s.wr a (setBits (s.rd a) f v)
  else
    let o := s.rd64 a
    s.wr64 a (o - bits o f.lo f.width * 2 ^ f.lo + v % 2 ^ f.width * 2 ^ f.lo)

/-- Is the one-bit field set? -/
def State.on (s : State) (a : Nat) (f : Fld) : Bool := s.fld a f == 1

/-- Field `f` of a word. -/
def wfld (w : Word) (f : Fld) : Nat := bits w.toNat f.lo f.width

/-- Fine counts in one clock of the core logic (17_counters_and_test.md R505). -/
def coreClk : Nat := 1024

/-- The number of the present core-logic clock. -/
def State.clock (s : State) : Nat := s.now / coreClk

/-- Hardware sets `n` (a count, or bits) in a field in the present clock (00_scope.md R9). (DEDUCED, log entry 71). -/
def State.mark (s : State) (a lo n : Nat) : State :=
  { s with fresh := (s.fresh.filter fun e => e.clock == s.clock) ++ [⟨s.clock, a, lo, n⟩] }

/-- What hardware has counted in a field in the present clock (R9). (DEDUCED, log entry 71). -/
def State.freshCount (s : State) (a : Nat) (f : Fld) : Nat :=
  (s.fresh.filter fun e => e.clock == s.clock && e.addr == a && e.lo == f.lo).foldl (fun n e => n + e.n) 0

/-- The bits that hardware has set in a field in the present clock (R9). (DEDUCED, log entry 71). -/
def State.freshBits (s : State) (a : Nat) (f : Fld) : Nat :=
  (s.fresh.filter fun e => e.clock == s.clock && e.addr == a && e.lo == f.lo).foldl (fun n e => n ||| e.n) 0

/-- Count `n` more in a field that saturates. -/
def State.bumpBy (s : State) (a : Nat) (f : Fld) (n : Nat) : State :=
  (s.setFld a f (min (s.fld a f + n) (2 ^ f.width - 1))).mark a f.lo n

/-- Count one more in a field that saturates. -/
def State.bump (s : State) (a : Nat) (f : Fld) : State := s.bumpBy a f 1

/-- Set bit `i` of a field that software clears. -/
def State.setBit (s : State) (a : Nat) (f : Fld) (i : Nat) : State := (s.setFld a f (s.fld a f ||| 2 ^ i)).mark a f.lo (2 ^ i)

/-- An RC count as a read takes it: its value before the present clock, and the state in which the present clock's events remain
(R9). (DEDUCED, log entry 71). -/
def State.takeRc (s : State) (a : Nat) (f : Fld) : Nat × State :=
  let n := min (s.freshCount a f) (s.fld a f)
  (s.fld a f - n, s.setFld a f n)

/-- The counts of a queue that are in no register, underruns (0) and rewinds (1), in the record of what a clock has set. -/
def queueCount (q k : Nat) : Nat := 2 ^ 32 + 2 * q + k

/-- The entry of a table whose unlisted keys read `d`, changed. -/
def Tab.upd {α : Type} [DecidableEq α] (d : α) (t : Tab α) (k : Nat) (f : α → α) : Tab α := Tab.set d t k (f (Tab.get d t k))

/-- Change one sub-state. -/
def State.onSys (s : State) (f : Sys → Sys) : State := { s with sys := f s.sys }
def State.onQm (s : State) (f : Qm → Qm) : State := { s with qm := f s.qm }
def State.onAcq (s : State) (f : Acq → Acq) : State := { s with acq := f s.acq }
def State.onTb (s : State) (f : Tb → Tb) : State := { s with tb := f s.tb }
def State.onTiu (s : State) (f : Tiu → Tiu) : State := { s with tiu := f s.tiu }
def State.onCap (s : State) (f : Cap → Cap) : State := { s with cap := f s.cap }
def State.onFld (s : State) (f : FldS → FldS) : State := { s with fblk := f s.fblk }
def State.onCmp (s : State) (f : Cmp → Cmp) : State := { s with cmp := f s.cmp }
def State.onLnk (s : State) (f : Lnk → Lnk) : State := { s with lnk := f s.lnk }
def State.onCmd (s : State) (f : Cmd → Cmd) : State := { s with cmd := f s.cmd }
def State.onRed (s : State) (f : Red → Red) : State := { s with red := f s.red }
def State.onMem (s : State) (f : MemS → MemS) : State := { s with mem := f s.mem }
def State.onCal (s : State) (f : Cal → Cal) : State := { s with cal := f s.cal }
def State.onPmc (s : State) (f : Pmc → Pmc) : State := { s with pmcBlk := f s.pmcBlk }
def State.onNvm (s : State) (f : Nvm → Nvm) : State := { s with nvm := f s.nvm }

/-- The per-channel, per-bay and other table entries. -/
def State.ch (s : State) (c : Nat) : ChState := Tab.get {} s.acq.ch c
def State.onCh (s : State) (c : Nat) (f : ChState → ChState) : State := s.onAcq fun a => { a with ch := Tab.upd {} a.ch c f }
def State.bayOf (s : State) (b : Nat) : BayState := Tab.get {} s.acq.bay b
def State.onBay (s : State) (b : Nat) (f : BayState → BayState) : State :=
  s.onAcq fun a => { a with bay := Tab.upd {} a.bay b f }
def State.takeover (s : State) (k : Nat) : Takeover := Tab.get {} s.acq.dies k
def State.onTakeover (s : State) (k : Nat) (f : Takeover → Takeover) : State :=
  s.onAcq fun a => { a with dies := Tab.upd {} a.dies k f }
def State.onTransom (s : State) (f : Transom → Transom) : State := s.onAcq fun a => { a with transom := f a.transom }
def State.strm (s : State) (c : Nat) : StreamState := Tab.get {} s.acq.stream c
def State.onStrm (s : State) (c : Nat) (f : StreamState → StreamState) : State :=
  s.onAcq fun a => { a with stream := Tab.upd {} a.stream c f }
def State.det (s : State) (c : Nat) : DetState := Tab.get {} s.acq.det c
def State.onDet (s : State) (c : Nat) (f : DetState → DetState) : State :=
  s.onAcq fun a => { a with det := Tab.upd {} a.det c f }
def State.dom (s : State) (d : Nat) : Dom := if d = 0 then s.tb.a else s.tb.b
def State.onDom (s : State) (d : Nat) (f : Dom → Dom) : State :=
  s.onTb fun t => if d = 0 then { t with a := f t.a } else { t with b := f t.b }
def State.ptime (s : State) (p : Nat) : PortTime := Tab.get {} s.tb.port p
def State.onPtime (s : State) (p : Nat) (f : PortTime → PortTime) : State :=
  s.onTb fun t => { t with port := Tab.upd {} t.port p f }
def State.act (s : State) (i : Nat) : ActState := Tab.get {} s.tb.acts i
def State.onAct (s : State) (i : Nat) (f : ActState → ActState) : State :=
  s.onTb fun t => { t with acts := Tab.upd {} t.acts i f }
def State.core (s : State) (v : Nat) : CoreState := Tab.get {} s.tiu.cores v
def State.onCore (s : State) (v : Nat) (f : CoreState → CoreState) : State :=
  s.onTiu fun t => { t with cores := Tab.upd {} t.cores v f }
def State.unit (s : State) (u : Nat) : UnitState := Tab.get {} s.cap.units u
def State.onUnit (s : State) (u : Nat) (f : UnitState → UnitState) : State :=
  s.onCap fun c => { c with units := Tab.upd {} c.units u f }
def State.eng (s : State) (e : Nat) : EngState := Tab.get {} s.cap.engines e
def State.onEng (s : State) (e : Nat) (f : EngState → EngState) : State :=
  s.onCap fun c => { c with engines := Tab.upd {} c.engines e f }
def State.qst (s : State) (q : Nat) : QState := Tab.get {} s.qm.queues q
def State.onQst (s : State) (q : Nat) (f : QState → QState) : State :=
  s.onQm fun m => { m with queues := Tab.upd {} m.queues q f }
def State.port (s : State) (p : Nat) : PortSt := Tab.get {} s.lnk.ports p
def State.onPort (s : State) (p : Nat) (f : PortSt → PortSt) : State :=
  s.onLnk fun l => { l with ports := Tab.upd {} l.ports p f }
def State.lane (s : State) (l : Nat) : LaneSt := Tab.get {} s.lnk.lanes l
def State.onLane (s : State) (l : Nat) (f : LaneSt → LaneSt) : State :=
  s.onLnk fun n => { n with lanes := Tab.upd {} n.lanes l f }
def State.fport (s : State) (n : Nat) : FPort := Tab.get {} s.fblk.ports n
def State.onFport (s : State) (n : Nat) (f : FPort → FPort) : State :=
  s.onFld fun x => { x with ports := Tab.upd {} x.ports n f }
def State.dec (s : State) (d : Nat) : DecState := Tab.get {} s.fblk.decs d
def State.onDec (s : State) (d : Nat) (f : DecState → DecState) : State :=
  s.onFld fun x => { x with decs := Tab.upd {} x.decs d f }
def State.trip (s : State) (o : Nat) : TripState := Tab.get {} s.fblk.trips o
def State.onTrip (s : State) (o : Nat) (f : TripState → TripState) : State :=
  s.onFld fun x => { x with trips := Tab.upd {} x.trips o f }

/-- A frequency output. -/
def State.fout (s : State) (o : Nat) : Fout := Tab.get {} s.fblk.fouts o
def State.onFout (s : State) (o : Nat) (f : Fout → Fout) : State :=
  s.onFld fun x => { x with fouts := Tab.upd {} x.fouts o f }
def State.wit (s : State) (k : Nat) : WitSt := Tab.get {} s.red.wit k
def State.onWit (s : State) (k : Nat) (f : WitSt → WitSt) : State :=
  s.onRed fun r => { r with wit := Tab.upd {} r.wit k f }

/-- The crystal counter XC (05_time_base.md R143, R145). -/
def State.xc (s : State) : Nat := s.now / 8192

/-- The crystal second that the present instant lies in (00_scope.md R541). -/
def State.second (s : State) : Nat := s.xc / 51200000

/-- Fine counts in a number of milliseconds and microseconds of crystal time. -/
def fineMs (n : Nat) : Nat := n * 51200 * 8192
def fineUs (n : Nat) : Nat := n * 51200 * 8192 / 1000

/-- SYS_PWR_STATE CURRENT (01_architecture.md Table 01-8). -/
def State.power (s : State) : Nat := s.fld SYS_PWR_STATE SYS_PWR_STATE_CURRENT

/-- Has boot completed, with BOOT_OK declared or MINIMAL entered (12_command_packets.md R542)? -/
def State.booted (s : State) : Bool := s.sys.phase == .running || s.sys.phase == .minimal

/-- Is the hub in MINIMAL? -/
def State.isMinimal (s : State) : Bool := s.sys.phase == .minimal

/-- Do the core-logic blocks have their clock: in every state but DORMANT, once boot has begun (Table 01-7, R505)? -/
def State.coreClock (s : State) : Bool := s.power != 1 && s.sys.phase != .waitPfw

/-- Time passes to the fine count `t`: PMC_CYCLE counts the core-logic clocks, eight in each crystal tick
(17_counters_and_test.md R505). A moment already past leaves the state as it is. -/
def State.advance (s : State) (t : Nat) : State :=
  let n := max s.now t
  { s with now := n, pmcBlk := { s.pmcBlk with cycle := if s.coreClock then s.pmcBlk.cycle + (n / coreClk - s.now / coreClk) else s.pmcBlk.cycle } }

/-- The state taken at another instant, for the stamp of an edge that a later moment gives. -/
def State.setNow (s : State) (t : Nat) : State := { s with now := t }

/-- Has the memory `m` failed at boot (14_memory_and_ecc.md R450)? -/
def State.memFailed (s : State) (m : Nat) : Bool := bit (s.fld MEM_BOOT_STAT MEM_BOOT_STAT_FAIL_MEM) m

/-- Did a command cache, or the deskew buffer of port `p`, fail at boot (14_memory_and_ecc.md Table 14-8)? -/
def State.cacheFailed (s : State) : Bool := s.memFailed 4 && s.sys.cacheFailed
def State.deskewFailed (s : State) (p : Nat) : Bool := s.memFailed 4 && bit s.sys.deskewFailed p

/-- The hub's address, none where no address is stored or NVM has failed (01_architecture.md R18; 14_memory_and_ecc.md R456). -/
def State.address (s : State) : Option Nat :=
  if s.on SYS_HUB_ADDR SYS_HUB_ADDR_VALID then some (s.fld SYS_HUB_ADDR SYS_HUB_ADDR_LIVE_ADDR) else none

/-- The hub's address, 0 where it has none. -/
def State.addr (s : State) : Nat := s.address.getD 0

/-- The global channel address bytes 4-6 of a record of local channel `c` (01_architecture.md R16, R17, Table 01-4). -/
def State.chanAddr (s : State) (c : Nat) : Nat :=
  s.addr * 1024 + c + (if c < 512 then 0 else if c < 576 then 2 ^ 21 else if c < 592 then 2 ^ 22 else 0)

end Sys2Proof.Machine
end

