-- ==== Sys2Proof/Machine/Time.lean ====
section
/-!
DEFINITION. Time: the map of a domain, served time, the formats of Table 05-1 and the time quality of served time
(05_time_base.md R144 to R146, R155; 06_interval_unit.md R191).
-/

namespace Sys2Proof.Machine

open Reg Bits

/-- The increment of domain `d` in force (R144). -/
def State.incr (s : State) (d : Nat) : Nat := s.rd64 (TB_INCR d)

/-- The map of domain `d` in force at fine count `f`: the present one, or the one that was in force then (R144, R191). -/
def State.mapAt (s : State) (d f : Nat) : Nat × Nat :=
  let m := s.dom d
  if f ≥ m.mapFrom then (m.offset, s.incr d)
  else match m.old.find? fun o => o.fromF ≤ f with
    | some o => (o.offset, o.incr)
    | none => (m.offset, s.incr d)

/-- Domain time at fine count `f`, in units of 2^-80 s: T_d = OFFSET_d + F * INCR_d / 8,192 modulo 2^128 (R144, R145). -/
def State.domTime (s : State) (d f : Nat) : Nat :=
  let m := s.mapAt d f
  (m.1 + f * m.2 / 8192) % 2 ^ 128

/-- The served domain and the residual D in force at fine count `f` (R144, R154, R191). -/
def State.servedMap (s : State) (f : Nat) : Nat × Int :=
  if f ≥ s.tb.servedFrom then (s.tb.served, s.tb.d)
  else match s.tb.oldServed.find? fun o => o.1 ≤ f with
    | some o => (o.2.1, o.2.2)
    | none => (s.tb.served, s.tb.d)

/-- Served time at fine count `f`, in units of 2^-80 s: T = T_s + D (R144). -/
def State.servedAt (s : State) (f : Nat) : Nat :=
  let m := s.servedMap f
  (((s.domTime m.1 f : Nat) + m.2) % (2 ^ 128 : Nat)).toNat

/-- Served time now. -/
def State.served (s : State) : Nat := s.servedAt s.now

/-- A time of 2^-80 s in units of 2^-40 s, truncated toward the earlier instant (R146). -/
def to40 (t : Nat) : Nat := t / 2 ^ 40

/-- Served time now in units of 2^-40 s. -/
def State.served40 (s : State) : Nat := to40 s.served

/-- The ST64 of a time of 2^-80 s (Table 05-1). -/
def st64 (t : Nat) : Nat := to40 t % 2 ^ 64

/-- The FT96 of a time of 2^-80 s (Table 05-1). -/
def ft96 (t : Nat) : Nat := t / 2 ^ 32 % 2 ^ 96

/-- ST64 served time now. -/
def State.st (s : State) : Nat := st64 s.served

/-- ST64 served time at fine count `f`. -/
def State.stAt (s : State) (f : Nat) : Nat := st64 (s.servedAt f)

/-- An ST64 value resolved, in units of 2^-40 s, to the instant within 2^23 s of a reference (R146). -/
def resolveSt (ref st : Nat) : Nat :=
  let base := ref - ref % 2 ^ 64 + st
  if base ≥ ref + 2 ^ 63 ∧ base ≥ 2 ^ 64 then base - 2 ^ 64 else if base + 2 ^ 63 < ref then base + 2 ^ 64 else base

/-- Picoseconds as units of 2^-80 s and of 2^-40 s, and back. -/
def ps80 (ps : Int) : Int := ps * (2 ^ 80 : Nat) / 1000000000000
def to_ps (t80 : Int) : Int := t80 * 1000000000000 / (2 ^ 80 : Nat)

/-- Seconds and milliseconds in units of 2^-40 s. -/
def sec40 (n : Nat) : Nat := n * 2 ^ 40
def ms40 (n : Nat) : Nat := n * 2 ^ 40 / 1000

/-- A difference of fine counts in picoseconds of crystal time. -/
def fineToPs (f : Int) : Int := f * 10000000 / 4194304

/-- The record period that an instant of 2^-80 s lies in (R202). -/
def periodOf (ms t : Nat) : Nat := t * 1000 / (ms * 2 ^ 80)

/-- Rate code, grid bit and format of a channel's stream. -/
def State.chRate (s : State) (c : Nat) : Nat := s.fld (DEC_CH_CFG c) DEC_CH_CFG_RATE
def State.chGrid (s : State) (c : Nat) : Bool := s.on (DEC_CH_CFG c) DEC_CH_CFG_GRID
def State.chFmt (s : State) (c : Nat) : Nat := s.fld (DEC_CH_CFG c) DEC_CH_CFG_FORMAT

/-- Domain time quality (R151, R152). -/
def State.domTq (s : State) (d : Nat) : Nat := s.fld (TB_DOM_STAT d) TB_DOM_STAT_TQ

/-- Served time quality: that of the served domain, and at least TQ1 while the residual exceeds 4 ns (R155). -/
def State.tq (s : State) : Nat :=
  let q := s.domTq s.tb.served
  if s.tb.d.natAbs > 4 * 2 ^ 80 / 1000000000 then max q 1 else q

/-- Record header byte 21: time quality, domain and grid bit (07_panes_and_triggers.md Table 07-2). -/
def State.tqByte (s : State) (grid : Bool) : Nat := s.tq + 4 * s.tb.served + (if grid then 8 else 0)

/-- TB_STATUS as it reads now (R155). -/
def State.tbStatus (s : State) : Word :=
  setBits (setBits (setBits (s.rd TB_STATUS) TB_STATUS_SLEWING (b2n (s.tb.d != 0))) TB_STATUS_TQ s.tq) TB_STATUS_SERVED s.tb.served

end Sys2Proof.Machine
end

