-- ==== Sys2Proof/Machine/Flags.lean ====
section
/-!
DEFINITION. The quality flags of samples and records (07_panes_and_triggers.md Table 07-1) and the spans of time over
which samples carry them.
-/

namespace Sys2Proof.Machine

open Reg Bits

/-- Bit numbers of Table 07-1. -/
def fSuspectWire : Nat := 0
def fClamp : Nat := 1
def fRangeChange : Nat := 2
def fOverload : Nat := 3
def fResetStitch : Nat := 4
def fRelief : Nat := 5
def fTimeStep : Nat := 6
def fRetro : Nat := 7
def fAsymUnknown : Nat := 8
def fGapFollows : Nat := 9

/-- A flag word with one bit set besides. -/
def withFlag (w i : Nat) : Nat := w ||| 2 ^ i

/-- Does a span cover any instant from `a` to `b` (fine counts)? -/
def Span.meets (sp : Span) (a b : Nat) : Bool :=
  decide (sp.from_ ≤ b) && match sp.to_ with
    | none => true
    | some e => decide (a ≤ e)

/-- Was a strobe of a bay that strobes every `step` fine counts held between `a` and `b` while the span lasted? -/
def Span.holds (sp : Span) (step a b : Nat) : Bool :=
  let lo := max a sp.from_
  let hi := match sp.to_ with
    | none => b
    | some e => min b e
  decide ((lo + step - 1) / max 1 step * step ≤ hi)

/-- The sample flags that the spans of a channel give: SUSPECT_WIRE by the sample's instant `u`, which lies before the end of the
span (02_front_end.md R66, R67); every other by the raw samples held in the support from `a` to `b`, or, where it is one instant, by
that instant's lying in the support. -/
def spanFlags (l : List Span) (step u a b : Nat) : Nat :=
  l.foldl (fun w sp =>
    let on := if sp.flag = fSuspectWire then decide (sp.from_ ≤ u) && (match sp.to_ with
        | none => true
        | some e => decide (u < e))
      else if sp.to_ = some sp.from_ then decide (a ≤ sp.from_) && decide (sp.from_ ≤ b)
      else sp.holds step a b
    if on then withFlag w sp.flag else w) 0

/-- ASYM_UNKNOWN of a sample placed now: the served domain is at TQ1 because of a link so marked (05_time_base.md
R155). -/
def State.asymFlag (s : State) : Nat :=
  if s.on (TB_DOM_STAT s.tb.served) TB_DOM_STAT_ASYM_UNK && s.domTq s.tb.served == 1 then 2 ^ fAsymUnknown else 0

/-- Begin a flag span on channel `c` at fine count `a`, unless one of that flag is already open. -/
def State.openSpan (s : State) (c flag a : Nat) : State :=
  s.onCh c fun h =>
    if h.spans.any fun sp => sp.flag == flag && sp.to_.isNone then h else { h with spans := h.spans ++ [⟨flag, a, none⟩] }

/-- End the open flag span of channel `c` at fine count `b`. -/
def State.closeSpan (s : State) (c flag b : Nat) : State :=
  s.onCh c fun h => { h with spans := mapIf (fun sp => sp.flag == flag && sp.to_.isNone) (fun sp => { sp with to_ := some b }) h.spans }

/-- Add a flag span on channel `c` from `a` to `b`. -/
def State.addSpan (s : State) (c flag a b : Nat) : State :=
  s.onCh c fun h => { h with spans := h.spans ++ [⟨flag, a, some b⟩] }

end Sys2Proof.Machine
end

