-- ==== Sys2Proof/Machine/Pool.lean ====
section
/-!
DEFINITION. The cell pool: the cells a record or packet takes, what is charged to a queue, its depth, and the room a
push finds (09_queues_and_retention.md R271 to R274).
-/

namespace Sys2Proof.Machine

open Reg Bits

/-- A record's total length in bytes (07_panes_and_triggers.md R207, R209). -/
def Rec.length (r : Rec) : Nat := 32 + (pad4 r.payload).length

/-- The cells a record occupies (R271). -/
def Rec.cells (r : Rec) : Nat := ceilDiv r.length 240

/-- Bytes of one sample in a format: S32, S24 packed, F32 (Table 07-2 byte 7). -/
def sampleBytes (fmt : Nat) : Nat := if fmt = 2 then 3 else 4

/-- The cells that a record in assembly takes so far. -/
def Asm.cells (a : Asm) : Nat := ceilDiv (32 + a.values.length * sampleBytes a.fmt) 240

/-- The cells charged to queue `q` (R271). -/
def State.held (s : State) (q : Nat) : Nat :=
  (s.qm.recs.foldl (fun n r => n + (if r.q = q then r.entered else 0) + (if r.aq = q then r.inAsm else 0)) 0)
    + (s.qm.items.foldl (fun n i => if i.q = q then n + i.entered else n) 0)
    + (s.qm.asm.foldl (fun n a => if a.aq = q then n + a.inAsm else n) 0)

/-- The cells of queue `q` that its consumer has not popped. -/
def State.depth (s : State) (q : Nat) : Nat :=
  (s.qm.recs.foldl (fun n r => n + (if r.q = q then r.entered - r.popped else 0) + (if r.aq = q then r.inAsm else 0)) 0)
    + (s.qm.items.foldl (fun n i => if i.q = q then n + (i.entered - i.sent) else n) 0)
    + (s.qm.asm.foldl (fun n a => if a.aq = q then n + a.inAsm else n) 0)

/-- LIMIT and RESERVE in force. -/
def State.qLimit (s : State) (q : Nat) : Nat := s.fld (QM_Q_CFG q) QM_Q_CFG_LIMIT
def State.qReserve (s : State) (q : Nat) : Nat := s.fld (QM_Q_CFG q) QM_Q_CFG_RESERVE

/-- The cells allocated to link replay buffers (11_serial_lanes_and_syrilink.md R347). -/
def State.replayTotal (s : State) : Nat := s.qm.replayCells.foldl (fun n e => n + e.2) 0

/-- The shared cells of the pool: those beyond the reserves and the replay buffers (R273). -/
def State.sharedCells (s : State) : Nat :=
  65536 - s.replayTotal - (List.range 64).foldl (fun n q => n + s.qReserve q) 0

/-- The shared cells that are free (R273). -/
def State.freeShared (s : State) : Nat :=
  65536 - s.replayTotal - (List.range 64).foldl (fun n q => n + max (s.qReserve q) (s.held q)) 0

/-- The cells that queue `q` can still take (R273, R274). Without a cell pool, Q60, Q61 and the commands taken are in Porter SRAM,
one packet each way (14_memory_and_ecc.md Table 14-8). -/
def State.room (s : State) (q : Nat) : Nat :=
  let h := s.held q
  if s.memFailed 1 then if q = 61 then (if h = 0 then 18 else 0) else if q = 56 ∨ q = 60 then 18 - h else 0
  else min (s.qLimit q - h) ((s.qReserve q - h) + s.freeShared)

/-- Is queue `q` full (R274)? -/
def State.full (s : State) (q : Nat) : Bool := s.room q == 0

/-- Has queue `q` no free cell: its reserve is used and no shared cell is free (R274, R287)? -/
def State.noCell (s : State) (q : Nat) : Bool := s.memFailed 1 || s.qReserve q - s.held q + s.freeShared == 0

/-- May this record be dropped when retention is exhausted: class B, pane or stream (R286)? -/
def Rec.droppable (r : Rec) : Bool := r.rtype == 1 || r.rtype == 2 || r.rtype == 6 || r.rtype == 7

/-- Are events to be withheld: a record of Q49 finds no cell and no droppable record remains (R287)? -/
def State.eventsBlocked (s : State) : Bool := s.noCell 49 && !(s.qm.recs.any Rec.droppable)

/-- Word size of a memory in bytes (14_memory_and_ecc.md Table 14-1). -/
def memWord (m : Nat) : Nat := match m with
  | 0 => 56
  | 4 => 4
  | _ => 8

/-- Is a damaged word one of those from `off` to `off + len` of memory `m`? -/
def Damage.meets (d : Damage) (m off len : Nat) : Bool :=
  let w := memWord m
  d.mem == m && decide (off / w ≤ d.offset / w) && decide (d.offset / w * w < off + len)

/-- Every word from `off` to `off + len` is written whole: damage goes when the clock ends (R444, R447); what this clock injects
stays (R447). -/
def State.wroteWhole (s : State) (m off len : Nat) : State :=
  if s.mem.damage.isEmpty then s
  else s.onMem fun x =>
    let left := x.damage.filter fun d => d.mended.isNone || d.mended == some s.clock
    { x with damage := mapIf (fun d => d.meets m off len && d.injected != some s.clock) (fun d => { d with mended := some s.clock }) left }

/-- The cells of a record (`rid`), or of a packet or transit cell (2^48 + its number), are written. -/
def State.wroteCells (s : State) (rid n : Nat) : State :=
  if s.mem.damage.isEmpty then s else (List.range n).foldl (fun (s : State) k => s.wroteWhole 1 ((Config.poolCell rid k).toNat * 256) 256) s

end Sys2Proof.Machine
end

