-- ==== Sys2Proof/Machine/Events.lean ====
section
/-!
DEFINITION. What the hub reports on its own: black-box entries (15_porter_management.md R471, R472), event records
(07_panes_and_triggers.md R211), per-second limits (00_scope.md R541) and the performance counters that count
occurrences (17_counters_and_test.md R505 to R507).
-/

namespace Sys2Proof.Machine

open Reg Bits

/-- Kind of a black-box entry (Table 15-6 byte 13). -/
def bbKind (code : Nat) : Nat :=
  match code with
  | 1 | 2 | 3 => 1
  | 8 => 2
  | 9 => 3
  | 10 => 4
  | _ => 0

/-- A queue entry of nothing yet entered. -/
def qitem (q cells : Nat) (c : Ctl) (from_ : Nat) (urgent : Bool) : QItem :=
  { iid := 0, q := q, cells := cells, ctl := c, fromPort := from_, urgent := urgent, entered := 0, at_ := 0, sent := 0 }

/-- Put an entry at the end of its queue, or, when it is urgent, ahead of the entries without URGENT of which no cell has
been sent (12_command_packets.md R370). Its cells enter under `settle`. -/
def State.enqueue (s : State) (i : QItem) : State :=
  let i := { i with iid := s.qm.nextItem, at_ := s.now }
  let ahead := fun (j : QItem) => j.q != i.q || j.urgent || decide (0 < j.sent)
  let s := s.wroteCells (2 ^ 48 + i.iid) i.cells
  s.onQm fun m =>
    { m with nextItem := m.nextItem + 1,
             items := if i.urgent then m.items.takeWhile ahead ++ i :: m.items.dropWhile ahead else m.items ++ [i] }

/-- Push a committed entry to Q59, three entries to a cell; an entry that finds Q59 full, or a hub without a cell pool,
is not mirrored (R474, R456). (DEDUCED, log entry 41). -/
def State.mirrorBB (s : State) (e : BBEntry) : State :=
  let waits := fun (i : QItem) => i.q == 59 && match i.ctl with
    | .bbMirror es => decide (es.length < 3)
    | _ => false
  if s.memFailed 1 then s.bump SYS_BB_STAT SYS_BB_STAT_MIRROR_SKIPPED
  else if s.qm.items.any waits then
    s.onQm fun m => { m with items := m.items.map fun i =>
      match i.ctl with
      | .bbMirror es => if waits i then { i with ctl := .bbMirror (es ++ [e]) } else i
      | _ => i }
  else if s.full 59 then s.bump SYS_BB_STAT SYS_BB_STAT_MIRROR_SKIPPED
  else s.enqueue { qitem 59 1 (.bbMirror [e]) 8 false with entered := 1 }

/-- Commit one black-box entry: numbered, the oldest overwritten beyond 3,072, mirrored to Q59 (R471, R472, R474). With
NVM failed the black box is not written (14_memory_and_ecc.md R456). -/
def State.bbCommit (s : State) (code : Nat) (items : List Nat) : State :=
  if s.memFailed 3 then s
  else
    let e : BBEntry :=
      ⟨s.nvm.bbNext, s.st, s.tq + 4 * s.tb.served + (if s.sys.pfwNLow then 8 else 0), code / 0x1000, bbKind code, code,
        s.xc, s.nvm.startCount, items.take 4⟩
    let l := s.nvm.bb ++ [e]
    (s.onNvm fun n => { n with bb := l.drop (l.length - 3072), bbNext := n.bbNext + 1 }).mirrorBB e

/-- ALLOWANCE of R472. -/
def State.bbAllowance (s : State) : Nat := s.fld SYS_BB_STAT SYS_BB_STAT_ALLOWANCE

/-- The black box's part of an event: always, by the block's bit and the allowance, or not (R472). (DEDUCED, log entry 41). -/
def State.bbEvent (s : State) (code : Nat) (items : List Nat) : State :=
  if code = 1 ∨ code = 2 ∨ code = 3 ∨ code = 8 then s.bbCommit code items
  else if !bit (s.fld SYS_BB_CFG SYS_BB_CFG_BLOCKS) (code / 0x1000) then s
  else if s.bbAllowance = 0 then
    (s.bump SYS_BB_STAT SYS_BB_STAT_DROPPED).onSys fun y => { y with bbDropped := y.bbDropped + 1 }
  else (s.setFld SYS_BB_STAT SYS_BB_STAT_ALLOWANCE (s.bbAllowance - 1)).bbCommit code items

/-- A record with nothing in it. -/
def blankRec : Rec :=
  { id := 0, rtype := 0, addr := 0, fmt := 0, first := 0, last := 0, st := 0, stLast := 0, rate := 0, tqByte := 0,
    flags := 0, count := 0, pane := 0, payload := [], prio := 0, wantCmp := false, fsf := false, spilled := none,
    closedAt := 0, agedFrom := 0, q := 64, aq := 49, inAsm := 0, entered := 0, place := .queued, popped := 0,
    resent := false, deliveredAt := none, exts := [], gapOf := none }

/-- The hub takes a closed record into its queues: numbered, aged from now (R207, R285). Its cells enter under `settle`. A hub
without an address forms no records (01_architecture.md R18). -/
def State.addRec (s : State) (r : Rec) : State :=
  if s.address.isNone then s
  else
    let r := { r with id := s.qm.nextRec, closedAt := s.now, agedFrom := s.now }
    let s := s.wroteCells r.id r.cells
    s.onQm fun m => { m with recs := m.recs ++ [r], nextRec := m.nextRec + 1 }

/-- The next sequence number of a record type (R208). -/
def State.nextSeq (s : State) (ty : Nat) : Nat × State :=
  (Tab.get 0 s.qm.seqs ty, s.onQm fun m => { m with seqs := Tab.upd 0 m.seqs ty (· + 1) })

/-- A record that carries a sequence number: types 0x03 to 0x06, 0x08 and 0x09 (R208); while served time is at TQ1 by a link so
marked, it carries ASYM_UNKNOWN (05_time_base.md R155). -/
def State.addSeqRec (s : State) (r : Rec) : State :=
  if s.address.isNone then s
  else
    let n := s.nextSeq r.rtype
    n.2.addRec { r with first := n.1, last := n.1, flags := r.flags ||| s.asymFlag }

/-- The address of a record that belongs to no channel (R208). -/
def State.noChan (s : State) : Nat := s.addr * 1024 + 1023

/-- The 64 bytes of one event entry (R211). -/
def EvEntry.image (e : EvEntry) : List Byte :=
  le 2 e.code ++ le 1 (e.items.length) ++ le 5 0 ++ le 8 e.st ++ e.items.flatMap (le 8) ++ le (8 * (6 - e.items.length)) 0

/-- Close the event record being filled: it becomes a record of type 0x05 on Q49 (R210, R211). -/
def State.closeEvents (s : State) : State :=
  match s.qm.evRec with
  | none => s
  | some r =>
    let st := (r.entries.head?.map EvEntry.st).getD 0
    (s.onQm fun m => { m with evRec := none }).addSeqRec
      { blankRec with rtype := 5, addr := s.noChan, st := st, stLast := st, tqByte := r.tqByte,
                      count := r.entries.length, payload := r.entries.flatMap EvEntry.image }

/-- Place one entry in the event record: a record of another domain or time quality closes first, and a record with 16
entries closes (R211). -/
def State.placeEvent (s : State) (code : Nat) (items : List Nat) : State :=
  let tq := s.tqByte false
  let e : EvEntry := ⟨code, s.st, items.take 6⟩
  let s := match s.qm.evRec with
    | some r => if r.tqByte = tq then s else s.closeEvents
    | none => s
  let r : EvRec := match s.qm.evRec with
    | some r => { r with entries := r.entries ++ [e] }
    | none => ⟨s.now, tq, [e]⟩
  let s := s.onQm fun m => { m with evRec := some r }
  if r.entries.length ≥ 16 then s.closeEvents else s

/-- An event goes into an event record unless the hub has no address (01_architecture.md R18) or events are withheld (R287). -/
def State.recordEvent (s : State) (code : Nat) (items : List Nat) : State :=
  if s.address.isNone then s
  else if s.eventsBlocked then
    (s.bump QM_DROP_STAT QM_DROP_STAT_EVENTS_SUPPRESSED).onQm fun m => { m with withheld := m.withheld + 1 }
  else s.placeEvent code items

/-- The hub issues an event: to the black box under R472, and into an event record. -/
def State.issue (s : State) (code : Nat) (items : List Nat) : State := (s.bbEvent code items).recordEvent code items

/-- A signed item, sign-extended to 64 bits (R211). -/
def item (v : Int) : Nat := unsigned 64 v

/-- The payload of a limited event with its count and, where it has one, its first occurrence put in. -/
def Limited.payload (l : Limited) : List Nat :=
  let n := if l.incl then l.held else l.held - 1
  let xs := l.items.set l.countAt n
  if l.firstAt < 9 then xs.set l.firstAt l.first else xs

/-- An event that the manual limits to `cap` a second for each instance (R541): issued now, or held back and counted for
the next one. The count stands in item `countAt`; with `incl` it takes in the occurrence described. -/
def State.issueLim (s : State) (code inst cap countAt : Nat) (incl : Bool) (items : List Nat) (firstAt : Nat := 9) : State :=
  let old := (s.sys.limits.find? fun l => l.code == code && l.inst == inst).getD
    ⟨code, inst, s.second, 0, 0, [], countAt, incl, firstAt, 0, cap⟩
  let rest := s.sys.limits.filter fun l => !(l.code == code && l.inst == inst)
  let sent := if old.second = s.second then old.sent else 0
  let new : Limited := { old with second := s.second, held := old.held + 1, items := items,
                                  first := if old.held = 0 then items.getD firstAt 0 else old.first }
  if sent < cap then
    (s.onSys fun y => { y with limits := rest ++ [{ new with sent := sent + 1, held := 0 }] }).issue code new.payload
  else s.onSys fun y => { y with limits := rest ++ [{ new with sent := sent }] }

/-- At the start of a crystal second the occurrences held back in the past second are issued, one event for each key
(R541). -/
def State.flushLimits (s : State) : State :=
  let late := fun (l : Limited) => decide (l.held > 0) && decide (l.second < s.second)
  let due := s.sys.limits.filter late
  let keep := s.sys.limits.filter fun l => decide (l.held > 0) || decide (l.second = s.second)
  let rest := mapIf late (fun l => { l with second := s.second, sent := 1, held := 0 }) keep
  due.foldl (fun s l => s.issue l.code l.payload) (s.onSys fun y => { y with limits := rest })

/-- The configuration word of counter `i` that counts in this clock, and ENABLE: those from before a PMC_CONFIG of this clock (R508). -/
def State.pmcWord (s : State) (i : Nat) : Word :=
  match s.pmcBlk.was with
  | some (k, ws, _) => if k = s.clock then ws.getD i 0#32 else s.rd (PMC_CFG i)
  | none => s.rd (PMC_CFG i)
def State.pmcOn (s : State) : Bool :=
  match s.pmcBlk.was with
  | some (k, _, on) => if k = s.clock then on else s.on PMC_CTRL PMC_CTRL_ENABLE
  | none => s.on PMC_CTRL PMC_CTRL_ENABLE

/-- Counter `i` takes `n` more in this clock, modulo 2^32. -/
def State.pmcPut (s : State) (i n : Nat) : State :=
  (s.setFld (PMC_CNT i) PMC_CNT_COUNT ((s.fld (PMC_CNT i) PMC_CNT_COUNT + n) % 2 ^ 32)).mark (PMC_CNT i) PMC_CNT_COUNT.lo n

/-- Add `n` to programmable counter `i`: a wrap carries into a chained partner in the same clock, or sets OVF and issues PMC_OVERFLOW at
most once a second (R507, R508). -/
def State.pmcAdd (s : State) (i n : Nat) : State :=
  let wraps := (s.fld (PMC_CNT i) PMC_CNT_COUNT + n) / 2 ^ 32
  let s' := s.pmcPut i n
  if wraps = 0 then s'
  else if i % 2 = 0 && wfld (s.pmcWord (i + 1)) PMC_CFG_CHAIN == 1 then
    if wfld (s.pmcWord (i + 1)) PMC_CFG_EN = 1 then s'.pmcPut (i + 1) wraps else s'
  else
    let s' := s'.onPmc fun x => { x with ovfWas := if x.ovfWas.1 = s.clock then x.ovfWas else (s.clock, s.fld PMC_STAT PMC_STAT_OVF) }
    (s'.setBit PMC_STAT PMC_STAT_OVF i).issueLim 0xE001 i 1 1 true [i, wraps]

/-- Does counter `i` count event `ev` of instance `inst` (R505 to R507)? -/
def State.pmcSelects (s : State) (i ev inst : Nat) : Bool :=
  let w := s.pmcWord i
  wfld w PMC_CFG_EN == 1 && wfld w PMC_CFG_EVENT == ev && (wfld w PMC_CFG_QUAL == 0x7F || wfld w PMC_CFG_QUAL == inst)
    && !(i % 2 == 1 && wfld w PMC_CFG_CHAIN == 1)

/-- `n` occurrences of a counted event (Table 17-1) on one instance; the counters stand while the core-logic clock does (R505).
(DESIGN CHOICE, log entry 65). -/
def State.pmc (s : State) (ev inst n : Nat) : State :=
  if n = 0 || !s.pmcOn || !s.coreClock then s
  else (List.range 8).foldl (fun s i => if s.pmcSelects i ev inst then s.pmcAdd i n else s) s

end Sys2Proof.Machine
end

