-- ==== Sys2Proof/Machine/Ecc.lean ====
section
/-!
DEFINITION. Error correction (14_memory_and_ecc.md R442 to R447): what a read or a write of a damaged word does, and the layout of
the DRAM.
-/

namespace Sys2Proof.Machine

open Reg Bits

/-- Draw a free value: the counter that numbers it moves on (log entry 5). -/
def State.draw (s : State) : Nat × State := (s.free, { s with free := s.free + 1 })

/-- Installed DRAM in GiB. -/
def State.gib (s : State) : Nat := s.fld MEM_DRAM_CFG MEM_DRAM_CFG_INSTALLED

/-- The history, retention and work areas in force, in bytes from offset 0 upward (R440). -/
def unit256 : Nat := 256 * 1048576
def State.histArea (s : State) : Nat := s.fld MEM_DRAM_CFG MEM_DRAM_CFG_HIST_NOW * unit256
def State.retArea (s : State) : Nat := s.fld MEM_DRAM_CFG MEM_DRAM_CFG_RET_NOW * (256 * 1048576)
def State.workArea (s : State) : Nat := s.fld MEM_DRAM_CFG MEM_DRAM_CFG_WORK_NOW * unit256
def State.workBase (s : State) : Nat := s.histArea + s.retArea

/-- The damage in the word of memory `m` that holds offset `off`, as a read of this clock meets it (R447). -/
def State.damageAt (s : State) (m off : Nat) : Option Damage :=
  s.mem.damage.find? fun d => d.meets m (off / memWord m * memWord m) 1 && (d.mended.isNone || d.mended == some s.clock)

/-- The damage from `off` to `off + len` that a write of this clock meets. -/
def State.damageIn (s : State) (m off len : Nat) : List Damage := s.mem.damage.filter fun d => d.meets m off len && d.mended.isNone

/-- The word that holds an offset is corrected and written back (R443). -/
def State.heal (s : State) (m off : Nat) : State :=
  s.onMem fun x => { x with damage := x.damage.filter fun d => !d.meets m (off / memWord m * memWord m) 1 }

/-- The word that holds an offset takes the check pattern of poison (R444). -/
def State.poison (s : State) (m off : Nat) : State :=
  (s.heal m off).onMem fun x => { x with damage := x.damage ++ [⟨m, off / memWord m * memWord m, 2, none, none⟩] }

/-- The latest error of a memory is recorded (MEM_ERR_INFO, MEM_ERR_ADDR): an uncorrectable error or poison is not
replaced by a later correction until UNCORR reads 0. (DEDUCED, log entry 64). -/
def State.memInfo (s : State) (m off req ty partial_ : Nat) : State :=
  let oldTy := s.fld (MEM_ERR_INFO m) MEM_ERR_INFO_TYPE
  if ty = 1 ∧ oldTy ≥ 2 ∧ s.fld (MEM_ERR m) MEM_ERR_UNCORR ≠ 0 then s
  else
    let d := s.draw
    let syn := (Config.syndrome d.1).toNat
    let s := (((d.2.setFld (MEM_ERR_INFO m) MEM_ERR_INFO_TYPE ty).setFld (MEM_ERR_INFO m) MEM_ERR_INFO_REQ req).setFld
      (MEM_ERR_INFO m) MEM_ERR_INFO_PARTIAL partial_).setFld (MEM_ERR_INFO m) MEM_ERR_INFO_SYNDROME syn
    s.wr64 (MEM_ERR_ADDR m) (off / memWord m * memWord m)

/-- A corrected read (R443): counted, MEM_CORRECTED at most once a second for the memory, the word written back except in
NVM and by a CHECK scrub. -/
def State.memCorrected (s : State) (m off req partial_ : Nat) (writeBack : Bool) : State :=
  let s := (s.memInfo m off req 1 partial_).bump (MEM_ERR m) MEM_ERR_CORRECTED
  let s := (s.pmc 0xD03 m 1).issueLim 0xD001 m 1 1 true [m, 0, off]
  if writeBack && m != 3 then s.heal m off else s

/-- An uncorrectable or poisoned word met (R444 to R446): counted, MEM_UNCORRECTABLE at most ten times a second for the
memory. -/
def State.memUncorrectable (s : State) (m off req ty partial_ : Nat) : State :=
  ((s.memInfo m off req ty partial_).bump (MEM_ERR m) MEM_ERR_UNCORR).issueLim 0xD002 m 10 5 false [m, off, req, ty, partial_, 0]

/-- An uncorrectable word, not yet poison, is met by a read or a refused write: it is counted, and takes the check pattern of poison
(R444, R445). NVM is rewritten only by its owners (R443). (DEDUCED, log entry 64). -/
def State.memFound (s : State) (d : Damage) (req partial_ : Nat) : State :=
  let s := s.memUncorrectable d.mem d.offset req (if d.kind = 2 then 3 else 2) partial_
  if d.kind = 2 || d.mended.isSome || d.mem == 3 then s else s.poison d.mem d.offset

/-- Read the word that holds an offset: whether it reads, and the state after (R443, R444). -/
def State.memRead (s : State) (m off req : Nat) : Bool × State :=
  match s.damageAt m off with
  | none => (true, s)
  | some d => if d.kind = 0 then (true, s.memCorrected m off req 0 true) else (false, s.memFound d req 0)

/-- Read every word of a range; false where one does not read. -/
def State.memReadRange (s : State) (m off len req : Nat) : Bool × State :=
  let hit := s.mem.damage.filter fun d => d.meets m off len
  hit.foldl (fun a d => let r := a.2.memRead m d.offset req; (a.1 && r.1, r.2)) (true, s)

/-- Write a range: whole words take clean data; a partial write of a damaged word corrects it, or is refused and poisons
it (R445). False where a partial write is refused. -/
def State.memWriteRange (s : State) (m off len req : Nat) : Bool × State :=
  let w := memWord m
  (s.damageIn m off len).foldl (fun a d =>
    let base := d.offset / w * w
    if off ≤ base ∧ base + w ≤ off + len then (a.1, a.2.wroteWhole m base 1)
    else if d.kind = 0 then (a.1, a.2.memCorrected m base req 1 true)
    else (false, a.2.memFound d req 1)) (true, s)

end Sys2Proof.Machine
end

