-- ==== Sys2Proof/Machine/Route.lean ====
section
/-!
DEFINITION. Ring routing (11_serial_lanes_and_syrilink.md R350 to R354): the link states a hub holds, the fewest hops to
a position, the first hop of records and packets, and what enters the queues of a port.
-/

namespace Sys2Proof.Machine

open Reg Bits

/-- Port roles (LNK_PORT_CFG ROLE). -/
def rOFF : Nat := 0
def rRingE : Nat := 1
def rRingW : Nat := 2
def rBypE : Nat := 3
def rBypW : Nat := 4
def rTrunkE : Nat := 5
def rTrunkW : Nat := 6
def rUplink : Nat := 7
def rPartner : Nat := 8

/-- Role and state of port `p`. -/
def State.role (s : State) (p : Nat) : Nat := s.fld (LNK_PORT_CFG p) LNK_PORT_CFG_ROLE
def State.pstate (s : State) (p : Nat) : Nat := s.fld (LNK_PORT_STAT p) LNK_PORT_STAT_STATE

/-- Is port `p` UP or DEGRADED? -/
def State.portUp (s : State) (p : Nat) : Bool := s.pstate p == 3 || s.pstate p == 4

/-- Does this end of port `p` grant S and B credits (R344)? -/
def State.portSB (s : State) (p : Nat) : Bool :=
  s.portUp p && s.power != 1 && !s.on (LNK_PORT_CFG p) LNK_PORT_CFG_TEST

/-- The port with a role, if one has it. -/
def State.portOf (s : State) (r : Nat) : Option Nat := (List.range 8).find? fun p => s.role p == r

/-- The port with a role that is UP or DEGRADED. -/
def State.upPortOf (s : State) (r : Nat) : Option Nat := (List.range 8).find? fun p => s.role p == r && s.portUp p

/-- Head state this hub announces (13_head_redundancy.md Table 13-1). -/
def State.headState (s : State) : Nat :=
  match s.fld RED_STAT RED_STAT_STATE with
  | 3 => 1
  | 2 => 2
  | _ => 0

/-- Is this hub the active head of its segment (R408)? -/
def State.isActive (s : State) : Bool := s.fld RED_STAT RED_STAT_STATE == 3

/-- This hub's own link state (Table 11-8). -/
def State.ownLink (s : State) : LinkState :=
  { origin := s.addr, generation := s.fld LNK_ROUTE_CFG LNK_ROUTE_CFG_GEN, head := s.headState,
    ports := (List.range 8).map fun p => ⟨s.role p, s.portUp p, s.portSB p⟩ }

/-- The link states in force: this hub's own, where it has an address, and those it holds of other hubs. -/
def State.links (s : State) : List LinkState :=
  (if s.address.isSome then [s.ownLink] else []) ++ s.lnk.table.map LsEntry.ls

/-- The highest position of the segment plus one (R15). (DEDUCED, log entry 61). -/
def State.segCount (s : State) : Nat := s.fld LNK_ROUTE_CFG LNK_ROUTE_CFG_SEG_LAST + 1

/-- Segment and position of an address (R15). -/
def segOf (a : Nat) : Nat := a / 64 % 32
def posOf (a : Nat) : Nat := a % 64

/-- The position a ring or bypass role of position `x` faces, in a segment of `n` hubs (Table 01-5). -/
def facing (n x r : Nat) : Nat :=
  match r with
  | 1 => (x + 1) % n
  | 2 => (x + n - 1) % n
  | 3 => (x + 2) % n
  | _ => (x + 2 * n - 2) % n

/-- The role that faces a ring or bypass role (R333). -/
def facingRole (r : Nat) : Nat :=
  match r with
  | 1 => 2
  | 2 => 1
  | 3 => 4
  | _ => 3

/-- Does the hub at position `x` announce its port with role `r` up, and, for records, granting S and B credits? -/
def State.announces (s : State) (x r : Nat) (sb : Bool) : Bool :=
  s.links.any fun l => posOf l.origin == x && segOf l.origin == segOf s.addr
    && l.ports.any fun q => q.role == r && q.up && (!sb || q.sb)

/-- Does the link of role `r` at position `x` count for routing: both ends announce it (R351)? -/
def State.linkUp (s : State) (x r : Nat) (sb : Bool) : Bool :=
  s.announces x r sb && s.announces (facing s.segCount x r) (facingRole r) sb

/-- The positions one hop from a position. -/
def State.neighbours (s : State) (x : Nat) (sb : Bool) : List Nat :=
  [1, 2, 3, 4].filterMap fun r => if s.linkUp x r sb then some (facing s.segCount x r) else none

/-- The fewest hops from position `x` to position `y`, by widening the set of positions reached. -/
def State.hopsGo (s : State) (sb : Bool) (y : Nat) : Nat → Nat → List Nat → List Nat → Option Nat
  | 0, _, _, _ => none
  | fuel + 1, k, seen, front =>
    if front.contains y then some k
    else if front.isEmpty then none
    else
      let next := (front.flatMap fun x => s.neighbours x sb).eraseDups.filter fun x => !seen.contains x
      State.hopsGo s sb y fuel (k + 1) (seen ++ next) next

/-- The fewest hops between two positions of the segment, none where there is no path. -/
def State.hops (s : State) (sb : Bool) (x y : Nat) : Option Nat := s.hopsGo sb y 66 0 [x] [x]

/-- The first hop toward position `y` and the hops of that path: fewest hops, then RING before BYP, then the side `west`
or east (R351). -/
def State.firstHop (s : State) (sb west : Bool) (y : Nat) : Option (Nat × Nat) :=
  let x := posOf s.addr
  let order := if west then [rRingW, rRingE, rBypW, rBypE] else [rRingE, rRingW, rBypE, rBypW]
  let cands := order.filterMap fun r =>
    if s.linkUp x r sb then
      match s.portOf r, s.hops sb (facing s.segCount x r) y with
      | some p, some k => some (p, k + 1)
      | _, _ => none
    else none
  cands.foldl (fun best c => match best with
    | none => some c
    | some b => if c.2 < b.2 then some c else some b) none

/-- The active head known to this hub: itself, or the hub that announced head state 1 and whose cell came last (R351,
R410). -/
def State.activeHead (s : State) : Option Nat :=
  if s.isActive then some s.addr
  else
    let heads := s.lnk.table.filter fun e => e.ls.head == 1 && segOf e.ls.origin == segOf s.addr
    (heads.foldl (fun (b : Option LsEntry) e => match b with
      | none => some e
      | some x => if e.at_ ≥ x.at_ then some e else some x) none).map fun e => e.ls.origin

/-- The first hop of a record with header address bytes `addr`: UPLINK at the active head, else the first hop toward it,
by bay parity where SPLIT is set (R351). -/
def State.recordHop (s : State) (addr : Nat) : Option (Nat × Nat) :=
  if s.address.isNone then none
  else match s.activeHead with
    | none => none
    | some h =>
      if h = s.addr then (s.upPortOf rUplink).map fun p => (p, 0)
      else s.firstHop true (s.on LNK_ROUTE_CFG LNK_ROUTE_CFG_SPLIT && bit addr 3) (posOf h)

/-- Endpoint fields (12_command_packets.md R368). -/
def epScope (e : Nat) : Nat := e / 2 ^ 14 % 4
def epKind (e : Nat) : Nat := e / 2 ^ 11 % 8
def epNum (e : Nat) : Nat := e % 2 ^ 11

/-- The port toward another hub's address (R354): the shortest path in the own segment; for another segment the trunk
port, or the nearer head of the own segment whose trunk port toward it is up. -/
def State.hubHop (s : State) (a : Nat) : Option Nat :=
  if segOf a = segOf s.addr then (s.firstHop false false (posOf a)).map Prod.fst
  else
    let r := if segOf a > segOf s.addr then rTrunkE else rTrunkW
    match (if s.headState == 1 || s.headState == 2 then s.upPortOf r else none) with
    | some p => some p
    | none =>
      let heads := s.links.filter fun l => (l.head == 1 || l.head == 2) && segOf l.origin == segOf s.addr && l.origin != s.addr
        && l.ports.any fun q => q.role == r && q.up
      let best := heads.foldl (fun (b : Option (Nat × Nat)) l =>
        match s.hops false (posOf s.addr) (posOf l.origin) with
        | none => b
        | some k => match b with
          | none => some (l.origin, k)
          | some (o, j) => if k < j then some (l.origin, k) else some (o, j)) none
      best.bind fun (b : Nat × Nat) => (s.firstHop false false (posOf b.1)).map Prod.fst

/-- The port a unicast endpoint is reached by (R354). -/
def State.unicastHop (s : State) (e : Nat) : Option Nat :=
  if epKind e = 1 then
    match s.activeHead with
    | none => none
    | some h => if h = s.addr then s.upPortOf rUplink else (s.firstHop false false (posOf h)).map Prod.fst
  else s.hubHop (epNum e)

/-- The UP ring and bypass ports but the arrival port (R354). -/
def State.ringPorts (s : State) (from_ : Nat) : List Nat :=
  (List.range 8).filter fun p => p != from_ && s.portUp p && decide (1 ≤ s.role p) && decide (s.role p ≤ 4)

/-- The UP trunk ports of a head but the arrival port (R354). -/
def State.trunkPorts (s : State) (from_ : Nat) : List Nat :=
  if s.headState == 1 || s.headState == 2 then
    (List.range 8).filter fun p => p != from_ && s.portUp p && (s.role p == rTrunkE || s.role p == rTrunkW)
  else []

/-- The port opposite the arrival port, at a hub without an address (01_architecture.md R18). -/
def State.opposite (s : State) (p : Nat) : Option Nat :=
  let r := s.role p
  if 1 ≤ r ∧ r ≤ 4 then s.upPortOf (facingRole r) else none

/-- The cells of a packet (R367, R271). -/
def packetCells (p : Packet) : Nat := ceilDiv (48 + p.params.length) 240

/-- A packet for the service SPI host joins Q61 (12_command_packets.md R399, R402). (DEDUCED, log entry 14). -/
def State.toQ61 (s : State) (op : Nat) (p : Packet) : State := s.enqueue (qitem 61 (packetCells p) (.packet op p) 8 false)

/-- A packet into the class C egress queue of a port. -/
def State.pushC (s : State) (port op : Nat) (p : Packet) (from_ : Nat) : State :=
  s.enqueue (qitem (4 * port) (packetCells p) (.packet op p) from_ (bit p.b21 0))

/-- A class T cell into the egress queue of a port. -/
def State.pushT (s : State) (port : Nat) (c : Ctl) (from_ : Nat) : State :=
  s.enqueue (qitem (4 * port + 1) 1 c from_ false)

/-- Hold an entry that has no route, for up to 10 ms (R353). (DEDUCED, log entry 61). -/
def State.holdItem (s : State) (i : QItem) : State :=
  s.onQm fun m => { m with holdItems := m.holdItems ++ [⟨i, s.now⟩] }

/-- The ports a packet goes out by, from arrival `from_` (8 for one this hub sends): R354, R371, and R18 for a hub
without an address. A packet not scoped has at most one port. -/
def State.packetPorts (s : State) (dest from_ : Nat) : List Nat :=
  if epScope dest = 0 then
    if s.address.isNone then (s.opposite from_).toList else (s.unicastHop dest).toList
  else if s.address.isNone then s.ringPorts from_
  else if epScope dest = 1 then
    if segOf dest = segOf s.addr then s.ringPorts from_ else (s.hubHop (segOf dest * 64)).toList
  else s.ringPorts from_ ++ s.trunkPorts from_

/-- Send a packet on: into the class C queues of its ports; held where its route is missing or leads back out of its
arrival port (R353, R354). -/
def State.forward (s : State) (op : Nat) (p : Packet) (from_ : Nat) : State :=
  let ports := s.packetPorts p.dest from_
  let toward := epScope p.dest = 0 ∨ (epScope p.dest = 1 ∧ segOf p.dest ≠ segOf s.addr)
  if toward ∧ (ports.isEmpty ∨ ports.contains from_) then
    s.holdItem (qitem 0 (packetCells p) (.packet op p) from_ (bit p.b21 0))
  else ports.foldl (fun s q => s.pushC q op p from_) s

/-- A packet that this hub originates, or a reply of its own: to the service SPI's Q61 where its destination is the SPI
host of this hub (R402), else onto the ports. -/
def State.sendPacket (s : State) (op : Nat) (p : Packet) : State :=
  if epScope p.dest = 0 ∧ epKind p.dest = 7 ∧ (epNum p.dest = s.addr ∨ s.address.isNone) then
    s.toQ61 op p
  else s.forward op p 8

end Sys2Proof.Machine
end

