-- ==== Sys2Proof/Machine/Queue.lean ====
section
/-!
DEFINITION. What every queue does (09_queues_and_retention.md): pushes (R274), gap records (R213, R287), drops, freeing,
watermarks (R284) and rewinds (R279, R280).
-/

namespace Sys2Proof.Machine

open Reg Bits

/-- The payload of a gap record (07_panes_and_triggers.md R213). -/
def Gap.image (g : Gap) : List Byte :=
  le 8 g.first ++ le 8 g.last ++ le 8 g.stLast ++ le 1 g.rtype ++ le 1 g.reason ++ le 2 0 ++ le 4 g.records

/-- Do two gaps adjoin and name the same records (R287)? -/
def Gap.adjoins (a b : Gap) : Bool :=
  a.rtype == b.rtype && a.reason == b.reason && (a.last + 1 == b.first || b.last + 1 == a.first)

/-- Two gaps as one. -/
def Gap.merge (a b : Gap) : Gap :=
  { a with first := min a.first b.first, last := max a.last b.last,
           stLast := if b.last > a.last then b.stLast else a.stLast, records := a.records + b.records }

/-- Change the held records that satisfy a test. -/
def State.onRecs (s : State) (p : Rec → Bool) (f : Rec → Rec) : State :=
  s.onQm fun m => { m with recs := mapIf p f m.recs }

/-- Change the held record with a number. -/
def State.onRec (s : State) (id : Nat) (f : Rec → Rec) : State := s.onRecs (fun r => r.id == id) f

/-- Give the record that precedes a gap in index order GAP_FOLLOWS, if it is still held (R213). (DEDUCED, log entry 55). -/
def State.markGapFollows (s : State) (rtype addr pane first : Nat) : State :=
  let before := fun (r : Rec) => r.rtype == rtype && r.addr == addr && r.pane == pane && r.last + 1 == first
  s.onRecs before fun r => { r with flags := withFlag r.flags fGapFollows }

/-- Declare a gap: merged into a held gap record of which no cell has been sent, if one adjoins it, else a new record of
type 0x09 on Q49 (R213, R287). `st` is the first missing sample, `count` the missing samples or records. -/
def State.addGap (s : State) (g : Gap) (addr rate grid pane st count : Nat) : State :=
  let s := s.markGapFollows g.rtype addr pane g.first
  let fits := fun (r : Rec) => r.rtype == 9 && r.addr == addr && r.pane == pane && r.popped == 0 && r.deliveredAt.isNone
    && match r.gapOf with
      | some h => h.adjoins g
      | none => false
  let join := fun (r : Rec) => match r.gapOf with
    | some h =>
      { r with gapOf := some (h.merge g), payload := (h.merge g).image, count := satN 16 (r.count + count),
               st := if g.first < h.first then st else r.st, stLast := if g.first < h.first then st else r.st }
    | none => r
  match s.qm.recs.find? fits with
  | some r => s.onRec r.id join
  | none =>
    (s.bump QM_DROP_STAT QM_DROP_STAT_GAPS).addSeqRec
      { blankRec with rtype := 9, addr := addr, rate := rate, tqByte := s.tqByte false + grid, pane := pane, st := st,
                      stLast := st, count := satN 16 count, payload := g.image, gapOf := some g }

/-- Take a held record away: its cells and its place in retention are free. -/
def State.freeRec (s : State) (id : Nat) : State :=
  s.onQm fun m => { m with recs := m.recs.filter fun r => r.id != id }

/-- Drop a held record and declare it (R213, R286, R293; 14_memory_and_ecc.md Table 14-3). -/
def State.dropRec (s : State) (r : Rec) (reason : Nat) : State :=
  (s.freeRec r.id).addGap ⟨r.rtype, reason, r.first, r.last, r.stLast, 1⟩ r.addr r.rate (r.tqByte / 8 % 2 * 8) r.pane r.st r.count

/-- Traffic class of a record type: B for counter dumps and history extracts, else S (Table 07-3). -/
def classOf (rtype : Nat) : Nat := if rtype == 6 || rtype == 7 then 3 else 2

/-- The queues a record passes: its egress queue under the present routes (R279, Table 01-6 step 6). -/
def State.egressOf (s : State) (r : Rec) : Nat :=
  match s.recordHop r.addr with
  | some (p, _) => 4 * p + classOf r.rtype
  | none => 64

/-- The tier a record drops in (R286): class B, then by rising priority panes before streams. -/
def Rec.tier (r : Rec) : Nat := if r.rtype = 6 ∨ r.rtype = 7 then 0 else 1 + 2 * r.prio + (if r.rtype = 2 then 0 else 1)

/-- The record that drops next: the lowest tier, the oldest within it. -/
def State.nextDrop (s : State) : Option Rec :=
  s.qm.recs.foldl (fun (b : Option Rec) r =>
    if r.droppable && !(r.place == .sending) then match b with
      | none => some r
      | some x => if r.tier < x.tier ∨ (r.tier = x.tier ∧ r.closedAt < x.closedAt) then some r else some x
    else b) none

/-- Cells have entered queue `q` (R276; 17_counters_and_test.md Table 17-1). -/
def State.pushed (s : State) (q k : Nat) : State :=
  let s := s.pmc 0x801 q k
  if k = 0 ∨ 32 ≤ q then s
  else s.onQst q fun x => { x with pushed := (s.clock, k + if x.pushed.1 = s.clock then x.pushed.2 else 0) }

/-- The depth of queue `q` at the start of the present clock (R276). -/
def State.depthAtStart (s : State) (q : Nat) : Nat :=
  let x := (s.qst q).pushed
  s.depth q - if x.1 = s.clock then x.2 else 0

/-- A pop of queue `q` fails at depth 0: its consumer meets the last cell again, with EMPTY set (R275). -/
def State.underrun (s : State) (q : Nat) : State :=
  (((s.setBit (QM_Q_FLAGS q) QM_Q_FLAGS_UNDERRUN 0).mark (queueCount q 0) 0 1)).onQst q fun x => { x with underruns := satN 16 (x.underruns + 1) }

/-- One record's cells enter the queue it was formed in and then its egress queue, as far as there is room (R271, R274).
Counts pushes completed (Table 17-1). -/
def State.pushRec (s : State) (r : Rec) : State :=
  if r.place != .queued && r.place != .engine then s
  else
    let q := if r.place == .engine then 64 else if r.popped = 0 && r.entered = 0 then s.egressOf r else r.q
    let a := min (r.cells - r.entered - r.inAsm) (s.room r.aq)
    let s := s.onRec r.id fun x => { x with inAsm := x.inAsm + a, q := q }
    let s := s.pmc 0x801 r.aq a
    if q ≥ 64 then s
    else
      let b := min (r.inAsm + a) (s.room q)
      let s := s.onRec r.id fun x => { x with inAsm := x.inAsm - b, entered := x.entered + b }
      s.pushed q b

/-- One packet's cells enter their queue, as far as there is room (R274). -/
def State.pushItems (s : State) : List QItem → List QItem → State
  | done, [] => s.onQm fun m => { m with items := done }
  | done, i :: rest =>
    let cur := s.onQm fun m => { m with items := done ++ i :: rest }
    let k := min (i.cells - i.entered) (cur.room i.q)
    State.pushItems (s.pushed i.q k) (done ++ [{ i with entered := i.entered + k }]) rest

/-- The mirror cells of Q59 go to the class B queue of the first hop toward the active head, if one is known
(15_porter_management.md R474); the active head keeps its own entries in its black box alone. -/
def State.routeMirror (s : State) : State :=
  if s.isActive then s.onQm fun m => { m with items := m.items.filter fun i => i.q != 59 }
  else if !(s.qm.items.any fun i => i.q == 59) then s
  else match s.recordHop (s.noChan) with
    | some (p, _) => s.onQm fun m => { m with items := mapIf (fun i => i.q == 59) (fun i => { i with q := 4 * p + 3, entered := 0 }) m.items }
    | none => s

/-- The announcements that stand in Q55 whole go on to the class C queues of their ports (07_panes_and_triggers.md R234). -/
def State.routeAnnounce (s : State) : State :=
  let whole := fun (i : QItem) => i.q == 55 && decide (i.cells ≤ i.entered)
  if !(s.qm.items.any whole) then s
  else
    let go := s.qm.items.filter whole
    let s := go.foldl (fun s i => match i.ctl with
      | .packet op p => s.sendPacket op p
      | _ => s) (s.onQm fun m => { m with items := m.items.filter fun i => !whole i })
    s.pushItems [] s.qm.items

/-- Judge a queue's watermark pair on its held count, at the end of a clock but that in which the pair changed (R284, R295): a rise sets CROSSED and counts in CROSSINGS, a rise and a
fall issue WATERMARK, at most ten a second for the queue. (DEDUCED, log entry 55). -/
def State.watermark (s : State) (q : Nat) : State :=
  let hi := s.fld (QM_Q_WM q) QM_Q_WM_LINTEL
  let lo := s.fld (QM_Q_WM q) QM_Q_WM_SILL
  let h := s.held q
  let lvl := (s.qst q).level
  if hi = 0 then s.onQst q fun x => { x with level := false }
  else if (s.qst q).pairIn == some s.clock then s
  else if !lvl && decide (h ≥ hi) then
    (((s.onQst q fun x => { x with level := true }).setBit (QM_Q_FLAGS q) QM_Q_FLAGS_CROSSED 0).bump (QM_Q_FLAGS q)
      QM_Q_FLAGS_CROSSINGS).issueLim 0x8001 q 10 3 false [q, 1, h, 0]
  else if lvl && decide (h < lo) then
    (s.onQst q fun x => { x with level := false }).issueLim 0x8001 q 10 3 false [q, 0, h, 0]
  else s

/-- The queues whose watermark pair is set: those whose QM_Q_WM word differs from its reset value. -/
def State.watched (s : State) : List Nat :=
  s.regs.filterMap fun e =>
    if 0x80000 ≤ e.1 ∧ e.1 < 0x80800 ∧ e.1 % 0x20 = 4 then some ((e.1 - 0x80000) / 0x20) else none

/-- While a record of Q49 finds no cell, records drop in the order of R286 (R287). -/
def State.easeEvents (s : State) : Nat → State
  | 0 => s
  | fuel + 1 =>
    let waits := s.qm.recs.any fun r => r.aq == 49 && r.place == .queued && decide (r.entered + r.inAsm < r.cells)
    if !waits || !s.noCell 49 then s
    else match s.nextDrop with
      | some r => State.easeEvents (s.dropRec r 0) fuel
      | none => s

/-- The four words of shutter `i` as they act now: a change applies from the clock that follows it (R289). -/
def State.shutWords (s : State) (i : Nat) : List Word :=
  match (Tab.get none s.qm.shutOld i).filter fun o => o.1 == s.clock with
  | some o => o.2
  | none => [s.rd (QM_SHUT_CTRL i), s.rd (QM_SHUT_HUB i), s.rd (QM_SHUT_CHAN i), s.rd (QM_SHUT_TYPE i)]

/-- Does shutter `i` match a record or cell of class `cls` (R291)? -/
def State.shutMatches (s : State) (i cls rtype addr : Nat) : Bool :=
  let hub := bits addr 10 11
  let ch := bits addr 0 10
  let w := s.shutWords i
  let at_ := fun (k : Nat) (f : Fld) => wfld (w.getD k 0#32) f
  at_ 0 QM_SHUT_CTRL_ACTIVE == 1
    && ((cls == 2 && at_ 0 QM_SHUT_CTRL_CLS_S == 1) || (cls == 3 && at_ 0 QM_SHUT_CTRL_CLS_B == 1))
    && decide (at_ 1 QM_SHUT_HUB_HUB_FIRST ≤ hub) && decide (hub ≤ at_ 1 QM_SHUT_HUB_HUB_LAST)
    && decide (at_ 2 QM_SHUT_CHAN_CH_FIRST ≤ ch) && decide (ch ≤ at_ 2 QM_SHUT_CHAN_CH_LAST)
    && decide (1 ≤ rtype) && bit (at_ 3 QM_SHUT_TYPE_TYPES) (rtype - 1)

/-- The installed shutters, by their entries. -/
def State.shutters (s : State) : List Nat := (List.range 32).filter fun i => s.on (QM_SHUT_CTRL i) QM_SHUT_CTRL_ACTIVE

/-- Is record type `rtype` never discarded: a DISCARD shutter treats it as HOLD (R293)? -/
def neverDiscarded (rtype : Nat) : Bool := rtype == 4 || rtype == 5 || rtype == 9

/-- Does shutter `i` hold a record or cell back (R292, R293), or discard it? -/
def State.shutHolds (s : State) (i cls rtype addr : Nat) : Bool :=
  s.shutMatches i cls rtype addr && (wfld ((s.shutWords i).getD 0 0#32) QM_SHUT_CTRL_DISCARD == 0 || neverDiscarded rtype)
def State.shutDiscards (s : State) (i cls rtype addr : Nat) : Bool :=
  s.shutMatches i cls rtype addr && wfld ((s.shutWords i).getD 0 0#32) QM_SHUT_CTRL_DISCARD == 1 && !neverDiscarded rtype

/-- The records that installed DISCARD shutters match, but those in the engine, are dropped with reason 1 (R293, Table
10-6). -/
def State.discardShut (s : State) : State :=
  if s.shutters.isEmpty && s.qm.shutOld.isEmpty then s
  else
    let hit := fun (r : Rec) => r.place != .engine && (List.range 32).any fun i => s.shutDiscards i (classOf r.rtype) r.rtype r.addr
    (s.qm.recs.filter hit).foldl (fun s r => s.dropRec r 1) s

/-- Retention in use, in bytes of whole extents of 64 KiB (QM_RET_USED). -/
def State.retUsed (s : State) : Nat := 65536 * ((s.qm.recs.flatMap Rec.exts).eraseDups).length

/-- FILL of QM_RET_STAT. -/
def State.retFillNow (s : State) : Nat := if s.retArea = 0 then 0 else satN 8 (s.retUsed * 256 / s.retArea)

/-- Does retention leave 1/32 of the area free outside its reserve of 1/64 (R286)? -/
def State.retEased (s : State) : Bool := decide (s.retUsed + s.retArea / 64 + s.retArea / 32 ≤ s.retArea)

/-- Retention leaves its exhausted state once enough is free again (R286). -/
def State.retNormal (s : State) : State :=
  if s.qm.exhausted && s.retEased then
    ((s.setFld QM_DROP_STAT QM_DROP_STAT_EXHAUSTED 0).issue 0x8003 [0, s.retFillNow, s.qm.dropped]).onQm fun m =>
      { m with exhausted := false, dropped := 0 }
  else s

/-- Once space returns, the events withheld are reported (R287). -/
def State.reportWithheld (s : State) : State :=
  if s.qm.withheld = 0 || s.eventsBlocked then s
  else (s.onQm fun m => { m with withheld := 0 }).issue 0x8005 [s.qm.withheld]

/-- The cells of forming and waiting records that an assembly queue stages (09_queues_and_retention.md R274). -/
def State.staged (s : State) (q : Nat) : Nat :=
  (s.qm.asm.foldl (fun n a => if a.aq = q then n + (a.cells - a.inAsm) else n) 0)
    + s.qm.recs.foldl (fun n r => if r.aq = q ∧ r.place = .queued then n + (r.cells - r.entered - r.inAsm) else n) 0

/-- Declare the samples that were discarded under a full staging, once the queue takes cells again (R274, R213). -/
def State.flushLost (s : State) : State :=
  let due := s.qm.lost.filter fun l => decide (s.staged l.aq < 16)
  due.foldl (fun s l => s.addGap ⟨l.rtype, 2, l.first, l.last, l.stLast, 0⟩ l.addr l.rate l.grid l.pane l.st l.count)
    (s.onQm fun m => { m with lost := m.lost.filter fun l => !(due.contains l) })

/-- The filled cells of forming records enter their assembly queues as far as there is room (R274). (DEDUCED, log entry 55). -/
def State.pushAsm (s : State) : State :=
  s.qm.asm.foldl (fun s a =>
    let k := min ((32 + a.values.length * sampleBytes a.fmt) / 240 - a.inAsm) (s.room a.aq)
    (s.onQm fun m => { m with asm := mapIf (fun x => x.key == a.key) (fun x => { x with inAsm := x.inAsm + k }) m.asm }).pmc 0x801 a.aq k) s

/-- A closed record that asks for compression enters Q50, or goes on uncompressed where Q50 is full (10_compression.md R301,
R304). -/
def State.addClosed (s : State) (r : Rec) : State :=
  if !r.wantCmp then s.addRec r
  else if s.full 50 then (s.bump CMP_ERR CMP_ERR_BYPASSED).addRec { r with wantCmp := false }
  else s.addRec { r with place := .engine, aq := 50, inAsm := 0, ctrl := s.rd CMP_CTRL }

/-- The record that a record in assembly becomes with a payload. -/
def Asm.record (a : Asm) (payload : List Byte) : Rec :=
  { blankRec with rtype := a.rtype, addr := a.addr, fmt := a.fmt, first := a.first, last := a.last, st := a.st, stLast := a.stLast,
                  rate := a.rate, tqByte := a.tqByte, flags := a.flags ||| a.recFlags, count := a.values.length, pane := a.pane,
                  payload := payload, prio := a.prio, wantCmp := a.wantCmp, aq := a.aq, inAsm := a.inAsm }

/-- The records of digital and auxiliary channels close when their period has passed (07_panes_and_triggers.md R202, R203).
(DEDUCED, log entry 73). -/
def State.closeAux (s : State) : State :=
  (s.qm.asm.filter fun a => decide (512 ≤ a.key) && decide (a.key < 1024) && decide (a.period < periodOf a.recMs s.served)).foldl (fun s a =>
    (s.onQm fun m => { m with asm := m.asm.filter fun x => x.key != a.key }).addClosed (a.record (a.values.flatMap fun v => leI 4 v))) s

/-- The end of every command: matching records are discarded, records whose period has passed close, and waiting pushes complete as far
as cells are free. (DEDUCED, log entries 6 and 55). -/
def State.settle (s : State) : State :=
  let s := if s.qm.asm.isEmpty then s else s.closeAux
  let s := s.routeMirror.discardShut
  let s := (s.easeEvents s.qm.recs.length).retNormal.reportWithheld
  let s := s.qm.recs.foldl (fun s r => s.pushRec r) s
  let s := (s.pushItems [] s.qm.items).routeAnnounce
  let s := if s.qm.asm.isEmpty then s else s.pushAsm
  if s.qm.lost.isEmpty then s else s.flushLost

/-- The end of a clock: the watermarks are judged on the held counts (R284). -/
def State.endClock (s : State) : State := s.watched.foldl (fun s q => s.watermark q) s

/-- A clock begins: the shutters installed in the one before act (R289). -/
def State.newClock (s : State) : State :=
  if s.qm.shutOld.isEmpty then s else s.discardShut.onQm fun m => { m with shutOld := [] }

/-- A cause asks for a rewind of queue `q`; two causes before its record boundary make one rewind (R280).
(DEDUCED, log entry 57). -/
def State.askRewind (s : State) (q cause : Nat) : State :=
  s.onQst q fun x => { x with rewindCause := x.rewindCause.orElse fun _ => some cause }

/-- Put the records `moved` ahead of the records of queue `q` that wait undelivered, behind one that is being sent (R279,
R280). (DEDUCED, log entry 57). -/
def moveAhead (q : Nat) (moved rest : List Rec) : List Rec :=
  let stay := fun (r : Rec) => r.q != q || r.deliveredAt.isSome || r.place == .sending || r.place == .retention
  rest.takeWhile stay ++ moved ++ rest.dropWhile stay

/-- The rewind of queue `q` (R279, R280): its delivered, unreleased records are linked again ahead of the undelivered
ones, in their order and with RESENT; records in retention are to be brought back; records whose route has moved go to
the queue of the port in use now. (DEDUCED, log entry 57). -/
def State.rewind (s : State) (q cause : Nat) : State :=
  let mine := fun (r : Rec) => r.q == q && r.deliveredAt.isSome && (r.place == .delivered || r.place == .retention || r.place == .spilling)
  let again := s.qm.recs.filter mine
  let back := fun (r : Rec) => { r with popped := 0, resent := true, deliveredAt := none,
                                        place := if r.place == .retention then Place.returning
                                                 else if r.place == .spilling then Place.spilling else Place.queued }
  let s := s.onRecs mine back
  let goes := s.qm.recs.filter fun r => r.q == q && r.place != .sending && r.deliveredAt.isNone
  let target := fun (r : Rec) => let e := s.egressOf r; if e = 64 then q else e
  let s := goes.foldl (fun s r =>
    if target r = q then s
    else s.onRec r.id fun x => { x with q := target r }) s
  let qs := (goes.map target).eraseDups.filter fun t => t != q
  let s := qs.foldl (fun s t =>
    s.onQm fun m =>
      let moved := m.recs.filter fun x => x.q == t && (goes.any fun g => g.id == x.id)
      { m with recs := moveAhead t moved (m.recs.filter fun x => !(moved.any fun g => g.id == x.id)) }) s
  let s := (s.onQst q fun x => { x with rewindCause := none, rewinds := satN 16 (x.rewinds + 1) }).mark (queueCount q 1) 0 1 |>.bump QM_RET_STAT QM_RET_STAT_REWINDS
  s.issue 0x8002 [q, cause, again.length, (again.head?.map Rec.st).getD 0]

/-- The own record that queue `q` sends next: the one partly sent, else the first that is whole in the queue and that no
shutter holds (R277, R292). -/
def State.nextRec (s : State) (q : Nat) : Option Rec :=
  let held := fun (r : Rec) => (List.range 32).any fun i => s.shutHolds i (classOf r.rtype) r.rtype r.addr
  match s.qm.recs.find? fun r => r.q == q && r.place == .sending && decide (r.popped < r.cells) with
  | some r => if held r then none else some r
  | none => s.qm.recs.find? fun r => r.q == q && r.place == .queued && r.inAsm == 0 && r.entered == r.cells && !held r

/-- The record that a RELEASE in the present clock has freed and that a pop in it still meets (R289). -/
def State.freedNow (s : State) (q : Nat) : Option Rec := ((s.qst q).freed.filter fun f => f.1 == s.clock).map Prod.snd

/-- The own record that a pop of queue `q` meets now. -/
def State.nextNow (s : State) (q : Nat) : Option Rec := (s.freedNow q).or (s.nextRec q)

/-- Is a record of queue `q` partly sent? -/
def State.sending (s : State) (q : Nat) : Bool := s.qm.recs.any fun r => r.q == q && r.place == .sending && decide (r.popped < r.cells)

/-- The end of a command's meaning: the next state, its queues settled. (DEDUCED, log entry 6). -/
def done (s : State) : Host.Outcome State Fault Refusal := .next s.settle

end Sys2Proof.Machine
end

