-- ==== Sys2Proof/Machine/Packets.lean ====
section
/-!
DEFINITION. Packets the hub forms (12_command_packets.md R367 to R376, R381, R386, R389): header bytes, tags, replies,
completion reports, packets of its own, the reply cache.
-/

namespace Sys2Proof.Machine

open Reg Bits

/-- The status codes of Table 12-6. -/
def stOK : Nat := 0x0000
def stACCEPTED : Nat := 0x0001
def stDONE_BEFORE_ABORT : Nat := 0x0002
def stABORTED : Nat := 0x0003
def stBAD_OPCODE : Nat := 0x0100
def stBAD_PARAM : Nat := 0x0101
def stBAD_LENGTH : Nat := 0x0102
def stBAD_STATE : Nat := 0x0103
def stAUTH_FAIL : Nat := 0x0200
def stREPLAYED : Nat := 0x0201
def stNOT_PERMITTED : Nat := 0x0202
def stBUSY : Nat := 0x0300
def stNO_RESOURCE : Nat := 0x0301
def stNOT_LATCH_HOLDER : Nat := 0x0400
def stMEM_UNCORRECTABLE : Nat := 0x0500
def stMINIMAL_MODE : Nat := 0x0600
def stVERIFY_FAIL : Nat := 0x0700
def stTIMEOUT : Nat := 0x0800

/-- The 32 header bytes of a packet (Table 12-1). -/
def headerBytes (op : Nat) (p : Packet) : List Byte :=
  le 1 p.version ++ le 1 p.flags ++ le 2 op ++ le 2 p.tag ++ le 2 p.source ++ le 2 p.dest ++ le 2 p.length ++ le 2 p.slot
    ++ le 2 p.rsvd14 ++ le 4 p.counter ++ le 1 p.ttl ++ le 1 p.b21 ++ p.rsvd22

/-- The bytes of a packet on a link or on the service SPI (R367). -/
def packetBytes (op : Nat) (p : Packet) : List Byte := headerBytes op p ++ p.params ++ p.mac

/-- The tag of a packet under a key: byte 20 enters as 0 (R373). -/
def packetMac (key : List Byte) (op : Nat) (p : Packet) : List Byte := cmac key (headerBytes op { p with ttl := 0 } ++ p.params)

/-- The credential in a slot, if it holds one. With NVM failed slot 0 alone stands, from its fuse copy (R374,
14_memory_and_ecc.md R456). -/
def State.cred (s : State) (slot : Nat) : Option Cred :=
  if s.memFailed 3 && slot != 0 then none
  else match s.nvm.creds[slot]? with
    | some c => if c.valid then some c else none
    | none => none

/-- This hub as an endpoint (R368). -/
def State.endpoint (s : State) : Nat := s.addr

/-- A reply or report to a caller: REPLY, REPORT for a completion report, the caller's opcode, tag, slot and counter, the
status in the first word (R381). (DEDUCED, log entry 15). -/
def replyPacket (s : State) (c : Caller) (report : Bool) (params : List Byte) (zeroTag : Bool) : Packet :=
  let p : Packet :=
    { arrival := 8, version := 1, flags := if report then 3 else 1, tag := c.tag, source := s.endpoint, dest := c.source,
      length := params.length, slot := c.slot, rsvd14 := 0, counter := c.counter, ttl := 64, b21 := 0,
      rsvd22 := List.replicate 10 0#8, params := params, mac := [] }
  { p with mac := if zeroTag then List.replicate 16 0#8 else packetMac c.key c.opcode p }

/-- A reply leaves: to Q61 for a command that came over the service SPI, else by its route (R402, R353). -/
def State.emit (s : State) (c : Caller) (p : Packet) : State :=
  if c.arrival = 8 then s.toQ61 c.opcode p else s.sendPacket c.opcode p

/-- The parameters of a reply: status word, then the fields the command defines, to a multiple of 4 (R381, R380). -/
def replyParams (status : Nat) (data : List Byte) : List Byte := le 4 status ++ pad4 data

/-- The entries of the reply cache that have not reached their 60 s (R386). -/
def State.cached (s : State) : List Cached := s.cmd.cache.filter fun e => decide (s.now < e.at_ + fineMs 60000)

/-- The key of a reply-cache entry (R386). -/
def Cached.isFor (e : Cached) (c : Caller) : Bool :=
  e.source == c.source && e.slot == c.slot && e.tag == c.tag && e.opcode == c.opcode && e.paramCrc == c.paramCrc

/-- Take a unicast command into the reply cache with the last reply sent (none yet: empty), the oldest entry going where
256 are held (R386). (DEDUCED, log entry 9). -/
def State.cacheReply (s : State) (c : Caller) (reply : List Byte) (report : Bool) : State :=
  if c.isScoped || s.cacheFailed then s
  else if s.cached.any (fun e => e.isFor c) then
    s.onCmd fun m => { m with cache := mapIf (fun e => e.isFor c) (fun e => { e with reply := reply, report := report }) m.cache }
  else
    let s := s.onCmd fun m => { m with cache := s.cached }
    let s' := if s.cmd.cache.length ≥ 256 then (s.bump CMD_CACHE CMD_CACHE_EVICTIONS).onCmd fun m => { m with cache := m.cache.drop 1 } else s
    s'.onCmd fun m => { m with cache := m.cache ++ [⟨c.source, c.slot, c.tag, c.opcode, c.paramCrc, reply, report, c.counter, s.now⟩] }

/-- Does a reply with this status go out: always for a unicast command; for a scoped one only where the status is neither
OK nor ACCEPTED, or ACK_ALL is set (R381)? A TRIGGER_ANNOUNCE that a hub originated gets none (07_panes_and_triggers.md R242). -/
def Caller.hears (c : Caller) (status : Nat) : Bool :=
  !(c.origin && c.opcode == 0x6004) && (!c.isScoped || c.ackAll || (status != stOK && status != stACCEPTED))

/-- Reply to a caller and remember the reply, but for BUSY and NO_RESOURCE, of which the reply cache keeps no entry
(R381, R386). (DEDUCED, log entry 9). -/
def State.reply (s : State) (c : Caller) (status : Nat) (data : List Byte) : State :=
  let ps := replyParams status data
  let s' := if status = stBUSY ∨ status = stNO_RESOURCE then s.onCmd fun m => { m with cache := m.cache.filter fun e => !(e.isFor c) }
    else s.cacheReply c ps false
  if c.hears status then s'.emit c (replyPacket s c false ps false) else s'

/-- Porter answers a command that it has kept waiting; after a TIMEOUT the reply is discarded (R387). -/
def State.answer (s : State) (c : Caller) (status : Nat) (data : List Byte) : State :=
  if s.cmd.inflight.any (fun e => e.1 == c) then
    (s.onCmd fun m => { m with inflight := m.inflight.filter fun e => e.1 != c }).reply c status data
  else s

/-- The completion report of a long operation; the operation ends (R389). -/
def State.report (s : State) (c : Caller) (status : Nat) (data : List Byte) : State :=
  let ps := replyParams status data
  let s' := (s.onCmd fun m => { m with ops := m.ops.filter fun o => o.caller != c }).cacheReply c ps true
  if c.hears status then s'.emit c (replyPacket s c true ps false) else s'

/-- Does a long operation of this caller run? -/
def State.running (s : State) (c : Caller) : Bool := s.cmd.ops.any fun o => o.caller == c

/-- Served time in units of 2^-16 s, bits [55:24] of its ST64 (R376). -/
def State.originClock (s : State) : Nat := s.st / 2 ^ 24 % 2 ^ 32

/-- A packet that this hub sends on its own account, under the key of `slot` (R376): HUB_ORIGIN, the counter from served
time, the tag from the hub's count; entered among those that await a reply with its purpose (R544), and handed to `send`. Nothing is
sent where the slot holds no key. -/
def State.originateBy (send : State → Nat → Packet → State) (s : State) (op dest slot ttl purpose : Nat) (params : List Byte) : State :=
  match s.cred slot with
  | none => s
  | some c =>
    let p : Packet :=
      { arrival := 8, version := 1, flags := 4, tag := s.cmd.originTag, source := s.endpoint, dest := dest,
        length := params.length, slot := slot, rsvd14 := 0, counter := s.originClock, ttl := ttl, b21 := 0,
        rsvd22 := List.replicate 10 0#8, params := params, mac := [] }
    let p := { p with mac := packetMac c.key op p }
    let s := s.onCmd fun m => { m with
      originTag := (m.originTag + 1) % 65536,
      awaited := m.awaited ++ [⟨op, p.tag, slot, p.counter, s.now, purpose⟩] }
    send s op p

/-- The same, sent by its route at once. -/
def State.originate (s : State) (op dest slot ttl purpose : Nat) (params : List Byte) : State :=
  State.originateBy State.sendPacket s op dest slot ttl purpose params

end Sys2Proof.Machine
end

