-- ==== Sys2Proof/Machine/Links.lean ====
section
/-!
DEFINITION. Link state and port state as other blocks act on them (11_serial_lanes_and_syrilink.md R339, R350 to R352,
Table 09-4).
-/

namespace Sys2Proof.Machine

open Reg Bits

/-- Send this hub's link state on its UP ring and bypass ports; a change raises the generation (R350). A hub without an
address sends none (01_architecture.md R18). -/
def State.sendLinkState (s : State) (changed : Bool) : State :=
  if s.address.isNone then s
  else
    let s := if changed then s.setFld LNK_ROUTE_CFG LNK_ROUTE_CFG_GEN ((s.fld LNK_ROUTE_CFG LNK_ROUTE_CFG_GEN + 1) % 65536) else s
    let s := s.onLnk fun l => { l with refreshedAt := s.now }
    (s.ringPorts 8).foldl (fun s p => s.pushT p (.linkState s.ownLink) 8) s

/-- A hop as LNK_ROUTE_STAT shows it: port and hops, 0xF and 0xFF for none. -/
def hopCode (h : Option (Nat × Nat)) : Nat × Nat :=
  match h with
  | some (p, k) => (p, min k 254)
  | none => (0xF, 0xFF)

/-- Recompute the routes of records: a changed first hop, or a changed active head, is a re-route, which issues REROUTE and
asks for the rewinds of Table 09-4 (R351, R352). (DEDUCED, log entries 57 and 61). -/
def State.reroute (s : State) : State :=
  let even := hopCode (s.recordHop (s.addr * 1024))
  let odd := hopCode (s.recordHop (s.addr * 1024 + 8))
  let oldE := s.fld LNK_ROUTE_STAT LNK_ROUTE_STAT_PORT_EVEN
  let oldO := s.fld LNK_ROUTE_STAT LNK_ROUTE_STAT_PORT_ODD
  let head := s.activeHead
  let moved := head != s.lnk.lastHead
  let s := (((s.setFld LNK_ROUTE_STAT LNK_ROUTE_STAT_PORT_EVEN even.1).setFld LNK_ROUTE_STAT LNK_ROUTE_STAT_HOPS_EVEN even.2).setFld
    LNK_ROUTE_STAT LNK_ROUTE_STAT_PORT_ODD odd.1).setFld LNK_ROUTE_STAT LNK_ROUTE_STAT_HOPS_ODD odd.2
  let s := match head with
    | some h => (s.setFld LNK_ROUTE_CFG LNK_ROUTE_CFG_HEAD_VALID 1).setFld LNK_ROUTE_CFG LNK_ROUTE_CFG_HEAD_POS (posOf h)
    | none => (s.setFld LNK_ROUTE_CFG LNK_ROUTE_CFG_HEAD_VALID 0).setFld LNK_ROUTE_CFG LNK_ROUTE_CFG_HEAD_POS 0
  let s := s.onLnk fun l => { l with lastHead := head }
  let gen := s.fld LNK_ROUTE_CFG LNK_ROUTE_CFG_GEN
  let s := if oldE != even.1 || moved then s.issue 0xA005 [gen, oldE, even.1, 0] else s
  let s := if oldO != odd.1 || moved then s.issue 0xA005 [gen, oldO, odd.1, 1] else s
  if moved then
    (List.range 8).foldl (fun s p => (s.askRewind (4 * p + 2) 2).askRewind (4 * p + 3) 2) s
  else
    let s := if oldE != even.1 && oldE != 0xF then (s.askRewind (4 * oldE + 2) 1).askRewind (4 * oldE + 3) 1 else s
    if oldO != odd.1 && oldO != 0xF then (s.askRewind (4 * oldO + 2) 1).askRewind (4 * oldO + 3) 1 else s

/-- A port takes a state: PORT_STATE is issued, the link state is sent, and routes are recomputed (R350, R351, R366). -/
def State.setPort (s : State) (p new cause : Nat) : State :=
  let old := s.pstate p
  if old = new then s
  else
    let s := s.setFld (LNK_PORT_STAT p) LNK_PORT_STAT_STATE new
    let s := s.issue 0xA001 [p, old, new, s.fld (LNK_PORT_STAT p) LNK_PORT_STAT_RATE_NOW, s.fld (LNK_PORT_STAT p) LNK_PORT_STAT_WIDTH_NOW, cause]
    (s.sendLinkState true).reroute

/-- A port fails: its S and B queues rewind, their records to go by the port routing now uses (Table 09-4 row 0). -/
def State.failPort (s : State) (p : Nat) : State := (s.askRewind (4 * p + 2) 0).askRewind (4 * p + 3) 0

end Sys2Proof.Machine
end

