-- ==== Sys2Proof/Machine/Head.lean ====
section
/-!
DEFINITION. What the RED block does in several commands (13_head_redundancy.md): head states, fencing, the mirror, the
ledger and journal, latch packets and their replies.
-/

namespace Sys2Proof.Machine

open Reg Bits

/-- Head state codes (Table 13-1). -/
def hNone : Nat := 0
def hStarting : Nat := 1
def hStandby : Nat := 2
def hActive : Nat := 3
def hFenced : Nat := 4

/-- The head state of this hub. -/
def State.head (s : State) : Nat := s.fld RED_STAT RED_STAT_STATE

/-- The epoch this head holds, or last held. -/
def State.epoch (s : State) : Nat := s.fld RED_EPOCH RED_EPOCH_EPOCH

/-- The partner's address (RED_PARTNER). -/
def State.partner (s : State) : Nat := s.fld RED_PARTNER RED_PARTNER_PARTNER

/-- Change head state: HEAD_STATE is issued, takeovers and fences are counted, the link state announces the new head state
(R412, R408, Table 13-11). -/
def State.setHead (s : State) (new cause : Nat) : State :=
  let old := s.head
  if old = new then s
  else
    let s := ((s.setFld RED_STAT RED_STAT_STATE new).setFld RED_STAT RED_STAT_HOLDS_LATCH (b2n (new == hActive))).onRed fun r =>
      { r with stateSince := s.now, requestSentAt := 0, requestOut := false, asking := false }
    let s := if new = hActive then s.bump RED_COUNT RED_COUNT_TAKEOVERS else if new = hFenced then s.bump RED_COUNT RED_COUNT_FENCES else s
    let s := s.issue 0xC001 [old, new, cause, s.epoch, s.fld RED_STAT RED_STAT_MIRROR_OK]
    (s.sendLinkState true).reroute

/-- Fence (R421): relay stops, the transit cells of classes S and B that wait for UPLINK are discarded and counted in
units of 256, head state 0 is announced; the witness, ledger and journal stop with state ACTIVE. -/
def State.fence (s : State) (cause : Nat) : State :=
  let up := s.portOf rUplink
  let waits := fun (i : QItem) => match up, i.ctl with
    | some p, .transit _ => i.q == 4 * p + 2 || i.q == 4 * p + 3
    | _, _ => false
  let n := (s.qm.items.filter waits).length
  let total := s.red.fenceCells + n
  let s := s.onQm fun m => { m with items := m.items.filter fun i => !waits i }
  let s := s.bumpBy RED_COUNT RED_COUNT_FENCE_DISCARDS (total / 256)
  (s.onRed fun r => { r with fenceCells := total % 256, replayLeft := none }).setHead hFenced cause

/-- The port a head cell takes: the PARTNER port on the direct path, the way to the partner on the ring path (R415). -/
def State.headPort (s : State) (ring : Bool) : Option Nat :=
  if ring then (s.firstHop false false (posOf s.partner)).map Prod.fst else s.upPortOf rPartner

/-- Send the partner a mirror or digest cell, given its sender, destination and path, on the path in use: direct while it is up,
else ring (R416). -/
def State.sendHead (s : State) (c : Nat → Nat → Nat → Ctl) : State :=
  let ring := !s.on RED_STAT RED_STAT_DIRECT_UP
  match s.headPort ring with
  | some p => s.pushT p (c s.addr s.partner (b2n ring)) 8
  | none => s

/-- Mirror one item to the partner, under the next mirror sequence number (R422). -/
def State.mirrorItem (s : State) (ty : Nat) (bytes : List Byte) : State :=
  let n := s.red.nextMirror + 1
  let s := (s.setFld RED_MIRROR RED_MIRROR_SEQ n).onRed fun r =>
    { r with nextMirror := n, unacked := r.unacked ++ [(n, ty, bytes)], mirror := r.mirror ++ [(n, ty, bytes)],
             ackedAt := if r.unacked.isEmpty then s.now else r.ackedAt }
  s.sendHead fun a b path => .mirror ⟨a, b, path, n, ty, [bytes]⟩

/-- The addresses of the state items (R422). (DEDUCED, log entry 63). -/
def stateAddrs : List Nat := [0xC0000, 0xC0100, 0xC0110, 0xC0120, 0xC0130, 0xA2000, 0x40000, 0x40100, 0x40200]

/-- The seven words from an address. -/
def State.sevenWords (s : State) (a : Nat) : List Word := (List.range 7).map fun i => s.rd (a + 4 * i)

/-- A state item's 32 bytes (Table 13-9 type 3). -/
def stateImage (a : Nat) (ws : List Word) : List Byte := le 4 a ++ ws.flatMap fun w => le 4 w.toNat

/-- Mirror one state item. -/
def State.mirrorState (s : State) (a : Nat) : State :=
  let ws := s.sevenWords a
  (s.mirrorItem 3 (stateImage a ws)).onRed fun r => { r with stateItems := (r.stateItems.filter fun e => e.1 != a) ++ [(a, ws)] }

/-- Mirror the state items that have changed since they were last mirrored (R422). (DEDUCED, log entry 6). -/
def State.mirrorChanges (s : State) : State :=
  if !s.isActive then s
  else stateAddrs.foldl (fun s a =>
    if (s.red.stateItems.find? fun e => e.1 == a) == some (a, s.sevenWords a) then s else s.mirrorState a) s

/-- The ledger window in units of 2^-40 s. -/
def State.ledgerAge (s : State) : Nat := sec40 (s.fld RED_CFG RED_CFG_LEDGER_AGE)

/-- The entries of the ledger window (R423). -/
def State.ledgerNow (s : State) : List Ledger := s.red.ledger.filter fun l => decide (resolveSt s.served40 l.st + s.ledgerAge ≥ s.served40)

/-- The replay of the ledger begins, with what it holds (R423). -/
def State.startReplaying (s : State) : State :=
  let l := s.ledgerNow
  s.onRed fun r => { r with replayLeft := some l, replayOldest := (l.head?.map Ledger.st).getD 0, replaySent := 0, replayAt := 0 }

/-- Where in the DRAM a ledger entry lies (R423; 14_memory_and_ecc.md R440). (DEDUCED, log entry 63). -/
def State.ledgerBase (s : State) (seq : Nat) : Nat := s.workBase + (Config.ledgerPlace seq).toNat

/-- A ledger entry is written to the DRAM, where its first or last word may be a partial write (14_memory_and_ecc.md R445). -/
def State.ledgerWrite (s : State) (seq : Nat) : State := (s.memWriteRange 0 (s.ledgerBase seq) 32 7).2

/-- Enter RELEASE entries that the active head relays into the ledger, and mirror them: entries older than LEDGER_AGE go,
and the oldest where 1,048,576 are held, with OVERFLOW (R408, R422, R423). -/
def State.ledgerAdd (s : State) (entries : List (List Byte)) : State :=
  entries.foldl (fun s e =>
    let s := s.mirrorItem 1 (e ++ le 8 s.st)
    let kept := s.ledgerNow
    let full := decide (kept.length ≥ 1048576)
    let s := if full then s.setBit RED_LEDGER RED_LEDGER_OVERFLOW 0 else s
    let l := (if full then kept.drop 1 else kept) ++ [⟨s.red.nextMirror, e, s.st⟩]
    let s := s.ledgerWrite s.red.nextMirror
    (s.onRed fun r => { r with ledger := l }).setFld RED_LEDGER RED_LEDGER_ENTRIES (satN 21 l.length)) s

/-- A journal item's 32 bytes (Table 13-9 type 2). -/
def Journal.image (j : Journal) : List Byte :=
  le 2 j.source ++ le 2 j.dest ++ le 2 j.opcode ++ le 2 j.tag ++ le 2 j.slot ++ le 2 j.status ++ le 4 j.counter ++ le 8 j.st ++ le 8 0

/-- Enter a command relayed from UPLINK into the journal, and mirror it; the last 4,096 are kept (R408, R422, R425). -/
def State.journalAdd (s : State) (op : Nat) (p : Packet) : State :=
  let j : Journal := ⟨s.red.nextMirror + 1, p.source, p.dest, op, p.tag, p.slot, 0xFFFF, p.counter, s.st⟩
  (s.mirrorItem 2 j.image).onRed fun r => { r with journal := (r.journal ++ [j]).drop (r.journal.length + 1 - 4096) }

/-- The reply to a journalled command passes: its status is entered, and the item mirrored again (R422). -/
def State.journalReply (s : State) (op : Nat) (p : Packet) : State :=
  let hit := fun (j : Journal) => j.opcode == op && j.tag == p.tag && j.source == p.dest && j.counter == p.counter && j.slot == p.slot
  match s.red.journal.find? hit with
  | none => s
  | some j =>
    let j' := { j with status := num p.params 0 2 }
    (s.mirrorItem 2 j'.image).onRed fun r => { r with journal := mapIf hit (fun x => { x with status := j'.status }) r.journal }

/-- Purposes of the packets this hub originates. -/
def puRequest : Nat := 1
def puRenew : Nat := 2
def puRelease : Nat := 3
def puDry : Nat := 4
def puReplay : Nat := 5
def puAnnounce : Nat := 6

/-- The segment of this head. -/
def State.mySeg (s : State) : Nat := segOf s.addr

/-- Send a latch packet to a witness address under HEAD_SLOT, with an epoch presented (R416, R434). -/
def State.sendLatch (s : State) (op wit purpose : Nat) (dry : Bool) (epoch : Nat) : State :=
  s.originate op wit (s.fld RED_CFG RED_CFG_HEAD_SLOT) 64 purpose (le 1 s.mySeg ++ le 1 (b2n dry) ++ le 2 0 ++ le 4 epoch)

/-- The two witness addresses. -/
def State.witA (s : State) : Nat := s.fld RED_WITNESS RED_WITNESS_WIT_A
def State.witB (s : State) : Nat := s.fld RED_WITNESS RED_WITNESS_WIT_B

/-- The other address of the pair. -/
def State.otherWit (s : State) (w : Nat) : Nat := if w = s.witA then s.witB else s.witA

/-- Witness entry `k` enters its quiet period of 250 ms (R420). -/
def State.startQuiet (s : State) (k : Nat) : State :=
  ((s.onWit k fun w => { w with lease := none, quiet := some (s.now + fineMs 250), best := none }).setFld (RED_WIT_STAT k) RED_WIT_STAT_HELD 0).setFld
    (RED_WIT_STAT k) RED_WIT_STAT_QUIET 1

/-- The quiet periods of every enabled entry start. -/
def State.quietAll (s : State) : State :=
  (List.range 4).foldl (fun s k => if s.on (RED_WIT_CFG k) RED_WIT_CFG_EN then s.startQuiet k else s) s

/-- The latest mirrored words of a state item. -/
def Red.mirrored (r : Red) (a : Nat) : Option (List Byte) :=
  r.mirror.foldl (fun b e => if e.2.1 = 3 ∧ num e.2.2 0 4 = a then some e.2.2 else b) none

/-- Word `i` of a mirrored state item is stored at its register. -/
def State.applyMirrored (s : State) (a : Nat) (is : List Nat) : State :=
  match s.red.mirrored a with
  | none => s
  | some bs => is.foldl (fun s i => s.wr (a + 4 * i) (word (num bs (4 + 4 * i) 4))) s

/-- On entering ACTIVE from STARTING or STANDBY the head applies the mirrored LNK_ROUTE_CFG, TB_CTRL and witness entries and epochs, takes the
mirrored ledger and journal as its own, starts its ledger replay, and its witness entries start a quiet period (R420,
R423, R424). -/
def State.takeOver (s : State) : State :=
  let own := s.rd LNK_ROUTE_CFG
  let s := s.applyMirrored 0xA2000 [0]
  let got := s.rd LNK_ROUTE_CFG
  let s := (s.wr LNK_ROUTE_CFG (setBits (setBits own LNK_ROUTE_CFG_SPLIT (wfld got LNK_ROUTE_CFG_SPLIT)) LNK_ROUTE_CFG_SEG_LAST
    (wfld got LNK_ROUTE_CFG_SEG_LAST))).reroute
  let s := s.applyMirrored 0x40000 [0]
  let s := [0xC0100, 0xC0110, 0xC0120, 0xC0130].foldl (fun s a => s.applyMirrored a [0, 1, 2]) s
  let now := s.served40
  let led := s.red.mirror.filterMap fun (e : Nat × Nat × List Byte) =>
    if e.2.1 = 1 ∧ resolveSt now (num e.2.2 24 8) + s.ledgerAge ≥ now then some (⟨e.1, e.2.2.take 24, num e.2.2 24 8⟩ : Ledger) else none
  let jou := s.red.mirror.filterMap fun (e : Nat × Nat × List Byte) =>
    if e.2.1 = 2 then
      let b := e.2.2
      some (⟨e.1, num b 0 2, num b 2 2, num b 4 2, num b 6 2, num b 8 2, num b 10 2, num b 12 4, num b 16 8⟩ : Journal)
    else none
  let led := if s.red.mirror.isEmpty then s.red.ledger else led
  let jou := if s.red.mirror.isEmpty then s.red.journal else jou
  let s := led.foldl (fun s l => s.ledgerWrite l.seq) s
  let s := s.onRed fun r => { r with ledger := led, journal := jou, mirror := [], unacked := [], nextMirror := max r.nextMirror r.mirrorNext }
  (s.setFld RED_LEDGER RED_LEDGER_ENTRIES (satN 21 led.length)).startReplaying.quietAll

/-- The witness grants this head's request (R412, R417): the epoch in force is held, the lease counts from the sending of
the request, and the head enters ACTIVE, to replay its ledger (R423). -/
def State.granted (s : State) (sentAt epoch : Nat) : State :=
  if s.head = hStarting ∨ s.head = hStandby ∨ s.head = hFenced then
    let fresh := s.head != hFenced
    let s := (s.setFld RED_EPOCH RED_EPOCH_EPOCH epoch).onRed fun r => { r with confirmedAt := sentAt, renewSentAt := s.now, renewOut := none, handover := false }
    let s := s.setHead hActive 1
    if fresh then s.takeOver else s.startReplaying.quietAll
  else s

/-- What a head does with an authenticated reply to a latch packet it sent (R412, R417, R419, R428). -/
def State.latchReply (s : State) (a : Awaited) (p : Packet) : State :=
  let st := num p.params 0 2
  let epoch := num p.params 4 4
  let acting := st != stNOT_LATCH_HOLDER
  let s := (s.setFld RED_STAT RED_STAT_WITNESS_OK (b2n acting)).onRed fun r =>
    { r with witNow := if acting then epNum p.source else if a.purpose = puRequest then s.otherWit (epNum p.source) else r.witNow,
             requestOut := if a.purpose = puRequest then false else r.requestOut }
  if a.purpose = puRequest then if st = stOK then s.granted a.sentAt epoch else s
  else if a.purpose = puRenew then
    if st = stOK then s.onRed fun r => { r with confirmedAt := max r.confirmedAt a.sentAt, renewOut := none }
    else if st = stBAD_STATE ∧ s.head = hActive then s.fence 3
    else s
  else if a.purpose = puDry then
    match s.red.drill with
    | some d =>
      if !acting && epNum p.source == d.asked then s.sendLatch 0xC003 (s.otherWit d.asked) puDry true 0
      else s.onRed fun r => { r with drill := some { d with witnessOk := st == stOK, answered := true } }
    | none => s
  else s

/-- A reply for this hub goes to the function that sent its command, by opcode, tag, slot and counter; one that matches
nothing is discarded (12_command_packets.md R544). -/
def State.handReply (s : State) (op : Nat) (p : Packet) : State :=
  let hit := fun (a : Awaited) => a.opcode == op && a.tag == p.tag && a.slot == p.slot && a.counter == p.counter
  match s.cmd.awaited.find? hit with
  | none => s
  | some a => (s.onCmd fun c => { c with awaited := c.awaited.filter fun x => !hit x }).latchReply a p

end Sys2Proof.Machine
end

