-- ==== Sys2Proof/Machine/Engine.lean ====
section
/-!
DEFINITION. The command engine (12_command_packets.md): the opcode table, the judging order of Table 12-4, relaying, and
the course of a command from its arrival to its reply.
-/

namespace Sys2Proof.Machine

open Reg Bits

/-- Who carries a command out (R383): Porter, Porter as a long operation, the hardware fast path. -/
inductive Kind where
  | p
  | l
  | f
  deriving DecidableEq, Repr

/-- A row of Table 12-5: opcode, permission mask of Table 12-3 (0 where `permsNeeded` states it), kind, carried out in
MINIMAL, parameter length (R380; `none` where a formula governs it). -/
structure OpRow where
  op : Nat
  perm : Nat
  kind : Kind
  minimal : Bool
  len : Option Nat
  deriving DecidableEq, Repr

/-- Permission masks (Table 12-3). -/
def pOBSERVE : Nat := 0x001
def pCOUNTERS : Nat := 0x002
def pCONFIGURE : Nat := 0x004
def pACQUIRE : Nat := 0x008
def pTIME : Nat := 0x010
def pLINKS : Nat := 0x020
def pREDUNDANCY : Nat := 0x040
def pMEMORY_TEST : Nat := 0x080
def pCALIBRATE : Nat := 0x100
def pUPDATE : Nat := 0x200
def pCREDENTIALS : Nat := 0x400
def pSHUTTER : Nat := 0x800

/-- Table 12-5, blocks 0x0 to 0x3. -/
def opTable0 : List OpRow :=
  [⟨0x0001, pOBSERVE, .p, true, some 0⟩, ⟨0x0002, pOBSERVE, .p, true, some 0⟩, ⟨0x0003, pCONFIGURE, .p, true, some 4⟩,
   ⟨0x0004, 0, .p, true, some 8⟩, ⟨0x0005, 0, .p, true, none⟩, ⟨0x0006, 0, .p, true, some 4⟩,
   ⟨0x0007, pCONFIGURE, .p, true, some 0⟩, ⟨0x0010, pUPDATE, .p, true, some 8⟩, ⟨0x0011, pUPDATE, .p, true, none⟩,
   ⟨0x0012, pUPDATE, .l, true, some 0⟩, ⟨0x0013, pUPDATE, .p, true, some 4⟩, ⟨0x0020, pOBSERVE, .p, true, some 12⟩,
   ⟨0x0021, pCONFIGURE, .p, true, some 32⟩, ⟨0x0030, pOBSERVE, .p, true, some 0⟩, ⟨0x0040, 0, .p, true, some 4⟩,
   ⟨0x1001, pCONFIGURE, .p, false, some 12⟩, ⟨0x1002, pOBSERVE, .p, false, some 4⟩,
   ⟨0x1003, pCONFIGURE, .p, false, some 12⟩, ⟨0x1004, pACQUIRE, .p, false, some 24⟩,
   ⟨0x1005, 0, .p, false, some 8⟩, ⟨0x2001, pCONFIGURE, .p, false, some 12⟩,
   ⟨0x2002, pCONFIGURE, .p, false, none⟩, ⟨0x2003, pACQUIRE, .p, false, some 4⟩,
   ⟨0x3001, pCONFIGURE, .p, false, some 16⟩, ⟨0x3002, pCONFIGURE, .p, false, some 8⟩,
   ⟨0x3003, pACQUIRE, .p, false, some 12⟩]

/-- Table 12-5, blocks 0x4 to 0x7. -/
def opTable1 : List OpRow :=
  [⟨0x4001, pOBSERVE, .p, true, some 0⟩, ⟨0x4002, pTIME, .p, false, some 24⟩, ⟨0x4003, pTIME, .p, false, some 4⟩,
   ⟨0x4004, 0, .p, false, some 24⟩, ⟨0x4005, pTIME, .p, false, some 8⟩, ⟨0x4006, pOBSERVE, .p, true, some 0⟩,
   ⟨0x5001, pCONFIGURE, .p, false, some 8⟩, ⟨0x5002, pACQUIRE, .l, false, some 16⟩,
   ⟨0x5003, pOBSERVE, .p, false, some 4⟩, ⟨0x6001, pCONFIGURE, .p, false, some 20⟩,
   ⟨0x6002, pACQUIRE, .p, false, some 40⟩, ⟨0x6003, pACQUIRE, .p, false, some 4⟩, ⟨0x6004, pACQUIRE, .p, false, some 20⟩,
   ⟨0x6005, pACQUIRE, .l, false, some 32⟩, ⟨0x6006, pCONFIGURE, .p, false, some 8⟩,
   ⟨0x7001, pCONFIGURE, .p, false, some 16⟩, ⟨0x7002, pCONFIGURE, .p, false, some 24⟩,
   ⟨0x7003, pCONFIGURE, .p, false, some 20⟩, ⟨0x7004, pCONFIGURE, .p, false, some 20⟩,
   ⟨0x7005, pCONFIGURE, .p, false, some 4⟩]

/-- Table 12-5, blocks 0x8 to 0xF. -/
def opTable2 : List OpRow :=
  [⟨0x8001, pCONFIGURE, .p, false, some 12⟩, ⟨0x8002, pOBSERVE, .p, true, some 4⟩, ⟨0x8003, pACQUIRE, .f, true, none⟩,
   ⟨0x8004, pCONFIGURE, .p, false, some 8⟩, ⟨0x8005, pSHUTTER, .f, true, some 20⟩, ⟨0x8006, pSHUTTER, .f, true, some 4⟩,
   ⟨0x9001, pCONFIGURE, .p, false, some 4⟩, ⟨0x9002, pCONFIGURE, .l, false, none⟩,
   ⟨0x9003, pCONFIGURE, .p, false, some 4⟩, ⟨0xA001, pLINKS, .p, true, some 12⟩, ⟨0xA002, pOBSERVE, .p, true, some 4⟩,
   ⟨0xA003, pLINKS, .l, true, some 12⟩, ⟨0xA004, pLINKS, .p, true, some 16⟩, ⟨0xA005, pLINKS, .p, true, some 4⟩,
   ⟨0xA006, pLINKS, .p, true, some 4⟩, ⟨0xB001, pCREDENTIALS, .p, true, some 32⟩, ⟨0xB002, pCREDENTIALS, .p, true, some 4⟩,
   ⟨0xB003, pOBSERVE, .p, true, some 0⟩, ⟨0xC001, pREDUNDANCY, .p, false, none⟩, ⟨0xC002, pOBSERVE, .p, true, none⟩,
   ⟨0xC003, pREDUNDANCY, .f, true, some 8⟩, ⟨0xC004, pREDUNDANCY, .f, true, some 8⟩, ⟨0xC005, pREDUNDANCY, .f, true, some 8⟩,
   ⟨0xC006, pREDUNDANCY, .l, false, some 4⟩, ⟨0xD001, pMEMORY_TEST, .l, true, some 24⟩, ⟨0xD002, pOBSERVE, .p, true, some 4⟩,
   ⟨0xD003, pMEMORY_TEST, .p, false, some 12⟩, ⟨0xE001, pCOUNTERS, .p, true, some 36⟩, ⟨0xE002, pCOUNTERS, .p, true, some 4⟩,
   ⟨0xE003, pCOUNTERS, .p, true, some 4⟩, ⟨0xF001, pCALIBRATE, .l, false, some 4⟩,
   ⟨0xF002, pOBSERVE, .p, true, some 0⟩, ⟨0xF003, pOBSERVE, .p, true, some 12⟩,
   ⟨0xF004, pCALIBRATE, .p, false, some 8⟩]

/-- The opcodes of Table 12-5, and no others (R383). -/
def opTable : List OpRow := opTable0 ++ opTable1 ++ opTable2

/-- The row of an opcode. -/
def opRow (op : Nat) : Option OpRow := opTable.find? fun r => r.op == op

/-- The parameter length a command defines (R380): its fixed length, the formula of a command with a variable length, or
the length of the op or page it names. A reserved op or page has no length of its own and is refused with BAD_PARAM.
(DEDUCED, log entry 8). -/
def lenOk (op : Nat) (ps : List Byte) : Bool :=
  match op with
  | 0x0005 => ps.length == 8 + 4 * num ps 4 4
  | 0x0011 => decide (8 ≤ ps.length)
  | 0x2002 => ps.length == 8 + 4 * num ps 1 1
  | 0x8003 => ps.length == 4 + 24 * num ps 0 2
  | 0x9002 => ps.length == 20 + 16 * num ps 16 1
  | 0xC001 => match num ps 0 1 with
    | 0 => ps.length == 16
    | 1 => ps.length == 8
    | _ => true
  | 0xC002 => match num ps 0 1 with
    | 0 | 1 => ps.length == 4
    | 2 => ps.length == 12
    | _ => true
  | _ => match opRow op with
    | some r => match r.len with
      | some n => ps.length == n
      | none => true
    | none => true

/-- The permissions that register access to one window needs (R393). -/
def windowPerm (write : Bool) (n : Nat) : Nat :=
  if write then
    pCONFIGURE ||| (match n with
      | 0x4 => pTIME
      | 0xA => pLINKS
      | 0xC => pREDUNDANCY
      | 0xD => pMEMORY_TEST
      | 0xF => pCALIBRATE
      | 0xE => pCOUNTERS
      | _ => 0)
  else if n = 0xE then pCOUNTERS else pOBSERVE

/-- The permissions of a range of words: those of each window it touches (R393). -/
def rangePerm (write : Bool) (a bytes : Nat) : Nat :=
  let lo := a / 0x10000
  let hi := (a + (bytes - 1)) / 0x10000
  let base := if write then pCONFIGURE else 0
  (List.range 16).foldl (fun m n => if lo ≤ n ∧ n ≤ hi then m ||| windowPerm write n else m)
    (if lo > 15 then (if write then pCONFIGURE else pOBSERVE) else base)

/-- The permission of a timed action besides TIME (05_time_base.md, Commands). -/
def actionPerm (action : Nat) : Nat :=
  if action = 1 ∨ action = 2 ∨ action = 3 ∨ action = 5 then pACQUIRE
  else if action = 4 ∨ action = 6 then pCONFIGURE
  else 0

/-- Is timed-action entry `i` armed, and its action? -/
def State.armed (s : State) (i : Nat) : Bool := s.on (TB_ACT_CTRL i) TB_ACT_CTRL_ARMED
def State.action (s : State) (i : Nat) : Nat := s.fld (TB_ACT_CTRL i) TB_ACT_CTRL_ACTION

/-- The permissions a command needs, by opcode and parameters (Table 12-5, R390, R393; 05_time_base.md, Commands;
02_front_end.md R79). -/
def permsNeeded (s : State) (op : Nat) (ps : List Byte) : Nat :=
  match op with
  | 0x0004 => rangePerm false (num ps 0 4) (4 * max 1 (num ps 4 4))
  | 0x0005 => rangePerm true (num ps 0 4) (4 * max 1 (num ps 4 4))
  | 0x0006 => rangePerm false (num ps 0 4) 8
  | 0x0040 => ((opRow (num ps 2 2)).map OpRow.perm).getD 0
  | 0x1005 => if bit (num ps 4 1) 0 then pCONFIGURE else pOBSERVE
  | 0x4004 => match num ps 0 1 with
    | 0 => pTIME ||| actionPerm (bits (num ps 4 4) 24 4)
    | 1 => pTIME ||| (if num ps 1 1 < 32 ∧ s.armed (num ps 1 1) then actionPerm (s.action (num ps 1 1)) else 0)
    | 2 => (List.range 32).foldl (fun m i => if s.armed i then m ||| actionPerm (s.action i) else m) pTIME
    | _ => pTIME
  | _ => ((opRow op).map OpRow.perm).getD 0

/-- What a command's body answers: a status with the fields that follow it, a long operation under way, or no reply by
now. -/
inductive Res where
  | reply (s : State) (status : Nat) (data : List Byte)
  | long (s : State)
  | quiet (s : State)

/-- The meaning of one opcode from step 14 of Table 12-4 on. -/
abbrev Body := Caller → List Byte → State → Res

/-- A refusal: nothing changes (R384). (DEDUCED, log entry 9). -/
def refuse (s : State) (status : Nat) : Res := .reply s status []

/-- A plain OK. -/
def ok (s : State) : Res := .reply s stOK []

/-- A check of a command: a status where the condition fails. (DEDUCED, log entry 29). -/
def need (c : Bool) (status : Nat) : Option Nat := if c then none else some status

/-- The precedence of R545 among failures: BAD_PARAM, BAD_STATE, NOT_LATCH_HOLDER, BUSY, NO_RESOURCE.
(DEDUCED, log entry 16). -/
def rank (st : Nat) : Nat :=
  if st = stBAD_PARAM then 0 else if st = stBAD_STATE then 1 else if st = stNOT_LATCH_HOLDER then 2 else if st = stBUSY then 3
  else if st = stNO_RESOURCE then 4 else 5

/-- The status of a command's own checks: the first in the order of R545 among those that fail. (DEDUCED, log entry 16). -/
def firstFail (l : List (Option Nat)) : Option Nat :=
  l.foldl (fun b o => match b, o with
    | none, x => x
    | b, none => b
    | some x, some y => if rank y < rank x then some y else some x) none

/-- Carry a command out only where its checks hold (R545). -/
def checked (s : State) (checks : List (Option Nat)) (go : Res) : Res :=
  match firstFail checks with
  | some st => refuse s st
  | none => go

/-- Is the packet scoped, or HUB_ORIGIN? -/
def flagScoped (p : Packet) : Bool := epScope p.dest != 0
def flagReply (p : Packet) : Bool := bit p.flags 0
def flagOrigin (p : Packet) : Bool := bit p.flags 2
def flagAckAll (p : Packet) : Bool := bit p.flags 3

/-- Step 1 of Table 12-4, with the source a packet from the service SPI must carry (R402). -/
def State.malformed (s : State) (p : Packet) : Bool :=
  p.version != 1 || epScope p.dest == 3 || !kindOk (epKind p.dest) || !kindOk (epKind p.source) || epScope p.source != 0
    || (epScope p.dest != 0 && epKind p.dest != 0) || decide (p.length > 4096) || p.length % 4 != 0
    || p.params.length != p.length || p.mac.length != 16
    || (p.arrival == 8 && !(epKind p.source == 7 && (s.address.isNone || epNum p.source == s.addr)))
where
  kindOk (k : Nat) : Bool := k == 0 || k == 1 || k == 7

/-- Is a packet to be carried out at this hub (R371, R402)? -/
def State.forHere (s : State) (p : Packet) : Bool :=
  match epScope p.dest with
  | 0 => if s.address.isNone then p.arrival == 8 else epKind p.dest == 0 && epNum p.dest == s.addr
  | 1 => s.address.isSome && segOf p.dest == segOf s.addr || (s.address.isNone && p.arrival == 8)
  | _ => s.address.isSome || p.arrival == 8

/-- The last accepted counter of a slot (R375). -/
def State.lastCtr (s : State) (slot : Nat) : Nat := s.fld (CMD_SLOT_CTR slot) CMD_SLOT_CTR_LAST

/-- Accept a counter: a counter that reaches the ceiling stores a new ceiling in NVM (R375). -/
def State.acceptCtr (s : State) (slot ctr : Nat) : State :=
  let s := s.setFld (CMD_SLOT_CTR slot) CMD_SLOT_CTR_LAST ctr
  s.onNvm fun n =>
    let raise := fun (c : Cred) => if ctr ≥ c.ceiling then { c with ceiling := min (ctr + 65536) 0xFFFFFFFF } else c
    { n with creds := n.creds.mapIdx fun i c => if i == slot then raise c else c }

/-- The entries of the seen cache that have not reached their 8 s (R372). -/
def State.seen (s : State) : List Seen := s.cmd.seen.filter fun e => decide (s.now < e.at_ + fineMs 8000)

/-- Does the seen cache hold this packet (R372)? -/
def State.seenBefore (s : State) (op : Nat) (p : Packet) : Bool :=
  s.seen.any fun e => e.source == p.source && e.slot == p.slot && e.counter == p.counter && e.opcode == op && e.tag == p.tag

/-- The seen cache takes an entry, the oldest going where 4,096 are held (R372). (DEDUCED, log entry 15). -/
def State.see (s : State) (op : Nat) (p : Packet) : State :=
  let s := s.onCmd fun m => { m with seen := s.seen }
  let s' := if s.cmd.seen.length ≥ 4096 then (s.bump CMD_CACHE CMD_CACHE_EVICTIONS).onCmd fun m => { m with seen := m.seen.drop 1 } else s
  s'.onCmd fun m => { m with seen := m.seen ++ [⟨p.source, p.slot, p.counter, op, p.tag, s.now⟩] }

/-- The credential a packet is authentic under: its slot holds a key and the tag matches (Table 12-4 step 4, R373); a reply with a zero
tag never is (R544). -/
def State.authentic (s : State) (op : Nat) (p : Packet) : Option Cred :=
  match s.cred p.slot with
  | some c => if packetMac c.key op p = p.mac ∧ !(flagReply p && p.mac == List.replicate 16 0#8) then some c else none
  | none => none

/-- The caller of a packet, under a credential. -/
def callerOf (op : Nat) (p : Packet) (c : Cred) : Caller :=
  { arrival := p.arrival, source := p.source, slot := p.slot, tag := p.tag, counter := p.counter, opcode := op,
    isScoped := flagScoped p, ackAll := flagAckAll p, origin := flagOrigin p, key := c.key, perms := c.perms, paramCrc := crc32c p.params }

/-- A failure at step 4 is counted, and AUTH_FAILED issued at most once a second (R382, R407). -/
def State.noteAuthFail (s : State) (p : Packet) : State :=
  ((s.bump CMD_STAT CMD_STAT_AUTH_FAIL).pmc 0xB02 0 1).issueLim 0xB001 0 1 3 true [p.arrival, p.source, p.slot, 0]

/-- A counter refused at step 7 is counted, and REPLAY_REFUSED issued at most once a second for each slot (R407). -/
def State.noteReplay (s : State) (p : Packet) : State :=
  (s.bump CMD_STAT CMD_STAT_REPLAYED).issueLim 0xB002 p.slot 1 4 true [p.source, p.slot, p.counter, s.lastCtr p.slot, 0]

/-- A packet refused at step 4 (R382, R407): counted, AUTH_FAILED at most once a second, and for a unicast command an
AUTH_FAIL reply with a zero tag, at most 16 a second. -/
def State.authFail (s : State) (op : Nat) (p : Packet) : State :=
  let s := s.noteAuthFail p
  if flagScoped p || flagReply p then s
  else
    let n := if s.cmd.authReplies.1 = s.second then s.cmd.authReplies.2 else 0
    if n ≥ 16 then s
    else
      let s := s.onCmd fun m => { m with authReplies := (s.second, n + 1) }
      let c := callerOf op p ⟨false, [], 0, 0⟩
      s.emit c (replyPacket s c false (replyParams stAUTH_FAIL []) true)

/-- Is the counter of a HUB_ORIGIN packet within 4 s of served time (R376)? (DEDUCED, log entry 46). -/
def State.inWindow (s : State) (ctr : Nat) : Bool :=
  s.tq == 3 ||
    let d := (ctr + 2 ^ 32 - s.originClock) % 2 ^ 32
    decide (d ≤ 4 * 65536) || decide (d ≥ 2 ^ 32 - 4 * 65536)

/-- The commands that write NVM, refused in MINIMAL with NVM failed (14_memory_and_ecc.md Table 14-8). -/
def writesNvm (op : Nat) : Bool := op == 0xB001 || op == 0xB002 || op == 0x0010 || op == 0x0012 || op == 0x0013

/-- The refusals of Table 14-8 for a memory that failed at boot. -/
def State.memRefuses (s : State) (op : Nat) : Option Nat :=
  if s.memFailed 3 && writesNvm op then some stMEM_UNCORRECTABLE
  else if s.memFailed 1 && (op == 0x8003 || op == 0x8005 || op == 0x8006 || op == 0xC003 || op == 0xC004 || op == 0xC005) then some stBAD_STATE
  else none

/-- The cells of Q56 in use. -/
def State.q56Room (s : State) (p : Packet) : Bool := decide (packetCells p ≤ s.room 56)

/-- Steps 8 to 13 of Table 12-4 for a command under permissions `perms`: the status of the first that applies. -/
def State.admits (s : State) (op : Nat) (p : Packet) (perms : Nat) : Option Nat :=
  match opRow op with
  | none => some stBAD_OPCODE
  | some r =>
    let want := permsNeeded s op p.params
    if want &&& perms != want then some stNOT_PERMITTED
    else if s.isMinimal && !r.minimal then some stMINIMAL_MODE
    else if !lenOk op p.params then some stBAD_LENGTH
    else if p.rsvd14 != 0 || p.b21 / 2 % 128 != 0 || p.rsvd22 != List.replicate 10 0#8 || p.flags / 16 % 16 != 0 then some stBAD_PARAM
    else if r.kind != .f && !s.q56Room p then some stBUSY
    else if r.kind == .l && decide (s.cmd.ops.length ≥ 16) then some stNO_RESOURCE
    else s.memRefuses op

/-- Run a command's body and answer (R381, R386, R389). A Porter command that does not answer at once waits for its reply.
(DESIGN CHOICE, log entry 69). -/
def State.carryOut (s : State) (body : Body) (c : Caller) (ps : List Byte) : State :=
  match body c ps s with
  | .reply s st data => s.reply c st data
  | .long s =>
    (s.onCmd fun m => { m with ops := m.ops ++ [⟨c⟩] }).reply c stACCEPTED []
  | .quiet s =>
    let s := if s.cached.any (fun e => e.isFor c) then s else s.cacheReply c [] false
    if ((opRow c.opcode).map OpRow.kind) == some .p && !c.origin then s.onCmd fun m => { m with inflight := m.inflight ++ [(c, s.now)] } else s

/-- A command that has passed step 7: steps 8 to 14. A Porter command waits in Q56 while Porter restarts (R387, R457).
(DEDUCED, log entry 10; DESIGN CHOICE, log entry 69). -/
def State.execute (s : State) (body : Body) (op : Nat) (p : Packet) (cr : Cred) : State :=
  let c := callerOf op p cr
  match s.admits op p cr.perms with
  | some st =>
    let s := if st = stBUSY then s.bump CMD_ERR CMD_ERR_BUSY_REFUSED else s
    s.reply c st []
  | none =>
    let porter := ((opRow op).map OpRow.kind) != some .f
    if porter && s.sys.reloading then
      ((s.enqueue (qitem 56 (packetCells p) (.packet op p) p.arrival false)).cacheReply c [] false).onCmd fun m => { m with inflight := m.inflight ++ [(c, s.now)] }
    else (if porter then s.pmc 0x002 0 1 else s).carryOut body c p.params

/-- A packet for this hub from step 4 on. -/
def State.judgeHere (s : State) (body : Body) (op : Nat) (p : Packet) : State :=
  match s.authentic op p with
  | none => s.authFail op p
  | some cr =>
    let s := s.pmc 0xB01 0 1
    if flagReply p then s.handReply op p
    else if flagOrigin p && !s.inWindow p.counter then s.bump CMD_STAT CMD_STAT_REPLAYED
    else
      let c := callerOf op p cr
      match (if flagScoped p then none else s.cached.find? fun (e : Cached) => e.isFor c) with
      | some e => if e.reply.isEmpty then s else s.emit c (replyPacket s { c with counter := e.counter } e.report e.reply false)
      | none =>
        if flagOrigin p then s.execute body op p cr
        else if p.counter ≤ s.lastCtr p.slot then
          let s := s.noteReplay p
          if c.hears stREPLAYED then
            s.emit c (replyPacket s c false (replyParams stREPLAYED (le 4 (s.lastCtr p.slot))) false)
          else s
        else (s.acceptCtr p.slot p.counter).execute body op p cr

/-- At a head that is not ACTIVE: a packet that arrives on UPLINK and is not for it (13_head_redundancy.md R409). -/
def State.uplinkRefuse (s : State) (op : Nat) (p : Packet) : State :=
  if flagScoped p || flagReply p then s
  else match s.authentic op p with
    | some cr =>
      let c := callerOf op p cr
      s.emit c (replyPacket s c false (replyParams stNOT_LATCH_HOLDER []) false)
    | none => s

/-- The part a relaying hub takes in SHUTTER, SHUTTER_OPEN and RELEASE (R379): an authentic SHUTTER or SHUTTER_OPEN that
passes steps 4 to 10 is applied here too, and the active head enters an authentic RELEASE in its ledger (R281). -/
def State.relayAct (s : State) (body : Body) (op : Nat) (p : Packet) : State :=
  if flagReply p || !(op == 0x8003 || op == 0x8005 || op == 0x8006) then s
  else match s.authentic op p with
    | none => s.noteAuthFail p
    | some cr =>
      let s := s.pmc 0xB01 0 1
      if flagOrigin p && !s.inWindow p.counter then s.bump CMD_STAT CMD_STAT_REPLAYED
      else if !flagOrigin p && decide (p.counter ≤ s.lastCtr p.slot) then s.noteReplay p
      else
        let s := if flagOrigin p then s else s.acceptCtr p.slot p.counter
        let want := permsNeeded s op p.params
        if want &&& cr.perms != want then s
        else if op = 0x8003 then
          if s.isActive && lenOk op p.params then
            s.ledgerAdd ((List.range (num p.params 0 2)).map fun i => bytesAt p.params (4 + 24 * i) 24)
          else s
        else if !lenOk op p.params then s
        else match body (callerOf op p cr) p.params s with
          | .reply s st data => if st = stOK then s else s.reply (callerOf op p cr) st data
          | .long s => s
          | .quiet s => s

/-- Does this hub relay a packet: its TTL lasts, and it has not come by UPLINK to a head that is not ACTIVE (R370;
13_head_redundancy.md R409)? -/
def State.relays (s : State) (p : Packet) : Bool :=
  decide (2 ≤ p.ttl) && !(decide (p.arrival < 8) && s.role p.arrival == rUplink && !s.isActive)

/-- Relay a packet that is not for this hub, or a scoped one besides (R370, R371; 13_head_redundancy.md R408).
(DEDUCED, log entry 15). -/
def State.relay (s : State) (op : Nat) (p : Packet) : State :=
  let uplink := p.arrival < 8 && s.role p.arrival == rUplink
  if p.ttl ≤ 1 then s.bump CMD_ERR CMD_ERR_TTL_DROPS
  else if uplink && !s.isActive then s.uplinkRefuse op p
  else
    let s := if uplink && !flagReply p then s.journalAdd op p
      else if s.isActive && flagReply p then s.journalReply op p
      else s
    s.forward op { p with ttl := p.ttl - 1 } p.arrival

/-- A packet addressed to the service SPI host of this hub goes to Q61 (R399, R402). -/
def State.forSpiHost (s : State) (p : Packet) : Bool :=
  epScope p.dest == 0 && epKind p.dest == 7 && s.address.isSome && epNum p.dest == s.addr

/-- A packet arrives and is judged in the order of Table 12-4. Until boot completes none is taken (R542). -/
def State.receive (s : State) (body : Body) (op : Nat) (p : Packet) : State :=
  if !s.booted then if p.arrival = 8 then s.setBit CMD_SPI_CTRL CMD_SPI_CTRL_FRAME_ERR 0 else s
  else if s.malformed p then s.bump CMD_ERR CMD_ERR_MALFORMED
  else
    let cached := flagScoped p || flagOrigin p
    if cached && s.cacheFailed then s
    else if cached && s.seenBefore op p then s.bump CMD_CACHE CMD_CACHE_DUPLICATES
    else
      let s := if cached then s.see op p else s
      if s.forSpiHost p then s.toQ61 op p
      else if s.forHere p then
        if flagScoped p && p.arrival < 8 && s.role p.arrival == rUplink && !s.isActive then s
        else (if flagScoped p then s.relay op p else s).judgeHere body op p
      else (if s.relays p then s.relayAct body op p else s).relay op p

/-- The clocks in which a push was presented and not complete (Table 17-1 PUSH_STALL), over a number of core clocks.
(DESIGN CHOICE, log entry 65). -/
def State.countStalls (s : State) (clocks : Nat) : State :=
  if clocks = 0 || !s.pmcOn then s
  else
    let qs := ((s.qm.recs.filterMap fun r =>
        if r.place == .queued && decide (r.entered + r.inAsm < r.cells) then some r.aq
        else if r.place == .queued && decide (r.q < 64) && decide (0 < r.inAsm) then some r.q else none)
      ++ s.qm.items.filterMap fun i => if i.entered < i.cells then some i.q else none).eraseDups
    qs.foldl (fun s q => s.pmc 0x803 q clocks) s

/-- What the rows do not show is counted over a number of core clocks, where a counter selects it: Porter's clocks not halted, one for two
core clocks at most, and DRAM bursts read and written, each a free value (Table 17-1). (DESIGN CHOICE, log entry 65). -/
def State.countUnseen (s : State) (clocks : Nat) : State :=
  [(0x001, clocks / 2), (0xD01, 2 ^ 32 - 1), (0xD02, 2 ^ 32 - 1)].foldl (fun s (e : Nat × Nat) =>
    if clocks = 0 || !(List.range 8).any (fun i => s.pmcSelects i e.1 0) then s
    else
      let k := s.draw
      k.2.pmc e.1 0 (min e.2 (Config.unseenCount e.1 k.1).toNat)) s

/-- Time passes to `t` before a command takes place. (DESIGN CHOICE, log entry 1). -/
def State.begin_ (s : State) (t : Nat) : State :=
  let later := decide (s.clock < max s.now t / coreClk)
  let s' := (if later then s.endClock else s).advance t
  let clocks := if s.coreClock then max s.now t / coreClk - s.now / coreClk else 0
  ((if later then s'.newClock else s').countStalls clocks).countUnseen clocks

/-- From the fall of PFW_N to the hub reset that follows its rise, NVM takes nothing but black-box entries
(15_porter_management.md R473). (DEDUCED, log entry 6). -/
def State.guardNvm (before after : State) : State :=
  if before.sys.pfwNLow || before.sys.pfwRoseAt.isSome then { after with nvm := { before.nvm with bb := after.nvm.bb, bbNext := after.nvm.bbNext } } else after

/-- The meaning of a command packet's row: time passes to its arrival, it is judged, and the queues settle.
(DESIGN CHOICE, log entry 1). -/
def command (op : Nat) (body : Body) (t : Nat) (p : Packet) (s : State) : Host.Outcome State Fault Refusal :=
  done (State.guardNvm s (((s.begin_ t).receive body op p).mirrorChanges))

/-- The meaning of any other row: time passes to its instant, its effect comes about, and the queues settle.
(DESIGN CHOICE, log entry 1). -/
def event (t : Nat) (f : State → State) (s : State) : Host.Outcome State Fault Refusal :=
  done (State.guardNvm s (f (s.begin_ t)).mirrorChanges)

end Sys2Proof.Machine
end

