-- ==== Sys2Proof/Machine/Memory.lean ====
section
/-!
DEFINITION. The MEM block (14_memory_and_ecc.md): errors found and their effects, scrubbing, injection, the layout of the
DRAM.
-/

namespace Sys2Proof.Machine

open Reg Bits

/-- Size of a memory in bytes: usable capacity for the DRAM (R439, Table 14-1). (DEDUCED, log entry 64). -/
def State.memSize (s : State) (m : Nat) : Nat := match m with
  | 0 => s.gib * 1073741824 * 7 / 8
  | 1 => 16 * 1048576
  | 2 => 1048576
  | 3 => 262144
  | _ => (Config.mem4Size 0).toNat

/-- One step of a decoder's self-test: a pattern read back; an error of `width` (bits of a SECDED word, bytes of a DRAM codeword)
injected in a pattern at a position; a detectable error at one of the fixed positions; poison; a whole word over it (R449). -/
inductive TestStep where
  | readBack (pattern : Nat)
  | inject (pattern width pos : Nat)
  | detect (pos : Nat)
  | poison
  | whole
  deriving DecidableEq, Repr

/-- The memory of decoder `d`: each DRAM channel has its own. -/
def decoderMem (d : Nat) : Nat := d - 1

/-- The positions of an injected error: the bits of a SECDED word, the bytes of a DRAM codeword, check bits included (Table 14-1). -/
def testPlaces (d : Nat) : Nat := match decoderMem d with
  | 0 => 64
  | 4 => 39
  | _ => 72

/-- The steps of the self-test of decoder `d`, in their order (R449). (DESIGN CHOICE, log entry 68). -/
def testSteps (d : Nat) : List TestStep :=
  let widths := if decoderMem d = 0 then [1, 3] else [1]
  (List.range 4).map .readBack
    ++ (List.range 4).flatMap (fun p => widths.flatMap fun w => (List.range (testPlaces d)).map fun i => .inject p w i)
    ++ (List.range 8).map .detect ++ [.poison, .whole]

/-- The four patterns of the self-test: all-zero, all-one and two alternating ones (R449). (DESIGN CHOICE, log entry 68). -/
def testPattern (d p : Nat) : Nat :=
  let ones := 256 ^ memWord (decoderMem d) - 1
  match p with
  | 0 => 0
  | 1 => ones
  | 2 => ones / 3
  | _ => ones / 3 * 2

/-- What a sound decoder `d` answers at a step (R449). -/
def testAnswer (d : Nat) : TestStep → TestRead
  | .readBack p => .clean (testPattern d p)
  | .inject p w i => .corrected (testPattern d p) (Config.testSyndrome d p w i).toNat
  | .detect _ => .uncorrectable
  | .poison => .poison
  | .whole => .clean 0

/-- A decoder passes its self-test where every answer is the sound one (R449). -/
def testPasses (d : Nat) (answers : List TestRead) : Bool := answers == (testSteps d).map (testAnswer d)

/-- The mask of the memories that failed fill or self-test (R448 to R450). NVM is not filled. -/
def bootFailMask (fillFailed : Nat) (answers : List (List TestRead)) : Nat :=
  (List.range 5).foldl (fun m k =>
    let tested := (List.range 6).all fun d => decoderMem d != k || testPasses d (answers.getD d [])
    if (k != 3 && bit fillFailed k) || !tested then m + 2 ^ k else m) 0

/-- SCRUB (0xD001), from its own checks on (R452). -/
def bodyScrub : Body := fun c ps s =>
  let m := num ps 0 1
  let mode := num ps 1 1
  let w := memWord m
  let start := num ps 4 8 / w * w
  let len := num ps 12 8
  let rate := if num ps 20 4 = 0 then 1000 else num ps 20 4
  let size := s.memSize m
  let stop := if len = 0 then size else num ps 4 8 + len
  checked s
    [need (s.power != 1) stBAD_STATE, need (m ≤ 4 && mode ≤ 1 && zeroAt ps 2 2) stBAD_PARAM, need (!(mode == 1 && m == 3)) stBAD_PARAM,
     need (decide (num ps 4 8 < size) && decide (stop ≤ size)) stBAD_PARAM,
     need (m != 0 || decide (rate ≤ 8000)) stBAD_PARAM,
     need (!(s.isMinimal && m == 0 && s.memFailed 0)) stBAD_STATE, need s.mem.scrub.isNone stBUSY]
    (let s := (((s.setFld MEM_SCRUB_STAT MEM_SCRUB_STAT_RUNNING 1).setFld MEM_SCRUB_STAT MEM_SCRUB_STAT_MEMORY m).setFld
        MEM_SCRUB_STAT MEM_SCRUB_STAT_MODE mode).setFld MEM_SCRUB_STAT MEM_SCRUB_STAT_PROGRESS 0
     .long (s.onMem fun x => { x with scrub := some ⟨m, mode == 1, start, stop, rate, s.now, c⟩ }))

/-- The meaning of SCRUB. -/
def execScrub (t : Nat) (p : Packet) (s : State) : Host.Outcome State Fault Refusal := command 0xD001 bodyScrub t p s

/-- One damaged word met by a scrub (R451): CHECK writes nothing. -/
def scrubWord (correct : Bool) (s : State) (d : Damage) : State :=
  if d.kind = 0 then s.memCorrected d.mem d.offset 5 0 correct
  else if correct then s.memFound d 5 0
  else s.memUncorrectable d.mem d.offset 5 (if d.kind = 2 then 3 else 2) 0

/-- The damage a scrub meets up to an offset, in ascending order of word. -/
def State.scrubHits (s : State) (k : Scrub) (stop : Nat) : List Damage :=
  (s.damageIn k.mem k.start (stop - k.start)).mergeSort fun a b => decide (a.offset ≤ b.offset)

/-- How far a running scrub has come, in 1/256 of its range: free until its row. (DEDUCED, log entry 64). -/
def State.scrubProgress (s : State) (k : Scrub) : Nat := (Config.scrubProgress (s.now - k.since)).toNat

/-- A scrub ends early, at the word it has come to: what it found so far is counted and corrected (R390, R451). -/
def State.scrubStop (s : State) : State :=
  match s.mem.scrub with
  | none => s
  | some k =>
    let n := s.scrubProgress k
    let s := (s.scrubHits k (k.start + (k.stop - k.start) * n / 256)).foldl (scrubWord k.correct) s
    let s := (s.onMem fun x => { x with scrub := none }).setFld MEM_SCRUB_STAT MEM_SCRUB_STAT_PROGRESS n
    s.setFld MEM_SCRUB_STAT MEM_SCRUB_STAT_RUNNING 0

/-- A scrub checks the last word of its range and reports (R451, R452, Table 14-6b). A DRAM scrub takes at least the time
its RATE allows; in DORMANT it stands (01_architecture.md R29). (DEDUCED, log entry 39). -/
def State.scrubDone (s : State) : State :=
  match s.mem.scrub with
  | none => s
  | some k =>
    if s.power = 1 ∨ k.mem = 0 ∧ (s.now - k.since) * k.rate < (k.stop - k.start) * 419431 then s
    else
      let hits := s.scrubHits k k.stop
      let w := memWord k.mem
      let n := fun j => (hits.filter fun d => d.kind == j).length
      let first := match hits.find? fun d => d.kind != 0 with
        | some d => d.offset / w * w
        | none => 2 ^ 64 - 1
      let s := hits.foldl (scrubWord k.correct) s
      let s := (s.setFld MEM_SCRUB_STAT MEM_SCRUB_STAT_RUNNING 0).setFld MEM_SCRUB_STAT MEM_SCRUB_STAT_PROGRESS 0xFF
      let s := s.onMem fun x => { x with scrub := none }
      s.report k.caller stOK (le 8 (ceilDiv (k.stop - k.start) w) ++ le 4 (satN 32 (n 0)) ++ le 4 (satN 32 (n 1)) ++ le 4 (satN 32 (n 2))
        ++ le 8 first ++ le 4 ((s.now - k.since) / fineMs 1))

/-- The meaning of SCRUB_DONE. -/
def execScrubDone (t : Nat) (s : State) : Host.Outcome State Fault Refusal := event t State.scrubDone s

/-- MEM_STATUS (0xD002), R453; CLEAR reads the counts as they stood before this clock and keeps what this clock counts (R9). -/
def bodyMemStatus : Body := fun _ ps s =>
  let clear := bit (num ps 0 1) 0
  checked s [need (num ps 0 4 < 2) stBAD_PARAM]
    (let w := fun a => le 4 (s.rd a).toNat
     let data := w MEM_BOOT_STAT ++ w MEM_LAYOUT ++ w MEM_DRAM_CFG
     let r := (List.range 5).foldl (fun (a : List Byte × State) m =>
       let c := a.2.takeRc (MEM_ERR m) MEM_ERR_CORRECTED
       let u := c.2.takeRc (MEM_ERR m) MEM_ERR_UNCORR
       let e := if clear then (le 4 (c.1 * 65536 + u.1), u.2) else (w (MEM_ERR m), a.2)
       (a.1 ++ e.1 ++ w (MEM_ERR_INFO m) ++ le 8 (s.rd64 (MEM_ERR_ADDR m)), e.2)) ([], s)
     .reply r.2 stOK (data ++ r.1))

/-- The meaning of MEM_STATUS. -/
def execMemStatus (t : Nat) (p : Packet) (s : State) : Host.Outcome State Fault Refusal := command 0xD002 bodyMemStatus t p s

/-- MEM_INJECT (0xD003), R454: the word is read as every read reads it, so that a poisoned word stays so and is refused (R444,
R445). A write of this clock goes first (R447). (DEDUCED, log entry 64). -/
def bodyMemInject : Body := fun _ ps s =>
  let m := num ps 0 1
  let kind := num ps 1 1
  let off := num ps 4 8
  checked s
    [need (m ≤ 4 && m != 3 && kind ≤ 2 && zeroAt ps 2 2) stBAD_PARAM, need (!(m == 2 && kind != 0)) stBAD_PARAM,
     need (off < s.memSize m) stBAD_PARAM]
    (let r := s.memRead m off 6
     if !r.1 then refuse r.2 stMEM_UNCORRECTABLE
     else ok ((r.2.heal m off).onMem fun x => { x with damage := x.damage ++ [⟨m, off / memWord m * memWord m, kind, some s.clock, none⟩] }))

/-- The meaning of MEM_INJECT. -/
def execMemInject (t : Nat) (p : Packet) (s : State) : Host.Outcome State Fault Refusal := command 0xD003 bodyMemInject t p s

/-- The controllers read mode register 4 every 16 ms and take the refresh interval it asks for, in its bits [2:0] (R438).
In DORMANT the DRAM is in self-refresh. -/
def State.dramTemp (s : State) (mr4 : Nat) : State :=
  if s.power = 1 ∨ s.sys.phase = .waitPfw then s else s.onMem fun x => { x with refresh := mr4 % 8 }

/-- The meaning of DRAM_TEMP_POLL. -/
def execDramTempPoll (t mr4 : Nat) (s : State) : Host.Outcome State Fault Refusal := event t (State.dramTemp · mr4) s

end Sys2Proof.Machine
end

