-- ==== Sys2Proof/Machine/Counters.lean ====
section
/-!
DEFINITION. The PMC block (17_counters_and_test.md): configuration, reading and dumping of the counters, and the JTAG
port.
-/

namespace Sys2Proof.Machine

open Reg Bits

/-- The instances of each counted event (Table 17-1); one where QUAL names none. -/
def pmcInstances (ev : Nat) : Option Nat :=
  if ev = 0 then some 128
  else if [0x001, 0x002, 0x202, 0x804, 0x805, 0x806, 0x901, 0x902, 0xB01, 0xB02, 0xD01, 0xD02].contains ev then some 1
  else if ev = 0x201 ∨ ev = 0x701 then some 4
  else if ev = 0x301 ∨ ev = 0x302 ∨ ev = 0x801 ∨ ev = 0x802 ∨ ev = 0x803 then some 64
  else if [0x401, 0x402, 0x501, 0x502, 0xA01, 0xA02, 0xA03, 0xA04].contains ev then some 8
  else if ev = 0x601 then some 32
  else if ev = 0x602 ∨ ev = 0x603 then some 16
  else if ev = 0xD03 then some 5
  else none

/-- Does a PMC_CFG word hold no reserved encoding (R506)? -/
def pmcCfgOk (w : Word) : Bool :=
  match pmcInstances (wfld w PMC_CFG_EVENT) with
  | some n => wfld w PMC_CFG_QUAL == 0x7F || decide (wfld w PMC_CFG_QUAL < n)
  | none => false

/-- The value of counter `i`, and OVF, as a capture takes them: without the occurrences of this clock (R508). -/
def State.pmcCount (s : State) (i : Nat) : Nat :=
  (s.fld (PMC_CNT i) PMC_CNT_COUNT + (2 ^ 32 - s.freshCount (PMC_CNT i) PMC_CNT_COUNT % 2 ^ 32)) % 2 ^ 32
def State.pmcOvf (s : State) : Nat := if s.pmcBlk.ovfWas.1 = s.clock then s.pmcBlk.ovfWas.2 else s.fld PMC_STAT PMC_STAT_OVF

/-- C0 to C7 are cleared; the occurrences of this clock remain (R508). -/
def State.pmcClear (s : State) : State :=
  (List.range 8).foldl (fun s i =>
    let chained := i % 2 == 1 && wfld (s.pmcWord i) PMC_CFG_CHAIN == 1
    s.setFld (PMC_CNT i) PMC_CNT_COUNT (if chained then 0 else s.freshCount (PMC_CNT i) PMC_CNT_COUNT % 2 ^ 32)) s

/-- C0 to C7 and OVF are cleared (R508). -/
def State.pmcZero (s : State) : State := s.pmcClear.setFld PMC_STAT PMC_STAT_OVF (s.freshBits PMC_STAT PMC_STAT_OVF)

/-- A PMC_CONFIG of this clock leaves the configuration from before it to count the clock's occurrences (R508). -/
def State.pmcHold (s : State) : State :=
  s.onPmc fun x =>
    let now := some (s.clock, (List.range 8).map fun i => s.rd (PMC_CFG i), s.on PMC_CTRL PMC_CTRL_ENABLE)
    { x with was := if x.was.any fun w => w.1 == s.clock then x.was else now }

/-- PMC_CONFIG (0xE001), R513. -/
def bodyPmcConfig : Body := fun _ ps s =>
  let mask := num ps 0 1
  let f := num ps 1 1
  let ws := wordsOf (ps.drop 4) 8
  let named := (List.range 8).filter fun i => bit mask i
  let word_ := fun i => word (ws.getD i 0)
  checked s
    [need (f < 8 && zeroAt ps 2 2 && !(bit f 1 && bit f 2)) stBAD_PARAM,
     need (named.all fun i => pmcCfgOk (word_ i) && bits (ws.getD i 0) 23 7 == 0 && bits (ws.getD i 0) 12 4 == 0) stBAD_PARAM]
    (let s := s.pmcHold
     let s := if bit f 0 then s.pmcZero else s
     let s := named.foldl (fun s i => s.wr (PMC_CFG i) (word_ i)) s
     let s := if bit f 1 then s.setFld PMC_CTRL PMC_CTRL_ENABLE 1 else if bit f 2 then s.setFld PMC_CTRL PMC_CTRL_ENABLE 0 else s
     ok s)

/-- The meaning of PMC_CONFIG. -/
def execPmcConfig (t : Nat) (p : Packet) (s : State) : Host.Outcome State Fault Refusal := command 0xE001 bodyPmcConfig t p s

/-- PMC_READ (0xE002), R508, R514. -/
def bodyPmcRead : Body := fun _ ps s =>
  checked s [need (num ps 0 4 < 2) stBAD_PARAM]
    (let w := fun a => le 4 (s.rd a).toNat
     let data := le 8 s.pmcBlk.cycle ++ le 4 s.pmcOvf ++ ((List.range 8).flatMap fun i => le 4 (s.pmcCount i)) ++ (List.range 8).flatMap fun i => w (PMC_CFG i)
     .reply (if bit (num ps 0 1) 0 then s.pmcZero else s) stOK data)

/-- The meaning of PMC_READ. -/
def execPmcRead (t : Nat) (p : Packet) (s : State) : Host.Outcome State Fault Refusal := command 0xE002 bodyPmcRead t p s

/-- The first whole multiple of PERIOD ms of served time at or after an instant, both in 2^-40 s. -/
def nextMultiple (periodMs at_ : Nat) : Nat := ms40 (ceilDiv (at_ * 1000) (periodMs * 2 ^ 40) * periodMs)

/-- A word is stored in PMC_DUMP: dumps that start count their first interval from now and their first dump from 1 ms on
(R510, R515). (DEDUCED, log entry 66). -/
def State.setDump (s : State) (w : Word) : State :=
  let starts := wfld w PMC_DUMP_DUMP_EN == 1
  let s' := ((s.setFld PMC_DUMP PMC_DUMP_DUMP_EN (wfld w PMC_DUMP_DUMP_EN)).setFld PMC_DUMP PMC_DUMP_DELTA (wfld w PMC_DUMP_DELTA)).setFld
    PMC_DUMP PMC_DUMP_PERIOD (wfld w PMC_DUMP_PERIOD)
  if starts then
    s'.onPmc fun x => { x with intervalStart := if s.on PMC_DUMP PMC_DUMP_DUMP_EN then x.intervalStart else s.st,
                               nextDump := nextMultiple (wfld w PMC_DUMP_PERIOD) (s.served40 + ms40 1) }
  else s'

/-- PMC_DUMP_CONFIG (0xE003), R515. -/
def bodyPmcDumpConfig : Body := fun _ ps s =>
  let w := word (num ps 0 4)
  checked s [need (wfld w PMC_DUMP_PERIOD ≥ 10 && bits (num ps 0 4) 24 6 == 0) stBAD_PARAM] (ok (s.setDump w))

/-- The meaning of PMC_DUMP_CONFIG. -/
def execPmcDumpConfig (t : Nat) (p : Packet) (s : State) : Host.Outcome State Fault Refusal := command 0xE003 bodyPmcDumpConfig t p s

/-- The value of counter `i` in a dump: the 64-bit pair in its even half, 0 in its odd half (Table 17-2). -/
def State.dumpValue (s : State) (i : Nat) : Nat :=
  let c := s.pmcCount
  if i % 2 = 0 then c i + (if s.on (PMC_CFG (i + 1)) PMC_CFG_CHAIN then 2 ^ 32 * c (i + 1) else 0)
  else if s.on (PMC_CFG i) PMC_CFG_CHAIN then 0 else c i

/-- The payload of a counter-dump record (Table 17-2). -/
def State.dumpImage (s : State) : List Byte :=
  le 8 s.pmcBlk.intervalStart ++ le 8 s.pmcBlk.cycle ++ le 1 (s.fld PMC_DUMP PMC_DUMP_DELTA + 2 * s.fld PMC_CTRL PMC_CTRL_ENABLE)
    ++ le 1 (satN 8 s.pmcBlk.skippedSince) ++ le 1 s.pmcOvf ++ le 5 0
    ++ (List.range 8).flatMap fun i => le 4 (s.rd (PMC_CFG i)).toNat ++ le 4 0 ++ le 8 (s.dumpValue i)

/-- At a whole multiple of PERIOD of served time the counters are captured into a record on Q58, DELTA clearing C0 to C7; a dump that finds
Q58 full is skipped (R509, R510); a hub without an address forms none. (DEDUCED, log entry 66). -/
def State.pmcDump (s : State) : State :=
  if !s.on PMC_DUMP PMC_DUMP_DUMP_EN || !s.coreClock || decide (s.served40 < s.pmcBlk.nextDump) then s
  else
    let s' := s.onPmc fun x => { x with nextDump := nextMultiple (s.fld PMC_DUMP PMC_DUMP_PERIOD) (s.served40 + 1) }
    if s.address.isNone then s'
    else if s.full 58 then (s'.bump PMC_DUMP PMC_DUMP_SKIPPED).onPmc fun x => { x with skippedSince := x.skippedSince + 1 }
    else
      let r := { blankRec with rtype := 6, addr := s.noChan, st := s.st, stLast := s.st, tqByte := s.tqByte false, count := 9,
                               payload := s.dumpImage, aq := 58 }
      let s' := (s'.addSeqRec r).onPmc fun x => { x with intervalStart := s.st, skippedSince := 0 }
      if s.on PMC_DUMP PMC_DUMP_DELTA then s'.pmcClear else s'

/-- The meaning of PMC_DUMP. -/
def execPmcDump (t : Nat) (s : State) : Host.Outcome State Fault Refusal := event t State.pmcDump s

/-- A write of 1 to CLEAR in PMC_CTRL (R508). -/
def execPmcClear (t : Nat) (s : State) : Host.Outcome State Fault Refusal := event t State.pmcZero s

/-- A JTAG instruction is loaded (R512). While EXTEST, EXTEST_PULSE, EXTEST_TRAIN, CLAMP or HIGHZ is loaded the hub stops
sampling and the scan cells drive the trip outputs. (DEDUCED, log entry 66; DESIGN CHOICE, log entry 68). -/
def execJtagInstruction (t : Nat) (i : Jtag) (s : State) : Host.Outcome State Fault Refusal :=
  event t (State.onSys · fun y => { y with jtag := some i }) s

end Sys2Proof.Machine
end

