-- ==== Sys2Proof/Machine/Filgor.lean ====
section
/-!
DEFINITION. The Filgor stream format (10_compression.md R305 to R315): prediction, tokens, the encoder's greedy parse, the
decoder and its errors.
-/

namespace Sys2Proof.Machine

/-- The low `n` bits of a number, least significant first. -/
def bitsOf : Nat → Nat → List Bool
  | 0, _ => []
  | n + 1, v => (v % 2 == 1) :: bitsOf n (v / 2)

/-- The number that bits spell, least significant first. -/
def natOfBits : List Bool → Nat
  | [] => 0
  | b :: bs => b2n b + 2 * natOfBits bs

/-- Bits packed from bit 0 of byte 0 upward, with `fuel` bytes at most. -/
def packGo : Nat → List Bool → List Byte
  | 0, _ => []
  | _, [] => []
  | fuel + 1, bs => byte (natOfBits (bs.take 8)) :: packGo fuel (bs.drop 8)

/-- Bits packed into bytes and padded with zero bits to a multiple of 32 (R307). -/
def packBits (bs : List Bool) : List Byte := pad4 (packGo (bs.length + 1) bs)

/-- The bits of bytes. -/
def unpackBits (bs : List Byte) : List Bool := bs.flatMap fun b => bitsOf 8 b.toNat

/-- The elements of `w` bytes that bytes spell, at most `fuel` (R306). -/
def elementsGo (w : Nat) : Nat → List Byte → List Nat
  | 0, _ => []
  | _, [] => []
  | fuel + 1, bs => ofLe (bs.take w) :: elementsGo w fuel (bs.drop w)

/-- The elements of `w` bytes that bytes spell. -/
def elements (w : Nat) (bs : List Byte) : List Nat := elementsGo w bs.length bs

/-- The bytes of elements. -/
def elementBytes (w : Nat) (xs : List Nat) : List Byte := xs.flatMap (le w)

/-- The prediction of R308. -/
def predict (m order p1 p2 : Nat) : Nat :=
  match order with
  | 0 => 0
  | 1 => p1
  | _ => (2 * p1 + m - p2) % m

/-- Zigzag and its inverse, modulo `m` = 2^(8w) (R308). -/
def zigzag (m r : Nat) : Nat := if r < m / 2 then 2 * r else 2 * (m - r) - 1
def unzigzag (m u : Nat) : Nat := if u % 2 = 0 then u / 2 else (m - (u + 1) / 2) % m

/-- The residuals of elements whose predecessors are `p1` and, before it, `p2`. -/
def residuals (m order : Nat) : Nat → Nat → List Nat → List Nat
  | _, _, [] => []
  | p1, p2, x :: xs => zigzag m ((x + m - predict m order p1 p2) % m) :: residuals m order x p1 xs

/-- The elements that residuals give. -/
def fromResiduals (m order : Nat) : Nat → Nat → List Nat → List Nat
  | _, _, [] => []
  | p1, p2, u :: us =>
    let x := (predict m order p1 p2 + unzigzag m u) % m
    x :: fromResiduals m order x p1 us

/-- A token (Table 10-4). -/
inductive Token where
  | lit (u : Nat)
  | back (l d : Nat)
  deriving DecidableEq, Repr

/-- The length of the common start of two lists. -/
def common : List Nat → List Nat → Nat
  | x :: xs, y :: ys => if x = y then common xs ys + 1 else 0
  | _, _ => 0

/-- The longest match of the residuals from position `i` among distances 1 to `window`, the nearest among equals: (length,
distance). -/
def bestMatch (us rest : List Nat) (i window : Nat) : Nat × Nat :=
  (List.range (min window i)).foldl (fun b k =>
    let n := common (us.drop (i - (k + 1))) rest
    if n > b.1 then (n, k + 1) else b) (0, 0)

/-- The greedy parse of R310. -/
def parseGo (us : List Nat) (window : Nat) : Nat → Nat → List Nat → List Token
  | 0, _, _ => []
  | _, _, [] => []
  | fuel + 1, i, u :: rest =>
    let m := bestMatch us (u :: rest) i window
    if m.1 ≥ 4 then .back m.1 m.2 :: parseGo us window fuel (i + m.1) ((u :: rest).drop m.1)
    else .lit u :: parseGo us window fuel (i + 1) rest

/-- The tokens of a block's residuals. -/
def parse (us : List Nat) (window : Nat) : List Token := parseGo us window us.length 0 us

/-- gamma(v) of R309. -/
def gamma (v : Nat) : List Bool := List.replicate v.log2 true ++ false :: bitsOf v.log2 v

/-- The bits of one token under Rice parameter `k` and `w` bytes an element (Table 10-4). -/
def tokenBits (w k : Nat) : Token → List Bool
  | .lit u =>
    if u / 2 ^ k ≤ 30 then false :: List.replicate (u / 2 ^ k) true ++ false :: bitsOf k u
    else false :: List.replicate 31 true ++ false :: bitsOf (8 * w) u
  | .back l d => true :: false :: gamma l ++ gamma d

/-- The number of bits of one token. -/
def tokenCost (w k : Nat) : Token → Nat
  | .lit u => if u / 2 ^ k ≤ 30 then u / 2 ^ k + 2 + k else 33 + 8 * w
  | .back l d => 4 + 2 * l.log2 + 2 * d.log2

/-- The tokens of a block, their order and K, of the fewest bits: the lowest order, then the lowest K, among equals (R310). -/
def chooseCode (w maxOrder window p1 p2 : Nat) (xs : List Nat) : List Token × Nat × Nat :=
  let m := 2 ^ (8 * w)
  let tries := (List.range (maxOrder + 1)).flatMap fun o =>
    let ts := parse (residuals m o p1 p2 xs) window
    (List.range (min 32 (8 * w))).map fun k => (ts.foldl (fun n t => n + tokenCost w k t) 0, ts, o, k)
  (tries.foldl (fun (b : Option (Nat × List Token × Nat × Nat)) c => match b with
    | none => some c
    | some x => if c.1 < x.1 then some c else b) none).elim ([], 0, 0) Prod.snd

/-- The 8 bytes of a block header (Table 10-3). -/
def blockHeader (btype order k : Nat) (last : Bool) (count crc : Nat) : List Byte :=
  le 2 (btype + 4 * order + 16 * k + 512 * b2n last) ++ le 2 count ++ le 4 crc

/-- The block of up to 4,096 elements: CODED, or STORED where CODED would not be shorter (R311). -/
def encodeBlock (w maxOrder window p1 p2 : Nat) (last : Bool) (xs : List Nat) : List Byte :=
  let c := chooseCode w maxOrder window p1 p2 xs
  let coded := packBits (c.1.flatMap (tokenBits w c.2.2) ++ [true, true])
  let orig := elementBytes w xs
  let stored := pad4 orig
  if coded.length < stored.length then blockHeader 1 c.2.1 c.2.2 last (xs.length - 1) (crc32c orig) ++ coded
  else blockHeader 0 0 0 last (xs.length - 1) (crc32c orig) ++ stored

/-- An END block. -/
def endBlock : List Byte := blockHeader 3 0 0 true 0 0

/-- The 8 bytes of a stream header (Table 10-2). -/
def streamHeader (w length : Nat) : List Byte := [0xF5#8, 0x1A#8, 0x01#8, byte w] ++ le 4 length

/-- The last two elements of a list, after `p1` and `p2`. -/
def lastTwo (p1 p2 : Nat) (xs : List Nat) : Nat × Nat := xs.foldl (fun p x => (x, p.1)) (p1, p2)

/-- The blocks of elements, at most `fuel` of them, the last of them LAST. -/
def encodeGo (w maxOrder window : Nat) : Nat → Nat → Nat → List Nat → List Byte
  | 0, _, _, _ => []
  | fuel + 1, p1, p2, xs =>
    if xs.length ≤ 4096 then encodeBlock w maxOrder window p1 p2 true xs
    else
      let l := lastTwo p1 p2 (xs.take 4096)
      encodeBlock w maxOrder window p1 p2 false (xs.take 4096) ++ encodeGo w maxOrder window fuel l.1 l.2 (xs.drop 4096)

/-- The FSF stream of some bytes (R303). -/
def encodeStream (w maxOrder window : Nat) (bs : List Byte) : List Byte :=
  let xs := elements w bs
  streamHeader w bs.length ++ (if xs.isEmpty then endBlock else encodeGo w maxOrder window xs.length 0 0 xs)

/-- A decoder error (Table 10-5, R315): code, block, bit offset. -/
structure DecErr where
  code : Nat
  block : Nat
  bitOff : Nat
  deriving DecidableEq, Repr

/-- What a decoder made of its input: the elements of the blocks decoded whole, and the error it stopped at. -/
structure Decoded where
  width : Nat
  elems : List Nat
  blocks : Nat
  err : Option DecErr
  deriving DecidableEq, Repr

/-- A unary value: its ones, and what follows its zero. `none` where the input ends; a count of `lim` ones or more is given
as it stands. -/
def unary (lim : Nat) : Nat → List Bool → Option (Nat × List Bool)
  | _, [] => none
  | n, false :: bs => some (n, bs)
  | n, true :: bs => if n + 1 ≥ lim then some (n + 1, bs) else unary lim (n + 1) bs

/-- The next `n` bits as a number. -/
def takeBits (n : Nat) (bs : List Bool) : Option (Nat × List Bool) :=
  if bs.length < n then none else some (natOfBits (bs.take n), bs.drop n)

/-- gamma: `some none` for a prefix of more than 16 ones, `none` where the input ends. -/
def readGamma (bs : List Bool) : Option (Option (Nat × List Bool)) :=
  match unary 17 0 bs with
  | none => none
  | some (m, rest) =>
    if m > 16 then some none
    else match takeBits m rest with
      | none => none
      | some (v, rest) => some (some (2 ^ m + v, rest))

/-- `l` residuals copied from `d` back; `acc` holds the residuals produced, the latest first. -/
def copyBack (d : Nat) : Nat → List Nat → List Nat
  | 0, acc => acc
  | l + 1, acc => copyBack d l (acc.getD (d - 1) 0 :: acc)

/-- The residuals of a CODED block and the bits after its end token, or an error code with its bit offset from the start of
these bits (R309, R314). `room` is how many elements may still follow in the whole stream. -/
def decodeTokens (w k n room total : Nat) : Nat → List Nat → List Bool → Except (Nat × Nat) (List Nat × List Bool)
  | 0, _, _ => .error (5, total)
  | fuel + 1, acc, bs =>
    let at_ := total - bs.length
    let past := fun l => decide (acc.length + l > n) || decide (acc.length + l > room)
    match bs with
    | false :: rest =>
      match unary 32 0 rest with
      | none => if past 1 then .error (3, at_) else .error (5, total)
      | some (q, rest) =>
        if q ≥ 32 then .error (1, at_)
        else match takeBits (if q = 31 then 8 * w else k) rest with
          | none => if past 1 then .error (3, at_) else .error (5, total)
          | some (v, rest) =>
            if past 1 then .error (3, at_)
            else decodeTokens w k n room total fuel ((if q = 31 then v else (q * 2 ^ k + v) % 2 ^ (8 * w)) :: acc) rest
    | true :: false :: rest =>
      match readGamma rest with
      | none => .error (5, total)
      | some none => .error (1, at_)
      | some (some (l, rest)) =>
        match readGamma rest with
        | none => if l < 2 ∨ l > 4096 then .error (1, at_) else if past l then .error (3, at_) else .error (5, total)
        | some none => .error (1, at_)
        | some (some (d, rest)) =>
          if l < 2 ∨ l > 4096 then .error (1, at_)
          else if d > acc.length then .error (2, at_)
          else if past l then .error (3, at_)
          else decodeTokens w k n room total fuel (copyBack d l acc) rest
    | true :: true :: rest => if acc.length < n then .error (5, at_) else .ok (acc.reverse, rest)
    | _ => .error (5, total)

/-- The blocks of a stream from byte offset `off` on. `left` is how many elements the original length still allows, where it
is known. -/
def decodeBlocks (w : Nat) (known : Bool) (len : Nat) : Nat → Nat → Nat → Nat → Nat → List Nat → List Byte → Decoded
  | 0, _, _, _, blk, done, _ => ⟨w, done, blk, some ⟨5, blk, 8 * len⟩⟩
  | fuel + 1, left, p1, p2, blk, done, bs =>
    let off := len - bs.length
    let fail := fun code at_ => (⟨w, done, blk, some ⟨code, blk, at_⟩⟩ : Decoded)
    if bs.length < 8 then fail 5 (8 * len)
    else
      let h := num bs 0 2
      let bt := bits h 0 2
      let o := bits h 2 2
      let k := bits h 4 5
      let last := bit h 9
      let n := num bs 2 2 + 1
      let crc := num bs 4 4
      let m := 2 ^ (8 * w)
      let finish := fun (xs : List Nat) (rest : List Byte) =>
        if crc32c (elementBytes w xs) != crc then fail 4 (8 * off)
        else
          let l := lastTwo p1 p2 xs
          if last then
            if !rest.isEmpty then (⟨w, done ++ xs, blk + 1, some ⟨3, blk + 1, 8 * (len - rest.length)⟩⟩ : Decoded)
            else if known && decide (left > xs.length) then ⟨w, done ++ xs, blk + 1, some ⟨5, blk, 8 * len⟩⟩
            else ⟨w, done ++ xs, blk + 1, none⟩
          else decodeBlocks w known len fuel (left - xs.length) l.1 l.2 (blk + 1) (done ++ xs) rest
      if bt = 2 ∨ o = 3 ∨ k ≥ 8 * w ∨ bits h 10 6 ≠ 0 ∨ (bt ≠ 1 ∧ (o ≠ 0 ∨ k ≠ 0)) then fail 1 (8 * off)
      else if bt = 3 then
        if !last ∨ num bs 2 2 ≠ 0 then fail 1 (8 * off) else finish [] (bs.drop 8)
      else if n > 4096 then fail 3 (8 * off)
      else if bt = 0 then
        if known && decide (n > left) then fail 3 (8 * off)
        else
          let size := (n * w + 3) / 4 * 4
          if bs.length < 8 + size then fail 5 (8 * len)
          else if !zeroAt bs (8 + n * w) (size - n * w) then fail 1 (8 * (off + 8 + n * w))
          else finish (elements w (bytesAt bs 8 (n * w))) (bs.drop (8 + size))
      else
        let body := unpackBits (bs.drop 8)
        match decodeTokens w k n (if known then left else n) body.length body.length [] body with
        | .error (code, at_) => fail code (8 * (off + 8) + at_)
        | .ok (us, rest) =>
          let used := body.length - rest.length
          let pad := (32 - used % 32) % 32
          if rest.length < pad then fail 5 (8 * len)
          else if (rest.take pad).any id then fail 1 (8 * (off + 8) + used)
          else finish (fromResiduals m o p1 p2 us) (bs.drop (8 + (used + pad) / 8))

/-- A decoder's reading of an FSF stream (R310, R314). -/
def decodeStream (bs : List Byte) : Decoded :=
  let w := num bs 3 1
  let n := num bs 4 4
  if bs.length ≥ 4 ∧ (bytesAt bs 0 3 ≠ [0xF5#8, 0x1A#8, 0x01#8] ∨ (w ≠ 1 ∧ w ≠ 3 ∧ w ≠ 4)) then ⟨w, [], 0, some ⟨1, 0, 0⟩⟩
  else if bs.length < 8 then ⟨w, [], 0, some ⟨5, 0, 8 * bs.length⟩⟩
  else
    let known := n != 0xFFFFFFFF
    decodeBlocks w known bs.length bs.length (if known then n / w else 0) 0 0 0 [] (bs.drop 8)

/-- Does a stream decode, without error, to these bytes? -/
def decodesTo (w : Nat) (fsf orig : List Byte) : Bool :=
  let d := decodeStream fsf
  d.err.isNone && elementBytes w d.elems == orig

end Sys2Proof.Machine
end

