-- ==== Sys2Proof/Machine/Retain.lean ====
section
/-!
DEFINITION. The QM block (09_queues_and_retention.md): spill to retention and return, drops, rewinds, RELEASE, shutters,
queue configuration and status.
-/

namespace Sys2Proof.Machine

open Reg Bits

/-- Element width of a record's payload (10_compression.md R306). -/
def Rec.width (r : Rec) : Nat := if r.fmt = 1 ∨ r.fmt = 3 then 4 else if r.fmt = 2 then 3 else 1

/-- Records compressed are counted in units of 256 (CMP_STAT RECORDS). -/
def State.countCompressed (s : State) : State :=
  let n := s.cmp.count + 1
  (s.bumpBy CMP_STAT CMP_STAT_RECORDS (n / 256)).onCmp fun c => { c with count := n % 256 }

/-- Bytes in and out of the encoder are counted (CMP_RATIO; 17_counters_and_test.md Table 17-1, in units of 256). -/
def State.countCmp (s : State) (n m : Nat) : State :=
  let a := s.cmp.inRem + n
  let b := s.cmp.outRem + m
  let s := s.onCmp fun c => { c with bytesIn := c.bytesIn + n, bytesOut := c.bytesOut + m, inRem := a % 256, outRem := b % 256 }
  (s.pmc 0x901 0 (a / 256)).pmc 0x902 0 (b / 256)

/-- The encoder and, with VERIFY, the verifying decoder run over a record's payload: the FSF stream, or nothing where it
would not be shorter (R304) or does not verify (R313), under the configuration in force as the record entered (R319). -/
def State.compress (s : State) (r : Rec) : Option (List Byte) × State :=
  let w := r.width
  let out := encodeStream w (wfld r.ctrl CMP_CTRL_MAX_ORDER) (wfld r.ctrl CMP_CTRL_WINDOW) r.payload
  let s := s.countCmp r.payload.length out.length
  if wfld r.ctrl CMP_CTRL_VERIFY = 1 && !decodesTo w out r.payload then
    let blk := match (decodeStream out).err with
      | some e => e.block
      | none => 0
    (none, (s.bump CMP_STAT CMP_STAT_VERIFY_FAIL).issue 0x9001 [r.addr % 2 ^ 21, r.rtype, r.first, blk])
  else if out.length ≥ (pad4 r.payload).length then (none, s.bump CMP_RATIO CMP_RATIO_STORED_RECORDS)
  else (some out, s.countCompressed)

/-- The extents that a record of `len` bytes takes next in the log of retention (R285), and where the log then stands.
(DEDUCED, log entry 56). -/
def State.retPlan (s : State) (len : Nat) : List Nat × Nat × Nat :=
  let a := s.qm.retExt * 65536 + s.qm.retFill
  let b := a + len
  ((List.range ((b - 1) / 65536 + 1 - a / 65536)).map (a / 65536 + ·), b / 65536, b % 65536)

/-- Retention in use after the extents `es` are taken besides. (DEDUCED, log entry 56). -/
def State.retAfter (s : State) (es : List Nat) : Nat := 65536 * (((s.qm.recs.flatMap Rec.exts) ++ es).eraseDups).length

/-- Record types of Q49, for which the reserve of retention is kept (R286, Table 09-2). -/
def isQ49 (rtype : Nat) : Bool := rtype == 3 || rtype == 4 || rtype == 5 || rtype == 8 || rtype == 9

/-- Would writing a record of `len` bytes go beyond what retention holds for its type (R286)? -/
def State.retOver (s : State) (rtype len : Nat) : Bool :=
  decide (s.retAfter (s.retPlan len).1 > if isQ49 rtype then s.retArea else s.retArea - s.retArea / 64)

/-- Drop records until enough of retention is free or none remains to drop. -/
def State.dropMore (s : State) : Nat → State
  | 0 => s
  | fuel + 1 =>
    if s.retEased then s
    else match s.nextDrop with
      | none => s
      | some r => State.dropMore ((s.dropRec r 0).onQm fun m => { m with dropped := m.dropped + 1 }) fuel

/-- Retention is exhausted (R286): reported, then records drop in their order. -/
def State.exhaust (s : State) : State :=
  let s := if s.qm.exhausted then s
    else ((s.setFld QM_DROP_STAT QM_DROP_STAT_EXHAUSTED 1).issue 0x8003 [1, s.retFillNow, s.qm.dropped]).onQm fun m =>
      { m with exhausted := true, dropped := 0 }
  (s.dropMore s.qm.recs.length).retNormal

/-- The form a record takes in retention: the FSF stream, or none for its own bytes. -/
def Rec.kept (r : Rec) : List Byte := r.spilled.getD r.payload

/-- Where in the DRAM a record in retention lies. -/
def State.retentionBase (s : State) (id : Nat) : Nat := s.histArea + (Config.retentionPlace id).toNat % max 1 s.retArea

/-- A record whose cells are charged to Q52 is written to retention and its cells are free (R285). Where retention has no
room for it, records drop first, this one perhaps among them. -/
def State.storeRec (s : State) (id : Nat) : State :=
  match s.qm.recs.find? fun r => r.id == id with
  | none => s
  | some r =>
    let len := 32 + (pad4 r.kept).length
    let s := if s.retOver r.rtype len then s.exhaust else s
    if s.retOver r.rtype len then s
    else
      let p := s.retPlan len
      let s := s.onQm fun m => { m with retExt := p.2.1, retFill := p.2.2 }
      let s := (s.memWriteRange 0 (s.retentionBase id) len 3).2
      (s.onRec id fun x => { x with place := .retention, inAsm := 0, entered := 0, exts := p.1 }).pmc 0x805 0 r.cells

/-- The spill of a record starts: its charge moves to Q52, and the encoder takes it where it is to be compressed; else it is
written at once (R285, R301). A spill that finds Q50 or Q52 full waits (R304). (DEDUCED, log entry 56). -/
def State.startSpill (s : State) (r : Rec) : State :=
  if r.cells > s.room 52 || s.full 50 then s
  else
    let s := s.onRec r.id fun x => { x with place := .spilling, aq := 52, inAsm := x.cells, entered := 0, ctrl := s.rd CMP_CTRL }
    if s.on QM_RET_CFG QM_RET_CFG_RET_CMP && !r.fsf && !r.payload.isEmpty then s else s.storeRec r.id

/-- The encoder has finished a spilling record: it is written to retention, compressed where that is shorter.
(DEDUCED, log entry 56). -/
def State.finishSpill (s : State) (r : Rec) : State :=
  let c := s.compress r
  (c.2.onRec r.id fun x => { x with spilled := c.1 }).storeRec r.id

/-- May a record be taken to retention as it lies: waiting, sent or delivered, not partly sent (R285)? -/
def Rec.spillable (r : Rec) : Bool :=
  r.place == .queued || r.place == .delivered || (r.place == .sending && r.popped == r.cells)

/-- Is the pool pressed: its free shared cells below (100 - SPILL_HIGH) % of the shared cells (R285)? -/
def State.poolPressed (s : State) : Bool :=
  decide (100 * s.freeShared < (100 - s.fld QM_RET_CFG QM_RET_CFG_SPILL_HIGH) * s.sharedCells)

/-- Is a record due to spill (R285): held for SPILL_AGE, or the oldest held record under pool pressure? -/
def State.spillDue (s : State) (r : Rec) : Bool :=
  let oldest := s.qm.recs.foldl (fun n x => if x.spillable then min n x.agedFrom else n) r.agedFrom
  decide (s.now ≥ r.agedFrom + fineMs (10 * s.fld QM_RET_CFG QM_RET_CFG_SPILL_AGE)) || (s.poolPressed && r.agedFrom == oldest)

/-- SPILL of record `rid`. -/
def State.spill (s : State) (rid : Nat) : State :=
  match s.qm.recs.find? fun r => r.id == rid && r.spillable with
  | none => s
  | some r => if s.spillDue r then s.startSpill r else s

/-- The meaning of SPILL. -/
def execSpill (t rid : Nat) (s : State) : Host.Outcome State Fault Refusal := event t (State.spill · rid) s

/-- A decoder error is reported (10_compression.md R315). -/
def State.decodeError (s : State) (path addr : Nat) (e : DecErr) : State :=
  let s := (s.bump CMP_ERR CMP_ERR_DECODE_ERRORS).setFld CMP_LAST_ERR CMP_LAST_ERR_CODE e.code
  let s := (s.setFld CMP_LAST_ERR CMP_LAST_ERR_BLOCK (satN 12 e.block)).setFld CMP_LAST_ERR CMP_LAST_ERR_PATH path
  (s.setFld CMP_LAST_POS CMP_LAST_POS_BIT_OFFSET e.bitOff).issue 0x9002 [path, e.code, e.block, e.bitOff, addr]

/-- Is a record in retention wanted back: a rewind asked for it, or it waits unsent and its egress takes it (R285)? -/
def State.wanted (s : State) (r : Rec) : Bool :=
  r.place == .returning || (r.place == .retention && r.deliveredAt.isNone && s.egressOf r != 64)

/-- RETENTION_RETURN of record `rid` (R285, R315): read back in order through Q53, in the form it had before the spill. One
that fails is lost and declared with reason 3. -/
def State.retentionReturn (s : State) (rid : Nat) : State :=
  match s.qm.recs.find? fun r => s.wanted r with
  | none => s
  | some first =>
    match s.qm.recs.find? fun r => r.id == rid && s.wanted r with
    | none => s
    | some r =>
      if (first.id != rid && s.egressOf first == s.egressOf r) || s.power == 1 || r.cells > s.room 53 then s
      else
        let len := 32 + (pad4 r.kept).length
        let rd := s.memReadRange 0 (s.retentionBase rid) len 3
        let s := rd.2
        let lost := fun (s : State) => s.dropRec r 3
        if !rd.1 then lost s
        else
          let d := match r.spilled with
            | none => (none, r.payload)
            | some f => let x := decodeStream f; (x.err, (elementBytes x.width x.elems))
          match d.1 with
          | some e => lost (s.decodeError 0 (r.addr % 2 ^ 21) e)
          | none =>
            let s := s.wroteCells rid r.cells
            (s.onRec rid fun x => { x with place := .queued, payload := d.2, spilled := none, exts := [], popped := 0, agedFrom := s.now,
                                           aq := 53, inAsm := x.cells, entered := 0 }).pmc 0x806 0 r.cells

/-- The meaning of RETENTION_RETURN. -/
def execRetentionReturn (t rid : Nat) (s : State) : Host.Outcome State Fault Refusal := event t (State.retentionReturn · rid) s

/-- The pushes that wait on queue `q` complete as far as it has room (R274). -/
def State.resume (s : State) (q : Nat) : State :=
  (s.qm.recs.filter fun r => r.aq == q || r.q == q).foldl (fun s r => s.pushRec r) s

/-- The meaning of PUSH_RESUMED. -/
def execPushResumed (t : Nat) (q : Fin 64) (s : State) : Host.Outcome State Fault Refusal := event t (State.resume · q.val) s

/-- A delivered record has stayed unreleased for REL_TIMEOUT: its queue is to rewind (Table 09-4 row 3). -/
def State.relTimeout (s : State) (q : Nat) : State :=
  let late := s.qm.recs.any fun r => r.q == q && match r.deliveredAt with
    | some d => decide (s.now ≥ d + fineMs (s.fld QM_CTRL QM_CTRL_REL_TIMEOUT))
    | none => false
  if late then s.askRewind q 3 else s

/-- The meaning of REWIND_TIMEOUT. -/
def execRewindTimeout (t : Nat) (q : Fin 64) (s : State) : Host.Outcome State Fault Refusal := event t (State.relTimeout · q.val) s

/-- A rewind that waits takes effect at the record boundary of its queue (R280). -/
def State.rewindNow (s : State) (q : Nat) : State :=
  match (s.qst q).rewindCause with
  | some c => if s.sending q then s else s.rewind q c
  | none => s

/-- The meaning of REWIND_APPLY. -/
def execRewindApply (t : Nat) (q : Fin 64) (s : State) : Host.Outcome State Fault Refusal := event t (State.rewindNow · q.val) s

/-- Does a RELEASE entry match a held record of this hub (R282)? -/
def entryMatches (e : List Byte) (r : Rec) : Bool :=
  let a := num e 0 3
  let lo := num e 8 8
  let hi := num e 16 8
  let inside := decide (lo ≤ r.first) && decide (r.last ≤ hi)
  if r.rtype = 1 ∨ r.rtype = 2 ∨ r.rtype = 7 then
    num e 3 1 == r.rtype && a == r.addr && num e 4 2 == r.pane && inside
  else
    num e 3 1 == r.rtype && bits r.addr 10 11 == bits a 10 11 && bits a 0 10 == 1023 && bits a 21 3 == 0 && num e 4 2 == 0 && inside

/-- One RELEASE entry (R282): the records it frees, or a count in UNMATCHED; nothing where it names another hub. Answers the
records freed and whether it was unmatched. -/
def State.releaseEntry (s : State) (e : List Byte) : Nat × Nat × State :=
  if bits (num e 0 3) 10 11 ≠ s.addr then (0, 0, s)
  else
    let n := (s.qm.recs.filter fun r => entryMatches e r).length
    if n = 0 then (0, 1, s.bump QM_REL_STAT QM_REL_STAT_UNMATCHED)
    else
      let gone := s.qm.recs.filter fun r => decide (r.q < 32) && entryMatches e r && (s.nextRec r.q).any fun x => x.id == r.id
      let s := gone.foldl (fun s r => s.onQst r.q fun x => { x with freed := some (s.clock, r) }) s
      let s := (s.onQm fun m => { m with recs := m.recs.filter fun r => !(entryMatches e r), freed := m.freed + n }).pmc 0x804 0 n
      (n, 0, (s.bumpBy QM_REL_STAT QM_REL_STAT_FREED (s.qm.freed / 256)).onQm fun m => { m with freed := m.freed % 256 })

/-- RELEASE (0x8003), R281, R282, R297; a scoped one that the active head relays also enters its ledger (13_head_redundancy.md
R408). (DEDUCED, log entries 8 and 9). -/
def bodyRelease : Body := fun c ps s =>
  let n := num ps 0 2
  let f := num ps 2 1
  checked s [need (decide (1 ≤ n) && decide (n ≤ 170) && decide (f < 2) && zeroAt ps 3 1) stBAD_PARAM,
    need (allIn 0 n fun i => zeroAt ps (10 + 24 * i) 2) stBAD_PARAM]
    (let es := (List.range n).map fun i => bytesAt ps (4 + 24 * i) 24
     let s := if s.isActive && c.isScoped then s.ledgerAdd es else s
     let out := es.foldl (fun (a : Nat × Nat × State) e =>
       let x := a.2.2.releaseEntry e
       (a.1 + x.1, a.2.1 + x.2.1, x.2.2)) (0, 0, s)
     let s := out.2.2.retNormal
     if bit f 0 then .reply s stOK (le 4 out.1 ++ le 2 out.2.1) else .quiet s)

/-- The meaning of RELEASE. -/
def execRelease (t : Nat) (p : Packet) (s : State) : Host.Outcome State Fault Refusal := command 0x8003 bodyRelease t p s

/-- May a queue take these limits (R273, R295): the status of the first check that fails? -/
def State.queueRefuses (s : State) (q : Nat) (cfg wm : Word) : List (Option Nat) :=
  let res := wfld cfg QM_Q_CFG_RESERVE
  let total := s.replayTotal + (List.range 64).foldl (fun n i => n + if i = q then res else s.qReserve i) 0
  [need (res ≤ wfld cfg QM_Q_CFG_LIMIT) stBAD_PARAM,
   need (wfld wm QM_Q_WM_LINTEL == 0 || decide (wfld wm QM_Q_WM_LINTEL > wfld wm QM_Q_WM_SILL)) stBAD_PARAM,
   need (total ≤ 65536) stNO_RESOURCE]

/-- A watermark pair is stored; one that differs from the pair in force clears LEVEL (R295). -/
def State.setWatermark (s : State) (q : Nat) (wm : Word) : State :=
  let s' := s.wr (QM_Q_WM q) wm
  if s.rd (QM_Q_WM q) = wm then s' else s'.onQst q fun x => { x with level := false, pairIn := some s.clock }

/-- QUEUE_CONFIG (0x8001), R295. -/
def bodyQueueConfig : Body := fun _ ps s =>
  let q := num ps 0 1
  let cfg := word (num ps 4 4)
  let wm := word (num ps 8 4)
  checked s (need (q < 64 && zeroAt ps 1 3) stBAD_PARAM :: s.queueRefuses q cfg wm)
    (ok ((s.wr (QM_Q_CFG q) cfg).setWatermark q wm))

/-- The meaning of QUEUE_CONFIG. -/
def execQueueConfig (t : Nat) (p : Packet) (s : State) : Host.Outcome State Fault Refusal := command 0x8001 bodyQueueConfig t p s

/-- QM_Q_STAT and QM_Q_FLAGS as they read now. -/
def State.qStat (s : State) (q : Nat) : Word := word (satN 16 (s.held q) * 65536 + satN 16 (s.depth q))
def State.qFlags (s : State) (q : Nat) : Word :=
  setBits (setBits (setBits (s.rd (QM_Q_FLAGS q)) QM_Q_FLAGS_FULL (b2n (s.full q))) QM_Q_FLAGS_LEVEL (b2n (s.qst q).level))
    QM_Q_FLAGS_EMPTY (b2n (s.depth q == 0))

/-- The clearing fields and counts of a queue are cleared as they are read: what this clock has set stays for the next read (R296;
00_scope.md R9). Answers QM_Q_FLAGS and the counts as read. -/
def State.clearQueue (s : State) (q : Nat) : (Word × Nat × Nat) × State :=
  let a := QM_Q_FLAGS q
  let c := s.takeRc a QM_Q_FLAGS_CROSSINGS
  let u := s.freshBits a QM_Q_FLAGS_UNDERRUN
  let x := s.freshBits a QM_Q_FLAGS_CROSSED
  let n := fun k => min (s.freshCount (queueCount q k) ⟨0, 16⟩) (if k = 0 then (s.qst q).underruns else (s.qst q).rewinds)
  let w := setBits (setBits (setBits (s.qFlags q) QM_Q_FLAGS_CROSSINGS c.1) QM_Q_FLAGS_UNDERRUN (if u = 1 then 0 else s.fld a QM_Q_FLAGS_UNDERRUN))
    QM_Q_FLAGS_CROSSED (if x = 1 then 0 else s.fld a QM_Q_FLAGS_CROSSED)
  ((w, (s.qst q).underruns - n 0, (s.qst q).rewinds - n 1),
   ((c.2.setFld a QM_Q_FLAGS_UNDERRUN u).setFld a QM_Q_FLAGS_CROSSED x).onQst q fun y => { y with underruns := n 0, rewinds := n 1 })

/-- QUEUE_STATUS (0x8002), R296. (DEDUCED, log entry 8). -/
def bodyQueueStatus : Body := fun _ ps s =>
  let first := num ps 0 1
  let n := num ps 1 1
  let f := num ps 2 1
  checked s [need (decide (1 ≤ n) && decide (n ≤ 64) && decide (first + n ≤ 64) && decide (f < 2) && zeroAt ps 3 1) stBAD_PARAM]
    (let read := fun (s : State) q => if bit f 0 then s.clearQueue q else ((s.qFlags q, (s.qst q).underruns, (s.qst q).rewinds), s)
     let out := ((List.range n).map (first + ·)).foldl (fun (a : List Byte × State) q =>
       let r := read a.2 q
       (a.1 ++ le 4 (s.rd (QM_Q_CFG q)).toNat ++ le 4 (s.rd (QM_Q_WM q)).toNat ++ le 4 (s.qStat q).toNat ++ le 4 r.1.1.toNat
         ++ le 2 r.1.2.1 ++ le 2 r.1.2.2, r.2)) ([], s)
     .reply out.2 stOK out.1)

/-- The meaning of QUEUE_STATUS. -/
def execQueueStatus (t : Nat) (p : Packet) (s : State) : Host.Outcome State Fault Refusal := command 0x8002 bodyQueueStatus t p s

/-- Do words for QM_RET_CFG and QM_CTRL hold no value that RETENTION_CONFIG refuses (R298)? -/
def retCfgOk (w : Word) : Bool :=
  let age := wfld w QM_RET_CFG_SPILL_AGE
  let high := wfld w QM_RET_CFG_SPILL_HIGH
  decide (10 ≤ age) && decide (age ≤ 6000) && decide (50 ≤ high) && decide (high ≤ 95)
def qmCtrlOk (w : Word) : Bool := decide (100 ≤ wfld w QM_CTRL_REL_TIMEOUT)

/-- RETENTION_CONFIG (0x8004), R298. -/
def bodyRetentionConfig : Body := fun _ ps s =>
  let a := word (num ps 0 4)
  let b := word (num ps 4 4)
  checked s [need (retCfgOk a && bits a.toNat 24 7 == 0 && qmCtrlOk b && bits b.toNat 16 8 == 0) stBAD_PARAM]
    (.reply ((s.wr QM_RET_CFG a).wr QM_CTRL b) stOK (le 8 s.retArea))

/-- The meaning of RETENTION_CONFIG. -/
def execRetentionConfig (t : Nat) (p : Packet) (s : State) : Host.Outcome State Fault Refusal := command 0x8004 bodyRetentionConfig t p s

/-- The held records that shutter `i` matches. -/
def State.shutHeld (s : State) (i : Nat) : Nat :=
  (s.qm.recs.filter fun r => s.shutMatches i (classOf r.rtype) r.rtype r.addr).length

/-- SHUTTER_STATE of entry `i` (Table 09-8). -/
def State.shutEvent (s : State) (i state : Nat) : State :=
  s.issue 0x8004 [s.fld (QM_SHUT_CTRL i) QM_SHUT_CTRL_ID, state, s.fld (QM_SHUT_CTRL i) QM_SHUT_CTRL_DISCARD, s.shutHeld i]

/-- The entry a SHUTTER takes: the one with its ID, else the first free one (R290). -/
def State.shutEntry (s : State) (id : Nat) : Option Nat :=
  match s.shutters.find? fun i => s.fld (QM_SHUT_CTRL i) QM_SHUT_CTRL_ID == id with
  | some i => some i
  | none => (List.range 32).find? fun i => !s.on (QM_SHUT_CTRL i) QM_SHUT_CTRL_ACTIVE

/-- The shutter in entry `i` changes: until this clock ends the words before the change act (R289). -/
def State.shutChange (s : State) (i : Nat) : State :=
  let w := s.shutWords i
  s.onQm fun m => { m with shutOld := Tab.set none m.shutOld i (some (s.clock, w)) }

/-- A shutter is installed in entry `i` from its parameters (Table 09-7). -/
def State.installShutter (s : State) (i : Nat) (ps : List Byte) : State :=
  let f := num ps 2 1
  let dur := num ps 16 4
  let s := s.shutChange i
  let s := (((((s.setFld (QM_SHUT_CTRL i) QM_SHUT_CTRL_ACTIVE 1).setFld (QM_SHUT_CTRL i) QM_SHUT_CTRL_DISCARD (bits f 0 1)).setFld
    (QM_SHUT_CTRL i) QM_SHUT_CTRL_CLS_S (bits f 1 1)).setFld (QM_SHUT_CTRL i) QM_SHUT_CTRL_CLS_B (bits f 2 1)).setFld (QM_SHUT_CTRL i)
    QM_SHUT_CTRL_ID (num ps 0 2))
  let s := (s.setFld (QM_SHUT_HUB i) QM_SHUT_HUB_HUB_FIRST (num ps 4 2)).setFld (QM_SHUT_HUB i) QM_SHUT_HUB_HUB_LAST (num ps 6 2)
  let s := (s.setFld (QM_SHUT_CHAN i) QM_SHUT_CHAN_CH_FIRST (num ps 8 2)).setFld (QM_SHUT_CHAN i) QM_SHUT_CHAN_CH_LAST (num ps 10 2)
  let s := s.setFld (QM_SHUT_TYPE i) QM_SHUT_TYPE_TYPES (num ps 12 2)
  let s := s.onQm fun m => { m with shutEnd := Tab.set 0 m.shutEnd i (if dur = 0 then 0 else s.now + fineMs dur) }
  s.shutEvent i 0

/-- SHUTTER (0x8005), R290, R299. -/
def bodyShutter : Body := fun _ ps s =>
  let id := num ps 0 2
  let f := num ps 2 1
  checked s
    [need (id != 0xFFFF && f < 8 && f / 2 != 0 && zeroAt ps 3 1 && zeroAt ps 14 2) stBAD_PARAM,
     need (num ps 4 2 ≤ num ps 6 2 && num ps 6 2 < 2048 && num ps 8 2 ≤ num ps 10 2 && num ps 10 2 < 1024) stBAD_PARAM,
     need (num ps 12 2 != 0 && num ps 12 2 < 512 && num ps 16 4 ≤ 86400000) stBAD_PARAM,
     need (s.shutEntry id).isSome stNO_RESOURCE]
    (match s.shutEntry id with
     | some i => ok (s.installShutter i ps)
     | none => refuse s stNO_RESOURCE)

/-- The meaning of SHUTTER. -/
def execShutter (t : Nat) (p : Packet) (s : State) : Host.Outcome State Fault Refusal := command 0x8005 bodyShutter t p s

/-- Shutter `i` opens; the event tells how (R294): 1 opened, 2 expired. -/
def State.openShutter (s : State) (i how : Nat) : State :=
  let s := s.shutEvent i how
  ((((s.wr (QM_SHUT_CTRL i) 0#32).wr (QM_SHUT_HUB i) 0#32).wr (QM_SHUT_CHAN i) 0#32).wr (QM_SHUT_TYPE i) 0#32).onQm fun m =>
    { m with shutEnd := Tab.set 0 m.shutEnd i 0 }

/-- SHUTTER_OPEN (0x8006), R294. -/
def bodyShutterOpen : Body := fun _ ps s =>
  let id := num ps 0 2
  checked s [need (zeroAt ps 2 2) stBAD_PARAM]
    (ok ((s.shutters.filter fun i => id == 0xFFFF || s.fld (QM_SHUT_CTRL i) QM_SHUT_CTRL_ID == id).foldl (fun s i => s.openShutter i 1) s))

/-- The meaning of SHUTTER_OPEN. -/
def execShutterOpen (t : Nat) (p : Packet) (s : State) : Host.Outcome State Fault Refusal := command 0x8006 bodyShutterOpen t p s

/-- The DURATION of shutter `i` has passed (R294). -/
def State.shutExpire (s : State) (i : Nat) : State :=
  let e := Tab.get 0 s.qm.shutEnd i
  if s.on (QM_SHUT_CTRL i) QM_SHUT_CTRL_ACTIVE && e != 0 && decide (s.now ≥ e) then s.openShutter i 2 else s

/-- The meaning of SHUTTER_EXPIRY. -/
def execShutterExpiry (t : Nat) (i : Fin 32) (s : State) : Host.Outcome State Fault Refusal := event t (State.shutExpire · i.val) s

/-- REMAIN of QM_SHUT_TYPE, in units of 100 ms. -/
def State.shutRemain (s : State) (i : Nat) : Nat :=
  let e := Tab.get 0 s.qm.shutEnd i
  if e = 0 then 0 else satN 16 (ceilDiv (e - s.now) (fineMs 100))

/-- The event record being filled closes 10 ms after its first entry (07_panes_and_triggers.md R211). -/
def State.evClose (s : State) : State :=
  match s.qm.evRec with
  | some r => if s.now ≥ r.openedAt + fineMs 10 then s.closeEvents else s
  | none => s

/-- The meaning of EVENT_RECORD_CLOSE. -/
def execEventRecordClose (t : Nat) (s : State) : Host.Outcome State Fault Refusal := event t State.evClose s

end Sys2Proof.Machine
end

