-- ==== Sys2Proof/Machine/Compress.lean ====
section
/-!
DEFINITION. The CMP block (10_compression.md): records through the engine, jobs and slots in the DRAM work area, flushes.
-/

namespace Sys2Proof.Machine

open Reg Bits

/-- A record leaves the engine for its egress queue, behind those already there (R301, R304). -/
def State.leaveEngine (s : State) (r : Rec) (f : Rec → Rec) : State :=
  s.onQm fun m => { m with recs := (m.recs.filter fun x => x.id != r.id) ++ [f { r with place := .queued, aq := 51, inAsm := 0, entered := 0, wantCmp := false }] }

/-- CMP_RECORD_DONE of record `rid`: the encoder takes ring egress first, in the order the records closed, each once it is whole in Q50,
then spills (R304, R313). -/
def State.recordDone (s : State) (rid : Nat) : State :=
  let waiting := s.qm.recs.filter fun r => r.place == .engine
  match waiting.head? with
  | some r =>
    if r.id != rid || r.inAsm != r.cells then s
    else
      let c := s.compress r
      match c.1 with
      | some out => c.2.leaveEngine r fun x => { x with payload := out, fsf := true }
      | none => c.2.leaveEngine r id
  | none =>
    match s.qm.recs.find? fun r => r.id == rid && r.place == .spilling with
    | some r => s.finishSpill r
    | none => s

/-- The meaning of CMP_RECORD_DONE. -/
def execCmpRecordDone (t rid : Nat) (s : State) : Host.Outcome State Fault Refusal := event t (State.recordDone · rid) s

/-- Does a word for CMP_CTRL hold no value that CMP_CONFIG refuses (R320)? -/
def cmpCtrlOk (w : Word) : Bool := wfld w CMP_CTRL_MAX_ORDER != 3

/-- CMP_CONFIG (0x9001), R320: it applies from the next record that enters the engine. -/
def bodyCmpConfig : Body := fun _ ps s =>
  let w := word (num ps 0 4)
  checked s [need (cmpCtrlOk w && bits w.toNat 28 3 == 0 && bits w.toNat 12 14 == 0) stBAD_PARAM] (ok (s.wr CMP_CTRL w))

/-- The meaning of CMP_CONFIG. -/
def execCmpConfig (t : Nat) (p : Packet) (s : State) : Host.Outcome State Fault Refusal := command 0x9001 bodyCmpConfig t p s

/-- A job slot. -/
def State.slot (s : State) (k : Nat) : CSlot := Tab.get {} s.cmp.slots k

/-- Store a job slot, and show it in its registers. -/
def State.setSlot (s : State) (k : Nat) (x : CSlot) (busy : Bool) : State :=
  let s := s.onCmp fun c => { c with slots := Tab.set {} c.slots k x }
  let s := ((s.setFld (CMP_SLOT k) CMP_SLOT_OPEN (b2n x.opened)).setFld (CMP_SLOT k) CMP_SLOT_BUSY (b2n busy)).setFld (CMP_SLOT k) CMP_SLOT_WIDTH x.width
  (s.setFld (CMP_SLOT k) CMP_SLOT_PENDING x.pending.length).setFld (CMP_SLOT_OUT k) CMP_SLOT_OUT_OUT_BYTES (satN 32 x.out)

/-- The bound of R311 on an FSF stream of `n` original bytes. -/
def fsfBound (n w : Nat) : Nat := n + 8 + 12 * (ceilDiv n (4096 * max 1 w) + 1)

/-- Is a range of the DRAM work area inside it? -/
def State.inWork (s : State) (off len : Nat) : Bool := decide (off + len ≤ s.workArea)

/-- The bytes of a range of the work area, and whether they read (14_memory_and_ecc.md Table 14-3).
(DESIGN CHOICE, log entry 4). -/
def State.workRead (s : State) (off len : Nat) : Bool × List Byte × State :=
  let r := s.memReadRange 0 (s.workBase + off) len 4
  (r.1, Mem.readBytes 0#8 s.bufs.work off len, r.2)

/-- The work area with bytes stored from an offset on. -/
def State.putWork (s : State) (off : Nat) (bs : List Byte) : State :=
  { s with bufs := { s.bufs with work := Mem.writeBytes 0#8 s.bufs.work off bs } }

/-- Store bytes in the work area. -/
def State.workWrite (s : State) (off : Nat) (bs : List Byte) : State :=
  (s.memWriteRange 0 (s.workBase + off) bs.length 4).2.putWork off bs

/-- Fill a chain of buffers with bytes in order (R317): the buffers left, how many were used, and the state after. -/
def State.fillChain (s : State) : List (Nat × Nat) → List Byte → List (Nat × Nat) × Nat × State
  | bufs, [] => (bufs, 0, s)
  | [], _ => ([], 0, s)
  | (off, len) :: rest, bs =>
    let s' := s.workWrite off (bs.take len)
    if bs.length < len then ((off + bs.length, len - bs.length) :: rest, 1, s')
    else
      let r := State.fillChain s' rest (bs.drop len)
      (r.1, r.2.1 + 1, r.2.2)

/-- The bytes a chain holds. -/
def chainLen (bufs : List (Nat × Nat)) : Nat := bufs.foldl (fun n b => n + b.2) 0

/-- The destination buffers of a CMP_JOB (Table 10-7). -/
def jobBufs (ps : List Byte) : List (Nat × Nat) :=
  (List.range (num ps 16 1)).map fun i => (num ps (20 + 16 * i) 8, num ps (28 + 16 * i) 4)

/-- CMP_JOB (0x9002), R317, R321; in DORMANT the engine's clock is gated (01_architecture.md R29). (DEDUCED, log entry 39). -/
def bodyCmpJob : Body := fun c ps s =>
  let op := num ps 0 1
  let k := num ps 1 1
  let f := num ps 2 1
  let n := num ps 16 1
  let src := num ps 4 8
  let len := num ps 12 4
  let bufs := jobBufs ps
  let sl := s.slot k
  let w := if sl.opened then sl.width else num ps 3 1
  let orig := ofLe (Mem.readBytes 0#8 s.bufs.work (src + 4) 4)
  checked s
    [need (s.power != 1) stBAD_STATE, need (op ≤ 2 && f < 4 && 1 ≤ n && n ≤ 8 && zeroAt ps 17 3 && (List.range n).all fun i => zeroAt ps (32 + 16 * i) 4) stBAD_PARAM,
     need (s.inWork src len && bufs.all fun b => s.inWork b.1 b.2) stBAD_PARAM,
     need (op != 0 || (k < 4 && (w == 1 || w == 3 || w == 4) && len % max 1 w == 0)) stBAD_PARAM,
     need (op != 0 || !(s.cmp.jobs.any fun j => j.op == 0 && j.slot == k)) stBUSY,
     need (op != 0 || decide (fsfBound (len + w * sl.pending.length) w ≤ chainLen bufs)) stNO_RESOURCE,
     need (op != 1 || decide (len < 8) || orig == 0xFFFFFFFF || decide (orig ≤ chainLen bufs)) stNO_RESOURCE]
    (let job : CJob := ⟨op, k, bit f 0, bit f 1, w, src, len, bufs, !sl.opened, c⟩
     let s := s.onCmp fun x => { x with jobs := x.jobs ++ [job] }
     .long (if op = 0 then s.setSlot k { sl with opened := true, width := w } true else s))

/-- The meaning of CMP_JOB. -/
def execCmpJob (t : Nat) (p : Packet) (s : State) : Host.Outcome State Fault Refusal := command 0x9002 bodyCmpJob t p s

/-- The whole blocks of 4,096 elements that a slot's elements make: their bytes, the elements left, the last two before
them. -/
def fullBlocks (w o win : Nat) : Nat → Nat → Nat → List Nat → List Byte × List Nat × Nat × Nat
  | 0, p1, p2, xs => ([], xs, p1, p2)
  | fuel + 1, p1, p2, xs =>
    if xs.length < 4096 then ([], xs, p1, p2)
    else
      let l := lastTwo p1 p2 (xs.take 4096)
      let r := fullBlocks w o win fuel l.1 l.2 (xs.drop 4096)
      (encodeBlock w o win p1 p2 false (xs.take 4096) ++ r.1, r.2)

/-- A slot takes elements; its current block ends at 4,096 elements, on a flush, and on FINISH, which closes the stream
(R316). Answers the bytes written and the slot after. -/
def feedSlot (x : CSlot) (o win : Nat) (xs : List Nat) (flush finish : Bool) : List Byte × CSlot :=
  let w := x.width
  let all := x.pending ++ xs
  let r := fullBlocks w o win all.length x.prev1 x.prev2 all
  let head := if x.out = 0 then streamHeader w 0xFFFFFFFF else []
  let rest := r.2.1
  let p1 := r.2.2.1
  let p2 := r.2.2.2
  if finish then
    (head ++ r.1 ++ (if rest.isEmpty then endBlock else encodeBlock w o win p1 p2 true rest), {})
  else if flush && !rest.isEmpty then
    let bs := head ++ r.1 ++ encodeBlock w o win p1 p2 false rest
    let l := lastTwo p1 p2 rest
    (bs, { x with pending := [], prev1 := l.1, prev2 := l.2, out := x.out + bs.length })
  else
    let bs := head ++ r.1
    (bs, { x with pending := rest, prev1 := p1, prev2 := p2, out := x.out + bs.length })

/-- The block of those that a slot has written whose check fails as the verifying decoder decodes it (R313). -/
def blocksFail (x : CSlot) (blocks : List Byte) (closed : Bool) (xs : List Nat) : Option DecErr :=
  let bs := if closed then blocks else blocks ++ endBlock
  let d := decodeBlocks x.width false bs.length bs.length 0 x.prev1 x.prev2 0 [] bs
  d.err.or (if xs.take d.elems.length == d.elems then none else some ⟨4, d.blocks, 0⟩)

/-- The report fields of Table 10-8. -/
def jobReport (used out bufs : Nat) (err : Option DecErr) (elems : Nat) : List Byte :=
  let e := err.getD ⟨0, 0, 0⟩
  le 4 used ++ le 4 out ++ le 1 bufs ++ le 1 e.code ++ le 2 e.block ++ le 4 e.bitOff ++ le 4 elems

/-- A compress job reaches its commit point. (DEDUCED, log entry 58). -/
def State.compressJob (s : State) (j : CJob) (src : List Byte) : State :=
  let x := s.slot j.slot
  let xs := elements j.width src
  let out := feedSlot x (s.fld CMP_CTRL CMP_CTRL_MAX_ORDER) (s.fld CMP_CTRL CMP_CTRL_WINDOW) xs j.flush j.finish
  let s := s.countCmp src.length out.1.length
  let blocks := if x.out = 0 then out.1.drop 8 else out.1
  match if s.on CMP_CTRL CMP_CTRL_VERIFY then blocksFail x blocks j.finish (x.pending ++ xs) else none with
  | some e => ((s.bump CMP_STAT CMP_STAT_VERIFY_FAIL).setSlot j.slot x false).report j.caller stVERIFY_FAIL (jobReport src.length 0 0 (some e) 0)
  | none =>
    let w := s.fillChain j.bufs out.1
    (w.2.2.setSlot j.slot (if j.finish then {} else { out.2 with rest := w.1 }) false).report j.caller stOK
      (jobReport src.length out.1.length w.2.1 none 0)

/-- A decompress or verify job reaches its commit point (R317, R318). A failing block stops it with VERIFY_FAIL.
(DEDUCED, log entry 58). -/
def State.decodeJob (s : State) (j : CJob) (src : List Byte) : State :=
  let d := decodeStream src
  let bytes := elementBytes d.width d.elems
  let fits := decide (bytes.length ≤ chainLen j.bufs)
  let w := if j.op = 1 then s.fillChain j.bufs bytes else (j.bufs, 0, s)
  let n := if j.op = 1 then min bytes.length (chainLen j.bufs) else 0
  if j.op = 1 ∧ !fits then w.2.2.report j.caller stNO_RESOURCE (jobReport src.length n w.2.1 none 0)
  else match d.err with
    | some e => (w.2.2.decodeError 1 0 e).report j.caller stVERIFY_FAIL (jobReport (e.bitOff / 8) n w.2.1 (some e) d.elems.length)
    | none => w.2.2.report j.caller stOK (jobReport src.length n w.2.1 none 0)

/-- CMP_JOB_DONE (R318): the job named by tag and source ends. -/
def State.jobDone (s : State) (tag source : Nat) : State :=
  match s.cmp.jobs.find? fun j => j.caller.tag == tag && j.caller.source == source with
  | none => s
  | some j =>
    let s := s.onCmp fun c => { c with jobs := c.jobs.filter fun x => x != j }
    let r := s.workRead j.src j.len
    if !r.1 then
      let s := if j.op = 0 then r.2.2.setSlot j.slot (s.slot j.slot) false else r.2.2
      s.report j.caller stMEM_UNCORRECTABLE (jobReport 0 0 0 none 0)
    else if j.op = 0 then r.2.2.compressJob j r.2.1
    else r.2.2.decodeJob j r.2.1

/-- The meaning of CMP_JOB_DONE. -/
def execCmpJobDone (t tag source : Nat) (s : State) : Host.Outcome State Fault Refusal := event t (State.jobDone · tag source) s

/-- A job is stopped before its commit point (R318): its slot returns to its state before the segment, and the bytes its
output would have covered are undefined. (DEDUCED, log entry 58). -/
def State.abortJob (s : State) (j : CJob) : State :=
  let x := s.slot j.slot
  let src := Mem.readBytes 0#8 s.bufs.work j.src j.len
  let n := if j.op = 0 then (feedSlot x (s.fld CMP_CTRL CMP_CTRL_MAX_ORDER) (s.fld CMP_CTRL CMP_CTRL_WINDOW) (elements j.width src) j.flush j.finish).1.length
    else if j.op = 1 then (decodeStream src).elems.length * (decodeStream src).width else 0
  let d := s.draw
  let s := (d.2.fillChain j.bufs ((List.range n).map (Config.abortedByte d.1))).2.2
  let s := s.onCmp fun c => { c with jobs := c.jobs.filter fun y => y != j }
  if j.op = 0 then s.setSlot j.slot (if j.opens then {} else x) false else s

/-- On entry to DORMANT or MINIMAL every slot closes without output and the jobs end with ABORTED (R316). -/
def State.closeCmp (s : State) : State :=
  let s := s.cmp.jobs.foldl (fun s j => (s.abortJob j).report j.caller stABORTED []) s
  (List.range 4).foldl (fun s k => s.setSlot k {} false) s

/-- CMP_FLUSH ends the current block of slot `k` (R322): written behind its last job's output, or, while a job of the slot
runs, at that job's end (Table 10-6). Answers the blocks written. (DEDUCED, log entry 58). -/
def State.flushSlot (s : State) (k : Nat) : Nat × State :=
  let x := s.slot k
  if x.pending.isEmpty then (0, s)
  else if s.cmp.jobs.any (fun j => j.op == 0 && j.slot == k) then
    (1, s.onCmp fun c => { c with jobs := mapIf (fun j => j.op == 0 && j.slot == k) (fun j => { j with flush := true }) c.jobs })
  else
    let out := feedSlot x (s.fld CMP_CTRL CMP_CTRL_MAX_ORDER) (s.fld CMP_CTRL CMP_CTRL_WINDOW) [] true false
    let w := s.fillChain x.rest out.1
    (1, w.2.2.setSlot k { out.2 with rest := w.1 } false)

/-- The records that a DRAIN flush waits for: those that have entered Q50 or Q52 (R322). -/
def State.inEngine (s : State) : List Nat := (s.qm.recs.filter fun r => r.place == .engine || r.place == .spilling).map Rec.id

/-- CMP_FLUSH (0x9003), R322. (DEDUCED, log entry 10). -/
def bodyCmpFlush : Body := fun c ps s =>
  let mask := num ps 0 1
  let f := num ps 1 1
  checked s [need (mask < 16 && f < 2 && zeroAt ps 2 2) stBAD_PARAM]
    (let r := ((List.range 4).filter (bit mask)).foldl (fun (a : Nat × State) k => let x := a.2.flushSlot k; (a.1 + x.1, x.2)) (0, s)
     if bit f 0 && !r.2.inEngine.isEmpty then
       .quiet (r.2.onCmp fun x => { x with drains := x.drains ++ [⟨r.2.inEngine, r.1, c⟩] })
     else .reply r.2 stOK (le 1 r.1))

/-- The meaning of CMP_FLUSH. -/
def execCmpFlush (t : Nat) (p : Packet) (s : State) : Host.Outcome State Fault Refusal := command 0x9003 bodyCmpFlush t p s

/-- The flushes whose records have all left the engine reply (R322). -/
def State.flushDrained (s : State) : State :=
  let past := fun (d : Drain) => !(d.recs.any fun i => s.inEngine.contains i)
  let due := s.cmp.drains.filter past
  due.foldl (fun s d => s.answer d.caller stOK (le 1 d.blocks)) (s.onCmp fun c => { c with drains := c.drains.filter fun d => !past d })

/-- The meaning of CMP_FLUSH_DRAINED. -/
def execCmpFlushDrained (t : Nat) (s : State) : Host.Outcome State Fault Refusal := event t State.flushDrained s

end Sys2Proof.Machine
end

