-- ==== Sys2Proof/Machine/Fir.lean ====
section
/-!
DEFINITION. The filters of the decimation chain as functions of their input samples (04_decimation.md R112 to R118, R125, R128): each
a symmetric FIR filter of integer coefficients in 48-bit two's complement. The coefficients are not in the manual; a filter of integer
coefficients whose response at DC is within the ripple of Table 04-3 has a coefficient sum of exactly 1.
-/

namespace Sys2Proof.Machine

/-- A value that the manual reports as a whole number without a rounding: one of its two neighbours.
(DEDUCED, log entry 28). -/
def roundQ (x : Rat) : Int := if x.den = 1 then x.num else x.num / x.den + (Config.roundUp x.num.natAbs x.den).toNat

/-- A value modulo 2^48, as a signed number (R114). -/
def wrap48 (v : Int) : Int := signed 48 (unsigned 48 v)

/-- The samples of one branch by their index. -/
abbrev Samples := Int → Int

/-- A symmetric FIR filter of `half` taps on each side at input sample `c`: `kind` and `stage` name its coefficients (R118).
(DEDUCED, log entry 74). -/
def fir (kind stage half : Nat) (x : Samples) (c : Int) : Int :=
  wrap48 ((List.range half).foldl (fun y m => y + (Config.filterTap kind stage (m + 1)).toInt * (x (c - (m + 1)) + x (c + (m + 1)) - 2 * x c)) (x c))

/-- Intermediate half-band stages, 27 taps each, and decimate-by-5 stages, 61 taps each (Tables 04-1, 04-3): output `n` is centred
on input 2n, or 5n (R127). -/
def halfBands : Nat → Samples → Samples
  | 0, x => x
  | k + 1, x => fun n => fir 0 (k + 1) 13 (halfBands k x) (2 * n)
def byFives : Nat → Samples → Samples
  | 0, x => x
  | k + 1, x => fun n => fir 1 (k + 1) 30 (byFives k x) (5 * n)

/-- The input of the last stage of rate code factors `a` and `b` (Table 04-1). -/
def lastInput (a b : Nat) (x : Samples) : Samples := byFives b (halfBands (a - 1) x)

/-- A native output sample: the final half-band of 83 taps, or the correction output at the raw rate (R116). -/
def nativeOut (a b : Nat) (x : Samples) (n : Int) : Int := if a = 0 then x n else fir 2 0 41 (lastInput a b x) (2 * n)

/-- The coefficient h(m - f) of the resampler for a fraction `f` of 2^-32: the symmetric prototype interpolated linearly between the
two nearest of its 1,024 phases (R128); which whole number it is taken to, the manual does not say. (DEDUCED, log entry 74). -/
def resamplerTap (m : Int) (f : Nat) : Int :=
  let p := m * 2 ^ 32 - f
  let i := p / 2 ^ 22
  let a := (Config.filterTap 3 0 i.natAbs).toInt
  let b := (Config.filterTap 3 0 (i + 1).natAbs).toInt
  roundQ ((a : Rat) + ((b - a : Int) : Rat) * ((p % 2 ^ 22 : Int) : Rat) / 2 ^ 22)

/-- The grid resampler at input `j` and a fraction `f` of 2^-32 (R128). (DEDUCED, log entry 74). -/
def resample (x : Samples) (j : Int) (f : Nat) : Int :=
  wrap48 ((List.range 96).foldl (fun y (i : Nat) => y + resamplerTap ((i : Int) - 47) f * (x (j + ((i : Int) - 47)) - x j)) (x j))

/-- Input and fraction of 2^-32 that an instant lies at, for inputs every `tin` from instant 0 (R128). -/
def inputOf (u : Rat) (tin : Nat) : Int × Nat :=
  let q := u / (max 1 tin : Nat)
  (q.floor, ((q - q.floor) * 2 ^ 32).floor.toNat)

/-- A grid output sample at instant `u` of the strobes, `step` fine counts apart. -/
def gridOut (a b : Nat) (x : Samples) (step : Nat) (u : Rat) : Int :=
  let p := inputOf u (step * (2 ^ (a - 1) * 5 ^ b))
  resample (lastInput a b x) p.1 p.2

/-- 2π, and the cosine of a fraction of a cycle by its power series about 0; both err by less than 2^-100. (DEDUCED, log entry 74). -/
def twoPi : Rat := 62831853071795864769252867665590057683943387987502116419498891846156 / 10 ^ 67
def cosSeries (x : Rat) : Nat → Nat → Rat
  | 0, _ => 1
  | k + 1, n => 1 - x * x / ((2 * n - 1) * (2 * n) : Nat) * cosSeries x k (n + 1)
def cosCycle (c : Rat) : Rat :=
  let f := c - (c + 1 / 2).floor
  cosSeries (twoPi * f) 24 1

/-- Synchronous demodulation (R125): a bridge sample times 2 cos of its phase in cycles, referred to the programmed amplitude.
(DEDUCED, log entry 74). -/
def demodulate (v : Int) (phase : Rat) (prog meas : Rat) : Int :=
  if prog = 0 ∨ meas = 0 then 0 else wrap48 (roundQ ((v : Rat) * 2 * cosCycle phase * prog / meas))

end Sys2Proof.Machine
end

