-- ==== Sys2Proof/Machine/Chan.lean ====
section
/-!
DEFINITION. Channels, bays and their records (02_front_end.md, 03_conversion.md, 04_decimation.md, 07_panes_and_triggers.md):
full scales, rate codes, group delays, sample instants, formats, records in assembly and the course of a stream.
-/

namespace Sys2Proof.Machine

open Reg Bits

/-- Fine counts in one clock of the 102.4 MHz sample clock (03_conversion.md R81). -/
def clk : Nat := 4096

/-- Scan setting N in use and configured in a bay (Table 03-2). -/
def State.scanN (s : State) (b : Nat) : Nat := 2 ^ s.fld (CONV_BAY_STAT b) CONV_BAY_STAT_SCAN_NOW

/-- SCAN configured in a bay, as N. -/
def State.scanCfg (s : State) (b : Nat) : Nat := 2 ^ s.fld (CONV_BAY_MODE b) CONV_BAY_MODE_SCAN

/-- BMODE of a bay. -/
def State.bmode (s : State) (b : Nat) : Nat := s.fld (CONV_BAY_MODE b) CONV_BAY_MODE_BMODE

/-- MODE of a channel (Table 02-1). -/
def State.chMode (s : State) (c : Nat) : Nat := s.fld (AFE_CH_CFG c) AFE_CH_CFG_MODE

/-- What held at instant `f` of a value that now is `v`: `l` lists the instants of its changes with the values before them,
newest first. -/
def asOf {α : Type} (l : List (Nat × α)) (v : α) (f : Nat) : α := l.foldl (fun r e => if f < e.1 then e.2 else r) v

/-- The configuration word and MODE of a channel at a strobe (02_front_end.md R75). -/
def State.cfgAt (s : State) (c f : Nat) : Word := asOf (s.ch c).words (s.rd (AFE_CH_CFG c)) f
def State.modeAt (s : State) (c f : Nat) : Nat := wfld (s.cfgAt c f) AFE_CH_CFG_MODE

/-- The range of a channel at a strobe (02_front_end.md R69). -/
def State.rangeAt (s : State) (c f : Nat) : Nat := asOf (s.ch c).ranges (s.fld (AFE_CH_STAT c) AFE_CH_STAT_RANGE_NOW) f

/-- The scan setting of a bay at a strobe (R86). -/
def State.scanAt (s : State) (b f : Nat) : Nat := asOf (s.bayOf b).scans (s.scanN b) f

/-- Did a bay's converter convert at a strobe (03_conversion.md R88, R89)? -/
def State.convAt (s : State) (b f : Nat) : Bool := asOf (s.bayOf b).convs (s.bayOf b).conv f

/-- A bay's converter converts, or stops converting, from a strobe on. -/
def State.setConv (s : State) (b at_ : Nat) (on_ : Bool) : State :=
  s.onBay b fun x => if x.conv = on_ then x else { x with conv := on_, convs := (at_, x.conv) :: x.convs }

/-- The first strobe of a bay at or after a fine count (03_conversion.md R81). -/
def State.strobeFrom (s : State) (b f : Nat) : Nat := ceilDiv f (s.scanN b * clk) * (s.scanN b * clk)

/-- Does bay `b` carry the test tone (17_counters_and_test.md R511)? -/
def State.toned (s : State) (b : Nat) : Bool := s.on (PMC_TONE b) PMC_TONE_EN

/-- Does the test logic hold sampling and the trip outputs (R512)? (DEDUCED, log entry 66). -/
def State.scanHolds (s : State) : Bool :=
  match s.sys.jtag with
  | some .extest | some .extestPulse | some .extestTrain | some .clamp | some .highz => true
  | _ => false

/-- Does a bay's converter run: CONTINUOUS in ACTIVE, BURST in ACTIVE and QUIET (01_architecture.md R30)? -/
def State.bayRuns (s : State) (b : Nat) : Bool :=
  (s.sys.phase == .running) && ((s.power == 3 && (s.bmode b == 1 || s.bmode b == 2)) || (s.power == 2 && s.bmode b == 2))

/-- The factors of a rate code (R115). -/
def rateA (w : Nat) : Nat := bits w 2 5
def rateB (w : Nat) : Nat := bits w 0 2

/-- Is a rate code no reserved encoding (R115)? -/
def rateOk (w : Nat) : Bool := decide (w < 128) && decide (rateA w ≤ 20) && !(rateA w == 0 && rateB w != 0)

/-- Raw samples to one output sample. -/
def decim (w : Nat) : Nat := 2 ^ rateA w * 5 ^ rateB w

/-- Clocks from one output sample to the next at scan setting `n`. -/
def outClocks (n w : Nat) : Nat := n * decim w

/-- Group delay in clocks (R119). -/
def groupDelay (n w : Nat) (grid : Bool) : Nat :=
  if rateA w = 0 then 0
  else
    let h := 2 ^ (rateA w - 1)
    n * (13 * (h - 1) + 30 * h * (5 ^ rateB w - 1) / 4 + (if grid then 48 else 41) * h * 5 ^ rateB w)

/-- A byte of a group's design defaults (16_calibration.md R499): TRIM 64, offsets, gains and corrections 0; the ideal vernier
table and the loop words, to which the manual gives no figures, are open. (DEDUCED, log entry 32). -/
def defaultByte (g off : Nat) : Byte :=
  if g < 4 then if off % 40 = 0 then 64#8 else 0#8
  else if 8 ≤ g ∧ g < 16 ∧ (off < 256 ∨ (258 ≤ off ∧ off < 262)) then Config.calByte off
  else 0#8

/-- A group's values in force, as the payload of a record: design defaults where there is none (R499). -/
def State.calByteAt (s : State) (g off : Nat) : Byte :=
  match Tab.get none (s.cal.values.map fun e => (e.1, some e.2)) g with
  | some r => r.payload.getD off 0#8
  | none => defaultByte g off

/-- `n` bytes of a group's values. -/
def State.calNum (s : State) (g off n : Nat) : Nat := ofLe ((List.range n).map fun i => s.calByteAt g (off + i))
def State.calInt (s : State) (g off n : Nat) : Int := signed (8 * n) (s.calNum g off n)

/-- Delay of the input stage in ps for a channel's mode, range and filter at a strobe: design value and residual
(16_calibration.md R487). (DEDUCED, log entry 28). -/
def State.afeDelayAt (s : State) (c f : Nat) : Nat :=
  let w := s.cfgAt c f
  let d := (Config.afeDesign (wfld w AFE_CH_CFG_MODE) (s.rangeAt c f) (wfld w AFE_CH_CFG_AAF)).toNat
  (satI 17 (d + s.calInt (c / 128) (40 * (c % 128) + 6) 2)).toNat % 65536

/-- The delay at present, as DEC_CH_DELAY shows it. (DEDUCED, log entry 28). -/
def State.afeDelay (s : State) (c : Nat) : Nat := s.afeDelayAt c s.now

/-- Strobe trim of a channel in ps at a strobe (R82). (DEDUCED, log entry 72). -/
def State.trimPs (s : State) (c f : Nat) : Nat := 5 * asOf (s.ch c).trims (s.fld (CONV_TRIM c) CONV_TRIM_TRIM) f

/-- Picoseconds in fine counts. -/
def psToFine (ps : Int) : Rat := (ps : Rat) * 4194304 / 10000000

/-- The fine counts from which a map of served time held: the present one and those before it (05_time_base.md R144). -/
def State.mapStarts (s : State) : List Nat :=
  s.tb.servedFrom :: s.tb.a.mapFrom :: s.tb.b.mapFrom :: (s.tb.oldServed.map Prod.fst ++ s.tb.a.old.map TMap.fromF ++ s.tb.b.old.map TMap.fromF)

/-- The fine count at which the map in force at fine count `f` gives a time of 2^-80 s. -/
def State.inverseAt (s : State) (f t : Nat) : Rat :=
  let m := s.servedMap f
  let d := s.mapAt m.1 f
  if d.2 = 0 then 0 else (((t : Int) - m.2 - d.1 : Int) : Rat) * 8192 / (d.2 : Nat)

/-- The fine count at which served time was, or will be, a time of 2^-80 s: the inverse of the map in force at that instant (R128,
R130). (DEDUCED, log entry 72). -/
def State.localQ (s : State) (t : Nat) : Rat :=
  (s.mapStarts.foldl (fun (b : Nat × Rat) f =>
    let u := s.inverseAt f t
    if f > b.1 ∧ (f : Rat) ≤ u then (f, u) else b) (0, s.inverseAt 0 t)).2

/-- The same as a whole fine count. -/
def State.localOf (s : State) (t : Nat) : Nat := (s.localQ t).floor.toNat

/-- Output instant `idx` of the grid of a branch, in 2^-80 s (R117). -/
def State.gridAt (s : State) (c rate idx : Nat) : Nat := idx * outClocks (s.scanN (c / 8)) rate * 2 ^ 80 / 102400000

/-- The instant u of R128 as a fine count of the strobes: the local instant of `t`, later by AFE_DELAY, less the trim by which a
hold follows its strobe. (DEDUCED, log entry 72). -/
def State.strobeOf (s : State) (c t : Nat) : Rat :=
  let u := s.localQ t
  let f := u.floor.toNat
  max 0 (u + psToFine ((s.afeDelayAt c f : Int) - s.trimPs c f))

/-- The hold instant of a strobe of channel `c` at the terminals, in 2^-80 s: the served time of the strobe, later by the trim, less
AFE_DELAY (R82, R127). (DEDUCED, log entry 72). -/
def State.holdAt (s : State) (c h : Nat) : Nat := ((s.servedAt h : Int) + ps80 (s.trimPs c h) - ps80 (s.afeDelayAt c h)).toNat

/-- The centre of output sample `idx` of a branch of channel `c`, as a fine count of the strobes (R127, R128). -/
def State.centre (s : State) (c rate : Nat) (grid : Bool) (idx : Nat) : Nat :=
  if grid then (s.strobeOf c (s.gridAt c rate idx)).floor.toNat else idx * outClocks (s.scanN (c / 8)) rate * clk

/-- The instant of output sample `idx`, in 2^-80 s (R117, R127, R128). -/
def State.sampleAt (s : State) (c rate : Nat) (grid : Bool) (idx : Nat) : Nat :=
  if grid then s.gridAt c rate idx else s.holdAt c (idx * outClocks (s.scanN (c / 8)) rate * clk)

/-- Half the support of an output sample in a channel mode, in fine counts (R119, R120; a SWITCH channel has none, R113). -/
def State.halfAs (s : State) (mode c rate : Nat) (grid : Bool) : Nat := if mode = 5 then 0 else clk * groupDelay (s.scanN (c / 8)) rate grid
def State.halfSupport (s : State) (c rate : Nat) (grid : Bool) : Nat := s.halfAs (s.chMode c) c rate grid

/-- The first output sample centred at or after strobe fine count `h`. -/
def State.idxFrom (s : State) (c rate : Nat) (grid : Bool) (h : Nat) : Nat :=
  let m := outClocks (s.scanN (c / 8)) rate
  if grid then
    let u := ((h : Rat) - psToFine ((s.afeDelayAt c h : Int) - s.trimPs c h)).floor.toNat
    let t := ceilDiv (s.servedAt u * 102400000) (2 ^ 80)
    let k := ceilDiv t m
    if s.centre c rate grid k < h then k + 1 else k
  else ceilDiv h (m * clk)

/-- The first output sample whose support lies at or after a fine count (R132), and the last one whose support lies wholly before
it (R131). -/
def State.firstFrom (s : State) (c rate : Nat) (grid : Bool) (from_ : Nat) : Nat := s.idxFrom c rate grid (from_ + s.halfSupport c rate grid)
def State.lastBefore (s : State) (c rate : Nat) (grid : Bool) (upto : Nat) : Int :=
  if upto < s.halfSupport c rate grid then -1 else (s.idxFrom c rate grid (upto - s.halfSupport c rate grid) : Int) - 1

/-- The first sample of channel `c` at a rate at or after instant `T` (07_panes_and_triggers.md R220). -/
def State.idxAt (s : State) (c rate : Nat) (grid : Bool) (T : Nat) : Nat :=
  let m := outClocks (s.scanN (c / 8)) rate
  if grid then ceilDiv (ceilDiv (T * 102400000) (2 ^ 80)) m
  else
    let k := s.localOf T / (m * clk)
    if s.sampleAt c rate false k ≥ T then k else if s.sampleAt c rate false (k + 1) ≥ T then k + 1 else k + 2

/-- The sample flags of an output sample (Table 07-1): by its support, but SUSPECT_WIRE by its instant; RESET_STITCH is carried by
the first whose support includes the sample after a reset (R49). -/
def State.sampleFlags (s : State) (mode c rate : Nat) (grid : Bool) (idx : Nat) : Nat :=
  let u := s.centre c rate grid idx
  let g := s.halfAs mode c rate grid
  let step := s.scanN (c / 8) * clk
  let out := outClocks (s.scanN (c / 8)) rate * clk
  let l := (s.ch c).spans
  let again := fun (sp : Span) => sp.flag == fResetStitch && sp.holds step (u - g - out) (u + g - out)
  let at_ := (s.localOf (s.sampleAt c rate grid idx))
  spanFlags (l.filter fun sp => !again sp) step at_ (u - g) (u + g) ||| s.asymFlag

/-- Full scale of range `r` in nV, or fC in CHARGE (Tables 02-2, 02-3). -/
def fullScale (mode r : Nat) : Nat :=
  if mode = 1 then [50000000, 10000000, 2000000, 400000, 100000, 25000].getD r 25000
  else [2500000000, 1250000000, 625000000, 312500000, 156250000, 78125000, 39062500, 19531250].getD r 0

/-- The scale range that a stream of a channel would latch (R122). -/
def scaleOf (w : Word) : Nat := if wfld w AFE_CH_CFG_AUTO = 1 then wfld w AFE_CH_CFG_RANGE_FINE else wfld w AFE_CH_CFG_RANGE
def State.streaming (s : State) (c : Nat) : Bool := s.on (DEC_STREAM c) DEC_STREAM_EN

/-- The scale range of a channel's chain: latched while its stream is in force, else what a stream would latch (R122). -/
def State.scale (s : State) (c : Nat) : Nat := (s.ch c).scale
def State.scaleAt (s : State) (c f : Nat) : Nat := asOf (s.ch c).scales (s.scale c) f

/-- The chain of channel `c` takes a scale range from the next strobe. -/
def State.setScale (s : State) (c v : Nat) : State :=
  if v = s.scale c then s else s.onCh c fun h => { h with scale := v, scales := ((s.strobeFrom (c / 8) s.now, h.scale) :: h.scales).take 8 }

/-- The S32 value of an internal value (R114, R123): to the nearest LSB, halves upward (log entry 20). -/
def toLsb (v : Int) : Int := (v + 128) / 256

/-- The S32 or S24 value of an internal value, and whether it saturates (R123). -/
def formatValue (mode fmt : Nat) (v : Int) : Int × Bool :=
  if mode = 5 then (v, false)
  else
    let w := if fmt = 2 then 24 else 32
    let x := toLsb v
    if mode = 1 then (signed w (unsigned w x), false) else (satI w x, satI w x != x)

/-- IEEE 754 single of a rational: exact where 24 bits hold it; else one of its two neighbours (no rounding is given).
(DEDUCED, log entry 54). -/
def f32 (num : Int) (den : Nat) : Nat :=
  let a := num.natAbs
  if a = 0 ∨ den = 0 then 0
  else
    let e : Int := (Nat.log2 a : Int) - Nat.log2 den - 24
    let q : Nat → Nat → Nat × Bool := fun n d => (n / d, n % d != 0)
    let m0 := if e ≥ 0 then q a (den * 2 ^ (Int.toNat e)) else q (a * 2 ^ (Int.toNat (-e))) den
    let sh : Nat := if m0.1 < 2 ^ 24 then 0 else 1
    let m1 := (m0.1 / 2 ^ sh, m0.2 || m0.1 % 2 ^ sh != 0)
    let m := m1.1 + (if m1.2 then (Config.f32Round num den).toNat else 0)
    let ex : Int := e + sh + 150
    (if num < 0 then 2 ^ 31 else 0) + (ex.toNat * 2 ^ 23 + (m - 2 ^ 23))

/-- The excitation word of a bay in force: the one before a change until the present period ends (02_front_end.md R55). -/
def State.excWord (s : State) (b : Nat) : Word := (s.bayOf b).excOld.getD (s.rd (AFE_BAY_EXC b))

/-- An excitation period of bay `b`, in fine counts (02_front_end.md R51). -/
def State.excPeriod (s : State) (b : Nat) : Nat := wfld (s.excWord b) AFE_BAY_EXC_DIV * 128 * 8192

/-- The excitation period that an instant lies in; of the period still in progress the measured amplitude is open (R125). -/
def State.excAt (s : State) (b : Nat) (x : Rat) : Option ExcPeriod :=
  match (s.bayOf b).periods.find? fun p => decide ((p.from_ : Rat) ≤ x) && decide (x < (p.to_ : Rat)) with
  | some p => some p
  | none => (s.bayOf b).perFrom.map fun f =>
    ⟨f, f + s.excPeriod b, wfld (s.excWord b) AFE_BAY_EXC_AMP, (Config.ampAhead b f).toNat, (s.bayOf b).excTrim⟩

/-- The raw samples that the filters of a channel take, by their number: the correction outputs, demodulated in BRIDGE (Table 04-1,
R125); where no code was taken there is none to add. (DEDUCED, log entry 74). -/
def State.chainIn (s : State) (c mode : Nat) : Samples := fun j =>
  let step := s.scanN (c / 8) * clk
  if j < 0 then 0
  else match (s.ch c).outs.find? fun e => e.1 == j.toNat * step with
    | none => 0
    | some e =>
      if mode = 3 then
        let x : Rat := e.1 + psToFine (s.trimPs c e.1)
        match s.excAt (c / 8) x with
        | none => 0
        | some p =>
          demodulate e.2 ((x - p.from_) / (max 1 (p.to_ - p.from_) : Nat) + (p.trim : Rat) / 4096) (p.amp * 625) (p.meas * 40)
      else e.2

/-- The value of output sample `idx` of a branch in a channel mode (R112 to R118, R125, R128): of a SWITCH channel, its comparator at
the last strobe at or before the output instant (R113). -/
def State.outValue (s : State) (c mode rate : Nat) (grid : Bool) (idx : Nat) : Int :=
  if mode = 5 then ((s.ch c).outs.find? fun e => decide (e.1 ≤ s.centre c rate grid idx)).elim 0 Prod.snd
  else if grid then
    gridOut (rateA rate) (rateB rate) (s.chainIn c mode) (s.scanN (c / 8) * clk) (s.strobeOf c (s.gridAt c rate idx))
  else nativeOut (rateA rate) (rateB rate) (s.chainIn c mode) idx

/-- Have the codes of the whole support of an output sample been taken (R120)? -/
def State.supportIn (s : State) (c mode rate : Nat) (grid : Bool) (idx : Nat) : Bool :=
  match (s.ch c).outs with
  | [] => false
  | e :: _ => decide (s.centre c rate grid idx + s.halfAs mode c rate grid < e.1 + s.scanN (c / 8) * clk)

/-- The unit of an internal value of a channel as a fraction of V, V/V or C (Tables 02-1, 04-4, R125). -/
def State.unitOf (s : State) (c : Nat) : Nat × Nat :=
  let m := s.chMode c
  let fs := fullScale m (s.scale c)
  if m = 5 then (1, 1)
  else if m = 1 then (fs, 2 ^ 29 * 10 ^ 15)
  else if m = 3 then (fs, 2 ^ 29 * (wfld (s.excWord (c / 8)) AFE_BAY_EXC_AMP * 625000))
  else (fs, 2 ^ 29 * 10 ^ 9)

/-- The bytes of samples in a format and unit (Table 04-4); F32 values are kept in internal units. -/
def encodeAs (fmt : Nat) (u : Nat × Nat) (l : List Int) : List Byte :=
  if fmt = 3 then l.flatMap fun v => le 4 (f32 (v * u.1) u.2) else l.flatMap fun v => leI (if fmt = 2 then 3 else 4) v

/-- The stored form of an internal value of a channel mode in a format, and whether it carries OVERLOAD. -/
def storedAs (mode fmt : Nat) (v : Int) : Int × Bool := if fmt = 3 then (v, false) else formatValue mode fmt v

/-- A value of a record in internal units. -/
def unstored (mode fmt : Nat) (v : Int) : Int := if fmt = 3 ∨ mode = 5 then v else 256 * v

/-- The integer square root, by Newton's steps from above. -/
def isqrtGo : Nat → Nat → Nat → Nat
  | 0, _, x => x
  | fuel + 1, n, x =>
    let y := (x + n / max 1 x) / 2
    if y < x then isqrtGo fuel n y else x
def isqrt (n : Nat) : Nat := if n = 0 then 0 else isqrtGo 600 n (2 ^ (Nat.log2 n / 2 + 1))

/-- Sum and greatest and least of a list. -/
def sumI (l : List Int) : Int := l.foldl (· + ·) 0
def maxI (l : List Int) : Int := l.foldl max (l.headD 0)
def minI (l : List Int) : Int := l.foldl min (l.headD 0)

/-- The values of a measured span; on a CHARGE channel unwrapped about the first (R237). -/
def unwrapped (charge : Bool) (fmt : Nat) (l : List Int) : List Int :=
  if charge then
    let w := if fmt = 2 then 32 else 40
    let x1 := l.headD 0
    l.map fun x => x1 + signed w (unsigned w (x - x1))
  else l

/-- Mean crossings (R237): instants in 2^-80 s, with the number of samples `n` and the values times `n`; `h` is HYST × RMS / 16
times `n`. The flag says whether a crossing may count again. (DEDUCED, log entry 54). -/
def crossings (mu h : Int) : Bool → List (Int × Nat) → List Nat
  | ready, (x, t) :: (y, u) :: rest =>
    let ready := ready || decide (x < mu - h)
    if ready && decide (x < mu) && decide (mu ≤ y) then
      (((t : Int) + ((u : Int) - t) * (mu - x) / (y - x)).toNat) :: crossings mu h false ((y, u) :: rest)
    else crossings mu h ready ((y, u) :: rest)
  | _, _ => []

/-- The detector value in force on a channel at an instant of 2^-80 s; none while it is disabled or settling (R237). -/
def State.detAt (s : State) (c t : Nat) : Option Nat := ((s.det c).shown.find? fun e => decide (e.1 ≤ t)).bind Prod.snd

/-- The largest detector value in force at a list of instants; none unless there is one at each (R237). -/
def State.envAt (s : State) (c : Nat) (ts : List Nat) : Option Nat :=
  ts.foldl (fun (m : Option Nat) t => match m, s.detAt c t with
    | some a, some b => some (max a b)
    | _, _ => none) (if ts.isEmpty then none else some 0)

/-- One measurement entry of 56 bytes under word `w` (Tables 07-7, 07-8): of values `l` in internal units of unit `u` at instants
`ts` from full index `first`. (DEDUCED, log entry 54). -/
def State.measureEntry (s : State) (c first : Nat) (w : Word) (u : Nat × Nat) (l : List Int) (ts : List Nat) : List Byte :=
  let sel := wfld w CAP_MEAS_CFG_SEL
  let n := l.length
  let env := s.envAt c ts
  let sum := sumI l
  let dev := l.map fun x => (n : Int) * x - sum
  let var := (dev.foldl (fun a d => a + d.natAbs * d.natAbs) 0) / max 1 n
  let rmsN := isqrt (var * 2 ^ 64)
  let pk := l.foldl (fun b x => if x.natAbs > b.natAbs then x else b) (l.headD 0)
  let pos := (l.takeWhile fun x => x != pk).length
  let amp := maxI l - minI l
  let dmax := (dev.map Int.natAbs).foldl max 0
  let hy := (wfld w CAP_MEAS_CFG_HYST * rmsN / 16 / 2 ^ 32 : Nat)
  let cr := crossings sum hy true ((l.map fun x => (n : Int) * x).zip ts)
  let k := cr.length
  let mask := (List.range 6).foldl (fun m i =>
    let ok := match i with
      | 0 => decide (k ≥ 2)
      | 5 => env.isSome
      | _ => decide (n ≥ 1)
    if bit sel i && ok then m + 2 ^ i else m) 0
  let f := fun (i : Nat) (num : Int) (den : Nat) => if bit mask i then le 4 (f32 num den) else le 4 0
  le 2 c ++ le 1 mask ++ le 1 (s.fld (DEC_DET_CFG c) DEC_DET_CFG_TYPE) ++ le 4 n ++ le 8 first ++ le 4 (f32 (sum * u.1) (u.2 * max 1 n))
    ++ f 2 (pk * u.1) u.2 ++ le 4 (if bit mask 2 then pos else 0) ++ f 1 (amp * u.1) (2 * u.2)
    ++ f 3 ((rmsN : Int) * u.1) (u.2 * max 1 n * 2 ^ 32) ++ f 4 ((if rmsN = 0 then 0 else dmax * 2 ^ 32 : Nat)) (max 1 rmsN)
    ++ f 5 ((256 * env.getD 0 : Nat) * u.1) u.2 ++ f 0 ((cr.getLastD 0 - cr.headD 0 : Nat)) ((k - 1) * 2 ^ 80) ++ le 4 k ++ le 4 0

/-- Issue a measurement record (R236, R238). -/
def State.measureRec (s : State) (addr rate tqByte flags pane st : Nat) (entries : List (List Byte)) : State :=
  s.addSeqRec { blankRec with rtype := 3, addr := addr, rate := rate, tqByte := tqByte, flags := flags % 1024 &&& 0x13F, pane := pane,
                              st := st, stLast := st, count := entries.length, payload := entries.flatMap id }

/-- The assembly queue of a channel's records (09_queues_and_retention.md Table 09-2). -/
def asmQueue (rtype c : Nat) : Nat := if rtype = 7 then 54 else if c < 512 then 32 + c / 32 else 48

/-- A record in assembly closes (R203, R226): it becomes a held record, and is measured where MEASURE_CONFIG asked for it as it
began (R236, R244). A channel with wire-break detection remembers it for an amendment (02_front_end.md R66). -/
def State.closeAsm (s : State) (a : Asm) : State :=
  let c := a.key % 1024
  let s := s.onQm fun m => { m with asm := m.asm.filter fun x => x.key != a.key }
  let mark : RecMark := ⟨a.rtype, a.addr, a.rate, a.tqByte, a.flags ||| a.recFlags, a.pane, a.first, a.last, a.st, a.stLast⟩
  let s := if c < 512 && s.on (AFE_CH_CFG c) AFE_CH_CFG_WIRE_EN then s.onCh c fun h => { h with closed := h.closed ++ [mark] } else s
  let s := s.addClosed (a.record (encodeAs a.fmt a.unit a.values))
  if c < 512 && a.rtype < 3 && wfld a.meas CAP_MEAS_CFG_PER_RECORD == 1 then
    let l := unwrapped (a.mode == 1) a.fmt (a.values.map (unstored a.mode a.fmt))
    s.measureRec a.addr a.rate (s.tqByte (bit a.tqByte 3)) a.flags a.pane a.st [s.measureEntry c a.first a.meas a.unit l a.times]
  else s

/-- Close the record in assembly under a key, if there is one. -/
def State.closeKey (s : State) (key : Nat) : State :=
  match s.qm.asm.find? fun a => a.key == key with
  | some a => s.closeAsm a
  | none => s

/-- One sample for assembly: what the record it opens would be, and its stored value. -/
structure Sample where
  key : Nat
  rtype : Nat
  fmt : Nat
  idx : Nat
  st : Nat
  rate : Nat
  tqByte : Nat
  flags : Nat
  recFlags : Nat
  pane : Nat
  prio : Nat
  wantCmp : Bool
  period : Nat
  recMs : Nat
  mode : Nat
  unit : Nat × Nat
  time : Nat
  closes : Bool
  value : Int
  deriving DecidableEq, Repr

/-- A payload of 8,192 bytes (R203). -/
def maxSamples (fmt : Nat) : Nat := if fmt = 2 then 2730 else 2048

/-- Does a sample fit the record in assembly: the next index, of the same flags, period, quality and form (R203)? TIME_STEP begins a
record, and RETRO is a whole record's (R206). -/
def Sample.fits (x : Sample) (a : Asm) : Bool :=
  a.flags == x.flags && a.tqByte == x.tqByte && a.period == x.period && a.fmt == x.fmt && a.rate == x.rate && a.last + 1 == x.idx
    && !bit x.recFlags fTimeStep && bit x.recFlags fRetro == bit a.recFlags fRetro

/-- A sample enters the record in assembly under its key (R203): a record that it does not fit closes first; a full one closes
after it. With the queue's staging full the record ends and the sample is discarded (R274). A hub without an address forms none
(01_architecture.md R18). -/
def State.addSample (s : State) (x : Sample) : State :=
  let c := x.key % 1024
  let fits := x.fits
  let s := match s.qm.asm.find? fun a => a.key == x.key with
    | some a => if fits a then s else s.closeAsm a
    | none => s
  let q := asmQueue x.rtype c
  if s.address.isNone then s
  else if q ≤ 48 ∧ s.full q ∧ s.staged q ≥ 16 then
    let s := s.closeKey x.key
    match s.qm.lost.find? fun l => l.key == x.key with
    | some _ => s.onQm fun m => { m with lost := mapIf (fun l => l.key == x.key) (fun l => { l with last := x.idx, stLast := x.st, count := l.count + 1 }) m.lost }
    | none =>
      s.onQm fun m => { m with lost := m.lost ++ [⟨x.key, x.rtype, s.chanAddr c, x.rate, x.tqByte / 8 % 2 * 8, x.pane, q, x.idx, x.idx, x.st, x.st, 1⟩] }
  else
    let a : Asm := match s.qm.asm.find? fun a => a.key == x.key with
      | some a => { a with last := x.idx, stLast := x.st, values := a.values ++ [x.value], times := a.times ++ [x.time] }
      | none =>
        { key := x.key, rtype := x.rtype, addr := s.chanAddr c, fmt := x.fmt, first := x.idx, st := x.st, stLast := x.st, last := x.idx,
          rate := x.rate, tqByte := x.tqByte, flags := x.flags, recFlags := x.recFlags, pane := x.pane, prio := x.prio, wantCmp := x.wantCmp,
          period := x.period, recMs := x.recMs, mode := x.mode, unit := x.unit, meas := s.rd (CAP_MEAS_CFG c), aq := q, inAsm := 0,
          values := [x.value], times := [x.time] }
    let s := s.onQm fun m => { m with asm := (m.asm.filter fun y => y.key != x.key) ++ [a] }
    if x.closes ∨ a.values.length ≥ maxSamples a.fmt then s.closeAsm a else s

/-- The record period that governs a channel's next sample: that of the record in assembly; a new REC_PERIOD applies from the next
record (R141). -/
def State.recPeriod (s : State) (c : Nat) : Nat :=
  match s.qm.asm.find? fun a => a.key == c with
  | some a => a.recMs
  | none => max 1 (s.fld (DEC_STREAM c) DEC_STREAM_REC_PERIOD)

/-- A sample of the digital or auxiliary channel `c` (R100, R255): it takes the channel's next index, and enters its stream
record where its stream is enabled. -/
def State.auxSample (s : State) (c : Nat) (t : Nat) (v : Int) : State :=
  let i := (s.strm c).next
  let told := (s.strm c).told
  let stepped := (s.strm c).stepped
  let s := s.onStrm c fun x => { x with next := x.next + 1, told := s.streaming c, stepped := x.stepped && !s.streaming c }
  if !s.streaming c || s.address.isNone then s
  else
    let s := if told then s else s.issue 0x3001 [c, i, st64 t, 0]
    let p := s.recPeriod c
    s.addSample { key := c, rtype := 1, fmt := 1, idx := i, st := st64 t, rate := 0, tqByte := s.tqByte false, flags := s.asymFlag,
                  recFlags := if stepped then 2 ^ fTimeStep else 0, pane := 0, prio := s.fld (DEC_STREAM c) DEC_STREAM_PRIO,
                  wantCmp := s.on (DEC_STREAM c) DEC_STREAM_CMP, period := periodOf p t, recMs := p, mode := 2, unit := (1, 1), time := t,
                  closes := false, value := v }

/-- The course of a stream that a sample belongs to: its chain word, mode and unit. -/
structure Course where
  cfg : Word
  mode : Nat
  unit : Nat × Nat
  deriving DecidableEq, Repr
def Course.rate (x : Course) : Nat := wfld x.cfg DEC_CH_CFG_RATE
def Course.grid (x : Course) : Bool := wfld x.cfg DEC_CH_CFG_GRID == 1
def Course.fmt (x : Course) : Nat := wfld x.cfg DEC_CH_CFG_FORMAT
def State.course (s : State) (c : Nat) : Course := ⟨s.rd (DEC_CH_CFG c), s.chMode c, s.unitOf c⟩

/-- The window schedule and number that an instant of 2^-80 s lies in: the window in progress or the one before it
(03_conversion.md R88). -/
def winHolds (T : Nat) (w : Nat × Word) : Bool :=
  let p := wfld w.2 CONV_BAY_BURST_PERIOD
  decide (T * 1000 ≥ w.1 * p * 2 ^ 80) && decide (T * 10000 < (10 * w.1 * p + wfld w.2 CONV_BAY_BURST_LEN) * 2 ^ 80)
def State.burstOf (s : State) (b T : Nat) : Option (Nat × Word) :=
  match (s.bayOf b).window.filter (winHolds T) with
  | some w => some w
  | none => (s.bayOf b).past.filter (winHolds T)

/-- A stream's sample enters its record (R202 to R204); in a BURST bay the last of a window ends its record (03_conversion.md
R90), and the last of a course that has ended does (R121). -/
def State.streamSample (s : State) (c : Nat) (x : Course) (idx flags : Nat) (v : Int) (ends : Bool) : State :=
  let t := s.sampleAt c x.rate x.grid idx
  let u := s.sampleAt c x.rate x.grid (idx + 1)
  let p := s.recPeriod c
  let y := storedAs x.mode x.fmt v
  let fl := if y.2 then withFlag flags fOverload else flags
  let st := s.strm c
  let s := s.onStrm c fun x => { x with stepped := false }
  s.addSample { key := c, rtype := 1, fmt := x.fmt, idx := idx, st := st64 t, rate := x.rate, tqByte := s.tqByte x.grid, flags := fl,
                recFlags := if st.stepped then 2 ^ fTimeStep else 0, pane := 0, prio := s.fld (DEC_STREAM c) DEC_STREAM_PRIO,
                wantCmp := s.on (DEC_STREAM c) DEC_STREAM_CMP, period := periodOf p t, recMs := p, mode := x.mode, unit := x.unit, time := t,
                closes := ends || periodOf p u != periodOf p t || (s.bmode (c / 8) == 2 && s.burstOf (c / 8) t != s.burstOf (c / 8) u),
                value := y.1 }

/-- A stream starts, or restarts: it waits for its first sample's support (R132), and for an instant that the sample must not
precede (02_front_end.md R44). -/
def State.awaitStream (s : State) (c from_ notBefore : Nat) (restart : Bool) : State :=
  let scale := scaleOf (s.rd (AFE_CH_CFG c))
  let s := if restart then (s.bump (DEC_CH_STAT c) DEC_CH_STAT_RESTARTS).pmc 0x302 (c / 8) 1 else s
  let s := s.setScale c scale
  (((s.setFld (DEC_CH_STAT c) DEC_CH_STAT_RUNNING 0).setFld (DEC_CH_STAT c) DEC_CH_STAT_WAITING 1).setFld (DEC_CH_STAT c) DEC_CH_STAT_SCALE scale).onStrm c
    fun x => { x with inForce := true, waitFrom := from_, notBefore := notBefore }

/-- Is a stream of an analogue channel in force: running, or awaiting its first sample? -/
def State.live (s : State) (c : Nat) : Bool := (s.strm c).inForce

/-- The index a waiting stream would begin with. -/
def State.firstIdx (s : State) (c : Nat) : Nat :=
  let x := s.strm c
  let k := max (s.firstFrom c (s.chRate c) (s.chGrid c) x.waitFrom) (if x.notBefore = 0 then 0 else s.idxAt c (s.chRate c) (s.chGrid c) (s.servedAt x.notBefore))
  if x.stepped then max k x.next else k

/-- The last sample that a running stream still delivers when it ends now: the last whose support lies wholly before, and in a
BURST bay within a window (R131, R141; 03_conversion.md R88). -/
def State.lastComplete (s : State) (c : Nat) : Int :=
  let next : Int := (s.strm c).next
  let k := max (next - 1) (s.lastBefore c (s.chRate c) (s.chGrid c) s.now)
  if s.bmode (c / 8) = 2 ∧ (s.burstOf (c / 8) (s.sampleAt c (s.chRate c) (s.chGrid c) k.toNat)).isNone then next - 1 else k

/-- The stream of channel `c` ends at its last complete sample, and STREAM_ENDED is issued (R142); samples complete but not yet
delivered are still delivered (R121). A stream that ends while it waits reports the index below its first (log entry 20). While
it remains enabled it is WAITING (R132). (DEDUCED, log entry 26). -/
def State.endStream (s : State) (c reason : Nat) : State :=
  if c ≥ 512 then if s.streaming c then (s.closeKey c).issue 0x3002 [c, item (((s.strm c).next : Int) - 1), reason] else s
  else if !s.live c then s
  else
    let running := s.on (DEC_CH_STAT c) DEC_CH_STAT_RUNNING
    let last : Int := if running then s.lastComplete c else (s.firstIdx c : Int) - 1
    let x := s.course c
    let more := running && decide (last ≥ ((s.strm c).next : Int))
    let s := if more then s else s.closeKey c
    let s := (s.setFld (DEC_CH_STAT c) DEC_CH_STAT_RUNNING 0).setFld (DEC_CH_STAT c) DEC_CH_STAT_WAITING 1
    let s := s.onStrm c fun y => { y with inForce := false, tail := if more then some ⟨last.toNat, x.cfg, x.mode, x.unit⟩ else none }
    s.issue 0x3002 [c, item last, reason]

/-- Does a bay convert, with no scan setting awaiting its strobe? -/
def State.bayReady (s : State) (b : Nat) : Bool := s.bayRuns b && (s.bayOf b).scanNext.isNone

/-- An enabled stream that ended restarts once its support lies after a fine count, if its bay converts; else it waits (R132). -/
def State.restartStream (s : State) (c from_ notBefore : Nat) : State :=
  if !s.streaming c || c ≥ 512 || s.chMode c == 0 then s
  else if s.bayReady (c / 8) then s.awaitStream c from_ notBefore (s.strm c).told
  else s.setFld (DEC_CH_STAT c) DEC_CH_STAT_WAITING 1

/-- What is left of a stream's last course is given up: its record closes. -/
def State.dropTail (s : State) (c : Nat) : State :=
  if (s.strm c).tail.isSome then (s.closeKey c).onStrm c fun x => { x with tail := none } else s

/-- The streams of a bay. -/
def bayChans (b : Nat) : List Nat := (List.range 8).map fun i => 8 * b + i

/-- The load of R135 in units of 102.4 MHz / 2^23 / 5^3: each enabled analogue stream, and each open pane tap once for every
sampled input of its bay. `n` gives the scan setting of a bay and `rate` the rate code of a channel.
(DEDUCED, log entry 35). -/
def State.loadWith (s : State) (n : Nat → Nat) (rate : Nat → Nat) (enabled : Nat → Bool) (taps : List PaneTap) : Nat :=
  let f := fun m => 2 ^ 23 * 125 / m
  ((s.regs.filterMap fun e => if 0x36000 ≤ e.1 ∧ e.1 < 0x36800 then some ((e.1 - 0x36000) / 4) else none).foldl
      (fun k c => if enabled c then k + f (outClocks (n (c / 8)) (rate c)) else k) 0)
    + taps.foldl (fun k t => k + n t.bay * f (outClocks (n t.bay) t.rate)) 0

/-- The load in force. -/
def State.load (s : State) : Nat := s.loadWith s.scanN s.chRate s.streaming s.acq.taps

/-- 52 MS/s in the units of `loadWith`. -/
def loadLimit : Nat := 52000000 * (2 ^ 23 * 125) / 102400000

/-- Does a load fit R135, at the scan settings in use and, where one awaits its strobe, at those to come? -/
def State.loadFits (s : State) (rate : Nat → Nat) (enabled : Nat → Bool) (taps : List PaneTap) : Bool :=
  decide (s.loadWith s.scanN rate enabled taps ≤ loadLimit) && decide (s.loadWith s.scanCfg rate enabled taps ≤ loadLimit)

/-- The DEC_LOAD total in kS/s, rounded up (R135, R141). -/
def loadKs (load : Nat) : Nat := ceilDiv (load * 102400) (2 ^ 23 * 125)

end Sys2Proof.Machine
end

