-- ==== Sys2Proof/Machine/Panes.lean ====
section
/-!
DEFINITION. History, panes and the judging of triggers (07_panes_and_triggers.md R214 to R235, R240, R241, R243).
-/

namespace Sys2Proof.Machine

open Reg Bits

/-- HIST_EN and HIST_RATE of a bay (04_decimation.md R133). -/
def State.histEn (s : State) (b : Nat) : Bool := s.on (DEC_BAY_CFG b) DEC_BAY_CFG_HIST_EN
def State.histRate (s : State) (b : Nat) : Nat := s.fld (DEC_BAY_CFG b) DEC_BAY_CFG_HIST_RATE

/-- The bays whose history tap is enabled. -/
def State.histBays (s : State) : List Nat :=
  s.regs.filterMap fun e =>
    if 0x32000 ≤ e.1 ∧ e.1 < 0x32400 ∧ e.1 % 16 = 0 ∧ s.histEn ((e.1 - 0x32000) / 16) then some ((e.1 - 0x32000) / 16) else none

/-- The depth of history in units of 2^-80 s: area / (3 × Σ N × rate), where N × rate is 102.4 MHz / (2^a × 5^b) (R214). -/
def State.histDepth (s : State) : Nat :=
  let sum := s.histBays.foldl (fun n b => n + 2 ^ 20 * 125 / decim (s.histRate b)) 0
  if sum = 0 then 0 else s.histArea * 2 ^ 80 * (2 ^ 20 * 125) / (3 * 102400000 * sum)

/-- The kept samples of a channel in history. -/
def State.history (s : State) (c : Nat) : List Kept := s.cap.history.filter fun k => k.ch == c

/-- Read a kept sample from the DRAM: false where its word does not read (14_memory_and_ecc.md Table 14-3).
(DEDUCED, log entry 53). -/
def State.readKept (s : State) (k : Kept) : Bool × State :=
  if s.mem.damage.isEmpty then (true, s) else s.memRead 0 (Config.historyPlace k.ch k.idx).toNat 2

/-- Keep a history sample of channel `c`, whose DRAM word is written whole; samples beyond the depth in force are overwritten, and one whose support reaches back over a
break is not written (R214 to R216). (DEDUCED, log entry 53). -/
def State.keepHistory (s : State) (c idx : Nat) (v : Int) : State :=
  let b := c / 8
  let rate := s.histRate b
  let u := s.centre c rate false idx
  let h := s.ch c
  if !s.on (DEC_BAY_STAT b) DEC_BAY_STAT_HIST_RUN || decide (u < h.histFrom + s.halfSupport c rate false) then s
  else
    let mode := s.chMode c
    let y := formatValue mode 2 v
    let fl := s.sampleFlags mode c rate false idx
    let k : Kept := { ch := c, tap := 2, idx := idx, t := s.sampleAt c rate false idx, v := unstored mode 2 y.1,
                      flags := if y.2 then withFlag fl fOverload else fl, tqByte := s.tqByte false, gen := h.histGen, mode := mode,
                      unit := s.unitOf c, step := h.histStep }
    let d := s.cap.depth
    let s := (s.onCh c fun x => { x with histNext := idx + 1, histStep := false }).wroteWhole 0 (Config.historyPlace c idx).toNat 1
    s.onCap fun x => { x with history := (x.history.filter fun o => decide (o.t + d ≥ k.t)) ++ [k] }

/-- The engine's register fields. -/
def State.engArmed (s : State) (e : Nat) : Bool := s.on (CAP_ENG_CFG e) CAP_ENG_CFG_ARM
def State.engHist (s : State) (e : Nat) : Bool := s.on (CAP_ENG_CFG e) CAP_ENG_CFG_SOURCE
def State.engGrid (s : State) (e : Nat) : Bool := s.on (CAP_ENG_CFG e) CAP_ENG_CFG_GRID
def State.engFirst (s : State) (e : Nat) : Nat := s.fld (CAP_ENG_CHAN e) CAP_ENG_CHAN_FIRST
def State.engCount (s : State) (e : Nat) : Nat := s.fld (CAP_ENG_CHAN e) CAP_ENG_CHAN_COUNT
def State.engChans (s : State) (e : Nat) : List Nat := (List.range (s.engCount e)).map fun i => s.engFirst e + i
def State.engBays (s : State) (e : Nat) : List Nat := ((s.engChans e).map (· / 8)).eraseDups

/-- The rate code of an engine's panes in a bay (R218, R220). -/
def State.engRate (s : State) (e b : Nat) : Nat := if s.engHist e then s.histRate b else s.fld (CAP_ENG_CFG e) CAP_ENG_CFG_RATE

/-- The channels of an engine's template that its bays sample; the others give no samples. -/
def State.engSampled (s : State) (e : Nat) : List Nat := (s.engChans e).filter fun c => decide (c % 8 < s.scanN (c / 8))

/-- Change a pane of an engine. -/
def State.onPane (s : State) (id : Nat) (f : Pane → Pane) : State :=
  s.onEng (id / 4096) fun x => { x with panes := mapIf (fun p => p.id == id) f x.panes }

/-- The panes of an engine in OPEN. -/
def State.openPanes (s : State) (e : Nat) : List Pane := (s.eng e).panes.filter Pane.opened

/-- SLOTS is kept equal to the panes HELD or OPEN. -/
def State.showSlots (s : State) (e : Nat) : State := s.setFld (CAP_ENG_STAT e) CAP_ENG_STAT_SLOTS (s.eng e).panes.length

/-- Slots in use as the present clock sees them: one freed in this clock is not yet available (R222, R231). -/
def State.slotsUsed (s : State) (e : Nat) : Nat :=
  (s.eng e).panes.length + (if (s.eng e).freed.1 = s.clock then (s.eng e).freed.2 else 0)

/-- The engine's next pane ID (R221). -/
def State.nextPane (s : State) (e : Nat) : Nat :=
  let used := fun n => (s.eng e).panes.any fun p => p.id % 4096 == n
  let step := fun n => if n ≥ 4095 then 1 else n + 1
  let n0 := step (s.eng e).nextCount
  e * 4096 + (List.range 5).foldl (fun n _ => if used n then step n else n) n0

/-- The shift of a channel's indices against the pane's, where its bay has another scan setting. -/
def State.paneShift (s : State) (p : Pane) (c : Nat) : Int :=
  let e := p.engine
  let f := s.engFirst e
  if s.scanN (c / 8) = s.scanN (f / 8) then 0
  else (s.idxAt c (s.engRate e (c / 8)) (s.engGrid e) p.trig : Int) - p.nt

/-- The window of a pane on channel `c`. -/
def State.paneWindow (s : State) (p : Pane) (c : Nat) : Nat × Nat :=
  let d := s.paneShift p c
  ((p.first + d).toNat, (p.last + d).toNat)

/-- The assembly key of a pane's channel. -/
def paneKey (id c : Nat) : Nat := 1024 * (1 + id) + c

/-- One sample of a pane enters its channel's record (R223, R226), and its data where the pane is measured (R236). -/
def State.paneSample (s : State) (p : Pane) (k : Kept) (rf : Nat) (last : Bool) : State :=
  let e := p.engine
  let c := k.ch
  let fmt := s.fld (CAP_ENG_CFG e) CAP_ENG_CFG_FORMAT
  let y := storedAs k.mode fmt k.v
  let fl := if y.2 then withFlag k.flags fOverload else k.flags
  let perPane := wfld (Tab.get 0#32 p.meas c) CAP_MEAS_CFG_PER_PANE == 1
  let s := s.onPane p.id fun x =>
    { x with next := Tab.insert x.next c (k.idx + 1), flagsOr := if perPane then x.flagsOr ||| fl else x.flagsOr,
             data := if perPane then Tab.insert x.data c (Tab.get [] x.data c ++ [(k.idx, k.t, unstored k.mode fmt y.1)]) else x.data }
  s.addSample { key := paneKey p.id c, rtype := 2, fmt := fmt, idx := k.idx, st := st64 k.t, rate := s.engRate e (c / 8), tqByte := k.tqByte,
                flags := fl, recFlags := if k.step then withFlag rf fTimeStep else rf, pane := p.id, prio := s.fld (CAP_ENG_CFG e) CAP_ENG_CFG_PRIO,
                wantCmp := false, period := 0, recMs := 1, mode := k.mode, unit := k.unit, time := k.t, closes := last, value := y.1 }

/-- The measurement record of a whole pane, over the samples that it delivered (R236 to R238). (DEDUCED, log entry 54). -/
def State.measurePane (s : State) (p : Pane) : State :=
  let e := p.engine
  let grid := s.engGrid e
  let fmt := s.fld (CAP_ENG_CFG e) CAP_ENG_CFG_FORMAT
  let data := p.data.filter fun d => !d.2.isEmpty
  let entries := data.map fun d =>
    let c := d.1
    s.measureEntry c ((d.2.head?.map Prod.fst).getD 0) (Tab.get 0#32 p.meas c) (s.unitOf c)
      (unwrapped (s.chMode c == 1) fmt (d.2.map fun x => x.2.2)) (d.2.map fun x => x.2.1)
  match data with
  | [] => s
  | (c, l) :: rest =>
    let addr := s.chanAddr c + if rest.isEmpty then 0 else 2 ^ 23
    let t := (data.flatMap Prod.snd).foldl (fun m x => min m x.2.1) ((l.head?.map fun x => x.2.1).getD 0)
    s.measureRec addr (s.engRate e (c / 8)) (s.tqByte grid) p.flagsOr p.id (st64 t) entries

/-- A pane is CLOSED with an outcome (R222, R225): its records close, its slot is free from the next clock. -/
def State.closePane (s : State) (p : Pane) (outcome : Nat) : State :=
  match (s.eng p.engine).panes.find? fun x => x.id == p.id with
  | none => s
  | some p =>
    let s := (s.qm.asm.filter fun a => a.key / 1024 == 1 + p.id).foldl (fun s a => s.closeAsm a) s
    let s := s.measurePane p
    let last := if s.engHist p.engine || p.next.isEmpty then p.last else (p.next.foldl (fun n x => max n x.2) 0) - 1
    let s := s.onEng p.engine fun x =>
      { x with panes := x.panes.filter fun y => y.id != p.id, freed := if x.freed.1 = s.clock then (s.clock, x.freed.2 + 1) else (s.clock, 1) }
    (s.showSlots p.engine).issue 0x6002
      [p.id, p.first, if outcome ≥ 2 then last else p.last, if outcome = 0 && p.truncated then 1 else outcome, p.extCount]

/-- The tap of a bay that an engine draws from. -/
def State.tapOf (s : State) (e b : Nat) : Option PaneTap := s.acq.taps.find? fun t => t.bay == b && t.engines.contains e

/-- The samples of a channel in the pre-trigger ring of an engine's tap (R219). -/
def State.ring (s : State) (e c : Nat) : List Kept :=
  match s.tapOf e (c / 8) with
  | some t => s.cap.rings.filter fun k => k.ch == c && k.tap == t.slot
  | none => []

/-- The oldest sample of a channel that an engine's tap keeps, or the first it will give (R223). -/
def State.tapOldest (s : State) (e c : Nat) : Nat :=
  match (s.ring e c).head?, s.tapOf e (c / 8) with
  | some k, _ => k.idx
  | none, some t => s.firstFrom c t.rate t.grid t.since
  | none, none => 0

/-- A TAP pane closes once every sampled channel has delivered the last sample of its window, or its window is older than any kept
(R222, R223). (DEDUCED, log entry 51). -/
def State.finishTap (s : State) (id : Nat) : State :=
  match (s.eng (id / 4096)).panes.find? fun p => p.id == id && p.opened with
  | none => s
  | some p =>
    if !s.engHist p.engine && (s.engSampled p.engine).all fun c =>
        decide (Tab.get 0 p.next c > (s.paneWindow p c).2) || (decide (Tab.get 0 p.next c = 0) && decide (s.tapOldest p.engine c > (s.paneWindow p c).2)) then
      s.closePane p 0
    else s

/-- A sample of a pane tap goes to the open panes that draw from it. -/
def State.feedPanes (s : State) (engines : List Nat) (k : Kept) : State :=
  engines.foldl (fun s e =>
    if !(s.engChans e).contains k.ch then s
    else (s.openPanes e).foldl (fun s p =>
      let w := s.paneWindow p k.ch
      if w.1 ≤ k.idx ∧ k.idx ≤ w.2 ∧ Tab.get 0 p.next k.ch ≤ k.idx then (s.paneSample p k 0 (k.idx == w.2)).finishTap p.id else s) s) s

/-- A pane opens with trigger instant `T` (R220, R223): its window, and for TAP what the ring holds of it. A window that begins before
the oldest sample kept begins with that. -/
def State.startPane (s : State) (p : Pane) (T src origin opane : Nat) : State :=
  let e := p.engine
  let c := s.engFirst e
  let nt := s.idxAt c (s.engRate e (c / 8)) (s.engGrid e) T
  let first := nt - s.fld (CAP_ENG_PRE e) CAP_ENG_PRE_PRE
  let last := nt + s.fld (CAP_ENG_POST e) CAP_ENG_POST_POST - 1
  let cutFirst := if s.engHist e then first else max first (s.tapOldest e c)
  let order := (s.eng e).panes.foldl (fun n x => max n x.order) 0 + 1
  let q : Pane := { p with opened := true, heldTime := none, trig := T, nt := nt, first := cutFirst, last := last,
                           truncated := decide (cutFirst > first), order := order,
                           meas := (s.engChans e).filterMap fun d =>
                             if s.rd (CAP_MEAS_CFG d) = 0#32 then none else some (d, s.rd (CAP_MEAS_CFG d)) }
  let s := s.onEng e fun x => { x with panes := (x.panes.filter fun y => y.id != p.id) ++ [q] }
  let s := ((s.showSlots e).pmc 0x602 e 1).issue 0x6001 [p.id, src, st64 T, origin, opane, q.first % 2 ^ 32]
  if s.engHist e then s
  else
    let held := s.cap.rings.filter fun k => (s.engChans e).contains k.ch && ((s.tapOf e (k.ch / 8)).map PaneTap.slot == some k.tap)
    let s := held.foldl (fun s k =>
      match (s.eng e).panes.find? fun y => y.id == p.id with
      | none => s
      | some y =>
        let w := s.paneWindow y k.ch
        if w.1 ≤ k.idx ∧ k.idx ≤ w.2 ∧ Tab.get 0 y.next k.ch ≤ k.idx then s.paneSample y k 0 (k.idx == w.2) else s) s
    s.finishTap p.id

/-- A pane with nothing in it yet. -/
def newPane (e id : Nat) (held : Option Nat) : Pane :=
  { id := id, engine := e, opened := false, heldTime := held, trig := 0, nt := 0, first := 0, last := 0, truncated := false, extCount := 0,
    order := 0, next := [], data := [], flagsOr := 0, meas := [] }

/-- Take a slot for a new pane. -/
def State.takeSlot (s : State) (e : Nat) (held : Option Nat) : Nat × State :=
  let id := s.nextPane e
  let s := s.onEng e fun x =>
    { x with panes := x.panes ++ [newPane e id held], nextCount := id % 4096, issued := if x.issued.contains id then x.issued else x.issued ++ [id] }
  (id, s.showSlots e)

/-- What became of a trigger (Table 07-6). -/
inductive Judged where
  | nothing (pane : Nat)
  | opened (pane : Nat)
  | lost
  deriving DecidableEq, Repr

/-- A trigger with instant `T` reaches engine `e` (R231, R232); `held` is the pane that waits for it, which has its slot already. A
PANE_OPEN trigger that finds no slot is refused and not counted as lost (R240). (DEDUCED, log entry 51). -/
def State.judge (s : State) (e T src origin opane : Nat) (held : Option Pane) : Judged × State :=
  if !s.engArmed e then (.nothing 0, s.bump (CAP_ENG_CNT e) CAP_ENG_CNT_IGNORED)
  else
    let c := s.engFirst e
    let nt := s.idxAt c (s.engRate e (c / 8)) (s.engGrid e) T
    let mine := (s.eng e).judged.filter fun j => j.1 == s.clock
    let same := (s.openPanes e).find? fun p => p.nt == nt
    let s := s.onEng e fun x => { x with judged := (x.judged.filter fun j => j.1 == s.clock) ++ [(s.clock, nt)] }
    if same.isSome || mine.any fun j => j.2 == nt then
      (.nothing ((same.map Pane.id).getD 0), s.bump (CAP_ENG_CNT e) CAP_ENG_CNT_COINCIDENT)
    else
      let within := (s.openPanes e).foldl (fun (b : Option Pane) p =>
        if p.first ≤ nt ∧ nt ≤ p.last then match b with
          | none => some p
          | some x => if p.order > x.order then some p else b
        else b) none
      let mode := s.fld (CAP_ENG_CFG e) CAP_ENG_CFG_RETRIG
      let post := s.fld (CAP_ENG_POST e) CAP_ENG_POST_POST
      let maxLen := s.fld (CAP_ENG_MAXLEN e) CAP_ENG_MAXLEN_MAX_LEN
      let fresh := fun (s : State) => match held with
        | some p => (Judged.opened p.id, s.startPane p T src origin (if opane = 65536 then p.id else opane))
        | none =>
          if s.slotsUsed e < 4 then
            let r := s.takeSlot e none
            (Judged.opened r.1, r.2.startPane (newPane e r.1 none) T src origin (if opane = 65536 then r.1 else opane))
          else if src = 32 then (Judged.lost, s)
          else (Judged.lost, ((s.bump (CAP_ENG_STAT e) CAP_ENG_STAT_LOST).pmc 0x603 e 1).issueLim 0x6003 e 100 4 true [e, src, st64 T, st64 T, 0] 2)
      match within with
      | some p =>
        if mode = 2 then (.nothing p.id, s.bump (CAP_ENG_CNT e) CAP_ENG_CNT_IGNORED)
        else if mode = 1 then
          let s := s.bump (CAP_ENG_CNT e) CAP_ENG_CNT_EXTENDS
          if nt + post ≤ p.first + maxLen then
            (.nothing p.id, s.onPane p.id fun x => { x with last := max x.last (nt + post - 1), extCount := x.extCount + 1 })
          else fresh (s.onPane p.id fun x => { x with last := x.first + maxLen - 1, extCount := x.extCount + 1 })
        else fresh s
      | none => fresh s

/-- Endpoint, TTL and slot of an announcement (CAP_ANN_CFG, 12_command_packets.md R368). -/
def State.annDest (s : State) : Nat :=
  if s.fld CAP_ANN_CFG CAP_ANN_CFG_SCOPE = 2 then 2 ^ 15 else 2 ^ 14 + segOf s.addr * 64

/-- A fire is announced through Q55, at most once in a millisecond for the unit (R234). -/
def State.announce (s : State) (u T pane : Nat) : State :=
  let soon := match (s.unit u).annAt with
    | some a => decide (s.now < a + fineMs 1)
    | none => false
  if soon then s.bump (CAP_TRIG_STAT u) CAP_TRIG_STAT_ANN_SUPPRESSED
  else
    let ps := le 12 (ft96 T) ++ le 1 (s.fld (CAP_TRIG_CFG u) CAP_TRIG_CFG_GROUP) ++ le 1 (s.tq + 4 * s.tb.served) ++ le 2 pane ++ le 2 s.addr ++ le 2 0
    State.originateBy (fun s op p => s.enqueue (qitem 55 (packetCells p) (.packet op p) 8 false))
      (s.onUnit u fun x => { x with annAt := some s.now }) 0x6004 s.annDest (s.fld CAP_ANN_CFG CAP_ANN_CFG_SLOT) (s.fld CAP_ANN_CFG CAP_ANN_CFG_TTL) puAnnounce ps

/-- Unit `u` fires with trigger instant `T` (R230 to R232): the engines in whose mask it stands are judged. Answers the
panes opened and the triggers lost. -/
def State.fire (s : State) (u T origin opane : Nat) : Nat × Nat × State :=
  let s := (s.bump (CAP_TRIG_STAT u) CAP_TRIG_STAT_FIRES).pmc 0x601 u 1
  let es := (List.range 16).filter fun e => bit (s.fld (CAP_ENG_TRIG e) CAP_ENG_TRIG_MASK) u
  let r := es.foldl (fun (a : Nat × Nat × Nat × State) e =>
    let j := a.2.2.2.judge e T u origin (if opane = 65536 && a.1 != 0 then a.1 else opane) none
    match j.1 with
    | .opened id => (if a.1 = 0 then id else a.1, a.2.1 + 1, a.2.2.1, j.2)
    | .lost => (a.1, a.2.1, a.2.2.1 + 1, j.2)
    | .nothing _ => (a.1, a.2.1, a.2.2.1, j.2)) (0, 0, 0, s)
  let s := r.2.2.2
  (r.2.1, r.2.2.1, if s.on (CAP_TRIG_CFG u) CAP_TRIG_CFG_ANNOUNCE then s.announce u T r.1 else s)

/-- A fire of this hub's own: origin its address, origin pane the first that opens. (DEDUCED, log entry 51). -/
def State.fireOwn (s : State) (u T : Nat) : State := (s.fire u T s.addr 65536).2.2

/-- The enabled units of a type. -/
def State.unitsOf (s : State) (ty : Nat) : List Nat :=
  (List.range 32).filter fun u => s.on (CAP_TRIG_CFG u) CAP_TRIG_CFG_EN && s.fld (CAP_TRIG_CFG u) CAP_TRIG_CFG_TYPE == ty

/-- The threshold rule of R228 on one value of a unit, with the instant that a fire takes. -/
def State.threshold (s : State) (u : Nat) (v : Int) (T : Int → Nat) : State :=
  let lintel := signed 32 (s.fld (CAP_TRIG_LINTEL u) CAP_TRIG_LINTEL_LINTEL)
  let sill := signed 32 (s.fld (CAP_TRIG_SILL u) CAP_TRIG_SILL_SILL)
  let pol := s.on (CAP_TRIG_CFG u) CAP_TRIG_CFG_POL
  let past := if pol then decide (v < sill) else decide (v > lintel)
  let rearm := if pol then decide (v > lintel) else decide (v < sill)
  if s.on (CAP_TRIG_STAT u) CAP_TRIG_STAT_READY then
    if past then (s.setFld (CAP_TRIG_STAT u) CAP_TRIG_STAT_READY 0).fireOwn u (T (if pol then sill else lintel)) else s
  else if rearm then s.setFld (CAP_TRIG_STAT u) CAP_TRIG_STAT_READY 1
  else s

/-- The crossing instant of R229, to 2^-40 s. -/
def crossingAt (x0 : Int) (t0 : Nat) (x1 : Int) (t1 : Nat) (l : Int) : Nat :=
  if x1 = x0 then t1 else (((t0 : Int) + ((t1 : Int) - t0) * (l - x0) / (x1 - x0)).toNat) / 2 ^ 40 * 2 ^ 40

/-- A value of a LEVEL unit's signal at instant `t` (R227 to R229). -/
def State.feedLevel (s : State) (u : Nat) (v : Int) (t : Nat) : State :=
  let old := (s.unit u).recent
  let s := s.onUnit u fun x => { x with recent := [(v, t)] }
  s.threshold u v fun l => match old with
    | (x0, t0) :: _ => crossingAt x0 t0 v t l
    | [] => t

/-- A value of a SLOPE unit's signal at instant `t`: the difference over its lag (R227 to R229). -/
def State.feedSlope (s : State) (u : Nat) (v : Int) (t : Nat) : State :=
  let lag := s.fld (CAP_TRIG_PARAM u) CAP_TRIG_PARAM_PARAM
  let old := (s.unit u).recent
  let s := s.onUnit u fun x => { x with recent := ((v, t) :: x.recent).take (lag + 2) }
  match old[lag - 1]? with
  | none => s
  | some (xl, _) =>
    let d1 := v - xl
    s.threshold u d1 fun l => match old.head?, old[lag]? with
      | some (x0, t0), some (xm, _) => crossingAt (x0 - xm) t0 d1 t l
      | _, _ => t

/-- A sample of signal `sig` of channel `c`, in its S32 LSB, reaches the units on it in the order of their numbers (R227, R231), and
with it the value of a detector that takes this sample and has settled; none in a bay that carries the test tone
(17_counters_and_test.md R511). -/
def State.feedUnits (s : State) (c sig : Nat) (v : Int) (t : Nat) (det : Option Nat) : State :=
  if s.toned (c / 8) then s
  else (List.range 32).foldl (fun s u =>
    if !s.on (CAP_TRIG_CFG u) CAP_TRIG_CFG_EN || s.fld (CAP_TRIG_CFG u) CAP_TRIG_CFG_SEL != c then s
    else
      let mine := s.fld (CAP_TRIG_CFG u) CAP_TRIG_CFG_SIG == sig
      match s.fld (CAP_TRIG_CFG u) CAP_TRIG_CFG_TYPE, det with
      | 1, _ => if mine then s.feedLevel u v t else s
      | 2, _ => if mine then s.feedSlope u v t else s
      | 3, some d => s.threshold u d fun _ => t
      | _, _ => s) s

/-- TIME_TRIGGER: served time has reached a whole multiple of PARAM ms that unit `u` has not fired at (R227). -/
def State.timeFire (s : State) (u : Nat) : State :=
  let p := s.fld (CAP_TRIG_PARAM u) CAP_TRIG_PARAM_PARAM
  let k := periodOf (max 1 p) s.served
  if (s.unitsOf 6).contains u && p != 0 && decide (k > (s.unit u).lastTime) && (s.power == 2 || s.power == 3) then
    (s.onUnit u fun x => { x with lastTime := k }).fireOwn u (ceilDiv (k * p * 2 ^ 80) 1000)
  else s

/-- The meaning of TIME_TRIGGER. -/
def execTimeTrigger (t : Nat) (u : Fin 32) (s : State) : Host.Outcome State Fault Refusal := event t (State.timeFire · u) s

/-- A HELD pane reaches its time, or is launched: that is a trigger with that time, judged as any other (R222, R231, R232); one that
opens no pane leaves it HELD. (DEDUCED, log entry 51). -/
def State.openHeld (s : State) (id T src : Nat) : State :=
  match (s.eng (id / 4096)).panes.find? fun p => p.id == id && !p.opened with
  | some p => ((s.onPane id fun x => { x with heldTime := none }).judge p.engine T src s.addr 65536 (some p)).2
  | none => s

/-- PANE_HELD_TIME of pane `id`. -/
def State.heldTime (s : State) (id : Nat) : State :=
  match (s.eng (id / 4096)).panes.find? fun p => p.id == id && !p.opened with
  | some p => match p.heldTime with
    | some h => if s.served ≥ h then s.openHeld id h 32 else s
    | none => s
  | none => s

/-- The meaning of PANE_HELD_TIME. -/
def execPaneHeldTime (t id : Nat) (s : State) : Host.Outcome State Fault Refusal := event t (State.heldTime · id) s

/-- The native history samples that index `n` of a HISTORY pane's channel is made of: itself, or the 96 of the resampler (R224;
04_decimation.md R128). -/
def State.histNeed (s : State) (p : Pane) (c n : Nat) : Int × Int :=
  if s.engGrid p.engine then
    let rate := s.histRate (c / 8)
    let j := (inputOf (s.strobeOf c (s.gridAt c rate n)) (outClocks (s.scanN (c / 8)) rate * clk)).1
    (j - 47, j + 48)
  else (n, n)

/-- The samples of channel `c` that a HISTORY pane delivers, before they are read: native history samples, or grid samples
resampled from them within one span (R224). (DEDUCED, log entries 53 and 74). -/
def State.cutSamples (s : State) (p : Pane) (c : Nat) : List Kept :=
  let e := p.engine
  let w := s.paneWindow p c
  let l := s.history c
  if !s.engGrid e then l.filter fun k => decide (w.1 ≤ k.idx) && decide (k.idx ≤ w.2)
  else
    let rate := s.histRate (c / 8)
    let x : Samples := fun j => ((l.find? fun k => (k.idx : Int) == j).map Kept.v).getD 0
    (List.range (w.2 + 1 - w.1)).filterMap fun i =>
      let n := w.1 + i
      let t := s.gridAt c rate n
      let q := inputOf (s.strobeOf c t) (outClocks (s.scanN (c / 8)) rate * clk)
      let sup := l.filter fun k => decide (q.1 - 47 ≤ k.idx) && decide ((k.idx : Int) ≤ q.1 + 48)
      match sup with
      | [] => none
      | k :: rest =>
        if sup.length < 96 || sup.any fun y => y.gen != k.gen then none
        else some { k with idx := n, t := t, v := resample x q.1 q.2, flags := rest.foldl (fun f y => f ||| y.flags) k.flags,
                           tqByte := k.tqByte % 8 + 8, step := sup.any Kept.step }

/-- Deliver kept samples of a channel as records of a pane or extract: a record ends where the span or the index breaks, the
first after an offset step carries TIME_STEP, and a sample that does not read is declared by a gap of reason 3 (R216, R217,
14_memory_and_ecc.md Table 14-3). It answers what was delivered. (DEDUCED, log entry 53). -/
def State.deliver (s : State) (l : List Kept) (key : Nat) (addr rtype rate pane : Nat) (put : State → Kept → State) : State × List Kept :=
  let r := l.foldl (fun (a : State × Option Kept × Bool × List Kept) k =>
    let s := a.1
    let brk := match a.2.1 with
      | some o => o.gen != k.gen || o.idx + 1 != k.idx
      | none => false
    let stepped := (k.step && (match a.2.1 with
      | some o => !(o.step && o.gen == k.gen)
      | none => true)) || a.2.2.1
    let s := if brk then s.closeKey key else s
    let r := s.readKept k
    if r.1 then (put r.2 { k with step := stepped }, some k, false, a.2.2.2 ++ [k])
    else ((r.2.closeKey key).addGap ⟨rtype, 3, k.idx, k.idx, st64 k.t, 0⟩ addr rate (k.tqByte / 8 * 8) pane (st64 k.t) 1, some k, stepped, a.2.2.2))
    (s, none, false, [])
  (r.1, r.2.2.2)

/-- A HISTORY pane is cut: its samples become records with RETRO, and it closes (R224, R226). -/
def State.cutPane (s : State) (p : Pane) (outcome : Nat) : State :=
  let e := p.engine
  let r := (s.engSampled e).foldl (fun (a : State × Bool × Option Nat) c =>
    let s := a.1
    let l := s.cutSamples p c
    let w := s.paneWindow p c
    let trunc := match l.head? with
      | some k => decide (k.idx > w.1)
      | none => true
    let s := (s.deliver l (paneKey p.id c) (s.chanAddr c) 2 (s.histRate (c / 8)) p.id fun s k =>
      match (s.eng e).panes.find? fun y => y.id == p.id with
      | some y => s.paneSample y k (2 ^ fRetro) (k.idx == w.2)
      | none => s).1
    (s.closeKey (paneKey p.id c), a.2.1 || trunc, if c = s.engFirst e then l.head?.map Kept.idx else a.2.2)) (s, false, none)
  let s := r.1.onPane p.id fun y => { y with truncated := r.2.1, first := max y.first (r.2.2.getD y.first) }
  match (s.eng e).panes.find? fun y => y.id == p.id with
  | some y => s.closePane y outcome
  | none => s

/-- Does history hold the support of the last sample of a pane's window on every channel (R224)? -/
def State.historyHolds (s : State) (p : Pane) : Bool :=
  (s.engSampled p.engine).all fun c =>
    decide ((s.histNeed p c (s.paneWindow p c).2).2 < (s.ch c).histNext) || !s.on (DEC_BAY_STAT (c / 8)) DEC_BAY_STAT_HIST_RUN

/-- PANE_CUT of pane `id`. -/
def State.paneCut (s : State) (id : Nat) : State :=
  match (s.eng (id / 4096)).panes.find? fun p => p.id == id && p.opened with
  | some p => if s.engHist p.engine && s.historyHolds p then s.cutPane p 0 else s
  | none => s

/-- The meaning of PANE_CUT. -/
def execPaneCut (t id : Nat) (s : State) : Host.Outcome State Fault Refusal := event t (State.paneCut · id) s

/-- An open pane ends early by a step, a break or its bay: a TAP pane at its last delivered sample, a HISTORY pane cut with
what history holds (R225). -/
def State.endPane (s : State) (p : Pane) : State := if s.engHist p.engine then s.cutPane p 3 else s.closePane p 3

/-- The bay's PANE_TAPS. -/
def State.showTaps (s : State) (b : Nat) : State :=
  s.setFld (DEC_BAY_STAT b) DEC_BAY_STAT_PANE_TAPS (s.acq.taps.filter fun t => t.bay == b).length

/-- An engine is disarmed: its panes close, its taps are released (R241). -/
def State.disarm (s : State) (e outcome : Nat) : State :=
  let s := (s.eng e).panes.foldl (fun s p => if outcome = 3 && p.opened then s.endPane p else s.closePane p outcome) s
  let bays := (s.acq.taps.filter fun t => t.engines.contains e).map PaneTap.bay
  let s := s.onAcq fun a => { a with taps := (a.taps.map fun t => { t with engines := t.engines.filter (· != e) }).filter fun t => !t.engines.isEmpty }
  let live := fun (k : Kept) => s.acq.taps.any fun t => t.bay == k.ch / 8 && t.slot == k.tap
  let s := s.onCap fun c => { c with rings := c.rings.filter live }
  let s := (s.setFld (CAP_ENG_CFG e) CAP_ENG_CFG_ARM 0).setFld DEC_LOAD DEC_LOAD_LOAD (loadKs s.load)
  bays.foldl (fun s b => s.showTaps b) s

/-- A bay leaves CONTINUOUS mode or powers down: the panes on its channels end and their engines are disarmed (R225). -/
def State.bayLeaves (s : State) (b : Nat) : State :=
  ((List.range 16).filter fun e => s.engArmed e && (s.engBays e).contains b).foldl (fun s e => s.disarm e 3) s

/-- Do the samples of a HISTORY pane's window reach back over a break of channel `c` now? -/
def State.breakHits (s : State) (p : Pane) (c : Nat) : Bool :=
  decide ((s.histNeed p c (s.paneWindow p c).1).1 < s.firstFrom c (s.histRate (c / 8)) false s.now)

/-- A break of the history of some channels of bay `b` (R216): HISTORY_BREAK for each; open HISTORY panes on them whose
window it falls in end (R225); later samples are kept once their support lies after it. A re-partition breaks what a stopped tap
holds too (R215). -/
def State.breakChans (s : State) (b : Nat) (chans : List Nat) (reason : Nat) : State :=
  let run := s.on (DEC_BAY_STAT b) DEC_BAY_STAT_HIST_RUN
  let chans := chans.filter fun c => run || (reason == 6 && s.cap.history.any fun k => k.ch == c)
  let s := chans.foldl (fun s c => s.issue 0x6004 [c, item (((s.ch c).histNext : Int) - 1), reason]) s
  let hit := (List.range 16).flatMap fun e =>
    if s.engHist e then (s.openPanes e).filter fun p => chans.any fun c => (s.engChans e).contains c && s.breakHits p c else []
  let s := hit.foldl (fun s p => s.endPane p) s
  chans.foldl (fun s c => s.onCh c fun x =>
    { x with histGen := x.histGen + 1, histStep := x.histStep || reason == 5, breaks := x.breaks ++ [s.served], histFrom := s.now }) s

/-- A break of a bay's history on every sampled channel. -/
def State.breakHistory (s : State) (b reason : Nat) : State :=
  s.breakChans b (if reason = 6 then bayChans b else (List.range (s.scanN b)).map fun i => 8 * b + i) reason

/-- HIST_RUN follows HIST_EN and CONTINUOUS mode (R214, R216). -/
def State.showHist (s : State) (b : Nat) : State :=
  let run := s.histEn b && s.bmode b == 1 && s.bayRuns b
  let was := s.on (DEC_BAY_STAT b) DEC_BAY_STAT_HIST_RUN
  let s := s.setFld (DEC_BAY_STAT b) DEC_BAY_STAT_HIST_RUN (b2n run)
  let s := if run && !was then (bayChans b).foldl (fun s c => s.onCh c fun x => { x with histFrom := s.now }) s else s
  s.setFld CAP_HIST_STAT CAP_HIST_STAT_RUN (b2n ((List.range 64).any fun b => s.on (DEC_BAY_STAT b) DEC_BAY_STAT_HIST_RUN))

/-- A change of HIST_EN or HIST_RATE of any bay: the area is re-partitioned at the next whole second of served time (R215). -/
def State.askRepart (s : State) : State := s.onCap fun c => { c with repartAt := some (s.served / 2 ^ 80 + 1) }

/-- HISTORY_REPARTITION: what history held is discarded, HISTORY_BREAK with reason 6 is issued (R215). -/
def State.repartition (s : State) : State :=
  match s.cap.repartAt with
  | none => s
  | some k =>
    if s.served < k * 2 ^ 80 then s
    else
      let s := s.onCap fun c => { c with repartAt := none }
      let s := (List.range 64).foldl (fun s b => s.breakHistory b 6) s
      (s.onCap fun c => { c with history := [], depth := s.histDepth }).setFld CAP_HIST_STAT CAP_HIST_STAT_DEPTH_MS (satN 24 (s.histDepth * 1000 / 2 ^ 80))

/-- The meaning of HISTORY_REPARTITION. -/
def execHistoryRepartition (t : Nat) (s : State) : Host.Outcome State Fault Refusal := event t State.repartition s

/-- Words of a template (Table 07-9 bytes 4 to 27). -/
structure Template where
  cfg : Word
  chan : Word
  pre : Nat
  post : Nat
  maxLen : Nat
  mask : Nat
  deriving DecidableEq, Repr

/-- Which tap slot of a bay an engine with a rate code and grid bit takes: one that runs so, or a free one (R134). -/
def tapSlot (taps : List PaneTap) (b rate : Nat) (grid : Bool) : Option Nat :=
  match taps.find? fun t => t.bay == b && t.rate == rate && t.grid == grid with
  | some t => some t.slot
  | none => [0, 1].find? fun k => !(taps.any fun t => t.bay == b && t.slot == k)

/-- The taps with engine `e` drawing from one in bay `b`; `none` where a third would be needed. (DEDUCED, log entry 51). -/
def addTap (now e rate : Nat) (grid : Bool) (o : Option (List PaneTap)) (b : Nat) : Option (List PaneTap) :=
  match o with
  | none => none
  | some taps => match tapSlot taps b rate grid with
    | none => none
    | some k =>
      if taps.any fun t => t.bay == b && t.slot == k then
        some (mapIf (fun t => t.bay == b && t.slot == k) (fun t => { t with engines := t.engines ++ [e] }) taps)
      else some (taps ++ [⟨b, k, rate, grid, now, [e], []⟩])

/-- The taps after arming engine `e` with a template. -/
def State.tapsWith (s : State) (e : Nat) (x : Template) : Option (List PaneTap) :=
  let first := wfld x.chan CAP_ENG_CHAN_FIRST
  let bays := ((List.range (wfld x.chan CAP_ENG_CHAN_COUNT)).map fun i => (first + i) / 8).eraseDups
  if wfld x.cfg CAP_ENG_CFG_SOURCE = 1 then some s.acq.taps
  else bays.foldl (addTap s.now e (wfld x.cfg CAP_ENG_CFG_RATE) (wfld x.cfg CAP_ENG_CFG_GRID == 1)) (some s.acq.taps)

/-- The checks of arming (R134, R135, R218, R240). -/
def State.armChecks (s : State) (e : Nat) (x : Template) : List (Option Nat) :=
  let first := wfld x.chan CAP_ENG_CHAN_FIRST
  let count := wfld x.chan CAP_ENG_CHAN_COUNT
  let chans := (List.range count).map fun i => first + i
  let bays := (chans.map (· / 8)).eraseDups
  let hist := wfld x.cfg CAP_ENG_CFG_SOURCE == 1
  let rate := wfld x.cfg CAP_ENG_CFG_RATE
  let fmt := wfld x.cfg CAP_ENG_CFG_FORMAT
  let taps := s.tapsWith e x
  [need (1 ≤ count && count ≤ 64 && decide (first + count ≤ 512)) stBAD_PARAM,
   need (wfld x.cfg CAP_ENG_CFG_RETRIG != 3 && fmt != 0) stBAD_PARAM,
   need (hist || (rateOk rate && !(wfld x.cfg CAP_ENG_CFG_GRID == 1 && rateA rate == 0))) stBAD_PARAM,
   need (decide (1 ≤ x.pre + x.post) && decide (x.pre + x.post ≤ x.maxLen) && (hist || decide (x.pre ≤ 65536))) stBAD_PARAM,
   need s.address.isSome stBAD_STATE,
   need (bays.all fun b => s.bmode b == 1 && s.bayRuns b) stBAD_STATE,
   need (!hist || bays.all fun b => s.histEn b && s.histRate b == s.histRate (first / 8)) stBAD_STATE,
   need (!(fmt == 3 && chans.any fun c => s.chMode c == 1)) stBAD_STATE,
   need taps.isSome stNO_RESOURCE,
   need (s.loadFits s.chRate s.streaming (taps.getD [])) stNO_RESOURCE]

/-- Arm an engine with a template (R219). -/
def State.arm (s : State) (e : Nat) (x : Template) : State :=
  let s := (((((s.wr (CAP_ENG_CFG e) (setBits x.cfg CAP_ENG_CFG_ARM 1)).wr (CAP_ENG_CHAN e) x.chan).setFld (CAP_ENG_PRE e) CAP_ENG_PRE_PRE x.pre).setFld
    (CAP_ENG_POST e) CAP_ENG_POST_POST x.post).setFld (CAP_ENG_MAXLEN e) CAP_ENG_MAXLEN_MAX_LEN x.maxLen).wr (CAP_ENG_TRIG e) (word x.mask)
  let taps := (s.tapsWith e x).getD s.acq.taps
  let s := s.onAcq fun a => { a with taps := taps }
  let s := s.setFld DEC_LOAD DEC_LOAD_LOAD (loadKs s.load)
  (s.engBays e).foldl (fun s b => s.showTaps b) s

/-- PANE_OPEN (0x6002), R240. (DEDUCED, log entry 51). -/
def bodyPaneOpen : Body := fun _ ps s =>
  let e := num ps 0 1
  let op := num ps 1 1
  let x : Template := ⟨word (num ps 4 4), word (num ps 8 4), num ps 12 4, num ps 16 4, num ps 20 4, num ps 24 4⟩
  let resv := bits (num ps 4 4) 8 15 == 0 && bits (num ps 8 4) 9 7 == 0 && bits (num ps 8 4) 23 9 == 0 && zeroAt ps 15 1 && zeroAt ps 19 1 && zeroAt ps 23 1
  let tm := num ps 28 12 * 2 ^ 32
  let base := [need (e < 16 && op ≤ 2 && zeroAt ps 2 2) stBAD_PARAM]
  if op = 0 then
    checked s (base ++ [need resv stBAD_PARAM] ++ s.armChecks e x ++ [need (!s.engArmed e) stBUSY]) (.reply (s.arm e x) stOK (le 2 0))
  else if op = 1 then
    let T := if tm = 0 then s.served else tm
    let future := decide (T > s.served)
    checked s
      (base ++ [need (decide (tm ≤ s.served + 2592000 * 2 ^ 80)) stBAD_PARAM, need (s.engArmed e && s.address.isSome) stBAD_STATE,
                need (!future || decide (s.slotsUsed e < 4)) stNO_RESOURCE])
      (if future then let r := s.takeSlot e (some T); .reply r.2 stOK (le 2 r.1)
       else
         let j := s.judge e T 32 s.addr 65536 none
         match j.1 with
         | .lost => refuse s stNO_RESOURCE
         | .nothing id | .opened id => .reply j.2 stOK (le 2 id))
  else
    checked s (base ++ [need (s.engArmed e && s.address.isSome) stBAD_STATE, need (decide (s.slotsUsed e < 4)) stNO_RESOURCE])
      (let r := s.takeSlot e none; .reply r.2 stOK (le 2 r.1))

/-- The meaning of PANE_OPEN. -/
def execPaneOpen (t : Nat) (p : Packet) (s : State) : Host.Outcome State Fault Refusal := command 0x6002 bodyPaneOpen t p s

/-- PANE_CLOSE (0x6003), R241: a HISTORY pane not yet cut delivers nothing (R225). -/
def bodyPaneClose : Body := fun _ ps s =>
  let e := num ps 0 1
  let op := num ps 1 1
  let id := num ps 2 2
  let pane := (s.eng e).panes.find? fun p => p.id == id
  checked s [need (e < 16 && op ≤ 2) stBAD_PARAM, need (op != 0 || (s.eng e).issued.contains id) stBAD_PARAM]
    (if op = 0 then match pane with
       | some p => ok (s.closePane p 2)
       | none => .reply s stDONE_BEFORE_ABORT []
     else if op = 1 then ok ((s.eng e).panes.foldl (fun s p => s.closePane p 2) s)
     else ok (s.disarm e 2))

/-- The meaning of PANE_CLOSE. -/
def execPaneClose (t : Nat) (p : Packet) (s : State) : Host.Outcome State Fault Refusal := command 0x6003 bodyPaneClose t p s

/-- ENGINE_ARM_WRITE: a write of ARM to CAP_ENG_CFG of engine `e`; 1 arms it with the template its registers hold where
PANE_OPEN would, 0 acts as PANE_CLOSE op 2 (R240, R241; 07_panes_and_triggers.md, Registers). -/
def State.armWrite (s : State) (e : Nat) (arm : Bool) : State :=
  if arm then
    let x : Template := ⟨s.rd (CAP_ENG_CFG e), s.rd (CAP_ENG_CHAN e), s.fld (CAP_ENG_PRE e) CAP_ENG_PRE_PRE, s.fld (CAP_ENG_POST e) CAP_ENG_POST_POST,
      s.fld (CAP_ENG_MAXLEN e) CAP_ENG_MAXLEN_MAX_LEN, s.fld (CAP_ENG_TRIG e) CAP_ENG_TRIG_MASK⟩
    if s.engArmed e || (firstFail (s.armChecks e x)).isSome then s else s.arm e x
  else if s.engArmed e then s.disarm e 2
  else s

/-- The meaning of ENGINE_ARM_WRITE. -/
def execEngineArmWrite (t : Nat) (e : Fin 16) (arm : Bool) (s : State) : Host.Outcome State Fault Refusal := event t (State.armWrite · e arm) s

/-- TRIGGER_ANNOUNCE (0x6004), R235, R242: an announcement of this hub's own, or one heard within 10 s, fires nothing; else
every REMOTE unit of its group fires. One that another hub originated gets no reply. (DEDUCED, log entry 52). -/
def bodyTriggerAnnounce : Body := fun c ps s =>
  let T := num ps 0 12
  let group := num ps 12 1
  let pane := num ps 14 2
  let origin := num ps 16 2 % 2048
  checked s [need (bits (num ps 13 1) 3 5 == 0 && bits (num ps 16 2) 11 5 == 0 && zeroAt ps 18 2) stBAD_PARAM]
    (let old := s.cap.seen.filter fun a => decide (s.now < a.at_ + fineMs 10000)
     let again := old.any fun a => a.origin == origin && a.group == group && a.time == T && a.pane == pane
     let s := s.onCap fun x => { x with seen := if origin == s.addr && c.origin then old else old ++ [⟨origin, group, T, pane, s.now⟩] }
     let r := if again || (origin == s.addr && c.origin) then (0, 0, s)
       else ((s.unitsOf 7).filter fun u => s.fld (CAP_TRIG_CFG u) CAP_TRIG_CFG_GROUP == group).foldl
         (fun (a : Nat × Nat × State) u => let f := a.2.2.fire u (T * 2 ^ 32) origin pane; (a.1 + f.1, a.2.1 + f.2.1, f.2.2)) (0, 0, s)
     if c.origin then .quiet r.2.2 else .reply r.2.2 stOK (le 1 (satN 8 r.1) ++ le 1 (satN 8 r.2.1)))

/-- The meaning of TRIGGER_ANNOUNCE. -/
def execTriggerAnnounce (t : Nat) (p : Packet) (s : State) : Host.Outcome State Fault Refusal := command 0x6004 bodyTriggerAnnounce t p s

/-- HISTORY_EXTRACT (0x6005), from its own checks on (R243). -/
def bodyHistoryExtract : Body := fun c ps s =>
  let first := num ps 0 2
  let count := num ps 2 2
  let a := num ps 4 12 * 2 ^ 32
  let b := num ps 16 12 * 2 ^ 32
  checked s
    [need (decide (1 ≤ count) && decide (first + count ≤ 512)) stBAD_PARAM, need (decide (a < b) && decide (b ≤ s.served + 10 * 2 ^ 80)) stBAD_PARAM,
     need (decide (num ps 28 1 < 2) && zeroAt ps 29 3) stBAD_PARAM,
     need (allIn first count fun ch => s.histEn (ch / 8)) stBAD_STATE]
    (.long (s.onCap fun x => { x with extracts := x.extracts ++ [⟨first, count, a, b, bit (num ps 28 1) 0, c, none⟩] }))

/-- The meaning of HISTORY_EXTRACT. -/
def execHistoryExtract (t : Nat) (p : Packet) (s : State) : Host.Outcome State Fault Refusal := command 0x6005 bodyHistoryExtract t p s

/-- The assembly key of an extract's channel. -/
def extractKey (c : Nat) : Nat := 1024 * 70000 + c

/-- Does history hold the end of an extract's span on every channel? -/
def State.extractReady (s : State) (x : Extract) : Bool :=
  decide (s.served ≥ x.endSt) && allIn x.first x.count fun c =>
    !s.on (DEC_BAY_STAT (c / 8)) DEC_BAY_STAT_HIST_RUN || decide (c % 8 ≥ s.scanN (c / 8))
      || decide (s.sampleAt c (s.histRate (c / 8)) false (s.ch c).histNext ≥ x.endSt)

/-- Has a record of an extract been queued: has it entered its queue whole, or gone on from there (R243)? -/
def State.recQueued (s : State) (id : Nat) : Bool :=
  match s.qm.recs.find? fun r => r.id == id with
  | none => true
  | some r => r.place != .engine && (r.place != .queued || decide (r.entered + r.inAsm ≥ r.cells))

/-- The records of an extract are formed from the history of its channels (R217, R243). -/
def State.formExtract (s : State) (x : Extract) : State × Extracted :=
  let id0 := s.qm.nextRec
  let span := fun (k : Kept) => decide (x.startSt ≤ k.t) && decide (k.t < x.endSt)
  let r := ((List.range x.count).map fun i => x.first + i).foldl (fun (a : State × List Kept × Nat) c =>
    let s := a.1
    let l := s.history c
    let mine := l.filter span
    let trunc := match l.head? with
      | some k => decide (k.t > x.startSt)
      | none => true
    let broken := ((s.ch c).breaks.any fun t => decide (x.startSt ≤ t) && decide (t < x.endSt))
      || mine.any fun o => mine.any fun k => k.gen != o.gen
    let key := extractKey c
    let d := s.deliver mine key (s.chanAddr c) 7 (s.histRate (c / 8)) 0 fun s k =>
      s.addSample { key := key, rtype := 7, fmt := 2, idx := k.idx, st := st64 k.t, rate := s.histRate (c / 8), tqByte := k.tqByte,
                    flags := k.flags, recFlags := if k.step then 2 ^ fTimeStep else 0, pane := 0, prio := 0, wantCmp := x.cmp, period := 0,
                    recMs := 1, mode := k.mode, unit := k.unit, time := k.t, closes := false, value := (formatValue k.mode 2 k.v).1 }
    (d.1.closeKey key, a.2.1 ++ d.2, a.2.2 ||| (b2n trunc + 2 * b2n broken))) (s, [], 0)
  let all := r.2.1
  let t0 := all.foldl (fun m k => min m k.t) (all.head?.elim 0 Kept.t)
  let t1 := all.foldl (fun m k => max m k.t) 0
  (r.1, ⟨(r.1.qm.recs.filter fun y => y.rtype == 7 && decide (y.id ≥ id0)).map Rec.id, st64 t0, st64 t1, r.2.2⟩)

/-- EXTRACT_SERVE: the records are formed and queued, and once the last of them is queued the completion report is sent (R217, R243). A
hub without an address forms none (01_architecture.md R18). (DEDUCED, log entry 53). -/
def State.serveExtract (s : State) (tag source : Nat) : State :=
  let mine := fun (x : Extract) => x.caller.tag == tag && x.caller.source == source
  match s.cap.extracts.find? mine with
  | none => s
  | some x =>
    if x.out.isNone && (s.power == 1 || !s.extractReady x) then s
    else
      let r := match x.out with
        | some o => (s, o)
        | none => s.formExtract x
      let s := r.1.qm.recs.foldl (fun s y => s.pushRec y) r.1
      if r.2.recs.all s.recQueued then
        (s.onCap fun y => { y with extracts := y.extracts.filter fun z => !mine z }).report x.caller stOK
          (le 4 r.2.recs.length ++ le 8 r.2.first ++ le 8 r.2.last ++ le 1 r.2.flags)
      else s.onCap fun y => { y with extracts := mapIf mine (fun z => { z with out := some r.2 }) y.extracts }

/-- The meaning of EXTRACT_SERVE. -/
def execExtractServe (t tag source : Nat) (s : State) : Host.Outcome State Fault Refusal :=
  event t (fun s => s.serveExtract tag source) s

/-- MEASURE_CONFIG (0x6006), R244. -/
def bodyMeasureConfig : Body := fun _ ps s =>
  let first := num ps 0 2
  let count := num ps 2 2
  let w := num ps 4 4
  checked s [need (decide (1 ≤ count) && decide (first + count ≤ 512) && bits w 24 6 == 0 && bits w 6 14 == 0) stBAD_PARAM]
    (ok ((List.range count).foldl (fun s i => s.wr (CAP_MEAS_CFG (first + i)) (word w)) s))

/-- The meaning of MEASURE_CONFIG. -/
def execMeasureConfig (t : Nat) (p : Packet) (s : State) : Host.Outcome State Fault Refusal := command 0x6006 bodyMeasureConfig t p s

end Sys2Proof.Machine
end

