-- ==== Sys2Proof/Machine/Tiu.lean ====
section
/-!
DEFINITION. The interval unit (06_interval_unit.md): sources and claims, stamps and their conversion, frequency gates, and
the configuration of trigger units, which claims sources (07_panes_and_triggers.md R227, R239).
-/

namespace Sys2Proof.Machine

open Reg Bits

/-- A quotient that the manual reports as a whole number without a rounding: one of the two neighbours.
(DEDUCED, log entry 28). -/
def roundFree (num den : Nat) : Nat :=
  if den = 0 then 0 else if num % den = 0 then num / den else num / den + (Config.roundUp num den).toNat

/-- A group joins the calibration queue once, unless it is queued or running (16_calibration.md R492). -/
def State.queueCal (s : State) (g : Nat) : State :=
  if s.cal.queued.contains g || s.cal.running.any fun r => r.g == g then s
  else (s.onCal fun c => { c with queued := c.queued ++ [g] }).setFld (CAL_GRP_STAT g) CAL_GRP_STAT_PENDING 1

/-- Fixed sources: PPS_A, PPS_B, time blocks, REFCLK_IN (Table 06-2). -/
def srcFixed (n : Nat) : Bool := n == 0x20 || n == 0x21 || (decide (0x2A ≤ n) && decide (n ≤ 0x3A))
def srcComp (n : Nat) : Bool := decide (n < 32)

/-- Is a source routable: a comparator, trigger input or frame start (Table 06-2)? -/
def srcRoutable (n : Nat) : Bool := decide (n < 0x2A) && !srcFixed n

/-- A source's fields; a fixed source is enabled by the block that owns it (R185). -/
def State.srcOn (s : State) (n : Nat) : Bool :=
  if n = 0x20 ∨ n = 0x21 then s.on (TB_DOM_CFG (n - 0x20)) TB_DOM_CFG_GM_EN
  else if n = 0x3A then s.on TB_REF TB_REF_REF_EN
  else if 0x2A ≤ n ∧ n ≤ 0x39 then s.portUp ((n - 0x2A) % 8)
  else s.on (TIU_SRC_CFG n) TIU_SRC_CFG_EN
def State.srcUser (s : State) (n : Nat) : Nat := s.fld (TIU_SRC_CFG n) TIU_SRC_CFG_CONSUMER
def State.srcChan (s : State) (n : Nat) : Nat := s.fld (TIU_SRC_CFG n) TIU_SRC_CFG_CHANNEL

/-- The core a source is routed to (Table 06-2). -/
def State.srcCore (s : State) (n : Nat) : Nat :=
  if srcFixed n then if 0x32 ≤ n ∧ n ≤ 0x39 then 1 else 0 else s.fld (TIU_SRC_CFG n) TIU_SRC_CFG_CORE

/-- Is a core in service: both loops locked, not calibrating, its sources its own; in DORMANT V0 and V1 alone run (R181 to
R184, 01_architecture.md R29)? -/
def State.coreUp (s : State) (v : Nat) : Bool :=
  s.on (TIU_CORE_STAT v) TIU_CORE_STAT_LOCK_F && s.on (TIU_CORE_STAT v) TIU_CORE_STAT_LOCK_S && !s.on (TIU_CORE_STAT v) TIU_CORE_STAT_CAL
    && !s.on (TIU_CORE_STAT v) TIU_CORE_STAT_MOVED && (s.power != 1 || decide (v < 2))

/-- The partner of a core (R182). -/
def corePartner (v : Nat) : Nat := if v % 2 = 0 then v + 1 else v - 1

/-- The routable core that serves the fewest enabled sources, the lowest among equals (R195). -/
def State.pickCore (s : State) : Nat :=
  let load := fun v => ((List.range 0x2A).filter fun n => srcRoutable n && s.srcOn n && s.srcCore n == v).length
  [3, 4, 5, 6, 7].foldl (fun b v => if load v < load b then v else b) 2

/-- The free comparator sources (R195). -/
def State.freeComps (s : State) : List Nat := (List.range 32).filter fun n => s.srcUser n == 0

/-- Set a source's word: enabled, core, consumer, edge, channel. -/
def State.setSource (s : State) (n : Nat) (en : Bool) (core user : Nat) (edge both : Bool) (chan : Nat) : State :=
  s.wr (TIU_SRC_CFG n) (word (b2n en * 2 ^ 31 + core * 2 ^ 28 + user * 2 ^ 26 + b2n edge * 2 ^ 25 + b2n both * 2 ^ 24 + chan))

/-- Release a source. -/
def State.freeSource (s : State) (n : Nat) : State :=
  ((s.setFld (TIU_SRC_CFG n) TIU_SRC_CFG_EN 0).setFld (TIU_SRC_CFG n) TIU_SRC_CFG_CONSUMER 0)

/-- Can a comparator source serve a channel: VOLTAGE, BRIDGE, VWIRE or SWITCH (R188)? -/
def State.compOk (s : State) (c : Nat) : Bool := [2, 3, 4, 5].contains (s.chMode c)

/-- A channel's MODE changes to CHARGE or OFF: claims on it are released, and a gate has the source no more (R188). -/
def State.releaseChan (s : State) (c : Nat) : State :=
  ((List.range 32).filter fun n => s.srcUser n != 0 && s.srcChan n == c).foldl (fun s n =>
    let user := s.srcUser n
    let s := (List.range 32).foldl (fun s u => if (s.unit u).src == some n then s.onUnit u fun x => { x with src := none } else s) s
    let s := s.onTiu fun t => { t with gates := t.gates.map fun g => { g with chans := mapIf (fun x => x.src == n) (fun x => { x with src := 64 }) g.chans } }
    (s.freeSource n).issue 0x5003 [n, user, c]) s

/-- Picoseconds removed from a source's stamps on conversion (Table 06-2; PPS_DELAY belongs to the time base).
(DEDUCED, log entry 28). -/
def State.srcDelay (s : State) (n : Nat) : Nat :=
  if n < 32 then (Config.compDelay (s.srcChan n) (s.chMode (s.srcChan n)) (s.fld (AFE_CH_STAT (s.srcChan n)) AFE_CH_STAT_RANGE_NOW)).toNat
  else if n < 0x2A ∨ n = 0x3A then 1850
  else 0

/-- The served time of a stamp, in 2^-80 s (R191). -/
def State.stampTime (s : State) (n fine : Nat) : Nat := ((s.servedAt fine : Int) - ps80 (s.srcDelay n)).toNat

/-- The FIFO of core `v` at this instant: its consumers take 20 M stamps a second (Table 06-1; log entry 21). -/
def State.drainCore (s : State) (v : Nat) : State :=
  let c := s.core v
  let n := if c.fifo.isEmpty then 0 else (25 * s.now - c.popAt) / 524288
  (s.onCore v fun x => { x with fifo := x.fifo.drop n, popAt := if (x.fifo.drop n).isEmpty then 25 * s.now else x.popAt + n * 524288 }).setFld
    (TIU_CORE_STAT v) TIU_CORE_STAT_DEPTH (c.fifo.drop n).length

/-- A HOST stamp goes to the buffer of 1,024, or is lost (R190). -/
def State.hostStamp (s : State) (st : Stamp) : State :=
  if s.tiu.host.length ≥ 1024 then s.bump TIU_HOST_STAT TIU_HOST_STAT_LOST
  else (s.onTiu fun t => { t with host := t.host ++ [st] }).setFld TIU_HOST_STAT TIU_HOST_STAT_DEPTH (s.tiu.host.length + 1)

/-- A CAP stamp fires the units that claim its source and its edge (R227), but for a comparator of a bay that carries the test
tone (17_counters_and_test.md R511); of a frame start it is the frame time of its port (08_field_ports_and_outputs.md R251). -/
def State.capStamp (s : State) (st : Stamp) : State :=
  if st.src < 32 && s.toned (s.srcChan st.src / 8) then s
  else if 0x26 ≤ st.src ∧ st.src < 0x2A then s.onFport (st.src - 0x26) fun x => { x with stamps := ((st.fine, st.time) :: x.stamps).take 8 }
  else ((List.range 32).filter fun u => (s.unit u).src == some st.src && s.on (CAP_TRIG_CFG u) CAP_TRIG_CFG_EN
      && s.on (CAP_TRIG_CFG u) CAP_TRIG_CFG_POL == st.falling).foldl (fun s u => s.fireOwn u st.time) s

/-- The divisor M of a gate's edges (R193). -/
def gateDivGo (fHi gateMs : Nat) : Nat → Nat → Nat
  | 0, m => m
  | n + 1, m => if fHi > 100000000 * m ∨ fHi * gateMs > 2 ^ 24 * 100000 * m then gateDivGo fHi gateMs n (2 * m) else m
def Gate.div (g : Gate) : Nat := gateDivGo g.fHi g.gateMs 20 1

/-- An edge of source `n` reaches its gate (R192, R193, R196): it counts there while the gate is open and not paused, and is stamped
if it is an M-th one. -/
def State.gateEdge (s : State) (n : Nat) (falling : Bool) : Bool × State :=
  let mine := fun (g : Gate) => g.openAt.isSome && g.pausedAt.isNone && falling == g.falling && g.chans.any fun x => x.src == n
  match s.tiu.gates.find? mine with
  | none => (false, s)
  | some g =>
    ((g.chans.find? fun x => x.src == n).any fun x => x.edges % g.div == 0,
     s.onTiu fun t => { t with gates := mapIf mine (fun g => { g with chans := mapIf (fun x => x.src == n) (fun x => { x with edges := x.edges + 1 }) g.chans }) t.gates })

/-- A FREQ stamp enters its open gate (R192). -/
def State.gateStamp (s : State) (st : Stamp) : State :=
  s.onTiu fun t => { t with gates := t.gates.map fun g =>
    if g.openAt.isSome then
      { g with chans := mapIf (fun x => x.src == st.src) (fun x =>
          { x with stamps := x.stamps ++ [st.fine], lost := x.lost || st.lost, missed := x.missed || st.missBefore }) g.chans }
    else g }

/-- The core that stamps source `n` now: its own, or the partner where its own is out of service; none where both are, and none for a
source that feeds an open gate, which does not move (R182 to R184). (DEDUCED, log entry 21). -/
def State.servingCore (s : State) (n : Nat) : Option Nat :=
  let home := s.srcCore n
  let inGate := s.tiu.gates.any fun g => g.openAt.isSome && g.chans.any fun x => x.src == n
  if s.coreUp home then some home else if !inGate && s.coreUp (corePartner home) then some (corePartner home) else none

/-- An edge is missed on core `v` (R184, R186). -/
def State.missEdge (s : State) (v : Nat) : State :=
  ((s.bump (TIU_CORE_STAT v) TIU_CORE_STAT_MISSED).pmc 0x502 v 1).onCore v fun x => { x with missNext := true }

/-- The accepted edges of core `v` within the dead time of 12 ns about a fine count (R186). -/
def State.rivals (s : State) (v at_ : Nat) : List (Nat × Nat) :=
  ((s.core v).lastEdge.toList ++ (s.core v).ahead).filter fun e => decide (at_ < e.1 + 5034) && decide (e.1 < at_ + 5034)

/-- A time block loses its stamp on core `v` to an edge of a lower-numbered source: its exchange stays unpaired (R186, R187).
(DEDUCED, log entry 21). -/
def State.revokeStamp (s : State) (v : Nat) (e : Nat × Nat) : State :=
  let s := (s.missEdge v).onCore v fun x =>
    { x with lastEdge := if x.lastEdge = some e then none else x.lastEdge, ahead := x.ahead.filter (· != e),
             fifo := x.fifo.filter fun y => !(y.fine == e.1 && y.src == e.2) }
  if 0x2A ≤ e.2 ∧ e.2 < 0x32 then
    let p := e.2 - 0x2A
    let gone := ((s.ptime p).txStamps.filter fun y => decide (e.1 ≤ y.2)).map Prod.fst
    let cell := fun (i : QItem) => i.q == 4 * p + 1 && i.sent == 0 && match i.ctl with
      | .timeCell c => gone.contains c.seq
      | _ => false
    (s.onPtime p fun x => { x with txStamps := x.txStamps.filter fun y => decide (y.2 < e.1) }).onQm fun m => { m with items := m.items.filter fun i => !cell i }
  else if 0x32 ≤ e.2 ∧ e.2 < 0x3A then s.onPtime (e.2 - 0x32) fun x => { x with rxStamp := none }
  else s

/-- An edge of source `n` at fine count `at_` (R184 to R186, R190): stamped by the core that serves it, or missed. Within the dead
time of an accepted edge it is missed, unless that was a time block of a higher number, which then loses its stamp.
(DEDUCED, log entry 21). -/
def State.stampEdge (s : State) (n : Nat) (falling : Bool) (at_ : Nat) : Option Stamp × State :=
  let home := s.srcCore n
  match s.servingCore n with
  | none => (none, s.missEdge home)
  | some v =>
    let near := s.rivals v at_
    if near.any fun e => decide (e.2 ≤ n) || decide (e.2 < 0x2A) then (none, s.missEdge v)
    else
      let s := (near.foldl (fun s e => s.revokeStamp v e) s).drainCore v
      let c := s.core v
      let s := s.onCore v fun x =>
        if at_ ≤ s.now then { x with lastEdge := some (at_, n), ahead := x.ahead.filter fun e => decide (s.now < e.1 + 5034) }
        else { x with ahead := (x.ahead.filter fun e => decide (s.now < e.1 + 5034)) ++ [(at_, n)] }
      if c.fifo.length ≥ 64 then
        (none, ((s.bump (TIU_CORE_ERR v) TIU_CORE_ERR_OVERFLOW).onCore v fun x => { x with lostNext := true }).issueLim 0x5001 v 1 1 true [v, 0])
      else
        let st : Stamp := ⟨at_, s.stampTime n at_, n, falling, c.missNext, c.lostNext, v != home, v⟩
        let k := c.taken + 1
        let s := s.bumpBy (TIU_CORE_ERR v) TIU_CORE_ERR_STAMPS (k / 65536)
        let s := (s.onCore v fun x => { x with fifo := x.fifo ++ [st], missNext := false, lostNext := false, taken := k % 65536 }).setFld
          (TIU_CORE_STAT v) TIU_CORE_STAT_DEPTH (c.fifo.length + 1)
        (some st, s.pmc 0x501 v 1)

/-- Does a source's setting take this edge? -/
def State.takesEdge (s : State) (n : Nat) (falling : Bool) : Bool :=
  s.srcOn n && (s.on (TIU_SRC_CFG n) TIU_SRC_CFG_BOTH || s.on (TIU_SRC_CFG n) TIU_SRC_CFG_EDGE == falling)

/-- A stamp goes to the consumer of its source. -/
def State.deliverStamp (s : State) (st : Stamp) : State :=
  match s.srcUser st.src with
  | 1 => s.hostStamp st
  | 2 => s.capStamp st
  | 3 => s.gateStamp st
  | _ => s

/-- Is an edge to be stamped: its source takes it, and a frequency gate wants it (R193)? -/
def State.offerEdge (s : State) (n : Nat) (falling : Bool) : Bool × State :=
  if !s.takesEdge n falling then (false, s) else if s.srcUser n = 3 then s.gateEdge n falling else (true, s)

/-- EDGE_STAMP of source `n`, with the edges that follow it within one dead time, by source, polarity and delay: of those that reach one
core, the lowest-numbered source is stamped, and each other edge is missed (R186). (DEDUCED, log entry 21). -/
def State.edgeStamp (s : State) (n : Nat) (falling : Bool) (others : List (Fin 64 × Bool × Nat)) : State :=
  let all := (n, falling, 0) :: (others.filter fun e => decide (e.2.2 < 5034)).map fun e => (e.1.val, e.2.1, e.2.2)
  let r := all.foldl (fun (a : State × List (Nat × Bool × Nat)) e =>
    let o := a.1.offerEdge e.1 e.2.1
    (o.2, if o.1 then a.2 ++ [e] else a.2)) (s, [])
  let l := r.2
  l.foldl (fun s e =>
    let better := fun (x : Nat × Bool × Nat) => s.servingCore x.1 == s.servingCore e.1 && (decide (x.1 < e.1) || (x.1 == e.1 && decide (x.2.2 < e.2.2)))
    match s.servingCore e.1 with
    | some v =>
      if l.any better then s.missEdge v
      else
        let k := s.stampEdge e.1 e.2.1 (s.now + e.2.2)
        match k.1 with
        | none => k.2
        | some st => k.2.deliverStamp st
    | none => s.missEdge (s.srcCore e.1)) r.1

/-- The meaning of EDGE_STAMP. -/
def execEdgeStamp (t : Nat) (src : Fin 64) (falling : Bool) (others : List (Fin 64 × Bool × Nat)) (s : State) : Host.Outcome State Fault Refusal :=
  event t (fun s => s.edgeStamp src falling others) s

/-- A loop of core `v` loses lock (R184). -/
def State.loopUnlock (s : State) (v : Nat) (slow : Bool) : State :=
  let s := if slow then s.setFld (TIU_CORE_STAT v) TIU_CORE_STAT_LOCK_S 0 else s.setFld (TIU_CORE_STAT v) TIU_CORE_STAT_LOCK_F 0
  let s := s.onCore v fun x => { x with lostAt := some s.now }
  (s.setFld (TIU_CORE_STAT v) TIU_CORE_STAT_MOVED 1).issue 0x5002 [v, b2n slow, s.st]

/-- The meaning of LOOP_UNLOCK. -/
def execLoopUnlock (t : Nat) (v : Fin 8) (slow : Bool) (s : State) : Host.Outcome State Fault Refusal := event t (State.loopUnlock · v slow) s

/-- Both loops of core `v` regain lock: it calibrates before it takes its sources back (R184). -/
def State.loopRelock (s : State) (v : Nat) : State :=
  let s := (s.setFld (TIU_CORE_STAT v) TIU_CORE_STAT_LOCK_F 1).setFld (TIU_CORE_STAT v) TIU_CORE_STAT_LOCK_S 1
  if s.on (TIU_CORE_STAT v) TIU_CORE_STAT_MOVED then s.queueCal (8 + v) else s

/-- The meaning of LOOP_RELOCK. -/
def execLoopRelock (t : Nat) (v : Fin 8) (s : State) : Host.Outcome State Fault Refusal := event t (State.loopRelock · v) s

/-- Does a gate take stamps of a source routed to core `v`? -/
def State.gateOn (s : State) (g : Gate) (v : Nat) : Bool := g.chans.any fun x => decide (x.src < 64) && s.srcCore x.src == v

/-- Core `v` begins a calibration: its sources move to the partner, but gates on it pause (R182, R183, R196). -/
def State.coreOut (s : State) (v : Nat) : State :=
  let s := (s.setFld (TIU_CORE_STAT v) TIU_CORE_STAT_CAL 1).setFld (TIU_CORE_STAT v) TIU_CORE_STAT_MOVED 1
  s.onTiu fun t => { t with gates := t.gates.map fun g =>
    if g.openAt.isSome && g.pausedAt.isNone && s.gateOn g v then
      { g with pausedAt := some s.now, everPaused := true, chans := g.chans.map fun x => { x with few := x.few || decide (x.stamps.length < 5) } }
    else g }

/-- The calibration of core `v` is over, and the gates it paused resume, unless another of their cores calibrates (R182, R196). The core takes its sources back, unless it has lost
lock since the start of its last completed run, `since` where this one completed: then it calibrates again once it has lock (R184). -/
def State.coreBack (s : State) (v : Nat) (since : Option Nat) : State :=
  let s := s.setFld (TIU_CORE_STAT v) TIU_CORE_STAT_CAL 0
  let s := s.onTiu fun t => { t with gates := t.gates.map fun g => match g.pausedAt with
    | some a => if s.gateOn g v && !((List.range 8).any fun w => s.gateOn g w && s.on (TIU_CORE_STAT w) TIU_CORE_STAT_CAL) then { g with pausedAt := none, paused := g.paused + (s.now - a) } else g
    | none => g }
  let owes := match (s.core v).lostAt, since with
    | some f, some b => decide (b < f)
    | some _, none => true
    | none, _ => false
  let locked := s.on (TIU_CORE_STAT v) TIU_CORE_STAT_LOCK_F && s.on (TIU_CORE_STAT v) TIU_CORE_STAT_LOCK_S
  if owes || !locked then if locked then s.queueCal (8 + v) else s
  else (s.onCore v fun x => { x with lostAt := none }).setFld (TIU_CORE_STAT v) TIU_CORE_STAT_MOVED 0

/-- TIU_ROUTE (0x5001), R188, R198. -/
def State.routeChecks (s : State) (n core user edges chan : Nat) : List (Option Nat) :=
  [need (srcRoutable n && (core == 255 || (decide (2 ≤ core) && decide (core ≤ 7))) && user ≤ 2 && edges < 4) stBAD_PARAM,
   need (!srcComp n || core == 255 || decide (chan < 512)) stBAD_PARAM,
   need (!(srcComp n && core != 255 && user != 0) || s.compOk chan) stBAD_STATE,
   need (s.srcUser n == 0 || ((core != 255 && s.srcUser n == user) || (s.srcUser n == 1 && (core == 255 || user == 0)))) stBUSY]

def bodyTiuRoute : Body := fun _ ps s =>
  let n := num ps 0 1
  let core := num ps 1 1
  let user := num ps 2 1
  let f := num ps 3 1
  let chan := num ps 4 2
  checked s (s.routeChecks n core user f chan ++ [need (zeroAt ps 6 2) stBAD_PARAM])
    (if core = 255 then ok (s.freeSource n) else ok (s.setSource n (user != 0) core user (bit f 0) (bit f 1) (if srcComp n then chan else 0)))

/-- The meaning of TIU_ROUTE. -/
def execTiuRoute (t : Nat) (p : Packet) (s : State) : Host.Outcome State Fault Refusal := command 0x5001 bodyTiuRoute t p s

/-- The duration of a bay's drive as AFE_BAY_EXC and AFE_BAY_SWEEP set it, in fine counts (02_front_end.md, Vibrating-wire
drive). -/
def State.driveLen (s : State) (b : Nat) : Nat :=
  if s.fld (AFE_BAY_EXC b) AFE_BAY_EXC_EMODE = 2 then
    s.fld (AFE_BAY_SWEEP b) AFE_BAY_SWEEP_PULSES * s.fld (AFE_BAY_EXC b) AFE_BAY_EXC_DIV * 128 * 8192
  else fineMs (s.fld (AFE_BAY_SWEEP b) AFE_BAY_SWEEP_DURATION)

/-- A gate ends: its sources are released. -/
def State.dropGate (s : State) (b : Nat) : State :=
  let mine := ((s.tiu.gates.filter fun g => g.bay == b).flatMap fun g => g.chans.map GateCh.src).filter fun n => decide (n < 64)
  (mine.foldl (fun s n => s.freeSource n) s).onTiu fun t => { t with gates := t.gates.filter fun g => g.bay != b }

/-- STAMP_READ (0x5003), R200. -/
def bodyStampRead : Body := fun _ ps s =>
  let n := num ps 0 1
  checked s [need (decide (1 ≤ n) && decide (n ≤ 64) && zeroAt ps 1 3) stBAD_PARAM]
    (let l := s.tiu.host.take n
     let left := s.tiu.host.drop n
     let img := fun (x : Stamp) =>
       le 8 x.fine ++ le 8 (st64 x.time) ++ le 4 (x.src + 64 * b2n x.falling + 128 * b2n x.missBefore + 256 * b2n x.lost
         + 512 * b2n x.moved + 1024 * x.core) ++ le 4 0
     .reply ((s.onTiu fun t => { t with host := left }).setFld TIU_HOST_STAT TIU_HOST_STAT_DEPTH left.length) stOK
       (le 2 l.length ++ le 2 left.length ++ le 8 0 ++ l.flatMap img))

/-- The meaning of STAMP_READ. -/
def execStampRead (t : Nat) (p : Packet) (s : State) : Host.Outcome State Fault Refusal := command 0x5003 bodyStampRead t p s

/-- The claim of trigger unit `u` is released (R239). -/
def State.unclaimUnit (s : State) (u : Nat) : State :=
  match (s.unit u).src with
  | none => s
  | some n =>
    let s := s.onUnit u fun x => { x with src := none }
    if (List.range 32).any fun w => (s.unit w).src == some n then s else s.freeSource n

/-- The checks of a trigger configuration (R188, R227, R239). -/
def State.trigChecks (s : State) (u : Nat) (w : Word) (lintel sill param : Nat) : List (Option Nat) :=
  let ty := wfld w CAP_TRIG_CFG_TYPE
  let sig := wfld w CAP_TRIG_CFG_SIG
  let sel := wfld w CAP_TRIG_CFG_SEL
  let en := wfld w CAP_TRIG_CFG_EN == 1
  let s' := s.unclaimUnit u
  [need (sig != 3 && !((ty == 1 || ty == 2 || ty == 3) && decide (signed 32 lintel ≤ signed 32 sill))) stBAD_PARAM,
   need (!(ty == 2 && (param == 0 || decide (param > 65535))) && !(ty == 6 && param == 0)) stBAD_PARAM,
   need (if ty ≤ 3 then decide (sel < 512) else if ty = 4 then decide (sel < 64) else if ty = 5 then decide (sel < 4) else true) stBAD_PARAM,
   need (!(decide (ty ≤ 3) && sig == 2) || s.histEn (sel / 8)) stBAD_STATE,
   need (!(en && ty == 0) || s.compOk sel) stBAD_STATE,
   need (!(en && ty == 0) || !s'.freeComps.isEmpty) stNO_RESOURCE,
   need (!(en && ty == 5) || s'.srcUser (0x22 + sel) == 0 || s'.srcUser (0x22 + sel) == 2) stBUSY]

/-- A trigger unit takes a configuration: it is not ready, and claims its source (R227, R228). -/
def State.setTrigger (s : State) (u : Nat) (w : Word) (lintel sill param : Nat) : State :=
  let ty := wfld w CAP_TRIG_CFG_TYPE
  let sel := wfld w CAP_TRIG_CFG_SEL
  let fall := wfld w CAP_TRIG_CFG_POL == 1
  let s := s.unclaimUnit u
  let s := (((s.wr (CAP_TRIG_CFG u) w).wr (CAP_TRIG_LINTEL u) (word lintel)).wr (CAP_TRIG_SILL u) (word sill)).wr (CAP_TRIG_PARAM u) (word param)
  let s := (s.setFld (CAP_TRIG_STAT u) CAP_TRIG_STAT_READY 0).onUnit u fun x => { x with recent := [], lastTime := periodOf (max 1 param) s.served }
  if wfld w CAP_TRIG_CFG_EN = 0 then s
  else if ty = 0 then match s.freeComps with
    | n :: _ => (s.setSource n true s.pickCore 2 fall false sel).onUnit u fun x => { x with src := some n }
    | [] => s
  else if ty = 5 then
    let n := 0x22 + sel
    let shared := s.srcUser n == 2 && s.on (TIU_SRC_CFG n) TIU_SRC_CFG_EDGE != fall
    let s := if s.srcUser n = 2 then if shared then s.setFld (TIU_SRC_CFG n) TIU_SRC_CFG_BOTH 1 else s
      else s.setSource n true s.pickCore 2 fall false 0
    s.onUnit u fun x => { x with src := some n }
  else s

/-- TRIGGER_CONFIG (0x6001), R239. -/
def bodyTriggerConfig : Body := fun _ ps s =>
  let u := num ps 0 1
  let w := word (num ps 4 4)
  let l := num ps 8 4
  let i := num ps 12 4
  let m := num ps 16 4
  checked s ([need (u < 32 && zeroAt ps 1 3 && bits w.toNat 10 6 == 0) stBAD_PARAM] ++ s.trigChecks u w l i m) (ok (s.setTrigger u w l i m))

/-- The meaning of TRIGGER_CONFIG. -/
def execTriggerConfig (t : Nat) (p : Packet) (s : State) : Host.Outcome State Fault Refusal := command 0x6001 bodyTriggerConfig t p s

end Sys2Proof.Machine
end

