-- ==== Sys2Proof/Machine/Front.lean ====
section
/-!
DEFINITION. The channel input stage and the excitation (02_front_end.md): wire breaks, clamps, range switches, charge resets,
test charge, and the commands of the AFE block.
-/

namespace Sys2Proof.Machine

open Reg Bits

/-- A quality-amendment record for the samples of a closed record at or after instant `T` (R66, R212).
(DEDUCED, log entry 27). -/
def State.amend (s : State) (c flags cause T : Nat) (m : RecMark) : State :=
  let grid := bit m.tqByte 3
  let first := max m.first (s.idxAt c m.rate grid T)
  let st := if first = m.first then m.st else st64 (s.sampleAt c m.rate grid first)
  if first > m.last then s
  else
    s.addSeqRec
      { blankRec with rtype := 4, addr := m.addr, rate := m.rate, tqByte := s.tqByte grid, pane := m.pane, st := st, stLast := m.stLast,
                      count := satN 16 (m.last + 1 - first),
                      payload := le 8 first ++ le 8 m.last ++ le 8 m.stLast ++ le 2 flags ++ le 1 m.rtype ++ le 1 cause ++ le 4 0 }

/-- Does a sample of an ST64 lie at or after an instant of 2^-80 s? -/
def State.stLate (s : State) (T st : Nat) : Bool := decide (resolveSt (to40 s.served) st ≥ to40 T)

/-- The samples of channel `c` from a proven-good point on carry SUSPECT_WIRE: in records in assembly, in amendments of closed records,
in history and rings, and from here on (R66). -/
def State.suspectFrom (s : State) (c cause f : Nat) : State :=
  let T := s.servedAt f
  let s := s.openSpan c fSuspectWire f
  let s := (s.qm.asm.filter fun a => a.key % 1024 == c).foldl (fun s a =>
    if s.stLate T a.st then
      s.onQm fun m => { m with asm := mapIf (fun x => x.key == a.key) (fun x => { x with flags := withFlag x.flags fSuspectWire }) m.asm }
    else s.closeAsm a) s
  let s := ((s.ch c).closed.filter fun m => s.stLate T m.stLast && !bit m.flags fSuspectWire).foldl (fun s m => s.amend c (2 ^ fSuspectWire) cause T m) s
  let mark := fun (k : Kept) => if k.ch == c && decide (k.t ≥ T) then { k with flags := withFlag k.flags fSuspectWire } else k
  s.onCap fun x => { x with history := x.history.map mark, rings := x.rings.map mark }

/-- A check of channel `c` finds a wire break (R66): samples from the last proven-good point on carry SUSPECT_WIRE; with no
proven-good point none do (R68). One found while a break stands only replaces the cause. (DEDUCED, log entry 27). -/
def State.wireBreak (s : State) (c cause : Nat) : State :=
  if s.on (AFE_CH_STAT c) AFE_CH_STAT_WIRE_NOW then s.setFld (AFE_CH_STAT c) AFE_CH_STAT_WIRE_CAUSE cause
  else
    let proven := (s.ch c).proven
    let s := match proven with
      | none => s
      | some f => s.suspectFrom c cause f
    let s := ((s.setFld (AFE_CH_STAT c) AFE_CH_STAT_WIRE_NOW 1).setFld (AFE_CH_STAT c) AFE_CH_STAT_WIRE_CAUSE cause).setBit
      (AFE_WIRE_BREAK (c / 32)) AFE_WIRE_BREAK_BREAK (c % 32)
    s.issue 0x1001 [c, cause, (proven.map s.stAt).getD 0]

/-- A check of channel `c` from fine count `from_` to `end_` passes (R67). Closed records that end before it need no amendment any
more. -/
def State.wirePass (s : State) (c from_ end_ : Nat) : State :=
  let was := s.on (AFE_CH_STAT c) AFE_CH_STAT_WIRE_NOW
  let T := s.servedAt from_
  let s := s.onCh c fun h => { h with proven := some from_, closed := h.closed.filter fun m => s.stLate T m.stLast }
  if !was then s
  else
    (((s.closeSpan c fSuspectWire end_).setFld (AFE_CH_STAT c) AFE_CH_STAT_WIRE_NOW 0).setFld (AFE_CH_STAT c) AFE_CH_STAT_WIRE_CAUSE 0).issue
      0x1002 [c, s.stAt end_]

/-- Detection starts afresh on channel `c`: no break, no proven-good point (R68). (DEDUCED, log entry 27). -/
def State.wireClear (s : State) (c : Nat) : State :=
  (((s.closeSpan c fSuspectWire s.now).onCh c fun h => { h with proven := none, closed := [] }).setFld (AFE_CH_STAT c) AFE_CH_STAT_WIRE_NOW 0).setFld
    (AFE_CH_STAT c) AFE_CH_STAT_WIRE_CAUSE 0

/-- Is wire-break detection of channel `c` enabled? -/
def State.wireEn (s : State) (c : Nat) : Bool := s.on (AFE_CH_CFG c) AFE_CH_CFG_WIRE_EN

/-- Fine counts of the 200 µs of a tick check (R65). -/
def tickLen : Nat := fineUs 200

/-- A common-mode pilot window of 64 µs ends (R64, Table 02-5); while a tick check of the channel runs the pilot pauses, and the check
stands in for the window (R65). -/
def State.pilotWindow (s : State) (c : Nat) (r : PilotResult) : State :=
  let paused := s.on (AFE_CH_CFG c) AFE_CH_CFG_CM_CHECK && s.acq.tickAt.any fun f => decide (f < s.now) && decide (s.now < f + tickLen + fineUs 64)
  if s.chMode c != 1 || !s.wireEn c || !s.on (AFE_CH_CFG c) AFE_CH_CFG_PILOT || paused then s
  else match r with
    | .passed => s.wirePass c (s.now - fineUs 64) s.now
    | .openCable => s.wireBreak c 5
    | .shortCable => s.wireBreak c 7

/-- The meaning of PILOT_WINDOW. -/
def execPilotWindow (t : Nat) (c : Fin 512) (r : PilotResult) (s : State) : Host.Outcome State Fault Refusal := event t (State.pilotWindow · c r) s

/-- The latest test tick at or before this instant: the multiple of TEST_TICK, in ms from the hub epoch (R65). -/
def State.tickNow (s : State) : Nat :=
  let ms := s.fld AFE_CTRL AFE_CTRL_TEST_TICK
  ms * periodOf (max 1 ms) s.served

/-- A test tick (R64, R65): the cable capacitance of each CHARGE channel with CM_CHECK; below 50 pF is open, a charge that does
not settle is a short. The check ends 200 µs after the tick. (DEDUCED, log entry 27). -/
def State.testTick (s : State) (caps : List (Nat × Option Nat)) : State :=
  let k := s.tickNow
  if s.fld AFE_CTRL AFE_CTRL_TEST_TICK = 0 ∨ k = s.acq.lastTick then s
  else
    let f := s.localOf (ceilDiv (k * 2 ^ 80) 1000)
    let s := s.onAcq fun a => { a with lastTick := k, tickAt := some f }
    caps.foldl (fun s e =>
      let c := e.1
      if c ≥ 512 || s.chMode c != 1 || !s.on (AFE_CH_CFG c) AFE_CH_CFG_CM_CHECK then s
      else
        let s := s.onCh c fun h => { h with capLast := e.2.getD h.capLast }
        if !s.wireEn c then s
        else match e.2 with
          | none => s.wireBreak c 7
          | some cap => if cap < 500 then s.wireBreak c 5 else s.wirePass c f (f + tickLen)) s

/-- The meaning of TEST_TICK. -/
def execTestTick (t : Nat) (caps : List (Nat × Option Nat)) (s : State) : Host.Outcome State Fault Refusal := event t (State.testTick · caps) s

/-- Are the inputs of channel `c` disconnected for a vibrating-wire drive (R56)? -/
def State.driven (s : State) (c : Nat) : Bool :=
  s.tiu.gates.any fun g => g.drive && g.bay == c / 8 && s.chMode c == 4 && decide (g.driveEnd ≤ s.now + fineMs 2 + s.driveLen g.bay) && decide (s.now < g.driveEnd)

/-- A clamp of channel `c` becomes active, until fine count `until_` (R61, R62). -/
def State.clampOnset (s : State) (c until_ : Nat) : State :=
  if s.driven c then s
  else
    let s := (s.bump (AFE_CH_STAT c) AFE_CH_STAT_CLAMP_COUNT).setBit (AFE_CLAMP_SEEN (c / 32)) AFE_CLAMP_SEEN_SEEN (c % 32)
    let s := (s.addSpan c fClamp s.now (max s.now until_)).addSpan c fOverload s.now (max s.now until_)
    (s.onCh c fun h => { h with clampUntil := max h.clampUntil until_ }).issueLim 0x1003 c 1 1 true [c, 0]

/-- The meaning of CLAMP_ONSET. -/
def execClampOnset (t : Nat) (c : Fin 512) (until_ : Nat) (s : State) : Host.Outcome State Fault Refusal := event t (State.clampOnset · c until_) s

/-- The generator of bay `b` enters its current limit (R54). -/
def State.excLimit (s : State) (b : Nat) : State :=
  if s.on (AFE_BAY_EXC b) AFE_BAY_EXC_BOOST || wfld (s.excWord b) AFE_BAY_EXC_EMODE == 0 || s.on (AFE_BAY_MON b) AFE_BAY_MON_LIMIT then s
  else
    let s := (s.setFld (AFE_BAY_MON b) AFE_BAY_MON_LIMIT 1).issue 0x1004 [b, s.st]
    (bayChans b).foldl (fun s c => if s.chMode c == 3 && s.wireEn c then s.wireBreak c 2 else s) s

/-- The meaning of EXC_LIMIT. -/
def execExcLimit (t : Nat) (b : Fin 64) (s : State) : Host.Outcome State Fault Refusal := event t (State.excLimit · b) s

/-- The cause that the monitors give a BRIDGE channel for one period, 0 for none (Table 02-5). -/
def State.bridgeCause (s : State) (b i : Nat) (m : ExcMeasure) : Nat :=
  let boost := s.on (AFE_BAY_EXC b) AFE_BAY_EXC_BOOST
  let cm := m.commonMode.getD i 500
  if !boost && m.limit then 2
  else if !boost && (match (s.bayOf b).excLevel with
      | some l => decide (8 * m.current < l)
      | none => false) then 1
  else if !m.regulated then 3
  else if cm < 300 ∨ 700 < cm then 4
  else 0

/-- An excitation period of bay `b` begins: the detector gain and PHASE_TRIM of now hold in it (16_calibration.md R497).
(DEDUCED, log entry 26). -/
def State.excLatch (s : State) (b : Nat) : State :=
  let g := s.calInt (24 + b / 16) (8 * (b % 16)) 4
  s.onBay b fun x => { x with excTrim := s.fld (DEC_BAY_CFG b) DEC_BAY_CFG_PHASE_TRIM, excGain := g }

/-- What a period's monitors say of bay `b`: the detector's reading with its gain; for up to four periods of an EXC run, with the detector
on its reference, the amplitude measured last and the loop as it stood (16_calibration.md R490).
(DEDUCED, log entry 26). -/
def State.excSense (s : State) (b : Nat) (m : ExcMeasure) : ExcMeasure × State :=
  let last := ((s.bayOf b).periods.head?.map ExcPeriod.meas).getD 0
  let g := 24 + b / 16
  if m.onRef && s.cal.running.any (fun r => r.g == g && decide (Tab.get 0 r.refs b < 4)) then
    ({ m with senseAmp := last, regulated := s.on (AFE_BAY_MON b) AFE_BAY_MON_REGULATED },
     s.onCal fun c => { c with running := mapIf (fun r => r.g == g) (fun r => { r with refs := Tab.upd 0 r.refs b (· + 1) }) c.running })
  else ({ m with senseAmp := (roundQ ((m.senseAmp : Rat) * (1 + ((s.bayOf b).excGain : Rat) / 2 ^ 24))).toNat }, s)

/-- The generator of bay `b` starts in SINE, or stops, at fine count `f` (R54, R55, R64). (DEDUCED, log entry 26). -/
def State.excStart (s : State) (b f : Nat) : State :=
  let sine := s.fld (AFE_BAY_EXC b) AFE_BAY_EXC_EMODE == 1
  let s := if sine then s else s.wr (AFE_BAY_MON b) 0#32
  (s.excLatch b).onBay b fun x =>
    let on := if sine then some (x.excOn.getD f) else none
    { x with excOld := none, perFrom := if sine then some f else none, excOn := on, excLevel := if sine then x.excLevel else none }

/-- What the generator measured in a period of bay `b` that ended at fine count `e` is shown and judged (R53, R54, R64, R125). -/
def State.excMeasured (s : State) (b from_ e : Nat) (m : ExcMeasure) : State :=
  let boost := s.on (AFE_BAY_EXC b) AFE_BAY_EXC_BOOST
  let amp := wfld (s.excWord b) AFE_BAY_EXC_AMP
  let learning := decide (e < (s.bayOf b).excOn.getD e + fineMs 1000)
  let s := s.onBay b fun x => { x with excLevel := if learning then some m.current else x.excLevel, periods := ⟨from_, e, amp, m.senseAmp, x.excTrim⟩ :: x.periods }
  let s := ((s.setFld (AFE_BAY_MON b) AFE_BAY_MON_SENSE_AMP (satN 16 m.senseAmp)).setFld (AFE_BAY_MON b) AFE_BAY_MON_EXC_CURRENT
    (if boost then 0 else satN 8 m.current)).setFld (AFE_BAY_MON b) AFE_BAY_MON_REGULATED (b2n m.regulated)
  let bridges := (bayChans b).filter fun c => s.chMode c == 3
  let s := bridges.foldl (fun s c =>
    let cause := s.bridgeCause b (c % 8) m
    if !s.wireEn c then s else if cause = 0 then s.wirePass c from_ e else s.wireBreak c cause) s
  if m.senseAmp = 0 ∨ amp = 0 then bridges.foldl (fun s c => s.addSpan c fOverload from_ (e - 1)) s else s

/-- An excitation period of bay `b` ends and the next begins, under a new setting where one waits (R53 to R55); while a wire is driven
the current limit alone is judged. (DEDUCED, log entry 26). -/
def State.excPeriodEnd (s : State) (b : Nat) (m : ExcMeasure) : State :=
  let limit := fun (s : State) =>
    if m.limit && !s.on (AFE_BAY_EXC b) AFE_BAY_EXC_BOOST then s.excLimit b else s.setFld (AFE_BAY_MON b) AFE_BAY_MON_LIMIT 0
  let em := wfld (s.excWord b) AFE_BAY_EXC_EMODE
  if em = 0 then s
  else if em ≠ 1 then limit s
  else match (s.bayOf b).perFrom with
    | none => s.excStart b s.now
    | some f =>
      let e := f + s.excPeriod b
      if s.now < e then s
      else
        let r := s.excSense b m
        let s := (limit r.2).excMeasured b f e r.1
        if (s.bayOf b).excOld.isNone then (s.excLatch b).onBay b fun x => { x with perFrom := some e }
        else
          let s := ((bayChans b).filter fun c => s.chMode c == 3).foldl (fun s c => s.addSpan c fRangeChange (e - 1) (e - 1)) s
          s.excStart b e

/-- The meaning of EXCITATION_PERIOD. -/
def execExcitationPeriod (t : Nat) (b : Fin 64) (m : ExcMeasure) (s : State) : Host.Outcome State Fault Refusal :=
  event t (fun s => s.excPeriodEnd b m) s

/-- The settling window W in raw samples (R70); W for N below 4 is this model's (log entry 22). -/
def settleLen (n : Nat) : Nat := if n = 8 then 2 else 3

/-- The range of channel `c` changes to `r` at strobe `at_`; a settling window follows in every mode but SWITCH, which has no range (R44,
R69, R70). -/
def State.switchRange (s : State) (c r at_ : Nat) : State :=
  let b := c / 8
  let old := s.fld (AFE_CH_STAT c) AFE_CH_STAT_RANGE_NOW
  let s := (s.setFld (AFE_CH_STAT c) AFE_CH_STAT_RANGE_NOW r).onCh c fun h => { h with ranges := (at_, old) :: h.ranges, holdClocks := 0 }
  if s.chMode c = 0 ∨ s.chMode c = 5 then s
  else
    (s.onCh c fun h => { h with switches := at_ :: h.switches }).addSpan c fRangeChange at_ (at_ + (settleLen (s.scanN b) - 1) * s.scanN b * clk)

/-- The switch in whose settling window a strobe of channel `c` lies, and its place in it (R70). -/
def State.windowAt (s : State) (c hold : Nat) : Option (Nat × Nat) :=
  let step := s.scanN (c / 8) * clk
  ((s.ch c).switches.find? fun w => decide (w ≤ hold) && decide (hold < w + settleLen (s.scanN (c / 8)) * step)).map fun w => (w, (hold - w) / max 1 step)

/-- The detector of channel `c` restarts from 0 and settles (04_decimation.md R138). -/
def State.restartDet (s : State) (c : Nat) : State :=
  let s := s.onDet c fun d => { settle := 2 ^ (s.fld (DEC_DET_CFG c) DEC_DET_CFG_K + 2), shown := (s.served, none) :: d.shown }
  (s.setFld (DEC_DET_VAL c) DEC_DET_VAL_VALUE 0).setFld (DEC_DET_VAL c) DEC_DET_VAL_SETTLING (s.fld (DEC_DET_CFG c) DEC_DET_CFG_EN)

/-- A charge reset in the hold phase after the latest strobe (R48 to R50). It waits for the hold phase after a settling window, and one
strobe where a test-charge edge falls into its raw samples. (DEDUCED, log entry 25). -/
def State.chargeReset (s : State) (c : Nat) : State :=
  let h := s.ch c
  let step := s.scanN (c / 8) * clk
  let k := s.now / step * step
  let settling := h.switches.any fun w => decide (w ≤ k + step) && decide (k < w + (settleLen (s.scanN (c / 8)) - 1) * step)
  let edges := h.edgeAt.toList ++ h.inject.elim [] fun i => [i.edge, i.back]
  if s.modeAt c k != 1 || !s.bayRuns (c / 8) || !h.resetDue || settling || edges.any fun e => decide (k ≤ e) && decide (e ≤ k + step) then s
  else
    let s := s.onCh c fun x => { x with resetDue := false, resets := k :: x.resets }
    (s.addSpan c fResetStitch (k + step) (k + step)).bump (AFE_CH_STAT c) AFE_CH_STAT_RESET_COUNT

/-- The meaning of CHARGE_RESET. -/
def execChargeReset (t : Nat) (c : Fin 512) (s : State) : Host.Outcome State Fault Refusal := event t (State.chargeReset · c) s

/-- A test-charge edge of channel `c`: one in a settling window flags the samples it affects (R72). -/
def State.chargeEdge (s : State) (c f : Nat) : State :=
  let s := if (s.windowAt c (s.strobeFrom (c / 8) f)).isSome then s.addSpan c fRangeChange f f else s
  s.onCh c fun h => { h with edgeAt := some f }

/-- A test charge is injected on a range of channels at the next strobe of each bay, with each channel's trim (R72, R73). The first edge
of the command is the earliest of its channels' (DESIGN CHOICE, log entry 75). -/
def State.doInject (s : State) (first count q : Nat) (neg common : Bool) (dwell : Nat) : State :=
  let chans := (List.range count).map fun i => first + i
  let edge := fun c => s.strobeFrom (c / 8) s.now
  let instant := fun c => ((s.servedAt (edge c) : Int) + ps80 (s.trimPs c (edge c))).toNat
  let st := st64 (chans.foldl (fun m c => min m (instant c)) (instant first))
  let n := s.acq.injects
  let s := s.onAcq fun a => { a with injects := n + 1 }
  chans.foldl (fun s c => (s.chargeEdge c (edge c)).onCh c fun h => { h with inject := some ⟨n, first, count, edge c, st, edge c + fineUs dwell, q, neg, common⟩ }) s

/-- The opposite edge of the injection on channel `c`; once every channel of its command has had it, INJECT_DONE is issued
(R74). (DESIGN CHOICE, log entry 75). -/
def State.oppositeEdge (s : State) (c : Nat) : State :=
  match (s.ch c).inject with
  | none => s
  | some i =>
    if s.now < i.back then s
    else
      let s := (s.chargeEdge c i.back).onCh c fun h => { h with inject := none }
      if allIn i.first i.count fun k => (s.ch k).inject.all fun j => j.cmd != i.cmd then s.issue 0x1006 [i.first, i.count, i.edgeSt] else s

/-- The meaning of INJECT_OPPOSITE_EDGE. -/
def execInjectOppositeEdge (t : Nat) (c : Fin 512) (s : State) : Host.Outcome State Fault Refusal := event t (State.oppositeEdge · c) s

/-- The checks that CH_CONFIG makes of the words of one channel, whatever the state (R47, R58, Tables 02-1, 02-3).
(DEDUCED, log entry 24). -/
def chWordsOk (w th : Word) : Bool :=
  let m := wfld w AFE_CH_CFG_MODE
  let auto := wfld w AFE_CH_CFG_AUTO == 1
  decide (m ≤ 5) && wfld w AFE_CH_CFG_RESET_LVL != 3 && !(m == 1 && decide (wfld w AFE_CH_CFG_RANGE > 5))
    && !(auto && (decide (wfld w AFE_CH_CFG_RANGE_WIDE > wfld w AFE_CH_CFG_RANGE_FINE) || (m == 1 && decide (wfld w AFE_CH_CFG_RANGE_FINE > 5))))
    && decide (signed 10 (wfld th AFE_CH_THR_SILL) < signed 10 (wfld th AFE_CH_THR_LINTEL))

/-- The state checks of CH_CONFIG for channel `c` (R42, R43, R83, R92, R124); `mode` gives the modes that will be.
(DEDUCED, log entry 24). -/
def State.chFits (s : State) (c : Nat) (w : Word) (mode : Nat → Nat) : Bool :=
  let b := c / 8
  let m := wfld w AFE_CH_CFG_MODE
  let n := s.scanCfg b
  let others := bayChans b
  !((m == 1 || wfld w AFE_CH_CFG_AUTO == 1) && decide (n < 4)) && !(m == 3 && others.any fun d => mode d == 4) && !(m == 4 && others.any fun d => mode d == 3)
    && !(m == 3 && s.fld (AFE_BAY_EXC b) AFE_BAY_EXC_EMODE != 1) && !(m != 0 && decide (c % 8 ≥ n)) && !(m == 1 && s.bmode b == 2)
    && !(m == 1 && s.chMode c == 1 && s.live c && wfld w AFE_CH_CFG_AUTO == 0 && decide (wfld w AFE_CH_CFG_RANGE > s.fld (DEC_CH_STAT c) DEC_CH_STAT_SCALE))

/-- A channel takes a configuration at the next strobe of its bay (R75): a change of MODE ends and restarts its stream (R44), starts
wire-break detection afresh (R68), and breaks its history; a change of RANGE is a switch; with AUTO, RANGE is the starting range. The
loop reference is learned anew, and after a register write of these words too (R57; DESIGN CHOICE for the write). (DEDUCED, log entry 30). -/
def State.applyChannel (s : State) (c : Nat) (w th : Word) : State :=
  let old := s.rd (AFE_CH_CFG c)
  let moved := s.chMode c != wfld w AFE_CH_CFG_MODE
  let at_ := s.strobeFrom (c / 8) s.now
  let s := if moved then
      let s := (s.endStream c 1).breakChans (c / 8) [c] 1
      if wfld w AFE_CH_CFG_MODE ≤ 1 then s.releaseChan c else s
    else s
  let s := ((s.wr (AFE_CH_CFG c) w).wr (AFE_CH_THR c) th).onCh c fun h =>
    { h with loopRef := none, words := if w = old then h.words else (at_, old) :: h.words }
  let s := if moved || wfld w AFE_CH_CFG_WIRE_EN == 0 then s.wireClear c else s
  let s := if wfld w AFE_CH_CFG_RANGE = s.fld (AFE_CH_STAT c) AFE_CH_STAT_RANGE_NOW then s
    else if moved then
      let r := s.fld (AFE_CH_STAT c) AFE_CH_STAT_RANGE_NOW
      (s.setFld (AFE_CH_STAT c) AFE_CH_STAT_RANGE_NOW (wfld w AFE_CH_CFG_RANGE)).onCh c fun h => { h with ranges := (at_, r) :: h.ranges }
    else s.switchRange c (wfld w AFE_CH_CFG_RANGE) at_
  let s := if s.live c then s else s.setScale c (scaleOf w)
  let s := if moved || (w != old && s.fld (DEC_DET_CFG c) DEC_DET_CFG_SRC == 0) then s.restartDet c else s
  if moved && wfld w AFE_CH_CFG_MODE != 0 then s.restartStream c at_ (s.now + fineMs 1) else s

/-- CH_CONFIG on a range of channels: all or none (R75). -/
def State.chChecks (s : State) (first count : Nat) (w th : Word) : List (Option Nat) :=
  let mode := fun d => if first ≤ d ∧ d < first + count then wfld w AFE_CH_CFG_MODE else s.chMode d
  [need (chWordsOk w th) stBAD_PARAM, need (allIn first count fun c => s.chFits c w mode) stBAD_STATE]

/-- Reserved bits of the channel words are 0. -/
def chWordsClean (w th : Nat) : Bool :=
  bits w 27 5 == 0 && bits w 23 1 == 0 && bits w 18 2 == 0 && bits w 15 1 == 0 && bits w 11 1 == 0 && bits w 3 1 == 0 && bits th 26 6 == 0 && bits th 10 6 == 0

/-- CH_CONFIG (0x1001), R75. -/
def bodyChConfig : Body := fun _ ps s =>
  let first := num ps 0 2
  let count := num ps 2 2
  let w := word (num ps 4 4)
  let th := word (num ps 8 4)
  checked s
    ([need (decide (1 ≤ count) && decide (first + count ≤ 512)) stBAD_PARAM, need (chWordsClean w.toNat th.toNat) stBAD_PARAM] ++ s.chChecks first count w th)
    (ok ((List.range count).foldl (fun s i => s.applyChannel (first + i) w th) s))

/-- The meaning of CH_CONFIG. -/
def execChConfig (t : Nat) (p : Packet) (s : State) : Host.Outcome State Fault Refusal := command 0x1001 bodyChConfig t p s

/-- AFE_CH_STAT as it reads now: CLAMP_NOW while the clamp is active, RANGE_NOW the old range until the switch's strobe. -/
def State.chStat (s : State) (c : Nat) : Word :=
  let h := s.ch c
  let w := setBits (s.rd (AFE_CH_STAT c)) AFE_CH_STAT_CLAMP_NOW (b2n (decide (s.now < h.clampUntil)))
  setBits w AFE_CH_STAT_RANGE_NOW (asOf h.ranges (wfld w AFE_CH_STAT_RANGE_NOW) s.now)

/-- CH_QUERY (0x1002), R76. (DEDUCED, log entry 70). -/
def bodyChQuery : Body := fun _ ps s =>
  let c := num ps 0 2
  let m := s.chMode c
  checked s [need (decide (c < 512) && zeroAt ps 2 2) stBAD_PARAM]
    (.reply s stOK
      (le 4 (s.rd (AFE_CH_CFG c)).toNat ++ le 4 (s.rd (AFE_CH_THR c)).toNat ++ le 4 (s.chStat c).toNat
        ++ le 4 (if m = 0 then 0 else fullScale m (if m = 5 then 0 else wfld (s.chStat c) AFE_CH_STAT_RANGE_NOW))
        ++ le 4 (if m = 1 then (s.ch c).capLast else 0) ++ le 4 (if m = 4 then (s.ch c).loopLast else 0)
        ++ le 8 (((s.ch c).proven.map s.stAt).getD 0)))

/-- The meaning of CH_QUERY. -/
def execChQuery (t : Nat) (p : Packet) (s : State) : Host.Outcome State Fault Refusal := command 0x1002 bodyChQuery t p s

/-- Does the output rate of a code exceed the excitation frequency 400 kHz / DIV (R126)? -/
def aboveExc (n rate div : Nat) : Bool := decide (256 * div > outClocks n rate)

/-- The checks of an excitation setting (R43, R51, R52, R126). -/
def State.excChecks (s : State) (b : Nat) (w sw : Word) : List (Option Nat) :=
  let div := wfld w AFE_BAY_EXC_DIV
  let en := wfld sw AFE_BAY_SWEEP_END_DIV
  let bridges := (bayChans b).filter fun c => s.chMode c == 3
  [need (decide (20 ≤ div) && decide (div ≤ 4000) && decide (wfld w AFE_BAY_EXC_AMP ≤ 4000) && decide (20 ≤ en) && decide (en ≤ 4000)
     && wfld sw AFE_BAY_SWEEP_DURATION != 0 && wfld sw AFE_BAY_SWEEP_PULSES != 0) stBAD_PARAM,
   need (bridges.isEmpty || wfld w AFE_BAY_EXC_EMODE == 1) stBAD_STATE,
   need (!(bridges.any fun c => s.streaming c && aboveExc (s.scanN b) (s.chRate c) div)) stBAD_STATE]

/-- An excitation setting is stored: a change of DIV, AMP or EMODE of a generator that runs in SINE takes effect at the next excitation
period (R55), any other at once; BOOST disables the monitors at once (R54). (DEDUCED, log entry 26). -/
def State.setExc (s : State) (b : Nat) (w sw : Word) : State :=
  let old := s.excWord b
  let runs := wfld old AFE_BAY_EXC_EMODE == 1 && (s.bayOf b).perFrom.isSome
  let same := wfld w AFE_BAY_EXC_DIV == wfld old AFE_BAY_EXC_DIV && wfld w AFE_BAY_EXC_AMP == wfld old AFE_BAY_EXC_AMP
    && wfld w AFE_BAY_EXC_EMODE == wfld old AFE_BAY_EXC_EMODE
  let s := (s.wr (AFE_BAY_EXC b) w).wr (AFE_BAY_SWEEP b) sw
  let s := if wfld w AFE_BAY_EXC_BOOST = 1 then (s.setFld (AFE_BAY_MON b) AFE_BAY_MON_LIMIT 0).setFld (AFE_BAY_MON b) AFE_BAY_MON_EXC_CURRENT 0 else s
  if same then s.onBay b fun x => { x with excOld := none }
  else if runs then s.onBay b fun x => { x with excOld := some old }
  else s.excStart b s.now

/-- BAY_EXCITATION (0x1003), R77. -/
def bodyBayExcitation : Body := fun _ ps s =>
  let b := num ps 0 1
  let w := word (num ps 4 4)
  let sw := word (num ps 8 4)
  checked s
    ([need (decide (b < 64) && zeroAt ps 1 3 && bits w.toNat 28 1 == 0 && bits w.toNat 12 4 == 0 && bits sw.toNat 16 4 == 0) stBAD_PARAM] ++ s.excChecks b w sw)
    (ok (s.setExc b w sw))

/-- The meaning of BAY_EXCITATION. -/
def execBayExcitation (t : Nat) (p : Packet) (s : State) : Host.Outcome State Fault Refusal := command 0x1003 bodyBayExcitation t p s

/-- The window of R169 for arming a timed action: at least 1 ms and at most 30 days ahead, in 2^-40 s. -/
def State.armTimeOk (s : State) (T40 : Nat) : Bool :=
  decide (T40 ≥ s.served40 + ms40 1) && decide (T40 ≤ s.served40 + sec40 2592000)

/-- The lowest free timed-action entry. -/
def State.freeAction (s : State) : Option Nat := (List.range 32).find? fun i => !s.armed i

/-- Arm a timed-action entry (R169). -/
def State.armEntry (s : State) (i : Nat) (w : Word) (arg T40 : Nat) : State :=
  let s := ((s.wr (TB_ACT_CTRL i) (setBits w TB_ACT_CTRL_ARMED 1)).wr (TB_ACT_ARG i) (word arg)).wr64 (TB_ACT_TIME i) (T40 % 2 ^ 64)
  s.onAct i fun x => { x with time := T40, launched := false }

/-- The checks of a test injection (R74, R78). -/
def State.injectChecks (s : State) (first count q dwell : Nat) : List (Option Nat) :=
  [need (decide (1 ≤ count) && decide (first + count ≤ 512) && decide (q ≤ 4000) && decide (1 ≤ dwell) && decide (dwell ≤ 1000000)) stBAD_PARAM,
   need (allIn first count fun c => decide (1 ≤ s.chMode c) && decide (s.chMode c ≤ 4)) stBAD_STATE,
   need (allIn first count fun c => (s.ch c).inject.isNone) stBUSY]

/-- CH_TEST_INJECT (0x1004), R73, R74, R78. -/
def bodyChTestInject : Body := fun _ ps s =>
  let first := num ps 0 2
  let count := num ps 2 2
  let q := num ps 4 2
  let f := num ps 6 1
  let tm := num ps 8 12
  let dwell := num ps 20 4
  let T40 := tm / 2 ^ 8
  checked s
    ([need (decide (f < 4) && zeroAt ps 7 1) stBAD_PARAM] ++ s.injectChecks first count q dwell
      ++ [need (tm == 0 || s.armTimeOk T40) stBAD_PARAM, need (tm == 0 || s.tq != 3) stBAD_STATE, need (tm == 0 || s.freeAction.isSome) stNO_RESOURCE])
    (if tm = 0 then ok (s.doInject first count q (bit f 0) (bit f 1) dwell)
     else
       let w := word (5 * 2 ^ 24 + f / 2 * 2 ^ 23 + f % 2 * 2 ^ 22 + count * 2 ^ 10 + first)
       ok (s.armEntry (s.freeAction.getD 0) w (dwell * 4096 + q) T40))

/-- The meaning of CH_TEST_INJECT. -/
def execChTestInject (t : Nat) (p : Packet) (s : State) : Host.Outcome State Fault Refusal := command 0x1004 bodyChTestInject t p s

/-- The four bytes of CLAMP_STATUS for a channel, and the state after it, cleared where asked: an onset in this clock is neither read nor
cleared (R79; 00_scope.md R9). -/
def State.clampRead (s : State) (c : Nat) (clear : Bool) : State × List Byte :=
  let a := AFE_CLAMP_SEEN (c / 32)
  let now := wfld (s.chStat c) AFE_CH_STAT_CLAMP_NOW
  let count := s.takeRc (AFE_CH_STAT c) AFE_CH_STAT_CLAMP_COUNT
  let fresh := bit (s.freshBits a AFE_CLAMP_SEEN_SEEN) (c % 32)
  let v := s.fld a AFE_CLAMP_SEEN_SEEN
  let seen := bit v (c % 32) && !fresh
  (if clear then count.2.setFld a AFE_CLAMP_SEEN_SEEN (if seen then v - 2 ^ (c % 32) else v) else s,
   le 2 count.1 ++ le 1 (now + 2 * b2n seen) ++ le 1 0)

/-- CLAMP_STATUS (0x1005), R79. -/
def bodyClampStatus : Body := fun _ ps s =>
  let first := num ps 0 2
  let count := num ps 2 2
  let chans := (List.range count).map fun i => first + i
  checked s [need (decide (1 ≤ count) && decide (first + count ≤ 512) && decide (num ps 4 1 < 2) && zeroAt ps 5 3) stBAD_PARAM]
    (let r := chans.foldl (fun (a : State × List Byte) c => let k := a.1.clampRead c (bit (num ps 4 1) 0); (k.1, a.2 ++ k.2)) (s, [])
     .reply r.1 stOK r.2)

/-- The meaning of CLAMP_STATUS. -/
def execClampStatus (t : Nat) (p : Packet) (s : State) : Host.Outcome State Fault Refusal := command 0x1005 bodyClampStatus t p s

end Sys2Proof.Machine
end

