-- ==== Sys2Proof/Machine/Freq.lean ====
section
/-!
DEFINITION. Frequency measurement and the reading of vibrating-wire gauges (06_interval_unit.md R192 to R199; 02_front_end.md R56,
R57): FREQ_MEASURE, the loop check before a drive, the opening and the close of a gate, and its result.
-/

namespace Sys2Proof.Machine

open Reg Bits

/-- A VWIRE channel's loop resistance, in 0.1 Ω, as measured for 1 ms before a drive (R56, R57): the cause it gives, 0 for none. The
check proves the wire at the start of the drive (R64). (DEDUCED, log entry 27). -/
def State.loopCheck (s : State) (c loop : Nat) : Nat × State :=
  let ref := (s.ch c).loopRef.getD loop
  let cause := if loop > 600000 then 6 else if loop + 1000 < ref then 7 else 0
  let s := s.onCh c fun h => { h with loopLast := loop, loopRef := some ref }
  let f := s.now + fineMs 1
  (cause, if !s.wireEn c then s else if cause = 0 then s.wirePass c f f else s.wireBreak c cause)

/-- The loops of the VWIRE channels of a bay are checked before a drive: the causes found, by channel (R56). -/
def State.loopChecks (s : State) (b : Nat) (loops : List Nat) : Tab Nat × State :=
  ((bayChans b).zip loops).foldl (fun (a : Tab Nat × State) e =>
    if a.2.chMode e.1 != 4 then a else let k := a.2.loopCheck e.1 e.2; (Tab.insert a.1 e.1 k.1, k.2)) ([], s)

/-- FREQ_MEASURE (0x5002), from its own checks on (R193, R195, R199): `loops` is what the check before a drive measures, by input of the
bay. Its sources are claimed at acceptance and enabled as the gate opens. (DEDUCED, log entry 50). -/
def bodyFreqMeasure (loops : List Nat) : Body := fun c ps s =>
  let first := num ps 0 2
  let count := num ps 2 1
  let f := num ps 3 1
  let gate := num ps 4 4
  let lo := num ps 8 4
  let hi := num ps 12 4
  let b := first / 8
  let drive := bit f 0
  let em := s.fld (AFE_BAY_EXC b) AFE_BAY_EXC_EMODE
  checked s
    [need (decide (first < 512) && decide (1 ≤ count) && decide (count ≤ 8) && (first + count - 1) / 8 == b && decide (f < 8)) stBAD_PARAM,
     need (decide (10 ≤ gate) && decide (gate ≤ 60000) && decide (2000 ≤ lo) && decide (hi ≤ 500000000) && decide (lo < hi)) stBAD_PARAM,
     need (allIn first count fun ch => s.chMode ch != 0 && s.chMode ch != 1) stBAD_STATE,
     need (!drive || em == 2 || em == 3) stBAD_STATE,
     need (!(s.tiu.gates.any fun g => g.bay == b)) stBUSY,
     need (decide (count ≤ s.freeComps.length)) stNO_RESOURCE]
    (let causes := if drive then s.loopChecks b loops else ([], s)
     let r := (s.freeComps.take count).foldl (fun (a : State × List GateCh) n =>
       let ch := first + a.2.length
       (a.1.setSource n false a.1.pickCore 3 (bit f 2) false ch, a.2 ++ [⟨ch, n, 0, [], false, false, false, Tab.get 0 causes.1 ch⟩])) (causes.2, [])
     let g : Gate := { bay := b, chans := r.2, drive := drive, record := bit f 1, falling := bit f 2, gateMs := gate, fLo := lo, fHi := hi,
                       caller := c, driveEnd := if drive then s.now + fineMs 1 + s.driveLen b + fineMs 2 else s.now, openAt := none, pausedAt := none,
                       paused := 0, everPaused := false }
     .long (r.1.onTiu fun t => { t with gates := t.gates ++ [g] }))

/-- The meaning of FREQ_MEASURE. -/
def execFreqMeasure (t : Nat) (p : Packet) (loops : List Nat) (s : State) : Host.Outcome State Fault Refusal :=
  command 0x5002 (bodyFreqMeasure loops) t p s

/-- π and ln 2 in units of 2^-64. -/
def piFix : Nat := 57952155664616982739
def ln2Fix : Nat := 12786308645202655659

/-- The natural logarithm of a / b ≥ 1 in units of 2^-64: powers of 2, then 2 artanh of the rest by its series. -/
def lnFix (a b : Nat) : Nat :=
  let k := Nat.log2 (a / max 1 b)
  let c := b * 2 ^ k
  let z := (a - c) * 2 ^ 64 / max 1 (a + c)
  let z2 := z * z / 2 ^ 64
  k * ln2Fix + 2 * ((List.range 40).foldl (fun (p : Nat × Nat) i => (p.1 + p.2 / (2 * i + 1), p.2 * z2 / 2 ^ 64)) (0, z)).1

/-- The stamps of a gate channel with their edge numbers, less the outliers, and how many those are (06_interval_unit.md,
Frequency by regression). -/
def GateCh.numbered (x : GateCh) (g : Gate) : List (Int × Int) × Nat :=
  match x.stamps with
  | t0 :: rest =>
    let d : Int := (x.stamps.getD 4 t0 : Int) - t0
    let m : Int := g.div
    if d ≤ 0 then ([], 0)
    else
      let r := rest.foldl (fun (a : List (Int × Int) × Nat × Int) (t : Nat) =>
        let u : Int := ((t : Int) - t0) * 4 * m
        let k := (2 * u + d) / (2 * d)
        let dt : Int := (t : Int) - a.2.2
        let per := 419430400000 * 100 * m
        let bad := decide ((u - k * d).natAbs * 4 > d.natAbs) || decide (per > g.fHi * dt) || decide (per < g.fLo * dt)
        if bad then (a.1, a.2.1 + 1, (t : Int)) else (a.1 ++ [(k, (t : Int))], a.2.1, (t : Int))) ([(0, (t0 : Int))], 0, (t0 : Int))
      (r.1, r.2.1)
  | [] => ([], 0)

/-- Sum of the squares of a channel's correction outputs over a span of fine counts, and how many they are; a SWITCH channel has none. -/
def State.quarter (s : State) (c from_ to_ : Nat) : Nat × Nat :=
  if s.chMode c = 5 then (0, 0)
  else (s.ch c).outs.foldl (fun (a : Nat × Nat) e => if from_ ≤ e.1 ∧ e.1 < to_ then (a.1 + e.2.natAbs * e.2.natAbs, a.2 + 1) else a) (0, 0)

/-- The peak of a sine of a mean square of internal values, in µV. -/
def State.peakUv (s : State) (c : Nat) (q : Nat × Nat) : Nat :=
  let u := s.unitOf c
  roundFree (isqrt (2 * q.1 * (u.1 * 10 ^ 6) ^ 2 * 2 ^ 64 / max 1 (q.2 * u.2 ^ 2))) (2 ^ 32)

/-- The 32-byte entry of one channel of a gate that was open from `a` to `z` (R192, R199, Table 06-4). (DEDUCED, log entry 50). -/
def State.gateEntry (s : State) (g : Gate) (x : GateCh) (a z : Nat) : List Byte :=
  let nb := x.numbered g
  let l := nb.1
  let n := l.length
  let sk := sumI (l.map Prod.fst)
  let st := sumI (l.map Prod.snd)
  let cov := sumI (l.map fun p => (n * p.1 - sk) * (n * p.2 - st))
  let var := sumI (l.map fun p => (n * p.1 - sk) * (n * p.1 - sk))
  let ok := decide (n ≥ 16) && !x.few && decide (cov > 0)
  let wire := x.wire == 6 || x.wire == 7
  let inc := s.incr s.tb.served
  let f := if ok && !wire then roundFree (var.toNat * 8192 * 2 ^ 80 * 2 ^ 32) (cov.toNat * inc) else 0
  let res := sumI (l.map fun p => let e := (n * p.2 - st) * var - cov * (n * p.1 - sk); e * e)
  let rms := if ok then roundFree (isqrt (res.toNat * 10000000 ^ 2 * 2 ^ 64 / max 1 ((n * var.toNat * 4194304) ^ 2 * (n - 2)))) (2 ^ 32) else 0
  let len := fineMs g.gateMs / 4
  let q1 := s.quarter x.ch a (a + len)
  let q2 := s.quarter x.ch (z - len) z
  let s1 := q1.1 * max 1 q2.2
  let s2 := q2.1 * max 1 q1.2
  let q := if !ok || wire || decide (s2 ≥ s1) then 0
    else if s2 = 0 then 0xFFFF
    else satN 16 (roundFree (piFix * f * 3 * g.gateMs * 2) (4000 * 2 ^ 32 * max 1 (lnFix s1 s2)))
  let status := if wire then 2 else if !ok then 1 else if s2 ≥ s1 then 3 else 0
  le 2 x.ch ++ le 1 status ++ le 1 (b2n g.everPaused + 2 * b2n x.lost + 4 * b2n x.missed) ++ le 8 f ++ le 4 n ++ le 4 (satN 32 rms)
    ++ le 2 (satN 16 nb.2) ++ le 2 q ++ le 4 (satN 32 (s.peakUv x.ch q1)) ++ le 4 (satN 32 (s.peakUv x.ch q2))

/-- FREQ_GATE_CLOSE of bay `b` (R192, R197, R199). -/
def State.gateClose (s : State) (b : Nat) : State :=
  match s.tiu.gates.find? fun g => g.bay == b with
  | none => s
  | some g => match g.openAt with
    | none => s
    | some a =>
      if g.pausedAt.isSome || decide (s.now < a + g.paused + fineMs g.gateMs) then s
      else
        let entries := g.chans.map fun x => s.gateEntry g x a s.now
        let st := s.stAt a
        let s := s.dropGate b
        let s := if g.record && s.address.isSome then
            (g.chans.zip entries).foldl (fun s e => s.addSeqRec
              { blankRec with rtype := 8, addr := s.chanAddr e.1.ch, st := st, stLast := st, tqByte := s.tqByte false, count := 1, payload := e.2 }) s
          else s
        s.report g.caller stOK (le 8 st ++ le 4 (roundFree ((s.now - a) * 10000) 4194304000) ++ le 1 entries.length ++ le 3 0 ++ entries.flatMap id)

/-- The meaning of FREQ_GATE_CLOSE. -/
def execFreqGateClose (t : Nat) (b : Fin 64) (s : State) : Host.Outcome State Fault Refusal := event t (State.gateClose · b) s

/-- FREQ_GATE_OPEN of bay `b`: 2 ms after the drive the comparators go to their cores and the gate opens (R56, R199); on a core that
calibrates it opens paused (R196). A source released since stays so (R188). (DEDUCED, log entry 50). -/
def State.gateOpen (s : State) (b : Nat) : State :=
  match s.tiu.gates.find? fun g => g.bay == b with
  | none => s
  | some g =>
    if g.openAt.isSome || decide (s.now < g.driveEnd) then s
    else
      let srcs := (g.chans.map GateCh.src).filter fun n => decide (n < 64)
      let s := srcs.foldl (fun s n => (s.setFld (TIU_SRC_CFG n) TIU_SRC_CFG_CORE s.pickCore).setFld (TIU_SRC_CFG n) TIU_SRC_CFG_EN 1) s
      let s := if g.drive then s.setFld (AFE_BAY_MON b) AFE_BAY_MON_LIMIT 0 else s
      let paused := srcs.any fun n => s.on (TIU_CORE_STAT (s.srcCore n)) TIU_CORE_STAT_CAL
      let open_ := fun (y : Gate) =>
        { y with openAt := some s.now, pausedAt := if paused then some s.now else none, everPaused := paused,
                 chans := y.chans.map fun x => { x with few := x.few || paused } }
      s.onTiu fun t => { t with gates := mapIf (fun y => y.bay == b) open_ t.gates }

/-- The meaning of FREQ_GATE_OPEN. -/
def execFreqGateOpen (t : Nat) (b : Fin 64) (s : State) : Host.Outcome State Fault Refusal := event t (State.gateOpen · b) s

end Sys2Proof.Machine
end

