-- ==== Sys2Proof/Machine/Fld.lean ====
section
/-!
DEFINITION. Field ports, field decoders, trip outputs and frequency outputs (08_field_ports_and_outputs.md).
-/

namespace Sys2Proof.Machine

open Reg Bits

/-- Do the field block's ports and outputs run: in ACTIVE and QUIET (R263; 01_architecture.md Table 01-8)?
(DEDUCED, log entry 33). -/
def State.fldRuns (s : State) : Bool := s.sys.phase == .running && (s.power == 2 || s.power == 3)

/-- An error of a field port, and FRAME_ERROR at most once a second (R252, R270). -/
def State.frameError (s : State) (n kind : Nat) : State :=
  (s.bump (FLD_PORT_STAT n) FLD_PORT_STAT_ERRORS).issueLim 0x7002 n 1 1 true [n, 0, kind]

/-- The output's condition, MIN_ON, latch and power decide whether it conducts (R260, R262). -/
def State.tripHealthy (s : State) (o : Nat) : Bool :=
  let x := s.trip o
  s.fldRuns && s.on (FLD_TRIP_CFG o) FLD_TRIP_CFG_EN && s.on (FLD_TRIP_STAT o) FLD_TRIP_STAT_READY && x.condOk && !x.stale
    && !s.on (FLD_TRIP_STAT o) FLD_TRIP_STAT_LATCHED && decide (x.minOnEnd ≤ s.now)

/-- Evaluate trip output `o` (TRIP_EVALUATE): a change shows in HEALTHY and CAUSE and issues TRIP_CHANGE, at most 10 a second
(R262, R270). A trip by a value, by STALE or by a fault flag sets the latch where LATCH is set. (DEDUCED, log entry 34). -/
def State.evalTrip (s : State) (o cause : Nat) : State :=
  let h := s.tripHealthy o
  if h = s.on (FLD_TRIP_STAT o) FLD_TRIP_STAT_HEALTHY then s
  else
    let s := (s.setFld (FLD_TRIP_STAT o) FLD_TRIP_STAT_HEALTHY (b2n h)).setFld (FLD_TRIP_STAT o) FLD_TRIP_STAT_CAUSE cause
    let s := if h then s
      else
        let s := (s.bump (FLD_TRIP_STAT o) FLD_TRIP_STAT_TRIPS).onTrip o fun x =>
          { x with minOnEnd := s.now + fineMs (s.fld (FLD_TRIP_TIME o) FLD_TRIP_TIME_MIN_ON) }
        if s.on (FLD_TRIP_CFG o) FLD_TRIP_CFG_LATCH && decide (cause ≤ 2) then s.setFld (FLD_TRIP_STAT o) FLD_TRIP_STAT_LATCHED 1 else s
    s.issueLim 0x7001 o 10 3 false [o, b2n h, cause, 0]

/-- A new source value `v` reaches trip output `o`; `fault` says that its sample carries SUSPECT_WIRE or OVERLOAD (R262). One judged in
the clock of a reset is judged first (R265). -/
def State.tripValue (s : State) (o : Nat) (v : Int) (fault : Bool) : State :=
  let lintel := signed 32 (s.fld (FLD_TRIP_LINTEL o) FLD_TRIP_LINTEL_LINTEL)
  let sill := signed 32 (s.fld (FLD_TRIP_SILL o) FLD_TRIP_SILL_SILL)
  let pol := s.on (FLD_TRIP_CFG o) FLD_TRIP_CFG_POL
  let bad := if pol then decide (v < sill) else decide (v > lintel)
  let good := if pol then decide (v > lintel) else decide (v < sill)
  let flt := fault && s.on (FLD_TRIP_CFG o) FLD_TRIP_CFG_FAULT_TRIP
  let s := s.onTrip o fun x => { x with since := s.now, stale := false, condOk := if flt || bad then false else if good then true else x.condOk }
  let s := if good && !flt then s.setFld (FLD_TRIP_STAT o) FLD_TRIP_STAT_READY 1 else s
  if (s.trip o).condOk && (s.trip o).resetIn == some s.clock then (s.setFld (FLD_TRIP_STAT o) FLD_TRIP_STAT_LATCHED 0).evalTrip o 3
  else s.evalTrip o (if flt then 2 else 0)

/-- r of R267 times V_HI - V_LO, with that difference. -/
def State.foutRatio (s : State) (o : Nat) (v : Int) : Nat × Nat :=
  let lo := signed 32 (s.fld (FLD_FOUT_VLO o) FLD_FOUT_VLO_V_LO)
  let d := (signed 32 (s.fld (FLD_FOUT_VHI o) FLD_FOUT_VHI_V_HI) - lo).toNat
  (min (v - lo).toNat d, max 1 d)

/-- The increment of the 32-bit phase accumulator at 102.4 MHz, and the high time in 2^-32 periods, that a value gives output `o` (R267);
(0, 0) while it is held low. (DEDUCED, log entry 34). -/
def State.foutSetting (s : State) (o : Nat) : Nat × Nat :=
  let lo := s.fld (FLD_FOUT_RANGE o) FLD_FOUT_RANGE_F_LO
  let hi := s.fld (FLD_FOUT_RANGE o) FLD_FOUT_RANGE_F_HI
  match (s.fout o).latest with
  | none => (0, 0)
  | some v =>
    let r := s.foutRatio o v
    if !s.fldRuns then (0, 0)
    else match s.fld (FLD_FOUT_CFG o) FLD_FOUT_CFG_MODE with
      | 1 => (((lo : Int) * r.2 + (r.1 : Int) * ((hi : Int) - lo)).toNat * 2 ^ 32 / (r.2 * 102400000), 2 ^ 31)
      | 2 => (lo * 2 ^ 32 / 102400000, r.1 * 65536 / r.2 * 65536)
      | _ => (0, 0)

/-- A frequency output now, its setting `next` taken at the start of each period (R267). -/
def Fout.advance (x : Fout) (next : Nat × Nat) (now : Nat) : Fout :=
  let n := now / 4096 - x.at_ / 4096
  let wrap := if x.incr = 0 then 0 else ceilDiv (2 ^ 32 - x.phase) x.incr
  let fresh := fun (phase left : Nat) =>
    ({ x with incr := next.1, duty := next.2, phase := if next.1 = 0 then 0 else (phase + left * next.1) % 2 ^ 32, at_ := now } : Fout)
  if x.incr = 0 then fresh 0 0
  else if n < wrap then { x with phase := x.phase + n * x.incr, at_ := now }
  else fresh (x.phase + wrap * x.incr - 2 ^ 32) (n - wrap)

/-- Output `o` is brought up to now. -/
def State.runFout (s : State) (o : Nat) : State := s.onFout o fun x => x.advance (s.foutSetting o) s.now

/-- Output `o` receives a value: its next period uses it (R267). -/
def State.foutValue (s : State) (o : Nat) (v : Int) : State :=
  ((s.runFout o).onFout o fun x => { x with latest := some v }).runFout o

/-- Output `o` starts anew under its registers; a new source has given it no value yet (R267). (DEDUCED, log entry 34). -/
def State.setupFout (s : State) (o : Nat) (newSource : Bool) : State :=
  (s.onFout o fun x => { latest := if newSource then none else x.latest, at_ := s.now }).runFout o

/-- Do two words name different sources? -/
def foutMoves (old new : Word) : Bool :=
  wfld old FLD_FOUT_CFG_SRC != wfld new FLD_FOUT_CFG_SRC || wfld old FLD_FOUT_CFG_SEL != wfld new FLD_FOUT_CFG_SEL

/-- The level of pin FOUT `o` now (R267): a period is high first. (DEDUCED, log entry 34). -/
def State.foutPin (s : State) (o : Nat) : Bool :=
  let x := (s.runFout o).fout o
  s.fldRuns && x.incr != 0 && decide (x.phase < x.duty)

/-- The enabled trip outputs on a source. -/
def State.tripsOn (s : State) (src sel : Nat) : List Nat :=
  (List.range 16).filter fun o => s.on (FLD_TRIP_CFG o) FLD_TRIP_CFG_EN && s.fld (FLD_TRIP_CFG o) FLD_TRIP_CFG_SRC == src
    && s.fld (FLD_TRIP_CFG o) FLD_TRIP_CFG_SEL == sel

/-- A source value reaches the trip and frequency outputs on it (R261 to R263, R267); a trip output whose source's bay carries
the test tone holds its state (17_counters_and_test.md R511). -/
def State.feedOutputs (s : State) (src sel : Nat) (v : Int) (fault : Bool) : State :=
  if !s.fldRuns then s
  else
    let s := (s.tripsOn src sel).foldl (fun s o =>
      if src < 3 && s.toned (sel / 8) then s.onTrip o fun x => { x with since := s.now } else s.tripValue o v fault) s
    ((List.range 8).filter fun o => s.fld (FLD_FOUT_CFG o) FLD_FOUT_CFG_MODE != 0 && s.fld (FLD_FOUT_CFG o) FLD_FOUT_CFG_SRC == src
      && s.fld (FLD_FOUT_CFG o) FLD_FOUT_CFG_SEL == sel).foldl (fun s o => s.foutValue o v) s

/-- A detector value that is not SETTLING reaches its outputs; while it settles the trip outputs on it hold their state
(R262, 04_decimation.md R138). -/
def State.feedDetOutputs (s : State) (c v : Nat) (settling fault : Bool) : State :=
  if settling then (s.tripsOn 0 c).foldl (fun s o => s.onTrip o fun x => { x with since := s.now }) s else s.feedOutputs 0 c v fault

/-- A trip output starts under the configuration its registers hold: not ready, released until its value is healthy (R260,
R262, R265). (DEDUCED, log entry 34). -/
def State.setupTrip (s : State) (o cause : Nat) : State :=
  let s := (s.setFld (FLD_TRIP_STAT o) FLD_TRIP_STAT_READY 0).onTrip o fun x => { x with condOk := false, stale := false, since := s.now }
  s.evalTrip o cause

/-- The trip outputs are released, and the frequency outputs low, as the hub leaves ACTIVE and QUIET; they start afresh as it comes back
(R263, R267). (DEDUCED, log entry 34). -/
def State.tripsPower (s : State) : State :=
  (List.range 8).foldl (fun s o => s.setupFout o false) ((List.range 16).foldl (fun s o => s.setupTrip o 5) s)

/-- TRIP_STALE of output `o` (R262). -/
def State.tripStale (s : State) (o : Nat) : State :=
  let lim := s.fld (FLD_TRIP_TIME o) FLD_TRIP_TIME_STALE
  if lim = 0 || !s.fldRuns || !s.on (FLD_TRIP_CFG o) FLD_TRIP_CFG_EN || decide (s.now < (s.trip o).since + fineMs lim) then s
  else (s.onTrip o fun x => { x with stale := true }).evalTrip o 1

/-- The meaning of TRIP_STALE. -/
def execTripStale (t : Nat) (o : Fin 16) (s : State) : Host.Outcome State Fault Refusal := event t (State.tripStale · o) s

/-- Is the condition of output `o` healthy (R265)? -/
def State.tripCondOk (s : State) (o : Nat) : Bool := s.on (FLD_TRIP_STAT o) FLD_TRIP_STAT_READY && (s.trip o).condOk && !(s.trip o).stale

/-- TRIP_MIN_ON_EXPIRY of output `o`: a reset that came before takes effect now (R262, R265). -/
def State.tripMinOn (s : State) (o : Nat) : State :=
  let x := s.trip o
  if s.now < x.minOnEnd then s
  else if x.resetPending then
    let s := s.onTrip o fun x => { x with resetPending := false }
    if s.tripCondOk o then (s.setFld (FLD_TRIP_STAT o) FLD_TRIP_STAT_LATCHED 0).evalTrip o 3 else s
  else s.evalTrip o 0

/-- The meaning of TRIP_MIN_ON_EXPIRY. -/
def execTripMinOnExpiry (t : Nat) (o : Fin 16) (s : State) : Host.Outcome State Fault Refusal := event t (State.tripMinOn · o) s

/-- The checks of a trip configuration, less the lock (R261). (DEDUCED, log entry 29). -/
def State.tripChecks (s : State) (w : Word) (lintel sill : Nat) : List (Option Nat) :=
  let src := wfld w FLD_TRIP_CFG_SRC
  let sel := wfld w FLD_TRIP_CFG_SEL
  [need (decide (signed 32 lintel > signed 32 sill)) stBAD_PARAM, need (if src = 3 then decide (sel < 64) else decide (sel < 512)) stBAD_PARAM,
   need (src == 3 || s.chMode sel != 0) stBAD_STATE, need (!((src == 1 || src == 2) && s.chMode sel == 1)) stBAD_STATE,
   need (src != 0 || s.on (DEC_DET_CFG sel) DEC_DET_CFG_EN) stBAD_STATE]

/-- TRIP_CONFIG (0x7003), R261, R266, R268. -/
def bodyTripConfig : Body := fun _ ps s =>
  let o := num ps 0 1
  let w := word (num ps 4 4)
  checked s
    ([need (o < 16 && zeroAt ps 1 3 && bits w.toNat 10 16 == 0) stBAD_PARAM, need (!s.on FLD_CTRL FLD_CTRL_TRIP_LOCK) stBAD_STATE]
      ++ s.tripChecks w (num ps 8 4) (num ps 12 4))
    (ok (((((s.wr (FLD_TRIP_CFG o) w).wr (FLD_TRIP_LINTEL o) (word (num ps 8 4))).wr (FLD_TRIP_SILL o) (word (num ps 12 4))).wr (FLD_TRIP_TIME o)
      (word (num ps 16 4))).setupTrip o 4))

/-- The meaning of TRIP_CONFIG. -/
def execTripConfig (t : Nat) (p : Packet) (s : State) : Host.Outcome State Fault Refusal := command 0x7003 bodyTripConfig t p s

/-- One output of a TRIP_RESET (R265): whether its latch is cleared, now or at the end of MIN_ON. (DEDUCED, log entry 34). -/
def State.resetTrip (s : State) (o : Nat) : Bool × State :=
  if !s.on (FLD_TRIP_STAT o) FLD_TRIP_STAT_LATCHED then (false, s)
  else if s.now < (s.trip o).minOnEnd then (true, s.onTrip o fun x => { x with resetPending := true })
  else if s.tripCondOk o then (true, (s.setFld (FLD_TRIP_STAT o) FLD_TRIP_STAT_LATCHED 0).evalTrip o 3)
  else (false, s.onTrip o fun x => { x with resetIn := some s.clock })

/-- TRIP_RESET (0x7005), R265, R266, R269. -/
def bodyTripReset : Body := fun _ ps s =>
  let m := num ps 0 2
  checked s [need (zeroAt ps 2 2) stBAD_PARAM]
    (let mine := (List.range 16).filter fun o => bit m o
     let r := mine.foldl (fun (a : Nat × State) o => let x := a.2.resetTrip o; (if x.1 then a.1 + 2 ^ o else a.1, x.2)) (0, s)
     let still := mine.foldl (fun n o => if r.2.on (FLD_TRIP_STAT o) FLD_TRIP_STAT_HEALTHY then n else n + 2 ^ o) 0
     .reply r.2 stOK (le 2 r.1 ++ le 2 still))

/-- The meaning of TRIP_RESET. -/
def execTripReset (t : Nat) (p : Packet) (s : State) : Host.Outcome State Fault Refusal := command 0x7005 bodyTripReset t p s

/-- TRIP_LOCK: a write of 1 to FLD_CTRL.TRIP_LOCK (R10, R266). -/
def State.lockTrips (s : State) : State := s.setFld FLD_CTRL FLD_CTRL_TRIP_LOCK 1

/-- The meaning of TRIP_LOCK. -/
def execTripLock (t : Nat) (s : State) : Host.Outcome State Fault Refusal := event t State.lockTrips s

/-- The checks of a frequency output's words (R267, R268). -/
def foutChecks (w : Word) (vlo vhi range : Nat) : List (Option Nat) :=
  let mode := wfld w FLD_FOUT_CFG_MODE
  let sel := wfld w FLD_FOUT_CFG_SEL
  [need (mode != 3 && (if wfld w FLD_FOUT_CFG_SRC = 3 then decide (sel < 64) else decide (sel < 512))) stBAD_PARAM,
   need (decide (signed 32 vhi > signed 32 vlo)) stBAD_PARAM, need (mode != 2 || wfld (word range) FLD_FOUT_RANGE_F_LO != 0) stBAD_PARAM]

/-- FOUT_CONFIG (0x7004), R267, R268. -/
def bodyFoutConfig : Body := fun _ ps s =>
  let o := num ps 0 1
  let w := word (num ps 4 4)
  checked s ([need (o < 8 && zeroAt ps 1 3 && bits w.toNat 10 18 == 0) stBAD_PARAM] ++ foutChecks w (num ps 8 4) (num ps 12 4) (num ps 16 4))
    (ok (((((s.wr (FLD_FOUT_CFG o) w).wr (FLD_FOUT_VLO o) (word (num ps 8 4))).wr (FLD_FOUT_VHI o) (word (num ps 12 4))).wr (FLD_FOUT_RANGE o)
      (word (num ps 16 4))).setupFout o (foutMoves (s.rd (FLD_FOUT_CFG o)) w)))

/-- The meaning of FOUT_CONFIG. -/
def execFoutConfig (t : Nat) (p : Packet) (s : State) : Host.Outcome State Fault Refusal := command 0x7004 bodyFoutConfig t p s

/-- Mode, source and word of a field port. -/
def State.fpMode (s : State) (n : Nat) : Nat := s.fld (FLD_PORT_CFG n) FLD_PORT_CFG_MODE
def fpSource (n : Nat) : Nat := 0x26 + n

/-- Baud of an ASYNC port, and fine counts in one of its characters (R247). -/
def baud (timing : Word) : Nat := 200 * max 1 (wfld timing FLD_PORT_TIMING_RATE)
def charBits (cfg : Word) : Nat :=
  1 + (if wfld cfg FLD_PORT_CFG_DATA7 = 1 then 7 else 8) + (if wfld cfg FLD_PORT_CFG_PARITY = 0 then 0 else 1) + 1 + wfld cfg FLD_PORT_CFG_STOP2
def fineHz : Nat := 51200000 * 8192
def charLen (cfg timing : Word) (n : Nat) : Nat := ceilDiv (n * charBits cfg * fineHz) (baud timing)

/-- Fine counts in one clock of an SPI port: 409.6 MHz divided by the least even number of at least 8 that keeps to RATE kHz (R248). -/
def spiClock (timing : Word) : Nat := max 8 (2 * ceilDiv 409600 (2 * max 1 (wfld timing FLD_PORT_TIMING_RATE))) * coreClk

/-- Fine counts of a transaction under a port's words (R247 to R249). -/
def xferLen (cfg timing : Word) : Nat :=
  let tx := wfld cfg FLD_PORT_CFG_TX_LEN
  match wfld cfg FLD_PORT_CFG_MODE with
  | 1 => charLen cfg timing tx
  | 2 => 8 * (tx + wfld cfg FLD_PORT_CFG_RX_LEN) * spiClock timing
  | 3 => ceilDiv (wfld cfg FLD_PORT_CFG_RX_LEN * 51200 * 8192) (max 1 (wfld timing FLD_PORT_TIMING_RATE))
  | _ => 0

/-- The transaction of port `n` in progress, if there is one. -/
def State.fpXfer (s : State) (n : Nat) : Option Xfer := (s.fport n).xfer.filter fun x => decide (s.now < x.to_)

/-- Is a transaction of port `n` not yet over, or in SSI over for less than 50 µs (R249)? -/
def State.fpBusy (s : State) (n : Nat) : Bool :=
  (s.fport n).xfer.any fun x => decide (s.now < x.to_ + (if wfld x.cfg FLD_PORT_CFG_MODE = 3 then fineUs 50 else 0))

/-- FIELD_PORT_POLL of port `n`: a transaction sends TX_LEN bytes of FLD_PORT_TX, byte 0 first (R248, R250). -/
def State.fieldPoll (s : State) (n : Nat) : State :=
  let cfg := s.rd (FLD_PORT_CFG n)
  let timing := s.rd (FLD_PORT_TIMING n)
  let ms := wfld timing FLD_PORT_TIMING_POLL
  let k := periodOf (max 1 ms) s.served
  if ms = 0 || s.fpMode n == 0 || !s.fldRuns || decide (k ≤ (s.fport n).lastPoll) then s
  else
    let busy := s.fpBusy n
    let s := s.onFport n fun x => { x with lastPoll := k }
    if busy then s.frameError n 3
    else
      let sent := if s.fpMode n = 3 then [] else le (min 4 (wfld cfg FLD_PORT_CFG_TX_LEN)) (s.rd (FLD_PORT_TX n)).toNat
      s.onFport n fun x => { x with xfer := some ⟨s.now, s.now + xferLen cfg timing, cfg, timing, sent⟩, taken := false }

/-- The meaning of FIELD_PORT_POLL. -/
def execFieldPortPoll (t : Nat) (n : Fin 4) (s : State) : Host.Outcome State Fault Refusal := event t (State.fieldPoll · n) s

/-- What the hub does at a pin of a field port: an input with a weak pull-up, an input, or a level it drives. -/
inductive Pin where
  | pulledUp
  | input
  | drives (high : Bool)
  deriving DecidableEq, Repr

/-- The bits of one ASYNC character on the line: start, data LSB first, parity, stop (R247). -/
def asyncBits (cfg : Word) (b : Byte) : List Bool :=
  let n := if wfld cfg FLD_PORT_CFG_DATA7 = 1 then 7 else 8
  let data := (List.range n).map fun i => bit b.toNat i
  let odd := data.foldl (fun p x => p != x) false
  [false] ++ data ++ (match wfld cfg FLD_PORT_CFG_PARITY with
    | 1 => [odd]
    | 2 => [!odd]
    | _ => []) ++ List.replicate (1 + wfld cfg FLD_PORT_CFG_STOP2) true

/-- The level of TXD, of MOSI, and of SCLK or CLK, at a time into a transaction (R247 to R249): bits 1 and 0 of SPI_MODE are the clock's
polarity and phase; the SSI clock idles high. (PRESUMED, log entry 33). -/
def txdAt (x : Xfer) (f : Nat) : Bool := (x.out.flatMap (asyncBits x.cfg)).getD ((f - x.from_) * baud x.timing / fineHz) true
def mosiAt (x : Xfer) (f : Nat) : Bool :=
  (x.out.flatMap fun b => (List.range 8).map fun i => bit b.toNat (7 - i)).getD ((f - x.from_) / spiClock x.timing) false
def sclkAt (cfg : Word) (x : Option Xfer) (f : Nat) : Bool :=
  let pol := bit (wfld cfg FLD_PORT_CFG_SPI_MODE) 1
  match x with
  | none => pol
  | some x =>
    let late := decide (2 * ((f - x.from_) % spiClock x.timing) ≥ spiClock x.timing)
    pol != (late != bit (wfld cfg FLD_PORT_CFG_SPI_MODE) 0)
def ssiClkAt (x : Option Xfer) (f : Nat) : Bool :=
  x.all fun x => decide (2 * (((f - x.from_) * (wfld x.timing FLD_PORT_TIMING_RATE) * 2 ^ 20 / (51200 * 8192)) % 2 ^ 20) ≥ 2 ^ 20)

/-- Pin `k` of field port `n` now (R246, Table 08-1): a transaction in progress goes on under the words it began with (R253). -/
def State.fpPin (s : State) (n k : Nat) : Pin :=
  let x := s.fpXfer n
  let cfg := (x.map Xfer.cfg).getD (s.rd (FLD_PORT_CFG n))
  if !s.fldRuns then .pulledUp
  else match wfld cfg FLD_PORT_CFG_MODE, k with
    | 1, 0 => .drives (x.all fun x => txdAt x s.now)
    | 1, 2 => .drives (x.any fun x => !x.out.isEmpty)
    | 1, 3 => .drives (x.any fun x => !x.out.isEmpty)
    | 2, 0 => .drives (sclkAt cfg x s.now)
    | 2, 2 => .drives (x.any fun x => mosiAt x s.now)
    | 2, 3 => .drives x.isNone
    | 3, 0 => .drives (ssiClkAt x s.now)
    | 1, _ | 2, _ | 3, _ => .input
    | _, _ => .pulledUp

/-- A Gray code of `w` bits as binary (R249). -/
def unGray : Nat → Nat → Nat
  | 0, v => v
  | w + 1, v => v ^^^ unGray w (v / 2)

/-- The bytes of a frame as its decoders see them: 7 data bits with DATA7, the SSI value in 4 bytes big-endian (R247, R249). -/
def frameBytes (cfg : Word) (bytes : List Byte) : List Byte :=
  match wfld cfg FLD_PORT_CFG_MODE with
  | 1 => if wfld cfg FLD_PORT_CFG_DATA7 = 1 then bytes.map fun b => byte (b.toNat % 128) else bytes
  | 3 =>
    let n := wfld cfg FLD_PORT_CFG_RX_LEN
    let v := bytes.foldl (fun a b => 256 * a + b.toNat) 0 % 2 ^ n
    (le 4 (if bit (wfld cfg FLD_PORT_CFG_SPI_MODE) 0 then unGray n v else v)).reverse
  | _ => bytes

/-- Does a frame pass its CHECK (R252 kind 1)? A delimiter that ends the frame is not among the bytes checked.
(DEDUCED, log entry 33). -/
def frameCheck (cfg : Word) (bytes : List Byte) : Bool :=
  let l := if wfld cfg FLD_PORT_CFG_MODE = 1 && wfld cfg FLD_PORT_CFG_END_DELIM == 1 then bytes.dropLast else bytes
  match wfld cfg FLD_PORT_CFG_CHECK with
  | 1 => decide (1 ≤ l.length) && (l.getLastD 0#8).toNat == (l.dropLast.foldl (fun n b => n + b.toNat) 0) % 256
  | 2 => decide (2 ≤ l.length) && num l (l.length - 2) 2 == crc16 (l.take (l.length - 2))
  | _ => true

/-- The field that a decoder extracts, as its S32 value (R254). (DEDUCED, log entry 33). -/
def extract (cfg matchW mask : Word) (bytes : List Byte) : Option Int :=
  let off := wfld cfg FLD_DEC_CFG_OFFSET
  let w := wfld cfg FLD_DEC_CFG_WIDTH
  let mb := wfld matchW FLD_DEC_MATCH_MBYTE
  let at_ := fun (i : Nat) => (bytes.getD i 0#8).toNat
  if mb ≥ bytes.length ∨ off + w > 8 * bytes.length then none
  else if wfld matchW FLD_DEC_MATCH_MMASK ≠ 0 ∧ (at_ mb &&& wfld matchW FLD_DEC_MATCH_MMASK) ≠ wfld matchW FLD_DEC_MATCH_MVALUE then none
  else
    let big := wfld cfg FLD_DEC_CFG_BIG == 1
    let v := (List.range w).foldl (fun v i =>
      let j := off + i
      if big then 2 * v + at_ (j / 8) / 2 ^ (7 - j % 8) % 2 else v + at_ (j / 8) / 2 ^ (j % 8) % 2 * 2 ^ i) 0
    let v := v &&& mask.toNat
    some (signed 32 (unsigned 32 (if wfld cfg FLD_DEC_CFG_SIGN = 1 then signed w v else v)))

/-- The condition of a decoder at a value: what it then keeps, and whether it turns true (R256). -/
def decCond (cmp : Nat) (lintel sill v : Int) (x : DecCond) : DecCond × Bool :=
  let y := { x with prev := some v }
  match cmp with
  | 1 =>
    if x.ready then (if v > lintel then { y with ready := false, cond := true } else y, decide (v > lintel))
    else (if v < sill then { y with ready := true, cond := false } else y, false)
  | 2 =>
    if x.ready then (if v < sill then { y with ready := false, cond := true } else y, decide (v < sill))
    else (if v > lintel then { y with ready := true, cond := false } else y, false)
  | 3 => ({ y with cond := decide (v = lintel) }, decide (v = lintel) && !x.cond)
  | 4 => let c := x.prev.any fun p => decide (p ≠ v)
         ({ y with cond := c }, c)
  | _ => (y, false)

/-- The words of decoder `d`: FLD_DEC_CFG, MATCH, MASK, LINTEL, SILL. -/
def State.decRegs (s : State) (d : Nat) : List Word :=
  [s.rd (FLD_DEC_CFG d), s.rd (FLD_DEC_MATCH d), s.rd (FLD_DEC_MASK d), s.rd (FLD_DEC_LINTEL d), s.rd (FLD_DEC_SILL d)]

/-- The words and condition of decoder `d` for a frame decoded now: those in force at the start of this clock (R257). -/
def State.decNow (s : State) (d : Nat) : List Word × DecCond :=
  match (s.dec d).old.filter fun o => o.1 == s.clock with
  | some o => o.2
  | none => (s.decRegs d, (s.dec d).cur)

/-- Decoder `d` is configured by a write of its words: it is not ready (R257). -/
def State.setDecoder (s : State) (d : Nat) (write : State → State) : State :=
  let old := s.decNow d
  (write s).onDec d fun _ => { cur := {}, old := some (s.clock, old.1, old.2) }

/-- A frame reaches decoder `d` (DECODER_VALUE; R254 to R257, R261): `T` is its frame time. (DEDUCED, log entry 33). -/
def State.decodeFrame (s : State) (d : Nat) (bytes : List Byte) (T : Nat) : State :=
  let w := s.decNow d
  let at_ := fun (i : Nat) => w.1.getD i 0#32
  match extract (at_ 0) (at_ 1) (at_ 2) bytes with
  | none => s
  | some v =>
    let r := decCond (wfld (at_ 0) FLD_DEC_CFG_CMP) (signed 32 (at_ 3).toNat) (signed 32 (at_ 4).toNat) v w.2
    let s := (s.onDec d fun x => match x.old.filter fun o => o.1 == s.clock with
      | some o => { x with old := some (o.1, o.2.1, r.1) }
      | none => { x with cur := r.1 }).auxSample (512 + d) T v
    let s := if r.2 then ((s.unitsOf 4).filter fun u => s.fld (CAP_TRIG_CFG u) CAP_TRIG_CFG_SEL == d).foldl (fun s u => s.fireOwn u T) s else s
    s.feedOutputs 3 d v false

/-- Do the characters that an ASYNC port has received, with the instants they began, make up one whole frame now: its end is the first
DELIM, or an idle gap of DELIM characters after the last (R247)? (DEDUCED, log entry 33). -/
def State.asyncFrame (s : State) (cfg timing : Word) (chars : List (Byte × Nat)) : Bool :=
  let delim := wfld cfg FLD_PORT_CFG_DELIM
  let gap := charLen cfg timing (1 + delim)
  let ends := fun (b : Byte) => (b.toNat % (if wfld cfg FLD_PORT_CFG_DATA7 = 1 then 128 else 256)) == delim
  !chars.isEmpty &&
  if wfld cfg FLD_PORT_CFG_END_DELIM = 1 then
    (chars.getLast?.any fun c => ends c.1) && chars.dropLast.all fun c => !ends c.1
  else
    ((chars.zip (chars.drop 1)).all fun p => decide (p.2.2 < p.1.2 + gap)) && decide ((chars.getLast?.elim 0 Prod.snd) + gap ≤ s.now)

/-- The bytes and the start of the frame that FRAME_RECEIVED completes: in ASYNC mode of the characters received, in SPI and SSI what the
transaction of a poll has clocked in (R247 to R251). -/
def State.frameOf (s : State) (n : Nat) (chars : List (Byte × Nat)) : Option (Word × Nat × List Byte) :=
  let cfg := s.rd (FLD_PORT_CFG n)
  let x := (s.fport n).xfer
  let polled := fun (y : Xfer) =>
    let m := wfld y.cfg FLD_PORT_CFG_MODE
    let rx := wfld y.cfg FLD_PORT_CFG_RX_LEN
    (m == 2 || m == 3) && !(s.fport n).taken && decide (y.to_ ≤ s.now) && chars.length == (if m = 2 then rx else ceilDiv rx 8)
  match x.filter polled with
  | some y => some (y.cfg, y.from_, chars.map Prod.fst)
  | none =>
    if wfld cfg FLD_PORT_CFG_MODE == 1 && s.asyncFrame cfg (s.rd (FLD_PORT_TIMING n)) chars then
      some (cfg, chars.head?.elim 0 Prod.snd, chars.map Prod.fst)
    else none

/-- The frame time of a frame of port `n` that started at a fine count: with STAMP that of the stamp the core took, else served time as
the edge is detected (R251). (DEDUCED, log entry 33). -/
def State.frameTime (s : State) (n start : Nat) (stamped : Bool) : Nat :=
  match if stamped then (s.fport n).stamps.find? fun e => decide (start ≤ e.1) && decide (e.1 ≤ s.now) else none with
  | some e => e.2
  | none => s.servedAt start

/-- FRAME_RECEIVED on port `n` (R247 to R253). (DEDUCED, log entry 33). -/
def State.frameIn (s : State) (n : Nat) (chars : List (Byte × Nat)) (charError : Bool) : State :=
  if !s.fldRuns then s
  else match s.frameOf n chars with
  | none => s
  | some (cfg, start, bytes) =>
    let s := s.onFport n fun x => { x with taken := true }
    if start < (s.fport n).from_ then s
    else if charError && wfld cfg FLD_PORT_CFG_MODE == 1 then s.frameError n 0
    else if bytes.length > 256 then s.frameError n 2
    else
      let l := frameBytes cfg bytes
      if !frameCheck cfg l then s.frameError n 1
      else
        let T := s.frameTime n start (wfld cfg FLD_PORT_CFG_STAMP == 1)
        let s := (s.bump (FLD_PORT_STAT n) FLD_PORT_STAT_FRAMES).pmc 0x701 n 1
        ((List.range 64).filter fun d => let w := (s.decNow d).1.headD 0#32; wfld w FLD_DEC_CFG_EN == 1 && wfld w FLD_DEC_CFG_PORT == n).foldl
          (fun s d => s.decodeFrame d l T) s

/-- The meaning of FRAME_RECEIVED. -/
def execFrameReceived (t : Nat) (n : Fin 4) (chars : List (Byte × Nat)) (charError : Bool) (s : State) : Host.Outcome State Fault Refusal :=
  event t (fun s => s.frameIn n chars charError) s

/-- The checks of a field port's words (R246 to R251, Table 08-6). (DEDUCED, log entry 8). -/
def State.fpChecks (s : State) (n : Nat) (w timing : Word) : List (Option Nat) :=
  let rx := wfld w FLD_PORT_CFG_RX_LEN
  let rate := wfld timing FLD_PORT_TIMING_RATE
  let mode := wfld w FLD_PORT_CFG_MODE
  [need (decide (mode ≤ 3) && wfld w FLD_PORT_CFG_CHECK != 3 && wfld w FLD_PORT_CFG_PARITY != 3 && decide (wfld w FLD_PORT_CFG_TX_LEN ≤ 4)) stBAD_PARAM,
   need (mode != 1 || (decide (6 ≤ rate) && decide (rate ≤ 60000) && (wfld w FLD_PORT_CFG_END_DELIM == 1 || wfld w FLD_PORT_CFG_DELIM != 0))) stBAD_PARAM,
   need (mode != 2 || (rx != 0 && rate != 0)) stBAD_PARAM,
   need (mode != 3 || (decide (8 ≤ rx) && decide (rx ≤ 32) && decide (100 ≤ rate) && decide (rate ≤ 4000))) stBAD_PARAM,
   need (wfld w FLD_PORT_CFG_STAMP == 0 || s.srcUser (fpSource n) != 1) stBUSY]

/-- A field port starts under the words its registers hold: what it holds is discarded, with the frame of a transaction in progress (R250,
R251, R253). (DEDUCED, log entry 33). -/
def State.setupPort (s : State) (n : Nat) : State :=
  let stamp := s.on (FLD_PORT_CFG n) FLD_PORT_CFG_STAMP
  let s := s.onFport n fun x => { x with from_ := max s.now ((s.fpXfer n).elim 0 Xfer.to_), lastPoll := periodOf (max 1 (s.fld (FLD_PORT_TIMING n) FLD_PORT_TIMING_POLL)) s.served }
  let held := s.srcUser (fpSource n) == 2
  if stamp && !held then s.setSource (fpSource n) true s.pickCore 2 true false 0
  else if !stamp && held then s.freeSource (fpSource n)
  else s

/-- FIELD_PORT_CONFIG (0x7001), R251, R253, R268. -/
def bodyFieldPortConfig : Body := fun _ ps s =>
  let n := num ps 0 1
  let w := word (num ps 4 4)
  let tm := word (num ps 8 4)
  checked s ([need (n < 4 && zeroAt ps 1 3) stBAD_PARAM] ++ s.fpChecks n w tm)
    (ok ((((s.wr (FLD_PORT_CFG n) w).wr (FLD_PORT_TIMING n) tm).wr (FLD_PORT_TX n) (word (num ps 12 4))).setupPort n))

/-- The meaning of FIELD_PORT_CONFIG. -/
def execFieldPortConfig (t : Nat) (p : Packet) (s : State) : Host.Outcome State Fault Refusal := command 0x7001 bodyFieldPortConfig t p s

/-- The checks of a decoder's words (R254, R256). -/
def decChecks (w : Word) : List (Option Nat) :=
  [need (decide (wfld w FLD_DEC_CFG_CMP ≤ 4) && decide (1 ≤ wfld w FLD_DEC_CFG_WIDTH) && decide (wfld w FLD_DEC_CFG_WIDTH ≤ 32)) stBAD_PARAM]

/-- FIELD_DECODER_CONFIG (0x7002), R257, R268. -/
def bodyFieldDecoderConfig : Body := fun _ ps s =>
  let d := num ps 0 1
  let w := word (num ps 4 4)
  let m := word (num ps 8 4)
  checked s
    ([need (d < 64 && zeroAt ps 1 3 && bits w.toNat 11 5 == 0 && bits w.toNat 22 2 == 0 && bits m.toNat 8 8 == 0) stBAD_PARAM] ++ decChecks w)
    (ok (s.setDecoder d fun s =>
      ((((s.wr (FLD_DEC_CFG d) w).wr (FLD_DEC_MATCH d) m).wr (FLD_DEC_MASK d) (word (num ps 12 4))).wr (FLD_DEC_LINTEL d)
        (word (num ps 16 4))).wr (FLD_DEC_SILL d) (word (num ps 20 4))))

/-- The meaning of FIELD_DECODER_CONFIG. -/
def execFieldDecoderConfig (t : Nat) (p : Packet) (s : State) : Host.Outcome State Fault Refusal := command 0x7002 bodyFieldDecoderConfig t p s

end Sys2Proof.Machine
end

