-- ==== Sys2Proof/Machine/Decim.lean ====
section
/-!
DEFINITION. The decimation chain (04_decimation.md): codes and their correction, auto-ranging (02_front_end.md R69 to R71),
detectors, the delivery of output samples, and the commands of the DEC block.
-/

namespace Sys2Proof.Machine

open Reg Bits

/-- The 63-tap Hilbert transformer on the inputs of a detector, newest first, centred 31 back (Table 04-5). (DEDUCED, log entry 35). -/
def hilbert (x : Nat → Rat) : Rat := (List.range 31).foldl (fun y m => y + Config.hilbertTap (m + 1) * (x (30 - m) - x (32 + m))) 0

/-- One step of a detector's recursion (R136), in S32 LSB, squared for RMS; `mag` is the magnitude ENVELOPE takes. -/
def detNext (ty k : Nat) (x mag : Rat) (p : Rat) : Rat :=
  let a : Rat := 1 / 2 ^ k
  let ax := if x < 0 then -x else x
  match ty with
  | 0 => max ax (p - a * p)
  | 1 => p + a * (x * x - p)
  | _ => max mag (p - a * p)

/-- The value a detector shows (R136). -/
def detShown (ty : Nat) (v : Rat) : Nat :=
  let n := v.num.toNat
  let r := if ty = 1 then
      let q := isqrt (n / v.den)
      if q * q * v.den = n then q else q + (Config.roundUp n v.den).toNat
    else (roundQ v).toNat
  min r 0x7FFFFFFF

/-- An input sample of channel `c`'s detector, in internal units, at instant `t` (R136 to R138); before the first sample the DC blocker's
x[n-1] is 0. It answers the value it then shows, none while it settles. `fault` says that the sample carries SUSPECT_WIRE or OVERLOAD.
(DEDUCED, log entry 35). -/
def State.detSample (s : State) (c : Nat) (v : Int) (t : Nat) (fault : Bool) : Option Nat × State :=
  let d := s.det c
  let ty := s.fld (DEC_DET_CFG c) DEC_DET_CFG_TYPE
  let k := s.fld (DEC_DET_CFG c) DEC_DET_CFG_K
  let dc : Rat := ((signed 48 (unsigned 48 (v - d.prev)) : Int) : Rat) + (1 - 1 / 2 ^ 16) * d.dc
  let charge := s.chMode c == 1
  let y : Rat := (if charge then dc else (v : Rat))
  let recent := (roundQ y) :: d.recent
  let at_ := fun (i : Nat) => (((recent[i]?).getD 0 : Int) : Rat)
  let h := hilbert at_
  let q := at_ 31 * at_ 31 + h * h
  let mag : Rat := ((isqrt ((q.num.toNat * 2 ^ 32) / q.den) : Nat) : Rat) / 2 ^ 16
  let lsb : Rat := if s.chMode c = 5 then 1 else 256
  let value := detNext ty k (y / lsb) (mag / lsb) d.value
  let shown := detShown ty value
  let was := decide (0 < d.settle)
  let left := d.settle - 1
  let now_ := if was then none else some shown
  let s := s.onDet c fun x =>
    { value := value, prev := v, dc := if charge then dc else 0, settle := left, recent := recent.take 62, shown := (t, now_) :: x.shown }
  let s := (s.setFld (DEC_DET_VAL c) DEC_DET_VAL_VALUE shown).setFld (DEC_DET_VAL c) DEC_DET_VAL_SETTLING (b2n (decide (0 < left)))
  (now_, s.feedDetOutputs c shown was fault)

/-- A sample of signal `sig` (0 RAW, 1 STREAM, 2 HISTORY) of channel `c`, in internal units, reaches the detector, trigger
units and outputs that take it (R136; 07_panes_and_triggers.md R227; 08_field_ports_and_outputs.md R261, R267). -/
def State.feedSignal (s : State) (c sig : Nat) (v : Int) (t flags : Nat) : State :=
  let fault := bit flags fSuspectWire || bit flags fOverload
  let d := if s.on (DEC_DET_CFG c) DEC_DET_CFG_EN && s.fld (DEC_DET_CFG c) DEC_DET_CFG_SRC == sig then s.detSample c v t fault else (none, s)
  let lsb := (formatValue (s.chMode c) 1 v).1
  let s := d.2.feedUnits c sig lsb t d.1
  if sig = 2 then s else s.feedOutputs (sig + 1) c lsb fault

/-- An OVERLOAD span that ends one strobe before a hold grows to it; else a new one begins there. (DEDUCED, log entry 23). -/
def State.overloadAt (s : State) (c hold step : Nat) : State :=
  s.onCh c fun h =>
    let joins := fun (sp : Span) => sp.flag == fOverload && sp.to_ == some (hold - step)
    if h.spans.any joins then { h with spans := mapIf joins (fun sp => { sp with to_ := some hold }) h.spans }
    else { h with spans := h.spans ++ [⟨fOverload, hold, some hold⟩] }

/-- Range, scaled input and correction of code `q` of a channel mode held at `hold` (04_decimation.md, Stages in order): offsets and gains
of the channel and of the converter that made it. (DEDUCED, log entry 23). -/
def State.corrected (s : State) (c mode r hold : Nat) (q : Int) : Rat :=
  let b := c / 8
  let die := c / 128
  let relief := (s.ch c).spans.any fun sp => sp.flag == fRelief && sp.meets hold hold
  let conv := 16 * (if relief then 16 else b % 16)
  let off := s.calInt die (40 * (c % 128) + 8 + 2 * r) 2 + s.calInt (4 + die) conv 2
  let gf : Rat := 1 + (s.calInt die (40 * (c % 128) + 24 + 2 * r) 2 : Rat) / 2000000
  let gc : Rat := 1 + (s.calInt (4 + die) (conv + 2) 4 : Rat) / 2 ^ 24
  ((q : Rat) - (off : Rat) / 16) * gf * gc * ((fullScale mode r * 2 ^ 14 : Nat) : Rat)

/-- The range R69 moves a channel to from `t` upward. (DEDUCED, log entry 24). -/
def widen (beyond : Nat → Bool) (wide : Nat) : Nat → Nat
  | 0 => 0
  | t + 1 => if wide < t + 1 ∧ beyond (t + 1) then widen beyond wide t else t + 1

/-- The decision of R69 on a code `x` of a channel mode, scaled by the range it was held at in units of full scale × 2^-15, as the
converter delivers it (R84), and the episode of R71; `settling` says that it lies in a settling window. A switch comes at the first
strobe at least 2 clocks after that delivery. (DEDUCED, log entry 24). -/
def State.autoRange (s : State) (c mode : Nat) (x : Int) (hold : Nat) (settling : Bool) : State :=
  let h := s.ch c
  let b := c / 8
  let n := s.scanN b
  let fs := fun r => fullScale mode r * 2 ^ 15
  let at_ := s.strobeFrom b (hold + (14 + c % 8 + 2) * clk)
  let cfg := s.cfgAt c hold
  let idx := s.fld (AFE_CH_STAT c) AFE_CH_STAT_RANGE_NOW
  let wide := wfld cfg AFE_CH_CFG_RANGE_WIDE
  let fine := wfld cfg AFE_CH_CFG_RANGE_FINE
  let proj := x + 4 * (x - h.last.getD x)
  let beyond := fun r => decide (8 * x.natAbs > 7 * fs r) || decide (proj.natAbs > fs r)
  let calm := decide (8 * x.natAbs ≤ 7 * fs idx)
  let s := s.onCh c fun y =>
    { y with last := some x, episode := match y.episode with
      | some k => if calm then (if k + n ≥ 5120000 then none else some (k + n)) else some 0
      | none => none }
  if wfld cfg AFE_CH_CFG_AUTO = 0 || settling || mode = 4 then s
  else if beyond idx then
    let t := if wide < idx then widen beyond wide idx else idx
    let s := if t < idx then s.switchRange c t at_
      else if (s.ch c).episode.isSome then s
      else (s.onCh c fun y => { y with episode := some 0 }).issue 0x1005 [c, st64 (s.holdAt c hold)]
    s.onCh c fun y => { y with holdClocks := 0 }
  else if idx < fine ∧ 8 * x.natAbs < 3 * fs (idx + 1) then
    let k := h.holdClocks + n
    if k ≥ 5120000 then s.switchRange c (idx + 1) at_ else s.onCh c fun y => { y with holdClocks := k }
  else s.onCh c fun y => { y with holdClocks := 0 }

/-- The sample that replaces the `m`-th of a settling window, from the samples before its switch, newest first (Table 02-6). -/
def extrapolate (m : Nat) (l : List Rat) : Option Rat :=
  match l with
  | a :: b :: c :: d :: _ =>
    match m with
    | 0 => some (4 * a - 6 * b + 4 * c - d)
    | 1 => some (10 * a - 20 * b + 15 * c - 4 * d)
    | _ => some (20 * a - 45 * b + 36 * c - 10 * d)
  | _ => none

/-- The raw value of a code held at `hold` once range-change repair has had it: the corrected code, or in a settling window what the
four samples before the switch extrapolate to, which carries their OVERLOAD (02_front_end.md R70, R71). Where fewer than four stand
before the switch the value is open. (DEDUCED, log entry 23). -/
def State.repaired (s : State) (c mode r hold : Nat) (q : Int) : Rat × State :=
  match s.windowAt c hold with
  | none => (s.corrected c mode r hold q, s)
  | some (w, m) =>
    let before := ((s.ch c).raws.filter fun x => decide (x.hold < w)).take 4
    let loud := before.any fun x => x.overload || (s.ch c).spans.any fun sp => sp.flag == fOverload && sp.meets x.hold x.hold
    let s := if loud then s.overloadAt c hold (s.scanN (c / 8) * clk) else s
    match extrapolate m (before.map Raw.value) with
    | some y => (y, s)
    | none => let d := s.draw; ((((Config.replaced d.1).toInt * (fullScale mode (s.scaleAt c hold) : Int) : Int) : Rat), d.2)

/-- A raw sample in internal units of the scale range, before stitching (R114). -/
def State.internal (s : State) (c mode hold : Nat) (y : Rat) : Int := roundQ (y / ((max 1 (fullScale mode (s.scaleAt c hold)) : Nat) : Rat))

/-- The stitch accumulator at a strobe: where a reset lies between it and the strobe before, the step from the pre-reset level to the
level expected from the slope of the last samples is added (02_front_end.md R48, R49). (DEDUCED, log entry 25). -/
def State.stitched (s : State) (c mode hold step : Nat) : Int :=
  let h := s.ch c
  if !h.resets.contains (hold - step) then h.stitch
  else match h.raws with
    | [] => h.stitch
    | k :: rest =>
      let pre := s.internal c mode k.hold k.value
      let slope := match rest with
        | j :: _ => pre - s.internal c mode j.hold j.value
        | [] => 0
      wrap48 (h.stitch + pre - (Config.postReset slope).toInt)

/-- The correction stage on a code of channel `c` held at strobe `hold` (R112, R114): even strobes carry the sign +1 of R40, odd ones
-1 (log entry 23). In SWITCH mode the slot carries the comparator state, and an OFF input converts to 0 (02_front_end.md R39, R59). -/
def State.correction (s : State) (c mode hold step : Nat) (code : BitVec 16) : Int × State :=
  if mode = 0 then (0, s)
  else if mode = 5 then ((b2n (code != 0#16) : Nat), s)
  else
    let q : Int := if mode = 1 || (hold / max 1 step) % 2 == 0 then code.toInt else -code.toInt
    let r := s.rangeAt c hold
    let x := q * (fullScale mode r : Int)
    let cfg := s.cfgAt c hold
    let widest := if wfld cfg AFE_CH_CFG_AUTO = 1 then wfld cfg AFE_CH_CFG_RANGE_WIDE else r
    let clipped := (code.toInt == 32767 || code.toInt == -32768) && r == widest
    let s := if clipped then s.overloadAt c hold step else s
    let y := s.repaired c mode r hold q
    let s := y.2.autoRange c mode x hold (s.windowAt c hold).isSome
    let stitch := s.stitched c mode hold step
    let lvl := [(1, 2), (5, 8), (3, 4)].getD (wfld cfg AFE_CH_CFG_RESET_LVL) (5, 8)
    let due := mode == 1 && ((s.ch c).resets.head?.all fun k => decide (k < hold)) && decide (x.natAbs * lvl.2 > lvl.1 * fullScale mode r * 2 ^ 15)
    (wrap48 (s.internal c mode hold y.1 + stitch),
     s.onCh c fun h => { h with raws := (⟨hold, y.1, clipped⟩ :: h.raws).take 8, stitch := stitch, resetDue := h.resetDue || due })

/-- What the correction stage keeps of the samples before a strobe: after a pause of the converter it starts from cleared state
(03_conversion.md Table 03-4), and a change of MODE begins a new sum of resets. (DEDUCED, log entry 25). -/
def State.chainStart (s : State) (c mode hold step : Nat) : State :=
  match (s.ch c).outs.head? with
  | none => s
  | some e =>
    if s.modeAt c e.1 != mode then s.onCh c fun h => { h with raws := [], last := none, holdClocks := 0, episode := none, stitch := 0, resetDue := false }
    else if e.1 + step ≠ hold then s.onCh c fun h => { h with raws := [], last := none, holdClocks := 0 }
    else s

/-- A code of channel `c` reaches the chain (RAW_CODE_ARRIVAL): its strobe lies (22 + i) clocks back (03_conversion.md R84), and is
processed as the bay and the channel were set then. (DEDUCED, log entry 25). -/
def State.rawCode (s : State) (c : Nat) (code : BitVec 16) : State :=
  let b := c / 8
  let f := s.now - (22 + c % 8) * clk
  let n := s.scanAt b f
  let step := n * clk
  let hold := f / step * step
  let mode := s.modeAt c hold
  if s.scanHolds || decide (s.now < (22 + c % 8) * clk) || !s.convAt b hold || decide (c % 8 ≥ n) || (s.ch c).outs.head?.any fun e => decide (hold ≤ e.1) then s
  else
    let s := s.chainStart c mode hold step
    let v := s.correction c mode hold step code
    let s := v.2.onCh c fun h => { h with outs := (hold, v.1) :: h.outs }
    s.feedSignal c 0 v.1 (s.holdAt c hold) (spanFlags (s.ch c).spans step hold hold hold)

/-- The meaning of RAW_CODE_ARRIVAL. (DESIGN CHOICE, log entry 67). -/
def execRawCodeArrival (t : Nat) (c : Fin 512) (code : BitVec 16) (s : State) : Host.Outcome State Fault Refusal :=
  event t (State.rawCode · c code) s

/-- The opening of a window and its end, in 2^-80 s (03_conversion.md R87). -/
def windowOf (w : Nat × Word) : Nat × Nat :=
  let a := w.1 * wfld w.2 CONV_BAY_BURST_PERIOD
  (ceilDiv (a * 2 ^ 80) 1000, ceilDiv ((10 * a + wfld w.2 CONV_BAY_BURST_LEN) * 2 ^ 80) 10000)

/-- The first sample of a window that the bay's converter gives the whole support of (03_conversion.md R88). -/
def State.burstFirst (s : State) (c rate : Nat) (grid : Bool) (w : Nat × Word) : Nat :=
  let since := ((s.bayOf (c / 8)).convs.find? fun e => !e.2).elim 0 Prod.fst
  max (s.idxAt c rate grid (windowOf w).1) (s.firstFrom c rate grid since)

/-- In a BURST bay the samples of a window alone are delivered, from its first on: the index due after `next` at instant `T`, none outside
every window (03_conversion.md R88, R90). -/
def State.burstDue (s : State) (c rate : Nat) (grid : Bool) (next T : Nat) : Option Nat :=
  if s.bmode (c / 8) ≠ 2 then some next else (s.burstOf (c / 8) T).map fun w => max next (s.burstFirst c rate grid w)

/-- What is left of a stream's ended course, up to its last complete sample (R121). -/
def State.tailOut (s : State) (c idx : Nat) (t : Tail) : State :=
  let x : Course := ⟨t.cfg, t.mode, t.unit⟩
  let v := s.outValue c x.mode x.rate x.grid idx
  let s := s.streamSample c x idx (s.sampleFlags x.mode c x.rate x.grid idx) v (idx == t.last)
  s.onStrm c fun y => { y with next := idx + 1, tail := if idx ≥ t.last then none else y.tail }

/-- An output sample of the stream branch (R121, R204): a running stream takes each in turn; the branch feeds its signal whether or not
the stream is enabled, once its support lies after its start (R136, R138). -/
def State.streamOut (s : State) (c idx : Nat) : State :=
  let x := s.course c
  let st := s.strm c
  match st.tail.filter fun t => idx == st.next && decide (idx ≤ t.last) && s.supportIn c t.mode (wfld t.cfg DEC_CH_CFG_RATE) (wfld t.cfg DEC_CH_CFG_GRID == 1) idx with
  | some t => s.tailOut c idx t
  | none =>
    let T := s.sampleAt c x.rate x.grid idx
    let running := s.on (DEC_CH_STAT c) DEC_CH_STAT_RUNNING
    let next := if running then st.next else max st.fed (s.firstFrom c x.rate x.grid st.waitFrom)
    if s.burstDue c x.rate x.grid next T ≠ some idx || !s.supportIn c x.mode x.rate x.grid idx then s
    else
      let v := s.outValue c x.mode x.rate x.grid idx
      let fl := s.sampleFlags x.mode c x.rate x.grid idx
      let s := if running then ((s.streamSample c x idx fl v false).onStrm c fun y => { y with next := idx + 1 }).pmc 0x301 (c / 8) 1 else s
      (s.onStrm c fun y => { y with fed := idx + 1 }).feedSignal c 1 v T fl

/-- An output sample of the bay's history tap (R133; 07_panes_and_triggers.md R214): of an OFF input it is 0. -/
def State.historyOut (s : State) (c idx : Nat) : State :=
  let b := c / 8
  let rate := s.histRate b
  let mode := s.chMode c
  let next := max (s.ch c).histNext (s.firstFrom c rate false (s.ch c).histFrom)
  if !s.on (DEC_BAY_STAT b) DEC_BAY_STAT_HIST_RUN || idx != next || !s.supportIn c mode rate false idx then s
  else
    let v := s.outValue c mode rate false idx
    (s.keepHistory c idx v).feedSignal c 2 v (s.sampleAt c rate false idx) (s.sampleFlags mode c rate false idx)

/-- An output sample of a pane tap: kept in the ring before a trigger, and delivered to the open panes (R134;
07_panes_and_triggers.md R219, R223). -/
def State.tapOut (s : State) (c slot idx : Nat) : State :=
  let b := c / 8
  match s.acq.taps.find? fun t => t.bay == b && t.slot == slot with
  | none => s
  | some tap =>
    let mode := s.chMode c
    let mine := fun (o : Kept) => o.ch == c && o.tap == slot
    let ring := s.cap.rings.filter mine
    let next := max (ring.getLast?.elim 0 fun k => k.idx + 1) (s.firstFrom c tap.rate tap.grid tap.since)
    if idx != next || !s.supportIn c mode tap.rate tap.grid idx then s
    else
      let k : Kept := { ch := c, tap := slot, idx := idx, t := s.sampleAt c tap.rate tap.grid idx, v := s.outValue c mode tap.rate tap.grid idx,
                        flags := s.sampleFlags mode c tap.rate tap.grid idx, tqByte := s.tqByte tap.grid, gen := 0, mode := mode,
                        unit := s.unitOf c, step := tap.stepped.contains c }
      let s := s.onAcq fun a => { a with taps := mapIf (fun t => t.bay == b && t.slot == slot) (fun t => { t with stepped := t.stepped.filter (· != c) }) a.taps }
      let s := s.onCap fun x => { x with rings := (if ring.length ≥ 65536 then x.rings.eraseP mine else x.rings) ++ [k] }
      (s.pmc 0x301 b 1).feedPanes tap.engines k

/-- OUTPUT_SAMPLE_DELIVERED (R121): a sample whose support has been converted. (DEDUCED, log entry 35). -/
def State.outputSample (s : State) (c : Nat) (br : Branch) (idx : Nat) : State :=
  if c % 8 ≥ s.scanN (c / 8) then s
  else match br with
    | .stream => s.streamOut c idx
    | .history => s.historyOut c idx
    | .tap0 => s.tapOut c 0 idx
    | .tap1 => s.tapOut c 1 idx

/-- The meaning of OUTPUT_SAMPLE_DELIVERED. (DESIGN CHOICE, log entry 67). -/
def execOutputSampleDelivered (t : Nat) (c : Fin 512) (br : Branch) (idx : Nat) (s : State) : Host.Outcome State Fault Refusal :=
  event t (fun s => s.outputSample c br idx) s

/-- STREAM_START of channel `c`: a waiting stream whose first sample has its full support (R132, R142). In a BURST bay that is
the first such sample in a window (03_conversion.md R88). A detector on it starts with it (R138). -/
def State.streamStart (s : State) (c : Nat) : State :=
  let b := c / 8
  let rate := s.chRate c
  let grid := s.chGrid c
  let k0 := s.firstIdx c
  let k := match (s.bayOf b).window.filter fun _ => s.bmode b == 2 with
    | some w => max k0 (s.burstFirst c rate grid w)
    | none => k0
  let T := s.sampleAt c rate grid k
  if !s.on (DEC_CH_STAT c) DEC_CH_STAT_WAITING || !s.live c || (s.burstDue c rate grid k T).isNone
      || decide (s.now < s.centre c rate grid k + s.halfSupport c rate grid) then s
  else
    let s := s.dropTail c
    let s := ((s.setFld (DEC_CH_STAT c) DEC_CH_STAT_WAITING 0).setFld (DEC_CH_STAT c) DEC_CH_STAT_RUNNING 1).onStrm c fun x =>
      { x with next := k, fed := k, told := true }
    let s := s.issue 0x3001 [c, k, st64 T, s.fld (DEC_CH_STAT c) DEC_CH_STAT_SCALE]
    if s.fld (DEC_DET_CFG c) DEC_DET_CFG_SRC = 1 then s.restartDet c else s

/-- The meaning of STREAM_START. -/
def execStreamStart (t : Nat) (c : Fin 512) (s : State) : Host.Outcome State Fault Refusal := event t (State.streamStart · c) s

/-- HIST_RATE's conditions in a bay of scan setting `n` (R133). (DEDUCED, log entry 35). -/
def histOk (n rate : Nat) : Bool := rateOk rate && decide (rateA rate ≥ 1) && decide (102400000 ≤ 204800 * outClocks n rate)

/-- The checks of a channel's chain word (R126, R139). -/
def State.chainChecks (s : State) (c : Nat) (w : Word) : List (Option Nat) :=
  let rate := wfld w DEC_CH_CFG_RATE
  [need (rateOk rate && wfld w DEC_CH_CFG_FORMAT != 0 && !(wfld w DEC_CH_CFG_GRID == 1 && rateA rate == 0)) stBAD_PARAM,
   need (!(wfld w DEC_CH_CFG_FORMAT == 3 && s.chMode c == 1)) stBAD_STATE,
   need (!(s.chMode c == 3 && aboveExc (s.scanCfg (c / 8)) rate (s.fld (AFE_BAY_EXC (c / 8)) AFE_BAY_EXC_DIV))) stBAD_STATE]

/-- A channel's chain takes a configuration: a stream in force ends and restarts, and a detector on it restarts (R138, R139). -/
def State.setChain (s : State) (c : Nat) (w : Word) : State :=
  if w = s.rd (DEC_CH_CFG c) then s
  else
    let live := s.live c
    let s := if live then s.endStream c 3 else s
    let s := (s.wr (DEC_CH_CFG c) w).onStrm c fun x => { x with waitFrom := s.now, fed := 0, stepped := false }
    let s := if s.fld (DEC_DET_CFG c) DEC_DET_CFG_SRC = 1 then s.restartDet c else s
    if live then s.restartStream c s.now 0 else s

/-- The history fields of a bay are set: a change breaks its history and re-partitions the area (07_panes_and_triggers.md R215,
R216); the detectors on it restart. -/
def State.setHist (s : State) (b en rate : Nat) : State :=
  if en = s.fld (DEC_BAY_CFG b) DEC_BAY_CFG_HIST_EN ∧ rate = s.histRate b then s
  else
    let s := s.breakHistory b 3
    let s := ((s.setFld (DEC_BAY_CFG b) DEC_BAY_CFG_HIST_EN en).setFld (DEC_BAY_CFG b) DEC_BAY_CFG_HIST_RATE rate)
    let s := (bayChans b).foldl (fun s c => s.onCh c fun h => { h with histNext := 0 }) s
    let s := (bayChans b).foldl (fun s c => if s.fld (DEC_DET_CFG c) DEC_DET_CFG_SRC = 2 then s.restartDet c else s) s
    (s.showHist b).askRepart

/-- DEC_LOAD shows the load in force (R135). -/
def State.showLoad (s : State) : State := s.setFld DEC_LOAD DEC_LOAD_LOAD (loadKs s.load)

/-- CHAIN_CONFIG (0x3001), R139. -/
def bodyChainConfig : Body := fun _ ps s =>
  let first := num ps 0 2
  let count := num ps 2 2
  let w := word (num ps 4 4)
  let apply := bit (num ps 8 1) 0
  let bw := word (num ps 12 4)
  let chans := (List.range count).map fun i => first + i
  let bays := if apply then (chans.map (· / 8)).eraseDups else []
  let mine := fun c => decide (first ≤ c) && decide (c < first + count)
  let rate := fun c => if mine c then wfld w DEC_CH_CFG_RATE else s.chRate c
  checked s
    ([need (decide (1 ≤ count) && decide (first + count ≤ 512) && bits w.toNat 12 20 == 0 && bits w.toNat 9 1 == 0) stBAD_PARAM,
      need (decide (num ps 8 1 < 2) && zeroAt ps 9 3 && (!apply || (bits bw.toNat 17 3 == 0 && bits bw.toNat 8 8 == 0))) stBAD_PARAM,
      need (bays.all fun b => histOk (s.scanCfg b) (wfld bw DEC_BAY_CFG_HIST_RATE)) stBAD_PARAM,
      need (s.loadFits rate s.streaming s.acq.taps) stNO_RESOURCE] ++ chans.flatMap fun c => s.chainChecks c w)
    (let s := bays.foldl (fun s b => s.setHist b (wfld bw DEC_BAY_CFG_HIST_EN) (wfld bw DEC_BAY_CFG_HIST_RATE)) s
     ok (chans.foldl (fun s c => s.setChain c w) s).showLoad)

/-- The meaning of CHAIN_CONFIG. -/
def execChainConfig (t : Nat) (p : Packet) (s : State) : Host.Outcome State Fault Refusal := command 0x3001 bodyChainConfig t p s

/-- The checks of a detector's word on channel `c` (R136, R140). -/
def State.detChecks (s : State) (c : Nat) (w : Word) : List (Option Nat) :=
  [need (decide (wfld w DEC_DET_CFG_K ≤ 24) && wfld w DEC_DET_CFG_TYPE != 3 && wfld w DEC_DET_CFG_SRC != 3) stBAD_PARAM,
   need (wfld w DEC_DET_CFG_SRC != 2 || s.histEn (c / 8)) stBAD_STATE]

/-- DETECTOR_CONFIG (0x3002), R138, R140. -/
def bodyDetectorConfig : Body := fun _ ps s =>
  let first := num ps 0 2
  let count := num ps 2 2
  let w := word (num ps 4 4)
  let chans := (List.range count).map fun i => first + i
  checked s
    ([need (decide (1 ≤ count) && decide (first + count ≤ 512) && bits w.toNat 21 6 == 0 && bits w.toNat 0 16 == 0) stBAD_PARAM]
      ++ chans.flatMap fun c => s.detChecks c w)
    (ok (chans.foldl (fun s c => (s.wr (DEC_DET_CFG c) w).restartDet c) s))

/-- The meaning of DETECTOR_CONFIG. -/
def execDetectorConfig (t : Nat) (p : Packet) (s : State) : Host.Outcome State Fault Refusal := command 0x3002 bodyDetectorConfig t p s

/-- A stream is enabled with the CMP, PRIO and REC_PERIOD of a word, and is WAITING until it starts; one already enabled takes them from
its next record (R132, R141). -/
def State.enableStream (s : State) (c : Nat) (w : Word) : State :=
  let was := s.streaming c
  let s := (s.wr (DEC_STREAM c) (setBits w DEC_STREAM_EN 1)).onStrm c fun x => if was then x else { x with stepped := false, told := false }
  if was || decide (c ≥ 512) then s
  else if s.bayReady (c / 8) then s.awaitStream c s.now 0 false
  else s.setFld (DEC_CH_STAT c) DEC_CH_STAT_WAITING 1

/-- A stream is disabled: it ends at its last complete output sample (R141). -/
def State.disableStream (s : State) (c : Nat) : State :=
  let s := (s.endStream c 0).setFld (DEC_STREAM c) DEC_STREAM_EN 0
  if c < 512 then s.setFld (DEC_CH_STAT c) DEC_CH_STAT_WAITING 0 else s

/-- The checks of enabling the streams of a range with their words (R39, R135, R141; 01_architecture.md R18). -/
def State.enableChecks (s : State) (chans : List Nat) (w : Word) : List (Option Nat) :=
  let next := chans.foldl (fun s c => s.setFld (DEC_STREAM c) DEC_STREAM_EN 1) s
  [need (wfld w DEC_STREAM_REC_PERIOD != 0) stBAD_PARAM, need (chans.all fun c => decide (c ≥ 512) || s.chMode c != 0) stBAD_STATE,
   need s.address.isSome stBAD_STATE, need (next.loadFits s.chRate next.streaming s.acq.taps) stNO_RESOURCE]

/-- STREAM_ENABLE (0x3003), R141. -/
def bodyStreamEnable : Body := fun _ ps s =>
  let first := num ps 0 2
  let count := num ps 2 2
  let w := word (num ps 8 4)
  let en := bit (num ps 4 1) 0
  let chans := (List.range count).map fun i => first + i
  checked s
    ([need (decide (1 ≤ count) && decide (first + count ≤ 592) && decide (num ps 4 1 < 2) && zeroAt ps 5 3 && bits w.toNat 16 12 == 0)
        stBAD_PARAM] ++ if en then s.enableChecks chans w else [])
    (let s := (if en then chans.foldl (fun s c => s.enableStream c w) s else chans.foldl (fun s c => s.disableStream c) s).showLoad
     .reply s stOK (le 4 (loadKs s.load)))

/-- The meaning of STREAM_ENABLE. -/
def execStreamEnable (t : Nat) (p : Packet) (s : State) : Host.Outcome State Fault Refusal := command 0x3003 bodyStreamEnable t p s

end Sys2Proof.Machine
end

