-- ==== Sys2Proof/Machine/Trim.lean ====
section
/-!
DEFINITION. Calibrated values (16_calibration.md): groups and the fields of their records, repeat and agree, values in
force, the end of a run, and the relief takeover of a CONV run (03_conversion.md R94 to R98).
-/

namespace Sys2Proof.Machine

open Reg Bits

/-- Item and index of a group (Table 16-1). -/
def calItem (g : Nat) : Nat × Nat :=
  if g < 4 then (0, g) else if g < 8 then (1, g - 4) else if g < 16 then (2, g - 8) else if g < 24 then (3, g - 16)
  else if g < 28 then (4, g - 24) else (5, 0)

/-- The group of an item and index, and how many indices an item has. -/
def calGroup (item idx : Nat) : Nat := [0, 4, 8, 16, 24, 28].getD item 28 + idx
def calCount (item : Nat) : Nat := [4, 4, 8, 8, 4, 1].getD item 0

/-- Bytes of one entry and number of entries of an item's payload (Table 16-5). -/
def calEntry (item : Nat) : Nat × Nat := [(40, 128), (16, 17), (2, 132), (12, 4), (8, 16), (8, 1)].getD item (8, 1)

/-- A field of a calibrated entry: bytes, signed, the difference at which passes agree (`none` where the manual gives
none), least and greatest value. -/
structure CalField where
  width : Nat
  agree : Option Nat
  low : Int
  high : Int
  deriving DecidableEq, Repr

/-- A signed or unsigned field of `n` bytes. -/
def sField (n : Nat) (agree : Option Nat) : CalField := ⟨n, agree, -(2 ^ (8 * n - 1) : Nat), (2 ^ (8 * n - 1) : Nat) - 1⟩
def uField (n : Nat) (agree : Option Nat) : CalField := ⟨n, agree, 0, (2 ^ (8 * n) : Nat) - 1⟩

/-- The field at byte `f` of entry `e` of an item (Table 16-5, R495): offsets agree within 2 LSB of a 16-bit code, gains within
20 ppm, taps within one. -/
def calField (item e f : Nat) : Option CalField :=
  match item with
  | 0 =>
    if f = 0 then some ⟨1, some 1, 0, 127⟩
    else if f = 1 ∨ f = 2 then some ⟨1, some 1, -31, 31⟩
    else if f = 6 then some (sField 2 none)
    else if 8 ≤ f ∧ f < 24 ∧ f % 2 = 0 then some (sField 2 (some 32))
    else if 24 ≤ f ∧ f < 40 ∧ f % 2 = 0 then some (sField 2 (some 40))
    else none
  | 1 => if f = 0 then some (sField 2 (some 32)) else if f = 2 then some (sField 4 (some 335)) else none
  | 2 => if f ≠ 0 ∨ e > 130 then none else if e < 128 then some (uField 2 (some 256)) else if e = 128 then some (sField 2 none) else some (uField 2 none)
  | 3 => if f % 2 = 0 ∧ f < 12 then some (uField 2 (some 1)) else none
  | 4 => if f = 0 then some (sField 4 (some 335)) else if f = 4 then some ⟨2, some 1, 0, 4095⟩ else none
  | _ => if f = 0 then some (sField 4 (some 128)) else if f = 4 then some (sField 4 (some 335)) else none

/-- The payload of a group's values in force. -/
def State.calPayload (s : State) (g : Nat) : List Byte :=
  let e := calEntry (calItem g).1
  (List.range (e.1 * e.2)).map fun i => s.calByteAt g i

/-- The temperature of a transom result, in 1/256 °C (Table 03-6). -/
def codeTemp (code : Nat) : Int := roundQ ((code : Rat) * 320000 / 262144 - 76800)

/-- The temperature of a group's run (Table 16-2; FRONT by its die, LANE by the digital die). (DEDUCED, log entry 32). -/
def State.calTemp (s : State) (g : Nat) : Int :=
  let src := match (calItem g).1 with
    | 0 | 1 | 4 => 0x10 + (calItem g).2
    | 2 | 3 => 0x14
    | _ => 0x10
  codeTemp (s.fld (CONV_TRESULT src) CONV_TRESULT_CODE)

/-- The record of a group's values, all defaults where it has none. -/
def State.calRec (s : State) (g : Nat) : CalRec :=
  match s.cal.values.find? fun e => e.1 == g with
  | some e => e.2
  | none => { valid := false, generation := 0, st := 0, temp := 0, quality := 0, payload := s.calPayload g }

/-- Put bytes into a group's values in force. -/
def State.calPut (s : State) (g off : Nat) (bs : List Byte) : State :=
  let r := s.calRec g
  s.onCal fun c => { c with values := Tab.insert c.values g { r with payload := r.payload.take off ++ bs ++ r.payload.drop (off + bs.length) } }

/-- Change the run of a group. -/
def State.onRun (s : State) (g : Nat) (f : CalRun → CalRun) : State :=
  s.onCal fun c => { c with running := mapIf (fun r => r.g == g) f c.running }

/-- A rejection (R496): cause 1 disagreement, 2 out of range, 3 relief mismatch. (DEDUCED, log entry 32). -/
def State.calReject (s : State) (g element cause : Nat) (diff : Int) : State :=
  let it := calItem g
  let s := (s.setBit CAL_STAT CAL_STAT_REJECT it.1).bump CAL_COUNT CAL_COUNT_REJECTS
  (s.onRun g fun r => { r with worst := max r.worst cause }).issue 0xF002 [it.1, it.2, element, cause, item diff]

/-- One measured value (R495): agreed and in its field it comes into force as the mean of its passes, ties to the lower; a
vernier value as the mean of its last eight (06_interval_unit.md R181). (DEDUCED, log entry 32). -/
def State.calValue (s : State) (g : Nat) (v : CalValue) : State :=
  let it := calItem g
  match calField it.1 v.element v.field with
  | none => s
  | some f =>
    if v.element ≥ (calEntry it.1).2 then s
    else
      let d := v.pass1 - v.pass2
      let m := (v.pass1 + v.pass2) / 2
      let agree := f.agree.getD (Config.calTolerance it.1 (if it.1 = 2 then v.element else v.field)).toNat
      if d.natAbs > agree then s.calReject g v.element 1 d
      else if m < f.low ∨ f.high < m then s.calReject g v.element 2 d
      else
        let off := (calEntry it.1).1 * v.element + v.field
        let bytes := fun (x : Int) => leI f.width x
        if it.1 = 2 ∧ v.element < 128 then
          let key := 256 * it.2 + v.element
          let l := (m :: Tab.get [] s.cal.tables key).take 8
          let s := s.onCal fun c => { c with tables := Tab.insert c.tables key l }
          s.calPut g off (bytes (roundQ ((sumI l : Int) / (l.length : Int) : Rat)))
        else s.calPut g off (bytes m)

/-- The trim of channel `c` is set; it holds from the bay's next strobe (03_conversion.md R82). -/
def State.setTrim (s : State) (c v : Nat) : State :=
  let old := s.fld (CONV_TRIM c) CONV_TRIM_TRIM
  (s.setFld (CONV_TRIM c) CONV_TRIM_TRIM v).onCh c fun h => if v % 128 = old then h else { h with trims := (s.strobeFrom (c / 8) s.now, old) :: h.trims }

/-- Values that registers show: TRIM of a FRONT group, PHASE_TRIM of an EXC group (R497). -/
def State.loadTrims (s : State) (g : Nat) : State :=
  if g < 4 then (List.range 128).foldl (fun s i => s.setTrim (128 * g + i) (s.calNum g (40 * i) 1)) s
  else if 24 ≤ g ∧ g < 28 then
    (List.range 16).foldl (fun s i => s.setFld (DEC_BAY_CFG (16 * (g - 24) + i)) DEC_BAY_CFG_PHASE_TRIM (s.calNum g (8 * i + 4) 2)) s
  else s

/-- CAL_STAT.RUNNING follows the runs. -/
def State.showRunning (s : State) : State :=
  s.setFld CAL_STAT CAL_STAT_RUNNING ((List.range 6).foldl (fun n i => if s.cal.running.any fun r => (calItem r.g).1 == i then n + 2 ^ i else n) 0)

/-- A group's run begins (R493, R500). -/
def State.calBegin (s : State) (g : Nat) : State :=
  let r : CalRun := { g := g, since := s.now, temp := s.calTemp g, noStore := s.cal.ops.any fun o => o.noStore && o.left.contains g, worst := 0,
                      before := s.calRec g }
  ((s.onCal fun c => { c with queued := c.queued.filter (· != g), running := c.running ++ [r] }).setFld (CAL_GRP_STAT g) CAL_GRP_STAT_PENDING 0).showRunning

/-- A CAL_RUN hears that a group has ended; after its last group the report goes out (R500). -/
def State.calOpDone (s : State) (g outcome quality : Nat) : State :=
  (s.cal.ops.filter fun o => o.left.contains g).foldl (fun s o =>
    let o' : CalOp := { o with left := o.left.filter (· != g), done := o.done ++ [(g, outcome, quality)] }
    if o'.left.isEmpty then
      (s.onCal fun c => { c with ops := c.ops.filter fun x => x.caller != o.caller }).report o.caller stOK
        (le 1 o'.done.length ++ le 3 0 ++ o'.done.flatMap fun d => le 1 (calItem d.1).2 ++ le 1 d.2.1 ++ le 2 d.2.2)
    else s.onCal fun c => { c with ops := mapIf (fun x => x.caller == o.caller) (fun _ => o') c.ops }) s

/-- A group's run ends (R493, R496, R499, R504): unless it did not complete, its record takes the next generation and goes to
NVM, first to the staging slot. -/
def State.calFinish (s : State) (g quality : Nat) : State :=
  match s.cal.running.find? fun r => r.g == g with
  | none => s
  | some r =>
    let it := calItem g
    let old := s.calRec g
    let new : CalRec := { old with valid := true, generation := (old.generation + 1) % 65536, st := s.st, temp := r.temp, quality := quality % 65536 }
    let n := (Tab.get (0, 0) s.cal.retryAt g).2
    let retry := if r.worst = 0 then (0, 0) else if n < 3 then (s.now + fineMs 60000, n + 1) else (0, 0)
    let s := (s.onCal fun c => { c with
      running := c.running.filter fun x => x.g != g, values := Tab.insert c.values g new, retryAt := Tab.set (0, 0) c.retryAt g retry,
      lastRun := Tab.insert c.lastRun g s.now, lastCommit := Tab.insert c.lastCommit g (s.now, r.temp) }).showRunning
    let s := if r.noStore || s.memFailed 3 then s
      else s.onNvm fun n => { n with calStaging := some (g, new), calStore := Tab.insert n.calStore g new }
    let a := CAL_GRP_STAT g
    let s := (((s.setFld a CAL_GRP_STAT_TEMP (unsigned 16 r.temp)).setFld a CAL_GRP_STAT_OUTCOME r.worst).setFld a CAL_GRP_STAT_VALID 1).setFld a CAL_GRP_STAT_AGE_MIN 0
    let s := (s.setFld (CAL_GRP_QUAL g) CAL_GRP_QUAL_QUALITY new.quality).setFld (CAL_GRP_QUAL g) CAL_GRP_QUAL_GENERATION new.generation
    let s := (s.loadTrims g).bump CAL_COUNT CAL_COUNT_RUNS
    (s.issue 0xF001 [it.1, it.2, r.worst, new.quality, item r.temp]).calOpDone g r.worst new.quality

/-- Bay `i` of die `k`. -/
def dieBay (k i : Nat) : Nat := 16 * k + i

/-- The longest half support of a bay's channels that are not OFF, in clocks. -/
def State.bayHalf (s : State) (b : Nat) : Nat :=
  (bayChans b).foldl (fun m c => if s.chMode c = 0 || s.chMode c = 5 then m else max m (groupDelay (s.scanN b) (s.chRate c) (s.chGrid c))) 0

/-- Does a bay's converter calibrate while idle: OFF or powered down, or asleep at least 6 ms between windows (R98)? -/
def State.bayIdle (s : State) (b : Nat) : Bool :=
  let p := s.fld (CONV_BAY_BURST b) CONV_BAY_BURST_PERIOD
  let l := s.fld (CONV_BAY_BURST b) CONV_BAY_BURST_LEN
  !s.bayRuns b || (s.bmode b == 2 && decide (102400 * p ≥ 10240 * l + 2 * s.bayHalf b + 614400))

/-- The next takeover of a rotation begins, if one may: the lowest bay left that is not idle (R94, R96; 16_calibration.md
R488). -/
def State.nextTakeover (s : State) (k : Nat) : State :=
  let t := s.takeover k
  if t.bay.isSome || t.reliefDue then s
  else match t.left.find? fun i => decide (i < 16) && !s.bayIdle (dieBay k i) with
    | none => s
    | some i =>
      let s := s.onTakeover k fun t => { t with bay := some i, step := 1, since := s.strobeFrom (dieBay k i) s.now, prev := [] }
      (s.setFld (CONV_RELIEF k) CONV_RELIEF_ACTIVE 1).setFld (CONV_RELIEF k) CONV_RELIEF_BAY (dieBay k i)

/-- The sampled channels of a bay. -/
def State.sampled (s : State) (b : Nat) : List Nat := (List.range (s.scanN b)).map fun i => 8 * b + i

/-- A takeover ends: the bay converter converts again from the next strobe. (DEDUCED, log entry 32). -/
def State.endTakeover (s : State) (k : Nat) : State :=
  match (s.takeover k).bay with
  | none => s
  | some i =>
    let b := dieBay k i
    let s := (s.sampled b).foldl (fun s c => s.closeSpan c fRelief (s.strobeFrom b s.now - 1)) s
    let s := ((s.setFld (CONV_RELIEF k) CONV_RELIEF_ACTIVE 0).setFld (CONV_BAY_STAT b) CONV_BAY_STAT_RELIEF 0).setFld (CONV_BAY_STAT b)
      CONV_BAY_STAT_CAL_BUSY 0
    s.onTakeover k fun t => { t with bay := none, step := 0, prev := [] }

/-- The coefficients of the bay under takeover return to what they were (R96, R97). -/
def State.restoreBay (s : State) (k : Nat) : State :=
  let t := s.takeover k
  match t.bay with
  | some i => if t.prev.isEmpty then s else s.calPut (4 + k) (16 * i) t.prev
  | none => s

/-- A takeover is broken off; its bay stays to be calibrated (R97). -/
def State.breakTakeover (s : State) (b : Nat) : State :=
  if (s.takeover (b / 16)).bay = some (b % 16) then (s.restoreBay (b / 16)).endTakeover (b / 16) else s

/-- The input with the largest mean difference. -/
def worstDiff (l : List Int) : Nat × Int :=
  ((List.range l.length).zip l).foldl (fun b e => if e.2.natAbs > b.2.natAbs then e else b) (0, l.headD 0)

/-- RELIEF_COMPARE_END of die `k`, with the mean differences of the 64 strobes by input, in 1/16 LSB (Table 03-5, R96). -/
def State.reliefCompare (s : State) (k : Nat) (diffs : List Int) : State :=
  let t := s.takeover k
  match t.bay with
  | none => s
  | some i =>
    let b := dieBay k i
    if (t.step != 1 && t.step != 5) || decide (s.now < t.since + 64 * s.scanN b * clk) then s
    else
      let w := worstDiff diffs
      let s := s.setFld (CONV_RELIEF k) CONV_RELIEF_LAST_DIFF (unsigned 8 (satI 8 w.2))
      let bad := decide (w.2.natAbs > 32)
      let s := if bad then
          ((s.bump (CONV_RELIEF k) CONV_RELIEF_MISMATCH_COUNT).issue 0x2001 [b, if t.step = 1 then 2 else 5, w.1, item w.2]).calReject (4 + k) i 3 w.2
        else s
      let gone := fun (x : Takeover) => { x with left := x.left.filter (· != i) }
      if t.step = 1 then
        if bad then ((s.endTakeover k).onTakeover k fun x => { gone x with reliefDue := true }).nextTakeover k
        else
          let s := (s.sampled b).foldl (fun s c => s.openSpan c fRelief (s.strobeFrom b s.now)) s
          let s := (s.setFld (CONV_BAY_STAT b) CONV_BAY_STAT_RELIEF 1).setFld (CONV_BAY_STAT b) CONV_BAY_STAT_CAL_BUSY 1
          (s.pmc 0x201 k 1).onTakeover k fun x => { x with step := 4, since := s.now }
      else
        let s := if bad then s.restoreBay k else s
        ((s.endTakeover k).onTakeover k gone).nextTakeover k

/-- The meaning of RELIEF_COMPARE_END. -/
def execReliefCompareEnd (t : Nat) (k : Fin 4) (diffs : List Int) (s : State) : Host.Outcome State Fault Refusal :=
  event t (fun s => s.reliefCompare k diffs) s

/-- BAY_CALIBRATION_DONE on die `k`: the bay under takeover rejoins the scan with its new coefficients; idle bays, and the
relief converter when it is its turn, take theirs (R94, R98; 16_calibration.md R488, R497). -/
def State.bayCalibrated (s : State) (k : Nat) (values : List CalValue) : State :=
  if !(s.cal.running.any fun r => r.g == 4 + k) then s
  else
    let t := s.takeover k
    let els := (values.map CalValue.element).eraseDups
    let relief := els.contains 16 && t.bay.isNone && (t.reliefDue || t.left == [16])
    let idle := els.filter fun e => decide (e < 16) && t.left.contains e && t.bay != some e && s.bayIdle (dieBay k e)
    let taken := match t.bay with
      | some i => t.step == 4 && (els.contains i || values.isEmpty)
      | none => false
    let takes := fun (v : CalValue) => (taken && t.bay == some v.element) || idle.contains v.element || (relief && v.element == 16)
    let prev := match t.bay with
      | some i => bytesAt (s.calPayload (4 + k)) (16 * i) 16
      | none => []
    let s := (values.filter takes).foldl (fun s v => s.calValue (4 + k) v) s
    let s := if taken then
        let b := dieBay k (t.bay.getD 0)
        (s.setFld (CONV_BAY_STAT b) CONV_BAY_STAT_CAL_BUSY 0).onTakeover k fun x => { x with step := 5, since := s.strobeFrom b s.now, prev := prev }
      else s
    let s := idle.foldl (fun s i => s.setFld (CONV_BAY_STAT (dieBay k i)) CONV_BAY_STAT_CAL_BUSY 0) s
    (s.onTakeover k fun x =>
      { x with left := x.left.filter fun e => !idle.contains e && !(relief && !t.reliefDue && e == 16), reliefDue := x.reliefDue && !relief }).nextTakeover k

/-- The meaning of BAY_CALIBRATION_DONE. -/
def execBayCalibrationDone (t : Nat) (k : Fin 4) (values : List CalValue) (s : State) : Host.Outcome State Fault Refusal :=
  event t (fun s => s.bayCalibrated k values) s

/-- A run stops without completing (R494): what it measured is discarded and the outcome is 4. -/
def State.calStop (s : State) (g : Nat) : State :=
  match s.cal.running.find? fun r => r.g == g with
  | none => s
  | some r =>
    let k := g - 4
    let s := s.onCal fun c => { c with values := Tab.insert c.values g r.before }
    let s := if 4 ≤ g ∧ g < 8 then
        let s := s.endTakeover k
        ((List.range 16).foldl (fun s i => s.setFld (CONV_BAY_STAT (dieBay k i)) CONV_BAY_STAT_CAL_BUSY 0) s).onTakeover k fun _ => {}
      else if 8 ≤ g ∧ g < 16 then s.coreBack (g - 8) none
      else s
    let s := (s.onCal fun c => { c with running := c.running.filter fun r => r.g != g, lastRun := Tab.insert c.lastRun g s.now }).showRunning
    (s.setFld (CAL_GRP_STAT g) CAL_GRP_STAT_OUTCOME 4).calOpDone g 4 (s.fld (CAL_GRP_QUAL g) CAL_GRP_QUAL_QUALITY)

/-- Every run in progress stops as the hub leaves ACTIVE and QUIET (R494). -/
def State.calStopAll (s : State) : State := (s.cal.running.map CalRun.g).foldl (fun s g => s.calStop g) s

end Sys2Proof.Machine
end

