-- ==== Sys2Proof/Machine/Conv.lean ====
section
/-!
DEFINITION. Bay modes, scan settings and burst windows, the transom converter, trigger inputs (03_conversion.md), and the test
tone (17_counters_and_test.md R511).
-/

namespace Sys2Proof.Machine

open Reg Bits

/-- The words of a burst schedule. -/
def burstOk (w : Word) : Bool := wfld w CONV_BAY_BURST_PERIOD != 0 && wfld w CONV_BAY_BURST_LEN != 0

/-- R91 for a bay: LEN × 100 µs, the longest support of its chains at scan setting `n` and 10 µs within PERIOD.
(DEDUCED, log entry 30). -/
def State.burstFits (s : State) (b n : Nat) (w : Word) : Bool :=
  let sup := (bayChans b).foldl (fun m c => if s.chMode c = 0 || s.chMode c = 5 then m else max m (2 * groupDelay n (s.chRate c) (s.chGrid c))) 0
  decide (10240 * wfld w CONV_BAY_BURST_LEN + sup + 1024 ≤ 102400 * wfld w CONV_BAY_BURST_PERIOD)

/-- The rate codes of the branches of channel `c`: its stream, its bay's history tap and pane taps (R108). -/
def State.chanRates (s : State) (c : Nat) : List Nat :=
  let b := c / 8
  s.chRate c :: ((if s.histEn b then [s.histRate b] else []) ++ (s.acq.taps.filter fun t => t.bay == b).map PaneTap.rate)

/-- The checks of BAY_MODE on bay `b` of the bays it names (R42, R83, R91, R92, R108). -/
def State.bayChecks (s : State) (bays : List Nat) (w bw : Word) (b : Nat) : List (Option Nat) :=
  let n := 2 ^ wfld w CONV_BAY_MODE_SCAN
  let m := wfld w CONV_BAY_MODE_BMODE
  let chans := bayChans b
  let change := n != s.scanCfg b
  let scan := fun (old : Nat → Nat) x => if bays.contains x then n else old x
  [need (m != 3 && burstOk bw) stBAD_PARAM, need (s.burstFits b n bw) stBAD_PARAM,
   need (!(decide (n < 4) && chans.any fun c => s.chMode c == 1 || s.on (AFE_CH_CFG c) AFE_CH_CFG_AUTO)) stBAD_STATE,
   need (!(chans.any fun c => decide (c % 8 ≥ n) && s.chMode c != 0)) stBAD_STATE,
   need (!(m == 2 && chans.any fun c => s.chMode c == 1)) stBAD_STATE,
   need (!(change && chans.any fun c =>
     s.chMode c == 3 && (s.chanRates c).any fun r => aboveExc n r (s.fld (AFE_BAY_EXC b) AFE_BAY_EXC_DIV))) stBAD_STATE,
   need (!(change && s.histEn b && decide (102400000 > 204800 * outClocks n (s.histRate b)))) stBAD_STATE,
   need (!change || (decide (s.loadWith (scan s.scanN) s.chRate s.streaming s.acq.taps ≤ loadLimit)
     && decide (s.loadWith (scan s.scanCfg) s.chRate s.streaming s.acq.taps ≤ loadLimit))) stNO_RESOURCE]

/-- TONE_STATE of bay `b` (17_counters_and_test.md R511). -/
def State.toneEvent (s : State) (b on_ : Nat) : State :=
  let n := s.scanN b * clk
  s.issue 0xE002 [b, on_, s.stAt (if on_ = 1 then s.strobeFrom b s.now else s.now / n * n)]

/-- A bay stops converting: streams end for `reason`, history breaks, panes end, engines on it are disarmed (R30, R86;
07_panes_and_triggers.md R216, R225). (DEDUCED, log entry 30). -/
def State.stopBay (s : State) (b reason : Nat) : State :=
  let s := (bayChans b).foldl (fun s c => s.endStream c reason) s
  let s := ((s.bayLeaves b).breakHistory b reason).breakTakeover b
  let s := if s.toned b && s.bayRuns b then s.toneEvent b 0 else s
  (((s.setFld (CONV_BAY_STAT b) CONV_BAY_STAT_AWAKE 0).setFld (DEC_BAY_STAT b) DEC_BAY_STAT_HIST_RUN 0).setConv b (s.strobeFrom b s.now) false).onBay b
    fun x => { x with window := none, past := x.window.orElse fun _ => x.past }

/-- A bay begins to convert at strobe `from_`, or takes a new scan setting there: its streams restart, its detectors begin, its history
runs; in BURST mode the windows wake its converter (R89). -/
def State.startBay (s : State) (b from_ : Nat) : State :=
  if !s.bayRuns b then s
  else
    let s := if s.bmode b = 1 then (s.setFld (CONV_BAY_STAT b) CONV_BAY_STAT_AWAKE 1).setConv b from_ true else s
    let s := (bayChans b).foldl (fun s c => s.restartDet c) s
    let s := (bayChans b).foldl (fun s c => if s.live c then s else s.restartStream c from_ 0) s
    let s := if s.toned b then s.toneEvent b 1 else s
    (s.showHist b).nextTakeover (b / 16)

/-- Does the bay run in a BMODE in the present power state (01_architecture.md R30)? -/
def State.runsAs (s : State) (m : Nat) : Bool :=
  (s.sys.phase == .running) && ((s.power == 3 && (m == 1 || m == 2)) || (s.power == 2 && m == 2))

/-- A bay that converts changes between CONTINUOUS and BURST at strobe `at_` (R108): its streams run on, in BURST with the windows' samples
alone. A converter that wakes now gives samples once it has given their whole support. (DEDUCED, log entry 30). -/
def State.swapBay (s : State) (b m at_ : Nat) : State :=
  if m = 1 then
    let asleep := !(s.bayOf b).conv
    let s := (s.setFld (CONV_BAY_STAT b) CONV_BAY_STAT_AWAKE 1).setConv b at_ true
    let s := s.onBay b fun x => { x with window := none, past := x.window.orElse fun _ => x.past }
    let s := if asleep then (bayChans b).foldl (fun s c =>
        (s.closeKey c).onStrm c fun x => { x with next := max x.next (s.firstFrom c (s.chRate c) (s.chGrid c) at_), waitFrom := at_ }) s
      else s
    s.showHist b
  else (s.setFld (CONV_BAY_STAT b) CONV_BAY_STAT_AWAKE 0).setConv b at_ false

/-- A bay takes the words of BAY_MODE (R86, R93, R97, R108). (DEDUCED, log entry 30). -/
def State.setBay (s : State) (b : Nat) (w bw : Word) : State :=
  let oldW := s.rd (CONV_BAY_MODE b)
  let oldB := s.rd (CONV_BAY_BURST b)
  let m0 := wfld oldW CONV_BAY_MODE_BMODE
  let m1 := wfld w CONV_BAY_MODE_BMODE
  let scan := wfld oldW CONV_BAY_MODE_SCAN != wfld w CONV_BAY_MODE_SCAN
  let was := s.runsAs m0
  let is := s.runsAs m1
  let at_ := s.strobeFrom b s.now
  let s := if scan || m0 != m1 then s.breakTakeover b else s
  let s := if scan then ((bayChans b).foldl (fun s c => s.endStream c 2) s).breakHistory b 2 else s
  let s := if was && !is then s.stopBay b 2
    else if m0 == 1 && m1 != 1 then ((s.bayLeaves b).breakHistory b 2).setFld (DEC_BAY_STAT b) DEC_BAY_STAT_HIST_RUN 0
    else s
  let s := (s.wr (CONV_BAY_MODE b) w).wr (CONV_BAY_BURST b) bw
  let s := if bw = oldB then s else s.onBay b fun x => { x with burst := (s.now + fineMs 1, oldB) :: x.burst }
  let s := if scan then
      let n := 2 ^ wfld w CONV_BAY_MODE_SCAN
      s.onBay b fun x => { x with scanNext := some (wfld w CONV_BAY_MODE_SCAN, ceilDiv (s.now + fineMs 1) (n * clk) * (n * clk)) }
    else s
  let s := if was && is && m0 != m1 then s.swapBay b m1 at_
    else if !was && is && (s.bayOf b).scanNext.isNone then s.startBay b at_
    else s
  s.nextTakeover (b / 16)

/-- BAY_MODE (0x2001), R108. -/
def bodyBayMode : Body := fun _ ps s =>
  let first := num ps 0 1
  let count := num ps 1 1
  let w := word (num ps 4 4)
  let bw := word (num ps 8 4)
  let bays := (List.range count).map fun i => first + i
  checked s
    ([need (decide (1 ≤ count) && decide (first + count ≤ 64) && zeroAt ps 2 2 && bits w.toNat 6 26 == 0 && bits w.toNat 2 2 == 0) stBAD_PARAM]
      ++ bays.flatMap fun b => s.bayChecks bays w bw b)
    (ok (bays.foldl (fun s b => s.setBay b w bw) s).showLoad)

/-- The meaning of BAY_MODE. -/
def execBayMode (t : Nat) (p : Packet) (s : State) : Host.Outcome State Fault Refusal := command 0x2001 bodyBayMode t p s

/-- NEW_SCAN_SETTING of bay `b`: the new scan setting applies from its strobe on, and the streams restart past it (R86).
(DEDUCED, log entry 30). -/
def State.newScan (s : State) (b : Nat) : State :=
  match (s.bayOf b).scanNext with
  | none => s
  | some (scan, at_) =>
    if s.now < at_ then s
    else
      let s := (bayChans b).foldl (fun s c => s.dropTail c) s
      let old := s.scanN b
      let s := (s.setFld (CONV_BAY_STAT b) CONV_BAY_STAT_SCAN_NOW scan).onBay b fun x => { x with scanNext := none, scans := (at_, old) :: x.scans }
      let s := (bayChans b).foldl (fun s c => (s.onCh c fun h =>
        { h with histFrom := at_, histNext := 0, raws := [], last := none, switches := [] }).onStrm c fun x => { x with waitFrom := at_, fed := 0 }) s
      (s.startBay b at_).showLoad

/-- The meaning of NEW_SCAN_SETTING. -/
def execNewScanSetting (t : Nat) (b : Fin 64) (s : State) : Host.Outcome State Fault Refusal := event t (State.newScan · b) s

/-- The strobes of window `w` of bay `b`: the first that gives the first of its samples their full support, and the one that completes the
support of the last of them (R88). -/
def State.windowStrobes (s : State) (b : Nat) (w : Nat × Word) : Nat × Nat :=
  let W := windowOf w
  let step := s.scanN b * clk
  let live := (bayChans b).filter fun c => s.chMode c != 0 && decide (c % 8 < s.scanN b)
  let first := fun (c : Nat) => s.centre c (s.chRate c) (s.chGrid c) (s.idxAt c (s.chRate c) (s.chGrid c) W.1) - s.halfSupport c (s.chRate c) (s.chGrid c)
  let last := fun (c : Nat) => s.centre c (s.chRate c) (s.chGrid c) (s.idxAt c (s.chRate c) (s.chGrid c) W.2 - 1) + s.halfSupport c (s.chRate c) (s.chGrid c)
  (ceilDiv (live.foldl (fun m c => min m (first c)) (s.localOf W.1)) step * step, live.foldl (fun m c => max m (last c)) (s.localOf W.1) / step * step)

/-- The schedule in force for a window that opens at a fine count: a change holds from the first that opens 1 ms after it (R93). -/
def State.burstWord (s : State) (b f : Nat) : Word := asOf (s.bayOf b).burst (s.rd (CONV_BAY_BURST b)) f

/-- The window that bay `b` is due to wake for: 4 µs before its first strobe (R87 to R89, R93). -/
def State.nextWindow (s : State) (b : Nat) : Option (Nat × Word) :=
  let words := s.rd (CONV_BAY_BURST b) :: (s.bayOf b).burst.map Prod.snd
  let ahead := s.servedAt (s.now + fineUs 8 + s.bayHalf b * clk)
  let near := words.flatMap fun w => let k := periodOf (max 1 (wfld w CONV_BAY_BURST_PERIOD)) ahead; [(k - 1, w), (k, w), (k + 1, w)]
  near.find? fun w => s.burstWord b (s.localOf (windowOf w).1) == w.2 && decide ((s.windowStrobes b w).1 ≤ s.now + fineUs 4)
    && decide ((windowOf w).2 > s.served) && (s.bayOf b).past != some w

/-- BURST_WINDOW_WAKE of bay `b` (R88, R89, R93): its converter is ready 2 µs later. The chain starts from cleared state, so the detectors
begin anew. -/
def State.burstWake (s : State) (b : Nat) : State :=
  if s.scanHolds || s.bmode b != 2 || !s.bayReady b || (s.bayOf b).window.isSome then s
  else match s.nextWindow b with
    | none => s
    | some w =>
      let at_ := s.strobeFrom b (max (s.windowStrobes b w).1 (s.now + fineUs 2))
      let s := ((s.setFld (CONV_BAY_STAT b) CONV_BAY_STAT_AWAKE 1).setConv b at_ true).onBay b fun y => { y with window := some w }
      (bayChans b).foldl (fun s c => s.restartDet c) s

/-- The meaning of BURST_WINDOW_WAKE. -/
def execBurstWindowWake (t : Nat) (b : Fin 64) (s : State) : Host.Outcome State Fault Refusal := event t (State.burstWake · b) s

/-- BURST_WINDOW_END of bay `b`: the last code has left the pipeline (R89); the window's last samples are still on their way (R90). -/
def State.burstEnd (s : State) (b : Nat) : State :=
  match (s.bayOf b).window with
  | none => s
  | some w =>
    let n := s.scanN b
    let last := (s.windowStrobes b w).2
    if s.now < last + (14 + n - 1) * clk then s
    else
      ((s.setFld (CONV_BAY_STAT b) CONV_BAY_STAT_AWAKE 0).bump (CONV_BAY_STAT b) CONV_BAY_STAT_BURST_COUNT).onBay b fun x =>
        { x with window := none, past := some w, conv := false, convs := if x.conv then (last + n * clk, true) :: x.convs else x.convs }

/-- The meaning of BURST_WINDOW_END. -/
def execBurstWindowEnd (t : Nat) (b : Fin 64) (s : State) : Host.Outcome State Fault Refusal := event t (State.burstEnd · b) s

/-- Entry `i` of the active table; before any copy it is the shadow table's reset (log entry 3). (DEDUCED, log entry 31). -/
def Transom.entry (x : Transom) (i : Nat) : Word := (x.active[i]?).getD 0x00080000#32

/-- Settling and conversions of an entry, in fine counts (R100). -/
def settleOf (w : Word) : Nat := wfld w CONV_TSEQ_SETTLE * 128 * clk
def convOf (w : Word) : Nat := 2 ^ wfld w CONV_TSEQ_AVG * 128 * clk

/-- The registers follow the converter. -/
def State.showTransom (s : State) : State :=
  let x := s.acq.transom
  let s := ((s.setFld CONV_TSEQ_STAT CONV_TSEQ_STAT_RUNNING (b2n x.running.isSome)).setFld CONV_TSEQ_STAT CONV_TSEQ_STAT_PENDING (b2n x.pendingSlot)).setFld
    CONV_TSEQ_STAT CONV_TSEQ_STAT_CAL (b2n x.calibrating)
  let s := s.setFld CONV_TSEQ_STAT CONV_TSEQ_STAT_URGENT_DEPTH x.urgent.length
  match x.running with
  | some i => s.setFld CONV_TSEQ_STAT CONV_TSEQ_STAT_ENTRY i
  | none => s

/-- Is an entry legal (R109)? -/
def tseqOk (w : Word) : Bool :=
  let src := wfld w CONV_TSEQ_SRC
  wfld w CONV_TSEQ_SETTLE != 0 && wfld w CONV_TSEQ_BIAS != 3 && (decide (src ≤ 0x15) || (decide (0x18 ≤ src) && decide (src ≤ 0x28)))
    && bits w.toNat 24 7 == 0 && bits w.toNat 13 3 == 0 && bits w.toNat 6 2 == 0

/-- A sequence starts at entry FIRST: the shadow table is copied where COMMIT is set (R101, R105). -/
def State.startSequence (s : State) : State :=
  let s := if s.on CONV_TSEQ_CTRL CONV_TSEQ_CTRL_COMMIT then
      (s.onTransom fun x => { x with active := (List.range 64).map fun i => s.rd (CONV_TSEQ i) }).setFld CONV_TSEQ_CTRL CONV_TSEQ_CTRL_COMMIT 0
    else s
  let first := s.fld CONV_TSEQ_CTRL CONV_TSEQ_CTRL_FIRST
  s.onTransom fun x => { x with running := some first, since := if x.urgentNow.isSome then x.since else s.now }

/-- Does the transom run sequences: in ACTIVE and QUIET (R107)? -/
def State.transomRuns (s : State) : Bool := s.sys.phase == .running && (s.power == 2 || s.power == 3)

/-- A trigger (R101, R102): one in the sample clock in which a run ended with the slot full came while it ran. -/
def State.transomTrigger (s : State) : State :=
  let x := s.acq.transom
  let overrun := fun (s : State) => (s.bump CONV_TSEQ_STAT CONV_TSEQ_STAT_OVERRUN).issueLim 0x2002 0 1 0 true [0, s.st]
  if !s.transomRuns then s
  else if x.fullAt = some (s.now / clk) then overrun s
  else if x.running.isNone && !x.calibrating then s.startSequence.showTransom
  else if x.pendingSlot then overrun s
  else (s.onTransom fun x => { x with pendingSlot := true }).showTransom

/-- What runs next once a conversion has ended: urgent requests, then the sequence in course, then a pending trigger (R102,
R104). -/
def State.transomNext (s : State) : State :=
  let x := s.acq.transom
  if x.calibrating || x.urgentNow.isSome then s.showTransom
  else match x.urgent with
    | u :: rest => (s.onTransom fun y => { y with urgentNow := some u, urgent := rest, since := s.now }).showTransom
    | [] =>
      if x.running.isSome then (s.onTransom fun y => { y with since := s.now }).showTransom
      else if x.pendingSlot then ((s.onTransom fun y => { y with pendingSlot := false }).startSequence).showTransom
      else s.showTransom

/-- An urgent request joins the queue, and enters as soon as no conversion is in progress (R103, R104).
(DEDUCED, log entry 31). -/
def State.urgentRequest (s : State) (u : Urgent) : State :=
  let x := s.acq.transom
  if x.calibrating || x.urgentNow.isSome then (s.onTransom fun y => { y with urgent := y.urgent ++ [u] }).showTransom
  else match x.running with
    | none => (s.onTransom fun y => { y with urgentNow := some u, since := s.now }).showTransom
    | some i =>
      let w := x.entry i
      let e := s.now - x.since
      let j := (e - settleOf w) / (128 * clk)
      if e < settleOf w then (s.onTransom fun y => { y with urgentNow := some u, since := s.now }).showTransom
      else if j + 1 ≥ 2 ^ wfld w CONV_TSEQ_AVG then (s.onTransom fun y => { y with urgent := y.urgent ++ [u] }).showTransom
      else (s.onTransom fun y => { y with urgentNow := some u, since := x.since + settleOf w + (j + 1) * 128 * clk }).showTransom

/-- The mean of an entry's conversions, rounded to the nearest code (R100; a tie is open). (DEDUCED, log entry 31). -/
def meanCode (l : List Nat) : Nat :=
  let n := max 1 l.length
  let sum := l.foldl (· + ·) 0
  if (2 * sum) % (2 * n) = n then sum / n + (Config.roundUp sum n).toNat else (2 * sum + n) / (2 * n)

/-- A result is stored, and is a sample of its auxiliary channel (R100); answers code and instant. -/
def State.transomResult (s : State) (w : Word) (codes : List Nat) : Nat × Nat × State :=
  let src := wfld w CONV_TSEQ_SRC
  let n := 2 ^ wfld w CONV_TSEQ_AVG
  let code := meanCode (codes.take n) % 2 ^ 18
  let mid := s.servedAt (s.acq.transom.since + settleOf w + convOf w / 2)
  let s := ((s.setFld (CONV_TRESULT src) CONV_TRESULT_VALID 1).setFld (CONV_TRESULT src) CONV_TRESULT_CODE code).pmc 0x202 0 n
  (code, st64 mid, if src < 16 then s.auxSample (576 + src) mid code else s)

/-- TRANSOM_PERIOD_TRIGGER: served time has reached a whole multiple of PERIOD ms (R101); the register's PERIOD holds at each instant
(R105). (DEDUCED, log entry 31). -/
def State.transomPeriod (s : State) : State :=
  let p := s.fld CONV_TSEQ_CTRL CONV_TSEQ_CTRL_PERIOD
  let at_ := ceilDiv (periodOf (max 1 p) s.served * p * 2 ^ 80) 1000
  if p = 0 ∨ at_ ≤ s.acq.transom.lastPeriodAt then s else (s.onTransom fun x => { x with lastPeriodAt := at_ }).transomTrigger

/-- The meaning of TRANSOM_PERIOD_TRIGGER. -/
def execTransomPeriodTrigger (t : Nat) (s : State) : Host.Outcome State Fault Refusal := event t State.transomPeriod s

/-- TRIG_IN_EDGE on input `j`: stamped for its consumers, and a rising edge on an enabled input triggers the transom (R101;
07_panes_and_triggers.md R227). -/
def State.trigInEdge (s : State) (j : Nat) (falling : Bool) : State :=
  let s := s.edgeStamp (0x22 + j) falling []
  if !falling && bit (s.fld CONV_TSEQ_CTRL CONV_TSEQ_CTRL_TRIG_IN_EN) j then s.transomTrigger else s

/-- The meaning of TRIG_IN_EDGE. -/
def execTrigInEdge (t : Nat) (j : Fin 4) (falling : Bool) (s : State) : Host.Outcome State Fault Refusal := event t (State.trigInEdge · j falling) s

/-- TRANSOM_START: a write of 1 to START (R101). -/
def execTransomStart (t : Nat) (s : State) : Host.Outcome State Fault Refusal := event t State.transomTrigger s

/-- TRANSOM_COMMIT: a write of 1 to COMMIT (R105). -/
def State.transomCommit (s : State) : State := s.setFld CONV_TSEQ_CTRL CONV_TSEQ_CTRL_COMMIT 1

/-- The meaning of TRANSOM_COMMIT. -/
def execTransomCommit (t : Nat) (s : State) : Host.Outcome State Fault Refusal := event t State.transomCommit s

/-- The control word is written, but for START and COMMIT; PERIOD counts from here. -/
def State.setTseqCtrl (s : State) (w : Word) : State :=
  (s.wr CONV_TSEQ_CTRL (setBits (setBits w CONV_TSEQ_CTRL_START 0) CONV_TSEQ_CTRL_COMMIT (s.fld CONV_TSEQ_CTRL CONV_TSEQ_CTRL_COMMIT))).onTransom
    fun x => { x with lastPeriodAt := s.served }

/-- TRANSOM_SEQUENCE (0x2002), R105, R109. -/
def bodyTransomSequence : Body := fun _ ps s =>
  let first := num ps 0 1
  let count := num ps 1 1
  let f := num ps 2 1
  let w := word (num ps 4 4)
  let es := (wordsOf (ps.drop 8) count).map word
  checked s
    [need (decide (first < 64) && decide (count ≤ 64) && decide (first + count ≤ 64) && decide (f < 4) && zeroAt ps 3 1) stBAD_PARAM,
     need (bits w.toNat 10 2 == 0 && bits w.toNat 6 2 == 0 && es.all tseqOk) stBAD_PARAM]
    (let s := ((List.range count).zip es).foldl (fun s e => s.wr (CONV_TSEQ (first + e.1)) e.2) s
     let s := s.setTseqCtrl w
     let s := if bit f 0 then s.transomCommit else s
     ok (if bit f 1 then s.transomTrigger else s))

/-- The meaning of TRANSOM_SEQUENCE. -/
def execTransomSequence (t : Nat) (p : Packet) (s : State) : Host.Outcome State Fault Refusal := command 0x2002 bodyTransomSequence t p s

/-- TRANSOM_URGENT (0x2003), R103, R110: the reply follows the entry's last conversion. (DEDUCED, log entries 10 and 29). -/
def bodyTransomUrgent : Body := fun c ps s =>
  let w := word (num ps 0 4)
  checked s [need (tseqOk (setBits w CONV_TSEQ_LAST 0)) stBAD_PARAM, need s.transomRuns stBAD_STATE,
             need (decide (s.acq.transom.urgent.length < 4)) stBUSY]
    (.quiet (s.urgentRequest ⟨w, some c⟩))

/-- The meaning of TRANSOM_URGENT. -/
def execTransomUrgent (t : Nat) (p : Packet) (s : State) : Host.Outcome State Fault Refusal := command 0x2003 bodyTransomUrgent t p s

/-- The transom stops as the hub leaves ACTIVE and QUIET: the run stops, the slot and the queue are cleared (R107). -/
def State.stopTransom (s : State) : State :=
  (s.onTransom fun x => { x with running := none, urgentNow := none, urgent := [], pendingSlot := false, calibrating := false, poll := [] }).showTransom

/-- PMC_TONE_WRITE of bay `b` (17_counters_and_test.md R511): EN 1 is ignored unless EMODE is SINE and every sampled input is
in VOLTAGE or BRIDGE mode. -/
def State.toneWrite (s : State) (b : Nat) (w : Word) : State :=
  let en := wfld w PMC_TONE_EN == 1
  let was := s.toned b
  let fits := s.fld (AFE_BAY_EXC b) AFE_BAY_EXC_EMODE == 1 && (s.sampled b).all fun c => s.chMode c == 2 || s.chMode c == 3
  if en && !fits then s
  else
    let s := (s.setFld (PMC_TONE b) PMC_TONE_EN (b2n en)).setFld (PMC_TONE b) PMC_TONE_LEVEL (wfld w PMC_TONE_LEVEL)
    if en == was || !s.bayRuns b then s else s.toneEvent b (b2n en)

/-- The meaning of PMC_TONE_WRITE. -/
def execPmcToneWrite (t : Nat) (b : Fin 64) (w : Word) (s : State) : Host.Outcome State Fault Refusal := event t (State.toneWrite · b w) s

end Sys2Proof.Machine
end

