-- ==== Sys2Proof/Machine/Images.lean ====
section
/-!
DEFINITION. The bytes of what the hub sends: record headers (07_panes_and_triggers.md Table 07-2), cell headers
(09_queues_and_retention.md Table 09-1), and the payloads of class T cells and mirror cells (Tables 05-3, 11-8, 13-4,
15-6).
-/

namespace Sys2Proof.Machine

open Reg Bits

/-- The record header and payload as the hub forms it (Table 07-2, R209). -/
def Rec.image (r : Rec) : List Byte :=
  let body := pad4 r.payload
  le 1 r.rtype ++ le 1 2 ++ le 2 (32 + body.length) ++ le 3 r.addr ++ le 1 r.fmt ++ le 4 r.first ++ le 8 r.st ++ le 1 r.rate
    ++ le 1 r.tqByte ++ le 2 r.flags ++ le 2 r.count ++ le 2 r.pane ++ le 4 (if body.isEmpty then 0 else crc32c body) ++ body

/-- The 16 header bytes of a cell; bytes 14-15 go out as 0 (Table 09-1). -/
def cellHeader (cls : Nat) (first last fsf resent : Bool) (used number addr rtype index pane : Nat) : List Byte :=
  le 1 (cls + 4 * b2n first + 8 * b2n last + 16 * b2n fsf + 32 * b2n resent) ++ le 1 used ++ le 2 number ++ le 3 addr ++ le 1 rtype
    ++ le 4 index ++ le 2 pane ++ le 2 0

/-- Cell `k` of a held record: header and payload bytes used (R271). -/
def Rec.cell (r : Rec) (k : Nat) : List Byte :=
  let body := bytesAt r.image (240 * k) 240
  cellHeader (classOf r.rtype) (k == 0) (k + 1 == r.cells) r.fsf r.resent body.length k r.addr r.rtype (r.first % 2 ^ 32) r.pane ++ body

/-- A transit cell as it goes on (R277). -/
def cellImage (c : Cell) : List Byte :=
  cellHeader c.cls c.first c.last c.fsf c.resent c.payload.length c.number c.addr c.rtype c.index c.pane ++ c.payload

/-- One domain's half of a time cell (Table 05-3). -/
def domImage (d : TimeCellDom) : List Byte :=
  le 8 d.txTime ++ le 8 d.rxTime ++ le 2 d.rxSeq ++ le 1 d.flags ++ le 1 d.hops ++ le 3 d.secHigh ++ le 1 0 ++ leI 2 d.taiUtc
    ++ le 2 d.root ++ le 4 0

/-- A time cell's payload (Table 05-3). -/
def timeCellImage (c : TimeCell) : List Byte := le 2 c.seq ++ le 2 c.sender ++ le 12 0 ++ domImage c.domA ++ domImage c.domB

/-- A link-state cell's payload (Table 11-8). -/
def linkStateImage (l : LinkState) : List Byte :=
  le 2 l.origin ++ le 2 l.generation ++ le 1 l.head ++ le 1 0
    ++ (l.ports.flatMap fun p => le 1 (p.role % 16 + 16 * b2n p.up + 32 * b2n p.sb)) ++ le 2 0

/-- A head cell's first 8 bytes (Table 13-4). -/
def headCellStart (sender dest kind path : Nat) : List Byte := le 2 sender ++ le 2 dest ++ le 1 kind ++ le 1 path ++ le 2 0

/-- A HEARTBEAT cell's payload. -/
def heartbeatImage (h : Heartbeat) : List Byte :=
  headCellStart h.sender h.dest 1 h.path ++ le 4 h.seq ++ le 1 h.state ++ le 1 h.flags ++ le 2 h.witness ++ le 4 h.epoch
    ++ le 2 h.leaseMs ++ le 2 0 ++ le 4 h.mirrorSeq ++ le 8 h.st64

/-- A black-box entry's 64 bytes (15_porter_management.md Table 15-6). -/
def BBEntry.image (e : BBEntry) : List Byte :=
  let b := le 4 e.seq ++ le 8 e.st ++ le 1 e.tqByte ++ le 1 (e.block + 16 * e.kind) ++ le 2 e.code ++ le 8 e.xc ++ le 4 e.starts
    ++ (e.items.flatMap (le 8)) ++ le (8 * (4 - e.items.length)) 0
  b ++ le 4 (crc32c b)

/-- The payload of what a class C, T or mirror entry carries. -/
def State.ctlPayload (s : State) (c : Ctl) : List Byte :=
  match c with
  | .packet op p => packetBytes op p
  | .timeCell t => timeCellImage t
  | .linkState l => linkStateImage l
  | .heartbeat h => heartbeatImage h
  | .mirror m =>
    headCellStart m.sender m.dest 2 m.path ++ le 4 m.firstSeq ++ le 1 m.itemType ++ le 1 m.items.length ++ le 2 0 ++ m.items.flatMap id
  | .digest d => headCellStart d.sender d.dest 3 d.path ++ le 4 d.cutoff ++ le 4 d.digest ++ le 4 d.entries ++ le 8 d.st64
  | .transit c => c.payload
  | .bbMirror es => es.flatMap BBEntry.image

/-- Cell `k` of an entry that carries a packet, a class T cell or a mirror: header bytes 4-13 are 0 for classes C and T
(R271, R367); a mirror cell names this hub. -/
def State.ctlCell (s : State) (c : Ctl) (cls k cells : Nat) : List Byte :=
  match c with
  | .transit t => cellImage t
  | _ =>
    let body := bytesAt (s.ctlPayload c) (240 * k) 240
    cellHeader cls (k == 0) (k + 1 == cells) false false body.length k (if cls = 3 then s.noChan else 0) 0 0 0 ++ body

end Sys2Proof.Machine
end

