-- ==== Sys2Proof/Machine/Wire.lean ====
section
/-!
DEFINITION. What goes on the lanes of a port (11_serial_lanes_and_syrilink.md): control blocks (Table 11-2), the blocks of a cell
(R328), BIP-8 (R334), transmit equalisation (Table 11-3), and the patterns of lane tests with their checker (R357, Table 11-12).
A block stands as its sync header and its payload as a number, byte 0 in the low bits; scrambling is undone in the operands and not
done in these.
-/

namespace Sys2Proof.Machine

open Reg Bits

/-- What a received block is (Table 11-2): data, a control block that acts on cells, an ALIGN (lane index, port, BIP-8, whether its
fixed bytes are right), another known control block, one of unknown type, or a block with an invalid sync header. -/
inductive BlockKind where
  | data (bytes : List Byte)
  | start (cls : Nat) (preempt : Bool)
  | finish (cls : Nat) (stomp : Bool) (seq crc : Nat)
  | idle
  | align (lane port bip : Nat) (valid : Bool)
  | other
  | unknown
  | invalid
  deriving DecidableEq, Repr

/-- The kind of a block (R327). -/
def blockKind (b : Block) : BlockKind :=
  let n := b.payload.toNat
  if b.sync = 1 then .data (le 8 n)
  else if b.sync ≠ 2 then .invalid
  else match n % 256 with
    | 0xA1 => .start (bits n 8 2) (bit n 10)
    | 0xA2 => .finish (bits n 8 2) (bit n 10) (bits n 16 16) (bits n 32 32)
    | 0xA4 => .idle
    | 0xAA => .align (bits n 8 2) (bits n 10 3) (bits n 16 8) (bits n 24 8 == 255 - bits n 16 8 && bits n 32 32 == 0x0F55330F)
    | 0xA3 | 0xA5 | 0xA6 | 0xA7 => .other
    | _ => .unknown

/-- The payloads of the control blocks the hub sends (Table 11-2). -/
def startWord (cls : Nat) (preempt : Bool) : Nat := 0xA1 + 2 ^ 8 * (cls + 4 * b2n preempt)
def endWord (cls : Nat) (stomp : Bool) (seq crc : Nat) : Nat :=
  0xA2 + 2 ^ 8 * (cls + 4 * b2n stomp) + 2 ^ 16 * seq + 2 ^ 32 * (if stomp then crc ^^^ 0xFFFFFFFF else crc)
def linkWord (ack : Nat) (nak : Bool) (g : Four) : Nat :=
  0xA3 + 2 ^ 8 * ack + 2 ^ 24 * b2n nak + 2 ^ 32 * (g.c % 256) + 2 ^ 40 * (g.t % 256) + 2 ^ 48 * (g.s % 256) + 2 ^ 56 * (g.b % 256)
def refreshWord (content : Nat) : Nat := 0xA5 + 2 ^ 16 * content
def timeWord (seq port : Nat) : Nat := 0xA6 + 2 ^ 8 * seq + 2 ^ 24 * port
def restripeWord (mask : Nat) (ack : Bool) : Nat := 0xA7 + 2 ^ 8 * (mask + 16 * b2n ack)

/-- BIP-8 over payloads: bit i is the even parity of their bits i, i + 8, and so on (R334). -/
def bip8 (payloads : List (BitVec 64)) : Nat :=
  payloads.foldl (fun n w => (le 8 w.toNat).foldl (fun n b => n ^^^ b.toNat) n) 0

/-- The 256 bytes of a cell: its header, the payload bytes used, and zeros. -/
def padCell (bytes : List Byte) : List Byte := bytes ++ List.replicate (256 - bytes.length) 0#8

/-- The payloads of the 32 data blocks that carry 256 bytes (R328). -/
def dataBlocks : Nat → List Byte → List Nat
  | 0, _ => []
  | n + 1, bs => num bs 0 8 :: dataBlocks n (bs.drop 8)

/-- The 34 blocks of a cell (R328): START, its data, END with its number and CRC. -/
def cellBlocks (cls : Nat) (preempt stomp : Bool) (seq : Nat) (bytes : List Byte) : List (Nat × Nat) :=
  let all := padCell bytes
  (2, startWord cls preempt) :: ((dataBlocks 32 all).map fun d => (1, d)) ++ [(2, endWord cls stomp seq (crc32c all))]

/-- The header and the payload used, as 256 bytes carry them (09_queues_and_retention.md Table 09-1). -/
def cellOfBytes (bs : List Byte) : Cell :=
  let h := num bs 0 1
  { cls := h % 4, first := bit h 2, last := bit h 3, fsf := bit h 4, resent := bit h 5, number := num bs 2 2, addr := num bs 4 3,
    rtype := num bs 7 1, index := num bs 8 4, pane := num bs 12 2, payload := bytesAt bs 16 (num bs 1 1) }

/-- The transmit equalisation of a lane (Table 11-3): the peer's requests at NATIVE, decibels of pre-cursor and post-cursor emphasis at
LEGACY, none at QUIET. -/
inductive TxEq where
  | fir
  | preEmphasis (pre post : Nat)
  | flat
  deriving DecidableEq, Repr

/-- The equalisation that a port's lanes send with (Table 11-3). -/
def State.txEq (s : State) (p : Nat) : TxEq :=
  let preset := s.fld (LNK_PORT_CFG p) LNK_PORT_CFG_PRESET
  match s.fld (LNK_PORT_STAT p) LNK_PORT_STAT_RATE_NOW with
  | 0 => .fir
  | 1 => .preEmphasis (preset / 4) (2 * (preset % 4))
  | _ => .flat

/-- The delays of the two taps of a PRBS (Table 11-12): the register length and the second exponent. -/
def prbsTaps (pattern : Nat) : Nat × Nat :=
  match pattern with
  | 0 => (7, 6)
  | 1 => (9, 5)
  | 2 => (15, 14)
  | 3 => (23, 18)
  | _ => (31, 28)

/-- The next bit of a PRBS after the bits before it, newest first; none where too few are known. -/
def prbsNext (pattern : Nat) (before : List Bool) : Option Bool :=
  let t := prbsTaps pattern
  match before[t.1 - 1]?, before[t.2 - 1]? with
  | some a, some b => some (a != b)
  | _, _ => none

/-- The `n` bits of a PRBS that follow its register `reg`, newest first, oldest of them first. -/
def prbsBits (pattern : Nat) : Nat → List Bool → List Bool
  | 0, _ => []
  | n + 1, reg => match prbsNext pattern reg with
    | some b => b :: prbsBits pattern n ((b :: reg).take 31)
    | none => []

/-- The bits of a number, lowest first. -/
def lowFirst (n v : Nat) : List Bool := (List.range n).map (bit v)

/-- The bits of a periodic pattern, in order: the USER word, or eight ones and eight zeros (Table 11-12). -/
def wordPattern (pattern user : Nat) : List Bool :=
  if pattern = 5 then lowFirst 64 user else lowFirst 16 0x00FF

/-- Is a list a rotation of another of the same length? -/
def isRotation (l w : List Bool) : Bool := (List.range w.length).any fun k => w.drop k ++ w.take k == l

/-- The bit that a checker expects after the bits before it, newest first (R357): by the recursion of a PRBS, or, where the last
period of a word pattern is that word in some rotation, the bit one period ago. -/
def expected (pattern user : Nat) (before : List Bool) : Option Bool :=
  if pattern ≤ 4 then prbsNext pattern before
  else
    let w := wordPattern pattern user
    let past := before.take w.length
    if isRotation past.reverse w then past.getLast? else none

/-- The next `n` bits of a lane's generator (R357, Table 11-12): a PRBS from a seed that the manual does not give, or the word pattern
from its first bit. -/
def genBits (seed : BitVec 31) (pattern user at_ n : Nat) : List Bool :=
  if pattern ≤ 4 then (prbsBits pattern (at_ + n) (lowFirst 31 seed.toNat)).drop at_
  else
    let w := wordPattern pattern user
    (List.range n).map fun i => w.getD ((at_ + i) % w.length) false

/-- One bit at the checker of a lane (R357): out of lock it looks for 64 bits in a row as expected from those received; in lock it runs
on its own sequence, counts, and falls out of lock on more than 16 errors in 64 bits. -/
def LaneSt.check (x : LaneSt) (b : Bool) : LaneSt :=
  let want := expected x.pattern x.user x.window
  if x.locked then
    let w := want.getD b
    let wrong := ((b != w) :: x.wrong).take 64
    let x := { x with bits := (x.bits + 1) % 2 ^ 48, errors := (x.errors + b2n (b != w)) % 2 ^ 48, window := (w :: x.window).take 64, wrong := wrong }
    if (wrong.filter id).length > 16 then { x with locked := false, lockLosses := satN 32 (x.lockLosses + 1), window := [], wrong := [], clean := 0 }
    else x
  else
    let clean := if want == some b then x.clean + 1 else 0
    { x with window := (b :: x.window).take 64, clean := clean, locked := decide (clean ≥ 64), wrong := [] }

end Sys2Proof.Machine
end

