-- ==== Sys2Proof/Machine/Ports.lean ====
section
/-!
DEFINITION. The ports of the LNK block (11_serial_lanes_and_syrilink.md): training, lanes, cells and credits, replay, link
states and routes, modules.
-/

namespace Sys2Proof.Machine

open Reg Bits

/-- The count of a traffic class, and a count changed. -/
def Four.get (f : Four) (cls : Nat) : Nat := match cls with
  | 0 => f.c
  | 1 => f.t
  | 2 => f.s
  | _ => f.b
def Four.add (f : Four) (cls n : Nat) : Four := match cls with
  | 0 => { f with c := f.c + n }
  | 1 => { f with t := f.t + n }
  | 2 => { f with s := f.s + n }
  | _ => { f with b := f.b + n }

/-- Is port `p` configured for LEGACY (R324)? -/
def State.legacyPort (s : State) (p : Nat) : Bool := s.fld (LNK_PORT_CFG p) LNK_PORT_CFG_RATE == 1

/-- Is a port to run in the present power state (R325, R29, R357; none without a cell pool or its deskew buffer,
14_memory_and_ecc.md R456)? -/
def State.portRuns (s : State) (p : Nat) : Bool :=
  let r := s.role p
  let ring := r == rRingE || r == rRingW
  s.booted && r != rOFF && !s.memFailed 1 && !s.deskewFailed p && !s.on (LNK_PORT_CFG p) LNK_PORT_CFG_TEST &&
    (if s.isMinimal || s.power == 1 then ring
     else if s.power == 2 then !(r == rBypE || r == rBypW) || s.on (LNK_PORT_CFG p) LNK_PORT_CFG_QUIET_BYP
     else true)

/-- The rate and width that a port requests (R325, R29). -/
def State.reqRate (s : State) (p : Nat) : Nat :=
  let r := s.role p
  let cfg := s.fld (LNK_PORT_CFG p) LNK_PORT_CFG_RATE
  if cfg ≠ 1 ∧ ((s.power = 2 ∧ 1 ≤ r ∧ r ≤ 4) ∨ s.power = 1) then 2 else cfg
def State.reqWidth (s : State) (p : Nat) : Nat :=
  let r := s.role p
  if s.power = 1 ∨ (s.power = 2 ∧ (r = 3 ∨ r = 4 ∨ ((r = 1 ∨ r = 2) ∧ s.legacyPort p))) then 0
  else s.fld (LNK_PORT_CFG p) LNK_PORT_CFG_WIDTH

/-- Lanes of a width code, and the code of a number of lanes. -/
def lanesOf (w : Nat) : Nat := 2 ^ w
def widthCode (n : Nat) : Nat := if n ≥ 4 then 2 else if n ≥ 2 then 1 else 0

/-- The widest set of 4, 2 or 1 lanes, at most `limit`, that the lanes of `good` allow, from the lowest-numbered ones
(R337). -/
def laneSet (good limit : Nat) : Nat :=
  let l := (List.range 4).filter (bit good)
  let n := min limit l.length
  let k := if n ≥ 4 then 4 else if n ≥ 2 then 2 else n
  (l.take k).foldl (fun m i => m + 2 ^ i) 0

/-- Lanes in a mask. -/
def laneCount (m : Nat) : Nat := ((List.range 4).filter (bit m)).length

/-- The width that both ends allow (R324). -/
def State.agreedWidth (s : State) (p : Nat) : Nat :=
  match (s.port p).peer with
  | some i => min (s.reqWidth p) i.width
  | none => s.reqWidth p

/-- The set that the good lanes of port `p` give: in DORMANT lane 0 alone (R337; 01_architecture.md R29). -/
def State.laneChoice (s : State) (p good : Nat) : Nat := if s.power = 1 then good % 2 else laneSet good (lanesOf (s.agreedWidth p))

/-- Fine counts of `n` blocks on a lane at a rate (Table 11-1). -/
def blockFine (rate n : Nat) : Nat := n * (if rate = 0 then 2560 else if rate = 1 then 6400 else 21120) * 4194304 / 10000000

/-- The lanes of a port's set in ascending order, and the rate it runs at. -/
def State.laneList (s : State) (p : Nat) : List Nat := (List.range 4).filter (bit (s.fld (LNK_PORT_STAT p) LNK_PORT_STAT_LANES))
def State.rateNow (s : State) (p : Nat) : Nat := s.fld (LNK_PORT_STAT p) LNK_PORT_STAT_RATE_NOW

/-- Whole blocks that a lane at a rate carries in a number of fine counts (Table 11-1). -/
def blocksIn (rate n : Nat) : Nat := n * 10000000 / (4194304 * (if rate = 0 then 2560 else if rate = 1 then 6400 else 21120))

/-- The place of the rotation of a port that its lanes have reached: one place for each lane in a block time (R329). -/
def State.linePos (s : State) (p : Nat) : Nat := (s.laneList p).length * blocksIn (s.rateNow p) (s.now - (s.port p).stripeAt)

/-- The blocks that have gone out by now leave the line of a port; an idle line goes on at the next block time. (DEDUCED, log entry 59).
-/
def State.tidyLine (s : State) (p : Nat) : State :=
  let w := (s.laneList p).length
  s.onPort p fun x =>
    let k := s.linePos p - x.wireAt
    if k < x.wire.length then { x with wire := x.wire.drop k, wireAt := x.wireAt + k }
    else { x with wire := [], wireAt := max x.wireAt (s.linePos p + w), suspendAt := none }

/-- The lane index on which the block `k` places on in the line of a port goes out: the lanes in use in ascending order, in turn
(R329). -/
def State.lineLane (s : State) (p k : Nat) : Nat := (s.laneList p).getD (((s.port p).wireAt + k) % max 1 (s.laneList p).length) 0

/-- The blocks still to go out in the rotation of a port, each with its lane index (R329). -/
def State.lineBlocks (s : State) (p : Nat) : List (Nat × Nat × Nat) :=
  let l := (s.port p).wire
  (List.range l.length).zipWith (fun k b => (s.lineLane p k, b)) l

/-- Blocks go into the line at the next block boundary of the port, ahead of what is left of a cell (R328, R342). -/
def State.insertLine (s : State) (p : Nat) (blocks : List (Nat × Nat)) : State :=
  let w := (s.laneList p).length
  s.onPort p fun x =>
    let later := fun (a : Nat) => if a > x.wireAt + w then a + blocks.length else a
    { x with wire := x.wire.take w ++ blocks ++ x.wire.drop w, suspendAt := x.suspendAt.map later }

/-- Has the line of a port reached a cell boundary: nothing is left of a cell but what goes out in the present block time (R341)? -/
def State.atBoundary (s : State) (p : Nat) : Bool := decide ((s.port p).wire.length < max 1 (s.laneList p).length)

/-- Is a cell in progress on port `p` that a class C cell may suspend at the next block boundary (R342)? -/
def State.canSuspend (s : State) (p : Nat) : Bool :=
  !s.atBoundary p && (s.port p).suspendAt.any fun a => decide (a ≤ (s.port p).wireAt + (s.laneList p).length)

/-- The lanes of a port take the set `m` (LNK_PORT_STAT, LNK_LANE_STAT): time blocks go on its lowest lane (R337), striping starts again,
and what was in progress either way is cut short. A change of delay that comes with it is no path step: the next complete average is the
new reference (05_time_base.md R161). (DEDUCED, log entry 46). -/
def State.useLanes (s : State) (p m : Nat) : State :=
  let low := ((List.range 4).find? (bit m)).getD 0
  let s := ((s.setFld (LNK_PORT_STAT p) LNK_PORT_STAT_LANES m).setFld (LNK_PORT_STAT p) LNK_PORT_STAT_WIDTH_NOW (widthCode (laneCount m))).setFld
    (LNK_PORT_STAT p) LNK_PORT_STAT_TIME_LANE low
  let s := s.onPort p fun x => { x with stripeAt := s.now, wire := [], wireAt := 0, suspendAt := none, rx := [] }
  let s := s.onPtime p fun x => { x with ref := none, refFrom := s.second + 1 }
  (List.range 4).foldl (fun s i => s.setFld (LNK_LANE_STAT (4 * p + i)) LNK_LANE_STAT_IN_USE (b2n (bit m i))) s

/-- RESTRIPE goes out on every transmit lane of a port (R329, R337). -/
def State.sendRestripe (s : State) (p m : Nat) (ack : Bool) : State :=
  s.onPort p fun x => { x with aside := (List.range 4).map fun i => (i, restripeWord m ack) }

/-- UP, or DEGRADED with fewer lanes in use than the port requests (Table 11-4 step 7). -/
def State.upState (s : State) (p : Nat) : Nat :=
  if laneCount (s.fld (LNK_PORT_STAT p) LNK_PORT_STAT_LANES) < lanesOf (s.reqWidth p) then 4 else 3

/-- The pool cells allocated to a port: REPLAY and its 32 ingress cells (R347); none while it is OFF. -/
def State.portCells (s : State) (p : Nat) : Nat := if s.role p = rOFF then 0 else s.fld (LNK_PORT_CFG p) LNK_PORT_CFG_REPLAY + 32

/-- The link of a port is lost: sequence numbers and credits start again, what was sent and not acknowledged waits to be
sent again, and the port counts as failed (R326, R279). (DEDUCED, log entry 59). -/
def State.dropLink (s : State) (p : Nat) : State :=
  let mine := fun (q : Nat) => decide (q / 4 = p)
  let s := s.onQm fun m => { m with items := mapIf (fun i => mine i.q) (fun i => { i with sent := 0 }) m.items }
  let s := s.onRecs (fun r => mine r.q && r.place == .sending) fun r => { r with place := .queued, popped := 0 }
  let s := (s.onQst (4 * p + 2) fun x => { x with mid := none }).onQst (4 * p + 3) fun x => { x with mid := none }
  let s := s.onPort p fun x =>
    { x with txSeq := 0, rxNext := 0, replay := [], replayFrom := none, replaysInRow := 0, granted := {},
             sent := {}, given := {}, got := {}, linkDue := false, nakDue := false, sRun := 0, discardUntil := none,
             rx := [], cutTo := [], wire := [], suspendAt := none }
  s.failPort p

/-- A port begins training (R326, R332, R347): QUIET, IDENT blocks; a legacy port has no steps 1 to 4. A new REPLAY takes
effect. What its time exchange measured starts afresh (05_time_base.md R161). (DEDUCED, log entry 59). -/
def State.startTraining (s : State) (p : Nat) (planned : Bool) (cause : Nat) : State :=
  let s := if planned then s else s.dropLink p
  let s := s.bump (LNK_PORT_CNT p) LNK_PORT_CNT_RETRAINS
  let s := s.onQm fun m => { m with replayCells := Tab.set 0 m.replayCells p (s.portCells p) }
  let s := (s.useLanes p 0).setFld (LNK_PORT_STAT p) LNK_PORT_STAT_RATE_NOW (if s.legacyPort p then 1 else 2)
  let first := if s.legacyPort p then Train.agreed else .ident
  let size := s.fld (LNK_PORT_CFG p) LNK_PORT_CFG_REPLAY
  let s := s.onPort p fun x => { x with train := first, trainAt := s.now, planned := planned, peer := none, replaySize := size }
  let s := s.onPtime p fun x => { txSeq := x.txSeq }
  s.setPort p 2 cause

/-- PORT_TRAINING_START: a port that is to run and is OFF or DOWN begins training (R332). -/
def State.trainingStart (s : State) (p : Nat) : State :=
  if s.portRuns p && (s.pstate p == 0 || s.pstate p == 1) then s.startTraining p false 0 else s

/-- The meaning of PORT_TRAINING_START. -/
def execPortTrainingStart (t : Nat) (p : Fin 8) (s : State) : Host.Outcome State Fault Refusal := event t (State.trainingStart · p.val) s

/-- A protocol violation is counted and reported (R355): kinds 0, 1 and 3 have counts of their own. -/
def State.violation (s : State) (p kind : Nat) : State :=
  let s := if kind = 0 ∨ kind = 1 ∨ kind = 3 then s else s.bump (LNK_PORT_ERR p) LNK_PORT_ERR_VIOL
  s.issueLim 0xA004 p 1 1 true [p, 0, kind]

/-- The compatible role pairs (R333): a recorder announces role 0xF. -/
def rolesFit (mine peer : Nat) : Bool :=
  match mine with
  | 1 => peer == 2
  | 2 => peer == 1
  | 3 => peer == 4
  | 4 => peer == 3
  | 5 => peer == 6
  | 6 => peer == 5
  | 7 => peer == 15
  | 8 => peer == 8
  | _ => false

/-- TRAIN_IDENT_RECEIVED (R333, R324): rate and width are agreed, or the port enters MISMATCH. A peer at LEGACY pairs with no
NATIVE or QUIET request. -/
def State.trainIdent (s : State) (p : Nat) (i : Ident) : State :=
  let x := s.port p
  if x.train != .ident || !(s.pstate p == 2 || s.pstate p == 5) then s
  else
    let s := ((s.setFld (LNK_PORT_STAT p) LNK_PORT_STAT_PEER_VALID 1).setFld (LNK_PORT_STAT p) LNK_PORT_STAT_PEER_ROLE i.role).setFld
      (LNK_PORT_STAT p) LNK_PORT_STAT_PEER_ADDR i.addr
    if !rolesFit (s.role p) i.role || (s.address == some i.addr) then
      ((s.onPort p fun x => { x with train := .idle, trainAt := s.now }).violation p 12).setPort p 5 3
    else if i.rate = 1 then s
    else
      let s := (List.range 4).foldl (fun s k => s.setFld (LNK_LANE_STAT (4 * p + k)) LNK_LANE_STAT_LOCK (b2n (bit i.lockMask k))) s
      let s := s.setFld (LNK_PORT_STAT p) LNK_PORT_STAT_RATE_NOW (max i.rate (s.reqRate p))
      (s.onPort p fun x => { x with train := .agreed, peer := some i, goodMask := i.lockMask }).setPort p 2 2

/-- The meaning of TRAIN_IDENT_RECEIVED. -/
def execTrainIdentReceived (t : Nat) (p : Fin 8) (i : Ident) (s : State) : Host.Outcome State Fault Refusal :=
  event t (State.trainIdent · p.val i) s

/-- In MINIMAL the first RING port that comes up issues MINIMAL_ENTERED (15_porter_management.md R466). -/
def State.tellMinimal (s : State) : State :=
  if s.isMinimal && !s.sys.minimalTold && (List.range 8).any (fun p => (s.role p == rRingE || s.role p == rRingW) && s.portUp p) then
    (s.onSys fun y => { y with minimalTold := true }).issue 0x0003
      [s.nvm.reason, s.nvm.fails, s.fld MEM_BOOT_STAT MEM_BOOT_STAT_FAIL_MEM]
  else s

/-- The lanes that deskew admits: those whose marker came within 256 ns of the earliest one's (R334). -/
def admitted (markers : List (Option Marker)) : Nat :=
  let at_ := markers.filterMap fun m => m.map Marker.at_
  let first := at_.foldl min (at_.headD 0)
  (List.range 4).foldl (fun m i => if ((markers[i]?).getD none).any fun a => decide (a.at_ ≤ first + 107374) then m + 2 ^ i else m) 0

/-- Do the markers show lanes swapped within the port (R334)? -/
def swapped (markers : List (Option Marker)) : Bool :=
  (List.range 4).any fun i => ((markers[i]?).getD none).any fun m => m.lane != i

/-- TRAIN_READY_RECEIVED (R332): READY both ways, and each lane's alignment marker; the port becomes UP or DEGRADED
and grants its credits. Lanes swapped within the port are placed by their markers and counted once (R334); the lane index and port that
a lane was found with are kept (R336). -/
def State.trainReady (s : State) (p : Nat) (markers : List (Option Marker)) : State :=
  let x := s.port p
  let good := admitted markers
  let at_ := markers.filterMap fun m => m.map Marker.at_
  let first := at_.foldl min (at_.headD 0)
  let ok := if x.peer.isSome then good &&& x.goodMask else good
  let m := s.laneChoice p ok
  if x.train != .agreed || s.pstate p != 2 || m == 0 || decide (s.now ≥ x.trainAt + fineMs 5) then s
  else
    let s := if swapped markers then s.violation p 11 else s
    let s := (s.useLanes p m).onPort p fun x => { x with train := .idle, goodMask := ok, linkDue := true, linkAt := s.now, ackAt := s.now }
    let s := (List.range 4).foldl (fun s k => ((s.setFld (LNK_LANE_STAT (4 * p + k)) LNK_LANE_STAT_GOOD (b2n (bit ok k))).setFld (LNK_LANE_STAT (4 * p + k))
      LNK_LANE_STAT_FROZEN 0).onLane (4 * p + k) fun l =>
        let mk := (markers[k]?).getD none
        let place := mk.elim l.found fun a => (a.lane, a.port)
        { l with idleFrom := s.now, idleOther := 0, txIdleFrom := s.now, txIdleOther := 0, refreshed := l.refreshed + l.refreshes, refreshes := 0,
                 skew := mk.elim 0 fun a => a.at_ - first, found := place, seen := place, alignAt := s.now, bipRun := 0 }) s
    (s.setPort p (s.upState p) 2).tellMinimal

/-- The meaning of TRAIN_READY_RECEIVED. -/
def execTrainReadyReceived (t : Nat) (p : Fin 8) (markers : List (Option Marker)) (s : State) : Host.Outcome State Fault Refusal :=
  event t (fun s => s.trainReady p.val markers) s

/-- A port not up 5 ms after its training started pauses (R332). -/
def State.trainTimeout (s : State) (p : Nat) : State :=
  let x := s.port p
  if s.pstate p == 2 && x.train != .paused && decide (s.now ≥ x.trainAt + fineMs 5) then
    s.onPort p fun x => { x with train := .paused, trainAt := s.now }
  else s

/-- The meaning of TRAINING_TIMEOUT. -/
def execTrainingTimeout (t : Nat) (p : Fin 8) (s : State) : Host.Outcome State Fault Refusal := event t (State.trainTimeout · p.val) s

/-- The pause of 10 ms ends, training starts again at step 1, and a retrain counts (R332). -/
def State.trainRestart (s : State) (p : Nat) : State :=
  let x := s.port p
  if s.pstate p == 2 && x.train == .paused && decide (s.now ≥ x.trainAt + fineMs 10) then s.startTraining p x.planned 2 else s

/-- The meaning of TRAINING_RESTART. -/
def execTrainingRestart (t : Nat) (p : Fin 8) (s : State) : Host.Outcome State Fault Refusal := event t (State.trainRestart · p.val) s

/-- A port in MISMATCH tries step 1 again every second (R333). -/
def State.mismatchAgain (s : State) (p : Nat) : State :=
  if s.pstate p == 5 && decide (s.now ≥ (s.port p).trainAt + fineMs 1000) then
    (s.bump (LNK_PORT_CNT p) LNK_PORT_CNT_RETRAINS).onPort p fun x => { x with train := .ident, trainAt := s.now }
  else s

/-- The meaning of MISMATCH_RETRY. -/
def execMismatchRetry (t : Nat) (p : Fin 8) (s : State) : Host.Outcome State Fault Refusal := event t (State.mismatchAgain · p.val) s

/-- The number of a condition of R336. -/
def faultCode : LaneFault → Nat
  | .sync _ => 0
  | .lock => 1
  | .align => 2
  | .place => 3
  | .bip => 4
  | .los => 5

/-- The invalid sync headers among some. -/
def invalidSync (hs : List Nat) : Nat := (hs.filter fun h => h != 1 && h != 2).length

/-- Does lane `l` meet a condition of R336: 16 invalid sync headers within 64; loss of lock; no valid ALIGN for two marker periods; an
ALIGN with another lane index or port number than at training; BIP-8 errors in eight consecutive periods; loss of signal? -/
def State.laneFails (s : State) (l : Nat) (f : LaneFault) : Bool :=
  let x := s.lane l
  match f with
  | .sync hs => decide (hs.length ≤ 64) && decide (16 ≤ invalidSync hs)
  | .lock => true
  | .align => decide (s.now ≥ x.alignAt + blockFine (s.rateNow (l / 4)) (2 * 16384))
  | .place => x.seen != x.found
  | .bip => decide (x.bipRun ≥ 8)
  | .los => s.on (LNK_LANE_STAT l) LNK_LANE_STAT_LOS

/-- Invalid sync headers on a lane are counted, in units of 256 (R355 kind 0). -/
def State.countSync (s : State) (l n : Nat) : State :=
  let k := (s.lane l).syncRem + n
  ((s.bumpBy (LNK_LANE_STAT l) LNK_LANE_STAT_SYNC_ERR (k / 256)).onLane l fun x => { x with syncRem := k % 256 }).violation (l / 4) 0

/-- A lane in use is lost (R336, R337, R339): the widest set of the lanes that are still good, sent in RESTRIPE with a NAK for
the cell cut short; a legacy port retrains without a plan (R349); with no lane left the port fails and goes DOWN.
(DEDUCED, log entry 60). -/
def State.loseLane (s : State) (l : Nat) (f : LaneFault) : State :=
  let p := l / 4
  let i := l % 4
  let m := s.fld (LNK_PORT_STAT p) LNK_PORT_STAT_LANES
  if !s.portUp p || !bit m i || !s.laneFails l f then s
  else
    let s := s.bump (LNK_PORT_CNT p) LNK_PORT_CNT_LANE_LOSSES
    let s := (s.setFld (LNK_LANE_STAT l) LNK_LANE_STAT_GOOD 0).onLane l fun x => { x with lostAt := s.now }
    let s := match f with
      | .sync hs => (s.setFld (LNK_LANE_STAT l) LNK_LANE_STAT_LOCK 0).countSync l (invalidSync hs)
      | .lock => s.setFld (LNK_LANE_STAT l) LNK_LANE_STAT_LOCK 0
      | _ => s
    let good := (s.port p).goodMask &&& (15 - 2 ^ i)
    let s := s.onPort p fun x => { x with goodMask := good }
    let set := s.laneChoice p good
    let s := s.issue 0xA002 [p, i, faultCode f, set]
    if set = 0 then ((s.useLanes p 0).dropLink p).setPort p 1 1
    else if s.legacyPort p then s.startTraining p false 1
    else
      let s := ((s.useLanes p set).sendRestripe p set false).onPort p fun x => { x with linkDue := true, nakDue := true, discardUntil := some x.rxNext }
      s.setPort p (s.upState p) 1

/-- The meaning of LANE_LOST. -/
def execLaneLost (t : Nat) (l : Fin 32) (f : LaneFault) (s : State) : Host.Outcome State Fault Refusal := event t (State.loseLane · l.val f) s

/-- RESTRIPE_RECEIVED (R337): striping moves to the peer's set, and is acknowledged; an acknowledgement changes nothing more.
-/
def State.restripe (s : State) (p mask : Nat) (ack : Bool) : State :=
  if !s.portUp p || ack || mask % 16 == 0 then s
  else
    let s := (s.useLanes p (mask % 16)).sendRestripe p (mask % 16) true
    s.setPort p (s.upState p) 1

/-- The meaning of RESTRIPE_RECEIVED. -/
def execRestripeReceived (t : Nat) (p : Fin 8) (mask : Nat) (ack : Bool) (s : State) : Host.Outcome State Fault Refusal :=
  event t (State.restripe · p.val mask ack) s

/-- LANE_READMITTED (R338): a lost lane that has held lock since `lockAt`, for 1 s with every ALIGN clean, is good, where it lies within
the skew limit (R334); the set takes it in only where that widens it. (DEDUCED, log entry 60). -/
def State.readmit (s : State) (l lockAt skew : Nat) : State :=
  let p := l / 4
  let i := l % 4
  let x := s.lane l
  if !s.portUp p || s.on (LNK_LANE_STAT l) LNK_LANE_STAT_GOOD || s.legacyPort p || decide (lockAt < x.lostAt)
      || decide (s.now < max lockAt x.faultAt + fineMs 1000) || decide (skew > 107374) then s
  else
    let s := s.onLane l fun x => { x with skew := skew, seen := x.found, alignAt := s.now, bipRun := 0 }
    let good := (s.port p).goodMask ||| 2 ^ i
    let s := ((s.setFld (LNK_LANE_STAT l) LNK_LANE_STAT_GOOD 1).setFld (LNK_LANE_STAT l) LNK_LANE_STAT_LOCK 1).onPort p fun x => { x with goodMask := good }
    let set := s.laneChoice p good
    if laneCount set ≤ laneCount (s.fld (LNK_PORT_STAT p) LNK_PORT_STAT_LANES) then s
    else
      let s := ((s.useLanes p set).sendRestripe p set false).issue 0xA003 [p, i, set]
      s.setPort p (s.upState p) 1

/-- The meaning of LANE_READMITTED. -/
def execLaneReadmitted (t : Nat) (l : Fin 32) (lockAt skew : Nat) (s : State) : Host.Outcome State Fault Refusal :=
  event t (fun s => s.readmit l.val lockAt skew) s

/-- The IDLE blocks of `n` blocks on a lane: one in 16,384 is an ALIGN, and LINK and TIME blocks do not count (R334, R340). -/
def idleOf (n other : Nat) : Nat := n - n / 16384 - other

/-- Does a lane of a native port carry traffic's blocks (R340, R349)? -/
def State.idles (s : State) (l : Nat) : Bool :=
  s.portUp (l / 4) && s.on (LNK_LANE_STAT l) LNK_LANE_STAT_IN_USE && s.rateNow (l / 4) != 1

/-- IDLE_FREEZE: after 2^20 IDLE blocks in a row decision-feedback adaptation freezes; QUIET has none (R340, Table 11-3). -/
def State.freeze (s : State) (l : Nat) : State :=
  let x := s.lane l
  let rate := s.rateNow (l / 4)
  if s.idles l && rate == 0 && decide (idleOf (blocksIn rate (s.now - x.idleFrom)) x.idleOther ≥ 2 ^ 20) then
    s.setFld (LNK_LANE_STAT l) LNK_LANE_STAT_FROZEN 1
  else s

/-- The meaning of IDLE_FREEZE. -/
def execIdleFreeze (t : Nat) (l : Fin 32) (s : State) : Host.Outcome State Fault Refusal := event t (State.freeze · l.val) s

/-- The content of the `n`-th REFRESH block of a lane: the next 48 bits of a PRBS31 sequence (R340). -/
def refreshContent (l n : Nat) : Nat :=
  (genBits (Config.prbsSeed l 8) 4 0 (48 * n) 48).foldr (fun b v => b2n b + 2 * v) 0

/-- IDLE_REFRESH: while a long idle run lasts, each 8,192nd IDLE block gives way to a TRAIN REFRESH block (R340); adaptation goes on
on it. -/
def State.sendRefresh (s : State) (l : Nat) : State :=
  let x := s.lane l
  if s.idles l && decide (idleOf (blocksIn (s.rateNow (l / 4)) (s.now - x.txIdleFrom)) x.txIdleOther ≥ 2 ^ 20 + 8192 * (x.refreshes + 1)) then
    (s.onLane l fun x => { x with refreshes := x.refreshes + 1 }).onPort (l / 4) fun y =>
      { y with aside := [(l % 4, refreshWord (refreshContent l (x.refreshed + x.refreshes)))] }
  else s

/-- The meaning of IDLE_REFRESH. -/
def execIdleRefresh (t : Nat) (l : Fin 32) (s : State) : Host.Outcome State Fault Refusal := event t (State.sendRefresh · l.val) s

/-- A cell that arrives ends the idle runs of a port's receive lanes, and thaws them (R340). (DEDUCED, log entry 60). -/
def State.endIdle (s : State) (p : Nat) : State :=
  (s.laneList p).foldl (fun s i => (s.setFld (LNK_LANE_STAT (4 * p + i)) LNK_LANE_STAT_FROZEN 0).onLane (4 * p + i) fun l =>
    { l with idleFrom := s.now, idleOther := 0 }) s

/-- A cell that goes out ends the idle runs of a port's transmit lanes (R340). -/
def State.endTxIdle (s : State) (p : Nat) : State :=
  (s.laneList p).foldl (fun s i => s.onLane (4 * p + i) fun l =>
    { l with txIdleFrom := s.now, txIdleOther := 0, refreshed := l.refreshed + l.refreshes, refreshes := 0 }) s

/-- A replay starts from a sequence number (R345, R346); where eight in a row have made no progress the port retrains without a plan
instead. -/
def State.startReplay (s : State) (p seq : Nat) : State :=
  if (s.port p).replaysInRow ≥ 8 then s.startTraining p false 2
  else ((s.bump (LNK_PORT_ERR p) LNK_PORT_ERR_REPLAYS).pmc 0xA03 p 1).onPort p fun x =>
    { x with replayFrom := some seq, replaysInRow := x.replaysInRow + 1, ackAt := s.now }

/-- The transit record that a cell belongs to. -/
def cellKey (c : Cell) : Nat × Nat × Nat × Nat := (c.addr, c.rtype, c.index, c.pane)

/-- The transit cell of a queue entry. -/
def QItem.cell? (i : QItem) : Option Cell := match i.ctl with
  | .transit c => some c
  | _ => none

/-- Has enough of a transit record arrived to start it (R277)? -/
def State.cutReady (s : State) (q : Nat) (c : Cell) : Bool :=
  let cut := s.fld QM_CTRL QM_CTRL_CUT
  let same := s.qm.items.filterMap fun i => if i.q = q ∧ i.entered = i.cells then i.cell?.filter fun x => cellKey x == cellKey c else none
  same.any Cell.last || (cut != 0 && decide (same.length ≥ cut))

/-- The queue entry that queue `q` sends next: of a packet the one partly sent first; of transit cells those of the record
partly sent, else of the first record that may start (R277, R292). -/
def State.nextItem (s : State) (q : Nat) : Option QItem :=
  let ready := fun (i : QItem) => i.q == q && i.entered == i.cells && decide (i.sent < i.cells) &&
    match i.ctl with
    | .transit c =>
      !((List.range 32).any fun k => s.shutHolds k c.cls c.rtype c.addr) &&
        match (s.qst q).mid with
        | some key => key == cellKey c
        | none => s.cutReady q c
    | _ => (s.qst q).mid.isNone
  s.qm.items.find? ready

/-- What queue `q` sends next: an own record or an entry, in the order they came to the queue; a record partly sent is
finished first. -/
def State.nextOf (s : State) (q : Nat) : Option (Rec ⊕ QItem) :=
  match s.nextNow q, s.nextItem q with
  | none, none => none
  | some r, none => if (s.qst q).mid.isSome then none else some (.inl r)
  | none, some i => some (.inr i)
  | some r, some i =>
    if (s.qst q).mid.isSome then some (.inr i)
    else if r.popped > 0 ∨ r.agedFrom ≤ i.at_ then some (.inl r) else some (.inr i)

/-- Has port `p` a cell of a class to send, and a credit for it (R344)? In DORMANT classes C and T alone go out (R29). -/
def State.canSend (s : State) (p cls : Nat) : Bool :=
  (s.nextOf (4 * p + cls)).isSome && decide ((s.port p).sent.get cls < (s.port p).granted.get cls) && (s.power != 1 || decide (cls ≤ 1))

/-- The class that a port starts at a cell boundary: C, T, S, B in order, and B for one cell in 16 where both wait (R341). -/
def State.nextClass (s : State) (p : Nat) : Option Nat :=
  if s.canSend p 2 && s.canSend p 3 && decide ((s.port p).sRun ≥ 15) && !s.canSend p 0 && !s.canSend p 1 then some 3
  else (List.range 4).find? fun c => s.canSend p c

/-- The instant at which a cell put in the line now has sent its END, `k` cells on (R347). -/
def State.endAt (s : State) (p k : Nat) : Nat :=
  s.now + blockFine (s.rateNow p) (ceilDiv (34 * k) (max 1 (s.laneList p).length))

/-- The sequence numbers in the order of the ENDs (R330): a class C cell that preempts takes the number before that of the cell it
suspends, which is the last of the replay buffer. -/
def PortSt.queueCell (x : PortSt) (e : Sent) (suspend : Bool) (cellTime : Nat) : PortSt :=
  match suspend, x.replay.getLast? with
  | true, some y =>
    { x with txSeq := (x.txSeq + 1) % 65536,
             replay := x.replay.dropLast ++ [{ e with seq := y.seq }, { y with seq := x.txSeq, at_ := y.at_ + cellTime }],
             wire := x.wire.dropLast ++ [(2, endWord y.cls y.stomp x.txSeq (crc32c (padCell y.bytes)))] }
  | _, _ => { x with txSeq := (x.txSeq + 1) % 65536, replay := x.replay ++ [{ e with seq := x.txSeq }] }

/-- A cell goes out on a port under the next sequence number and stays in the replay buffer (R330, R345). It goes into the line: at a
cell boundary behind it, a class C cell inside a suspended one with PREEMPT (R328, R342). -/
def State.sendCell (s : State) (p cls : Nat) (rid item : Option Nat) (last stomp : Bool) (bytes : List Byte) : State :=
  let both := s.canSend p 3
  let suspend := cls == 0 && s.canSuspend p
  let s := ((s.pmc 0x802 (4 * p + cls) 1).pmc 0xA01 p 1).pmc 0xA04 p (b2n suspend)
  let s := s.onQst (4 * p + cls) fun x => { x with lastCell := bytes }
  let cellTime := s.endAt p 1 - s.now
  let seq := if suspend then ((s.port p).txSeq + 65535) % 65536 else (s.port p).txSeq
  let s := s.onPort p fun x =>
    { x.queueCell ⟨seq, cls, rid, item, last, stomp, bytes, s.endAt p 1⟩ suspend cellTime with
      sent := x.sent.add cls 1,
      ackAt := if x.replay.isEmpty then s.now else x.ackAt,
      sRun := if cls = 2 then (if both then x.sRun + 1 else 0) else if cls = 3 then 0 else x.sRun }
  let blocks := cellBlocks cls suspend stomp seq bytes
  let s := if suspend then s.insertLine p blocks
    else s.onPort p fun x => { x with wire := x.wire ++ blocks, suspendAt := if cls = 0 then none else some (x.wireAt + x.wire.length + 1) }
  let s := if suspend then s.onPort p fun x => { x with suspendAt := some (x.wireAt + (s.laneList p).length + 34) } else s
  let n := (s.port p).replay.length
  let s := if s.fld (LNK_PORT_RTT p) LNK_PORT_RTT_REPLAY_PEAK < n then s.setFld (LNK_PORT_RTT p) LNK_PORT_RTT_REPLAY_PEAK n else s
  s.endTxIdle p

/-- The reply that a reset waits for has left its port: the reset is due 1 ms later (12_command_packets.md R392).
(DEDUCED, log entry 42). -/
def State.replyLeft (s : State) (c : Ctl) : State :=
  match c, s.sys.resetAfterReply with
  | .packet op p, some (rop, rtag) =>
    if op = rop ∧ p.tag = rtag ∧ bit p.flags 0 then
      (s.onSys fun y => { y with resetAfterReply := none }).onCmd fun m => { m with resetArmed := some (s.now + fineMs 1, if rop = 0x0007 then 2 else 3) }
    else s
  | _, _ => s

/-- The first waiting cell of a class goes out. A cell whose memory word does not read is not sent: an own record is dropped
with reason 3, a transit cell discarded (14_memory_and_ecc.md Table 14-3). A discarded transit cell leaves for a shutter
(R293). -/
def State.startCell (s : State) (p cls : Nat) : State :=
  let q := 4 * p + cls
  if s.depthAtStart q = 0 && (s.freedNow q).isNone then s.underrun q
  else match s.nextOf q with
  | none => s
  | some (.inl r) =>
    let s := s.onQst q fun x => { x with freed := none }
    let rd := s.memReadRange 1 ((Config.poolCell r.id r.popped).toNat * 256) 256 1
    if !rd.1 then (if s.qm.recs.any fun x => x.id == r.id then rd.2.dropRec r 3 else rd.2)
    else
      let s := rd.2.sendCell p cls (some r.id) none (r.popped + 1 == r.cells) false (r.cell r.popped)
      s.onRec r.id fun x => { x with place := .sending, popped := x.popped + 1 }
  | some (.inr i) =>
    let drop := fun (s : State) => s.onQm fun m => { m with items := m.items.filter fun j => j.iid != i.iid }
    let rd := s.memReadRange 1 ((Config.poolCell (2 ^ 48 + i.iid) i.sent).toNat * 256) 256 1
    let gone := match i.ctl with
      | .transit c => (List.range 32).any fun k => s.shutDiscards k c.cls c.rtype c.addr
      | _ => false
    if gone then drop s
    else if !rd.1 then drop rd.2
    else
      let last := i.sent + 1 == i.cells
      let s := rd.2.sendCell p cls none (some i.iid) last false (s.ctlCell i.ctl cls i.sent i.cells)
      let s := s.onQm fun m => { m with items := mapIf (fun j => j.iid == i.iid) (fun j => { j with sent := j.sent + 1 }) m.items }
      let s := match i.ctl with
        | .transit c => s.onQst q fun x => { x with mid := if c.last then none else some (cellKey c) }
        | _ => s
      if last then s.replyLeft i.ctl else s

/-- The next cell of a replay goes out again, as it first did (R345). -/
def State.replayCell (s : State) (p : Nat) (e : Sent) : State :=
  let next := (e.seq + 1) % 65536
  let s := s.onPort p fun x =>
    { x with replayFrom := if x.replay.any (fun e => e.seq == next) then some next else none,
             replay := mapIf (fun y => y.seq == e.seq) (fun y => { y with at_ := s.endAt p 1 }) x.replay,
             wire := x.wire ++ cellBlocks e.cls false e.stomp e.seq e.bytes, suspendAt := none }
  (s.pmc 0xA01 p 1).endTxIdle p

/-- The cell of sequence number `k` is replayed; with none left of that number the replay has ended (R345). -/
def State.replayNext (s : State) (p k : Nat) : State :=
  match (s.port p).replay.find? fun e => e.seq == k with
  | some e => s.replayCell p e
  | none => s.onPort p fun x => { x with replayFrom := none }

/-- EGRESS_CELL_START (R341, R342, R345, R346): at a cell boundary a replay goes on first; else, while the replay buffer has room, the
first waiting cell in class order. While a cell of class T, S or B is in progress a class C cell preempts it. (DEDUCED, log entry 59;
DESIGN CHOICE, log entry 68). -/
def State.egress (s : State) (p : Nat) : State :=
  if !s.portUp p then s
  else
    let s := s.tidyLine p
    let x := s.port p
    let room := decide (x.replay.length < x.replaySize)
    if !s.atBoundary p then
      if s.canSuspend p && x.replayFrom.isNone && room && s.canSend p 0 then s.startCell p 0 else s
    else match x.replayFrom with
      | some k => s.replayNext p k
      | none =>
        if !room then s
        else match s.nextClass p with
          | some c => s.startCell p c
          | none => s

/-- The meaning of EGRESS_CELL_START. -/
def execEgressCellStart (t : Nat) (p : Fin 8) (s : State) : Host.Outcome State Fault Refusal := event t (State.egress · p.val) s

/-- The receiver asks for a replay from the sequence number it expects (R345). -/
def State.nak (s : State) (p : Nat) : State :=
  s.onPort p fun x => { x with linkDue := true, nakDue := true, discardUntil := some x.rxNext }

/-- Instants of the last second, with one more. -/
def State.recent (s : State) (l : List Nat) : List Nat := (l.filter fun a => decide (a + fineMs 1000 > s.now)) ++ [s.now]

/-- The port that a transit cell of class S or B goes out by: its next hop (R351); at a hub without an address, the port opposite its
arrival (01_architecture.md R18). -/
def State.transitHop (s : State) (p addr : Nat) : Option Nat :=
  if s.address.isNone then s.opposite p else (s.recordHop addr).map Prod.fst

/-- A transit cell of class S or B goes to the queue of its next hop, or is held while routes settle (R351, R353). The active
head keeps mirrored black-box entries instead (15_porter_management.md R474). -/
def State.routeCell (s : State) (p : Nat) (c : Cell) : State :=
  if c.cls = 3 ∧ c.rtype = 0 ∧ s.isActive then
    let es := (List.range 3).filterMap fun i =>
      let b := bytesAt c.payload (64 * i) 64
      if b.length = 64 ∧ crc32c (b.take 60) = num b 60 4 then
        some (⟨num b 0 4, num b 4 8, num b 12 1, num b 13 1 % 16, num b 13 1 / 16, num b 14 2, num b 16 8, num b 24 4, wordsOf64 (b.drop 28) 4⟩ : BBEntry)
      else none
    let hub := bits c.addr 10 11
    s.onRed fun r =>
      let all := r.bbOthers ++ es.map fun e => (hub, e)
      let past := (all.filter fun e => e.1 == hub).length - 512
      { r with bbOthers := dropFirst hub past all }
  else if (List.range 32).any (fun k => s.shutDiscards k c.cls c.rtype c.addr) && bits c.addr 10 11 != s.addr then s
  else match s.transitHop p c.addr with
    | some o =>
      if o = p then s.holdItem (qitem (4 * o + c.cls) 1 (.transit c) p false) else s.enqueue (qitem (4 * o + c.cls) 1 (.transit c) p false)
    | none => s.holdItem (qitem 64 1 (.transit c) p false)
where
  /-- The `k` 64-bit numbers that bytes spell. -/
  wordsOf64 (bs : List Byte) : Nat → List Nat
    | 0 => []
    | k + 1 => num bs 0 8 :: wordsOf64 (bs.drop 8) k
  /-- A list without its first `n` entries of a hub. -/
  dropFirst (hub : Nat) : Nat → List (Nat × BBEntry) → List (Nat × BBEntry)
    | 0, l => l
    | _, [] => []
    | n + 1, e :: l => if e.1 = hub then dropFirst hub n l else e :: dropFirst hub (n + 1) l

/-- The ports on which a class C packet with destination `dest`, arriving on port `p`, is forwarded by cut-through (R343, R354): none
for one addressed to this hub alone. -/
def State.cutPorts (s : State) (p dest : Nat) : List Nat :=
  if epScope dest == 0 && epKind dest != 1 && s.address == some (epNum dest) then []
  else (s.packetPorts dest p).filter fun q => q != p && s.portUp q

/-- A class C cell being forwarded has failed: its END goes out with STOMP and the CRC inverted (R343), where the egress could start it.
(DEDUCED, log entry 60). -/
def State.stompOn (s : State) (bytes : List Byte) (q : Nat) : State :=
  let s := s.tidyLine q
  let x := s.port q
  if decide (x.sent.c < x.granted.c) && decide (x.replay.length < x.replaySize) && x.replayFrom.isNone then
    s.sendCell q 0 none none false true bytes
  else s

/-- A cell's END (R345, R355): what the receiver makes of the cell. `bytes` is what its data blocks carried. The contents of classes C
and T are taken up by the rows of their own. (DESIGN CHOICE, log entry 68). -/
def State.cellEnd (s : State) (p cls : Nat) (bytes : List Byte) (stomp : Bool) (seq crc : Nat) : State :=
  let x := s.port p
  let c := cellOfBytes bytes
  let ports := if cls ≠ 0 then [] else if c.first then s.cutPorts p (num bytes 24 2) else x.cutTo
  let s := if cls ≠ 0 then s else s.onPort p fun x => { x with cutTo := if c.last then [] else ports }
  if bytes.length ≠ 256 then (s.violation p 5).nak p
  else if (if stomp then crc ^^^ 0xFFFFFFFF else crc) ≠ crc32c bytes then
    ports.foldl (fun s q => s.stompOn bytes q) (((s.bump (LNK_PORT_ERR p) LNK_PORT_ERR_CRC_ERR).violation p 3).nak p)
  else if seq ≠ x.rxNext then
    if (x.rxNext + 65536 - seq) % 65536 < 32768 then (if x.discardUntil.isSome then s else s.violation p 4).onPort p fun x => { x with linkDue := true }
    else if x.discardUntil.isSome then s
    else (s.violation p 4).nak p
  else if x.got.get cls ≥ x.given.get cls then
    let s := (s.violation p 7).onPort p fun x => { x with creditViol := s.recent x.creditViol }
    if (s.port p).creditViol.length ≥ 16 then s.startTraining p false 2 else s.nak p
  else
    let s := s.onPort p fun x => { x with rxNext := (x.rxNext + 1) % 65536, got := x.got.add cls 1, linkDue := true, nakDue := false, discardUntil := none }
    if stomp then ports.foldl (fun s q => s.stompOn bytes q) s
    else
      let s := s.pmc 0xA02 p 1
      if c.cls ≠ cls then s.violation p 10
      else if cls ≤ 1 then s
      else s.routeCell p c

/-- A START arrives (R328, R355 kind 6): outside a cell, or of a class C cell that preempts a cell of another class; else both cells are
to be discarded. -/
def State.cellStart (s : State) (p cls : Nat) (preempt : Bool) : State :=
  let s := s.endIdle p
  let rx := (s.port p).rx
  let fits := if preempt then cls == 0 && rx.all (fun c => c.cls != 0) && decide (rx.length ≤ 1) else rx.isEmpty
  if fits then s.onPort p fun x => { x with rx := ⟨cls, [], false⟩ :: x.rx }
  else ((s.violation p 6).nak p).onPort p fun x =>
    { x with rx := ⟨cls, [], true⟩ :: (if preempt then x.rx.map fun c => { c with bad := true } else []) }

/-- An ALIGN arrives on lane `l` (R334, R336, R355 kind 1): a valid one shows its lane and port; its BIP-8 is compared with that of the
blocks since the one before. -/
def State.alignIn (s : State) (l lane port bip : Nat) (valid : Bool) (since : List (BitVec 64)) : State :=
  if !valid then s.onLane l fun x => { x with faultAt := s.now }
  else
    let s := s.onLane l fun x => { x with alignAt := s.now, seen := (lane, port) }
    if bip8 since = bip then s.onLane l fun x => { x with bipRun := 0 }
    else ((s.bump (LNK_LANE_STAT l) LNK_LANE_STAT_BIP_ERR).onLane l fun x => { x with bipRun := x.bipRun + 1, faultAt := s.now }).violation (l / 4) 1

/-- One block at the receiver of a port (R327, R328, R355). -/
def State.blockIn (p : Nat) (s : State) (b : Block) : State :=
  let x := s.port p
  if !s.portUp p then s
  else match blockKind b, x.rx with
    | .invalid, _ => s.countSync (4 * p + b.lane % 4) 1
    | .unknown, _ => s.violation p 2
    | .other, _ => s
    | .align lane port bip valid, _ => s.alignIn (4 * p + b.lane % 4) lane port bip valid b.since
    | .start cls preempt, _ => s.cellStart p cls preempt
    | .idle, [] => s
    | .idle, c :: r =>
      if c.bad || c.cls == 0 then s else ((s.violation p 5).nak p).onPort p fun x => { x with rx := { c with bad := true } :: r }
    | .data _, [] => (s.violation p 5).nak p
    | .data d, c :: r => s.onPort p fun x => { x with rx := { c with data := if c.data.length ≤ 256 then c.data ++ d else c.data } :: r }
    | .finish _ _ _ _, [] => (s.violation p 5).nak p
    | .finish _ stomp seq crc, c :: r =>
      let s := s.onPort p fun x => { x with rx := r }
      if c.bad then s else s.cellEnd p c.cls c.data stomp seq crc

/-- CELL_RECEIVED (R345, R355): the blocks that have arrived on a port, LINK, TIME, TRAIN and RESTRIPE blocks having rows of their own.
(DESIGN CHOICE, log entry 68). -/
def State.cellIn (s : State) (p : Nat) (blocks : List Block) : State := blocks.foldl (State.blockIn p) s

/-- The meaning of CELL_RECEIVED. -/
def execCellReceived (t : Nat) (p : Fin 8) (blocks : List Block) (s : State) : Host.Outcome State Fault Refusal :=
  event t (State.cellIn · p.val blocks) s

/-- A cell is acknowledged (R278, R283): the record whose LAST it is counts as delivered, one of class B without an index is
freed, and so is the entry it belongs to. -/
def State.acked (s : State) (e : Sent) : State :=
  if !e.lastCell then s
  else match e.rid, e.item with
    | some r, _ =>
      match s.qm.recs.find? fun x => x.id == r with
      | some x =>
        if x.rtype = 6 then s.freeRec r
        else s.onRec r fun x => { x with deliveredAt := some s.now, place := if x.place == .sending then .delivered else x.place }
      | none => s
    | _, some i => s.onQm fun m => { m with items := m.items.filter fun j => j.iid != i }
    | _, _ => s

/-- LINK_BLOCK_RECEIVED (R344, R345, R355): acknowledgements free the replay buffer and mark records delivered, NAK starts a
replay, credits advance. (DEDUCED, log entry 59). -/
def State.linkIn (s : State) (p : Nat) (b : LinkBlock) : State :=
  let x := s.port p
  if !s.portUp p then s
  else
    let s := s.onLane (4 * p + b.lane % 4) fun l => { l with idleOther := l.idleOther + 1 }
    let oldest := (x.txSeq + 65536 - x.replay.length) % 65536
    let n := (b.ack + 65536 - oldest) % 65536
    let step := fun cls cred => (cred + 256 - x.sent.get cls % 256) % 256
    let back := fun cls cred => decide (step cls cred < x.granted.get cls - x.sent.get cls)
    if n > x.replay.length then
      let s := (s.violation p 8).onPort p fun x => { x with ackViol := s.recent x.ackViol }
      if (s.port p).ackViol.length ≥ 8 then s.startTraining p false 2 else s
    else if back 0 b.credC || back 1 b.credT || back 2 b.credS || back 3 b.credB then s.violation p 9
    else
      let got := x.replay.take n
      let s := got.foldl (fun s e => s.acked e) s
      let s := match got.getLast? with
        | some e => s.setFld (LNK_PORT_RTT p) LNK_PORT_RTT_RTT (satN 20 ((fineToPs (s.now - e.at_ : Nat)).toNat / 1000))
        | none => s
      let grant := fun cls cred => x.sent.get cls + step cls cred
      let s := s.onPort p fun x =>
        { x with replay := x.replay.drop n, granted := ⟨grant 0 b.credC, grant 1 b.credT, grant 2 b.credS, grant 3 b.credB⟩,
                 ackAt := if n = 0 then x.ackAt else s.now, replaysInRow := if n = 0 then x.replaysInRow else 0,
                 replayFrom := match x.replayFrom with
                   | some k => if got.any (fun e => e.seq == k) then (x.replay.drop n).head?.map Sent.seq else some k
                   | none => none }
      if b.nak && !(s.port p).replay.isEmpty then s.startReplay p b.ack else s

/-- The meaning of LINK_BLOCK_RECEIVED. -/
def execLinkBlockReceived (t : Nat) (p : Fin 8) (b : LinkBlock) (s : State) : Host.Outcome State Fault Refusal :=
  event t (State.linkIn · p.val b) s

/-- The cells of a class from port `p` that have not entered their next queue. -/
def State.atIngress (s : State) (p cls : Nat) : Nat :=
  (s.qm.items.foldl (fun n i => if i.fromPort = p ∧ i.q % 4 = cls ∧ i.q < 32 then n + (i.cells - i.entered) else n) 0)
    + (s.qm.holdItems.filter fun h => h.item.fromPort == p && (match h.item.ctl with
        | .transit c => c.cls == cls
        | _ => cls == 0)).length

/-- The credits a port grants now (Table 11-5): never backward; S and B only outside DORMANT and TEST, and while 1,024 shared
cells are free. -/
def State.grantNow (s : State) (p cls : Nat) : Nat :=
  let x := s.port p
  let limit := match cls with
    | 0 | 1 => 16
    | 2 => s.fld (LNK_PORT_CREDIT p) LNK_PORT_CREDIT_CREDIT_S
    | _ => s.fld (LNK_PORT_CREDIT p) LNK_PORT_CREDIT_CREDIT_B
  let open_ := decide (cls ≤ 1) || (s.portSB p && decide (s.freeShared ≥ 1024))
  if open_ then max (x.given.get cls) (x.got.get cls + limit - s.atIngress p cls) else x.given.get cls

/-- LINK_BLOCK_SEND (R344): within 256 ns of a change in grant or acknowledgement, or 10 us after the last; NAK asks for a replay (R345).
The block goes out at the next block boundary, inside a cell too (R328). -/
def State.linkOut (s : State) (p : Nat) : State :=
  let x := s.port p
  let g : Four := ⟨s.grantNow p 0, s.grantNow p 1, s.grantNow p 2, s.grantNow p 3⟩
  if !s.portUp p || !(x.linkDue || g != x.given || decide (s.now ≥ x.linkAt + fineUs 10)) then s
  else
    let s := s.tidyLine p
    let w := (s.laneList p).length
    let block := (2, linkWord x.rxNext x.nakDue g)
    let lane := s.lineLane p (min w (s.port p).wire.length)
    let s := (s.insertLine p [block]).onLane (4 * p + lane) fun l => { l with txIdleOther := l.txIdleOther + 1 }
    s.onPort p fun x => { x with given := g, linkDue := false, nakDue := false, linkAt := s.now }

/-- The meaning of LINK_BLOCK_SEND. -/
def execLinkBlockSend (t : Nat) (p : Fin 8) (s : State) : Host.Outcome State Fault Refusal := event t (State.linkOut · p.val) s

/-- No acknowledgement has come for four round trips and 10 us: a replay from the oldest cell (R346). -/
def State.replayLate (s : State) (p : Nat) : State :=
  let x := s.port p
  match x.replay.head? with
  | some e =>
    let wait := fineUs 10 + 4 * (s.fld (LNK_PORT_RTT p) LNK_PORT_RTT_RTT) * 4194304 / 10000
    if s.portUp p && decide (s.now ≥ x.ackAt + wait) then s.startReplay p e.seq else s
  | none => s

/-- The meaning of REPLAY_TIMEOUT. -/
def execReplayTimeout (t : Nat) (p : Fin 8) (s : State) : Host.Outcome State Fault Refusal := event t (State.replayLate · p.val) s

/-- Every 100 ms a hub with an address sends its link state (R350). -/
def State.linkRefresh (s : State) : State :=
  if s.booted && decide (s.now ≥ s.lnk.refreshedAt + fineMs 100) then s.sendLinkState false else s

/-- The meaning of LINK_STATE_REFRESH. -/
def execLinkStateRefresh (t : Nat) (s : State) : Host.Outcome State Fault Refusal := event t State.linkRefresh s

/-- What was held without a route goes on where there is one now (R353). -/
def State.retryHeld (s : State) : State :=
  let held := s.qm.holdItems
  held.foldl (fun s h => match h.item.ctl with
    | .packet op p => 
      let ports := s.packetPorts p.dest h.item.fromPort
      if ports.isEmpty ∨ ports.contains h.item.fromPort then s.onQm fun m => { m with holdItems := m.holdItems ++ [h] }
      else ports.foldl (fun s q => s.pushC q op p h.item.fromPort) s
    | .transit c =>
      match s.transitHop h.item.fromPort c.addr with
      | some o =>
        if o = h.item.fromPort then s.onQm fun m => { m with holdItems := m.holdItems ++ [h] }
        else s.enqueue { h.item with q := 4 * o + c.cls }
      | none => s.onQm fun m => { m with holdItems := m.holdItems ++ [h] }
    | _ => s) (s.onQm fun m => { m with holdItems := [] })

/-- Is generation `a` newer than `b`, in 16-bit serial arithmetic (R350)? -/
def newer (a b : Nat) : Bool := a != b && decide ((a + 65536 - b) % 65536 < 32768)

/-- LINK_STATE_RECEIVED (R350, R351): a newer state is stored, flooded on and routed by; the same generation refreshes it.
(DEDUCED, log entry 61). -/
def State.linkStateIn (s : State) (p : Nat) (l : LinkState) : State :=
  let ring := decide (1 ≤ s.role p) && decide (s.role p ≤ 4)
  if !s.portUp p || !ring || s.address == some l.origin then s
  else match s.lnk.table.find? fun e => e.ls.origin == l.origin with
    | some e =>
      if newer l.generation e.ls.generation then flood s l
      else if l.generation = e.ls.generation then
        s.onLnk fun n => { n with table := mapIf (fun e => e.ls.origin == l.origin) (fun e => { e with at_ := s.now }) n.table }
      else s
    | none => flood s l
where
  /-- Store a link state, forward it and recompute the routes. -/
  flood (s : State) (l : LinkState) : State :=
    let s := s.onLnk fun n => { n with table := (n.table.filter fun e => e.ls.origin != l.origin) ++ [⟨l, s.now⟩] }
    ((s.ringPorts p).foldl (fun s q => s.pushT q (.linkState l) p) s).reroute.retryHeld

/-- The meaning of LINK_STATE_RECEIVED. -/
def execLinkStateReceived (t : Nat) (p : Fin 8) (l : LinkState) (s : State) : Host.Outcome State Fault Refusal :=
  event t (State.linkStateIn · p.val l) s

/-- A link state expires 350 ms after its last refresh, its ports as down (R350). -/
def State.linkExpire (s : State) (origin : Nat) : State :=
  if s.lnk.table.any fun e => e.ls.origin == origin && decide (s.now ≥ e.at_ + fineMs 350) then
    (s.onLnk fun n => { n with table := n.table.filter fun e => e.ls.origin != origin }).reroute.retryHeld
  else s

/-- The meaning of LINK_STATE_EXPIRY. -/
def execLinkStateExpiry (t origin : Nat) (s : State) : Host.Outcome State Fault Refusal := event t (State.linkExpire · origin) s

/-- The record of a held transit cell. -/
def HeldItem.key? (h : HeldItem) : Option (Nat × Nat × Nat × Nat) := h.item.cell?.map cellKey

/-- What has been held for 10 ms without a route is discarded: packets, and transit cells with what else is held of their record; each
packet and each record counts once (R353). -/
def State.holdExpire (s : State) : State :=
  let s := s.retryHeld
  let due := s.qm.holdItems.filter fun h => decide (s.now ≥ h.since + fineMs 10)
  let keys := (due.filterMap HeldItem.key?).eraseDups
  let gone := fun (h : HeldItem) => match h.key? with
    | some k => keys.contains k
    | none => decide (s.now ≥ h.since + fineMs 10)
  (s.onQm fun m => { m with holdItems := m.holdItems.filter fun h => !gone h }).bumpBy LNK_ROUTE_STAT LNK_ROUTE_STAT_HELD_DISCARDS
    (keys.length + (due.filter fun h => h.key?.isNone).length)

/-- The meaning of TRANSIT_HOLD_EXPIRY. -/
def execTransitHoldExpiry (t : Nat) (s : State) : Host.Outcome State Fault Refusal := event t State.holdExpire s

/-- MODULE_POLL (R359): a module that has not been read for a second is read; what it answered is kept and shown; one that does not
answer, signals loss or raises an alarm is reported; loss of signal on a lane in use is a lost lane; the transmitters of a port that is
OFF, or of a module that is absent, are disabled. (DEDUCED, log entry 60). -/
def State.moduleRead (s : State) (p : Nat) (r : ModuleRead) : State :=
  let due := match (Tab.get {} s.lnk.modules p).at_ with
    | some a => decide (s.now ≥ a + fineMs 1000)
    | none => true
  if s.fld (LNK_PORT_CFG p) LNK_PORT_CFG_MODULE = 0 || !due then s
  else
    let a := LNK_MOD_STAT p
    let old := s.rd a
    let los := r.los % 16
    let s := s.onLnk fun n => { n with modules := Tab.set {} n.modules p ⟨some r, some s.now, s.role p == rOFF || !r.present⟩ }
    let s := ((((s.setFld a LNK_MOD_STAT_PRESENT (b2n r.present)).setFld a LNK_MOD_STAT_READ_OK (b2n (r.present && r.readOk))).setFld a LNK_MOD_STAT_LOS los).setFld
      a LNK_MOD_STAT_ALARM (b2n r.alarm)).setFld a LNK_MOD_STAT_TEMP r.temp
    let s := (List.range 4).foldl (fun s i => s.setFld (LNK_LANE_STAT (4 * p + i)) LNK_LANE_STAT_LOS (b2n (bit los i))) s
    let bad := !(r.present && r.readOk) || r.alarm || los != 0
    let status := fun (w : Word) => (wfld w LNK_MOD_STAT_PRESENT, wfld w LNK_MOD_STAT_READ_OK, wfld w LNK_MOD_STAT_LOS, wfld w LNK_MOD_STAT_ALARM)
    let s := if bad && status old != status (s.rd a) then s.issue 0xA006 [p, b2n r.present, los, b2n r.alarm] else s
    (List.range 4).foldl (fun s i => s.loseLane (4 * p + i) .los) s

/-- The clock of a port's management interface, in kHz (R359). -/
def State.moduleKhz (s : State) (p : Nat) : Nat := if s.on (LNK_PORT_CFG p) LNK_PORT_CFG_MOD_SLOW then 100 else 400

/-- The meaning of MODULE_POLL. -/
def execModulePoll (t : Nat) (p : Fin 8) (r : ModuleRead) (s : State) : Host.Outcome State Fault Refusal := event t (State.moduleRead · p.val r) s

end Sys2Proof.Machine
end

