-- ==== Sys2Proof/Machine/LinkCmds.lean ====
section
/-!
DEFINITION. The commands of the LNK block (11_serial_lanes_and_syrilink.md R356 to R358, R360 to R365).
-/

namespace Sys2Proof.Machine

open Reg Bits

/-- Does a port's configuration hold no value that PORT_CONFIG refuses with BAD_PARAM (R347, R360, Table 11-5)? -/
def State.portWordsOk (s : State) (p : Nat) (cfg cred : Word) : Bool :=
  let r := wfld cfg LNK_PORT_CFG_ROLE
  let n := wfld cfg LNK_PORT_CFG_REPLAY
  decide (r ≤ 8) && wfld cfg LNK_PORT_CFG_RATE != 3 && wfld cfg LNK_PORT_CFG_WIDTH != 3 && wfld cfg LNK_PORT_CFG_MODULE != 3
    && decide (64 ≤ n) && decide (n ≤ if 5 ≤ r ∧ r ≤ 7 then 2304 else 512)
    && decide (16 ≤ wfld cred LNK_PORT_CREDIT_CREDIT_S) && decide (4 ≤ wfld cred LNK_PORT_CREDIT_CREDIT_B)
    && (r == rOFF || (List.range 8).all fun q => q == p || s.role q != r)

/-- The pool cells that a port is to hold until its next training: the larger of the old and the new allocation (R347). -/
def State.portHold (s : State) (p : Nat) (cfg : Word) : Nat :=
  let new := if wfld cfg LNK_PORT_CFG_ROLE = rOFF then 0 else wfld cfg LNK_PORT_CFG_REPLAY + 32
  max new (Tab.get 0 s.qm.replayCells p)

/-- Does the pool allow it (R273)? (DEDUCED, log entry 59). -/
def State.portFits (s : State) (p : Nat) (cfg : Word) : Bool :=
  decide (s.replayTotal - Tab.get 0 s.qm.replayCells p + s.portHold p cfg + (List.range 64).foldl (fun n q => n + s.qReserve q) 0 ≤ 65536)

/-- A port takes a new configuration (R326, R357, R360): TEST and a port not to run go out of service, a new role retrains
without a plan, a new RATE, WIDTH or PRESET with one. -/
def State.configurePort (s : State) (p : Nat) (cfg cred : Word) : State :=
  let old := s.rd (LNK_PORT_CFG p)
  let ran := s.portRuns p
  let s := ((s.wr (LNK_PORT_CFG p) cfg).wr (LNK_PORT_CREDIT p) cred).onQm fun m => { m with replayCells := Tab.set 0 m.replayCells p (s.portHold p cfg) }
  let s := s.onPort p fun x => { x with linkDue := true }
  let differs := fun f => wfld old f != wfld cfg f
  if s.on (LNK_PORT_CFG p) LNK_PORT_CFG_TEST && s.role p != rOFF then
    if s.pstate p = 6 then s else ((s.useLanes p 0).dropLink p).setPort p 6 0
  else if !s.portRuns p then
    if s.pstate p = 0 then s else ((s.useLanes p 0).dropLink p).setPort p 0 0
  else if differs LNK_PORT_CFG_ROLE || !ran then s.startTraining p false 0
  else if differs LNK_PORT_CFG_RATE || differs LNK_PORT_CFG_WIDTH || differs LNK_PORT_CFG_PRESET then s.startTraining p true 0
  else s

/-- PORT_CONFIG (0xA001), R360. -/
def bodyPortConfig : Body := fun _ ps s =>
  let p := num ps 0 1
  let cfg := word (num ps 4 4)
  let cred := word (num ps 8 4)
  checked s
    [need (p < 8 && zeroAt ps 1 3 && bits cfg.toNat 12 3 == 0 && bits cred.toNat 16 16 == 0 && s.portWordsOk p cfg cred) stBAD_PARAM,
     need (s.portFits p cfg) stNO_RESOURCE]
    (ok (s.configurePort p cfg cred))

/-- The meaning of PORT_CONFIG. -/
def execPortConfig (t : Nat) (p : Packet) (s : State) : Host.Outcome State Fault Refusal := command 0xA001 bodyPortConfig t p s

/-- PORT_STATUS (0xA002), R361. -/
def bodyPortStatus : Body := fun _ ps s =>
  let p := num ps 0 1
  let w := fun a => le 4 (s.rd a).toNat
  checked s [need (p < 8 && zeroAt ps 1 3) stBAD_PARAM]
    (.reply s stOK (w (LNK_PORT_CFG p) ++ w (LNK_PORT_STAT p) ++ w (LNK_PORT_ERR p) ++ w (LNK_PORT_CNT p) ++ w (LNK_PORT_RTT p)
      ++ ((List.range 4).flatMap fun i => w (LNK_LANE_STAT (4 * p + i))) ++ w (LNK_MOD_STAT p)))

/-- The meaning of PORT_STATUS. -/
def execPortStatus (t : Nat) (p : Packet) (s : State) : Host.Outcome State Fault Refusal := command 0xA002 bodyPortStatus t p s

/-- Is a lane under test (R357)? -/
def State.underTest (s : State) (l : Nat) : Bool := s.on (LNK_PORT_CFG (l / 4)) LNK_PORT_CFG_TEST

/-- LANE_EYE_SCAN (0xA003), R356, R362. -/
def bodyLaneEyeScan : Body := fun c ps s =>
  let l := num ps 0 1
  let d := num ps 1 1
  let ph := numI ps 4 1
  let np := num ps 5 1
  let sp := num ps 6 1
  let th := numI ps 7 1
  let nv := num ps 8 1
  let sv := num ps 9 1
  checked s
    [need (l < 32 && 16 ≤ d && d ≤ 40 && zeroAt ps 2 2 && zeroAt ps 10 2) stBAD_PARAM,
     need (1 ≤ np && np ≤ 128 && 1 ≤ sp && sp ≤ 32 && 1 ≤ nv && nv ≤ 63 && 1 ≤ sv && sv ≤ 31 && np * nv ≤ 2000) stBAD_PARAM,
     need (decide (-64 ≤ ph) && decide (ph + ((np - 1) * sp : Nat) ≤ 63) && decide (-31 ≤ th) && decide (th + ((nv - 1) * sv : Nat) ≤ 31)) stBAD_PARAM,
     need (s.on (LNK_LANE_STAT l) LNK_LANE_STAT_IN_USE || s.underTest l) stBAD_STATE,
     need (!(s.lnk.scans.any fun x => x.port == l / 4)) stBUSY]
    (.long (s.onLnk fun n => { n with scans := n.scans ++ [⟨l / 4, l, d, num ps 4 1, np, sp, num ps 7 1, nv, sv, s.now, c⟩] }))

/-- The meaning of LANE_EYE_SCAN. -/
def execLaneEyeScan (t : Nat) (p : Packet) (s : State) : Host.Outcome State Fault Refusal := command 0xA003 bodyLaneEyeScan t p s

/-- One unit interval at a rate, in fs (Table 11-1). -/
def uiFs (rate : Nat) : Nat := if rate = 0 then 38788 else if rate = 1 then 96970 else 320000

/-- The end of the last point of a scan, each point taking 2^D bits (R356). -/
def State.scanEnd (s : State) (x : EyeScan) : Nat :=
  x.since + x.phases * x.thrs * 2 ^ x.d * uiFs (s.rateNow x.port) * 4194304 / 10000000000

/-- EYE_SCAN_DONE (R356): once every point has taken its 2^D bits the report of Table 11-11 goes out.
(DEDUCED, log entry 60). -/
def State.scanReport (s : State) (p : Nat) (counts : List Nat) : State :=
  match s.lnk.scans.find? fun x => x.port == p with
  | none => s
  | some x =>
    let ui := uiFs (s.fld (LNK_PORT_STAT p) LNK_PORT_STAT_RATE_NOW)
    let n := x.phases * x.thrs
    if s.now < s.scanEnd x then s
    else
      let s := s.onLnk fun m => { m with scans := m.scans.filter fun y => y.port != p }
      s.report x.caller stOK (le 1 x.lane ++ le 1 x.d ++ le 1 x.phases ++ le 1 x.thrs ++ le 1 x.phase0 ++ le 1 x.phaseStep ++ le 1 x.thr0
        ++ le 1 x.thrStep ++ le 4 ui ++ le 4 0 ++ (List.range n).flatMap fun i => le 2 (satN 16 (counts.getD i 0)))

/-- The meaning of EYE_SCAN_DONE. -/
def execEyeScanDone (t : Nat) (p : Fin 8) (counts : List Nat) (s : State) : Host.Outcome State Fault Refusal :=
  event t (State.scanReport · p.val counts) s

/-- The counts of a lane's checker, bits (0), errors (1) and lock losses (2), in the record of what a clock has set (00_scope.md R9). -/
def checkerCount (l k : Nat) : Nat := 2 ^ 33 + 4 * l + k

/-- LANE_PATTERN (0xA004), R357, R363: the checker is set up afresh; what the present clock has counted is left for the next read, and a
read shows the counts before it (00_scope.md R9). -/
def bodyLanePattern : Body := fun _ ps s =>
  let l := num ps 0 1
  let op := num ps 1 1
  let pat := num ps 2 1
  checked s [need (l < 32 && op ≤ 5 && pat ≤ 6 && zeroAt ps 3 5) stBAD_PARAM, need (s.underTest l) stBAD_STATE]
    (let s := if op ≤ 3 then
         s.onLane l fun x =>
           { x with gen := op == 1 || op == 3, chk := op == 2 || op == 3, locked := false, pattern := pat, user := num ps 8 8, genAt := 0,
                    window := [], wrong := [], clean := 0 }
       else s
     let x := s.lane l
     let n := fun (k v : Nat) => min (s.freshCount (checkerCount l k) ⟨0, 48⟩) v
     let data := le 1 (b2n x.gen + 2 * b2n x.chk + 4 * b2n x.locked) ++ le 3 0 ++ le 8 (x.bits - n 0 x.bits) ++ le 8 (x.errors - n 1 x.errors)
       ++ le 4 (x.lockLosses - n 2 x.lockLosses)
     .reply (if op = 5 then s.onLane l fun x => { x with bits := n 0 x.bits, errors := n 1 x.errors, lockLosses := n 2 x.lockLosses } else s) stOK data)

/-- The meaning of LANE_PATTERN. -/
def execLanePattern (t : Nat) (p : Packet) (s : State) : Host.Outcome State Fault Refusal := command 0xA004 bodyLanePattern t p s

/-- CHECKER_LOCK_CHANGE (R357): the bits that a lane under test has received since the last such row, at its checker; under NEAR_SERIAL
they are those of its own generator (R358). (DESIGN CHOICE, log entry 60). -/
def State.checkerLock (s : State) (l : Nat) (bits : List Bool) : State :=
  let x := s.lane l
  if !x.chk || !s.underTest l then s
  else
    let own := x.loopback == 1 && x.gen
    let got := if own then genBits (Config.prbsSeed l x.pattern) x.pattern x.user x.genAt bits.length else bits
    let y := got.foldl LaneSt.check x
    let s := s.onLane l fun _ => if own then { y with genAt := y.genAt + bits.length } else y
    ((s.mark (checkerCount l 0) 0 (y.bits - x.bits)).mark (checkerCount l 1) 0 (y.errors - x.errors)).mark (checkerCount l 2) 0 (y.lockLosses - x.lockLosses)

/-- The meaning of CHECKER_LOCK_CHANGE. -/
def execCheckerLockChange (t : Nat) (l : Fin 32) (bits : List Bool) (s : State) : Host.Outcome State Fault Refusal :=
  event t (State.checkerLock · l.val bits) s

/-- LANE_LOOPBACK (0xA005), R358, R364. -/
def bodyLaneLoopback : Body := fun _ ps s =>
  let l := num ps 0 1
  let m := num ps 1 1
  checked s [need (l < 32 && m ≤ 3 && zeroAt ps 2 2) stBAD_PARAM, need (s.underTest l) stBAD_STATE]
    (ok (s.onLane l fun x => { x with loopback := m }))

/-- The meaning of LANE_LOOPBACK. -/
def execLaneLoopback (t : Nat) (p : Packet) (s : State) : Host.Outcome State Fault Refusal := command 0xA005 bodyLaneLoopback t p s

/-- PORT_RETRAIN (0xA006), R365. -/
def bodyPortRetrain : Body := fun _ ps s =>
  let p := num ps 0 1
  let f := num ps 1 1
  checked s
    [need (p < 8 && f < 2 && zeroAt ps 2 2) stBAD_PARAM, need (s.portRuns p) stBAD_STATE, need (s.pstate p != 2) stBUSY]
    (ok (s.startTraining p (f == 0) 2))

/-- The meaning of PORT_RETRAIN. -/
def execPortRetrain (t : Nat) (p : Packet) (s : State) : Host.Outcome State Fault Refusal := command 0xA006 bodyPortRetrain t p s

end Sys2Proof.Machine
end

