-- ==== Sys2Proof/Machine/Heads.lean ====
section
/-!
DEFINITION. The RED block (13_head_redundancy.md): heartbeats and paths, the latch at the holder and at the witness, the
mirror and its digest, ledger replay, drills, head configuration.
-/

namespace Sys2Proof.Machine

open Reg Bits

/-- Is this hub a head that takes part (R415)? -/
def State.headOn (s : State) : Bool := s.head != hNone

/-- The lease that remains in the holder's own count, in ms (R417). -/
def State.leaseMs (s : State) : Nat :=
  if s.isActive then (s.red.confirmedAt + fineMs 198 - s.now) / fineMs 1 else 0

/-- A path's state. -/
def Red.path (r : Red) (ring : Bool) : PathSt := if ring then r.ring else r.direct
def State.onPath (s : State) (ring : Bool) (f : PathSt → PathSt) : State :=
  s.onRed fun r => if ring then { r with ring := f r.ring } else { r with direct := f r.direct }

/-- The heartbeat that goes out on a path (Table 13-4). -/
def State.myHeartbeat (s : State) (ring : Bool) : Heartbeat :=
  { sender := s.addr, dest := s.partner, path := b2n ring, seq := (s.red.path ring).txSeq, state := s.head,
    flags := b2n s.isActive + 2 * s.fld RED_STAT RED_STAT_MIRROR_OK + 4 * b2n (s.red.path (!ring)).up
      + 8 * s.fld RED_STAT RED_STAT_WITNESS_OK + 16 * b2n s.red.resync + 32 * b2n s.red.handover,
    witness := s.red.witNow, epoch := s.epoch, leaseMs := s.leaseMs, mirrorSeq := s.fld RED_MIRROR RED_MIRROR_SEQ, st64 := s.st }

/-- Send one heartbeat on a path. -/
def State.beat (s : State) (ring : Bool) : State :=
  match s.headPort ring with
  | some p => (s.pushT p (.heartbeat (s.myHeartbeat ring)) 8).onPath ring fun x => { x with txSeq := (x.txSeq + 1) % 2 ^ 32 }
  | none => s

/-- HEARTBEAT_SEND (R415): every 5 ms, on each path. -/
def State.heartbeats (s : State) : State :=
  if s.headOn && decide (s.now ≥ s.red.hbSentAt + fineMs 5) then
    ((s.beat false).beat true).onRed fun r => { r with hbSentAt := s.now }
  else s

/-- The meaning of HEARTBEAT_SEND. -/
def execHeartbeatSend (t : Nat) (s : State) : Host.Outcome State Fault Refusal := event t State.heartbeats s

/-- A head enters STANDBY and asks for the whole mirror (R429). -/
def State.toStandby (s : State) : State :=
  let s := (s.setHead hStandby 5).onRed fun r => { r with resync := true, handover := false, mirror := [], mirrorNext := 0, digestWait := none }
  s.setFld RED_STAT RED_STAT_MIRROR_OK 0

/-- On RESYNC the active head sends its ledger window, journal and state items under new numbers (R426). -/
def State.resend (s : State) : State :=
  let now := s.served40
  let led := s.red.ledger.filter fun l => decide (resolveSt now l.st + s.ledgerAge ≥ now)
  let s := s.onRed fun r => { r with mirror := [], unacked := [] }
  let s := led.foldl (fun s l => s.mirrorItem 1 (l.entry ++ le 8 l.st)) s
  let s := s.red.journal.foldl (fun s j => s.mirrorItem 2 j.image) s
  stateAddrs.foldl (fun s a => s.mirrorState a) s

/-- Are the partner's mirror and both paths ready for a switchover (Table 13-10)? -/
def State.partnerReady (s : State) : Bool :=
  s.red.direct.up && s.red.ring.up && match s.red.partner with
    | some h => bit h.flags 1
    | none => false

/-- A switchover commits (R428): HANDOVER, fence, LATCH_RELEASE. -/
def State.commitSwitch (s : State) : State :=
  let s := s.onRed fun r => { r with handover := true, drill := r.drill.map fun d => { d with committedAt := some s.now } }
  let w := s.red.witNow
  (s.fence 4).sendLatch 0xC005 w puRelease false s.epoch

/-- A switchover that waits goes on once the partner is ready. -/
def State.trySwitch (s : State) : State :=
  match s.red.drill with
  | some d => if d.kind = 2 ∧ d.committedAt.isNone ∧ s.isActive ∧ s.partnerReady then s.commitSwitch else s
  | none => s

/-- A drill ends with its report: VERIFY_FAIL where the fault mask is not 0 (R428, R435). -/
def State.endDrill (s : State) (d : Drill) (fault checked epoch : Nat) : State :=
  (s.onRed fun r => { r with drill := none }).report d.caller (if fault = 0 then stOK else stVERIFY_FAIL) (le 4 fault ++ le 4 checked ++ le 4 epoch)

/-- A head cell for another hub goes on by the shortest path (R415, 11_serial_lanes_and_syrilink.md R354); at a hub without an address, out
of the port opposite the one it came in on (01_architecture.md R18). -/
def State.passHead (s : State) (p dest : Nat) (c : Ctl) : State :=
  match if s.address.isNone then s.opposite p else (s.firstHop false false (posOf dest)).map Prod.fst with
  | some q => s.pushT q c p
  | none => s

/-- Is a head cell for another hub? -/
def State.headElsewhere (s : State) (dest : Nat) : Bool := s.address != some dest

/-- HEARTBEAT_RECEIVED (R412, R415, R416, R422, R428): one for another hub is passed on. -/
def State.heartbeatIn (s : State) (p : Nat) (h : Heartbeat) : State :=
  if s.headElsewhere h.dest then s.passHead p h.dest (.heartbeat h)
  else if !s.headOn || h.sender ≠ s.partner then s
  else
    let ring := h.path == 1
    let holds := bit h.flags 0
    let s := s.onPath ring fun x => { x with run := if h.seq = (x.rxSeq + 1) % 2 ^ 32 then x.run + 1 else 1, rxSeq := h.seq, lastRx := some s.now }
    let s := s.onRed fun r => { r with partner := some h, noHoldSince := if holds then s.now else r.noHoldSince }
    let s := if s.head = hStarting ∧ holds then s.toStandby
      else if s.head = hFenced ∧ holds ∧ h.epoch > s.epoch then s.toStandby
      else s
    let s := if s.isActive then
        let s := if h.mirrorSeq > s.red.acked then
            s.onRed fun r => { r with acked := h.mirrorSeq, ackedAt := s.now, unacked := r.unacked.filter fun e => decide (e.1 > h.mirrorSeq) }
          else s
        let ask := bit h.flags 4
        let again := ask && !s.red.partnerResync
        let s := s.onRed fun r => { r with partnerResync := ask }
        (if again then s.resend else s).trySwitch
      else s
    match s.red.drill with
    | some d => if d.kind = 2 ∧ d.committedAt.isSome ∧ holds then s.endDrill d 0 0 h.epoch else s
    | none => s

/-- The meaning of HEARTBEAT_RECEIVED. -/
def execHeartbeatReceived (t : Nat) (p : Fin 8) (h : Heartbeat) (s : State) : Host.Outcome State Fault Refusal :=
  event t (State.heartbeatIn · p.val h) s

/-- A path's new state is shown, and reported while the other path is up (R416). -/
def State.setPath (s : State) (ring up : Bool) : State :=
  let other := (s.red.path (!ring)).up
  let s := s.onPath ring fun x => { x with up := up, run := 0 }
  let s := s.setFld RED_STAT (if ring then RED_STAT_RING_UP else RED_STAT_DIRECT_UP) (b2n up)
  if other then s.issue 0xC002 [b2n ring, b2n up, b2n other] else s

/-- Four heartbeats in a row are missed on a path (R416). -/
def State.pathFail (s : State) (ring : Bool) : State :=
  let x := s.red.path ring
  match x.lastRx with
  | some r => if x.up && decide (s.now ≥ r + fineMs 20) then s.setPath ring false else s
  | none => s

/-- The meaning of PATH_FAILED. -/
def execPathFailed (t : Nat) (ring : Bool) (s : State) : Host.Outcome State Fault Refusal := event t (State.pathFail · ring) s

/-- Eight heartbeats in a row have come on a failed path (R416). -/
def State.pathRestore (s : State) (ring : Bool) : State :=
  let x := s.red.path ring
  if !x.up && decide (x.run ≥ 8) then s.setPath ring true else s

/-- The meaning of PATH_RESTORED. -/
def execPathRestored (t : Nat) (ring : Bool) (s : State) : Host.Outcome State Fault Refusal := event t (State.pathRestore · ring) s

/-- LATCH_RENEW_SEND (R417): every 50 ms; while unconfirmed every 10 ms, to the two witnesses in turn. -/
def State.renew (s : State) : State :=
  let go := fun (s : State) => (s.onRed fun r => { r with renewSentAt := s.now, renewOut := some s.now }).sendLatch 0xC004 s.red.witNow puRenew false s.epoch
  if !s.isActive then s
  else match s.red.renewOut with
    | none => if s.now ≥ s.red.renewSentAt + fineMs 50 then go s else s
    | some o => if s.now ≥ o + fineMs 10 then go (s.onRed fun r => { r with witNow := s.otherWit r.witNow }) else s

/-- The meaning of LATCH_RENEW_SEND. -/
def execLatchRenewSend (t : Nat) (s : State) : Host.Outcome State Fault Refusal := event t State.renew s

/-- LEASE_EXPIRY (R417): 198 ms after the latest send that counts, the holder fences. -/
def State.leaseOut (s : State) : State :=
  if s.isActive && decide (s.now ≥ s.red.confirmedAt + fineMs 198) then s.fence 2 else s

/-- The meaning of LEASE_EXPIRY. -/
def execLeaseExpiry (t : Nat) (s : State) : Host.Outcome State Fault Refusal := event t State.leaseOut s

/-- The conditions under which a head requests the latch (R419, R421, R430). -/
def State.mayAsk (s : State) : Bool :=
  if s.head = hStarting then s.red.asking
  else if s.head = hFenced then true
  else if s.head = hStandby then
    (!s.red.direct.up && !s.red.ring.up)
      || (match s.red.partner with
          | some h => h.state == hFenced || bit h.flags 5
          | none => false)
      || decide (s.now ≥ s.red.noHoldSince + fineMs 40)
  else false

/-- The witness address named in the partner's latest heartbeat (R419). -/
def State.partnerWit (s : State) : Nat :=
  match s.red.partner with
  | some h => if h.witness = s.witA ∨ h.witness = s.witB then h.witness else s.witA
  | none => s.witA

/-- Send one LATCH_REQUEST: a fenced head presents its last epoch, any other 0. The other witness is asked where the last
request found no reply, but not by a head in STARTING (R419, R430). (DEDUCED, log entry 62). -/
def State.askLatch (s : State) : State :=
  let first := s.red.requestSentAt == 0
  let w := if first then
      (if s.head = hStandby then s.partnerWit
        else if s.head = hStarting then s.witA
        else if s.red.witNow = s.witB then s.witB else s.witA)
    else if s.red.requestOut && s.head != hStarting then s.otherWit s.red.witNow else s.red.witNow
  let s := s.onRed fun r => { r with witNow := w, requestSentAt := s.now, requestOut := true }
  s.sendLatch 0xC003 w puRequest false (if s.head = hFenced then s.epoch else 0)

/-- LATCH_REQUEST_SEND (R419, R421, R430): every 5 ms while the conditions hold. -/
def State.requestLatch (s : State) : State :=
  if !s.mayAsk then s.onRed fun r => { r with requestSentAt := 0, requestOut := false }
  else if s.red.requestSentAt = 0 ∨ s.now ≥ s.red.requestSentAt + fineMs 5 then s.askLatch
  else s

/-- The meaning of LATCH_REQUEST_SEND. -/
def execLatchRequestSend (t : Nat) (s : State) : Host.Outcome State Fault Refusal := event t State.requestLatch s

/-- START_HOLDOFF_EXPIRY (R430, R432): 500 ms with PRIMARY, else 1,000 ms, after entry into STARTING. -/
def State.holdoffEnd (s : State) : State :=
  let ms := if s.on RED_CFG RED_CFG_PRIMARY then 500 else 1000
  if s.head = hStarting ∧ !s.red.asking ∧ s.now ≥ s.red.stateSince + fineMs ms then
    (s.onRed fun r => { r with asking := true }).requestLatch
  else s

/-- The meaning of START_HOLDOFF_EXPIRY. -/
def execStartHoldoffExpiry (t : Nat) (s : State) : Host.Outcome State Fault Refusal := event t State.holdoffEnd s

/-- Has witness entry `k` a holder with a current lease? -/
def State.witHeld (s : State) (k : Nat) : Bool := match (s.wit k).lease with
  | some e => decide (s.now < e)
  | none => false

/-- What remains of the lease or quiet period of entry `k`, in ms (R434, RED_WIT_STAT). -/
def State.witRemain (s : State) (k : Nat) : Nat :=
  let w := s.wit k
  ((match w.quiet with
    | some e => e
    | none => w.lease.getD 0) - s.now) / fineMs 1

/-- LATCH_EVENT of entry `k` (Table 13-11). -/
def State.latchEvent (s : State) (k kind : Nat) : State :=
  s.issue 0xC003 [s.fld (RED_WIT_CFG k) RED_WIT_CFG_SEGMENT, if s.on (RED_WIT_STAT k) RED_WIT_STAT_HELD then s.fld (RED_WIT_STAT k) RED_WIT_STAT_HOLDER else 0xFFFF,
    s.fld (RED_WIT_EPOCH k) RED_WIT_EPOCH_EPOCH, kind]

/-- Entry `k` takes a holder with a new lease of 200 ms. -/
def State.witGrant (s : State) (k holder epoch : Nat) : State :=
  (((s.setFld (RED_WIT_STAT k) RED_WIT_STAT_HELD 1).setFld (RED_WIT_STAT k) RED_WIT_STAT_HOLDER holder).setFld (RED_WIT_EPOCH k)
    RED_WIT_EPOCH_EPOCH epoch).onWit k fun w => { w with lease := some (s.now + fineMs 200) }

/-- The reply fields of a latch packet (R434). (DEDUCED, log entry 62). -/
def State.latchData (s : State) (k : Nat) : List Byte :=
  le 4 (s.fld (RED_WIT_EPOCH k) RED_WIT_EPOCH_EPOCH) ++ le 2 (if (s.wit k).lease.isSome then s.fld (RED_WIT_STAT k) RED_WIT_STAT_HOLDER else 0xFFFF)
    ++ le 2 (s.witRemain k)

/-- What a witness answers (R418, Table 13-5): `kind` 0 request, 1 renew, 2 release. (DEDUCED, log entries 16 and 62). -/
def State.witness (s : State) (kind : Nat) (c : Caller) (ps : List Byte) : Res :=
  let seg := num ps 0 1
  let dry := kind == 0 && bit (num ps 1 1) 0
  let epoch := num ps 4 4
  let who := epNum c.source
  if !s.isActive then refuse s stNOT_LATCH_HOLDER
  else match (List.range 4).find? fun k => s.on (RED_WIT_CFG k) RED_WIT_CFG_EN && s.fld (RED_WIT_CFG k) RED_WIT_CFG_SEGMENT == seg with
    | none => refuse s stBAD_PARAM
    | some k =>
      let ans := fun (s : State) st => Res.reply s st (s.latchData k)
      let head := epKind c.source == 0 && (who == s.fld (RED_WIT_CFG k) RED_WIT_CFG_HEAD_A || who == s.fld (RED_WIT_CFG k) RED_WIT_CFG_HEAD_B)
      let mine := (s.wit k).lease.isSome && s.fld (RED_WIT_STAT k) RED_WIT_STAT_HOLDER == who
      let cur := s.fld (RED_WIT_EPOCH k) RED_WIT_EPOCH_EPOCH
      if !c.origin || !head || !(num ps 1 1 < 2 && zeroAt ps 2 2) then refuse s stBAD_PARAM
      else if (s.wit k).quiet.isSome then
        let better := fun (b : Option (Nat × Nat)) => match b with
          | some (e, w) => if epoch > e then some (epoch, who) else some (e, w)
          | none => if epoch = 0 then none else some (epoch, who)
        ans (s.onWit k fun w => { w with best := better w.best }) stBUSY
      else if dry then ans s stOK
      else if kind ≤ 1 && mine && epoch == cur then ans (s.witGrant k who cur) stOK
      else if kind = 0 then
        if s.witHeld k then ans s stBUSY
        else ans ((s.witGrant k who ((cur + 1) % 2 ^ 32)).latchEvent k 0) stOK
      else if kind = 1 then ans s stBAD_STATE
      else if mine then
        let e := s.latchEvent k 2
        ans ((e.setFld (RED_WIT_STAT k) RED_WIT_STAT_HELD 0).onWit k fun w => { w with lease := none }) stOK
      else ans s stBAD_STATE

/-- LATCH_REQUEST (0xC003), LATCH_RENEW (0xC004) and LATCH_RELEASE (0xC005) at a witness. -/
def bodyLatchRequest : Body := fun c ps s => s.witness 0 c ps
def bodyLatchRenew : Body := fun c ps s => s.witness 1 c ps
def bodyLatchRelease : Body := fun c ps s => s.witness 2 c ps

/-- The meanings of the three latch commands. -/
def execLatchRequest (t : Nat) (p : Packet) (s : State) : Host.Outcome State Fault Refusal := command 0xC003 bodyLatchRequest t p s
def execLatchRenew (t : Nat) (p : Packet) (s : State) : Host.Outcome State Fault Refusal := command 0xC004 bodyLatchRenew t p s
def execLatchRelease (t : Nat) (p : Packet) (s : State) : Host.Outcome State Fault Refusal := command 0xC005 bodyLatchRelease t p s

/-- WITNESS_LEASE_EXPIRY (R418): the holder's lease is current no longer. -/
def State.witExpire (s : State) (k : Nat) : State :=
  match (s.wit k).lease with
  | some e => if s.now ≥ e ∧ s.on (RED_WIT_STAT k) RED_WIT_STAT_HELD then (s.latchEvent k 1).setFld (RED_WIT_STAT k) RED_WIT_STAT_HELD 0 else s
  | none => s

/-- The meaning of WITNESS_LEASE_EXPIRY. -/
def execWitnessLeaseExpiry (t : Nat) (k : Fin 4) (s : State) : Host.Outcome State Fault Refusal := event t (State.witExpire · k.val) s

/-- QUIET_PERIOD_END (R420): the sender of the highest epoch presented becomes the holder, if any was presented. -/
def State.quietEnd (s : State) (k : Nat) : State :=
  match (s.wit k).quiet with
  | some e =>
    if s.now < e then s
    else
      let best := (s.wit k).best
      let s := (s.onWit k fun w => { w with quiet := none, best := none }).setFld (RED_WIT_STAT k) RED_WIT_STAT_QUIET 0
      let s := match best with
        | some (ep, who) => s.witGrant k who ep
        | none => s.setFld (RED_WIT_STAT k) RED_WIT_STAT_HELD 0
      s.latchEvent k 3
  | none => s

/-- The meaning of QUIET_PERIOD_END. -/
def execQuietPeriodEnd (t : Nat) (k : Fin 4) (s : State) : Host.Outcome State Fault Refusal := event t (State.quietEnd · k.val) s

/-- The digest over mirror items up to a cutoff at second `S`, in ST64 (R425), and the ledger entries in its window.
(DEDUCED, log entry 63). -/
def State.digestOf (s : State) (cutoff sec : Nat) : Nat × Nat :=
  let now := s.served40
  let at_ := resolveSt now sec
  let l := s.red.mirror.filter fun e => decide (e.1 ≤ cutoff)
  let led := l.filter fun e => e.2.1 == 1 && decide (resolveSt now (num e.2.2 24 8) + s.ledgerAge ≥ at_) && decide (resolveSt now (num e.2.2 24 8) < at_)
  let jou := l.filter fun e => e.2.1 == 2
  let sta := l.filter fun e => e.2.1 == 3 && !(l.any fun f => f.2.1 == 3 && decide (f.1 > e.1) && num f.2.2 0 4 == num e.2.2 0 4)
  (crc32c ((led ++ jou.drop (jou.length - 4096) ++ sta).flatMap fun e => e.2.2), led.length)

/-- The standby compares a digest with its own (R425, R426). (DEDUCED, log entry 63). -/
def State.compareDigest (s : State) (d : DigestCell) : State :=
  let own := (s.digestOf d.cutoff d.st64).1
  let same := own == d.digest
  let s := s.onRed fun r => { r with digestWait := none,
                                     drill := r.drill.map fun x => if x.kind = 0 then { x with answered := true, fault := if same then 0 else 1 } else x }
  if same then (s.setFld RED_STAT RED_STAT_MIRROR_OK 1).onRed fun r => { r with resync := false }
  else
    let s := (s.setFld RED_STAT RED_STAT_MIRROR_OK 0).bump RED_COUNT RED_COUNT_DIGEST_FAIL
    let s := s.issue 0xC004 [d.st64, own, d.digest, 0]
    if s.red.resync then s else s.onRed fun r => { r with resync := true, mirror := [], mirrorNext := 0 }

/-- MIRROR_RECEIVED (R422): the items are stored in order of their numbers; one out of order is left to be sent again. The
first item after RESYNC begins the mirror anew (R426). One for another hub is passed on. (DEDUCED, log entry 63). -/
def State.mirrorIn (s : State) (p : Nat) (m : MirrorCell) : State :=
  if s.headElsewhere m.dest then s.passHead p m.dest (.mirror m)
  else if s.head ≠ hStandby ∨ m.sender ≠ s.partner then s
  else
    let s := (m.items.mapIdx fun i b => (m.firstSeq + i, m.itemType, b)).foldl (fun s e =>
      if s.red.mirrorNext = 0 ∨ e.1 = s.red.mirrorNext + 1 then s.onRed fun r => { r with mirror := r.mirror ++ [e], mirrorNext := e.1 } else s) s
    let s := s.setFld RED_MIRROR RED_MIRROR_SEQ s.red.mirrorNext
    match s.red.digestWait with
    | some (d, _) => if s.red.mirrorNext ≥ d.cutoff then s.compareDigest d else s
    | none => s

/-- The meaning of MIRROR_RECEIVED. -/
def execMirrorReceived (t : Nat) (p : Fin 8) (m : MirrorCell) (s : State) : Host.Outcome State Fault Refusal :=
  event t (State.mirrorIn · p.val m) s

/-- MIRROR_RESEND (R422): no acknowledgement has advanced for 20 ms. -/
def State.mirrorAgain (s : State) : State :=
  if s.isActive && !s.red.unacked.isEmpty && decide (s.now ≥ s.red.ackedAt + fineMs 20) then
    s.red.unacked.foldl (fun s e => s.sendHead fun a b path => .mirror ⟨a, b, path, e.1, e.2.1, [e.2.2]⟩) (s.onRed fun r => { r with ackedAt := s.now })
  else s

/-- The meaning of MIRROR_RESEND. -/
def execMirrorResend (t : Nat) (s : State) : Host.Outcome State Fault Refusal := event t State.mirrorAgain s

/-- MIRROR_STATE_REFRESH (R422): all state items every 10 s. -/
def State.stateRefresh (s : State) : State :=
  if s.isActive && decide (s.now ≥ s.red.stateSentAt + fineMs 10000) then
    stateAddrs.foldl (fun s a => s.mirrorState a) (s.onRed fun r => { r with stateSentAt := s.now })
  else s

/-- The meaning of MIRROR_STATE_REFRESH. -/
def execMirrorStateRefresh (t : Nat) (s : State) : Host.Outcome State Fault Refusal := event t State.stateRefresh s

/-- DIGEST_SEND (R425): at each whole second of served time. -/
def State.sendDigest (s : State) : State :=
  let sec := s.served40 / 2 ^ 40
  if !s.isActive || decide (sec ≤ s.red.digestSecond) then s
  else
    let st := sec40 sec % 2 ^ 64
    let d := s.digestOf s.red.nextMirror st
    (s.onRed fun r => { r with digestSecond := sec }).sendHead fun a b path => .digest ⟨a, b, path, s.red.nextMirror, d.1, d.2, st⟩

/-- The meaning of DIGEST_SEND. -/
def execDigestSend (t : Nat) (s : State) : Host.Outcome State Fault Refusal := event t State.sendDigest s

/-- DIGEST_RECEIVED (R425): compared at once where every item up to the cutoff has come, else kept until it has; one for another hub
is passed on. -/
def State.digestIn (s : State) (p : Nat) (d : DigestCell) : State :=
  if s.headElsewhere d.dest then s.passHead p d.dest (.digest d)
  else if s.head ≠ hStandby ∨ d.sender ≠ s.partner then s
  else if s.red.mirrorNext ≥ d.cutoff then s.compareDigest d
  else s.onRed fun r => { r with digestWait := some (d, s.now) }

/-- The meaning of DIGEST_RECEIVED. -/
def execDigestReceived (t : Nat) (p : Fin 8) (d : DigestCell) (s : State) : Host.Outcome State Fault Refusal :=
  event t (State.digestIn · p.val d) s

/-- DIGEST_TIMEOUT (R425): the items have not come within 1 s of the second described. -/
def State.digestLate (s : State) : State :=
  match s.red.digestWait with
  | some (d, at_) =>
    if s.head = hStandby ∧ s.now ≥ at_ + fineMs 1000 then
      let own := (s.digestOf d.cutoff d.st64).1
      let s := ((s.setFld RED_STAT RED_STAT_MIRROR_OK 0).bump RED_COUNT RED_COUNT_DIGEST_FAIL).issue 0xC004 [d.st64, own, d.digest, 1]
      s.onRed fun r =>
        { r with digestWait := none, mirror := if r.resync then r.mirror else [], mirrorNext := if r.resync then r.mirrorNext else 0, resync := true,
                 drill := r.drill.map fun x => if x.kind = 0 then { x with answered := true, fault := 1 } else x }
    else s
  | none => s

/-- The meaning of DIGEST_TIMEOUT. -/
def execDigestTimeout (t : Nat) (s : State) : Host.Outcome State Fault Refusal := event t State.digestLate s

/-- The ledger entries that read without an uncorrectable error (14_memory_and_ecc.md Table 14-3), and whether all did.
(DEDUCED, log entry 63). -/
def State.readLedger (s : State) (l : List Ledger) : List Ledger × Bool × State :=
  l.foldl (fun a e =>
    let r := a.2.2.memReadRange 0 (s.ledgerBase e.seq) 32 7
    if r.1 then (a.1 ++ [e], a.2.1, r.2) else (a.1, false, r.2)) ([], true, s)

/-- LEDGER_REPLAY_SEND (R423): one RELEASE packet of up to 170 entries every 50 us, oldest first, then LEDGER_REPLAY. -/
def State.replayLedger (s : State) : State :=
  match s.red.replayLeft with
  | none => s
  | some left =>
    if !s.isActive || (s.red.replayAt != 0 && decide (s.now < s.red.replayAt + fineUs 50)) then s
    else
      let part := left.take 170
      if part.isEmpty then
        (s.issue 0xC005 [s.red.replaySent, s.red.replayOldest, s.fld RED_LEDGER RED_LEDGER_OVERFLOW]).onRed fun r => { r with replayLeft := none, replayAt := 0 }
      else
        let r := s.readLedger part
        let s := r.2.2.onRed fun x => { x with replayLeft := some (left.drop 170), replayAt := s.now, replaySent := x.replaySent + r.1.length }
        if r.1.isEmpty then s
        else s.originate 0x8003 (0x4000 + 64 * s.mySeg) (s.fld RED_CFG RED_CFG_HEAD_SLOT) 64 puReplay
          (le 2 r.1.length ++ le 2 0 ++ r.1.flatMap Ledger.entry)

/-- The meaning of LEDGER_REPLAY_SEND. -/
def execLedgerReplaySend (t : Nat) (s : State) : Host.Outcome State Fault Refusal := event t State.replayLedger s

/-- SWITCHOVER_TIMEOUT (R428): 500 ms after the commit no heartbeat has shown the partner holding the latch. -/
def State.switchLate (s : State) : State :=
  match s.red.drill with
  | some d => match d.committedAt with
    | some c => if d.kind = 2 ∧ s.now ≥ c + fineMs 500 then s.endDrill d 16 0 0 else s
    | none => s
  | none => s

/-- The meaning of SWITCHOVER_TIMEOUT. -/
def execSwitchoverTimeout (t : Nat) (s : State) : Host.Outcome State Fault Refusal := event t State.switchLate s

/-- The ledger items a standby mirrors, as entries. -/
def Red.mirrorLedger (r : Red) : List Ledger :=
  r.mirror.filterMap fun e => if e.2.1 = 1 then some ⟨e.1, e.2.2.take 24, num e.2.2 24 8⟩ else none

/-- DRILL_DONE (R428, R435): SHADOW once the digest of the active head is compared, READINESS once the witness has answered
or 10 ms have passed, SWITCHOVER where the partner is not ready within 2 s. -/
def State.drillOver (s : State) : State :=
  match s.red.drill with
  | none => s
  | some d =>
    if d.kind = 0 then if d.answered then s.endDrill d d.fault s.red.mirrorLedger.length 0 else s
    else if d.kind = 1 then
      if !d.answered && decide (s.now < d.startAt + fineMs 10) then s
      else
        let led := s.readLedger s.red.mirrorLedger
        let fault := 2 * b2n (s.upPortOf rUplink).isNone + 4 * b2n (!(s.red.direct.up || s.red.ring.up))
          + 8 * b2n (!s.on RED_STAT RED_STAT_MIRROR_OK) + 16 * b2n (!d.witnessOk) + 32 * b2n (!led.2.1)
        led.2.2.endDrill d fault s.red.mirrorLedger.length 0
    else if d.committedAt.isNone && decide (s.now ≥ d.startAt + fineMs 2000) then s.endDrill d 64 0 0
    else s

/-- The meaning of DRILL_DONE. -/
def execDrillDone (t : Nat) (s : State) : Host.Outcome State Fault Refusal := event t State.drillOver s

/-- HEAD_DRILL (0xC006), R428, R435. (DEDUCED, log entry 62). -/
def bodyHeadDrill : Body := fun c ps s =>
  let k := num ps 0 1
  checked s
    [need (k ≤ 2 && zeroAt ps 1 3) stBAD_PARAM, need (k == 2 || s.head == hStandby) stBAD_STATE,
     need (k != 2 || s.isActive) stNOT_LATCH_HOLDER, need s.red.drill.isNone stBUSY]
    (let s := s.onRed fun r => { r with drill := some ⟨k, c, s.now, none, false, false, 0, s.partnerWit⟩ }
     .long (if k = 1 then s.sendLatch 0xC003 s.partnerWit puDry true 0
       else if k = 2 then s.trySwitch else s))

/-- The meaning of HEAD_DRILL. -/
def execHeadDrill (t : Nat) (p : Packet) (s : State) : Host.Outcome State Fault Refusal := command 0xC006 bodyHeadDrill t p s

/-- A register word is stored in NVM (R431; 16_calibration.md R503; 05_time_base.md R177). -/
def State.storeNvm (s : State) (a : Nat) (w : Word) : State :=
  s.onNvm fun n => { n with words := Tab.insert n.words a w }

/-- A word goes to its register and to NVM. -/
def State.wrNvm (s : State) (a : Nat) (w : Word) : State := (s.wr a w).storeNvm a w

/-- The checks of op 0 of HEAD_CONFIG (R431). -/
def State.headRefuses (s : State) (cfg par wit : Word) (force : Bool) : List (Option Nat) :=
  let own := s.address
  let slotOk := match s.cred (wfld cfg RED_CFG_HEAD_SLOT) with
    | some c => c.perms &&& (pREDUNDANCY ||| pACQUIRE) == (pREDUNDANCY ||| pACQUIRE)
    | none => false
  [need (wfld cfg RED_CFG_ROLE ≤ 1 && 1 ≤ wfld cfg RED_CFG_LEDGER_AGE && wfld cfg RED_CFG_LEDGER_AGE ≤ 300) stBAD_PARAM,
   need (own != some (wfld par RED_PARTNER_PARTNER) && own != some (wfld wit RED_WITNESS_WIT_A) && own != some (wfld wit RED_WITNESS_WIT_B)) stBAD_PARAM,
   need (!(wfld cfg RED_CFG_ROLE == 0 && s.isActive)) stBAD_STATE, need slotOk stBAD_STATE,
   need (force || !(s.head == hStandby || s.head == hFenced)) stNOT_LATCH_HOLDER]

/-- The head role takes effect (R412, R431): it is stored in NVM; ROLE head starts a hub in NONE, ROLE none ends a head. -/
def State.configureHead (s : State) (cfg par wit : Word) : State :=
  let s := ((s.wrNvm RED_CFG cfg).wrNvm RED_PARTNER par).wrNvm RED_WITNESS wit
  if wfld cfg RED_CFG_ROLE = 1 then if s.head = hNone ∧ !s.isMinimal then s.setHead hStarting 0 else s
  else if s.head ≠ hNone ∧ !s.isActive then s.setHead hNone 0
  else s

/-- Witness entry `k` takes a configuration; enabling it starts its quiet period (R420, R431). -/
def State.configureWitness (s : State) (k : Nat) (w : Word) : State :=
  let was := s.on (RED_WIT_CFG k) RED_WIT_CFG_EN
  let s := s.wrNvm (RED_WIT_CFG k) w
  if wfld w RED_WIT_CFG_EN = 1 then if was then s else s.startQuiet k
  else ((s.onWit k fun _ => {}).setFld (RED_WIT_STAT k) RED_WIT_STAT_HELD 0).setFld (RED_WIT_STAT k) RED_WIT_STAT_QUIET 0

/-- HEAD_CONFIG (0xC001), R431. -/
def bodyHeadConfig : Body := fun _ ps s =>
  let op := num ps 0 1
  let b := num ps 1 1
  let w := fun off => word (num ps off 4)
  if op = 0 then
    let cfg := w 4
    let par := w 8
    let wit := w 12
    let rsvd := bits cfg.toNat 28 1 == 0 && bits cfg.toNat 9 15 == 0 && bits par.toNat 11 21 == 0 && bits wit.toNat 27 5 == 0 && bits wit.toNat 11 5 == 0
    checked s (need (b < 2 && zeroAt ps 2 2 && rsvd) stBAD_PARAM :: s.headRefuses cfg par wit (bit b 0)) (ok (s.configureHead cfg par wit))
  else if op = 1 then
    checked s [need (b < 4 && zeroAt ps 2 2 && bits (w 4).toNat 27 4 == 0) stBAD_PARAM] (ok (s.configureWitness b (w 4)))
  else refuse s stBAD_PARAM

/-- The meaning of HEAD_CONFIG. -/
def execHeadConfig (t : Nat) (p : Packet) (s : State) : Host.Outcome State Fault Refusal := command 0xC001 bodyHeadConfig t p s

/-- RED_STAT and RED_WIT_STAT as they read now, with what remains of leases. -/
def State.redStat (s : State) : Word := setBits (s.rd RED_STAT) RED_STAT_LEASE_MS (satN 16 s.leaseMs)
def State.witStat (s : State) (k : Nat) : Word := setBits (s.rd (RED_WIT_STAT k)) RED_WIT_STAT_REMAIN_MS (satN 16 (s.witRemain k))

/-- RED_LEDGER as it reads now: the entries of the window (R423). -/
def State.redLedger (s : State) : Word :=
  if s.isActive then setBits (s.rd RED_LEDGER) RED_LEDGER_ENTRIES (satN 21 s.ledgerNow.length) else s.rd RED_LEDGER

/-- HEAD_STATUS (0xC002), R433. -/
def bodyHeadStatus : Body := fun _ ps s =>
  let page := num ps 0 1
  let w := fun (a : Nat) => le 4 (s.rd a).toNat
  if page = 0 then
    checked s [need (zeroAt ps 1 3) stBAD_PARAM]
      (.reply s stOK (le 4 s.redStat.toNat ++ w RED_EPOCH ++ w RED_COUNT ++ le 4 s.redLedger.toNat ++ w RED_MIRROR))
  else if page = 1 then
    checked s [need (zeroAt ps 1 3) stBAD_PARAM]
      (.reply s stOK ((List.range 4).flatMap fun k => w (RED_WIT_CFG k) ++ le 4 (s.witStat k).toNat ++ w (RED_WIT_EPOCH k)))
  else if page = 2 then
    let first := num ps 4 4
    let n := num ps 8 1
    let l := (s.red.journal.reverse.drop first).take n
    checked s [need (zeroAt ps 1 3 && zeroAt ps 9 3 && 1 ≤ n && n ≤ 64) stBAD_PARAM]
      (.reply s stOK (le 1 l.length ++ le 3 0 ++ l.flatMap Journal.image))
  else refuse s stBAD_PARAM

/-- The meaning of HEAD_STATUS. -/
def execHeadStatus (t : Nat) (p : Packet) (s : State) : Host.Outcome State Fault Refusal := command 0xC002 bodyHeadStatus t p s

end Sys2Proof.Machine
end

