-- ==== Sys2Proof/Machine/Cal.lean ====
section
/-!
DEFINITION. Calibration runs and the commands of the CAL block (16_calibration.md R486 to R504).
-/

namespace Sys2Proof.Machine

open Reg Bits

/-- Does a group's policy ask for runs, and its period in fine counts, 0 for none (Table 16-2)? -/
def State.calPolicy (s : State) (g : Nat) : Bool × Nat :=
  match (calItem g).1 with
  | 1 => (s.on CAL_POLICY CAL_POLICY_CONV_AUTO, fineMs (60000 * s.fld CAL_PERIOD CAL_PERIOD_CONV_MIN))
  | 2 => (s.on CAL_POLICY CAL_POLICY_VERN_AUTO, fineMs (1000 * s.fld CAL_PERIOD CAL_PERIOD_VERN_S))
  | 4 => (s.on CAL_POLICY CAL_POLICY_EXC_AUTO, fineMs (60000 * s.fld CAL_PERIOD CAL_PERIOD_EXC_MIN))
  | _ => (false, 0)

/-- CAL_PERIOD_EXPIRY of group `g` (R492). -/
def State.calPeriodDue (s : State) (g : Nat) : State :=
  let p := s.calPolicy g
  if s.sys.reloading || !p.1 || p.2 == 0 || decide (s.now < Tab.get 0 s.cal.lastRun g + p.2) then s else s.queueCal g

/-- The meaning of CAL_PERIOD_EXPIRY. -/
def execCalPeriodExpiry (t : Nat) (g : Fin 29) (s : State) : Host.Outcome State Fault Refusal := event t (State.calPeriodDue · g) s

/-- Groups whose temperature has moved by TEMP_STEP since their last committed run join the queue (R492). -/
def State.calTempMoves (s : State) : State :=
  (List.range 29).foldl (fun s g =>
    let r := s.calRec g
    if (s.calPolicy g).1 && r.valid && decide ((s.calTemp g - r.temp).natAbs ≥ 64 * s.fld CAL_POLICY CAL_POLICY_TEMP_STEP) then s.queueCal g else s) s

/-- May group `g` start now (R182, R487, R493, R494)? Porter, which schedules runs, is not restarting. -/
def State.calReady (s : State) (g : Nat) : Bool :=
  let it := calItem g
  s.transomRuns && !s.sys.reloading && s.cal.queued.contains g && !(s.cal.running.any fun r => (calItem r.g).1 == it.1)
    && match it.1 with
      | 2 => s.coreUp (corePartner it.2)
      | 5 => s.acq.transom.running.isNone && s.acq.transom.urgentNow.isNone && !s.acq.transom.calibrating
      | _ => true

/-- CAL_GROUP_START of group `g`: the lowest of its item that may start (R488 to R493). -/
def State.calStart (s : State) (g : Nat) : State :=
  let it := calItem g
  if !s.calReady g || s.cal.queued.any (fun h => decide (h < g) && (calItem h).1 == it.1 && s.calReady h) then s
  else
    let s := s.calBegin g
    match it.1 with
    | 1 =>
      let k := it.2
      let s := (List.range 16).foldl (fun s i =>
        if s.bayIdle (dieBay k i) then s.setFld (CONV_BAY_STAT (dieBay k i)) CONV_BAY_STAT_CAL_BUSY 1 else s) s
      (s.onTakeover k fun _ => { left := List.range 17 }).nextTakeover k
    | 2 => s.coreOut it.2
    | 5 => (s.onTransom fun x => { x with calibrating := true, since := s.now, lastCal := some (s.now, s.calTemp 28) }).showTransom
    | _ => s

/-- The meaning of CAL_GROUP_START. -/
def execCalGroupStart (t : Nat) (g : Fin 29) (s : State) : Host.Outcome State Fault Refusal := event t (State.calStart · g) s

/-- Does an EXC run of a die measure this value of a bay: both in SINE, the detector alone in PLUCK and SWEEP while no drive is due within
10 ms, none with the generator OFF (R490)? -/
def State.excTakes (s : State) (die : Nat) (v : CalValue) : Bool :=
  let b := 16 * die + v.element
  let em := s.fld (AFE_BAY_EXC b) AFE_BAY_EXC_EMODE
  em == 1 || (em != 0 && v.field == 0 && !s.tiu.gates.any fun g => g.drive && g.bay == b && decide (s.now < g.driveEnd))

/-- CAL_GROUP_DONE of group `g`, but for a vernier core: a CONV run once its rotation is over (R488); the measured values take
effect and the run ends (R495 to R499). -/
def State.calDone (s : State) (g : Nat) (values : List CalValue) (quality : Nat) : State :=
  let it := calItem g
  let t := s.takeover it.2
  if !(s.cal.running.any fun r => r.g == g) || it.1 == 2 || (it.1 == 1 && !(t.left.isEmpty && t.bay.isNone && !t.reliefDue)) then s
  else
    let taken := values.filter fun v => it.1 != 4 || s.excTakes it.2 v
    (if it.1 = 1 then s else taken.foldl (fun s v => s.calValue g v) s).calFinish g quality

/-- The meaning of CAL_GROUP_DONE. -/
def execCalGroupDone (t : Nat) (g : Fin 29) (values : List CalValue) (quality : Nat) (s : State) : Host.Outcome State Fault Refusal :=
  event t (fun s => s.calDone g values quality) s

/-- VERNIER_CAL_DONE of core `v`: its table takes effect as the core takes its sources back, where both loops are locked
(06_interval_unit.md R181 to R184; R489, R497). -/
def State.vernierDone (s : State) (v : Nat) (values : List CalValue) (quality : Nat) : State :=
  let g := 8 + v
  match s.cal.running.find? fun r => r.g == g with
  | none => s
  | some r => ((values.foldl (fun s x => s.calValue g x) s).calFinish g quality).coreBack v (some r.since)

/-- The meaning of VERNIER_CAL_DONE. -/
def execVernierCalDone (t : Nat) (v : Fin 8) (values : List CalValue) (quality : Nat) (s : State) : Host.Outcome State Fault Refusal :=
  event t (fun s => s.vernierDone v values quality) s

/-- CAL_RETRY of group `g`, 60 s after a run with a rejection (R493). -/
def State.calRetry (s : State) (g : Nat) : State :=
  let r := Tab.get (0, 0) s.cal.retryAt g
  if r.1 = 0 ∨ s.now < r.1 then s else (s.onCal fun c => { c with retryAt := Tab.set (0, 0) c.retryAt g (0, r.2) }).queueCal g

/-- The meaning of CAL_RETRY. -/
def execCalRetry (t : Nat) (g : Fin 29) (s : State) : Host.Outcome State Fault Refusal := event t (State.calRetry · g) s

/-- CAL_RUN (0xF001), R500. -/
def bodyCalRun : Body := fun c ps s =>
  let item := num ps 0 1
  let first := num ps 1 1
  let count := num ps 2 1
  let f := num ps 3 1
  let gs := (List.range count).map fun i => calGroup item (first + i)
  checked s
    [need (item < 6 && decide (1 ≤ count) && decide (first + count ≤ calCount item) && decide (f < 2)) stBAD_PARAM,
     need (item != 0 || allIn first count fun k => allIn 0 16 fun i => s.bmode (dieBay k i) == 0) stBAD_STATE,
     need (item != 3 || allIn first count fun p => s.on (LNK_PORT_CFG p) LNK_PORT_CFG_TEST) stBAD_STATE,
     need (!(s.cal.running.any fun r => (calItem r.g).1 == item)) stBUSY]
    (let s := s.onCal fun x => { x with ops := x.ops ++ [⟨c, gs, [], bit f 0⟩] }
     .long (gs.foldl (fun s g => s.queueCal g) s))

/-- The meaning of CAL_RUN. -/
def execCalRun (t : Nat) (p : Packet) (s : State) : Host.Outcome State Fault Refusal := command 0xF001 bodyCalRun t p s

/-- CAL_GRP_STAT as it reads now: AGE_MIN counts the minutes since the last committed run. -/
def State.calGrpStat (s : State) (g : Nat) : Word :=
  match s.cal.lastCommit.find? fun e => e.1 == g with
  | some e => setBits (s.rd (CAL_GRP_STAT g)) CAL_GRP_STAT_AGE_MIN (satN 8 ((s.now - e.2.1) / fineMs 60000))
  | none => s.rd (CAL_GRP_STAT g)

/-- CAL_STATUS (0xF002), R501. -/
def bodyCalStatus : Body := fun _ _ s =>
  .reply s stOK ((([CAL_POLICY, CAL_PERIOD, CAL_STAT, CAL_COUNT].map fun a => (s.rd a).toNat)
    ++ (List.range 29).flatMap fun g => [(s.calGrpStat g).toNat, (s.rd (CAL_GRP_QUAL g)).toNat]).flatMap (le 4))

/-- The meaning of CAL_STATUS. -/
def execCalStatus (t : Nat) (p : Packet) (s : State) : Host.Outcome State Fault Refusal := command 0xF002 bodyCalStatus t p s

/-- A group's values as an NVM record (Table 16-4, R499). -/
def State.calImage (s : State) (g : Nat) : List Byte :=
  let it := calItem g
  let r := s.calRec g
  let b := le 1 0xCA ++ le 1 0x1B ++ le 1 it.1 ++ le 1 it.2 ++ le 2 r.payload.length ++ le 2 r.generation ++ le 8 r.st ++ leI 2 r.temp ++ le 2 r.quality
    ++ r.payload
  b ++ le 4 (crc32c b)

/-- CAL_COEFF_READ (0xF003), R502. -/
def bodyCalCoeffRead : Body := fun _ ps s =>
  let item := num ps 0 1
  let idx := num ps 1 1
  let off := num ps 4 4
  let len := num ps 8 4
  let img := s.calImage (calGroup item idx)
  checked s
    [need (item < 6 && decide (idx < calCount item) && zeroAt ps 2 2 && decide (1 ≤ len) && decide (len ≤ 4000) && decide (off + len ≤ img.length)) stBAD_PARAM]
    (.reply s stOK (bytesAt img off len))

/-- The meaning of CAL_COEFF_READ. -/
def execCalCoeffRead (t : Nat) (p : Packet) (s : State) : Host.Outcome State Fault Refusal := command 0xF003 bodyCalCoeffRead t p s

/-- CAL_POLICY (0xF004), R503: both words go to NVM before the reply. -/
def bodyCalPolicy : Body := fun _ ps s =>
  let w := num ps 0 4
  checked s [need (bits w 24 5 == 0 && bits w 0 16 == 0 && bits w 16 8 != 0) stBAD_PARAM]
    (ok ((s.wrNvm CAL_POLICY (word w)).wrNvm CAL_PERIOD (word (num ps 4 4))))

/-- The meaning of CAL_POLICY. -/
def execCalPolicy (t : Nat) (p : Packet) (s : State) : Host.Outcome State Fault Refusal := command 0xF004 bodyCalPolicy t p s

end Sys2Proof.Machine
end

