-- ==== Sys2Proof/Machine/Transom.lean ====
section
/-!
DEFINITION. What the transom converter finishes (03_conversion.md R100 to R106), and Porter's sensor reads, which are urgent requests of
it (15_porter_management.md R470).
-/

namespace Sys2Proof.Machine

open Reg Bits

/-- The transom sources that Porter reads, in order (R470). -/
def sensorSources : List Nat := [0x10, 0x11, 0x12, 0x13, 0x14, 0x15] ++ (List.range 17).map (0x18 + ·)

/-- The scale of a source's pin voltage (03_conversion.md Table 03-6). -/
def sensorScale (src : Nat) : Nat := if src = 0x22 then 4 else if (0x1F ≤ src ∧ src ≤ 0x21) ∨ src = 0x23 then 2 else 1

/-- The nominal voltage of a supply or VCM, in uV (R470; 18_electrical_and_package.md Table 18-2). -/
def sensorNominal (src : Nat) : Nat :=
  if src < 0x1B then 800000
  else match src with
    | 0x1B => 900000
    | 0x1C => 1200000
    | 0x1D => 1100000
    | 0x1E => 600000
    | 0x1F | 0x20 | 0x21 => 1800000
    | 0x22 => 5000000
    | 0x23 => 3300000
    | _ => 2500000

/-- The value of a source: temperature in 1/256 °C, else uV at the pin (R484). (DEDUCED, log entry 40). -/
def sensorValue (src code : Nat) : Int :=
  if src < 0x18 then codeTemp code else roundQ ((code * 2500000 * sensorScale src : Nat) / (2 ^ 18 : Nat) : Rat)

/-- Is a source in alarm: beyond its limit, or, once raised, not yet inside it by the margin (R470)? `xb` is the grade.
(DEDUCED, log entry 40). -/
def sensorBeyond (xb was : Bool) (src code : Nat) : Bool :=
  if src < 0x18 then
    let t : Int := code * 320000
    let lim := fun (c : Int) => (c * 256 + 76800) * (2 ^ 18 : Nat)
    let hot : Int := if xb then 125 else 105
    if was then decide (t > lim (hot - 2)) || decide (t < lim (-38)) else decide (t > lim hot) || decide (t < lim (-40))
  else if src = 0x28 then decide (code > if was then 8 else 16)
  else
    let n : Int := sensorNominal src * 2 ^ 18
    let d := ((code * 2500000 * sensorScale src : Nat) - n : Int).natAbs
    decide (d * 100 > (if was then 4 else 5) * n.natAbs)

/-- The result of one of Porter's reads (R470): an alarm raised or cleared shows, and after the last of a poll the calibration policy looks
at the temperatures (16_calibration.md R492). -/
def State.sensorRead (s : State) (src code : Nat) : State :=
  let i := src - 0x10
  let was := bit s.sys.sensorAlarm i
  let now := sensorBeyond (s.fld SYS_ID SYS_ID_GRADE == 1) was src code
  let s := s.onSys fun y => { y with sensorCodes := Tab.insert y.sensorCodes src code }
  let s := if was = now then s
    else
      let s := s.onSys fun y => { y with sensorAlarm := y.sensorAlarm ^^^ 2 ^ i }
      (s.setBit SYS_SENSOR_ALM SYS_SENSOR_ALM_SEEN i).issue 0x0006 [src, item (sensorValue src code), b2n now]
  let left := !s.acq.transom.poll.isEmpty || s.acq.transom.urgent.any fun u => u.caller.isNone
  if left || s.isMinimal then s else s.calTempMoves

/-- Porter's reads take the free places of the urgent queue, in order (R470; 03_conversion.md R103). -/
def State.pollFill (s : State) : State :=
  s.acq.transom.poll.foldl (fun s src =>
    if s.acq.transom.urgent.length ≥ 4 then s
    else (s.onTransom fun x => { x with poll := x.poll.filter (· != src) }).urgentRequest ⟨word (8 * 2 ^ 16 + 2 * 2 ^ 10 + src), none⟩) s

/-- SENSOR_POLL (R470): once a second in ACTIVE, QUIET and MINIMAL Porter begins to read its sources. (DEDUCED, log entries 31 and 40). -/
def State.sensorPoll (s : State) : State :=
  let early := s.sys.sensorAt.any fun f => decide (s.now < f + fineMs 1000)
  if !(s.transomRuns || s.isMinimal) || s.sys.reloading || early || !s.acq.transom.poll.isEmpty then s
  else ((s.onSys fun y => { y with sensorAt := some s.now, sensorSt := s.st }).onTransom fun x => { x with poll := sensorSources }).pollFill

/-- The meaning of SENSOR_POLL. -/
def execSensorPoll (t : Nat) (s : State) : Host.Outcome State Fault Refusal := event t State.sensorPoll s

/-- Does the transom calibrate after this sequence: at most once per 10 s, and for a 4 °C move of FE0 (R106)?
(DEDUCED, log entry 31). -/
def State.transomCalDue (s : State) : Bool :=
  match s.acq.transom.lastCal with
  | none => true
  | some (at_, t) => decide (s.now ≥ at_ + fineMs 10000) || decide ((s.calTemp 28 - t).natAbs ≥ 1024)

/-- TRANSOM_ENTRY_DONE, with the codes of its conversions (R100, R102, R104, R106, R110): an urgent request of Porter's is a sensor read. -/
def State.transomDone (s : State) (codes : List Nat) : State :=
  let x := s.acq.transom
  match x.urgentNow with
  | some u =>
    if s.now < x.since + settleOf u.entry + convOf u.entry then s
    else
      let r := s.transomResult u.entry codes
      let s := r.2.2.onTransom fun y => { y with urgentNow := none }
      let s := match u.caller with
        | some c => s.answer c stOK (le 4 r.1 ++ le 8 r.2.1)
        | none => s.sensorRead (wfld u.entry CONV_TSEQ_SRC) r.1
      s.transomNext.pollFill
  | none => match x.running with
    | none => s
    | some i =>
      let w := x.entry i
      if x.calibrating || decide (s.now < x.since + settleOf w + convOf w) then s
      else
        let s := (s.transomResult w codes).2.2
        if wfld w CONV_TSEQ_LAST = 1 ∨ i = 63 then
          let cal := s.transomCalDue
          let t := s.calTemp 28
          let s := if cal && !(s.cal.running.any fun r => r.g == 28) then s.calBegin 28 else s
          let last := if cal then some (s.now, t) else x.lastCal
          let full := if x.pendingSlot then some (s.now / clk) else x.fullAt
          (s.onTransom fun y => { y with running := none, calibrating := cal, since := s.now, lastCal := last, fullAt := full }).transomNext.pollFill
        else (s.onTransom fun y => { y with running := some (i + 1) }).transomNext

/-- The meaning of TRANSOM_ENTRY_DONE. -/
def execTransomEntryDone (t : Nat) (codes : List Nat) (s : State) : Host.Outcome State Fault Refusal := event t (State.transomDone · codes) s

/-- TRANSOM_CALIBRATION_DONE: 1 ms after it began (R106). -/
def State.transomCalibrated (s : State) : State :=
  let x := s.acq.transom
  if !x.calibrating || decide (s.now < x.since + fineMs 1) then s else (s.onTransom fun y => { y with calibrating := false }).transomNext.pollFill

/-- The meaning of TRANSOM_CALIBRATION_DONE. -/
def execTransomCalibrationDone (t : Nat) (s : State) : Host.Outcome State Fault Refusal := event t State.transomCalibrated s

end Sys2Proof.Machine
end

