-- ==== Sys2Proof/Machine/TimeBase.lean ====
section
/-!
DEFINITION. The time base (05_time_base.md): maps, increments and offset steps, domains, hop-by-hop transfer, path steps,
acquisition from PPS and from links, holdover, and the crystal second (00_scope.md R541).
-/

namespace Sys2Proof.Machine

open Reg Bits

/-- The difference of two times of 2^-80 s, modulo 2^128, signed. -/
def sdiff (a b : Nat) : Int := signed 128 (unsigned 128 ((a : Int) - b))

/-- State, upstream and GM_EN of a domain. -/
def State.domState (s : State) (d : Nat) : Nat := s.fld (TB_DOM_STAT d) TB_DOM_STAT_STATE
def State.upstream (s : State) (d : Nat) : Nat := s.fld (TB_DOM_STAT d) TB_DOM_STAT_UPSTREAM
def State.gmEn (s : State) (d : Nat) : Bool := s.on (TB_DOM_CFG d) TB_DOM_CFG_GM_EN

/-- Does the firmware servo run: from BOOT_OK on, not in MINIMAL (R543), nor while Porter restarts (15_porter_management.md R457)? -/
def State.servoRuns (s : State) : Bool := s.sys.phase == .running && !s.sys.reloading

/-- The nominal increment, and 200 ppm of it (R145, R148). -/
def nominal : Nat := 0x0053E2D6238DA3C2
def incrOk (i : Nat) : Bool := decide (nominal - nominal * 200 / 1000000 ≤ i) && decide (i ≤ nominal + nominal * 200 / 1000000)

/-- Commit an increment: it waits for the next boundary, unless it lies outside the range (R147, R148). -/
def State.commitIncr (s : State) (d i : Nat) : State :=
  if incrOk i then (s.onDom d fun x => { x with pending := (i, s.now) :: x.pending }).setFld (TB_DOM_STAT d) TB_DOM_STAT_INCR_PENDING 1 else s

/-- A new map of domain `d` from fine count `f` on; the old one is kept for stamps taken under it (R144, R191). -/
def State.setMap (s : State) (d f : Nat) (off : Int) (inc : Nat) : State :=
  let old : TMap := ⟨(s.dom d).mapFrom, (s.dom d).offset, s.incr d⟩
  (s.onDom d fun x => { x with offset := unsigned 128 off, mapFrom := f, old := old :: x.old }).wr64 (TB_INCR d) inc

/-- At the boundary `f` the last increment committed before its clock takes effect; domain time goes on without a step (R147). -/
def State.applyIncr (s : State) (d f : Nat) : State :=
  let early := fun (e : Nat × Nat) => decide (e.2 / 4096 < f / 4096)
  match (s.dom d).pending.find? early with
  | none => s
  | some (i, _) =>
    let s := s.setMap d f (((s.dom d).offset : Int) + (f / 8192 : Nat) * ((s.incr d : Int) - i)) i
    let rest := (s.dom d).pending.filter fun e => !early e
    (s.onDom d fun x => { x with pending := rest }).setFld (TB_DOM_STAT d) TB_DOM_STAT_INCR_PENDING (b2n !rest.isEmpty)

/-- Time marks that follow served time start afresh at a step of it: what was due at instants the step passes is not done.
(DEDUCED, log entry 45). -/
def State.rebase (s : State) : State :=
  let T := s.served
  let s := (List.range 32).foldl (fun s u =>
    if s.fld (CAP_TRIG_CFG u) CAP_TRIG_CFG_TYPE = 6 then
      s.onUnit u fun x => { x with lastTime := periodOf (max 1 (s.fld (CAP_TRIG_PARAM u) CAP_TRIG_PARAM_PARAM)) T }
    else s) s
  let s := s.onAcq fun a => { a with lastTick := s.tickNow, transom := { a.transom with lastPeriodAt := T } }
  let s := (List.range 4).foldl (fun s n =>
    s.onFport n fun x => { x with lastPoll := periodOf (max 1 (s.fld (FLD_PORT_TIMING n) FLD_PORT_TIMING_POLL)) T }) s
  s.onPmc fun x => { x with nextDump := nextMultiple (s.fld PMC_DUMP PMC_DUMP_PERIOD) (s.served40 + 1) }

/-- A running stream ends at its last sample whose support lies wholly before an offset step, and restarts after it with TIME_STEP
(R131). -/
def State.stepStream (s : State) (c : Nat) : State :=
  let last := s.lastComplete c
  let x := s.course c
  let more := decide (last ≥ ((s.strm c).next : Int))
  let s := if more then s else s.closeKey c
  (s.awaitStream c s.now 0 true).onStrm c fun y =>
    { y with stepped := true, tail := if more then some ⟨last.toNat, x.cfg, x.mode, x.unit⟩ else none }

/-- An offset step of served time from `old` (R131, R172; 07_panes_and_triggers.md R206, R216, R225): running streams end and wait
anew, and one STREAMS_STEPPED tells of them; the next record of every stream and pane tap carries TIME_STEP; history breaks; open
panes end; entries whose time the step passes are late. (DEDUCED, log entry 45). -/
def State.servedStep (s : State) (old : Nat) : State :=
  let new := s.served
  let step := sdiff new old / (2 ^ 40 : Nat)
  let running := (List.range 512).filter fun c => s.on (DEC_CH_STAT c) DEC_CH_STAT_RUNNING
  let waiting := (List.range 512).filter fun c => s.on (DEC_CH_STAT c) DEC_CH_STAT_WAITING
  let aux := ((List.range 80).map (512 + ·)).filter s.streaming
  let s := running.foldl (fun s c => s.stepStream c) s
  let s := waiting.foldl (fun s c => s.onStrm c fun x => { x with waitFrom := s.now }) s
  let s := aux.foldl (fun s c => (s.closeKey c).onStrm c fun x => { x with stepped := true }) s
  let s := if running.isEmpty then s else s.issue 0x3003 [item step, st64 new, running.length]
  let s := (List.range 64).foldl (fun s b => s.breakHistory b 5) s
  let s := (List.range 16).foldl (fun s e => (s.openPanes e).foldl (fun s p => s.endPane p) s) s
  let grid := fun (k : Kept) => s.acq.taps.any fun t => t.bay == k.ch / 8 && t.slot == k.tap && t.grid
  let s := s.onCap fun c => { c with rings := c.rings.filter fun k => !grid k }
  let s := s.onAcq fun a => { a with taps := a.taps.map fun t => { t with since := s.now, stepped := bayChans t.bay } }
  let s := (List.range 32).foldl (fun s i =>
    let T := (s.act i).time
    if s.armed i then s.onAct i fun x => { x with late := (x.late || decide (to40 old < T)) && decide (T ≤ to40 new) } else s) s
  s.rebase

/-- An offset step of domain `d` (R150): counted, reported, and one of served time where it is the served domain. -/
def State.domStep (s : State) (d f : Nat) (off : Int) (cause : Nat) : State :=
  let oldD := s.domTime d f
  let oldT := s.served
  let s := s.setMap d f off (s.incr d)
  let s := (s.bump (TB_DOM_STAT d) TB_DOM_STAT_STEP_COUNT).issue 0x4005 [d, item (sdiff (s.domTime d f) oldD / (2 ^ 40 : Nat)), cause]
  if s.tb.served = d then s.servedStep oldT else s

/-- The FT96 anchor of domain `d` as a time of 2^-80 s. -/
def State.anchorTime (s : State) (d : Nat) : Nat :=
  s.fld (TB_ANCHOR_SEC d) TB_ANCHOR_SEC_SEC * 2 ^ 80 + s.fld (TB_ANCHOR_FRAC d) TB_ANCHOR_FRAC_FRAC * 2 ^ 32

/-- At the boundary `f` a requested step is applied: by the anchor where GO is set, else the step asked for (R150, R174).
(DEDUCED, log entry 45). -/
def State.applyStep (s : State) (d f : Nat) : State :=
  let req := (s.dom d).stepReq
  let s := s.onDom d fun x => { x with stepReq := none }
  if s.on (TB_ANCHOR_CTRL d) TB_ANCHOR_CTRL_GO then
    (s.setFld (TB_ANCHOR_CTRL d) TB_ANCHOR_CTRL_GO 0).domStep d f ((s.anchorTime d : Int) - s.rd64 (TB_ANCHOR_XC d) * s.incr d) ((req.map Prod.snd).getD 0)
  else match req with
    | some (x, cause) => s.domStep d f ((s.dom d).offset + x) cause
    | none => s

/-- The domain to serve (R153). -/
def State.wantServed (s : State) : Nat :=
  match s.fld TB_CTRL TB_CTRL_SELECT with
  | 1 => 0
  | 2 => 1
  | _ =>
    if s.domTq 0 < s.domTq 1 then 0 else if s.domTq 1 < s.domTq 0 then 1
    else if s.tb.everServed then s.tb.served
    else if s.on TB_CTRL TB_CTRL_PREFER_B then 1 else 0

/-- The served domain and the residual change at fine count `f`. -/
def State.setServed (s : State) (f dom : Nat) (res : Int) : State :=
  s.onTb fun t => { t with served := dom, d := res, servedFrom := f, oldServed := (t.servedFrom, t.served, t.d) :: t.oldServed }

/-- The switch of served domain at the boundary `f`, by slew or by step, and the slew of the residual (R153, R154).
(DEDUCED, log entry 45). -/
def State.applyServed (s : State) (f : Nat) : State :=
  let want := s.wantServed
  let old := s.tb.served
  let s := if want = old then
      let x := s.tb.d
      let y := ps80 10
      if x = 0 then s else s.setServed f old (if x > 0 then x - min x y else x + min (-x) y)
    else
      let diff := sdiff (s.domTime old f) (s.domTime want f)
      let byStep := s.domTq old == 3 || decide (diff.natAbs > ps80 10000000)
      let oldT := s.served
      let s := s.setServed f want (if byStep then 0 else s.tb.d + diff)
      let s := s.issue 0x4002 [old, want, item (diff / (2 ^ 40 : Nat)), b2n byStep]
      if byStep then (s.issue 0x4005 [want, item (sdiff s.served oldT / (2 ^ 40 : Nat)), 2]).servedStep oldT else s
  if s.domTq s.tb.served ≤ 2 then s.onTb fun t => { t with everServed := true } else s

/-- A domain's STATE and time quality change: DOMAIN_STATE (R179). -/
def State.setDom (s : State) (d state tq : Nat) : State :=
  let o := s.domState d
  let q := s.domTq d
  let s := (s.setFld (TB_DOM_STAT d) TB_DOM_STAT_STATE state).setFld (TB_DOM_STAT d) TB_DOM_STAT_TQ tq
  if o = state ∧ q = tq then s else s.issue 0x4001 [d, o, state, tq]

/-- The freeze of a domain's increment after a path step (Table 05-4). -/
def State.setFreeze (s : State) (d : Nat) (x : Option (Option Nat)) : State :=
  (s.onDom d fun m => { m with freeze := x }).setFld (TB_DOM_STAT d) TB_DOM_STAT_FROZEN (b2n x.isSome)

/-- What port `p` offers of domain `d`. (DEDUCED, log entry 46). -/
def State.offer (s : State) (p d : Nat) : Option Offer := if d = 0 then (s.ptime p).offerA else (s.ptime p).offerB

/-- Does port `p` qualify as an upstream of domain `d`: it is up, its peer has announced the domain within 16 boundaries with
VALID, not at TQ3, and does not follow this hub (R159, R166)? (DEDUCED, log entry 46). -/
def State.qualifies (s : State) (d p : Nat) : Bool :=
  s.portUp p && match s.offer p d with
    | some o => o.valid && !o.isYou && o.tq != 3 && decide (s.tb.lastBoundary < o.at_ + 16)
    | none => false

/-- Rank of a role among upstreams (R159). -/
def roleRank (r : Nat) : Nat :=
  if r = rTrunkE ∨ r = rTrunkW then 0 else if r = rRingE ∨ r = rRingW then 1 else if r = rBypE ∨ r = rBypW then 2 else 3

/-- The upstream that R159 prefers among some ports. -/
def State.bestOf (s : State) (d : Nat) (ports : List Nat) : Option Nat :=
  let key := fun p => match s.offer p d with
    | some o => ((o.tq * 256 + o.hops) * 4 + roleRank (s.role p)) * 8 + p
    | none => 0
  ports.foldl (fun b p => match b with
    | none => some p
    | some x => if key p < key x then some p else b) none

/-- The upstream of domain `d` under R159; a port left after a path step is taken only where no other qualifies (Table 05-4).
(DEDUCED, log entry 46). -/
def State.chooseUp (s : State) (d : Nat) : Option Nat :=
  let c := (List.range 8).filter (s.qualifies d)
  match s.bestOf d (c.filter fun p => (s.dom d).avoid != some p) with
  | some p => some p
  | none => s.bestOf d c

/-- The links on the path of domain `d`: marked ASYM_UNKNOWN, or in legacy port mode. -/
def State.pathAsym (s : State) (d : Nat) : Bool :=
  decide (s.upstream d < 8) && (s.on (TB_PORT_FLAGS (s.upstream d)) TB_PORT_FLAGS_ASYM_UNKNOWN || ((s.offer (s.upstream d) d).map Offer.asymUnk).getD false)
def State.pathLegacy (s : State) (d : Nat) : Bool :=
  decide (s.upstream d < 8) && (s.legacyPort (s.upstream d) || ((s.offer (s.upstream d) d).map Offer.legacy).getD false)

/-- The time quality of a domain in TRACK (R152; Table 05-5 step 6 for a grandmaster): TQ2 behind an upstream in holdover, itself or by
what it tracks. (DEDUCED, log entry 44). -/
def State.trackTq (s : State) (d : Nat) : Nat :=
  let m := s.dom d
  if s.gmEn d then if m.gm.degraded || m.reacquire then 1 else 0
  else match s.offer (s.upstream d) d with
    | none => 1
    | some o =>
      if o.tq = 2 || (o.tq == 3 && o.state == 3) then 2
      else if o.valid && o.tq = 0 && !s.pathAsym d && !s.pathLegacy d && decide (s.fld (TB_DOM_STAT d) TB_DOM_STAT_HOPS ≤ 63) && decide (m.lastError.natAbs ≤ 1000)
        && !m.reacquire then 0
      else 1

/-- What a domain reports of its path follows its upstream; in TRACK its quality too. -/
def State.refreshDom (s : State) (d : Nat) : State :=
  let hops := if s.gmEn d then (if s.domState d = 2 then 0 else 255)
    else match (if s.upstream d < 8 then s.offer (s.upstream d) d else none) with
      | some o => min 255 (o.hops + 1)
      | none => 255
  let s := (s.setFld (TB_DOM_STAT d) TB_DOM_STAT_HOPS hops).setFld (TB_DOM_STAT d) TB_DOM_STAT_ASYM_UNK (b2n (s.pathAsym d))
  if s.domState d = 2 then s.setDom d 2 (s.trackTq d) else s

/-- A domain enters ACQUIRE: acquisition starts from its first step. -/
def State.acquire (s : State) (d : Nat) : State :=
  let s := s.onDom d fun x =>
    { x with stage := 0, agree := 0, avgs := [], upSecond := s.second, hold := none, reacquire := false,
             gm := { x.gm with anchored := false, good := 0, edges := x.gm.edges.map fun e => { e with live := false } } }
  ((s.setFreeze d none).setDom d 1 3).refreshDom d

/-- A domain enters TRACK. -/
def State.track (s : State) (d : Nat) : State :=
  let s := s.onDom d fun x => { x with hold := none, lastCell := s.tb.lastBoundary }
  let s := if s.gmEn d then s.setFld (TB_DOM_STAT d) TB_DOM_STAT_UPSTREAM 8 else s
  let s := s.setFld (TB_DOM_STAT d) TB_DOM_STAT_HOPS (if s.gmEn d then 0 else s.fld (TB_DOM_STAT d) TB_DOM_STAT_HOPS)
  (s.setDom d 2 (s.trackTq d)).refreshDom d

/-- A domain without a source is OFF (Table 05-2). -/
def State.domOff (s : State) (d : Nat) : State :=
  let s := (s.onDom d fun x => { x with hold := none, reacquire := false }).setFld (TB_DOM_STAT d) TB_DOM_STAT_UPSTREAM 15
  ((s.setFreeze d none).setDom d 0 3).refreshDom d

/-- The upstream of domain `d` is chosen anew (R159): a source found takes an OFF domain to ACQUIRE, a domain in ACQUIRE that
has none is OFF. A change of upstream causes no step. -/
def State.refreshUp (s : State) (d : Nat) : State :=
  if !s.servoRuns || s.gmEn d then s
  else match s.chooseUp d with
    | none =>
      let st := s.domState d
      if st = 1 then s.domOff d else if st = 3 then (s.setFld (TB_DOM_STAT d) TB_DOM_STAT_UPSTREAM 15).refreshDom d else s.refreshDom d
    | some p =>
      let s := if s.upstream d = p then s
        else (s.setFld (TB_DOM_STAT d) TB_DOM_STAT_UPSTREAM p).onDom d fun x => { x with upSecond := s.second, avgs := [], lastCell := s.tb.lastBoundary }
      if s.domState d = 0 then s.acquire d else s.refreshDom d

/-- The greatest change of an increment from one boundary to the next: 50 × 10^-9 per second (R149). -/
def rateStep : Nat := nominal * 50 / (1000000000 * 1024)

/-- What the servo commits at a boundary: in TRACK within R149, and, while it removes an offset after a holdover, within 10 ppm of the
increment at the return, which tracks the source as the holdover model has it (R165); in HOLDOVER what the REFCLK_IN ratio gives, or
the crystal model (R166, R168); nothing while frozen, before an anchor or the slope. What the manual does not compute is free.
(DESIGN CHOICE, log entry 47). -/
def State.servoStep (s : State) (d : Nat) : State :=
  let old := s.incr d
  let m := s.dom d
  let steer := if s.gmEn d then m.gm.anchored && !s.on (TB_ANCHOR_CTRL d) TB_ANCHOR_CTRL_GO else decide (m.stage ≥ 3)
  if m.freeze.isSome then s
  else match s.domState d with
    | 1 =>
      if steer && m.pending.isEmpty then
        let k := s.draw
        let i := (Config.servoIncr k.1).toNat
        if i = old then k.2 else k.2.commitIncr d i
      else s
    | 2 =>
      let k := s.draw
      let far := if m.reacquire then m.home / 100000 else nominal
      let i := max (old - rateStep) (min (old + rateStep) (max (m.home - far) (min (m.home + far) (Config.servoIncr k.1).toNat)))
      if i = old then k.2 else k.2.commitIncr d i
    | 3 =>
      match s.tb.refSpan.filter fun _ => s.on TB_STATUS TB_STATUS_REF_OK, m.refLearn with
      | some n, some l => s.commitIncr d (l / max 1 n)
      | _, _ =>
        let k := s.draw
        k.2.commitIncr d (Config.holdoverIncr k.1).toNat
    | _ => s

/-- The crystal cavity temperature (transom source 0x15), in 1/256 °C. -/
def State.cavity (s : State) : Int := codeTemp (s.fld (CONV_TRESULT 0x15) CONV_TRESULT_CODE)

/-- MODEL_VALID: the crystal model has learned for 12 h in TRACK (R166). (DESIGN CHOICE, log entry 47). -/
def State.modelValid (s : State) : Bool := decide (s.tb.learned ≥ 43200)

/-- The holdover bound at a boundary, in units of 10^-15 s, and TQ3 while it exceeds HOLD_LIMIT, TQ2 again where a later boundary finds it
within (R166). (DEDUCED, log entry 47). -/
def State.holdBound (s : State) (d f : Nat) : State :=
  match (s.dom d).hold with
  | none => s
  | some h =>
    let near := match s.tb.temps with
      | some (lo, hi) => decide (lo - 512 ≤ s.cavity) && decide (s.cavity ≤ hi + 512)
      | none => false
    let known := s.on TB_STATUS TB_STATUS_REF_OK || (s.modelValid && near)
    let k := s.draw
    let r := if known then (Config.holdoverRate k.1).toNat else 25000000000
    let a := if known then (Config.holdoverDrift k.1).toNat else 0
    let dt := f - h.since
    let sec := 51200000 * 8192
    let b := h.b0 + ceilDiv (r * dt) sec + ceilDiv (a * dt * dt) (2000000 * sec * sec)
    let s := (if known then k.2 else s).onDom d fun x => { x with hold := some { h with bound := b } }
    s.setDom d 3 (if b > s.fld (TB_DOM_CFG d) TB_DOM_CFG_HOLD_LIMIT * 10000000000 then 3 else 2)

/-- The latency removed from a lane's time blocks, in fine counts: the calibrated value with the design's (R156; 16_calibration.md R491).
(DEDUCED, log entry 28). -/
def State.laneLat (s : State) (l : Nat) (tx : Bool) : Nat :=
  (Config.laneDelay l tx).toNat * 4194304 / 10000000
    + s.calNum (16 + l / 4) (12 * (l % 4) + 4 * min 2 (s.fld (LNK_PORT_STAT (l / 4)) LNK_PORT_STAT_RATE_NOW) + (if tx then 0 else 2)) 2

/-- The deskew offset of a lane: what it waits in the deskew buffer for the slowest lane in use, which the fibre delay includes (R156;
11_serial_lanes_and_syrilink.md R335). (DEDUCED, log entry 46). -/
def State.deskew (s : State) (l : Nat) : Nat :=
  let used := ((List.range 4).map (4 * (l / 4) + ·)).filter fun k => s.on (LNK_LANE_STAT k) LNK_LANE_STAT_IN_USE
  used.foldl (fun m k => max m (s.lane k).skew) (s.lane l).skew - (s.lane l).skew

/-- The lowest good lane of port `p` (R156). -/
def State.timeLane (s : State) (p : Nat) : Nat := 4 * p + ((List.range 4).find? fun i => s.on (LNK_LANE_STAT (4 * p + i)) LNK_LANE_STAT_IN_USE).getD 0

/-- TAI − UTC of domain `d` in seconds: what its latest label or time cell said, and the UTC_OFFSET of its configuration before
the first (05_time_base.md Table 05-8, TB_DOM_CFG; log entry 48). -/
def State.taiUtc (s : State) (d : Nat) : Int := (s.dom d).taiUtc.getD (signed 16 (s.fld (TB_DOM_CFG d) TB_DOM_CFG_UTC_OFFSET))

/-- One domain's half of a time cell for port `p` whose time block went out at fine count `f` (Table 05-3).
(DEDUCED, log entry 46). -/
def State.cellHalf (s : State) (p d f : Nat) : TimeCellDom :=
  let T := s.domTime d f
  let up := s.upstream d
  let st := s.domState d
  { txTime := st64 T, rxTime := ((s.ptime p).rxStamp.map fun r => st64 (s.domTime d r)).getD 0, rxSeq := (s.ptime p).rxSeq,
    flags := 128 * b2n (s.sys.phase == .running && st != 0) + 64 * b2n (up == p) + 32 * b2n (s.pathLegacy d) + 16 * b2n (s.pathAsym d) + 4 * st + s.domTq d,
    hops := s.fld (TB_DOM_STAT d) TB_DOM_STAT_HOPS, secHigh := T / 2 ^ 104 % 2 ^ 24, taiUtc := s.taiUtc d,
    root := if s.gmEn d then s.addr else (s.dom d).root }

/-- TIME_BLOCK_SEND of port `p` at the boundary `f`: the block is stamped on V0, and its time cell follows (R156;
06_interval_unit.md R187). A block that got no stamp has no cell. (DESIGN CHOICE, log entry 47). -/
def State.sendTime (s : State) (p f : Nat) : State :=
  let l := s.timeLane p
  let k := s.draw
  let at_ := f + p * 32 * clk + (Config.slotPhase k.1).toNat % max 1 (blockFine (s.fld (LNK_PORT_STAT p) LNK_PORT_STAT_RATE_NOW) 1)
  let r := k.2.stampEdge (0x2A + p) false (max s.now at_)
  let seq := ((r.2.ptime p).txSeq + 1) % 65536
  let s := r.2.onPtime p fun x => { x with txSeq := seq }
  let s := (s.onPort p fun x => { x with aside := [(l % 4, timeWord seq p)] }).onLane l fun x => { x with txIdleOther := x.txIdleOther + 1 }
  match r.1 with
  | none => s
  | some st =>
    let tx := st.fine + s.laneLat l true
    let s := s.onPtime p fun x => { x with txStamps := ((seq, tx) :: x.txStamps).take 16 }
    s.pushT p (.timeCell { seq := seq, sender := s.addr, domA := s.cellHalf p 0 tx, domB := s.cellHalf p 1 tx, crcOk := true }) 8

/-- A port that is not up exchanges nothing: what it measured starts afresh (R161). -/
def State.clearTime (s : State) (p : Nat) : State :=
  (s.onPtime p fun x => { txSeq := x.txSeq }).setFld (TB_PORT_FLAGS p) TB_PORT_FLAGS_EXCHANGING 0

/-- INCREMENT_BOUNDARY (R147, R150, R153, R154, R156, R166). -/
def State.boundary (s : State) : State :=
  let k := s.xc / 50000
  if k ≤ s.tb.lastBoundary then s
  else
    let f := k * 50000 * 8192
    let s := s.onTb fun t => { t with lastBoundary := k }
    let s := ((s.applyIncr 0 f).applyIncr 1 f)
    let s := ((s.applyStep 0 f).applyStep 1 f).applyServed f
    let thaw := fun (s : State) d => match (s.dom d).freeze with
      | some (some u) => if s.now ≥ u then s.setFreeze d none else s
      | _ => s
    let other := fun (s : State) d =>
      if (List.range 8).any fun q => q != s.upstream d && s.qualifies d q then s.onDom d fun x => { x with lastOther := k } else s
    let s := if s.servoRuns then
        [0, 1].foldl (fun s d => (((other (thaw s d) d).refreshUp d).servoStep d).holdBound d f) s
      else s
    (List.range 8).foldl (fun s p => if s.portUp p then s.sendTime p f else if s.ptime p = {} then s else s.clearTime p) s

/-- The meaning of INCREMENT_BOUNDARY. -/
def execIncrementBoundary (t : Nat) (s : State) : Host.Outcome State Fault Refusal := event t State.boundary s

/-- TIME_BLOCK_RECEIVED on port `p`: V1 stamps it (R156). -/
def State.timeBlock (s : State) (p seq : Nat) : State :=
  if !s.portUp p then s
  else
    let r := s.stampEdge (0x32 + p) false s.now
    let s := (r.2.setFld (TB_PORT_FLAGS p) TB_PORT_FLAGS_EXCHANGING 1).onLane (s.timeLane p) fun x => { x with idleOther := x.idleOther + 1 }
    match r.1 with
    | none => s
    | some st =>
      let l := s.timeLane p
      s.onPtime p fun x => { x with rxSeq := seq % 65536, rxStamp := some (st.fine + s.deskew l - s.laneLat l false) }

/-- The meaning of TIME_BLOCK_RECEIVED. -/
def execTimeBlockReceived (t : Nat) (p : Fin 8) (seq : Nat) (s : State) : Host.Outcome State Fault Refusal := event t (State.timeBlock · p seq) s

/-- What a half of a time cell announces. -/
def offerOf (c : TimeCellDom) (at_ : Nat) : Offer :=
  { valid := bit c.flags 7, isYou := bit c.flags 6, legacy := bit c.flags 5, asymUnk := bit c.flags 4, state := c.flags / 4 % 4, tq := c.flags % 4, hops := c.hops % 256,
    root := c.root, taiUtc := c.taiUtc, at_ := at_ }

/-- The mean path delay and the offset of an exchange, in 2^-80 s, before ASYM (R157), from the half of a time cell, own
reception of its block and own transmission of the block it reports, both in own time of the domain. -/
def exchangeOf (c : TimeCellDom) (t2 t3 : Nat) : Int × Int :=
  let t1 := (c.secHigh * 2 ^ 64 + c.txTime) * 2 ^ 40
  let t4 := resolveSt (c.secHigh * 2 ^ 64 + c.txTime) c.rxTime * 2 ^ 40
  let x := sdiff t2 t1
  let y := sdiff t4 t3
  ((x + y) / 2, (x - y) / 2)

/-- ASYM of a port, in ps. -/
def State.asym (s : State) (p : Nat) : Int := signed 32 (s.fld (TB_PORT_ASYM p) TB_PORT_ASYM_ASYM)

/-- The exchange of one domain by a time cell of port `p`, added to the domain's sums of the second: the cell follows the latest block
received, and reports one of the blocks sent (R157). -/
def State.exchange (s : State) (p d seq : Nat) (h : TimeCellDom) : State :=
  let x := s.ptime p
  match x.rxStamp.filter fun _ => x.rxSeq == seq, x.txStamps.find? fun e => e.1 == h.rxSeq with
  | some r, some (_, t) =>
    let e := exchangeOf h (s.domTime d r) (s.domTime d t)
    let add := fun (y : ExSums) => (⟨y.n + 1, y.mean + e.1, y.off + e.2 - ps80 (s.asym p)⟩ : ExSums)
    s.onPtime p fun y =>
      { y with began := y.began.orElse fun _ => some s.second, sumsA := if d = 0 then add y.sumsA else y.sumsA,
               sumsB := if d = 0 then y.sumsB else add y.sumsB }
  | _, _ => s

/-- TIME_CELL_RECEIVED on port `p` (R157, R159): what the peer announces is taken, the exchanges that pair enter the sums of the
second, each domain's by its own number of the block received; an upstream is chosen anew. -/
def State.timeCell (s : State) (p : Nat) (c : TimeCell) : State :=
  if !c.crcOk || !s.portUp p then s
  else
    let k := s.tb.lastBoundary
    let s := s.onPtime p fun x => { x with offerA := some (offerOf c.domA k), offerB := some (offerOf c.domB k) }
    let s := (s.exchange p 0 c.seq c.domA).exchange p 1 c.seq c.domB
    [0, 1].foldl (fun s d =>
      let h := if d = 0 then c.domA else c.domB
      let s := s.refreshUp d
      if s.upstream d = p && s.qualifies d p then
        (s.onDom d fun m => { m with lastCell := k, taiUtc := some h.taiUtc, root := h.root }).refreshDom d
      else s) s

/-- The meaning of TIME_CELL_RECEIVED. -/
def execTimeCellReceived (t : Nat) (p : Fin 8) (c : TimeCell) (s : State) : Host.Outcome State Fault Refusal := event t (State.timeCell · p c) s

/-- HOLDOVER_ENTRY of domain `d` (R166): 16 boundaries without a valid cell and without another port that qualifies, or 1.5 s without a
PPS edge. -/
def State.holdover (s : State) (d : Nat) : State :=
  let m := s.dom d
  let lost := if s.gmEn d then match m.gm.edges.head? with
      | some e => decide (s.now ≥ e.fine + 76800000 * 8192)
      | none => true
    else (s.chooseUp d).isNone && decide (s.tb.lastBoundary ≥ max m.lastCell m.lastOther + 16)
  if s.domState d != 2 || !s.servoRuns || !lost then s
  else
    let b0 := (4000 + m.lastError.natAbs) * 1000
    let s := s.onDom d fun x => { x with hold := some ⟨s.now, b0, b0⟩, avgs := [], reacquire := false }
    let s := (s.setFreeze d none).setFld (TB_DOM_STAT d) TB_DOM_STAT_UPSTREAM 15
    (s.setDom d 3 2).refreshDom d

/-- The meaning of HOLDOVER_ENTRY. -/
def execHoldoverEntry (t : Nat) (d : Fin 2) (s : State) : Host.Outcome State Fault Refusal := event t (State.holdover · d) s

/-- A port is marked ASYM_UNKNOWN, or the mark is cleared (R161, R162): ASYM_STATE. -/
def State.markAsym (s : State) (p on_ : Nat) : State :=
  if s.fld (TB_PORT_FLAGS p) TB_PORT_FLAGS_ASYM_UNKNOWN = on_ then s
  else
    let s := (s.setFld (TB_PORT_FLAGS p) TB_PORT_FLAGS_ASYM_UNKNOWN on_).issue 0x4004 [p, on_, item (s.asym p)]
    let s := if on_ = 0 then [0, 1].foldl (fun s d => s.onDom d fun m => if m.avoid = some p then { m with avoid := none } else m) s else s
    [0, 1].foldl (fun s d => if s.upstream d = p then s.refreshDom d else s) s

/-- A path step of `delta` ps on port `p` (R161, Table 05-4). The hub measures mean delays with the served domain's map; a port that
offers the domain only at a worse quality is no other upstream. Offsets averaged before it re-estimate nothing (R162).
(DEDUCED, log entry 46). -/
def State.pathStep (s : State) (p : Nat) (delta : Int) : State :=
  let s := ((s.setBit (TB_PORT_FLAGS p) TB_PORT_FLAGS_PATH_STEP_SEEN 0).bump (TB_PORT_FLAGS p) TB_PORT_FLAGS_STEP_COUNT).issue
    0x4003 [p, s.tb.served, item delta]
  let s := s.onPtime p fun x => { x with last := [] }
  [0, 1].foldl (fun s d =>
    if s.upstream d ≠ p ∨ !s.servoRuns then s
    else
      let mine := ((s.offer p d).map Offer.tq).getD 3
      let other := (List.range 8).any fun q => q != p && s.qualifies d q && decide (((s.offer q d).map Offer.tq).getD 3 ≤ mine)
      let s := if other then ((s.setFreeze d (some none)).onDom d fun m => { m with avoid := some p }).refreshUp d
        else s.setFreeze d (some (some (s.now + fineMs 10000)))
      s.markAsym p 1) s

/-- An average of a second in ps. (DEDUCED, log entry 28). -/
def avgPs (sum : Int) (n : Nat) : Int := roundQ ((sum : Rat) * 1000000000000 / ((n : Rat) * 2 ^ 80))

/-- A domain in HOLDOVER has found a source, `o` ps off (R165): it returns to TRACK and removes the offset by rate, at TQ1 until that is
within 1 ns, or beyond 1 us acquires anew where STEP_REACQ is set. -/
def State.returnTrack (s : State) (d : Nat) (o : Int) : State :=
  if o.natAbs > 1000000 && s.on (TB_DOM_CFG d) TB_DOM_CFG_STEP_REACQ then
    let s := s.acquire d
    if s.gmEn d then s.setFld (TB_DOM_STAT d) TB_DOM_STAT_UPSTREAM 8 else s
  else (s.onDom d fun x => { x with reacquire := decide (o.natAbs > 1000), home := s.incr d, lastError := o }).track d

/-- What the servo of domain `d` does with the average offset of a second of its upstream, in ps and in 2^-80 s (R161 to R165). (DESIGN CHOICE, log entry 47).-/
def State.servoSecond (s : State) (d : Nat) (o o80 : Int) : State :=
  let prev := (s.dom d).avgs.head?
  let s := s.onDom d fun x => { x with avgs := (o :: x.avgs).take 4, lastError := o, reacquire := x.reacquire && decide (o.natAbs > 1000) }
  let m := s.dom d
  let agree := match prev with
    | some q => decide ((o - q).natAbs ≤ 200)
    | none => false
  let s := if m.freeze == some none && agree then s.setFreeze d none else s
  match s.domState d with
  | 1 => match m.stage with
    | 0 => s.onDom d fun x => { x with stage := 1, avgs := [], stepReq := some (-o80, 0) }
    | 1 => s.onDom d fun x => { x with stage := 2 }
    | 2 =>
      let slope := o - prev.getD 0
      if m.freeze.isSome then s
      else (s.commitIncr d ((s.incr d : Int) * 1000000000000 / (1000000000000 + slope)).toNat).onDom d fun x => { x with stage := 3, agree := 0 }
    | _ =>
      let n := if o.natAbs ≤ 5000 then m.agree + 1 else 0
      let s := s.onDom d fun x => { x with agree := n }
      if n ≥ 4 then s.track d else s
  | 3 => s.returnTrack d o
  | 2 => s.refreshDom d
  | _ => s

/-- R162: on a ring hub, a port marked ASYM_UNKNOWN takes half the difference of the offsets from both directions, averaged over
4 s, into ASYM: those of the served domain where it comes from both. (DEDUCED, log entry 46). -/
def State.reestimate (s : State) (p : Nat) : State :=
  let other := if s.role p = rRingE then s.portOf rRingW else if s.role p = rRingW then s.portOf rRingE else none
  match other with
  | none => s
  | some q =>
    let d := s.tb.served
    let pick := fun (e : Int × Int) => if d = 0 then e.1 else e.2
    let a := ((s.ptime p).last.map pick)
    let b := ((s.ptime q).last.map pick)
    let live := fun x => s.portUp x && match s.offer x d with
      | some o => o.valid && decide (s.tb.lastBoundary < o.at_ + 16)
      | none => false
    if !s.on (TB_PORT_FLAGS p) TB_PORT_FLAGS_ASYM_UNKNOWN || !live p || !live q || a.length != 4 || b.length != 4 then s
    else
      let x := roundQ (((sumI a - sumI b : Int) : Rat) / 8)
      (s.wr (TB_PORT_ASYM p) (word (unsigned 32 (s.asym p + x)))).markAsym p 0

/-- The averages of the second just ended, number `f`, of port `p` are published and used (R157, R161, R164).
(DESIGN CHOICE, log entry 47). -/
def State.portSecond (s : State) (f p : Nat) : State :=
  let x := s.ptime p
  let y := if s.tb.served = 0 then x.sumsA else x.sumsB
  if x.sumsA.n = 0 ∧ x.sumsB.n = 0 then (s.setFld (TB_PORT_FLAGS p) TB_PORT_FLAGS_EXCHANGING 0).onPtime p fun y => { y with last := [] }
  else
    let mean := avgPs y.mean y.n
    let oA := avgPs x.sumsA.off x.sumsA.n
    let oB := avgPs x.sumsB.off x.sumsB.n
    let whole := match x.began with
      | some b => decide (b < f)
      | none => false
    let s := if y.n = 0 then s else s.wr (TB_PORT_DELAY p) (word (unsigned 32 mean))
    let s := if x.sumsA.n = 0 then s else s.wr (TB_PORT_OFFSET p 0) (word (unsigned 32 (satI 32 oA)))
    let s := if x.sumsB.n = 0 then s else s.wr (TB_PORT_OFFSET p 1) (word (unsigned 32 (satI 32 oB)))
    let ref := whole && decide (x.refFrom ≤ f) && y.n != 0
    let s := s.onPtime p fun z =>
      { z with sumsA := {}, sumsB := {}, ref := if ref then some mean else z.ref,
               last := if whole && y.n != 0 then ((oA, oB) :: z.last).take 4 else [] }
    let s := match x.ref with
      | some r => if ref && decide ((mean - r).natAbs > 200) then s.pathStep p (mean - r) else s
      | none => s
    [0, 1].foldl (fun s d =>
      let z := if d = 0 then x.sumsA else x.sumsB
      if s.servoRuns && !s.gmEn d && s.upstream d == p && whole && z.n != 0 && decide ((s.dom d).upSecond < f) then
        s.servoSecond d (if d = 0 then oA else oB) (z.off / z.n)
      else s) s

/-- REFCLK_IN over the second just ended: `span` is the fine counts of its 10,000,000 periods, none where an edge was missing; in TRACK
their duration is learned (R168). (DESIGN CHOICE, log entry 47). -/
def State.refSecond (s : State) (span : Option Nat) : State :=
  let was := s.on TB_STATUS TB_STATUS_REF_OK
  let en := s.on TB_REF TB_REF_REF_EN
  let err : Int := match span with
    | some n => roundQ (((2 ^ 80 * 8192 : Nat) : Rat) * 1000000000000 / ((max 1 (n * s.incr s.tb.served) : Nat) : Rat) - 1000000000000)
    | none => 0
  let ok := en && span.isSome && decide (err.natAbs ≤ 5000000)
  let s := s.onTb fun t => { t with refSpan := if en then span else none }
  let s := [0, 1].foldl (fun s d => match span with
    | some n => if ok && s.domState d == 2 then s.onDom d fun x => { x with refLearn := some (n * s.incr d) } else s
    | none => s) s
  let s := if en && span.isSome then s.setFld TB_REF TB_REF_FREQ_ERR (unsigned 24 (satI 24 err)) else s
  let s := s.setFld TB_STATUS TB_STATUS_REF_OK (b2n ok)
  if was = ok then s else s.issue 0x4007 [b2n ok, item (signed 24 (s.fld TB_REF TB_REF_FREQ_ERR))]

/-- The crystal model learns while a domain is in TRACK (R166). -/
def State.learn (s : State) : State :=
  if s.servoRuns && (s.domState 0 == 2 || s.domState 1 == 2) then
    let c := s.cavity
    s.onTb fun t => { t with learned := t.learned + 1, temps := match t.temps with
      | some (lo, hi) => some (min lo c, max hi c)
      | none => some (c, c) }
  else s

/-- CMP_RATIO of the second just ended (10_compression.md); a second in which nothing was compressed leaves it as it is.
(DEDUCED, log entry 58). -/
def State.ratioSecond (s : State) : State :=
  let c := s.cmp
  let s := if c.bytesOut = 0 then s else s.setFld CMP_RATIO CMP_RATIO_RATIO (satN 16 (roundFree (256 * c.bytesIn) c.bytesOut))
  s.onCmp fun x => { x with bytesIn := 0, bytesOut := 0 }

/-- CRYSTAL_SECOND: what was held back is issued (00_scope.md R541), and what is measured by the second is published (R157,
R166, R168). -/
def State.crystalSecond (s : State) (span : Option Nat) : State :=
  let k := s.second
  if k ≤ s.tb.lastSecond then s
  else
    let s := (s.onTb fun t => { t with lastSecond := k }).flushLimits.ratioSecond.refSecond span
    let s := (List.range 8).foldl (fun s p => if s.portUp p then s.portSecond (k - 1) p else s) s
    ((List.range 8).foldl (fun s p => s.reestimate p) s).learn

/-- The meaning of CRYSTAL_SECOND. -/
def execCrystalSecond (t : Nat) (span : Option Nat) (s : State) : Host.Outcome State Fault Refusal := event t (State.crystalSecond · span) s

end Sys2Proof.Machine
end

