-- ==== Sys2Proof/Machine/TimeCmds.lean ====
section
/-!
DEFINITION. Grandmaster acquisition (05_time_base.md R163, R165; 08_field_ports_and_outputs.md R258, R259), timed actions
(R169 to R172) and the commands of the time base (R173 to R178).
-/

namespace Sys2Proof.Machine

open Reg Bits

/-- PPS_DELAY of a domain, in ps. -/
def State.ppsDelay (s : State) (d : Nat) : Int := signed 32 (s.fld (TB_PPS_DELAY d) TB_PPS_DELAY_PPS_DELAY)

/-- Change the acquisition of a domain. -/
def State.onGm (s : State) (d : Nat) (f : GmState → GmState) : State := s.onDom d fun m => { m with gm := f m.gm }

/-- PPS_FAULT; outside TRACK and HOLDOVER acquisition restarts, and no edge so far is used again (Table 05-5 step 3).
(DEDUCED, log entry 44). -/
def State.ppsFault (s : State) (d reason : Nat) : State :=
  let s := s.issue 0x4008 [d, reason]
  if s.domState d ≥ 2 then s
  else s.onGm d fun g => { g with anchored := false, good := 0, edges := g.edges.map fun e => { e with live := false } }

/-- PPS_EDGE of domain `d` (R163): stamped on V0; it must come one second after the one before, and the edge before that must
have its label by now. (DEDUCED, log entry 44). -/
def State.ppsEdge (s : State) (d : Nat) (falling : Bool) : State :=
  if !s.gmEn d || s.on (TB_DOM_CFG d) TB_DOM_CFG_PPS_FALL != falling then s
  else
    let r := s.stampEdge (0x20 + d) falling s.now
    match r.1 with
    | none => r.2
    | some st =>
      let s := r.2
      if !s.servoRuns then s
      else
        let es := (s.dom d).gm.edges
        let s := s.onGm d fun g => { g with edges := (⟨st.fine, none, true⟩ :: g.edges).take 4 }
        let s := if s.domState d = 0 then (s.setFld (TB_DOM_STAT d) TB_DOM_STAT_UPSTREAM 8).setDom d 1 3 else s
        let late := match es with
          | p :: _ => p.live && decide ((((st.fine - p.fine : Nat) : Int) - (51200000 * 8192 : Nat)).natAbs > 10240 * 8192)
          | [] => false
        let unlabelled := match es with
          | _ :: q :: _ => q.live && q.label.isNone
          | _ => false
        let s := if unlabelled then
            (s.ppsFault d 2).onGm d fun g => { g with edges := g.edges.mapIdx fun i e => if i = 2 then { e with live := false } else e }
          else s
        if late then s.ppsFault d 1 else s

/-- The meaning of PPS_EDGE. -/
def execPpsEdge (t : Nat) (d : Fin 2) (falling : Bool) (s : State) : Host.Outcome State Fault Refusal := event t (State.ppsEdge · d falling) s

/-- The error of an edge with label `l`, in 2^-80 s: T_d(edge) - (label + PPS_DELAY), the pin delay of 1,850 ps removed
(Table 05-5 step 5; 06_interval_unit.md Table 06-2). -/
def State.edgeError (s : State) (d fine l : Nat) : Int := sdiff (s.domTime d fine) (l * 2 ^ 80) - ps80 1850 - ps80 (s.ppsDelay d)

/-- Step 4 of Table 05-5: the increment of the last two edges is committed, the anchor placed at the last, and GO set. -/
def State.anchorEdge (s : State) (d fine before l : Nat) : State :=
  let i := 2 ^ 80 * 8192 / (fine - before)
  let at_ := ((l * 2 ^ 80 : Nat) : Int) + ps80 (s.ppsDelay d) + ps80 1850 - (fine % 8192 * i / 8192 : Nat)
  let t := at_.toNat
  let s := (s.commitIncr d i).wr64 (TB_ANCHOR_XC d) (fine / 8192)
  let s := (s.wr64 (TB_ANCHOR_SEC d) (t / 2 ^ 80 % 2 ^ 48)).wr64 (TB_ANCHOR_FRAC d) (t % 2 ^ 80 / 2 ^ 32)
  (s.setFld (TB_ANCHOR_CTRL d) TB_ANCHOR_CTRL_GO 1).onGm d fun g => { g with anchored := true, good := 0 }

/-- The newest edge of domain `d` has got label `l` (Table 05-5 steps 3 to 6, R165). `old` are the edges before it.
(DEDUCED, log entry 44). -/
def State.labelled (s : State) (d fine l : Nat) (old : List PpsEdge) : State :=
  let ps := to_ps (s.edgeError d fine l)
  match s.domState d with
  | 1 =>
    if (s.dom d).gm.anchored then
      let n := if ps.natAbs ≤ 20000 then (s.dom d).gm.good + 1 else 0
      let s := (s.onGm d fun g => { g with good := n }).onDom d fun m => { m with lastError := ps }
      if n ≥ 8 then s.track d else s
    else match old with
      | p :: q :: _ => if p.live && q.live && p.label.isSome && q.label.isSome then s.anchorEdge d fine p.fine l else s
      | _ => s
  | 2 => (s.onDom d fun m => { m with lastError := ps, reacquire := m.reacquire && decide (ps.natAbs > 1000) }).refreshDom d
  | 3 => s.returnTrack d ps
  | _ => s

/-- What a time-of-day message says: label in TAI seconds, valid, degraded, TAI - UTC. -/
structure Tod where
  label : Nat
  valid : Bool
  degraded : Bool
  taiUtc : Int
  deriving DecidableEq, Repr

/-- Digits as a number. -/
def decDigits (bs : List Byte) : Option Nat :=
  if !bs.isEmpty && bs.all fun b => decide (0x30 ≤ b.toNat) && decide (b.toNat ≤ 0x39) then some (bs.foldl (fun n b => 10 * n + (b.toNat - 0x30)) 0)
  else none

/-- A hexadecimal digit. -/
def hexDigit (b : Byte) : Option Nat :=
  let n := b.toNat
  if 0x30 ≤ n ∧ n ≤ 0x39 then some (n - 0x30) else if 0x41 ≤ n ∧ n ≤ 0x46 then some (n - 0x37) else if 0x61 ≤ n ∧ n ≤ 0x66 then some (n - 0x57) else none

/-- The fields between commas. -/
def commaFields : List Byte → List Byte → List (List Byte)
  | acc, [] => [acc.reverse]
  | acc, b :: bs => if b = 0x2C#8 then acc.reverse :: commaFields [] bs else commaFields (b :: acc) bs

/-- The fields of a sentence whose checksum is right. -/
def nmeaFields (bs : List Byte) : Option (List (List Byte)) :=
  match bs with
  | b :: rest =>
    let body := rest.takeWhile fun x => x != 0x2A#8
    let sum := body.foldl (fun x y => x ^^^ y) 0#8
    match (rest.drop body.length) with
    | _ :: h :: l :: _ => match hexDigit h, hexDigit l with
      | some x, some y => if b = 0x24#8 ∧ 16 * x + y = sum.toNat then some (commaFields [] body) else none
      | _, _ => none
    | _ => none
  | [] => none

/-- Seconds of a day of a sentence's time; none with a fraction other than zero. -/
def nmeaTime (bs : List Byte) : Option Nat :=
  let frac := bs.drop 6
  if !(frac.isEmpty || (frac.head? == some 0x2E#8 && (frac.drop 1).all fun b => b == 0x30#8)) then none
  else match decDigits (bs.take 2), decDigits ((bs.drop 2).take 2), decDigits ((bs.drop 4).take 2) with
    | some h, some m, some x => some (3600 * h + 60 * m + x)
    | _, _, _ => none

/-- Days from 1970-01-01 to a date. -/
def civilDays (y m d : Nat) : Nat :=
  let y' := if m ≤ 2 then y - 1 else y
  let doy := (153 * ((m + 9) % 12) + 2) / 5 + d - 1
  y' / 400 * 146097 + y' % 400 * 365 + y' % 400 / 4 - y' % 400 / 100 + doy - 719468

/-- An NMEA sentence (08_field_ports_and_outputs.md R258): RMC or ZDA, by UTC and `off`. -/
def nmeaTod (off : Int) (bs : List Byte) : Option Tod :=
  match nmeaFields bs with
  | none => none
  | some fs =>
    let kind := ((fs.getD 0 []).drop 2).map BitVec.toNat
    let mk := fun days secs valid => (⟨(((86400 * days + secs : Nat) : Int) + off).toNat, valid, false, off⟩ : Tod)
    if (fs.getD 0 []).length ≠ 5 ∨ !((fs.getD 0 []).take 2).all (fun b => decide (0x41 ≤ b.toNat) && decide (b.toNat ≤ 0x5A)) then none
    else if kind = [0x52, 0x4D, 0x43] then
      let x := fs.getD 9 []
      match nmeaTime (fs.getD 1 []), decDigits (x.take 2), decDigits ((x.drop 2).take 2), decDigits (x.drop 4) with
      | some secs, some d, some m, some y => if x.length = 6 then some (mk (civilDays (2000 + y) m d) secs (fs.getD 2 [] != [0x56#8])) else none
      | _, _, _, _ => none
    else if kind = [0x5A, 0x44, 0x41] then
      match nmeaTime (fs.getD 1 []), decDigits (fs.getD 2 []), decDigits (fs.getD 3 []), decDigits (fs.getD 4 []) with
      | some secs, some d, some m, some y => some (mk (civilDays y m d) secs true)
      | _, _, _, _ => none
    else none

/-- A binary ToD frame (08_field_ports_and_outputs.md R259, Table 08-3). (DEDUCED, log entry 44). -/
def binaryTod (bs : List Byte) : Option Tod :=
  if bs.length ≠ 16 ∨ num bs 0 2 ≠ 0x7AC5 ∨ num bs 2 1 ≠ 1 ∨ num bs 14 2 ≠ crc16 (bs.take 14) then none
  else some ⟨num bs 4 6, bit (num bs 3 1) 0, bit (num bs 3 1) 1, signed 16 (num bs 10 2)⟩

/-- A message of domain `d` whose first character came at `start` labels the edge 50 to 950 ms before it (Table 05-5). -/
def State.todFor (s : State) (d : Nat) (m : Tod) (start : Nat) : State :=
  let es := (s.dom d).gm.edges
  let hit := fun (e : PpsEdge) => decide (e.fine + fineMs 50 ≤ start) && decide (start ≤ e.fine + fineMs 950)
  match es.find? hit with
  | none => if s.domState d ≥ 2 then s else s.ppsFault d 0
  | some e =>
    let old := (es.dropWhile fun x => x.fine != e.fine).drop 1
    let spoil := fun (s : State) => s.onGm d fun g => { g with edges := mapIf (fun x => x.fine == e.fine) (fun x => { x with live := false }) g.edges }
    if !e.live then s
    else match e.label with
      | some l => if l = m.label ∧ m.valid then s else spoil (s.ppsFault d 2)
      | none =>
        let follows := match old with
          | p :: _ => !p.live || p.label == some (m.label - 1)
          | [] => true
        if !m.valid || !follows then spoil (s.ppsFault d 2)
        else
          let s := (s.onGm d fun g => { g with degraded := m.degraded, edges := mapIf (fun x => x.fine == e.fine) (fun x => { x with label := some m.label }) g.edges }).onDom
            d fun x => { x with taiUtc := some m.taiUtc }
          s.labelled d e.fine m.label old

/-- TOD_MESSAGE on field port `n` (08_field_ports_and_outputs.md R258, R259). -/
def State.todMessage (s : State) (n : Nat) (bs : List Byte) (start : Nat) : State :=
  if s.fpMode n != 1 || !s.fldRuns || !s.servoRuns then s
  else [0, 1].foldl (fun s d =>
    if !s.gmEn d || s.fld (TB_DOM_CFG d) TB_DOM_CFG_TOD_PORT != n then s
    else
      let m := match s.fld (TB_DOM_CFG d) TB_DOM_CFG_TOD_FMT with
        | 1 => nmeaTod (signed 16 (s.fld (TB_DOM_CFG d) TB_DOM_CFG_UTC_OFFSET)) bs
        | 2 => binaryTod bs
        | _ => none
      match m with
      | some m => s.todFor d m start
      | none => s) s

/-- The meaning of TOD_MESSAGE. -/
def execTodMessage (t : Nat) (n : Fin 4) (bs : List Byte) (start : Nat) (s : State) : Host.Outcome State Fault Refusal :=
  event t (fun s => s.todMessage n bs start) s

/-- The fields of a timed-action entry. -/
def State.actFirst (s : State) (i : Nat) : Nat := s.fld (TB_ACT_CTRL i) TB_ACT_CTRL_FIRST
def State.actCount (s : State) (i : Nat) : Nat := s.fld (TB_ACT_CTRL i) TB_ACT_CTRL_COUNT
def State.actArg (s : State) (i : Nat) : Nat := (s.rd (TB_ACT_ARG i)).toNat
def State.actChans (s : State) (i : Nat) : List Nat := (List.range (s.actCount i)).map fun k => s.actFirst i + k

/-- A range of a timed action lies within `lim`. -/
def State.actRange (s : State) (i lim : Nat) : Option Nat := need (decide (1 ≤ s.actCount i) && decide (s.actFirst i + s.actCount i ≤ lim)) stBAD_PARAM

/-- The domain that a DOMAIN_SWAP forces, none for AUTO (Table 05-7). -/
def State.swapTo (s : State) (i : Nat) : Option Nat :=
  match s.actArg i % 4 with
  | 0 => some 0
  | 1 => some 1
  | 2 => some (1 - s.tb.served)
  | _ => none

/-- The chain word that RATE_CHANGE gives channel `c`, and the word of BURST_START's bay. -/
def State.rateWord (s : State) (i c : Nat) : Word := setBits (s.rd (DEC_CH_CFG c)) DEC_CH_CFG_RATE (s.actArg i % 256)
def State.burstMode (s : State) (b : Nat) : Word := setBits (s.rd (CONV_BAY_MODE b)) CONV_BAY_MODE_BMODE 2

/-- The checks that the equivalent command makes of an action (R171). (DEDUCED, log entry 49). -/
def State.actionChecks (s : State) (i : Nat) : List (Option Nat) :=
  match s.action i with
  | 1 =>
    let cs := s.actChans i
    [s.actRange i 592, need (cs.all fun c => s.fld (DEC_STREAM c) DEC_STREAM_REC_PERIOD != 0) stBAD_PARAM] ++ s.enableChecks cs (word (2 ^ DEC_STREAM_REC_PERIOD.lo))
  | 2 => [s.actRange i 592]
  | 3 =>
    let id := s.actArg i % 65536
    let e := s.eng (id / 4096)
    [need (e.issued.contains id) stBAD_PARAM, need (e.panes.any fun p => p.id == id && !p.opened) stBAD_STATE]
  | 4 =>
    let cs := s.actChans i
    let rate := fun c => if cs.contains c then s.actArg i % 256 else s.chRate c
    [s.actRange i 512, need (decide (s.actArg i % 256 < 128)) stBAD_PARAM, need (s.loadFits rate s.streaming s.acq.taps) stNO_RESOURCE]
      ++ cs.flatMap fun c => s.chainChecks c (s.rateWord i c)
  | 5 => s.injectChecks (s.actFirst i) (s.actCount i) (s.actArg i % 4096) (s.actArg i / 4096)
  | 6 => s.actRange i 64 :: (s.actChans i).flatMap fun b => s.bayChecks (s.actChans i) (s.burstMode b) (word (s.actArg i)) b
  | 7 => match s.swapTo i with
    | some d => [need (s.domTq d != 3) stBAD_STATE]
    | none => []
  | _ => []

/-- An action takes effect (Table 05-7, R170). (DEDUCED, log entry 49). -/
def State.doAction (s : State) (i : Nat) : State :=
  match s.action i with
  | 1 => ((s.actChans i).foldl (fun s c => s.enableStream c (s.rd (DEC_STREAM c))) s).showLoad
  | 2 => ((s.actChans i).foldl (fun s c => s.disableStream c) s).showLoad
  | 3 => s.openHeld (s.actArg i % 65536) ((s.act i).time * 2 ^ 40) 33
  | 4 => ((s.actChans i).foldl (fun x c => x.setChain c (s.rateWord i c)) s).showLoad
  | 5 =>
    s.doInject (s.actFirst i) (s.actCount i) (s.actArg i % 4096) (s.on (TB_ACT_CTRL i) TB_ACT_CTRL_P0) (s.on (TB_ACT_CTRL i) TB_ACT_CTRL_P1)
      (s.actArg i / 4096)
  | 6 => (s.actChans i).foldl (fun x b => x.setBay b (s.burstMode b) (word (s.actArg i))) s
  | 7 => s.setFld TB_CTRL TB_CTRL_SELECT (match s.swapTo i with
    | some d => d + 1
    | none => 0)
  | _ => s

/-- Does the present state support a timed action (01_architecture.md R36)? (DEDUCED, log entry 49). -/
def State.supportsAction (s : State) (a : Nat) : Bool := a == 7 || (s.sys.phase == .running && (s.power == 2 || s.power == 3))

/-- Has served time reached the time of armed entry `i` in the present clock, so that it launches in this clock unless a power-state
transition holds it (R169, R171; 01_architecture.md R36)? -/
def State.actDue (s : State) (i : Nat) : Bool :=
  s.armed i && decide (to40 (s.servedAt (s.now / clk * clk + clk - 1)) ≥ (s.act i).time)
    && (s.action i == 7 || !s.on SYS_PWR_STATE SYS_PWR_STATE_IN_TRANSITION)

/-- An entry that is due launches: it is disarmed and free, and TIMED_ACTION tells its outcome (R170 to R172). In a state that does not
support it it is discarded (01_architecture.md R36). -/
def State.launchOne (s : State) (i : Nat) : State :=
  let a := s.action i
  if !s.actDue i then s
  else
    let st := (s.act i).time % 2 ^ 64
    let late := (s.act i).late
    let free := fun (s : State) launched =>
      (s.setFld (TB_ACT_CTRL i) TB_ACT_CTRL_ARMED 0).onAct i fun x => { x with launched := launched, late := false }
    if !s.supportsAction a then (free s false).issue 0x4006 [i, a, st, 3, 0]
    else match firstFail (s.actionChecks i) with
      | some status => (free s true).issue 0x4006 [i, a, st, 2, status]
      | none => (free (s.doAction i) true).issue 0x4006 [i, a, st, b2n late, 0]

/-- TIMED_ACTION_LAUNCH of entry `i`, once served time has reached it: the entries of lower index due in the same clock launch before it
(R171). -/
def State.launch (s : State) (i : Nat) : State :=
  if s.armed i && decide (s.served40 ≥ (s.act i).time) then (List.range (i + 1)).foldl (fun s j => s.launchOne j) s else s

/-- The meaning of TIMED_ACTION_LAUNCH. -/
def execTimedActionLaunch (t : Nat) (i : Fin 32) (s : State) : Host.Outcome State Fault Refusal := event t (State.launch · i) s

/-- The launch of every entry that fell due, in index order (R171). -/
def State.launchDue (s : State) : State := (List.range 32).foldl (fun s i => s.launchOne i) s

/-- An armed entry is cancelled (R176). (DEDUCED, log entry 49). -/
def State.cancelEntry (s : State) (i : Nat) : State :=
  if s.armed i then (s.setFld (TB_ACT_CTRL i) TB_ACT_CTRL_ARMED 0).onAct i fun x => { x with launched := false, late := false } else s

/-- TIMED_ACTION_CANCEL: a write of 0 to ARMED. In the clock in which the entry launches it does not cancel it. -/
def State.cancelWrite (s : State) (i : Nat) : State := if s.actDue i then s else s.cancelEntry i

/-- The meaning of TIMED_ACTION_CANCEL. -/
def execTimedActionCancel (t : Nat) (i : Fin 32) (s : State) : Host.Outcome State Fault Refusal := event t (State.cancelWrite · i) s

/-- A write of a free entry's control word: stored, a reserved ACTION left as it was (00_scope.md R7); with ARMED set it arms
under R169, its ST64 naming the instant within the 2^24 s from now. -/
def State.armWriteEntry (s : State) (i : Nat) (w : Word) : State :=
  if s.armed i then s
  else
    let w := if wfld w TB_ACT_CTRL_ACTION ≥ 8 then setBits w TB_ACT_CTRL_ACTION (s.action i) else w
    let w := word (w.toNat &&& 0x8FCFFFFF)
    let now := s.served40
    let st := s.rd64 (TB_ACT_TIME i)
    let T := now - now % 2 ^ 64 + st + (if st < now % 2 ^ 64 then 2 ^ 64 else 0)
    if wfld w TB_ACT_CTRL_ARMED = 1 ∧ s.armTimeOk T ∧ s.tq ≠ 3 then s.armEntry i w (s.actArg i) T
    else s.wr (TB_ACT_CTRL i) (setBits w TB_ACT_CTRL_ARMED 0)

/-- The meaning of TIMED_ACTION_ARM. -/
def execTimedActionArm (t : Nat) (i : Fin 32) (w : Word) (s : State) : Host.Outcome State Fault Refusal :=
  event t (fun s => s.armWriteEntry i (setBits w TB_ACT_CTRL_ARMED 1)) s

/-- The shadows of a path. -/
def State.shadow (s : State) (p : Path) : Shadow :=
  match p with
  | .porter => s.cmd.shadowPorter
  | .command => s.cmd.shadowCommand
  | .spi => s.cmd.shadowSpi
def State.onShadow (s : State) (p : Path) (f : Shadow → Shadow) : State :=
  s.onCmd fun m => match p with
    | .porter => { m with shadowPorter := f m.shadowPorter }
    | .command => { m with shadowCommand := f m.shadowCommand }
    | .spi => { m with shadowSpi := f m.shadowSpi }

/-- The low word that a high-word write on a path completes, and the state with that path's shadow used up (12_command_packets.md
R398). -/
def State.takeLow (s : State) (p : Path) (a : Nat) : Word × State :=
  match (s.shadow p).write with
  | some (b, w) => if b = a then (w, s.onShadow p fun x => { x with write := none }) else (s.rd a, s)
  | none => (s.rd a, s)

/-- TB_INCR_COMMIT: a write of the high word of TB_INCR(d) commits it with the low word held (R147, R148). -/
def State.incrWrite (s : State) (p : Path) (d : Nat) (hi : Word) : State :=
  let r := s.takeLow p (TB_INCR d)
  r.2.commitIncr d (hi.toNat * 2 ^ 32 + r.1.toNat)

/-- The meaning of TB_INCR_COMMIT. -/
def execTbIncrCommit (t : Nat) (path : Path) (d : Fin 2) (hi : Word) (s : State) : Host.Outcome State Fault Refusal :=
  event t (fun s => s.incrWrite path d hi) s

/-- ANCHOR_GO: GO is accepted in ACQUIRE or while a step asked for by TIME_DOMAIN_CONFIG is pending, else counted (R150). -/
def State.anchorGo (s : State) (d : Nat) : State :=
  if s.domState d = 1 ∨ (s.dom d).stepReq.isSome then s.setFld (TB_ANCHOR_CTRL d) TB_ANCHOR_CTRL_GO 1
  else s.bump (TB_ANCHOR_CTRL d) TB_ANCHOR_CTRL_REFUSED_COUNT

/-- The meaning of ANCHOR_GO. -/
def execAnchorGo (t : Nat) (d : Fin 2) (s : State) : Host.Outcome State Fault Refusal := event t (State.anchorGo · d) s

/-- TIME_READ (0x4001), R173. -/
def bodyTimeRead : Body := fun _ _ s =>
  let flags := s.tb.served + 2 * s.tq + 8 * s.domTq 0 + 32 * s.domTq 1 + 128 * b2n (s.tb.d != 0)
  .reply s stOK (le 12 (ft96 s.served) ++ le 12 (ft96 (s.domTime 0 s.now)) ++ le 12 (ft96 (s.domTime 1 s.now)) ++ le 8 s.xc ++ le 1 flags ++ le 1 0
    ++ leI 2 (s.taiUtc s.tb.served))

/-- The meaning of TIME_READ. -/
def execTimeRead (t : Nat) (p : Packet) (s : State) : Host.Outcome State Fault Refusal := command 0x4001 bodyTimeRead t p s

/-- A domain takes its configuration word: a change of GM_EN changes its source (Table 05-2). (DEDUCED, log entry 44). -/
def State.setDomCfg (s : State) (d : Nat) (w : Word) : State :=
  let was := s.gmEn d
  let s := s.wr (TB_DOM_CFG d) w
  if was = s.gmEn d ∨ !s.servoRuns then s
  else
    let s := s.onGm d fun _ => {}
    if s.gmEn d then if s.domState d = 0 then s else (s.setFld (TB_DOM_STAT d) TB_DOM_STAT_UPSTREAM 8).acquire d
    else if s.domState d = 0 then s.refreshUp d
    else (s.domOff d).refreshUp d

/-- TIME_DOMAIN_CONFIG (0x4002), R174. -/
def bodyTimeDomainConfig : Body := fun _ ps s =>
  let d := num ps 0 1
  let w := word (num ps 4 4)
  let f := num ps 12 1
  let st := s.domState d
  checked s
    [need (d < 2 && zeroAt ps 1 3 && f < 4 && zeroAt ps 13 3 && wfld w TB_DOM_CFG_TOD_FMT != 3 && wfld w TB_DOM_CFG_HOLD_LIMIT != 0
        && !bit w.toNat 24) stBAD_PARAM,
     need (!bit f 0 || st == 2 || st == 3) stBAD_STATE]
    (let s := (s.setDomCfg d w).wr (TB_PPS_DELAY d) (word (num ps 8 4))
     let s := if bit f 0 then s.onDom d fun m => { m with stepReq := some (signed 64 (num ps 16 8) * (2 ^ 40 : Nat), 1) } else s
     let s := if !bit f 1 || !s.servoRuns then s
       else if s.gmEn d then (s.setFld (TB_DOM_STAT d) TB_DOM_STAT_UPSTREAM 8).acquire d
       else s.acquire d
     ok s)

/-- The meaning of TIME_DOMAIN_CONFIG. -/
def execTimeDomainConfig (t : Nat) (p : Packet) (s : State) : Host.Outcome State Fault Refusal := command 0x4002 bodyTimeDomainConfig t p s

/-- TIME_SELECT_DOMAIN (0x4003), R175. -/
def bodyTimeSelectDomain : Body := fun _ ps s =>
  let x := num ps 0 1
  checked s [need (x ≤ 2 && num ps 1 1 < 2 && zeroAt ps 2 2) stBAD_PARAM, need (x == 0 || s.domTq (x - 1) != 3) stBAD_STATE]
    (ok ((s.setFld TB_CTRL TB_CTRL_SELECT x).setFld TB_CTRL TB_CTRL_PREFER_B (num ps 1 1)))

/-- The meaning of TIME_SELECT_DOMAIN. -/
def execTimeSelectDomain (t : Nat) (p : Packet) (s : State) : Host.Outcome State Fault Refusal := command 0x4003 bodyTimeSelectDomain t p s

/-- TIME_SCHEDULE (0x4004), R169, R176. (DEDUCED, log entry 49). -/
def bodyTimeSchedule : Body := fun _ ps s =>
  let op := num ps 0 1
  let idx := num ps 1 1
  let w := num ps 4 4
  let a := bits w 24 4
  let arg := num ps 8 4
  let T := num ps 12 12 / 256
  let base := [need (op ≤ 2 && zeroAt ps 2 2) stBAD_PARAM]
  match op with
  | 0 =>
    let i := if idx = 255 then s.freeAction.getD 0 else idx
    checked s
      (base ++ [need (idx < 32 || idx == 255) stBAD_PARAM, need (decide (a < 8) && bits w 28 3 == 0 && bits w 20 2 == 0) stBAD_PARAM,
                need (!((a == 1 || a == 2) && arg != 0) && !((a == 3 || a == 7) && bits w 0 20 != 0)) stBAD_PARAM,
                need (s.armTimeOk T) stBAD_PARAM, need (s.tq != 3) stBAD_STATE, need (idx == 255 || !s.armed idx) stBUSY,
                need (idx != 255 || s.freeAction.isSome) stNO_RESOURCE])
      (.reply (s.armEntry i (word w) arg T) stOK (le 4 i))
  | 1 =>
    checked s (base ++ [need (idx < 32) stBAD_PARAM])
      (if s.actDue idx || (!s.armed idx && (s.act idx).launched) then .reply s stDONE_BEFORE_ABORT (le 4 idx)
       else .reply (s.cancelEntry idx) stOK (le 4 idx))
  | _ => checked s base (.reply ((List.range 32).foldl (fun s i => s.cancelWrite i) s) stOK (le 4 idx))

/-- The meaning of TIME_SCHEDULE. -/
def execTimeSchedule (t : Nat) (p : Packet) (s : State) : Host.Outcome State Fault Refusal := command 0x4004 bodyTimeSchedule t p s

/-- TIME_ASYMMETRY_SET (0x4005), R177. -/
def bodyTimeAsymmetrySet : Body := fun _ ps s =>
  let p := num ps 0 1
  let x := signed 32 (num ps 4 4)
  checked s [need (p < 8 && zeroAt ps 1 3 && decide (x.natAbs ≤ 1000000)) stBAD_PARAM]
    (ok ((s.wrNvm (TB_PORT_ASYM p) (word (num ps 4 4))).markAsym p 0))

/-- The meaning of TIME_ASYMMETRY_SET. -/
def execTimeAsymmetrySet (t : Nat) (p : Packet) (s : State) : Host.Outcome State Fault Refusal := command 0x4005 bodyTimeAsymmetrySet t p s

/-- TB_PORT_FLAGS as it reads: LEGACY follows the port's mode. -/
def State.portFlags (s : State) (p : Nat) : Word := setBits (s.rd (TB_PORT_FLAGS p)) TB_PORT_FLAGS_LEGACY (b2n (s.legacyPort p))

/-- The holdover bound of a domain in ns, 0 outside HOLDOVER (R178). -/
def State.boundNs (s : State) (d : Nat) : Nat :=
  match (s.dom d).hold with
  | some h => if s.domState d = 3 then satN 32 (roundFree h.bound 1000000) else 0
  | none => 0

/-- TIME_STATUS (0x4006), R178. -/
def bodyTimeStatus : Body := fun _ _ s =>
  let ports := (List.range 8).flatMap fun p =>
    le 4 (s.rd (TB_PORT_DELAY p)).toNat ++ le 4 (s.rd (TB_PORT_ASYM p)).toNat ++ le 4 (s.rd (TB_PORT_OFFSET p 0)).toNat
      ++ le 4 (s.rd (TB_PORT_OFFSET p 1)).toNat ++ le 4 (s.portFlags p).toNat
  .reply s stOK (le 4 s.tbStatus.toNat ++ le 4 (s.rd (TB_DOM_STAT 0)).toNat ++ le 4 (s.rd (TB_DOM_STAT 1)).toNat
    ++ leI 4 (satI 32 (to_ps s.tb.d)) ++ le 4 (s.boundNs 0) ++ le 4 (s.boundNs 1) ++ le 1 (b2n s.modelValid) ++ le 3 0 ++ ports)

/-- The meaning of TIME_STATUS. -/
def execTimeStatus (t : Nat) (p : Packet) (s : State) : Host.Outcome State Fault Refusal := command 0x4006 bodyTimeStatus t p s

end Sys2Proof.Machine
end

