-- ==== Sys2Proof/Machine/Store.lean ====
section
/-!
DEFINITION. What boot loads: NVM register words and the hub address (01_architecture.md R18, R20), the configuration store
(15_porter_management.md R461), the calibration records (16_calibration.md R499).
-/

namespace Sys2Proof.Machine

open Reg Bits

/-- The bits of a register word that hold configuration: its RW and RWL fields (00_scope.md Table 00-4).
(DEDUCED, log entry 43). -/
def cfgMask (a : Nat) : Nat :=
  match findReg a with
  | none => 0
  | some (d, _, w) =>
    (d.fields.filter fun f => f.acc == .rw || f.acc == .rwl).foldl (fun m f => m ||| (2 ^ f.width - 1) * 2 ^ f.lo) 0 / 2 ^ (32 * w) % 2 ^ 32

/-- Are the words of a register kept in NVM by its own rule, apart from the configuration store: head and witness roles
(13_head_redundancy.md R431), calibration policy (16_calibration.md R503), asymmetry (05_time_base.md R177), DRAM layout and
rate (14_memory_and_ecc.md R438, R441), black-box blocks (15_porter_management.md R472)? (DEDUCED, log entry 43). -/
def nvmWord (a : Nat) : Bool :=
  a == SYS_BB_CFG || a == CAL_POLICY || a == CAL_PERIOD || a == MEM_LAYOUT || a == MEM_DRAM_CFG || a == RED_CFG || a == RED_PARTNER || a == RED_WITNESS
    || (List.range 4).any (fun k => a == RED_WIT_CFG k) || (List.range 8).any (fun p => a == TB_PORT_ASYM p)

/-- Do the words of a register belong to the applied configuration (R461)? Not those NVM keeps apart, the hub address, the
calibrated trims, what the servo and timed actions write, DIRECT_WR, and event sources that a trigger or a gate claims.
(DEDUCED, log entry 32). -/
def State.inStore (s : State) (a : Nat) : Bool :=
  let src := a - TIU_SRC_CFG 0
  !(nvmWord a || a == SYS_HUB_ADDR || a == CMD_SPI_CTRL || (decide (CONV_TRIM 0 ≤ a) && decide (a ≤ CONV_TRIM 511))
    || [TB_INCR 0, TB_ANCHOR_XC 0, TB_ANCHOR_SEC 0, TB_ANCHOR_FRAC 0, TB_INCR 1, TB_ANCHOR_XC 1, TB_ANCHOR_SEC 1, TB_ANCHOR_FRAC 1].any
        (fun b => a == b || a == b + 4)
    || (decide (TB_ACT_CTRL 0 ≤ a) && decide (a < TB_ACT_CTRL 32))
    || (decide (TIU_SRC_CFG 0 ≤ a) && decide (a < TIU_SRC_CFG 64) && decide (s.srcUser (src / 4) ≥ 2)))

/-- The mask of the applied configuration in a word: the stream enables besides, and not PHASE_TRIM. -/
def storeMask (a : Nat) : Nat :=
  if DEC_STREAM 0 ≤ a ∧ a ≤ DEC_STREAM 591 then 0xFFFFFFFF
  else if DEC_BAY_CFG 0 ≤ a ∧ a ≤ DEC_BAY_CFG 63 then cfgMask a % 2 ^ 20
  else cfgMask a

/-- The applied configuration: every word of it that differs from its reset value (R461). (DEDUCED, log entry 43). -/
def State.config (s : State) : Tab Word :=
  s.regs.filterMap fun e =>
    let m := storeMask e.1
    let w := e.2.toNat &&& m
    if s.inStore e.1 && w != (resetWord e.1).toNat &&& m then some (e.1, word w) else none

/-- The copy of the configuration store in use at load (R461): the valid one, of two the one with the higher generation. -/
def Nvm.store (n : Nvm) : Option CfgCopy :=
  if n.cfg0.valid && !n.cfg0.erased then
    if n.cfg1.valid && !n.cfg1.erased && decide (n.cfg1.generation > n.cfg0.generation) then some n.cfg1 else some n.cfg0
  else if n.cfg1.valid && !n.cfg1.erased then some n.cfg1
  else none

/-- Are both copies written and neither valid (R463)? (DEDUCED, log entry 37). -/
def Nvm.storeBroken (n : Nvm) : Bool := !n.cfg0.erased && !n.cfg1.erased && n.store.isNone

/-- A word of the store goes to its register. (DEDUCED, log entry 43). -/
def State.putConfig (s : State) (e : Nat × Word) : State :=
  let m := storeMask e.1
  s.wr e.1 (word (((s.rd e.1).toNat &&& (0xFFFFFFFF ^^^ m)) ||| (e.2.toNat &&& m)))

/-- The default of LNK_PORT_CFG (01_architecture.md R21, Table 01-5): P0 to P3 take their roles at NATIVE, four lanes, SFF-8636,
PRESET 0; P4 to P7 are OFF. -/
def portDefault (p : Nat) : Word :=
  let w := resetWord (LNK_PORT_CFG p)
  if p < 4 then setBits (setBits (setBits w LNK_PORT_CFG_ROLE (p + 1)) LNK_PORT_CFG_WIDTH 2) LNK_PORT_CFG_MODULE 1 else w

/-- The ports take their configuration: the store's, or the default where it holds none; their cells are allocated. -/
def State.loadPorts (s : State) (words : Tab Word) : State :=
  (List.range 8).foldl (fun s p =>
    let s := s.wr (LNK_PORT_CFG p) (portDefault p)
    let s := (words.filter fun e => e.1 == LNK_PORT_CFG p || e.1 == LNK_PORT_CREDIT p).foldl State.putConfig s
    s.onQm fun m => { m with replayCells := Tab.set 0 m.replayCells p (s.portCells p) }) s

/-- The state that follows from the configuration words: scan settings and ranges in use, excitation, history, claims of trigger
units, armed engines, field ports and outputs, dumps, the partition of the history area. The transom's active table is copied by a
COMMIT and a start alone (03_conversion.md R105). (DEDUCED, log entry 31). -/
def State.applyWords (s : State) : State :=
  let s := (List.range 64).foldl (fun s b =>
    let s := s.setFld (CONV_BAY_STAT b) CONV_BAY_STAT_SCAN_NOW (s.fld (CONV_BAY_MODE b) CONV_BAY_MODE_SCAN)
    if s.fld (AFE_BAY_EXC b) AFE_BAY_EXC_EMODE = 0 then s else s.excStart b s.now) s
  let s := (List.range 512).foldl (fun s c =>
    if s.chMode c = 0 then s
    else (s.setFld (AFE_CH_STAT c) AFE_CH_STAT_RANGE_NOW (s.fld (AFE_CH_CFG c) AFE_CH_CFG_RANGE)).onCh c fun h => { h with scale := scaleOf (s.rd (AFE_CH_CFG c)) }) s
  let s := (List.range 32).foldl (fun s u =>
    if s.on (CAP_TRIG_CFG u) CAP_TRIG_CFG_EN then
      s.setTrigger u (s.rd (CAP_TRIG_CFG u)) (s.fld (CAP_TRIG_LINTEL u) CAP_TRIG_LINTEL_LINTEL) (s.fld (CAP_TRIG_SILL u) CAP_TRIG_SILL_SILL)
        (s.fld (CAP_TRIG_PARAM u) CAP_TRIG_PARAM_PARAM)
    else s) s
  let s := (List.range 4).foldl (fun s n => if s.fpMode n = 0 then s else s.setupPort n) s
  let s := s.setDump (s.rd PMC_DUMP)
  let s := if (List.range 64).any s.histEn then s.askRepart else s
  (s.onTransom fun x => { x with lastPeriodAt := s.served }).showLoad

/-- The configuration of the store is applied (R461, step 7 of Table 15-3). -/
def State.loadConfig (s : State) : State :=
  let words := match s.nvm.store with
    | some c => c.words
    | none => []
  ((words.foldl State.putConfig s).loadPorts words).applyWords

/-- What starts once the power state is entered: bays, engines that were armed, trip outputs. -/
def State.startApplied (s : State) : State :=
  let s := (List.range 64).foldl (fun s b => s.startBay b (s.strobeFrom b s.now)) s
  let s := (List.range 16).foldl (fun s e =>
    if s.engArmed e then (s.setFld (CAP_ENG_CFG e) CAP_ENG_CFG_ARM 0).armWrite e true else s) s
  (List.range 16).foldl (fun s o => if s.on (FLD_TRIP_CFG o) FLD_TRIP_CFG_EN then s.setupTrip o 4 else s) s

/-- CONFIG_STORE_WRITE: Porter writes the older copy with the next generation where the applied configuration differs from what
the store holds (R461). -/
def State.storeConfig (s : State) : State :=
  let n := s.nvm
  let now := s.config
  let old := (n.store.map CfgCopy.words).getD []
  if s.sys.phase != .running || s.sys.reloading || s.memFailed 3 || now == old then s
  else
    let gen := ((n.store.map CfgCopy.generation).getD 0) + 1
    let new : CfgCopy := ⟨false, true, gen, now⟩
    if n.store == some n.cfg0 then s.onNvm fun m => { m with cfg1 := new } else s.onNvm fun m => { m with cfg0 := new }

/-- The meaning of CONFIG_STORE_WRITE. -/
def execConfigStoreWrite (t : Nat) (s : State) : Host.Outcome State Fault Refusal := event t State.storeConfig s

/-- The record of a group that boot takes: of its own slot and the staging slot the valid one with the higher generation, in
16-bit serial arithmetic (R499). -/
def Nvm.calRecord (n : Nvm) (g : Nat) : Option CalRec :=
  let own := (n.calStore.find? fun e => e.1 == g).bind fun e => if e.2.valid then some e.2 else none
  let stag := n.calStaging.bind fun e => if e.1 = g ∧ e.2.valid then some e.2 else none
  match own, stag with
  | some a, some b => if newer b.generation a.generation then some b else some a
  | some a, none => some a
  | none, b => b

/-- The calibration records are loaded: a group without a valid record runs on design defaults and is reported (R499). -/
def State.loadCal (s : State) : State :=
  (List.range 29).foldl (fun s g =>
    let it := calItem g
    match if s.memFailed 3 then none else s.nvm.calRecord g with
    | some r =>
      let s := s.onCal fun c => { c with values := Tab.insert c.values g r }
      let s := ((s.setFld (CAL_GRP_STAT g) CAL_GRP_STAT_TEMP (unsigned 16 r.temp)).setFld (CAL_GRP_STAT g) CAL_GRP_STAT_VALID 1)
      ((s.setFld (CAL_GRP_QUAL g) CAL_GRP_QUAL_QUALITY r.quality).setFld (CAL_GRP_QUAL g) CAL_GRP_QUAL_GENERATION r.generation).loadTrims g
    | none => ((s.setBit CAL_STAT CAL_STAT_RECORD_BAD it.1).issue 0xF003 [it.1, it.2]).loadTrims g) s

/-- The groups that boot found no record of are queued at BOOT_OK: CONV, VERNIER, EXC and TRANSOM (R499). -/
def State.queueBadCal (s : State) : State :=
  (List.range 29).foldl (fun s g =>
    if !(s.calRec g).valid && ((calItem g).1 == 1 || (calItem g).1 == 2 || (calItem g).1 == 4 || (calItem g).1 == 5) then s.queueCal g else s) s

end Sys2Proof.Machine
end

