-- ==== Sys2Proof/Machine/Boot.lean ====
section
/-!
DEFINITION. Hub resets, boot, failed starts, MINIMAL, Porter restarts and PFW_N (00_scope.md R5; 01_architecture.md R18 to R37; 02_front_end.md R38;
12_command_packets.md R387; 14_memory_and_ecc.md R438 to R450; 15_porter_management.md R457 to R473; 18_electrical_and_package.md R521 to
R525).
-/

namespace Sys2Proof.Machine

open Reg Bits

/-- The registers right after a hub reset: reset values, and what NVM holds of them (R5, R18, R375). -/
def resetRegs (n : Nvm) (cause : Nat) : Tab Word :=
  let put := fun (t : Tab Word) (e : Nat × Word) => Tab.set (resetWord e.1) t e.1 e.2
  let addr := match n.hubAddr with
    | some a => 2 ^ 31 + a * 2 ^ 16 + a
    | none => 0
  let t := n.words.foldl put []
  let t := put (put t (SYS_HUB_ADDR, word addr)) (SYS_RESET_CAUSE, word cause)
  (n.creds.zipIdx).foldl (fun t c => if c.1.valid then put t (CMD_SLOT_CTR c.2, word c.1.ceiling) else t) t

/-- The ST64 of the oldest held record, 0 where none is held (R288). -/
def State.oldestHeld (s : State) : Nat :=
  match s.qm.recs with
  | [] => 0
  | r :: rest => (rest.foldl (fun (b : Rec) x => if x.closedAt < b.closedAt then x else b) r).st

/-- The address that a write to NEXT_ADDR has stored by now, 10 ms after the write (01_architecture.md R20). -/
def State.storedAddr (s : State) : Option Nat :=
  match s.nvm.nextAddr with
  | some a => if s.now ≥ s.nvm.nextAddrAt + fineMs 10 then some a else s.nvm.hubAddr
  | none => s.nvm.hubAddr

/-- A hub reset (R5, R20, R288, R375): every register, buffer, queue and session starts again; NVM, flash, the commands that wait
and the pins stand; XC counts from 0; boot begins, and waits at step 1 while PFW_N is low (R523).
(DEDUCED, log entries 36 and 37). -/
def State.hubReset (s : State) (cause : Nat) : State :=
  let lost := if s.nvm.heldAtReset = 0 ∧ cause ≠ 0 then (s.qm.recs.length, s.oldestHeld) else (s.nvm.heldAtReset, s.nvm.heldOldest)
  let n := { s.nvm with hubAddr := s.storedAddr, nextAddr := none, heldAtReset := lost.1, heldOldest := lost.2 }
  { State.reset with
    pending := s.pending, nvm := n, regs := resetRegs n cause, bufs := { flash := s.bufs.flash }, free := s.free,
    sys := { phase := if s.sys.pfwNLow then .waitPfw else .fill, pfwNLow := s.sys.pfwNLow, jtag := s.sys.jtag, conOut := .bootStep 1 :: (if s.sys.pfwNLow then [] else [.bootStep 2]) } }

/-- POWER_ON: every supply is valid in the order of R521 and RESET_N has risen (Table 15-3 step 1). The JTAG port starts too. -/
def State.powerOn (s : State) : State := (s.hubReset 0).onSys fun y => { y with jtag := none }

/-- The meaning of POWER_ON. -/
def execPowerOn (t : Nat) (s : State) : Host.Outcome State Fault Refusal := event t State.powerOn s

/-- RESET_N_PULSE: a low pulse of at least 10 us is a hub reset; a shorter one is ignored (R523). (DEDUCED, log entry 36). -/
def State.resetPulse (s : State) (widthNs : Nat) : State := if widthNs < 10000 then s else s.hubReset 1

/-- The meaning of RESET_N_PULSE. -/
def execResetNPulse (t widthNs : Nat) (s : State) : Host.Outcome State Fault Refusal := event t (State.resetPulse · widthNs) s

/-- SUPPLY_BROWNOUT: VDD_AON or VDD_CORE below 90 % for more than 2 us without PFW_N is a hub reset with cause 0x00 (R525).
(DEDUCED, log entry 36). -/
def State.brownout (s : State) (durNs : Nat) : State := if durNs ≤ 2000 ∨ s.sys.pfwNLow then s else s.hubReset 0

/-- The meaning of SUPPLY_BROWNOUT. -/
def execSupplyBrownout (t durNs : Nat) (s : State) : Host.Outcome State Fault Refusal := event t (State.brownout · durNs) s

/-- PFW_N_FALL (R35, R468, R473): the POWER_FAIL entry is committed, a transition stops where it stands, the update session ends,
and NVM takes nothing but black-box entries from here on. (DEDUCED, log entry 36). -/
def State.powerFail (s : State) : State :=
  if s.sys.pfwNLow then s
  else
    let n := s.qm.recs.length
    let old := s.oldestHeld
    let bits := b2n s.sys.transition.isSome + 2 * b2n s.sys.session.isSome
    let s := s.onNvm fun m => { m with hubAddr := s.storedAddr, nextAddr := none, heldAtReset := n, heldOldest := old }
    let s := s.onSys fun y => { y with pfwNLow := true, pfwRoseAt := none }
    (s.bbCommit 0x0008 [n, old, (s.rd SYS_PWR_STATE).toNat, bits]).onSys fun y =>
      { y with transition := none, session := none, commits := [] }

/-- The meaning of PFW_N_FALL. -/
def execPfwNFall (t : Nat) (s : State) : Host.Outcome State Fault Refusal := event t State.powerFail s

/-- PFW_N_RISE with the supplies valid (R473, R523): a boot that waits at step 1 goes on; else the 10 ms begin. -/
def State.powerBack (s : State) : State :=
  if !s.sys.pfwNLow then s
  else if s.sys.phase == .waitPfw then s.onSys fun y => { y with pfwNLow := false, phase := .fill, conOut := y.conOut ++ [.bootStep 2] }
  else s.onSys fun y => { y with pfwNLow := false, pfwRoseAt := some s.now }

/-- The meaning of PFW_N_RISE. -/
def execPfwNRise (t : Nat) (s : State) : Host.Outcome State Fault Refusal := event t State.powerBack s

/-- PFW_RECOVERY_RESET: 10 ms after PFW_N rose again, a hub reset with cause 0x05 (R473). -/
def State.recoveryReset (s : State) : State :=
  match s.sys.pfwRoseAt with
  | some r => if s.now ≥ r + fineMs 10 then s.hubReset 5 else s
  | none => s

/-- The meaning of PFW_RECOVERY_RESET. -/
def execPfwRecoveryReset (t : Nat) (s : State) : Host.Outcome State Fault Refusal := event t State.recoveryReset s

/-- The hub enters a power state (Table 01-9): SYS_PWR_STATE follows and POWER_STATE is issued (R28, R485). -/
def State.enterPower (s : State) (new cause : Nat) : State :=
  let old := s.power
  (s.wr SYS_PWR_STATE (word (cause * 4096 + new * 256 + new))).issue 0x0007 [old, new, cause]

/-- A line on the console (R475). -/
def State.conLine (s : State) (l : ConLine) : State := s.onSys fun y => { y with conOut := y.conOut ++ [l] }

/-- MINIMAL is entered (R456, R466, R475): the ports take the stored configuration, or the defaults. -/
def State.enterMinimal (s : State) (cause : Nat) : State :=
  let words := match s.nvm.store with
    | some c => if s.memFailed 3 then [] else c.words
    | none => []
  let s := (s.loadPorts words).onSys fun y => { y with phase := .minimal }
  (s.enterPower 4 cause).conLine (.minimal s.nvm.reason)

/-- Marks of a slot. -/
def Nvm.slot (n : Nvm) (k : Nat) : SlotMark := if k = 0 then n.slotA else n.slotB
def Nvm.onSlot (n : Nvm) (k : Nat) (f : SlotMark → SlotMark) : Nvm :=
  if k = 0 then { n with slotA := f n.slotA } else { n with slotB := f n.slotB }

/-- Table 15-5: the slot to start from and whether by its TRIAL mark; `none` for MINIMAL. -/
def Nvm.choose (n : Nvm) : Option (Nat × Bool) :=
  let p := n.activeSlot
  let o := 1 - p
  if n.slotA.trial then some (0, true)
  else if n.slotB.trial then some (1, true)
  else if n.fails = 1 then some (if (n.slot o).valid then o else p, false)
  else if n.fails ≥ 3 then none
  else some (p, false)

/-- History, retention and work of Table 14-2 for the installed GiB, in units of 256 MiB. -/
def layoutDefault (gib : Nat) : Nat × Nat × Nat :=
  if gib < 8 then (4, 8, 2) else if gib < 12 then (10, 16, 2) else if gib < 16 then (16, 24, 2) else (20, 32, 4)

/-- The layout in force (R440, R441): stored, or the defaults, with LAYOUT_DEFAULTED where the stored one does not fit. -/
def State.layOut (s : State) (gib : Nat) : State :=
  let h0 := s.fld MEM_LAYOUT MEM_LAYOUT_HIST
  let w0 := s.fld MEM_LAYOUT MEM_LAYOUT_WORK
  let d := layoutDefault gib
  let h := if h0 = 0 then d.1 else h0
  let w := if w0 = 0 then d.2.2 else w0
  let usable := gib * 7 / 2
  let fits := decide (1 ≤ h) && decide (1 ≤ w) && decide (h + w + 4 ≤ usable)
  let l := if fits then (h, usable - h - w, w) else d
  let s := (((s.setFld MEM_DRAM_CFG MEM_DRAM_CFG_INSTALLED gib).setFld MEM_DRAM_CFG MEM_DRAM_CFG_HIST_NOW l.1).setFld MEM_DRAM_CFG MEM_DRAM_CFG_RET_NOW
    l.2.1).setFld MEM_DRAM_CFG MEM_DRAM_CFG_WORK_NOW l.2.2
  if fits then s else s.issue 0xD003 [h0, w0, gib]

/-- With NVM failed the hub has no address, no stored words and no credential but slot 0's fuse copy, whose counter starts at 0
(Table 14-8, R374). -/
def State.withoutNvm (s : State) : State :=
  let s := (s.nvm.words.foldl (fun (s : State) e => s.wr e.1 (resetWord e.1)) s).wr SYS_HUB_ADDR 0#32
  (List.range 16).foldl (fun s k => s.wr (CMD_SLOT_CTR k) 0#32) s

/-- Step 4 of Table 15-3 with its memories good: the start count rises, and the boot ROM starts a slot or enters MINIMAL (R462,
R464). -/
def State.chooseSlot (s : State) : State :=
  let s := (s.onNvm fun n => { n with startCount := n.startCount + 1 }).conLine (.bootStep 4)
  match s.nvm.choose with
  | none => s.enterMinimal 2
  | some (k, trial) =>
    let s := s.onNvm fun n => { n.onSlot k (fun m => if trial then { m with trial := false } else m) with trialRunning := if trial then some k else none }
    s.onSys fun y => { y with phase := .imageLoad, bootSlot := k, bootFromTrial := trial, stepFourAt := s.now }

/-- MEMORY_FILL_DONE (R439 to R441, R448 to R450, R462): every volatile word is filled with zero; a failed memory leads to MINIMAL,
Porter SRAM holds the hub in BOOT. The self-test's words are refilled with the rest. The loops of the vernier cores are locked by now. (DEDUCED, log entries 37 and 64). -/
def State.fillDone (s : State) (r : FillResult) : State :=
  if s.sys.phase != .fill then s
  else
    let gib := r.gib0 + r.gib1
    let dram := r.trainFailed || r.gib0 != r.gib1 || decide (gib < 4)
    let mask := bootFailMask r.fillFailed r.answers ||| (if dram then 1 else 0)
    let s := (List.range 8).foldl (fun s v => (s.setFld (TIU_CORE_STAT v) TIU_CORE_STAT_LOCK_F 1).setFld (TIU_CORE_STAT v) TIU_CORE_STAT_LOCK_S 1) s
    let s := (s.wr MEM_BOOT_STAT 0#32).setFld MEM_BOOT_STAT MEM_BOOT_STAT_FILL_DONE 1
    let s := ((s.setFld MEM_BOOT_STAT MEM_BOOT_STAT_TEST_DONE 1).setFld MEM_BOOT_STAT MEM_BOOT_STAT_FILL_MS (satN 16 r.fillMs)).conLine (.bootStep 3)
    if mask = 0 then (s.layOut gib).chooseSlot
    else
      let s := ((s.setFld MEM_BOOT_STAT MEM_BOOT_STAT_FAILED 1).setFld MEM_BOOT_STAT MEM_BOOT_STAT_FAIL_MEM mask).onNvm fun n =>
        { n with reason := if dram then 0x11 else 0x10 }
      let s := s.onSys fun y => { y with deskewFailed := r.deskewFailed, cacheFailed := r.cacheFailed }
      let s := if bit mask 3 then s.withoutNvm else s
      if bit mask 2 then s.onSys fun y => { y with phase := .held }
      else
        let s := if bit mask 0 then s else s.layOut gib
        (s.onNvm fun n => { n with startCount := n.startCount + 1 }).enterMinimal 3

/-- The meaning of MEMORY_FILL_DONE. -/
def execMemoryFillDone (t : Nat) (r : FillResult) (s : State) : Host.Outcome State Fault Refusal := event t (State.fillDone · r) s

/-- A failed start (R463, R469): one write of the boot state, START_FAILED, and a hub reset with cause 0x04. A start that PFW_N has
ended is none. -/
def State.failedStart (s : State) (reason : Nat) : State :=
  if s.sys.pfwNLow || s.sys.pfwRoseAt.isSome || !(s.sys.phase == .imageLoad || s.sys.phase == .configLoad) then s
  else
    let s := s.onNvm fun n =>
      let n := { n with fails := satN 4 (n.fails + 1), reason := reason }
      match n.trialRunning with
      | some k => { n.onSlot k (fun m => { m with valid := false }) with trialRunning := none, trialFailed := true, trialFailedSince := true }
      | none => n
    let s := (s.bbCommit 0x0002 [reason, s.sys.bootSlot, s.nvm.fails]).conLine (.startFailed reason)
    let lines := s.sys.conOut
    (s.hubReset 4).onSys fun y => { y with conOut := lines ++ y.conOut }

/-- Bytes of flash. (DESIGN CHOICE, log entry 4). -/
def State.flash (s : State) (off n : Nat) : List Byte := Mem.readBytes 0xFF#8 s.bufs.flash off n

/-- Offset of a slot in flash (Table 15-1). -/
def slotBase (k : Nat) : Nat := k * 0x01C00000

/-- Do both sections match their hashes, and does the signature over bytes 0 to 87 verify (R460, Table 15-2)? (DEDUCED, log entry 37). -/
def State.imageSound (s : State) (k : Nat) (h : List Byte) : Bool :=
  let n := num h 8 4
  let m := num h 12 4
  let base := slotBase k + 128
  let sig := s.flash (base + n + m) 64
  sha256 (s.flash base n) == bigNum (bytesAt h 24 32) && sha256 (s.flash (base + n) m) == bigNum (bytesAt h 56 32)
    && ecdsaOk s.nvm.firmwareKey (sha256 (h.take 88)) (bigNum (sig.take 32)) (bigNum (sig.drop 32))

/-- Does the image in a slot verify (R460, Table 15-2)? Answers the reason code of a failure; `valid` asks that the slot is marked VALID
besides. (DEDUCED, log entry 37). -/
def State.imageFault (s : State) (k : Nat) (valid : Bool) : Option Nat :=
  let h := s.flash (slotBase k) 128
  if (valid && !(s.nvm.slot k).valid) || num h 0 4 != 0x57465144 then some 1
  else if num h 4 2 != 1 || decide (num h 8 4 > 768 * 1024) || decide (num h 12 4 > 27 * 1048576) || decide (num h 20 4 < s.nvm.secFloor) 
      || !s.imageSound k h then some 2
  else none

/-- IMAGE_LOAD_DONE: steps 5 and 6 of Table 15-3. -/
def State.imageLoaded (s : State) : State :=
  if s.sys.phase != .imageLoad then s
  else
    let s := s.conLine (.bootStep 5)
    match s.imageFault s.sys.bootSlot true with
    | some reason => s.failedStart reason
    | none => (s.onSys fun y => { y with phase := .configLoad }).conLine (.bootStep 6)

/-- The meaning of IMAGE_LOAD_DONE. -/
def execImageLoadDone (t : Nat) (s : State) : Host.Outcome State Fault Refusal := event t State.imageLoaded s

/-- BOOT_TIMEOUT: BOOT_OK not reached within 30 s of step 4 (R463). -/
def State.bootTimeout (s : State) : State := if s.now ≥ s.sys.stepFourAt + fineMs 30000 then s.failedStart 3 else s

/-- The meaning of BOOT_TIMEOUT. -/
def execBootTimeout (t : Nat) (s : State) : Host.Outcome State Fault Refusal := event t State.bootTimeout s

/-- A start has reached BOOT_OK from its slot: UPDATE_STATE, ACTIVE_SLOT, SEC_FLOOR (R465). -/
def State.confirmSlot (s : State) : State :=
  let k := s.sys.bootSlot
  let m := s.nvm.slot k
  let state := if s.sys.bootFromTrial then 4 else if k ≠ s.nvm.activeSlot ∨ s.nvm.trialFailedSince then 5 else 0
  let s := s.onNvm fun n => { n with fails := 0, activeSlot := k, secFloor := max n.secFloor m.secVer, trialRunning := none, trialFailedSince := false }
  if state = 0 then s else s.issue 0x0005 [k, state, m.version]

/-- BOOT_OK: steps 7 and 8 of Table 15-3 (R38, R288, R461 to R465, R499; 13_head_redundancy.md R412, R420). A store that is broken
or refused fails the start. (DEDUCED, log entry 37). -/
def State.bootOk (s : State) (refused : Bool) : State :=
  if s.sys.phase != .configLoad then s
  else if s.nvm.storeBroken || (refused && s.nvm.store.isSome) then (s.conLine (.bootStep 7)).failedStart 5
  else
    let s := s.conLine (.bootStep 7)
    let ms := satN 16 (s.now / fineMs 1)
    let s := s.loadCal.loadConfig
    let s := ((s.setFld SYS_BOOT_STAT SYS_BOOT_STAT_SLOT_NOW s.sys.bootSlot).setFld SYS_BOOT_STAT SYS_BOOT_STAT_BOOT_OK 1).setFld SYS_BOOT_STAT
      SYS_BOOT_STAT_BOOT_MS ms
    let s := (s.onSys fun y => { y with phase := .running }).enterPower s.nvm.bootPower 0
    let s := s.issue 0x0001 [s.sys.bootSlot, (s.nvm.slot s.sys.bootSlot).version, s.fld SYS_RESET_CAUSE SYS_RESET_CAUSE_CAUSE, ms]
    let s := s.confirmSlot.conLine (.bootStep 8)
    let s := if s.nvm.heldAtReset = 0 then s else s.issue 0x8006 [s.nvm.heldAtReset, s.nvm.heldOldest]
    let s := s.onNvm fun n => { n with heldAtReset := 0, heldOldest := 0 }
    let s := s.queueBadCal.startApplied.quietAll
    if s.fld RED_CFG RED_CFG_ROLE = 1 then s.setHead hStarting 0 else s

/-- The meaning of BOOT_OK. -/
def execBootOk (t : Nat) (refused : Bool) (s : State) : Host.Outcome State Fault Refusal := event t (State.bootOk · refused) s

/-- The work of a long operation stops before its commit point, without its report (R390): a gate and its sources (06 R197), an
extract (07 R243), a job (10 R318), a scan (11 R356), a drill (13 R428), a scrub (14 R452), an update commit (15 R480), the groups
a CAL_RUN has left (16 R500). (DEDUCED, log entry 11). -/
def State.stopOp (s : State) (c : Caller) : State :=
  match c.opcode with
  | 0x0012 => s.onSys fun y => { y with commits := y.commits.filter fun e => e.1 != c }
  | 0x5002 => (s.tiu.gates.filter fun g => g.caller == c).foldl (fun s g => s.dropGate g.bay) s
  | 0x6005 =>
    let mine := s.cap.extracts.filter fun x => x.caller == c
    let formed := mine.flatMap fun x => x.out.elim [] Extracted.recs
    let s := (formed.filter fun i => !s.recQueued i).foldl (fun s i => s.freeRec i) s
    s.onCap fun y => { y with extracts := y.extracts.filter fun x => x.caller != c }
  | 0x9002 => (s.cmp.jobs.filter fun j => j.caller == c).foldl (fun s j => s.abortJob j) s
  | 0xA003 => s.onLnk fun m => { m with scans := m.scans.filter fun x => x.caller != c }
  | 0xC006 => s.onRed fun r => { r with drill := none, handover := false }
  | 0xD001 => s.scrubStop
  | 0xF001 =>
    let left := (s.cal.ops.filter fun o => o.caller == c).flatMap CalOp.left
    let s := s.onCal fun x => { x with ops := x.ops.filter fun o => o.caller != c, queued := x.queued.filter fun g => !left.contains g }
    left.foldl (fun s g => (s.setFld (CAL_GRP_STAT g) CAL_GRP_STAT_PENDING 0).calStop g) s
  | _ => s

/-- Commands taken and not answered end with TIMEOUT (R387), `cause` 0 for a reply that is late, 1 for a Porter restart. -/
def State.timeOut (s : State) (c : Caller) (cause : Nat) : State :=
  let s := (s.onCmd fun m => { m with inflight := m.inflight.filter fun e => e.1 != c }).bump CMD_ERR CMD_ERR_TIMEOUTS
  (s.reply c stTIMEOUT []).issue 0xB004 [c.opcode, c.tag, c.source, cause]

/-- A Porter restart (R387, R457, R458), which refills the Porter SRAM, cause 0 watchdog, 1 lockstep, 2 bus error: commands in flight and long operations end with
TIMEOUT; the fourth within 600 s is a hub reset with cause 0x06. In MINIMAL the recovery monitor in ROM needs no reload.
(DEDUCED, log entry 38). -/
def State.porterRestart (s : State) (cause : Nat) : State :=
  let recent := s.sys.restarts.filter fun a => decide (a + fineMs 600000 > s.now)
  let s := (s.bump SYS_PORTER_STAT SYS_PORTER_STAT_RESTARTS).setFld SYS_PORTER_STAT SYS_PORTER_STAT_LAST cause
  let s := s.onSys fun y => { y with restarts := recent ++ [s.now], reloading := !s.isMinimal }
  let s := (s.issue 0x0004 [cause, recent.length + 1]).onMem fun x => { x with damage := x.damage.filter fun d => d.mem != 2 }
  if recent.length ≥ 3 then s.hubReset 6
  else
    let s := (s.cmd.inflight.map Prod.fst).foldl (fun s c => s.timeOut c 1) s
    (s.cmd.ops.map LongOp.caller).foldl (fun s c => (s.stopOp c).report c stTIMEOUT []) s

/-- WATCHDOG_EXPIRY: a Porter restart after BOOT_OK, a failed start before it (R457, R463); the watchdog runs from step 6 of Table 15-3 on.
(DEDUCED, log entry 38). -/
def State.watchdog (s : State) : State :=
  if s.sys.phase == .running then if s.sys.reloading then s else s.porterRestart 0
  else if s.sys.phase == .configLoad then s.failedStart 3
  else s

/-- The meaning of WATCHDOG_EXPIRY. -/
def execWatchdogExpiry (t : Nat) (s : State) : Host.Outcome State Fault Refusal := event t State.watchdog s

/-- LOCKSTEP_MISMATCH: as WATCHDOG_EXPIRY, and in MINIMAL too (R457, R463). (DEDUCED, log entry 38). -/
def State.lockstep (s : State) : State :=
  if s.booted then if s.sys.reloading then s else s.porterRestart 1 else s.failedStart 4

/-- The meaning of LOCKSTEP_MISMATCH. -/
def execLockstepMismatch (t : Nat) (s : State) : Host.Outcome State Fault Refusal := event t State.lockstep s

end Sys2Proof.Machine
end

