-- ==== Sys2Proof/Machine/Power.lean ====
section
/-!
DEFINITION. Power states (01_architecture.md R28 to R36; 15_porter_management.md R477): SET_POWER_STATE and the end of a
transition.
-/

namespace Sys2Proof.Machine

open Reg Bits

/-- SET_POWER_STATE (0x0003), R31 to R34, R477: MINIMAL_MODE in MINIMAL; a request for the present state returns OK, any other begins a transition and is
answered at its end. (DEDUCED, log entries 10 and 16 and 39). -/
def bodySetPowerState : Body := fun c ps s =>
  let code := num ps 0 1
  let persist := bit (num ps 1 1) 0
  let busy := s.on SYS_PWR_STATE SYS_PWR_STATE_IN_TRANSITION
  if s.isMinimal then refuse s stMINIMAL_MODE
  else checked s [need (1 ≤ code && code ≤ 3 && num ps 1 1 < 2 && zeroAt ps 2 2) stBAD_PARAM,
      need (!(code == 1 && (s.fld RED_CFG RED_CFG_ROLE == 1 || s.isActive))) stBAD_STATE, need (!busy) stBUSY]
    (if code = s.power then ok (if persist then s.onNvm fun n => { n with bootPower := code } else s)
     else
      let s := (s.setFld SYS_PWR_STATE SYS_PWR_STATE_IN_TRANSITION 1).setFld SYS_PWR_STATE SYS_PWR_STATE_TARGET code
      .quiet (s.onSys fun y => { y with transition := some ⟨code, persist, c⟩ }))

/-- The meaning of SET_POWER_STATE. -/
def execSetPowerState (t : Nat) (p : Packet) (s : State) : Host.Outcome State Fault Refusal := command 0x0003 bodySetPowerState t p s

/-- Does a bay convert in a power state (R30)? -/
def State.bayIn (s : State) (pw b : Nat) : Bool := (pw == 3 && (s.bmode b == 1 || s.bmode b == 2)) || (pw == 2 && s.bmode b == 2)

/-- The bays that convert now and not in another power state, and the other way round. -/
def State.baysLost (s : State) (new : Nat) : List Nat := (List.range 64).filter fun b => s.bayIn s.power b && !s.bayIn new b
def State.baysWon (s : State) (new : Nat) : List Nat := (List.range 64).filter fun b => !s.bayIn s.power b && s.bayIn new b

/-- A record is written to retention at the entry to DORMANT (R31, 09_queues_and_retention.md R285): one that is inside the engine on the
spill path in the form the engine gives it, any other as it is, for the engine takes no new records. `none` where retention cannot
hold it. -/
def State.stow (o : Option State) (id : Nat) : Option State :=
  match o with
  | none => none
  | some s => match s.qm.recs.find? fun r => r.id == id && r.place != .retention && r.place != .returning with
    | none => some s
    | some r =>
      let c := if r.place == .spilling && s.on QM_RET_CFG QM_RET_CFG_RET_CMP && !r.fsf && !r.payload.isEmpty then s.compress r else (none, s)
      let r := { r with spilled := c.1 }
      if c.2.retOver r.rtype (32 + (pad4 r.kept).length) then none
      else some ((c.2.onRec id fun x => { x with place := .spilling, spilled := r.spilled, aq := 52, inAsm := x.cells, entered := 0 }).storeRec id)

/-- What ends as the hub leaves ACTIVE and QUIET: calibration runs, the transom's run, HELD panes, the streams of every bay, of the
field ports and of the transom (R31; 03_conversion.md R107; 07_panes_and_triggers.md R222; 16_calibration.md R494). -/
def State.endSampling (s : State) : State :=
  let s := s.calStopAll.stopTransom
  let s := (List.range 16).foldl (fun s e => ((s.eng e).panes.filter fun p => !p.opened).foldl (fun s p => s.closePane p 2) s) s
  let s := (s.baysLost 1).foldl (fun s b => s.stopBay b 4) s
  (List.range 80).foldl (fun s i => (s.endStream (512 + i) 4).onStrm (512 + i) fun x => { x with told := false }) s

/-- Everything held goes to retention (R31): the engine finishes what it had, `inside`, and takes no record closed since; its jobs end,
records partly sent wait again. `none` where retention cannot hold it. (DEDUCED, log entry 39). -/
def State.stowAll (s : State) (inside : List Nat) : Option State :=
  let s := s.closeEvents.closeCmp
  let s := s.onRecs (fun r => r.place == .engine && !inside.contains r.id) fun r => { r with place := .queued, wantCmp := false }
  let s := ((s.qm.recs.filter fun r => r.place == .engine).map Rec.id).foldl (fun s i => s.recordDone i) s
  let s := s.onRecs (fun r => r.place == .sending && decide (r.popped < r.cells)) fun r => { r with place := .queued, popped := 0 }
  (s.qm.recs.map Rec.id).foldl State.stow (some s)

/-- A port follows the power state (R29; 11_serial_lanes_and_syrilink.md R325): powered down, trained, or retrained to another rate
or width. -/
def State.portFollows (before s : State) (p : Nat) : State :=
  let st := s.pstate p
  if !s.portRuns p then if st = 0 ∨ st = 6 then s else ((s.useLanes p 0).dropLink p).setPort p 0 4
  else if st = 0 ∨ st = 1 then s.startTraining p false 4
  else if s.reqRate p = before.reqRate p ∧ s.reqWidth p = before.reqWidth p then s
  else if st = 2 then s.startTraining p (s.port p).planned 4
  else if st = 3 ∨ st = 4 then s.startTraining p true 4
  else s

/-- The hub is in another power state: the ports follow, S and B credits with them, and bays start (Table 01-9). -/
def State.arrive (s : State) (new : Nat) : State :=
  let won := s.baysWon new
  let old := s.power
  let next := s.enterPower new 1
  let next := (List.range 8).foldl (fun x p => State.portFollows s x p) next
  let next := if old = 1 ∨ new = 1 then (next.sendLinkState true).reroute.tripsPower else next
  won.foldl (fun x b => x.startBay b (x.strobeFrom b x.now)) next

/-- The state that a transition leads to; `none` where retention cannot hold what the pool holds. (DEDUCED, log entry 39). -/
def State.transit (s : State) (new : Nat) : Option State :=
  let inside := (s.qm.recs.filter fun r => r.place == .engine).map Rec.id
  if new = 1 then (s.endSampling.stowAll inside).map fun x => x.arrive new
  else some (((s.baysLost new).foldl (fun x b => x.stopBay b 4) s).arrive new)

/-- POWER_TRANSITION_DONE: the transition in progress ends, timed actions that waited for it launch (R36), and SET_POWER_STATE is
answered (R31, R477). (DEDUCED, log entry 39). -/
def State.transitionDone (s : State) : State :=
  match s.sys.transition with
  | none => s
  | some x =>
    match s.transit x.target with
    | some n =>
      let n := n.onSys fun y => { y with transition := none }
      let n := if x.persist then n.onNvm fun m => { m with bootPower := x.target } else n
      n.launchDue.answer x.caller stOK []
    | none =>
      let s := (s.setFld SYS_PWR_STATE SYS_PWR_STATE_IN_TRANSITION 0).setFld SYS_PWR_STATE SYS_PWR_STATE_TARGET s.power
      (s.onSys fun y => { y with transition := none }).launchDue.answer x.caller stNO_RESOURCE []

/-- The meaning of POWER_TRANSITION_DONE. -/
def execPowerTransitionDone (t : Nat) (s : State) : Host.Outcome State Fault Refusal := event t State.transitionDone s

end Sys2Proof.Machine
end

