-- ==== Sys2Proof/Machine/Sys.lean ====
section
/-!
DEFINITION. The SYS block (15_porter_management.md R467 to R485): black box, console, updates, SYS commands; the hub's
stored address (01_architecture.md R20); PING and SOFT_RESET (12_command_packets.md R391, R392).
-/

namespace Sys2Proof.Machine

open Reg Bits

/-- SENSOR_READ (0x0030), R484: instant of the latest poll, live alarms, 25 values; all 0 before the first poll.
(DEDUCED, log entries 40 and 70). -/
def bodySensorRead : Body := fun _ _ s =>
  let value := fun i => match s.sys.sensorCodes.find? fun e => e.1 == 0x10 + i with
    | some e => sensorValue e.1 e.2
    | none => 0
  .reply s stOK (le 4 0 ++ le 8 s.sys.sensorSt ++ le 4 s.sys.sensorAlarm ++ (List.range 25).flatMap fun i => leI 4 (value i))

/-- The meaning of SENSOR_READ. -/
def execSensorRead (t : Nat) (p : Packet) (s : State) : Host.Outcome State Fault Refusal := command 0x0030 bodySensorRead t p s

/-- BB_ALLOWANCE_REFILL (R472): one entry a second up to 64; entries dropped meanwhile are told in one BB_SUMMARY.
(DEDUCED, log entry 41). -/
def State.bbRefill (s : State) : State :=
  let n := s.second - s.sys.bbLastSecond
  if n = 0 then s
  else
    let s := (s.setFld SYS_BB_STAT SYS_BB_STAT_ALLOWANCE (min 64 (s.bbAllowance + n))).onSys fun y => { y with bbLastSecond := s.second }
    if s.sys.bbDropped = 0 then s
    else
      let items := [s.sys.bbDropped]
      ((s.onSys fun y => { y with bbDropped := 0 }).bbCommit 0x000A items).recordEvent 0x000A items

/-- The meaning of BB_ALLOWANCE_REFILL. -/
def execBbAllowanceRefill (t : Nat) (s : State) : Host.Outcome State Fault Refusal := event t State.bbRefill s

/-- CONSOLE_STATUS_QUERY: a character on CON_RX; "s" is answered with INPUT set, any other character ignored (R475). -/
def State.consoleQuery (s : State) (c : Byte) : State :=
  if c == 0x73#8 && s.on SYS_CON_CFG SYS_CON_CFG_INPUT then s.conLine (.status s.power (s.fld SYS_BOOT_STAT SYS_BOOT_STAT_SLOT_NOW)) else s

/-- The meaning of CONSOLE_STATUS_QUERY. -/
def execConsoleStatusQuery (t : Nat) (c : Byte) (s : State) : Host.Outcome State Fault Refusal := event t (State.consoleQuery · c) s

/-- CONSOLE_LOCK: a write of 1 to LOCK (SYS_CON_CFG). -/
def State.consoleLock (s : State) : State := s.setFld SYS_CON_CFG SYS_CON_CFG_LOCK 1

/-- The meaning of CONSOLE_LOCK. -/
def execConsoleLock (t : Nat) (s : State) : Host.Outcome State Fault Refusal := event t State.consoleLock s

/-- NEXT_ADDR_WRITE (01_architecture.md R20): read back at once, in NVM 10 ms later, in use from the next hub reset.
(DEDUCED, log entry 19). -/
def State.writeNextAddr (s : State) (a : Nat) : State :=
  let a := a % 2048
  let s := s.setFld SYS_HUB_ADDR SYS_HUB_ADDR_NEXT_ADDR a
  if s.memFailed 3 then s else s.onNvm fun n => { n with hubAddr := s.storedAddr, nextAddr := some a, nextAddrAt := s.now }

/-- The meaning of NEXT_ADDR_WRITE. -/
def execNextAddrWrite (t a : Nat) (s : State) : Host.Outcome State Fault Refusal := event t (State.writeNextAddr · a) s

/-- PING (0x0001), 12_command_packets.md R391. -/
def bodyPing : Body := fun _ _ s => .reply s stOK (le 12 (ft96 s.served) ++ le 1 s.power ++ le 3 0)

/-- The meaning of PING. -/
def execPing (t : Nat) (p : Packet) (s : State) : Host.Outcome State Fault Refusal := command 0x0001 bodyPing t p s

/-- IDENTIFY (0x0002), R476. (DEDUCED, log entry 70). -/
def bodyIdentify : Body := fun _ _ s =>
  let version := fun (m : SlotMark) => if m.valid then m.version else 0
  .reply s stOK (le 4 (s.rd SYS_ID).toNat ++ le 8 (s.rd64 SYS_SERIAL) ++ le 4 (Config.bootRomVersion 0).toNat ++ le 4 (version s.nvm.slotA)
    ++ le 4 (version s.nvm.slotB) ++ le 1 (s.fld SYS_BOOT_STAT SYS_BOOT_STAT_SLOT_NOW) ++ le 1 (if s.memFailed 0 then 0 else s.gib)
    ++ le 2 (match s.address with
      | some a => 2 ^ 15 + a
      | none => 0) ++ le 4 s.nvm.startCount)

/-- The meaning of IDENTIFY. -/
def execIdentify (t : Nat) (p : Packet) (s : State) : Host.Outcome State Fault Refusal := command 0x0002 bodyIdentify t p s

/-- The reset that follows a reply 1 ms after it has left its port (12_command_packets.md R392); a caller that hears no reply waits
for none. (DEDUCED, log entry 42). -/
def State.resetAfter (s : State) (c : Caller) (cause : Nat) : State :=
  if c.hears stOK then s.onSys fun y => { y with resetAfterReply := some (c.opcode, c.tag) }
  else s.onCmd fun m => { m with resetArmed := some (s.now + fineMs 1, cause) }

/-- SOFT_RESET (0x0007), 12_command_packets.md R392. -/
def bodySoftReset : Body := fun c _ s => ok (s.resetAfter c 2)

/-- The meaning of SOFT_RESET. -/
def execSoftReset (t : Nat) (p : Packet) (s : State) : Host.Outcome State Fault Refusal := command 0x0007 bodySoftReset t p s

/-- RESET_AFTER_REPLY: the hub reset of SOFT_RESET or UPDATE_ACTIVATE, FAILS set to 0 first (R467). -/
def State.resetNow (s : State) : State :=
  match s.cmd.resetArmed with
  | some (at_, cause) => if s.now ≥ at_ then (s.onNvm fun n => { n with fails := 0 }).hubReset cause else s
  | none => s

/-- The meaning of RESET_AFTER_REPLY. -/
def execResetAfterReply (t : Nat) (s : State) : Host.Outcome State Fault Refusal := event t State.resetNow s

/-- The slot that runs: 2 for the recovery monitor. -/
def State.slotNow (s : State) : Nat := s.fld SYS_BOOT_STAT SYS_BOOT_STAT_SLOT_NOW

/-- UPDATE_BEGIN (0x0010), R468, R478. (DEDUCED, log entry 42). -/
def bodyUpdateBegin : Body := fun _ ps s =>
  let k := num ps 0 1
  let len := num ps 4 4
  checked s [need (k < 2 && 192 ≤ len && len ≤ 29360128 && zeroAt ps 1 3) stBAD_PARAM, need (k != s.slotNow) stBAD_STATE]
    (let s := s.onNvm fun n => n.onSlot k fun m => { m with valid := false }
     let s := s.onSys fun y => { y with session := some ⟨k, len, 0⟩ }
     ok (s.issue 0x0005 [k, 0, (s.nvm.slot k).version]))

/-- The meaning of UPDATE_BEGIN. -/
def execUpdateBegin (t : Nat) (p : Packet) (s : State) : Host.Outcome State Fault Refusal := command 0x0010 bodyUpdateBegin t p s

/-- Bytes `off` on of a slot are programmed: the 64 KiB sectors that the data first reaches are erased before (R479).
(DESIGN CHOICE, log entry 4). -/
def programFlash (m : Mem) (slot off : Nat) (data : List Byte) : Mem :=
  let lo := slotBase slot + ceilDiv off 65536 * 65536
  let hi := slotBase slot + ceilDiv (off + data.length) 65536 * 65536
  Mem.writeBytes 0xFF#8 (m.filter fun e => decide (e.1 < lo) || decide (hi ≤ e.1)) (slotBase slot + off) data

/-- The flash with the bytes `off` on of a slot programmed. -/
def State.program (s : State) (slot off : Nat) (data : List Byte) : State :=
  { s with bufs := { s.bufs with flash := programFlash s.bufs.flash slot off data } }

/-- UPDATE_DATA (0x0011), R479. -/
def bodyUpdateData : Body := fun _ ps s =>
  let off := num ps 0 4
  let data := ps.drop 4
  match s.sys.session with
  | none => refuse s (if data.length % 4 == 0 then stBAD_STATE else stBAD_PARAM)
  | some x =>
    checked s [need (off == x.received && decide (off + data.length ≤ x.length) && data.length % 4 == 0) stBAD_PARAM]
      (let s := s.program x.slot off data
       let n := off + data.length
       .reply (s.onSys fun y => { y with session := some { x with received := n } }) stOK (le 4 n))

/-- The meaning of UPDATE_DATA. -/
def execUpdateData (t : Nat) (p : Packet) (s : State) : Host.Outcome State Fault Refusal := command 0x0011 bodyUpdateData t p s

/-- UPDATE_COMMIT (0x0012), R468, R480: the session ends and its slot is to be verified. (DEDUCED, log entry 42). -/
def bodyUpdateCommit : Body := fun c _ s =>
  match s.sys.session with
  | some x => if x.received = x.length then .long (s.onSys fun y => { y with session := none, commits := y.commits ++ [(c, x)] }) else refuse s stBAD_STATE
  | none => refuse s stBAD_STATE

/-- The meaning of UPDATE_COMMIT. -/
def execUpdateCommit (t : Nat) (p : Packet) (s : State) : Host.Outcome State Fault Refusal := command 0x0012 bodyUpdateCommit t p s

/-- UPDATE_COMMIT_DONE (R460, R480): the slot's mark is written, or the slot stays not VALID. (DEDUCED, log entry 42). -/
def State.commitDone (s : State) : State :=
  match s.sys.commits with
  | [] => s
  | (c, x) :: rest =>
    let s := s.onSys fun y => { y with commits := rest }
    let h := s.flash (slotBase x.slot) 128
    let version := num h 16 4
    let sec := num h 20 4
    let data := le 4 version ++ le 4 sec
    match s.imageFault x.slot false with
    | none =>
      let s := s.onNvm fun n => n.onSlot x.slot fun m => { m with valid := true, version := version, secVer := sec }
      (s.issue 0x0005 [x.slot, 1, version]).report c stOK data
    | some _ => (s.issue 0x0005 [x.slot, 2, version]).report c stVERIFY_FAIL data

/-- The meaning of UPDATE_COMMIT_DONE. -/
def execUpdateCommitDone (t : Nat) (s : State) : Host.Outcome State Fault Refusal := event t State.commitDone s

/-- UPDATE_ACTIVATE (0x0013), R481. -/
def bodyUpdateActivate : Body := fun c ps s =>
  let k := num ps 0 1
  checked s [need (k < 2 && zeroAt ps 1 3) stBAD_PARAM, need (s.nvm.slot k).valid stBAD_STATE, need s.sys.commits.isEmpty stBUSY]
    (let s := if k = s.slotNow then s else s.onNvm fun n => n.onSlot k fun m => { m with trial := true }
     ok ((s.issue 0x0005 [k, 3, (s.nvm.slot k).version]).resetAfter c 3))

/-- The meaning of UPDATE_ACTIVATE. -/
def execUpdateActivate (t : Nat) (p : Packet) (s : State) : Host.Outcome State Fault Refusal := command 0x0013 bodyUpdateActivate t p s

/-- LOG_READ (0x0020), R482; another hub of the segment is served from the mirror of an active head (R474).
(DEDUCED, log entry 41). -/
def bodyLogRead : Body := fun _ ps s =>
  let a := num ps 0 2
  let first := num ps 4 4
  let n := num ps 8 1
  let own := a == 0xFFFF || s.address == some a
  let held := if own then s.nvm.bb else (s.red.bbOthers.filter fun e => e.1 == a).map Prod.snd
  let next := if own then s.nvm.bbNext else match held.getLast? with
    | some e => e.seq + 1
    | none => 0
  let oldest := (held.head?.map BBEntry.seq).getD next
  let out := (held.filter fun e => decide (first ≤ e.seq)).take n
  checked s [need ((a == 0xFFFF || a < 2048) && 1 ≤ n && n ≤ 63 && zeroAt ps 2 2 && zeroAt ps 9 3) stBAD_PARAM,
      need (own || (s.isActive && segOf a == segOf s.addr)) stBAD_STATE]
    (.reply s stOK (le 4 out.length ++ le 4 oldest ++ le 4 next ++ out.flatMap BBEntry.image))

/-- The meaning of LOG_READ. -/
def execLogRead (t : Nat) (p : Packet) (s : State) : Host.Outcome State Fault Refusal := command 0x0020 bodyLogRead t p s

/-- LOG_MARK (0x0021), R472, R483. (DEDUCED, log entry 41). -/
def bodyLogMark : Body := fun _ ps s =>
  let items := (List.range 4).map fun i => num ps (8 * i) 8
  checked s [need (s.bbAllowance != 0) stBUSY]
    (ok (((s.setFld SYS_BB_STAT SYS_BB_STAT_ALLOWANCE (s.bbAllowance - 1)).bbCommit 0x0009 items).recordEvent 0x0009 items))

/-- The meaning of LOG_MARK. -/
def execLogMark (t : Nat) (p : Packet) (s : State) : Host.Outcome State Fault Refusal := command 0x0021 bodyLogMark t p s

end Sys2Proof.Machine
end

