-- ==== Sys2Proof/Machine/RegAccess.lean ====
section
/-!
DEFINITION. Register access (00_scope.md R4 to R10, 01_architecture.md R13, 12_command_packets.md R393 to R398): what a register
reads as now, and what a write of one word does, register by register.
-/

namespace Sys2Proof.Machine

open Reg Bits

/-- A SYS_SLOT register from a slot's marks (15_porter_management.md, Registers). -/
def SlotMark.reg (m : SlotMark) : Nat := m.version * 2 ^ 32 + min m.secVer 0x3FFFFFFF * 4 + 2 * b2n m.trial + b2n m.valid

/-- A 64-bit register as it reads now. -/
def State.reads64 (s : State) (d : RegDesc) (i : Nat) : Nat :=
  if d.base = SYS_SLOT 0 then (s.nvm.slot i).reg
  else if d.base = DEC_CH_DELAY 0 then
    s.afeDelay i * 2 ^ 48 + (if s.chMode i = 5 then 0 else groupDelay (s.scanN (i / 8)) (s.chRate i) (s.chGrid i)) % 2 ^ 48
  else if d.base = TB_XC then s.xc % 2 ^ 64
  else if d.base = QM_RET_USED then s.retUsed
  else if d.base = PMC_CYCLE then s.pmcBlk.cycle % 2 ^ 64
  else s.rd64 (d.base + d.step * i)

/-- SYS registers that NVM holds (15_porter_management.md, Registers). -/
def State.readsSys (s : State) (a : Nat) : Word :=
  if a = SYS_BOOT_STAT then
    setBits (setBits (setBits (s.rd a) SYS_BOOT_STAT_TRIAL_FAILED (b2n s.nvm.trialFailed)) SYS_BOOT_STAT_FAILS (satN 4 s.nvm.fails)) SYS_BOOT_STAT_REASON
      s.nvm.reason
  else if a = SYS_BOOT_CFG then word (2 * min s.nvm.secFloor (2 ^ 31 - 1) + s.nvm.activeSlot % 2)
  else if a = SYS_BB_SEQ then word s.nvm.bbNext
  else s.rd a

/-- TIU_SRC_CFG as it reads: EN and CORE of a fixed source are what its owner sets (06_interval_unit.md, Registers). -/
def State.readsSource (s : State) (n : Nat) : Word :=
  setBits (setBits (s.rd (TIU_SRC_CFG n)) TIU_SRC_CFG_EN (b2n (s.srcOn n))) TIU_SRC_CFG_CORE (s.srcCore n)

/-- CMD_SLOT: VALID and PERMS of a credential slot (12_command_packets.md, Registers). -/
def State.readsSlot (s : State) (k : Nat) : Word :=
  match s.cred k with
  | some c => word (2 ^ 31 + c.perms % 4096)
  | none => 0#32

/-- MEM_SCRUB_STAT: how far a scrub in progress has come is open. (DEDUCED, log entry 64). -/
def State.readsScrub (s : State) : Word :=
  match s.mem.scrub with
  | some k => setBits (s.rd MEM_SCRUB_STAT) MEM_SCRUB_STAT_PROGRESS (s.scrubProgress k)
  | none => s.rd MEM_SCRUB_STAT

/-- A 32-bit register as it reads now: instance `i` of a description, at address `a`. -/
def State.readsAs (s : State) (d : RegDesc) (i a : Nat) : Word :=
  let b := d.base
  if a < 0x10000 then s.readsSys a
  else if b = AFE_CH_STAT 0 then s.chStat i
  else if b = TB_STATUS then s.tbStatus
  else if b = TB_PORT_FLAGS 0 then s.portFlags i
  else if b = TIU_SRC_CFG 0 then s.readsSource i
  else if b = QM_Q_STAT 0 then s.qStat i
  else if b = QM_Q_FLAGS 0 then s.qFlags i
  else if b = QM_POOL_STAT then word (satN 16 s.freeShared * 65536 + satN 16 s.replayTotal)
  else if b = QM_RET_STAT then setBits (s.rd a) QM_RET_STAT_FILL s.retFillNow
  else if b = QM_SHUT_TYPE 0 then setBits (s.rd a) QM_SHUT_TYPE_REMAIN (s.shutRemain i)
  else if b = CMD_CACHE then setBits (s.rd a) CMD_CACHE_LONG_OPS s.cmd.ops.length
  else if b = CMD_SLOT 0 then s.readsSlot i
  else if b = RED_STAT then s.redStat
  else if b = RED_LEDGER then s.redLedger
  else if b = RED_WIT_STAT 0 then s.witStat i
  else if b = MEM_SCRUB_STAT then s.readsScrub
  else if b = CAL_GRP_STAT 0 then s.calGrpStat i
  else s.rd a

/-- The RC fields of a register word are cleared by its read; what hardware counts in the same clock stays for the next one (R8, R9). -/
def State.clearRc (s : State) (d : RegDesc) (a : Nat) (w : Word) : Word × State :=
  d.fields.foldl (fun (r : Word × State) f =>
    if f.acc == .rc then let x := r.2.takeRc a ⟨f.lo, f.width⟩; (setBits r.1 ⟨f.lo, f.width⟩ x.1, x.2) else r) (w, s)

/-- A written word less the ones for W1C bits that hardware sets in the same clock, which end set (R9). -/
def State.lessFresh (s : State) (d : RegDesc) (a : Nat) (w : Word) : Word :=
  d.fields.foldl (fun w f =>
    if f.acc == .w1c then setBits w ⟨f.lo, f.width⟩ (wfld w ⟨f.lo, f.width⟩ &&& ((2 ^ f.width - 1) ^^^ s.freshBits a ⟨f.lo, f.width⟩)) else w) w

/-- One aligned word is read on a path: an unused offset reads 0 (R13), RC fields are cleared, a 64-bit register is read through the
path's shadow (R397). -/
def State.readReg (s : State) (p : Path) (a : Nat) : Word × State :=
  match findReg a with
  | none => (0#32, s)
  | some (d, i, k) =>
    if d.words = 2 then
      let lowAt := d.base + d.step * i
      let v := s.reads64 d i
      let hi := word (v / 2 ^ 32)
      if k = 0 then (word v, s.onShadow p fun x => { x with read := some (lowAt, hi) })
      else match (s.shadow p).read with
        | some (b, h) => if b = lowAt then (h, s.onShadow p fun x => { x with read := none }) else (hi, s)
        | none => (hi, s)
    else
      let s := if d.base = TIU_CORE_STAT 0 then s.drainCore i else s
      s.clearRc d a (s.readsAs d i a)

/-- `n` words at ascending addresses are read on a path, one every `step` fine counts (R394, R396). -/
def State.readRegs (s : State) (p : Path) (a n step : Nat) : List Word × State :=
  let r := (List.range n).foldl (fun (r : List Word × State) (j : Nat) =>
    let x := (r.2.setNow (s.now + j * step)).readReg p (a + 4 * j); (r.1 ++ [x.1], x.2)) ([], s)
  (r.1, r.2.setNow s.now)

/-- The fields that a condition names. -/
def keepIf (c : Bool) (f : Fld) : List Fld := if c then [f] else []

/-- What a write leaves in a register by its fields' access types (R8, R10): `keep` are the fields whose written encoding is reserved
(R7). (DEDUCED, log entry 17). -/
def RegDesc.merge (d : RegDesc) (locked : Bool) (keep : List Fld) (old w : Word) : Word :=
  d.fields.foldl (fun o f =>
    let g : Fld := ⟨f.lo, f.width⟩
    if keep.contains g then o
    else match f.acc with
      | .rw => setBits o g (wfld w g)
      | .rwl => if locked then o else setBits o g (wfld w g)
      | .w1c => setBits o g (wfld old g &&& ((2 ^ f.width - 1) ^^^ wfld w g))
      | .w1s => setBits o g (wfld old g ||| wfld w g)
      | .ro | .wo | .rc => o) old

/-- Do the checks of the equivalent command let a word through (R7)? (DEDUCED, log entry 17). -/
def passes (checks : List (Option Nat)) : Bool := (firstFail checks).isNone

/-- SYS registers (01_architecture.md R20; 15_porter_management.md, Registers). -/
def State.writeSys (s : State) (d : RegDesc) (a : Nat) (w : Word) : State :=
  let m := d.merge (s.on SYS_CON_CFG SYS_CON_CFG_LOCK) [] (s.rd a) w
  if a = SYS_HUB_ADDR then s.writeNextAddr (wfld w SYS_HUB_ADDR_NEXT_ADDR)
  else if a = SYS_BB_CFG then s.wrNvm a m
  else if a = SYS_BOOT_STAT then if wfld w SYS_BOOT_STAT_TRIAL_FAILED = 1 then s.onNvm fun n => { n with trialFailed := false } else s
  else s.wr a m

/-- AFE registers: ignored in full where CH_CONFIG or BAY_EXCITATION would refuse (02_front_end.md R42, R43, Registers).
(DEDUCED, log entries 17 and 26). -/
def State.writeAfe (s : State) (d : RegDesc) (i a : Nat) (w : Word) : State :=
  let channel := fun (c : Nat) (cfg th : Word) =>
    if chWordsClean cfg.toNat th.toNat && passes (s.chChecks c 1 cfg th) then s.applyChannel c cfg th else s
  let exc := fun (b : Nat) (x sw : Word) =>
    if bits x.toNat 28 1 == 0 && bits x.toNat 12 4 == 0 && bits sw.toNat 16 4 == 0 && passes (s.excChecks b x sw) then s.setExc b x sw else s
  if d.base = AFE_CH_CFG 0 then channel i w (s.rd (AFE_CH_THR i))
  else if d.base = AFE_CH_THR 0 then channel i (s.rd (AFE_CH_CFG i)) w
  else if d.base = AFE_BAY_EXC 0 then exc i w (s.rd (AFE_BAY_SWEEP i))
  else if d.base = AFE_BAY_SWEEP 0 then exc i (s.rd (AFE_BAY_EXC i)) w
  else
    let s := s.wr a (d.merge false [] (s.rd a) w)
    if d.base = AFE_CTRL then s.onAcq fun x => { x with lastTick := s.tickNow } else s

/-- CONV registers (03_conversion.md R91, R92, R101, R105, Registers). (DEDUCED, log entry 17). -/
def State.writeConv (s : State) (d : RegDesc) (i a : Nat) (w : Word) : State :=
  let old := s.rd a
  if d.base = CONV_BAY_MODE 0 then
    if bits w.toNat 6 26 == 0 && bits w.toNat 2 2 == 0 && passes (s.bayChecks [i] w (s.rd (CONV_BAY_BURST i)) i) then
      (s.setBay i w (s.rd (CONV_BAY_BURST i))).showLoad
    else s
  else if d.base = CONV_BAY_BURST 0 then
    if burstOk w && s.burstFits i (s.scanCfg i) w then (s.setBay i (s.rd (CONV_BAY_MODE i)) w).showLoad else s
  else if d.base = CONV_TRIM 0 then s.setTrim i (wfld w CONV_TRIM_TRIM)
  else if d.base = CONV_TSEQ 0 then
    let src := wfld w CONV_TSEQ_SRC
    let srcOk := decide (src ≤ 0x15) || (decide (0x18 ≤ src) && decide (src ≤ 0x28))
    s.wr a (d.merge false (keepIf (wfld w CONV_TSEQ_SETTLE == 0) CONV_TSEQ_SETTLE ++ keepIf (wfld w CONV_TSEQ_BIAS == 3) CONV_TSEQ_BIAS
      ++ keepIf (!srcOk) CONV_TSEQ_SRC) old w)
  else if d.base = CONV_TSEQ_CTRL then
    let s := s.setTseqCtrl (d.merge false [] old w)
    let s := if wfld w CONV_TSEQ_CTRL_COMMIT = 1 then s.transomCommit else s
    if wfld w CONV_TSEQ_CTRL_START = 1 then s.transomTrigger else s
  else s.wr a (d.merge false [] old w)

/-- DEC registers (04_decimation.md R126, R133, R139, Registers). -/
def State.writeDec (s : State) (d : RegDesc) (i a : Nat) (w : Word) : State :=
  let old := s.rd a
  if d.base = DEC_CH_CFG 0 then
    let rate := fun c => if c = i then wfld w DEC_CH_CFG_RATE else s.chRate c
    if bits w.toNat 12 20 == 0 && bits w.toNat 9 1 == 0 && passes (s.chainChecks i w) && s.loadFits rate s.streaming s.acq.taps then
      (s.setChain i w).showLoad
    else s
  else if d.base = DEC_BAY_CFG 0 then
    let rate := wfld w DEC_BAY_CFG_HIST_RATE
    ((s.setFld a DEC_BAY_CFG_PHASE_TRIM (wfld w DEC_BAY_CFG_PHASE_TRIM)).setHist i (wfld w DEC_BAY_CFG_HIST_EN)
      (if histOk (s.scanCfg i) rate && bits w.toNat 17 3 == 0 && bits w.toNat 8 8 == 0 then rate else s.histRate i)).showLoad
  else if d.base = DEC_DET_CFG 0 then
    (s.wr a (d.merge false (keepIf (decide (wfld w DEC_DET_CFG_K > 24)) DEC_DET_CFG_K ++ keepIf (wfld w DEC_DET_CFG_TYPE == 3) DEC_DET_CFG_TYPE
      ++ keepIf (wfld w DEC_DET_CFG_SRC == 3) DEC_DET_CFG_SRC) old w)).restartDet i
  else if d.base = DEC_STREAM 0 then s.wr a (d.merge false (keepIf (wfld w DEC_STREAM_REC_PERIOD == 0) DEC_STREAM_REC_PERIOD) old w)
  else s.wr a (d.merge false [] old w)

/-- TB registers of 32 bits (05_time_base.md R150, R158, R169, R176, Registers). (DEDUCED, log entry 18). -/
def State.writeTb (s : State) (d : RegDesc) (i a : Nat) (w : Word) : State :=
  let old := s.rd a
  if d.base = TB_CTRL then s.wr a (d.merge false (keepIf (wfld w TB_CTRL_SELECT == 3) TB_CTRL_SELECT) old w)
  else if d.base = TB_DOM_CFG 0 then
    s.setDomCfg i (d.merge false (keepIf (wfld w TB_DOM_CFG_TOD_FMT == 3) TB_DOM_CFG_TOD_FMT ++ keepIf (wfld w TB_DOM_CFG_HOLD_LIMIT == 0) TB_DOM_CFG_HOLD_LIMIT)
      old w)
  else if d.base = TB_ANCHOR_CTRL 0 then if wfld w TB_ANCHOR_CTRL_GO = 1 then s.anchorGo i else s
  else if d.base = TB_PORT_ASYM 0 then if (signed 32 w.toNat).natAbs ≤ 1000000 then (s.wrNvm a w).markAsym i 0 else s
  else if d.base = TB_ACT_CTRL 0 then
    if s.armed i then if wfld w TB_ACT_CTRL_ARMED = 0 then s.cancelWrite i else s else s.armWriteEntry i w
  else if d.base = TB_ACT_ARG 0 then if s.armed i then s else s.wr a w
  else s.wr a (d.merge false [] old w)

/-- TIU registers (06_interval_unit.md R185, R188, Registers): a fixed source takes EDGE and BOTH alone; a source that CAP or FREQ
claims keeps its consumer. (DEDUCED, log entry 18). -/
def State.writeTiu (s : State) (d : RegDesc) (i a : Nat) (w : Word) : State :=
  let old := s.rd a
  if d.base ≠ TIU_SRC_CFG 0 then s.wr a (d.merge false [] old w)
  else if !srcRoutable i then
    s.wr a (d.merge false [TIU_SRC_CFG_EN, TIU_SRC_CFG_CORE, TIU_SRC_CFG_CONSUMER, TIU_SRC_CFG_CHANNEL] old w)
  else
    let was := s.srcUser i
    let user := wfld w TIU_SRC_CFG_CONSUMER
    let chan := if srcComp i then wfld w TIU_SRC_CFG_CHANNEL else 0
    let w := setBits w TIU_SRC_CFG_CHANNEL chan
    let claimOk := !srcComp i || user == 0 || s.compOk chan
    let userOk := user != 3 && (user == was || was == 0 || (was == 1 && user == 0)) && claimOk
    s.wr a (d.merge false (keepIf (!userOk) TIU_SRC_CFG_CONSUMER ++ keepIf (decide (wfld w TIU_SRC_CFG_CORE < 2)) TIU_SRC_CFG_CORE
      ++ keepIf (decide (chan > 511) || (srcComp i && (if userOk then user else was) != 0 && !s.compOk chan)) TIU_SRC_CFG_CHANNEL) old w)

/-- The registers of a trigger unit (07_panes_and_triggers.md R227, R228): fields as Table 07-5 allows them, and the unit starts anew.
(DEDUCED, log entry 18). -/
def State.writeTrig (s : State) (d : RegDesc) (u a : Nat) (w : Word) : State :=
  let ty := wfld (if d.base = CAP_TRIG_CFG 0 then w else s.rd (CAP_TRIG_CFG u)) CAP_TRIG_CFG_TYPE
  let sel := wfld w CAP_TRIG_CFG_SEL
  let selOk := if ty ≤ 3 then decide (sel < 512) else if ty = 4 then decide (sel < 64) else if ty = 5 then decide (sel < 4) else true
  let badParam := (ty == 2 && (w.toNat == 0 || decide (w.toNat > 65535))) || (ty == 6 && w.toNat == 0)
  let keep :=
    if d.base = CAP_TRIG_CFG 0 then keepIf (wfld w CAP_TRIG_CFG_SIG == 3) CAP_TRIG_CFG_SIG ++ keepIf (!selOk) CAP_TRIG_CFG_SEL
    else if d.base = CAP_TRIG_PARAM 0 then keepIf badParam CAP_TRIG_PARAM_PARAM
    else []
  let s := s.wr a (d.merge false keep (s.rd a) w)
  s.setTrigger u (s.rd (CAP_TRIG_CFG u)) (s.rd (CAP_TRIG_LINTEL u)).toNat (s.rd (CAP_TRIG_SILL u)).toNat (s.rd (CAP_TRIG_PARAM u)).toNat

/-- CAP registers (07_panes_and_triggers.md R240, R241, Registers). -/
def State.writeCap (s : State) (d : RegDesc) (i a : Nat) (w : Word) : State :=
  let old := s.rd a
  let b := d.base
  if b = CAP_TRIG_CFG 0 ∨ b = CAP_TRIG_LINTEL 0 ∨ b = CAP_TRIG_SILL 0 ∨ b = CAP_TRIG_PARAM 0 then s.writeTrig d i a w
  else if b = CAP_ENG_CFG 0 then
    if s.engArmed i then if wfld w CAP_ENG_CFG_ARM = 0 then s.armWrite i false else s
    else
      let rate := wfld w CAP_ENG_CFG_RATE
      let keep := keepIf (wfld w CAP_ENG_CFG_RETRIG == 3) CAP_ENG_CFG_RETRIG ++ keepIf (wfld w CAP_ENG_CFG_FORMAT == 0) CAP_ENG_CFG_FORMAT
        ++ keepIf (wfld w CAP_ENG_CFG_SOURCE == 0 && !rateOk rate) CAP_ENG_CFG_RATE
      let s := s.wr a (setBits (d.merge false keep old w) CAP_ENG_CFG_ARM 0)
      if wfld w CAP_ENG_CFG_ARM = 1 then s.armWrite i true else s
  else if b = CAP_ENG_CHAN 0 ∨ b = CAP_ENG_PRE 0 ∨ b = CAP_ENG_POST 0 ∨ b = CAP_ENG_MAXLEN 0 ∨ b = CAP_ENG_TRIG 0 then
    let n := wfld w CAP_ENG_CHAN_COUNT
    if s.engArmed i then s
    else s.wr a (d.merge false (keepIf (b == CAP_ENG_CHAN 0 && (n == 0 || decide (n > 64))) CAP_ENG_CHAN_COUNT) old w)
  else if b = CAP_ANN_CFG then
    s.wr a (d.merge false (keepIf (wfld w CAP_ANN_CFG_SCOPE == 0 || wfld w CAP_ANN_CFG_SCOPE == 3) CAP_ANN_CFG_SCOPE
      ++ keepIf (wfld w CAP_ANN_CFG_TTL == 0) CAP_ANN_CFG_TTL) old w)
  else s.wr a (d.merge false [] old w)

/-- The registers of a trip output (08_field_ports_and_outputs.md R261, R266): a write that TRIP_CONFIG would refuse leaves EN at 0, one
under TRIP_LOCK changes nothing. (DEDUCED, log entry 18). -/
def State.writeTrip (s : State) (d : RegDesc) (o a : Nat) (w : Word) : State :=
  if s.on FLD_CTRL FLD_CTRL_TRIP_LOCK then s
  else
    let s := s.wr a (d.merge false [] (s.rd a) w)
    let clean := d.base != FLD_TRIP_CFG 0 || bits w.toNat 10 16 == 0
    let okay := passes (s.tripChecks (s.rd (FLD_TRIP_CFG o)) (s.rd (FLD_TRIP_LINTEL o)).toNat (s.rd (FLD_TRIP_SILL o)).toNat)
    (if clean && okay then s else s.setFld (FLD_TRIP_CFG o) FLD_TRIP_CFG_EN 0).setupTrip o 4

/-- FLD registers (08_field_ports_and_outputs.md R251 to R257, R261, R266, R267, Registers). (DEDUCED, log entry 18). -/
def State.writeFld (s : State) (d : RegDesc) (i a : Nat) (w : Word) : State :=
  let old := s.rd a
  let b := d.base
  if b = FLD_PORT_CFG 0 then
    (s.wr a (d.merge false (keepIf (decide (wfld w FLD_PORT_CFG_MODE > 3)) FLD_PORT_CFG_MODE ++ keepIf (wfld w FLD_PORT_CFG_CHECK == 3) FLD_PORT_CFG_CHECK
      ++ keepIf (wfld w FLD_PORT_CFG_PARITY == 3) FLD_PORT_CFG_PARITY ++ keepIf (decide (wfld w FLD_PORT_CFG_TX_LEN > 4)) FLD_PORT_CFG_TX_LEN
      ++ keepIf (s.srcUser (fpSource i) == 1) FLD_PORT_CFG_STAMP) old w)).setupPort i
  else if b = FLD_PORT_TIMING 0 ∨ b = FLD_PORT_TX 0 then (s.wr a (d.merge false [] old w)).setupPort i
  else if b = FLD_DEC_CFG 0 then
    let n := wfld w FLD_DEC_CFG_WIDTH
    s.setDecoder i fun s =>
      s.wr a (d.merge false (keepIf (decide (wfld w FLD_DEC_CFG_CMP > 4)) FLD_DEC_CFG_CMP ++ keepIf (n == 0 || decide (n > 32)) FLD_DEC_CFG_WIDTH) old w)
  else if b = FLD_DEC_MATCH 0 ∨ b = FLD_DEC_MASK 0 ∨ b = FLD_DEC_LINTEL 0 ∨ b = FLD_DEC_SILL 0 then
    s.setDecoder i fun s => s.wr a (d.merge false [] old w)
  else if b = FLD_TRIP_CFG 0 ∨ b = FLD_TRIP_LINTEL 0 ∨ b = FLD_TRIP_SILL 0 ∨ b = FLD_TRIP_TIME 0 then s.writeTrip d i a w
  else if b = FLD_FOUT_CFG 0 then
    let sel := wfld w FLD_FOUT_CFG_SEL
    let selOk := if wfld w FLD_FOUT_CFG_SRC = 3 then decide (sel < 64) else decide (sel < 512)
    let fits := bits w.toNat 10 18 == 0 && passes (foutChecks w (s.rd (FLD_FOUT_VLO i)).toNat (s.rd (FLD_FOUT_VHI i)).toNat (s.rd (FLD_FOUT_RANGE i)).toNat)
    let s := s.wr a (d.merge false (keepIf (!fits) FLD_FOUT_CFG_MODE ++ keepIf (!selOk) FLD_FOUT_CFG_SEL) old w)
    s.setupFout i (foutMoves old (s.rd a))
  else if b = FLD_FOUT_VLO 0 ∨ b = FLD_FOUT_VHI 0 ∨ b = FLD_FOUT_RANGE 0 then ((s.runFout i).wr a (d.merge false [] old w)).runFout i
  else if b = FLD_CTRL then if wfld w FLD_CTRL_TRIP_LOCK = 1 then s.lockTrips else s
  else s.wr a (d.merge false [] old w)

/-- QM registers: unchanged where the equivalent command would refuse (09_queues_and_retention.md R295, R298, Registers).
(DEDUCED, log entry 17). -/
def State.writeQm (s : State) (d : RegDesc) (i a : Nat) (w : Word) : State :=
  let b := d.base
  if b = QM_Q_CFG 0 then if passes (s.queueRefuses i w (s.rd (QM_Q_WM i))) then s.wr a w else s
  else if b = QM_Q_WM 0 then if passes (s.queueRefuses i (s.rd (QM_Q_CFG i)) w) then s.setWatermark i w else s
  else if b = QM_CTRL then if qmCtrlOk w && bits w.toNat 16 8 == 0 then s.wr a w else s
  else if b = QM_RET_CFG then if retCfgOk w && bits w.toNat 24 7 == 0 then s.wr a w else s
  else s.wr a (d.merge false [] (s.rd a) w)

/-- LNK registers: unchanged where PORT_CONFIG would refuse (11_serial_lanes_and_syrilink.md R360, Registers).
(DEDUCED, log entry 17). -/
def State.writeLnk (s : State) (d : RegDesc) (i a : Nat) (w : Word) : State :=
  let port := fun (cfg cred : Word) =>
    if bits cfg.toNat 12 3 == 0 && bits cred.toNat 16 16 == 0 && s.portWordsOk i cfg cred && s.portFits i cfg then s.configurePort i cfg cred else s
  if d.base = LNK_PORT_CFG 0 then port w (s.rd (LNK_PORT_CREDIT i))
  else if d.base = LNK_PORT_CREDIT 0 then port (s.rd (LNK_PORT_CFG i)) w
  else
    let s := s.wr a (d.merge false [] (s.rd a) w)
    if d.base = LNK_ROUTE_CFG then s.reroute else s

/-- CMD registers: DIRECT_WR is set by a REG_WRITE command alone (12_command_packets.md R400). -/
def State.writeCmd (s : State) (p : Path) (d : RegDesc) (a : Nat) (w : Word) : State :=
  let keep := keepIf (d.base == CMD_SPI_CTRL && p != .command && wfld w CMD_SPI_CTRL_DIRECT_WR == 1) CMD_SPI_CTRL_DIRECT_WR
  s.wr a (d.merge false keep (s.rd a) w)

/-- RED registers: as HEAD_CONFIG op 0 without FORCE, and op 1 (13_head_redundancy.md R431, Registers).
(DEDUCED, log entry 17). -/
def State.writeRed (s : State) (d : RegDesc) (i a : Nat) (w : Word) : State :=
  let head := fun (cfg par wit : Word) =>
    let rsvd := bits cfg.toNat 28 1 == 0 && bits cfg.toNat 9 15 == 0 && bits par.toNat 11 21 == 0 && bits wit.toNat 27 5 == 0 && bits wit.toNat 11 5 == 0
    if s.head != hStandby && s.head != hFenced && rsvd && passes (s.headRefuses cfg par wit false) then s.configureHead cfg par wit else s
  if d.base = RED_CFG then head w (s.rd RED_PARTNER) (s.rd RED_WITNESS)
  else if d.base = RED_PARTNER then head (s.rd RED_CFG) w (s.rd RED_WITNESS)
  else if d.base = RED_WITNESS then head (s.rd RED_CFG) (s.rd RED_PARTNER) w
  else if d.base = RED_WIT_CFG 0 then if bits w.toNat 27 4 == 0 then s.configureWitness i w else s
  else s.wr a (d.merge false [] (s.rd a) w)

/-- MEM registers: layout and rate are stored for the next reset (14_memory_and_ecc.md R438, R441). -/
def State.writeMem (s : State) (d : RegDesc) (a : Nat) (w : Word) : State :=
  let m := d.merge false (keepIf (d.base == MEM_DRAM_CFG && wfld w MEM_DRAM_CFG_RATE == 3) MEM_DRAM_CFG_RATE) (s.rd a) w
  if d.base = MEM_LAYOUT then s.wrNvm a m
  else if d.base = MEM_DRAM_CFG then (s.wr a m).storeNvm a (word (wfld m MEM_DRAM_CFG_RATE))
  else s.wr a m

/-- PMC registers (17_counters_and_test.md R506, R508, R510, R511, Registers). (DEDUCED, log entry 18). -/
def State.writePmc (s : State) (d : RegDesc) (i a : Nat) (w : Word) : State :=
  let old := s.rd a
  if d.base = PMC_CTRL then
    let s := s.setFld a PMC_CTRL_ENABLE (wfld w PMC_CTRL_ENABLE)
    if wfld w PMC_CTRL_CLEAR = 1 then s.pmcZero else s
  else if d.base = PMC_DUMP then s.setDump (d.merge false (keepIf (decide (wfld w PMC_DUMP_PERIOD < 10)) PMC_DUMP_PERIOD) old w)
  else if d.base = PMC_CFG 0 then
    let m := d.merge false (keepIf (pmcInstances (wfld w PMC_CFG_EVENT)).isNone PMC_CFG_EVENT) old w
    s.wr a (if pmcCfgOk m then m else setBits m PMC_CFG_QUAL (wfld old PMC_CFG_QUAL))
  else if d.base = PMC_TONE 0 then s.toneWrite i w
  else s.wr a (d.merge false [] old w)

/-- CAL registers: policy and periods are kept in NVM (16_calibration.md R503). -/
def State.writeCal (s : State) (d : RegDesc) (a : Nat) (w : Word) : State :=
  let m := d.merge false (keepIf (d.base == CAL_POLICY && wfld w CAL_POLICY_TEMP_STEP == 0) CAL_POLICY_TEMP_STEP) (s.rd a) w
  if d.base = CAL_POLICY ∨ d.base = CAL_PERIOD then s.wrNvm a m else s.wr a m

/-- A word goes to half of a 64-bit register on a path (R398): the low word waits in the path's write shadow, the high word writes
both. TB_INCR commits, and the time of an armed action does not change. (DEDUCED, log entry 18). -/
def State.write64 (s : State) (p : Path) (d : RegDesc) (i k : Nat) (w : Word) : State :=
  let a := d.base + d.step * i
  match d.fields.find? fun f => f.acc == .rw with
  | none => s
  | some f =>
    if d.base = TB_ACT_TIME 0 ∧ s.armed i then s
    else if k = 0 then s.onShadow p fun x => { x with write := some (a, w) }
    else if d.base = TB_INCR 0 then s.incrWrite p i w
    else
      let r := s.takeLow p a
      r.2.wr64 a ((w.toNat * 2 ^ 32 + r.1.toNat) % 2 ^ f.width)

/-- One aligned word is written on a path, and is judged under the rules of its register (R395); an unused offset ignores it
(R13). -/
def State.writeReg (s : State) (p : Path) (a : Nat) (w : Word) : State :=
  match findReg a with
  | none => s
  | some (d, i, k) =>
    if d.words = 2 then s.write64 p d i k w
    else
      let w := s.lessFresh d a w
      match a / 0x10000 with
      | 0x0 => s.writeSys d a w
      | 0x1 => s.writeAfe d i a w
      | 0x2 => s.writeConv d i a w
      | 0x3 => s.writeDec d i a w
      | 0x4 => s.writeTb d i a w
      | 0x5 => s.writeTiu d i a w
      | 0x6 => s.writeCap d i a w
      | 0x7 => s.writeFld d i a w
      | 0x8 => s.writeQm d i a w
      | 0xA => s.writeLnk d i a w
      | 0xB => s.writeCmd p d a w
      | 0xC => s.writeRed d i a w
      | 0xD => s.writeMem d a w
      | 0xE => s.writePmc d i a w
      | 0xF => s.writeCal d a w
      | _ => s.wr a (d.merge false (keepIf (d.base == CMP_CTRL && wfld w CMP_CTRL_MAX_ORDER == 3) CMP_CTRL_MAX_ORDER) (s.rd a) w)

/-- Words go to ascending addresses on a path, one in each clock (R395). -/
def State.writeRegs (s : State) (p : Path) (a : Nat) (ws : List Word) : State :=
  (((List.range ws.length).zip ws).foldl (fun x e => (x.setNow (s.now + e.1 * coreClk)).writeReg p (a + 4 * e.1) e.2) s).setNow s.now

/-- Is a range of words one that an access may name: aligned, and within the block windows (R4, R13)? -/
def rangeOk (a n : Nat) : Bool := a % 4 == 0 && decide (a + 4 * n ≤ 0x100000)

/-- Does a range of words hold a writable field whose reset value is NVM, which a hub with NVM failed does not write (14_memory_and_ecc.md
Table 14-8)? (DEDUCED, log entry 19). -/
def State.nvmRefuses (s : State) (a n : Nat) : Bool :=
  s.memFailed 3 && (List.range n).any fun j => match findReg (a + 4 * j) with
    | some (d, _, _) => d.fields.any fun f => f.nvm && (f.acc == .rw || f.acc == .rwl || f.acc == .w1c || f.acc == .w1s)
    | none => false

/-- REG_READ (0x0004), R394. -/
def bodyRegRead : Body := fun _ ps s =>
  let a := num ps 0 4
  let n := num ps 4 4
  checked s [need (decide (1 ≤ n) && decide (n ≤ 1023) && rangeOk a n) stBAD_PARAM]
    (let r := s.readRegs .command a n coreClk
     .reply r.2 stOK (r.1.flatMap fun w => le 4 w.toNat))

/-- The meaning of REG_READ. -/
def execRegRead (t : Nat) (p : Packet) (s : State) : Host.Outcome State Fault Refusal := command 0x0004 bodyRegRead t p s

/-- REG_WRITE (0x0005), R395. -/
def bodyRegWrite : Body := fun _ ps s =>
  let a := num ps 0 4
  let n := num ps 4 4
  checked s [need (decide (1 ≤ n) && decide (n ≤ 1022) && rangeOk a n) stBAD_PARAM, need (!s.nvmRefuses a n) stMEM_UNCORRECTABLE]
    (ok (s.writeRegs .command a ((wordsOf (ps.drop 8) n).map word)))

/-- The meaning of REG_WRITE. -/
def execRegWrite (t : Nat) (p : Packet) (s : State) : Host.Outcome State Fault Refusal := command 0x0005 bodyRegWrite t p s

/-- REG_READ64 (0x0006), R396. (DEDUCED, log entry 19). -/
def bodyRegRead64 : Body := fun _ ps s =>
  let a := num ps 0 4
  checked s [need (a % 8 == 0 && rangeOk a 2) stBAD_PARAM]
    (let r := s.readRegs .command a 2 0
     .reply r.2 stOK (r.1.flatMap fun w => le 4 w.toNat))

/-- The meaning of REG_READ64. -/
def execRegRead64 (t : Nat) (p : Packet) (s : State) : Host.Outcome State Fault Refusal := command 0x0006 bodyRegRead64 t p s

/-- REGISTER_WRITE: one word is written on a path; an address that an access may not name is refused (R4, R7, R13).
(DEDUCED, log entry 19). -/
def State.registerWrite (s : State) (p : Path) (a : Nat) (w : Word) : State :=
  if rangeOk a 1 && !s.nvmRefuses a 1 then s.writeReg p a w else s

/-- The meaning of REGISTER_WRITE. -/
def execRegisterWrite (t : Nat) (p : Path) (a : Nat) (w : Word) (s : State) : Host.Outcome State Fault Refusal :=
  event t (fun s => s.registerWrite p a w) s

end Sys2Proof.Machine
end

