-- ==== Sys2Proof/Machine/CmdBlock.lean ====
section
/-!
DEFINITION. The CMD block (12_command_packets.md R386 to R406, R542 to R544): credentials, ABORT, timeouts and expiries, relayed
packets and replies, the service SPI; and the end of a Porter reload (15_porter_management.md R457, R458).
-/

namespace Sys2Proof.Machine

open Reg Bits

/-- The commit point of an operation whose end is settled as it runs: the end of a gate (06_interval_unit.md R197), the end of the last
point of a peephole scan (11_serial_lanes_and_syrilink.md R356). -/
def State.commitAt (s : State) (c : Caller) : Option Nat :=
  match s.tiu.gates.find? fun g => g.caller == c with
  | some g => if g.pausedAt.isSome then none else g.openAt.map fun a => a + g.paused + fineMs g.gateMs
  | none => (s.lnk.scans.find? fun x => x.caller == c).map fun x => s.scanEnd x

/-- Is a long operation in the clock of its commit point or past it, with its report still to come: one whose commit point the present
clock has reached, or a SWITCHOVER that has committed (13_head_redundancy.md Table 13-10)? The others report at their commit point. -/
def State.committed (s : State) (c : Caller) : Bool :=
  (s.commitAt c).any (fun a => decide (a / coreClk ≤ s.clock)) ||
  (c.opcode == 0xC006 && match s.red.drill with
    | some d => d.caller == c && d.committedAt.isSome
    | none => false)

/-- ABORT (0x0040), R390. A LANE_EYE_SCAN that is stopped sends no report (11_serial_lanes_and_syrilink.md R356).
(DEDUCED, log entry 11). -/
def bodyAbort : Body := fun c ps s =>
  let tag := num ps 0 2
  let op := num ps 2 2
  match s.cmd.ops.find? fun o => o.caller.tag == tag && o.caller.opcode == op && o.caller.source == c.source with
  | some o =>
    if s.committed o.caller then refuse s stDONE_BEFORE_ABORT
    else
      let s := s.stopOp o.caller
      let s := if op = 0xA003 then s.onCmd fun m => { m with ops := m.ops.filter fun x => x.caller != o.caller } else s.report o.caller stABORTED []
      .reply s stABORTED []
  | none =>
    let done := s.cached.any fun e => e.report && e.tag == tag && e.opcode == op && e.source == c.source
    if done then refuse s stDONE_BEFORE_ABORT
    else match opRow op with
      | some r => refuse s (if r.kind == .l then stBAD_PARAM else stBAD_STATE)
      | none => refuse s stBAD_PARAM

/-- The meaning of ABORT. -/
def execAbort (t : Nat) (p : Packet) (s : State) : Host.Outcome State Fault Refusal := command 0x0040 bodyAbort t p s

/-- A credential slot is stored, with its last accepted counter (R403, R404). (DEDUCED, log entry 12). -/
def State.putCred (s : State) (k : Nat) (c : Cred) : State :=
  (s.onNvm fun n => { n with creds := n.creds.mapIdx fun i x => if i == k then c else x }).setFld (CMD_SLOT_CTR k) CMD_SLOT_CTR_LAST 0

/-- CRED_INSTALL (0xB001), R403, R405: the key is unwrapped under the key the command was authenticated with, which tags the reply. -/
def bodyCredInstall : Body := fun c ps s =>
  let k := num ps 0 1
  let perms := num ps 2 2
  match if 1 ≤ k ∧ k ≤ 15 ∧ perms < 4096 ∧ zeroAt ps 1 1 ∧ zeroAt ps 28 4 then keyUnwrap c.key (bytesAt ps 4 24) else none with
  | none => refuse s stBAD_PARAM
  | some key => ok ((s.putCred k ⟨true, key, perms, 65536⟩).issue 0xB003 [k, 0, perms, c.source])

/-- The meaning of CRED_INSTALL. -/
def execCredInstall (t : Nat) (p : Packet) (s : State) : Host.Outcome State Fault Refusal := command 0xB001 bodyCredInstall t p s

/-- CRED_REVOKE (0xB002), R404: revoking an empty slot changes nothing. (DEDUCED, log entry 12). -/
def bodyCredRevoke : Body := fun c ps s =>
  let k := num ps 0 1
  checked s [need (1 ≤ k && k ≤ 15 && zeroAt ps 1 3) stBAD_PARAM]
    (match s.cred k with
     | some old => ok ((s.putCred k ⟨false, [], 0, 0⟩).issue 0xB003 [k, 1, old.perms, c.source])
     | none => ok s)

/-- The meaning of CRED_REVOKE. -/
def execCredRevoke (t : Nat) (p : Packet) (s : State) : Host.Outcome State Fault Refusal := command 0xB002 bodyCredRevoke t p s

/-- A slot's key check: the first four bytes of the encryption of a zero block (R406). -/
def keyCheck (key : List Byte) : List Byte := ((aesEnc (key.map BitVec.toNat) (List.replicate 16 0)).take 4).map byte

/-- One slot's entry of CRED_STATUS (R406). -/
def State.credEntry (s : State) (k : Nat) : List Byte :=
  match s.cred k with
  | some c => le 1 k ++ le 1 1 ++ le 2 c.perms ++ le 4 (s.lastCtr k) ++ keyCheck c.key
  | none => le 1 k ++ le 1 0 ++ le 2 0 ++ le 4 (s.lastCtr k) ++ le 4 0

/-- CRED_STATUS (0xB003), R406. -/
def bodyCredStatus : Body := fun _ _ s => .reply s stOK ((List.range 16).flatMap s.credEntry)

/-- The meaning of CRED_STATUS. -/
def execCredStatus (t : Nat) (p : Packet) (s : State) : Host.Outcome State Fault Refusal := command 0xB003 bodyCredStatus t p s

/-- FREQ_MEASURE in a relayed packet or an SPI frame, whose rows do not tell what the check before the drive measures: that is free.
(DESIGN CHOICE, log entry 50). -/
def bodyFreqRelayed : Body := fun c ps s =>
  let r := (List.range 8).foldl (fun (a : List Nat × State) _ => let k := a.2.draw; (a.1 ++ [(Config.loopRead k.1).toNat], k.2)) ([], s)
  bodyFreqMeasure r.1 c ps r.2

/-- The body of an opcode (Table 12-5), blocks 0x0 to 0x6. -/
def bodyLow (op : Nat) : Option Body :=
  match op with
  | 0x0001 => some bodyPing
  | 0x0002 => some bodyIdentify
  | 0x0003 => some bodySetPowerState
  | 0x0004 => some bodyRegRead
  | 0x0005 => some bodyRegWrite
  | 0x0006 => some bodyRegRead64
  | 0x0007 => some bodySoftReset
  | 0x0010 => some bodyUpdateBegin
  | 0x0011 => some bodyUpdateData
  | 0x0012 => some bodyUpdateCommit
  | 0x0013 => some bodyUpdateActivate
  | 0x0020 => some bodyLogRead
  | 0x0021 => some bodyLogMark
  | 0x0030 => some bodySensorRead
  | 0x0040 => some bodyAbort
  | 0x1001 => some bodyChConfig
  | 0x1002 => some bodyChQuery
  | 0x1003 => some bodyBayExcitation
  | 0x1004 => some bodyChTestInject
  | 0x1005 => some bodyClampStatus
  | 0x2001 => some bodyBayMode
  | 0x2002 => some bodyTransomSequence
  | 0x2003 => some bodyTransomUrgent
  | 0x3001 => some bodyChainConfig
  | 0x3002 => some bodyDetectorConfig
  | 0x3003 => some bodyStreamEnable
  | 0x4001 => some bodyTimeRead
  | 0x4002 => some bodyTimeDomainConfig
  | 0x4003 => some bodyTimeSelectDomain
  | 0x4004 => some bodyTimeSchedule
  | 0x4005 => some bodyTimeAsymmetrySet
  | 0x4006 => some bodyTimeStatus
  | 0x5001 => some bodyTiuRoute
  | 0x5002 => some bodyFreqRelayed
  | 0x5003 => some bodyStampRead
  | 0x6001 => some bodyTriggerConfig
  | 0x6002 => some bodyPaneOpen
  | 0x6003 => some bodyPaneClose
  | 0x6004 => some bodyTriggerAnnounce
  | 0x6005 => some bodyHistoryExtract
  | 0x6006 => some bodyMeasureConfig
  | _ => none

/-- The body of an opcode, blocks 0x7 to 0xF. -/
def bodyHigh (op : Nat) : Option Body :=
  match op with
  | 0x7001 => some bodyFieldPortConfig
  | 0x7002 => some bodyFieldDecoderConfig
  | 0x7003 => some bodyTripConfig
  | 0x7004 => some bodyFoutConfig
  | 0x7005 => some bodyTripReset
  | 0x8001 => some bodyQueueConfig
  | 0x8002 => some bodyQueueStatus
  | 0x8003 => some bodyRelease
  | 0x8004 => some bodyRetentionConfig
  | 0x8005 => some bodyShutter
  | 0x8006 => some bodyShutterOpen
  | 0x9001 => some bodyCmpConfig
  | 0x9002 => some bodyCmpJob
  | 0x9003 => some bodyCmpFlush
  | 0xA001 => some bodyPortConfig
  | 0xA002 => some bodyPortStatus
  | 0xA003 => some bodyLaneEyeScan
  | 0xA004 => some bodyLanePattern
  | 0xA005 => some bodyLaneLoopback
  | 0xA006 => some bodyPortRetrain
  | 0xB001 => some bodyCredInstall
  | 0xB002 => some bodyCredRevoke
  | 0xB003 => some bodyCredStatus
  | 0xC001 => some bodyHeadConfig
  | 0xC002 => some bodyHeadStatus
  | 0xC003 => some bodyLatchRequest
  | 0xC004 => some bodyLatchRenew
  | 0xC005 => some bodyLatchRelease
  | 0xC006 => some bodyHeadDrill
  | 0xD001 => some bodyScrub
  | 0xD002 => some bodyMemStatus
  | 0xD003 => some bodyMemInject
  | 0xE001 => some bodyPmcConfig
  | 0xE002 => some bodyPmcRead
  | 0xE003 => some bodyPmcDumpConfig
  | 0xF001 => some bodyCalRun
  | 0xF002 => some bodyCalStatus
  | 0xF003 => some bodyCalCoeffRead
  | 0xF004 => some bodyCalPolicy
  | _ => none

/-- The body of an opcode; one that Table 12-5 does not hold is refused before any body runs (R378 step 8). -/
def bodyOf (op : Nat) : Body :=
  match bodyLow op with
  | some b => b
  | none => (bodyHigh op).getD fun _ _ s => refuse s stBAD_OPCODE

/-- PACKET_RELAY: a packet that may not be for this hub (R370, R371). -/
def execPacketRelay (t op : Nat) (p : Packet) (s : State) : Host.Outcome State Fault Refusal := command op (bodyOf op) t p s

/-- REPLY_RECEIVED: a packet with REPLY set (R544). -/
def execReplyReceived (t op : Nat) (p : Packet) (s : State) : Host.Outcome State Fault Refusal := command op (bodyOf op) t p s

/-- COMMAND_TIMEOUT: Porter has not replied to a command of kind P within 1 s (R387). -/
def State.commandTimeout (s : State) (op : Nat) (p : Packet) : State :=
  let hit := fun (e : Caller × Nat) => e.1.opcode == op && e.1.tag == p.tag && e.1.source == p.source && e.1.slot == p.slot && e.1.counter == p.counter
    && decide (s.now ≥ e.2 + fineMs 1000) && ((opRow op).map OpRow.kind) == some .p
  match s.cmd.inflight.find? hit with
  | some e => s.timeOut e.1 0
  | none => s

/-- The meaning of COMMAND_TIMEOUT. -/
def execCommandTimeout (t op : Nat) (p : Packet) (s : State) : Host.Outcome State Fault Refusal := event t (fun s => s.commandTimeout op p) s

/-- SEEN_CACHE_EXPIRY: entries go 8 s after their packet (R372). -/
def State.expireSeen (s : State) : State := s.onCmd fun m => { m with seen := m.seen.filter fun e => decide (s.now < e.at_ + fineMs 8000) }

/-- The meaning of SEEN_CACHE_EXPIRY. -/
def execSeenCacheExpiry (t : Nat) (s : State) : Host.Outcome State Fault Refusal := event t State.expireSeen s

/-- REPLY_CACHE_EXPIRY: entries go 60 s after their command (R386). -/
def State.expireReplies (s : State) : State := s.onCmd fun m => { m with cache := m.cache.filter fun e => decide (s.now < e.at_ + fineMs 60000) }

/-- The meaning of REPLY_CACHE_EXPIRY. -/
def execReplyCacheExpiry (t : Nat) (s : State) : Host.Outcome State Fault Refusal := event t State.expireReplies s

/-- A command that waited in Q56 is carried out by Porter; one that has ended with TIMEOUT gets no reply (R387, R405).
(DEDUCED, log entry 10). -/
def State.carryQueued (s : State) (op : Nat) (p : Packet) : State :=
  let mine := fun (e : Caller × Nat) => e.1.opcode == op && e.1.tag == p.tag && e.1.source == p.source && e.1.slot == p.slot && e.1.counter == p.counter
  match s.cmd.inflight.find? mine with
  | none => s
  | some e =>
    match bodyOf op e.1 p.params (s.pmc 0x002 0 1) with
    | .reply s st data => s.answer e.1 st data
    | .long s => (s.onCmd fun m => { m with ops := m.ops ++ [⟨e.1⟩] }).answer e.1 stACCEPTED []
    | .quiet s => s

/-- PORTER_RELOAD_DONE: Porter resumes and carries out what waits in Q56 in order, or a failed verification is a hub reset with cause
0x06 (R385, R387; 15_porter_management.md R457, R458). (DEDUCED, log entry 38). -/
def State.reloadDone (s : State) (fine : Bool) : State :=
  if !s.sys.reloading then s
  else if !fine then s.hubReset 6
  else
    let queued := s.qm.items.filterMap fun i => match i.ctl with
      | .packet op p => if i.q = 56 then some (op, p) else none
      | _ => none
    let s := (s.onSys fun y => { y with reloading := false }).onQm fun m => { m with items := m.items.filter fun i => i.q != 56 }
    queued.foldl (fun s e => s.carryQueued e.1 e.2) s

/-- The meaning of PORTER_RELOAD_DONE. -/
def execPorterReloadDone (t : Nat) (fine : Bool) (s : State) : Host.Outcome State Fault Refusal := event t (State.reloadDone · fine) s

/-- The oldest packet of Q61, once all of it has entered (R399). (DEDUCED, log entry 14). -/
def State.q61Head (s : State) : Option (QItem × Nat × Packet) :=
  s.qm.items.findSome? fun i => match i.ctl with
    | .packet op p => if i.q = 61 ∧ i.entered = i.cells then some (i, op, p) else none
    | _ => none

/-- IRQ_N is low while a reply is ready, FRAME_ERR is set, or memory 2 holds the hub in BOOT (R401; 14_memory_and_ecc.md R450). -/
def State.irqLow (s : State) : Bool := s.q61Head.isSome || s.on CMD_SPI_CTRL CMD_SPI_CTRL_FRAME_ERR || s.sys.phase == .held

/-- A service SPI frame is counted, with the bytes the slave drives in it (R399). -/
def State.spiFrame (s : State) (out : List Byte) : State := (s.bump CMD_SPI_CTRL CMD_SPI_CTRL_FRAMES).onCmd fun m => { m with spiOut := out }

/-- A frame is ignored or discarded (R399 to R401). -/
def State.spiBad (s : State) : State := (s.spiFrame []).setBit CMD_SPI_CTRL CMD_SPI_CTRL_FRAME_ERR 0

/-- The status byte (Table 12-7, R542). -/
def State.spiStatusByte (s : State) : Nat :=
  b2n (s.booted && decide (18 ≤ s.room 60)) + 2 * b2n (s.booted && s.q61Head.isSome) + 4 * b2n s.booted + 8 * b2n s.isMinimal
    + 16 * s.fld CMD_SPI_CTRL CMD_SPI_CTRL_FRAME_ERR

/-- The meaning of SPI_STATUS. -/
def execSpiStatus (t : Nat) (s : State) : Host.Outcome State Fault Refusal := event t (fun s => s.spiFrame (le 1 s.spiStatusByte)) s

/-- May a direct read be answered: from the lock of the core PLL, and with memory 2 failed for two registers alone (R542;
14_memory_and_ecc.md R450)? (DEDUCED, log entry 13). -/
def State.directReadOk (s : State) (a n : Nat) : Bool :=
  match s.sys.phase with
  | .waitPfw => false
  | .held => n == 1 && (a == MEM_BOOT_STAT || a == SYS_PWR_STATE)
  | _ => true

/-- SPI_REG_READ: 0x5A, then the words (R400). (DEDUCED, log entry 13). -/
def State.spiRead (s : State) (a n : Nat) : State :=
  if !(decide (1 ≤ n) && decide (n ≤ 64) && rangeOk a n && s.directReadOk a n) then s.spiBad
  else
    let r := (s.spiFrame []).readRegs .spi a n coreClk
    r.2.onCmd fun m => { m with spiOut := le 1 0x5A ++ r.1.flatMap fun w => le 4 w.toNat }

/-- The meaning of SPI_REG_READ. -/
def execSpiRegRead (t a n : Nat) (s : State) : Host.Outcome State Fault Refusal := event t (fun s => s.spiRead a n) s

/-- SPI_REG_WRITE: the words are written while DIRECT_WR is set, else the frame writes nothing and sets FRAME_ERR (R400, R542). -/
def State.spiWrite (s : State) (a : Nat) (ws : List Word) : State :=
  let n := ws.length
  if !(s.booted && s.on CMD_SPI_CTRL CMD_SPI_CTRL_DIRECT_WR && decide (1 ≤ n) && decide (n ≤ 64) && rangeOk a n && !s.nvmRefuses a n) then s.spiBad
  else (s.spiFrame []).writeRegs .spi a ws

/-- The meaning of SPI_REG_WRITE. -/
def execSpiRegWrite (t a : Nat) (ws : List Word) (s : State) : Host.Outcome State Fault Refusal := event t (fun s => s.spiWrite a ws) s

/-- The packet that bytes spell, less its opcode (Table 12-1). -/
def packetOf (bs : List Byte) : Packet :=
  { arrival := 8, version := num bs 0 1, flags := num bs 1 1, tag := num bs 4 2, source := num bs 6 2, dest := num bs 8 2, length := num bs 10 2,
    slot := num bs 12 2, rsvd14 := num bs 14 2, counter := num bs 16 4, ttl := num bs 20 1, b21 := num bs 21 1, rsvd22 := bytesAt bs 22 10,
    params := (bs.drop 32).take (bs.length - 48), mac := bs.drop (bs.length - 16) }

/-- SPI_PKT_WRITE: a whole packet with a right CRC enters Q60, from which the command engine takes it at once; else FRAME_ERR (R401,
R542). (DEDUCED, log entry 13). -/
def State.spiPacket (s : State) (bs : List Byte) (crc : Nat) (complete : Bool) : State :=
  let n := bs.length
  if !(s.booted && complete && decide (48 ≤ n) && decide (n ≤ 4144) && crc == crc32c bs && decide (ceilDiv n 240 ≤ s.room 60)) then s.spiBad
  else
    let op := num bs 2 2
    (s.spiFrame []).receive (bodyOf op) op (packetOf bs)

/-- The meaning of SPI_PKT_WRITE. -/
def execSpiPktWrite (t : Nat) (bs : List Byte) (crc : Nat) (complete : Bool) (s : State) : Host.Outcome State Fault Refusal :=
  event t (fun s => s.spiPacket bs crc complete) s

/-- SPI_PKT_READ: 0x5A, length, packet, CRC-32C; the packet leaves Q61 only where the whole of it was clocked (R401, R542).
(DEDUCED, log entry 13). -/
def State.spiFetch (s : State) (complete : Bool) : State :=
  match if s.booted then s.q61Head else none with
  | none => s.spiFrame (le 1 0x5A ++ le 2 0 ++ le 4 (crc32c []))
  | some (i, op, p) =>
    let bs := packetBytes op p
    let s := s.spiFrame (le 1 0x5A ++ le 2 bs.length ++ bs ++ le 4 (crc32c bs))
    if complete then (s.onQm fun m => { m with items := m.items.filter fun j => j.iid != i.iid }).replyLeft (.packet op p) else s

/-- The meaning of SPI_PKT_READ. -/
def execSpiPktRead (t : Nat) (complete : Bool) (s : State) : Host.Outcome State Fault Refusal := event t (State.spiFetch · complete) s

/-- SPI_FRAME_IGNORED: a code that Table 12-7 does not hold is ignored and sets FRAME_ERR (R399). (DEDUCED, log entry 13). -/
def State.spiIgnored (s : State) (code : Byte) : State :=
  if [0x05#8, 0x0B#8, 0x02#8, 0x12#8, 0x13#8].contains code then s else s.spiBad

/-- The meaning of SPI_FRAME_IGNORED. -/
def execSpiFrameIgnored (t : Nat) (code : Byte) (s : State) : Host.Outcome State Fault Refusal := event t (State.spiIgnored · code) s

end Sys2Proof.Machine
end

