-- ==== Sys2Proof/Machine/Dispatch.lean ====
section
/-!
DEFINITION. The dispatch of commands to their meanings: one arm per row of the table of operations and events.
-/

namespace Sys2Proof.Machine

/-- The effect of a command on everything but the queue. -/
def exec (i : Instr) (s : State) : Host.Outcome State Fault Refusal :=
  match i with
  | .powerOn t => Sys2Proof.Machine.execPowerOn t s
  | .resetNPulse t widthNs => Sys2Proof.Machine.execResetNPulse t widthNs s
  | .supplyBrownout t durNs => Sys2Proof.Machine.execSupplyBrownout t durNs s
  | .pfwNFall t => Sys2Proof.Machine.execPfwNFall t s
  | .pfwRecoveryReset t => Sys2Proof.Machine.execPfwRecoveryReset t s
  | .memoryFillDone t r => Sys2Proof.Machine.execMemoryFillDone t r s
  | .bootOk t refused => Sys2Proof.Machine.execBootOk t refused s
  | .bootTimeout t => Sys2Proof.Machine.execBootTimeout t s
  | .watchdogExpiry t => Sys2Proof.Machine.execWatchdogExpiry t s
  | .lockstepMismatch t => Sys2Proof.Machine.execLockstepMismatch t s
  | .powerTransitionDone t => Sys2Proof.Machine.execPowerTransitionDone t s
  | .sensorPoll t => Sys2Proof.Machine.execSensorPoll t s
  | .bbAllowanceRefill t => Sys2Proof.Machine.execBbAllowanceRefill t s
  | .configStoreWrite t => Sys2Proof.Machine.execConfigStoreWrite t s
  | .consoleStatusQuery t c => Sys2Proof.Machine.execConsoleStatusQuery t c s
  | .crystalSecond t refSpan => Sys2Proof.Machine.execCrystalSecond t refSpan s
  | .incrementBoundary t => Sys2Proof.Machine.execIncrementBoundary t s
  | .timeBlockReceived t p seq => Sys2Proof.Machine.execTimeBlockReceived t p seq s
  | .timeCellReceived t p cell => Sys2Proof.Machine.execTimeCellReceived t p cell s
  | .holdoverEntry t d => Sys2Proof.Machine.execHoldoverEntry t d s
  | .ppsEdge t d falling => Sys2Proof.Machine.execPpsEdge t d falling s
  | .todMessage t n bytes start => Sys2Proof.Machine.execTodMessage t n bytes start s
  | .timedActionLaunch t slot => Sys2Proof.Machine.execTimedActionLaunch t slot s
  | .edgeStamp t src falling others => Sys2Proof.Machine.execEdgeStamp t src falling others s
  | .loopUnlock t v slow => Sys2Proof.Machine.execLoopUnlock t v slow s
  | .vernierCalDone t v values quality => Sys2Proof.Machine.execVernierCalDone t v values quality s
  | .freqGateOpen t b => Sys2Proof.Machine.execFreqGateOpen t b s
  | .freqGateClose t b => Sys2Proof.Machine.execFreqGateClose t b s
  | .rawCodeArrival t c code => Sys2Proof.Machine.execRawCodeArrival t c code s
  | .chargeReset t c => Sys2Proof.Machine.execChargeReset t c s
  | .clampOnset t c until_ => Sys2Proof.Machine.execClampOnset t c until_ s
  | .excLimit t b => Sys2Proof.Machine.execExcLimit t b s
  | .pilotWindow t c r => Sys2Proof.Machine.execPilotWindow t c r s
  | .testTick t caps => Sys2Proof.Machine.execTestTick t caps s
  | .injectOppositeEdge t c => Sys2Proof.Machine.execInjectOppositeEdge t c s
  | .outputSampleDelivered t c br idx => Sys2Proof.Machine.execOutputSampleDelivered t c br idx s
  | .streamStart t c => Sys2Proof.Machine.execStreamStart t c s
  | .timeTrigger t u => Sys2Proof.Machine.execTimeTrigger t u s
  | .tripStale t o => Sys2Proof.Machine.execTripStale t o s
  | .tripMinOnExpiry t o => Sys2Proof.Machine.execTripMinOnExpiry t o s
  | .paneHeldTime t id => Sys2Proof.Machine.execPaneHeldTime t id s
  | .paneCut t id => Sys2Proof.Machine.execPaneCut t id s
  | .extractServe t tag source => Sys2Proof.Machine.execExtractServe t tag source s
  | .historyRepartition t => Sys2Proof.Machine.execHistoryRepartition t s
  | .burstWindowWake t b => Sys2Proof.Machine.execBurstWindowWake t b s
  | .burstWindowEnd t b => Sys2Proof.Machine.execBurstWindowEnd t b s
  | .reliefCompareEnd t k diffs => Sys2Proof.Machine.execReliefCompareEnd t k diffs s
  | .bayCalibrationDone t k values => Sys2Proof.Machine.execBayCalibrationDone t k values s
  | .transomPeriodTrigger t => Sys2Proof.Machine.execTransomPeriodTrigger t s
  | .trigInEdge t j falling => Sys2Proof.Machine.execTrigInEdge t j falling s
  | .transomEntryDone t codes => Sys2Proof.Machine.execTransomEntryDone t codes s
  | .transomCalibrationDone t => Sys2Proof.Machine.execTransomCalibrationDone t s
  | .fieldPortPoll t n => Sys2Proof.Machine.execFieldPortPoll t n s
  | .frameReceived t n chars charError => Sys2Proof.Machine.execFrameReceived t n chars charError s
  | .pushResumed t q => Sys2Proof.Machine.execPushResumed t q s
  | .spill t rid => Sys2Proof.Machine.execSpill t rid s
  | .retentionReturn t rid => Sys2Proof.Machine.execRetentionReturn t rid s
  | .rewindTimeout t q => Sys2Proof.Machine.execRewindTimeout t q s
  | .rewindApply t q => Sys2Proof.Machine.execRewindApply t q s
  | .shutterExpiry t n => Sys2Proof.Machine.execShutterExpiry t n s
  | .eventRecordClose t => Sys2Proof.Machine.execEventRecordClose t s
  | .cmpRecordDone t rid => Sys2Proof.Machine.execCmpRecordDone t rid s
  | .cmpJobDone t tag source => Sys2Proof.Machine.execCmpJobDone t tag source s
  | .cmpFlushDrained t => Sys2Proof.Machine.execCmpFlushDrained t s
  | .portTrainingStart t p => Sys2Proof.Machine.execPortTrainingStart t p s
  | .trainIdentReceived t p ident => Sys2Proof.Machine.execTrainIdentReceived t p ident s
  | .trainReadyReceived t p markers => Sys2Proof.Machine.execTrainReadyReceived t p markers s
  | .trainingTimeout t p => Sys2Proof.Machine.execTrainingTimeout t p s
  | .trainingRestart t p => Sys2Proof.Machine.execTrainingRestart t p s
  | .mismatchRetry t p => Sys2Proof.Machine.execMismatchRetry t p s
  | .laneLost t l f => Sys2Proof.Machine.execLaneLost t l f s
  | .restripeReceived t p mask ack => Sys2Proof.Machine.execRestripeReceived t p mask ack s
  | .laneReadmitted t l lockAt skew => Sys2Proof.Machine.execLaneReadmitted t l lockAt skew s
  | .idleFreeze t l => Sys2Proof.Machine.execIdleFreeze t l s
  | .idleRefresh t l => Sys2Proof.Machine.execIdleRefresh t l s
  | .egressCellStart t p => Sys2Proof.Machine.execEgressCellStart t p s
  | .cellReceived t p blocks => Sys2Proof.Machine.execCellReceived t p blocks s
  | .linkBlockReceived t p blk => Sys2Proof.Machine.execLinkBlockReceived t p blk s
  | .linkBlockSend t p => Sys2Proof.Machine.execLinkBlockSend t p s
  | .replayTimeout t p => Sys2Proof.Machine.execReplayTimeout t p s
  | .linkStateRefresh t => Sys2Proof.Machine.execLinkStateRefresh t s
  | .linkStateReceived t p ls => Sys2Proof.Machine.execLinkStateReceived t p ls s
  | .linkStateExpiry t origin => Sys2Proof.Machine.execLinkStateExpiry t origin s
  | .transitHoldExpiry t => Sys2Proof.Machine.execTransitHoldExpiry t s
  | .modulePoll t p r => Sys2Proof.Machine.execModulePoll t p r s
  | .eyeScanDone t p counts => Sys2Proof.Machine.execEyeScanDone t p counts s
  | .packetRelay t op p => Sys2Proof.Machine.execPacketRelay t op p s
  | .replyReceived t op p => Sys2Proof.Machine.execReplyReceived t op p s
  | .commandTimeout t op p => Sys2Proof.Machine.execCommandTimeout t op p s
  | .seenCacheExpiry t => Sys2Proof.Machine.execSeenCacheExpiry t s
  | .replyCacheExpiry t => Sys2Proof.Machine.execReplyCacheExpiry t s
  | .spiStatus t => Sys2Proof.Machine.execSpiStatus t s
  | .spiRegRead t addr n => Sys2Proof.Machine.execSpiRegRead t addr n s
  | .spiRegWrite t addr words => Sys2Proof.Machine.execSpiRegWrite t addr words s
  | .spiPktWrite t bytes crc complete => Sys2Proof.Machine.execSpiPktWrite t bytes crc complete s
  | .spiPktRead t complete => Sys2Proof.Machine.execSpiPktRead t complete s
  | .spiFrameIgnored t code => Sys2Proof.Machine.execSpiFrameIgnored t code s
  | .heartbeatSend t => Sys2Proof.Machine.execHeartbeatSend t s
  | .heartbeatReceived t p h => Sys2Proof.Machine.execHeartbeatReceived t p h s
  | .pathFailed t ring => Sys2Proof.Machine.execPathFailed t ring s
  | .pathRestored t ring => Sys2Proof.Machine.execPathRestored t ring s
  | .latchRenewSend t => Sys2Proof.Machine.execLatchRenewSend t s
  | .leaseExpiry t => Sys2Proof.Machine.execLeaseExpiry t s
  | .latchRequestSend t => Sys2Proof.Machine.execLatchRequestSend t s
  | .startHoldoffExpiry t => Sys2Proof.Machine.execStartHoldoffExpiry t s
  | .witnessLeaseExpiry t k => Sys2Proof.Machine.execWitnessLeaseExpiry t k s
  | .quietPeriodEnd t k => Sys2Proof.Machine.execQuietPeriodEnd t k s
  | .mirrorReceived t p m => Sys2Proof.Machine.execMirrorReceived t p m s
  | .mirrorResend t => Sys2Proof.Machine.execMirrorResend t s
  | .mirrorStateRefresh t => Sys2Proof.Machine.execMirrorStateRefresh t s
  | .digestSend t => Sys2Proof.Machine.execDigestSend t s
  | .digestReceived t p d => Sys2Proof.Machine.execDigestReceived t p d s
  | .digestTimeout t => Sys2Proof.Machine.execDigestTimeout t s
  | .ledgerReplaySend t => Sys2Proof.Machine.execLedgerReplaySend t s
  | .switchoverTimeout t => Sys2Proof.Machine.execSwitchoverTimeout t s
  | .drillDone t => Sys2Proof.Machine.execDrillDone t s
  | .dramTempPoll t mr4 => Sys2Proof.Machine.execDramTempPoll t mr4 s
  | .scrubDone t => Sys2Proof.Machine.execScrubDone t s
  | .calPeriodExpiry t g => Sys2Proof.Machine.execCalPeriodExpiry t g s
  | .calGroupStart t g => Sys2Proof.Machine.execCalGroupStart t g s
  | .calGroupDone t g values quality => Sys2Proof.Machine.execCalGroupDone t g values quality s
  | .calRetry t g => Sys2Proof.Machine.execCalRetry t g s
  | .pmcDump t => Sys2Proof.Machine.execPmcDump t s
  | .jtagInstruction t j => Sys2Proof.Machine.execJtagInstruction t j s
  | .registerWrite t path addr w => Sys2Proof.Machine.execRegisterWrite t path addr w s
  | .nextAddrWrite t a => Sys2Proof.Machine.execNextAddrWrite t a s
  | .tbIncrCommit t path d hi => Sys2Proof.Machine.execTbIncrCommit t path d hi s
  | .anchorGo t d => Sys2Proof.Machine.execAnchorGo t d s
  | .timedActionArm t slot w => Sys2Proof.Machine.execTimedActionArm t slot w s
  | .timedActionCancel t slot => Sys2Proof.Machine.execTimedActionCancel t slot s
  | .transomStart t => Sys2Proof.Machine.execTransomStart t s
  | .transomCommit t => Sys2Proof.Machine.execTransomCommit t s
  | .engineArmWrite t e arm => Sys2Proof.Machine.execEngineArmWrite t e arm s
  | .tripLock t => Sys2Proof.Machine.execTripLock t s
  | .consoleLock t => Sys2Proof.Machine.execConsoleLock t s
  | .pmcClear t => Sys2Proof.Machine.execPmcClear t s
  | .pmcToneWrite t b w => Sys2Proof.Machine.execPmcToneWrite t b w s
  | .ping t p => Sys2Proof.Machine.execPing t p s
  | .identify t p => Sys2Proof.Machine.execIdentify t p s
  | .setPowerState t p => Sys2Proof.Machine.execSetPowerState t p s
  | .regRead t p => Sys2Proof.Machine.execRegRead t p s
  | .regWrite t p => Sys2Proof.Machine.execRegWrite t p s
  | .regRead64 t p => Sys2Proof.Machine.execRegRead64 t p s
  | .softReset t p => Sys2Proof.Machine.execSoftReset t p s
  | .updateBegin t p => Sys2Proof.Machine.execUpdateBegin t p s
  | .updateData t p => Sys2Proof.Machine.execUpdateData t p s
  | .updateCommit t p => Sys2Proof.Machine.execUpdateCommit t p s
  | .updateCommitDone t => Sys2Proof.Machine.execUpdateCommitDone t s
  | .updateActivate t p => Sys2Proof.Machine.execUpdateActivate t p s
  | .logRead t p => Sys2Proof.Machine.execLogRead t p s
  | .logMark t p => Sys2Proof.Machine.execLogMark t p s
  | .sensorRead t p => Sys2Proof.Machine.execSensorRead t p s
  | .abort t p => Sys2Proof.Machine.execAbort t p s
  | .chConfig t p => Sys2Proof.Machine.execChConfig t p s
  | .chQuery t p => Sys2Proof.Machine.execChQuery t p s
  | .bayExcitation t p => Sys2Proof.Machine.execBayExcitation t p s
  | .chTestInject t p => Sys2Proof.Machine.execChTestInject t p s
  | .clampStatus t p => Sys2Proof.Machine.execClampStatus t p s
  | .bayMode t p => Sys2Proof.Machine.execBayMode t p s
  | .transomSequence t p => Sys2Proof.Machine.execTransomSequence t p s
  | .transomUrgent t p => Sys2Proof.Machine.execTransomUrgent t p s
  | .chainConfig t p => Sys2Proof.Machine.execChainConfig t p s
  | .detectorConfig t p => Sys2Proof.Machine.execDetectorConfig t p s
  | .streamEnable t p => Sys2Proof.Machine.execStreamEnable t p s
  | .timeRead t p => Sys2Proof.Machine.execTimeRead t p s
  | .timeDomainConfig t p => Sys2Proof.Machine.execTimeDomainConfig t p s
  | .timeSelectDomain t p => Sys2Proof.Machine.execTimeSelectDomain t p s
  | .timeSchedule t p => Sys2Proof.Machine.execTimeSchedule t p s
  | .timeAsymmetrySet t p => Sys2Proof.Machine.execTimeAsymmetrySet t p s
  | .timeStatus t p => Sys2Proof.Machine.execTimeStatus t p s
  | .tiuRoute t p => Sys2Proof.Machine.execTiuRoute t p s
  | .freqMeasure t p loops => Sys2Proof.Machine.execFreqMeasure t p loops s
  | .stampRead t p => Sys2Proof.Machine.execStampRead t p s
  | .triggerConfig t p => Sys2Proof.Machine.execTriggerConfig t p s
  | .paneOpen t p => Sys2Proof.Machine.execPaneOpen t p s
  | .paneClose t p => Sys2Proof.Machine.execPaneClose t p s
  | .triggerAnnounce t p => Sys2Proof.Machine.execTriggerAnnounce t p s
  | .historyExtract t p => Sys2Proof.Machine.execHistoryExtract t p s
  | .measureConfig t p => Sys2Proof.Machine.execMeasureConfig t p s
  | .fieldPortConfig t p => Sys2Proof.Machine.execFieldPortConfig t p s
  | .fieldDecoderConfig t p => Sys2Proof.Machine.execFieldDecoderConfig t p s
  | .tripConfig t p => Sys2Proof.Machine.execTripConfig t p s
  | .foutConfig t p => Sys2Proof.Machine.execFoutConfig t p s
  | .tripReset t p => Sys2Proof.Machine.execTripReset t p s
  | .queueConfig t p => Sys2Proof.Machine.execQueueConfig t p s
  | .queueStatus t p => Sys2Proof.Machine.execQueueStatus t p s
  | .release t p => Sys2Proof.Machine.execRelease t p s
  | .retentionConfig t p => Sys2Proof.Machine.execRetentionConfig t p s
  | .shutter t p => Sys2Proof.Machine.execShutter t p s
  | .shutterOpen t p => Sys2Proof.Machine.execShutterOpen t p s
  | .cmpConfig t p => Sys2Proof.Machine.execCmpConfig t p s
  | .cmpJob t p => Sys2Proof.Machine.execCmpJob t p s
  | .cmpFlush t p => Sys2Proof.Machine.execCmpFlush t p s
  | .portConfig t p => Sys2Proof.Machine.execPortConfig t p s
  | .portStatus t p => Sys2Proof.Machine.execPortStatus t p s
  | .laneEyeScan t p => Sys2Proof.Machine.execLaneEyeScan t p s
  | .lanePattern t p => Sys2Proof.Machine.execLanePattern t p s
  | .laneLoopback t p => Sys2Proof.Machine.execLaneLoopback t p s
  | .portRetrain t p => Sys2Proof.Machine.execPortRetrain t p s
  | .credInstall t p => Sys2Proof.Machine.execCredInstall t p s
  | .credRevoke t p => Sys2Proof.Machine.execCredRevoke t p s
  | .credStatus t p => Sys2Proof.Machine.execCredStatus t p s
  | .headConfig t p => Sys2Proof.Machine.execHeadConfig t p s
  | .headStatus t p => Sys2Proof.Machine.execHeadStatus t p s
  | .latchRequest t p => Sys2Proof.Machine.execLatchRequest t p s
  | .latchRenew t p => Sys2Proof.Machine.execLatchRenew t p s
  | .latchRelease t p => Sys2Proof.Machine.execLatchRelease t p s
  | .headDrill t p => Sys2Proof.Machine.execHeadDrill t p s
  | .scrub t p => Sys2Proof.Machine.execScrub t p s
  | .memStatus t p => Sys2Proof.Machine.execMemStatus t p s
  | .memInject t p => Sys2Proof.Machine.execMemInject t p s
  | .pmcConfig t p => Sys2Proof.Machine.execPmcConfig t p s
  | .pmcRead t p => Sys2Proof.Machine.execPmcRead t p s
  | .pmcDumpConfig t p => Sys2Proof.Machine.execPmcDumpConfig t p s
  | .calRun t p => Sys2Proof.Machine.execCalRun t p s
  | .calStatus t p => Sys2Proof.Machine.execCalStatus t p s
  | .calCoeffRead t p => Sys2Proof.Machine.execCalCoeffRead t p s
  | .calPolicy t p => Sys2Proof.Machine.execCalPolicy t p s
  | .pfwNRise t => Sys2Proof.Machine.execPfwNRise t s
  | .imageLoadDone t => Sys2Proof.Machine.execImageLoadDone t s
  | .porterReloadDone t ok => Sys2Proof.Machine.execPorterReloadDone t ok s
  | .loopRelock t v => Sys2Proof.Machine.execLoopRelock t v s
  | .excitationPeriod t b m => Sys2Proof.Machine.execExcitationPeriod t b m s
  | .checkerLockChange t l bits => Sys2Proof.Machine.execCheckerLockChange t l bits s
  | .resetAfterReply t => Sys2Proof.Machine.execResetAfterReply t s
  | .newScanSetting t b => Sys2Proof.Machine.execNewScanSetting t b s

end Sys2Proof.Machine
end

