-- ==== Sys2Proof/Machine/Idle.lean ====
section
/-!
DEFINITION. What an empty queue does: one period of the 51.2 MHz crystal passes (05_time_base.md R143), and nothing else
(DESIGN CHOICE, log entry 1).
-/

namespace Sys2Proof.Machine

/-- One crystal tick passes. (DESIGN CHOICE, log entry 1). -/
def idle (s : State) : State := s.begin_ (s.now + 8192)

end Sys2Proof.Machine
end

