-- ==== Sys2Proof/Safety.lean ====
section
/-!
DEFINITION. The terms the statements use: a safe state, what a step leaves alone, a packet that passes the judging order, an
answer, and the closing part of every meaning.
-/

namespace Sys2Proof

open Sys2Proof.Machine

/-- The register file in canonical form: addresses strictly rising, no entry equal to its reset word. -/
def RegsWf (r : Tab Word) : Prop := Tab.rising none r = true ∧ ∀ e ∈ r, e.2 ≠ resetWord e.1

/-- A safe state: the register file, flash and the DRAM work area stand in canonical form, so that equal contents are equal data
(log entry 4). -/
structure Safe (s : State) : Prop where
  regs : RegsWf s.regs
  flash : Mem.wf 0xFF#8 s.bufs.flash = true
  work : Mem.wf 0#8 s.bufs.work = true

/-- Address `a` belongs to the registers at `base`, each `step` after the one before, `count` of them; a lone register has step 0
and count 1. -/
def InArray (base step count a : Nat) : Prop := ∃ i, a = base + step * (i % count)

/-- The registers that issuing an event, dropping a record or counting an occurrence may change with any command: SYS_BB_STAT
(15_porter_management.md R471, R472), QM_DROP_STAT and QM_Q_FLAGS (09_queues_and_retention.md), PMC_STAT and PMC_CNT
(17_counters_and_test.md R507); RED_MIRROR, which follows what a command changes of the mirrored state (13_head_redundancy.md); and
CMP_ERR, which counts a record that a full Q50 leaves uncompressed (10_compression.md R304). -/
def logRegs : List (Nat × Nat × Nat) :=
  [(Reg.SYS_BB_STAT, 0, 1), (Reg.QM_DROP_STAT, 0, 1), (Reg.PMC_STAT, 0, 1), (Reg.QM_Q_FLAGS 0, 32, 64), (Reg.PMC_CNT 0, 16, 8), (Reg.RED_MIRROR, 0, 1),
   (Reg.CMP_ERR, 0, 1)]

/-- The parts of the state beside the registers and the queues, and beside the record of what the present core-logic clock has counted
(00_scope.md R9), which any count changes. -/
inductive Part where
  /-- The commands that wait. -/
  | waiting
  /-- Boot, power, update session, pins of window 0x0, but for the per-second limits and the black box's dropped count. -/
  | sys
  /-- Front end, converters, chains, detectors, streams, the transom. -/
  | acq
  /-- Domains, port measurements, timed actions. -/
  | tb
  /-- Cores, stamps, gates. -/
  | tiu
  /-- Trigger units, engines, panes, history. -/
  | cap
  /-- Field ports, decoders, trips, outputs. -/
  | fblk
  /-- Compression engine, work-area jobs. -/
  | cmp
  /-- Ports, lanes, link states. -/
  | lnk
  /-- Caches, long operations, shadows, the service SPI. -/
  | cmd
  /-- Partner, ledger, journal, mirror, witness entries. -/
  | red
  /-- Memory damage and the scrub, but for damaged words that a write makes whole (14_memory_and_ecc.md R444). -/
  | mem
  /-- Calibration groups and records. -/
  | cal
  /-- The counters' configuration and dump state, but for the cycle count and the overflows of the present clock. -/
  | pmc
  /-- NVM but for the black box. -/
  | nvm
  /-- The flash slots' bytes. -/
  | flash
  /-- The bytes of the DRAM work area. -/
  | work
  /-- The count of free values drawn (log entry 5). -/
  | free
  deriving DecidableEq, Repr

/-- Is a part of the state as it was? -/
def Part.Same (s u : State) : Part → Prop
  | .waiting => u.pending = s.pending
  | .sys => u.sys = { s.sys with limits := u.sys.limits, bbDropped := u.sys.bbDropped }
  | .acq => u.acq = s.acq
  | .tb => u.tb = s.tb
  | .tiu => u.tiu = s.tiu
  | .cap => u.cap = s.cap
  | .fblk => u.fblk = s.fblk
  | .cmp => u.cmp = s.cmp
  | .lnk => u.lnk = s.lnk
  | .cmd => u.cmd = s.cmd
  | .red => u.red = s.red
  | .mem => u.mem = { s.mem with damage := u.mem.damage } ∧ ∀ d ∈ u.mem.damage, ∃ e ∈ s.mem.damage, d = { e with mended := d.mended }
  | .cal => u.cal = s.cal
  | .pmc => u.pmcBlk = { s.pmcBlk with cycle := u.pmcBlk.cycle, ovfWas := u.pmcBlk.ovfWas }
  | .nvm => u.nvm = { s.nvm with bb := u.nvm.bb, bbNext := u.nvm.bbNext }
  | .flash => u.bufs.flash = s.bufs.flash
  | .work => u.bufs.work = s.bufs.work
  | .free => u.free = s.free

/-- From `s` to `u` the parts `ps` are as they were, and every register is, but those of the arrays `rs` and of `logRegs`. -/
def Leaves (ps : List Part) (rs : List (Nat × Nat × Nat)) (s u : State) : Prop :=
  (∀ p ∈ ps, p.Same s u) ∧ ∀ a, (∀ r ∈ rs ++ logRegs, ¬ InArray r.1 r.2.1 r.2.2 a) → u.rd a = s.rd a

/-- The closing part of every meaning: NVM is guarded while supply power fails (15_porter_management.md R473), what a command changed
of the mirrored state is mirrored, and the queues settle. -/
def closing (before after : State) : State := (State.guardNvm before after.mirrorChanges).settle

/-- The state a command's body sees at time `t`: time has passed, a HUB_ORIGIN packet is in the seen cache or the counter is accepted,
and the packet is counted (12_command_packets.md Table 12-4). -/
def taken (op t : Nat) (p : Packet) (s : State) : State :=
  let s := s.begin_ t
  let s := (if flagOrigin p then s.see op p else s).pmc 0xB01 0 1
  let s := if flagOrigin p then s else s.acceptCtr p.slot p.counter
  if ((opRow op).map OpRow.kind) != some .f then s.pmc 0x002 0 1 else s

/-- A unicast command packet of opcode `op` that arrives at `t`, is for this hub, is authentic under credential `cr` and passes every
step of Table 12-4 (12_command_packets.md R378), so that its body runs. -/
def Accepts (op t : Nat) (p : Packet) (cr : Cred) (s : State) : Prop :=
  let s0 := s.begin_ t
  let s1 := if flagOrigin p then s0.see op p else s0
  let s2 := s1.pmc 0xB01 0 1
  let s3 := if flagOrigin p then s2 else s2.acceptCtr p.slot p.counter
  s0.booted = true ∧ s0.malformed p = false ∧ flagScoped p = false ∧ flagReply p = false
    ∧ (flagOrigin p = true → s0.cacheFailed = false ∧ s0.seenBefore op p = false)
    ∧ s1.forSpiHost p = false ∧ s1.forHere p = true ∧ s1.authentic op p = some cr
    ∧ (flagOrigin p = true → s2.inWindow p.counter = true)
    ∧ (s2.cached.find? fun e => e.isFor (callerOf op p cr)) = none ∧ (flagOrigin p = false → s2.lastCtr p.slot < p.counter)
    ∧ s3.admits op p cr.perms = none ∧ (((opRow op).map OpRow.kind) != some .f && s3.sys.reloading) = false

/-- The reply cache holds the reply that answers a caller: its status and the fields that follow (12_command_packets.md R381, R386). With
a command cache failed at boot no reply is kept (14_memory_and_ecc.md Table 14-8). -/
def Answered (c : Caller) (status : Nat) (data : List Byte) (u : State) : Prop :=
  u.cacheFailed = true ∨ ∃ e ∈ u.cmd.cache, e.isFor c = true ∧ e.reply = replyParams status data ∧ e.report = false

/-- The parts of the state that answering a command and closing it leave as its body leaves them. -/
def keptParts : List Part := [.waiting, .sys, .acq, .tb, .tiu, .cap, .fblk, .cmp, .lnk, .mem, .cal, .pmc, .flash, .work, .free]

/-- Does supply power stand, so that NVM may be written (15_porter_management.md R473)? -/
def Powered (s : State) : Prop := s.sys.pfwNLow = false ∧ s.sys.pfwRoseAt = none

/-- `u` is the end of a row of the table that began in `s` and whose own effect led to `x`: but for the queues and `logRegs` everything
is as `x` has it; of the redundancy block the mirroring of changed state goes on from there (13_head_redundancy.md R422); NVM is as `x`
has it where supply power stands. -/
structure Closed (s x u : State) : Prop where
  rest : Leaves keptParts [] x u
  cmd : u.cmd = x.cmd
  red : u.red = { x.red with nextMirror := u.red.nextMirror, unacked := u.red.unacked, mirror := u.red.mirror, ackedAt := u.red.ackedAt,
                             stateItems := u.red.stateItems }
  nvm : Powered s → Part.nvm.Same x u

/-- `u` is the end of a command that began in `s`, whose body left the state `x`, and that was answered: as `Closed`, but for the reply
cache with its count of evictions. -/
structure Settled (s x u : State) : Prop where
  rest : Leaves keptParts [(Reg.CMD_CACHE, 0, 1)] x u
  cmd : u.cmd = { x.cmd with cache := u.cmd.cache }
  red : u.red = { x.red with nextMirror := u.red.nextMirror, unacked := u.red.unacked, mirror := u.red.mirror, ackedAt := u.red.ackedAt,
                             stateItems := u.red.stateItems }
  nvm : Powered s → Part.nvm.Same x u

/-- The row `row` of a command packet with opcode `op` completes: where a packet passes the judging order and `cond` holds of its
caller, its parameters and the state its body finds, the row answers a next state; in it the command has had the effect `eff` and is
answered with status `st` and the fields `data`, and nothing else has changed than what a reply and the end of a row change. -/
def Completes (op : Nat) (row : Nat → Packet → Instr) (cond : Caller → List Byte → State → Prop) (st : Nat)
    (data : Caller → List Byte → State → List Byte) (eff : Caller → List Byte → State → State) : Prop :=
  ∀ (t : Nat) (p : Packet) (cr : Cred) (s : State), Accepts op t p cr s →
    let c := callerOf op p cr
    let x := taken op t p s
    cond c p.params x →
      let y := eff c p.params x
      let u := closing s (y.reply c st (data c p.params x))
      exec (row t p) s = .next u ∧ Answered c st (data c p.params x) u ∧ Settled s y u

/-- The same for a command that is answered later (12_command_packets.md R387): it has had the effect `eff` and waits for its reply. -/
def CompletesLater (op : Nat) (row : Nat → Packet → Instr) (cond : Caller → List Byte → State → Prop)
    (eff : Caller → List Byte → State → State) : Prop :=
  ∀ (t : Nat) (p : Packet) (cr : Cred) (s : State), Accepts op t p cr s → flagOrigin p = false →
    let c := callerOf op p cr
    let x := taken op t p s
    cond c p.params x → ∃ u since, exec (row t p) s = .next u
      ∧ Settled s ((eff c p.params x).onCmd fun m => { m with inflight := m.inflight ++ [(c, since)] }) u

/-- The same for a command that has no reply by its own rules (09_queues_and_retention.md R281): it has had the effect `eff`. -/
def CompletesSilently (op : Nat) (row : Nat → Packet → Instr) (cond : Caller → List Byte → State → Prop)
    (eff : Caller → List Byte → State → State) : Prop :=
  ∀ (t : Nat) (p : Packet) (cr : Cred) (s : State), Accepts op t p cr s →
    let c := callerOf op p cr
    let x := taken op t p s
    cond c p.params x → ∃ u, exec (row t p) s = .next u ∧ Settled s (eff c p.params x) u

/-- Any other row of the table comes about: where `due` holds of the state once time has passed to the row's instant, the row answers a
next state; in it the row has had the effect `eff`, and nothing else has changed than what the end of a row changes. -/
def Occurs (row : Nat → Instr) (due : State → Prop) (eff : State → State) : Prop :=
  ∀ (t : Nat) (s : State), due (s.begin_ t) →
    let y := eff (s.begin_ t)
    exec (row t) s = .next (closing s y) ∧ Closed s y (closing s y)

/-- Any other row of the table comes about, its next state told by what holds of it: where `due` holds of the state once time has passed to
the row's instant, the row answers a next state, of which, with that state before it, `holds` is true. -/
def Yields (row : Nat → Instr) (due : State → Prop) (holds : State → State → Prop) : Prop :=
  ∀ (t : Nat) (s : State), due (s.begin_ t) → ∃ u, exec (row t) s = .next u ∧ holds (s.begin_ t) u

/-- A long operation of a caller runs (12_command_packets.md R389). -/
def started (c : Caller) (s : State) : State := s.onCmd fun m => { m with ops := m.ops ++ [⟨c⟩] }

/-- What a row of the table may change: from any state in which it answers a next state, the parts `ps` and the registers outside `rs`
and `logRegs` are as they were. -/
def Framed (c : Instr) (ps : List Part) (rs : List (Nat × Nat × Nat)) : Prop := ∀ s u, exec c s = .next u → Leaves ps rs s u

/-- The registers that any command packet may change: the error, cache and packet counts of 12_command_packets.md and the last counters. -/
def packetRegs : List (Nat × Nat × Nat) :=
  [(Reg.CMD_SPI_CTRL, 0, 1), (Reg.CMD_ERR, 0, 1), (Reg.CMD_CACHE, 0, 1), (Reg.CMD_STAT, 0, 1), (Reg.CMD_SLOT_CTR 0, 16, 16)]

end Sys2Proof
end

