-- ==== Sys2Proof/Certificates/Slice0/Obligations.lean ====
section
/-!
DEFINITION. The statements for the provers. Each says which rules of spec/ it follows; a completion statement (`Completes`, `Occurs` and
their kin, Safety.lean) says of a row under which conditions it answers a next state and which, a frame what a row leaves alone.
-/

open Sys2Proof Sys2Proof.Machine Sys2Proof.Machine.Reg Sys2Proof.Machine.Bits

/-- Every part of the state but those named. -/
def allBut (ps : List Part) : List Part :=
  [.waiting, .sys, .acq, .tb, .tiu, .cap, .fblk, .cmp, .lnk, .cmd, .red, .mem, .cal, .pmc, .nvm, .flash, .work, .free].filter fun p => !ps.contains p

/-- What the row of a command packet may change beside what any command packet may: the parts `ps` and the registers `rs`. A packet with
REPLY set is no command (`ReplyFrames` below). -/
def CommandFrame (row : Nat → Packet → Instr) (ps : List Part) (rs : List (Nat × Nat × Nat)) : Prop :=
  ∀ t p, flagReply p = false → Framed (row t p) (allBut ([.cmd, .red, .nvm, .free] ++ ps)) (packetRegs ++ rs)

/-- The parts that the row of a command packet which writes any register may change. -/
def CommandParts (row : Nat → Packet → Instr) (ps : List Part) : Prop :=
  ∀ t p s u, flagReply p = false → exec (row t p) s = .next u → ∀ q ∈ allBut ([.cmd, .red, .nvm, .free] ++ ps), q.Same s u

/-- What any other row may change: the mirroring of changed state, the count of free values drawn, the parts `ps` and the registers `rs`. -/
def EventFrame (row : Nat → Instr) (ps : List Part) (rs : List (Nat × Nat × Nat)) : Prop := ∀ t, Framed (row t) (allBut ([.red, .free] ++ ps)) rs

/-- The parts that a row which writes any register may change. -/
def EventParts (row : Nat → Instr) (ps : List Part) : Prop := ∀ t s u, exec (row t) s = .next u → ∀ q ∈ allBut ([.red, .free] ++ ps), q.Same s u

/-- What a row that may reset the hub leaves alone: the bytes of the flash and the queue. -/
def ResetFrame (row : Nat → Instr) : Prop := ∀ t s u, exec (row t) s = .next u → u.bufs.flash = s.bufs.flash ∧ u.pending = s.pending

/-- The rows of the command packets of blocks 0x0 and 0x1 (12_command_packets.md Table 12-5). -/
def commandRows0 : List (Nat × (Nat → Packet → Instr)) :=
  [(0x0001, .ping), (0x0002, .identify), (0x0003, .setPowerState), (0x0004, .regRead), (0x0005, .regWrite), (0x0006, .regRead64),
     (0x0007, .softReset), (0x0010, .updateBegin), (0x0011, .updateData), (0x0012, .updateCommit), (0x0013, .updateActivate),
     (0x0020, .logRead), (0x0021, .logMark), (0x0030, .sensorRead), (0x0040, .abort), (0x1001, .chConfig), (0x1002, .chQuery),
     (0x1003, .bayExcitation), (0x1004, .chTestInject), (0x1005, .clampStatus)]

/-- The rows of the command packets of blocks 0x2 to 0x6 (12_command_packets.md Table 12-5). -/
def commandRows1 (loops : List Nat) : List (Nat × (Nat → Packet → Instr)) :=
  [(0x2001, .bayMode), (0x2002, .transomSequence), (0x2003, .transomUrgent), (0x3001, .chainConfig), (0x3002, .detectorConfig),
     (0x3003, .streamEnable), (0x4001, .timeRead), (0x4002, .timeDomainConfig), (0x4003, .timeSelectDomain), (0x4004, .timeSchedule),
     (0x4005, .timeAsymmetrySet), (0x4006, .timeStatus), (0x5001, .tiuRoute), (0x5002, (.freqMeasure · · loops)), (0x5003, .stampRead), (0x6001,
     .triggerConfig), (0x6002, .paneOpen), (0x6003, .paneClose), (0x6004, .triggerAnnounce), (0x6005, .historyExtract)]

/-- The rows of the command packets of blocks 0x6 to 0xA (12_command_packets.md Table 12-5). -/
def commandRows2 : List (Nat × (Nat → Packet → Instr)) :=
  [(0x6006, .measureConfig), (0x7001, .fieldPortConfig), (0x7002, .fieldDecoderConfig), (0x7003, .tripConfig), (0x7004,
     .foutConfig), (0x7005, .tripReset), (0x8001, .queueConfig), (0x8002, .queueStatus), (0x8003, .release), (0x8004,
     .retentionConfig), (0x8005, .shutter), (0x8006, .shutterOpen), (0x9001, .cmpConfig), (0x9002, .cmpJob), (0x9003, .cmpFlush),
     (0xA001, .portConfig), (0xA002, .portStatus), (0xA003, .laneEyeScan), (0xA004, .lanePattern), (0xA005, .laneLoopback)]

/-- The rows of the command packets of blocks 0xA to 0xF (12_command_packets.md Table 12-5). -/
def commandRows3 : List (Nat × (Nat → Packet → Instr)) :=
  [(0xA006, .portRetrain), (0xB001, .credInstall), (0xB002, .credRevoke), (0xB003, .credStatus), (0xC001, .headConfig), (0xC002,
     .headStatus), (0xC003, .latchRequest), (0xC004, .latchRenew), (0xC005, .latchRelease), (0xC006, .headDrill), (0xD001, .scrub),
     (0xD002, .memStatus), (0xD003, .memInject), (0xE001, .pmcConfig), (0xE002, .pmcRead), (0xE003, .pmcDumpConfig), (0xF001,
     .calRun), (0xF002, .calStatus), (0xF003, .calCoeffRead), (0xF004, .calPolicy)]

/-- The rows of the command packets, each with its opcode (12_command_packets.md Table 12-5); `loops` are the readings of the loop checks
that FREQ_MEASURE makes (log entry 27). -/
def commandRows (loops : List Nat) : List (Nat × (Nat → Packet → Instr)) :=
  commandRows0 ++ commandRows1 loops ++ commandRows2 ++ commandRows3

/-- The registers that a REPLY handed to the latch request that awaits it may change beside `packetRegs` (13_head_redundancy.md R412,
R417, R424), with the errors met in writing the ledger (14_memory_and_ecc.md R446). -/
def replyRegs : List (Nat × Nat × Nat) :=
  [(RED_STAT, 0, 1), (RED_EPOCH, 0, 1), (RED_COUNT, 0, 1), (LNK_ROUTE_STAT, 0, 1), (LNK_ROUTE_CFG, 0, 1), (RED_WIT_STAT 0, 16, 4), (TB_CTRL, 0, 1),
   (RED_WIT_CFG 0, 16, 4), (RED_WIT_EPOCH 0, 16, 4), (RED_LEDGER, 0, 1), (MEM_ERR 0, 32, 5), (MEM_ERR_INFO 0, 32, 5),
   (MEM_ERR_ADDR 0, 32, 5), (MEM_ERR_ADDR 0 + 4, 32, 5)]

/-- The trips of a mask that a TRIP_RESET clears at once, and the state after it (08_field_ports_and_outputs.md R265, R269). -/
def resetAll (x : State) (mask : Nat) : Nat × State :=
  ((List.range 16).filter fun o => bit mask o).foldl (fun (a : Nat × State) o =>
    let r := a.2.resetTrip o
    (if r.1 then a.1 + 2 ^ o else a.1, r.2)) (0, x)

/-- A step with a command at the front of the queue runs that command on the state with the queue's rest (the queue is the model's own,
log entry 2). -/
def Obligations.StepRunsFront : Prop := ∀ (c : Instr) (rest : List Instr) (s : State), step { s with pending := c :: rest } = exec c { s with pending := rest }

/-- A step on an empty queue lets one crystal tick pass and changes nothing else but the counts that run with time: the crystal count is
one more, and every register but those of `logRegs` reads as before (log entry 1; 05_time_base.md R143). -/
def Obligations.EmptyQueueTicks : Prop :=
  ∀ s u, s.pending = [] → step s = .next u → u.xc = s.xc + 1 ∧ u.pending = []
    ∧ (∀ p ∈ allBut [.free], p.Same s u) ∧ ∀ a, (∀ r ∈ logRegs, ¬ InArray r.1 r.2.1 r.2.2 a) → u.rd a = s.rd a

/-- Every command answers a next state in every state, with the queue of the commands that wait as it was: no command stops the block, and
none adds to, takes from or reorders the queue, which is the model's own (log entry 2; 12_command_packets.md). -/
def Obligations.EveryCommandAnswers : Prop := ∀ c s, ∃ u, exec c s = .next u ∧ u.pending = s.pending

/-- The state after reset is safe: registers, flash and the DRAM work area stand in canonical form (log entry 4; 15_porter_management.md). -/
def Obligations.ResetSafe : Prop := Safe State.reset

/-- Every step keeps the state safe: registers, flash and the DRAM work area stay in canonical form, so that equal contents are equal
data, whatever command runs (log entry 4; 15_porter_management.md, 14_memory_and_ecc.md). -/
def Obligations.StepKeepsSafe : Prop := ∀ s u, Safe s → step s = .next u → Safe u

/-- While PFW_N is low, and until the recovery reset after it rose, no command writes NVM except for the black box
(15_porter_management.md R473). -/
def Obligations.NvmGuarded : Prop :=
  ∀ c s u, s.sys.pfwNLow = true ∨ s.sys.pfwRoseAt.isSome = true → exec c s = .next u → Part.nvm.Same s u

/-- A pulse of at least 10 us on RESET_N resets the hub: the crystal counter is 0, SYS_RESET_CAUSE is 1, NVM, flash and the queue stay,
and every register that NVM and the log do not hold has the value of its Reset column (00_scope.md R5; 05_time_base.md R143;
18_electrical_and_package.md R523; the registers that NVM holds are log entry 3). -/
def Obligations.ResetPulseResets : Prop :=
  ∀ t w s u, 10000 ≤ w → exec (.resetNPulse t w) s = .next u →
    u.now = 0 ∧ u.xc = 0 ∧ u.rd SYS_RESET_CAUSE = 1#32 ∧ u.bufs.flash = s.bufs.flash ∧ u.nvm.words = s.nvm.words ∧ u.nvm.creds = s.nvm.creds
    ∧ u.pending = s.pending ∧ (∀ p ∈ [Part.work, .acq, .tb, .tiu, .cap, .fblk, .cmp, .lnk, .cmd, .mem, .cal, .pmc], p.Same State.reset u)
    ∧ ∀ a, a ≠ SYS_RESET_CAUSE → a ≠ SYS_HUB_ADDR → ¬ InArray (CMD_SLOT_CTR 0) 16 16 a → (∀ r ∈ logRegs, ¬ InArray r.1 r.2.1 r.2.2 a)
      → (∀ e ∈ s.nvm.words, e.1 ≠ a) → u.rd a = resetWord a

/-- A packet with REPLY set is no command: whichever row brings it, it may at most be handed to the latch request that awaits it or be
passed on, and what it may change is named here (12_command_packets.md R544; 13_head_redundancy.md R412, R417). -/
def Obligations.ReplyFrames : Prop :=
  (∀ loops, ∀ e ∈ commandRows loops, ∀ t p, flagReply p = true → Framed (e.2 t p) (allBut [.cmd, .red, .nvm, .lnk, .mem, .free]) (packetRegs ++ replyRegs))
  ∧ ∀ op t p, flagReply p = true → Framed (.replyReceived t op p) (allBut [.cmd, .red, .nvm, .lnk, .mem, .free]) (packetRegs ++ replyRegs)

/-- What happens to a command packet that does not come to be judged on its own merits, in the order of Table 12-4: before boot completes
it is not taken, a malformed one and a scoped one seen before are counted and dropped, one with a wrong tag is counted and answered
AUTH_FAIL, one whose counter has been accepted before is counted and answered REPLAYED (12_command_packets.md R372, R375, R378, R382,
R542). -/
def Obligations.PacketsTurnedAway : Prop :=
  ∀ loops, ∀ e ∈ commandRows loops, ∀ p,
    Occurs (e.2 · p) (fun x => x.booted = false ∧ p.arrival ≠ 8) (fun x => x)
    ∧ Occurs (e.2 · p) (fun x => x.booted = false ∧ p.arrival = 8) (fun x => x.setBit CMD_SPI_CTRL CMD_SPI_CTRL_FRAME_ERR 0)
    ∧ Occurs (e.2 · p) (fun x => x.booted = true ∧ x.malformed p = true) (fun x => x.bump CMD_ERR CMD_ERR_MALFORMED)
    ∧ Occurs (e.2 · p)
        (fun x => x.booted = true ∧ x.malformed p = false ∧ (flagScoped p = true ∨ flagOrigin p = true) ∧ x.cacheFailed = false
          ∧ x.seenBefore e.1 p = true)
        (fun x => x.bump CMD_CACHE CMD_CACHE_DUPLICATES)
    ∧ Occurs (e.2 · p)
        (fun x => x.booted = true ∧ x.malformed p = false ∧ flagScoped p = false ∧ flagOrigin p = false ∧ x.forSpiHost p = false
          ∧ x.forHere p = true ∧ x.authentic e.1 p = none)
        (fun x => x.authFail e.1 p)
    ∧ ∀ cr, Occurs (e.2 · p)
        (fun x =>
          let y := x.pmc 0xB01 0 1
          x.booted = true ∧ x.malformed p = false ∧ flagScoped p = false ∧ flagOrigin p = false ∧ flagReply p = false ∧ x.forSpiHost p = false
          ∧ x.forHere p = true ∧ x.authentic e.1 p = some cr ∧ (y.cached.find? fun a => a.isFor (callerOf e.1 p cr)) = none
          ∧ p.counter ≤ y.lastCtr p.slot ∧ (callerOf e.1 p cr).hears stREPLAYED = true)
        (fun x =>
          let y := x.pmc 0xB01 0 1
          let z := (y.bump CMD_STAT CMD_STAT_REPLAYED).issueLim 0xB002 p.slot 1 4 true [p.source, p.slot, p.counter, y.lastCtr p.slot, 0]
          z.emit (callerOf e.1 p cr) (replyPacket z (callerOf e.1 p cr) false (replyParams stREPLAYED (le 4 (z.lastCtr p.slot))) false))

/-- A unicast packet that is for this hub, is authentic under credential `cr` and shows a new counter: it has come to step 9 of Table 12-4
(12_command_packets.md R378). -/
def comesToPermissions (op : Nat) (p : Packet) (cr : Cred) (x : State) : Prop :=
  let y := x.pmc 0xB01 0 1
  x.booted = true ∧ x.malformed p = false ∧ flagScoped p = false ∧ flagOrigin p = false ∧ flagReply p = false ∧ x.forSpiHost p = false
  ∧ x.forHere p = true ∧ x.authentic op p = some cr ∧ (y.cached.find? fun a => a.isFor (callerOf op p cr)) = none ∧ y.lastCtr p.slot < p.counter

/-- A command whose slot lacks a permission it needs is answered NOT_PERMITTED, one that MINIMAL does not serve MINIMAL_MODE, one of a
wrong parameter length BAD_LENGTH, one with reserved header bytes BAD_PARAM, each before the next and with no effect but the acceptance of
its counter (12_command_packets.md R375, R377, R378, R380). -/
def Obligations.CommandsRefused : Prop :=
  ∀ loops, ∀ e ∈ commandRows loops, ∀ p cr (r : OpRow), opRow e.1 = some r →
    let at_ := fun (x : State) => (x.pmc 0xB01 0 1).acceptCtr p.slot p.counter
    let refused := fun st (x : State) => (at_ x).reply (callerOf e.1 p cr) st []
    let permitted := fun (x : State) => permsNeeded (at_ x) e.1 p.params &&& cr.perms = permsNeeded (at_ x) e.1 p.params
    Occurs (e.2 · p) (fun x => comesToPermissions e.1 p cr x ∧ ¬ permitted x) (refused stNOT_PERMITTED)
    ∧ Occurs (e.2 · p) (fun x => comesToPermissions e.1 p cr x ∧ permitted x ∧ (at_ x).isMinimal = true ∧ r.minimal = false) (refused stMINIMAL_MODE)
    ∧ Occurs (e.2 · p)
        (fun x => comesToPermissions e.1 p cr x ∧ permitted x ∧ ((at_ x).isMinimal = true → r.minimal = true) ∧ lenOk e.1 p.params = false)
        (refused stBAD_LENGTH)
    ∧ Occurs (e.2 · p)
        (fun x => comesToPermissions e.1 p cr x ∧ permitted x ∧ ((at_ x).isMinimal = true → r.minimal = true) ∧ lenOk e.1 p.params = true
          ∧ (p.rsvd14 ≠ 0 ∨ p.rsvd22 ≠ List.replicate 10 0#8 ∨ p.b21 / 2 % 128 ≠ 0 ∨ p.flags / 16 % 16 ≠ 0))
        (refused stBAD_PARAM)

/-- A scoped packet, new to this hub and in its scope, is passed on and carried out here too as the same command, under the same judging
order (12_command_packets.md R371, R372, R378); what the command's own part then is, the completion statements say of a unicast one. -/
def Obligations.ScopedPacketsSpread : Prop :=
  ∀ loops, ∀ e ∈ commandRows loops, ∀ p cr,
    Occurs (e.2 · p)
      (fun x =>
        let y := (((x.see e.1 p).relay e.1 p).pmc 0xB01 0 1)
        x.booted = true ∧ x.malformed p = false ∧ flagScoped p = true ∧ flagOrigin p = false ∧ flagReply p = false ∧ x.cacheFailed = false
        ∧ x.seenBefore e.1 p = false ∧ (x.see e.1 p).forSpiHost p = false ∧ (x.see e.1 p).forHere p = true
        ∧ (p.arrival < 8 → (x.see e.1 p).role p.arrival = rUplink → (x.see e.1 p).isActive = true)
        ∧ ((x.see e.1 p).relay e.1 p).authentic e.1 p = some cr ∧ y.lastCtr p.slot < p.counter
        ∧ (y.acceptCtr p.slot p.counter).admits e.1 p cr.perms = none ∧ (y.acceptCtr p.slot p.counter).sys.reloading = false)
      (fun x =>
        let z := ((((x.see e.1 p).relay e.1 p).pmc 0xB01 0 1).acceptCtr p.slot p.counter)
        (if ((opRow e.1).map OpRow.kind) != some .f then z.pmc 0x002 0 1 else z).carryOut (bodyOf e.1) (callerOf e.1 p cr) p.params)

/-- UPDATE_DATA stores its bytes in the session's slot at the session's offset: each of them reads back, the bytes after them in each 64
KiB sector it begins are erased, and every other byte of the flash reads as before (15_porter_management.md R479). -/
def Obligations.UpdateDataStores : Prop :=
  ∀ t p cr s u (e : Session), Accepts 0x0011 t p cr s → Mem.wf 0xFF#8 s.bufs.flash = true → (taken 0x0011 t p s).sys.session = some e →
    num p.params 0 4 = e.received → e.received + (p.params.drop 4).length ≤ e.length → (p.params.drop 4).length % 4 = 0 →
    exec (.updateData t p) s = .next u →
      let at_ := slotBase e.slot + e.received
      let data := p.params.drop 4
      let lo := slotBase e.slot + ceilDiv e.received 65536 * 65536
      let hi := slotBase e.slot + ceilDiv (e.received + data.length) 65536 * 65536
      (∀ i, i < data.length → Mem.read 0xFF#8 u.bufs.flash (at_ + i) = data.getD i 0xFF#8)
      ∧ (∀ a, lo ≤ a → a < hi → ¬ (at_ ≤ a ∧ a < at_ + data.length) → Mem.read 0xFF#8 u.bufs.flash a = 0xFF#8)
      ∧ ∀ a, ¬ (lo ≤ a ∧ a < hi) → ¬ (at_ ≤ a ∧ a < at_ + data.length) → Mem.read 0xFF#8 u.bufs.flash a = Mem.read 0xFF#8 s.bufs.flash a

/-- An offset that holds no register reads 0 and ignores writes, by REG_READ, REG_WRITE and every other path; an access outside the
register space is refused with BAD_PARAM, on the service SPI with FRAME_ERR, and reads or changes nothing (01_architecture.md R13; that
the SPI tells it by FRAME_ERR is the model's reading of 12_command_packets.md R400). -/
def Obligations.EmptyOffsets : Prop :=
  Completes 0x0004 .regRead (fun _ ps _ => num ps 4 4 = 1 ∧ rangeOk (num ps 0 4) 1 = true ∧ findReg (num ps 0 4) = none) stOK (fun _ _ _ => le 4 0)
      (fun _ _ x => x)
  ∧ Completes 0x0005 .regWrite
      (fun _ ps _ => num ps 4 4 = 1 ∧ rangeOk (num ps 0 4) 1 = true ∧ findReg (num ps 0 4) = none ∧ ps.length = 12) stOK (fun _ _ _ => [])
      (fun _ _ x => x)
  ∧ (∀ path a w, Occurs (.registerWrite · path a w) (fun x => findReg a = none ∧ x.nvmRefuses a 1 = false) (fun x => x))
  ∧ Completes 0x0004 .regRead (fun _ ps _ => 0x100000 < num ps 0 4 + 4 * num ps 4 4) stBAD_PARAM (fun _ _ _ => []) (fun _ _ x => x)
  ∧ Completes 0x0005 .regWrite (fun _ ps _ => 0x100000 < num ps 0 4 + 4 * num ps 4 4) stBAD_PARAM (fun _ _ _ => []) (fun _ _ x => x)
  ∧ Completes 0x0006 .regRead64 (fun _ ps _ => 0x100000 < num ps 0 4 + 8) stBAD_PARAM (fun _ _ _ => []) (fun _ _ x => x)
  ∧ (∀ a n, Occurs (.spiRegRead · a n) (fun _ => 0x100000 < a + 4 * n) State.spiBad)
  ∧ ∀ a ws, Occurs (.spiRegWrite · a ws) (fun _ => 0x100000 < a + 4 * ws.length) State.spiBad

/-- An increment more than 200 ppm away from nominal is not committed and TB_INCR keeps its value, whether a write of the row
TB_INCR_COMMIT, any other register access or the servo would commit it (05_time_base.md R148). -/
def Obligations.IncrementRange : Prop :=
  (∀ s d i, 200 * nominal < 1000000 * (if i < nominal then nominal - i else i - nominal) → State.commitIncr s d i = s)
  ∧ (∀ path (d : Fin 2) (hi : Word) (s : State) i,
      i = hi.toNat * 2 ^ 32 + (s.takeLow path (TB_INCR d.val)).1.toNat →
      200 * nominal < 1000000 * (if i < nominal then nominal - i else i - nominal) →
      s.writeReg path (TB_INCR d.val + 4) hi = (s.takeLow path (TB_INCR d.val)).2)
  ∧ ∀ t path (d : Fin 2) hi s u i,
      i = hi.toNat * 2 ^ 32 + ((s.begin_ t).takeLow path (TB_INCR d.val)).1.toNat →
      200 * nominal < 1000000 * (if i < nominal then nominal - i else i - nominal) →
      exec (.tbIncrCommit t path d hi) s = .next u →
        u.tb = s.tb ∧ u.rd (TB_INCR d.val) = s.rd (TB_INCR d.val) ∧ u.rd (TB_INCR d.val + 4) = s.rd (TB_INCR d.val + 4)

/-- SET_POWER_STATE with code 0, 4 or a reserved code is answered BAD_PARAM, in MINIMAL it is answered MINIMAL_MODE, and a request for the
current state is answered OK and changes nothing, but that PERSIST stores it as the state after the next start; a hub configured as a
head, or holding the latch, answers a request for DORMANT with BAD_STATE; while a transition is in progress any other is answered BUSY and
the transition goes on (01_architecture.md R32, R33, R34). -/
def Obligations.PowerStateRequests : Prop :=
  Completes 0x0003 .setPowerState (fun _ ps x => x.isMinimal = false ∧ (num ps 0 1 = 0 ∨ 4 ≤ num ps 0 1)) stBAD_PARAM (fun _ _ _ => []) (fun _ _ x => x)
  ∧ Completes 0x0003 .setPowerState (fun _ _ x => x.isMinimal = true) stMINIMAL_MODE (fun _ _ _ => []) (fun _ _ x => x)
  ∧ Completes 0x0003 .setPowerState
      (fun _ ps x => x.isMinimal = false ∧ num ps 0 1 = x.power ∧ 1 ≤ x.power ∧ x.power ≤ 3 ∧ num ps 1 1 < 2 ∧ zeroAt ps 2 2 = true
        ∧ (num ps 0 1 = 1 → x.fld RED_CFG RED_CFG_ROLE ≠ 1 ∧ x.isActive = false) ∧ x.on SYS_PWR_STATE SYS_PWR_STATE_IN_TRANSITION = false)
      stOK (fun _ _ _ => []) (fun _ ps x => if bit (num ps 1 1) 0 then x.onNvm fun n => { n with bootPower := num ps 0 1 } else x)
  ∧ Completes 0x0003 .setPowerState
      (fun _ ps x => x.isMinimal = false ∧ num ps 0 1 = 1 ∧ num ps 1 1 < 2 ∧ zeroAt ps 2 2 = true
        ∧ (x.fld RED_CFG RED_CFG_ROLE = 1 ∨ x.isActive = true)) stBAD_STATE (fun _ _ _ => []) (fun _ _ x => x)
  ∧ ∀ t p cr s, Accepts 0x0003 t p cr s →
      let x := taken 0x0003 t p s
      x.isMinimal = false → 1 ≤ num p.params 0 1 → num p.params 0 1 ≤ 3 → num p.params 1 1 < 2 → zeroAt p.params 2 2 = true →
      (num p.params 0 1 = 1 → x.fld RED_CFG RED_CFG_ROLE ≠ 1 ∧ x.isActive = false) → x.on SYS_PWR_STATE SYS_PWR_STATE_IN_TRANSITION = true →
      ∃ u, exec (.setPowerState t p) s = .next u ∧ u = closing s (x.reply (callerOf 0x0003 p cr) stBUSY [])
        ∧ u.sys.transition = x.sys.transition ∧ u.rd SYS_PWR_STATE = x.rd SYS_PWR_STATE

/-- Once TRIP_LOCK is set, TRIP_CONFIG is answered BAD_STATE and changes nothing, TRIP_RESET still acts, and a hub reset clears TRIP_LOCK
(08_field_ports_and_outputs.md R266). -/
def Obligations.TripLockHolds : Prop :=
  Completes 0x7003 .tripConfig
      (fun _ ps x =>
        let w := word (num ps 4 4)
        x.on FLD_CTRL FLD_CTRL_TRIP_LOCK = true ∧ num ps 0 1 < 16 ∧ zeroAt ps 1 3 = true ∧ bits w.toNat 10 16 = 0
        ∧ signed 32 (num ps 12 4) < signed 32 (num ps 8 4)
        ∧ (if wfld w FLD_TRIP_CFG_SRC = 3 then wfld w FLD_TRIP_CFG_SEL < 64 else wfld w FLD_TRIP_CFG_SEL < 512))
      stBAD_STATE (fun _ _ _ => []) (fun _ _ x => x)
  ∧ Completes 0x7005 .tripReset (fun _ ps x => x.on FLD_CTRL FLD_CTRL_TRIP_LOCK = true ∧ zeroAt ps 2 2 = true) stOK
      (fun _ ps x =>
        let r := resetAll x (num ps 0 2)
        le 2 r.1 ++ le 2 (((List.range 16).filter fun o => bit (num ps 0 2) o).foldl
          (fun n o => if r.2.on (FLD_TRIP_STAT o) FLD_TRIP_STAT_HEALTHY then n else n + 2 ^ o) 0))
      (fun _ ps x => (resetAll x (num ps 0 2)).2)
  ∧ ∀ s cause, (∀ e ∈ s.nvm.words, e.1 ≠ FLD_CTRL) → (State.hubReset s cause).on FLD_CTRL FLD_CTRL_TRIP_LOCK = false

/-- PING, IDENTIFY, SENSOR_READ and LOG_READ answer OK with their fields and change nothing (12_command_packets.md R391;
15_porter_management.md R476, R482, R484). -/
def Obligations.StatusCommandsComplete : Prop :=
  Completes 0x0001 .ping (fun _ _ _ => True) stOK (fun _ _ x => le 12 (ft96 x.served) ++ le 1 x.power ++ le 3 0) (fun _ _ x => x)
  ∧ Completes 0x0002 .identify (fun _ _ _ => True) stOK
      (fun _ _ x => le 4 (x.rd SYS_ID).toNat ++ le 8 (x.rd64 SYS_SERIAL) ++ le 4 (Config.bootRomVersion 0).toNat
        ++ le 4 (if x.nvm.slotA.valid then x.nvm.slotA.version else 0) ++ le 4 (if x.nvm.slotB.valid then x.nvm.slotB.version else 0)
        ++ le 1 (x.fld SYS_BOOT_STAT SYS_BOOT_STAT_SLOT_NOW) ++ le 1 (if x.memFailed 0 then 0 else x.gib)
        ++ le 2 (match x.address with | some a => 2 ^ 15 + a | none => 0) ++ le 4 x.nvm.startCount)
      (fun _ _ x => x)
  ∧ Completes 0x0030 .sensorRead (fun _ _ _ => True) stOK
      (fun _ _ x => le 4 0 ++ le 8 x.sys.sensorSt ++ le 4 x.sys.sensorAlarm ++ (List.range 25).flatMap fun i =>
        leI 4 (match x.sys.sensorCodes.find? fun e => e.1 == 0x10 + i with
          | some e => sensorValue e.1 e.2
          | none => 0))
      (fun _ _ x => x)
  ∧ Completes 0x0020 .logRead
      (fun _ ps x => (num ps 0 2 = 0xFFFF ∨ num ps 0 2 < 2048 ∧ x.address = some (num ps 0 2)) ∧ zeroAt ps 2 2 = true ∧ 1 ≤ num ps 8 1
        ∧ num ps 8 1 ≤ 63 ∧ zeroAt ps 9 3 = true)
      stOK
      (fun _ ps x =>
        let out := (x.nvm.bb.filter fun e => decide (num ps 4 4 ≤ e.seq)).take (num ps 8 1)
        le 4 out.length ++ le 4 ((x.nvm.bb.head?.map BBEntry.seq).getD x.nvm.bbNext) ++ le 4 x.nvm.bbNext ++ out.flatMap BBEntry.image)
      (fun _ _ x => x)

/-- UPDATE_BEGIN marks its slot not VALID and opens a session, UPDATE_DATA programs the session's next bytes, UPDATE_COMMIT ends a whole
session and begins the verification, UPDATE_ACTIVATE sets TRIAL on another slot and arranges the hub reset; SOFT_RESET arranges one
(15_porter_management.md R468, R478, R479, R480, R481; 12_command_packets.md R392). -/
def Obligations.UpdateCommandsComplete : Prop :=
  Completes 0x0010 .updateBegin
      (fun _ ps x => num ps 0 1 < 2 ∧ 192 ≤ num ps 4 4 ∧ num ps 4 4 ≤ 29360128 ∧ zeroAt ps 1 3 = true ∧ num ps 0 1 ≠ x.slotNow) stOK
      (fun _ _ _ => [])
      (fun _ ps x =>
        let k := num ps 0 1
        ((x.onNvm fun n => n.onSlot k fun m => { m with valid := false }).onSys fun y => { y with session := some ⟨k, num ps 4 4, 0⟩ }).issue 0x0005
          [k, 0, (x.nvm.slot k).version])
  ∧ (∀ e : Session, Completes 0x0011 .updateData
      (fun _ ps x => x.sys.session = some e ∧ num ps 0 4 = e.received ∧ num ps 0 4 + (ps.drop 4).length ≤ e.length ∧ (ps.drop 4).length % 4 = 0)
      stOK (fun _ ps _ => le 4 (num ps 0 4 + (ps.drop 4).length))
      (fun _ ps x => (x.program e.slot e.received (ps.drop 4)).onSys fun y => { y with session := some { e with received := e.received + (ps.drop 4).length } }))
  ∧ (∀ e : Session, Completes 0x0012 .updateCommit (fun _ _ x => x.sys.session = some e ∧ e.received = e.length) stACCEPTED (fun _ _ _ => [])
      (fun c _ x => started c (x.onSys fun y => { y with session := none, commits := y.commits ++ [(c, e)] })))
  ∧ Completes 0x0013 .updateActivate
      (fun _ ps x => num ps 0 1 < 2 ∧ zeroAt ps 1 3 = true ∧ (x.nvm.slot (num ps 0 1)).valid = true ∧ x.sys.commits = []) stOK (fun _ _ _ => [])
      (fun c ps x =>
        let k := num ps 0 1
        ((if k = x.slotNow then x else x.onNvm fun n => n.onSlot k fun m => { m with trial := true }).issue 0x0005
          [k, 3, (x.nvm.slot k).version]).resetAfter c 3)
  ∧ Completes 0x0007 .softReset (fun c _ _ => c.hears stOK = true) stOK (fun _ _ _ => [])
      (fun c _ x => x.onSys fun y => { y with resetAfterReply := some (c.opcode, c.tag) })

/-- LOG_MARK takes one entry of the allowance and writes a kind-3 entry; SET_POWER_STATE for the present state answers OK at once and,
with PERSIST, stores the state for the next start, and for another state begins the transition (15_porter_management.md R472, R477, R483;
01_architecture.md R33). -/
def Obligations.PowerCommandsComplete : Prop :=
  Completes 0x0021 .logMark (fun _ _ x => x.bbAllowance ≠ 0) stOK (fun _ _ _ => [])
      (fun _ ps x =>
        let items := [num ps 0 8, num ps 8 8, num ps 16 8, num ps 24 8]
        ((x.setFld SYS_BB_STAT SYS_BB_STAT_ALLOWANCE (x.bbAllowance - 1)).bbCommit 0x0009 items).recordEvent 0x0009 items)
  ∧ Completes 0x0003 .setPowerState
      (fun _ ps x => x.isMinimal = false ∧ 1 ≤ num ps 0 1 ∧ num ps 0 1 ≤ 3 ∧ num ps 1 1 < 2 ∧ zeroAt ps 2 2 = true
        ∧ ¬ (num ps 0 1 = 1 ∧ (x.fld RED_CFG RED_CFG_ROLE = 1 ∨ x.isActive = true)) ∧ x.on SYS_PWR_STATE SYS_PWR_STATE_IN_TRANSITION = false
        ∧ num ps 0 1 = x.power)
      stOK (fun _ _ _ => [])
      (fun _ ps x => if num ps 1 1 = 1 then x.onNvm fun n => { n with bootPower := num ps 0 1 } else x)
  ∧ CompletesLater 0x0003 .setPowerState
      (fun _ ps x => x.isMinimal = false ∧ 1 ≤ num ps 0 1 ∧ num ps 0 1 ≤ 3 ∧ num ps 1 1 < 2 ∧ zeroAt ps 2 2 = true
        ∧ ¬ (num ps 0 1 = 1 ∧ (x.fld RED_CFG RED_CFG_ROLE = 1 ∨ x.isActive = true)) ∧ x.on SYS_PWR_STATE SYS_PWR_STATE_IN_TRANSITION = false
        ∧ num ps 0 1 ≠ x.power)
      (fun c ps x => ((x.setFld SYS_PWR_STATE SYS_PWR_STATE_IN_TRANSITION 1).setFld SYS_PWR_STATE SYS_PWR_STATE_TARGET (num ps 0 1)).onSys fun y =>
        { y with transition := some ⟨num ps 0 1, num ps 1 1 == 1, c⟩ })
  ∧ (∀ (tr : Transition) (n : State), Occurs .powerTransitionDone (fun x => x.sys.transition = some tr ∧ x.transit tr.target = some n)
      fun _ => (if tr.persist then (n.onSys fun y => { y with transition := none }).onNvm fun m => { m with bootPower := tr.target }
        else n.onSys fun y => { y with transition := none }).launchDue.answer tr.caller stOK [])

/-- The events that reset the hub come about: power-on and a brown-out without PFW_N with cause 0x00, a pulse on RESET_N of at least 10 us
with 0x01, the reset 1 ms after a reply with its cause and FAILS at 0, the recovery of PFW_N with 0x05 (15_porter_management.md R473;
18_electrical_and_package.md R521, R523, R525). -/
def Obligations.ResetEventsComplete : Prop :=
  Occurs .powerOn (fun _ => True) (fun x => (x.hubReset 0).onSys fun y => { y with jtag := none })
  ∧ (∀ w, Occurs (.resetNPulse · w) (fun _ => 10000 ≤ w) (State.hubReset · 1))
  ∧ (∀ d, Occurs (.supplyBrownout · d) (fun x => 2000 < d ∧ x.sys.pfwNLow = false) (State.hubReset · 0))
  ∧ (∀ since, Occurs .pfwRecoveryReset (fun x => x.sys.pfwRoseAt = some since ∧ since + fineMs 10 ≤ x.now) (State.hubReset · 5))
  ∧ (∀ at_ cause, Occurs .resetAfterReply (fun x => x.cmd.resetArmed = some (at_, cause) ∧ at_ ≤ x.now)
      fun x => (x.onNvm fun n => { n with fails := 0 }).hubReset cause)

/-- `u` is where a failed start of reason `reason` leads from `x`: a hub reset with cause 0x04, one more in FAILS, the reason stored, and
a slot that was on trial not VALID any more (15_porter_management.md R463, R469). -/
def AfterFailedStart (reason : Nat) (x u : State) : Prop :=
  u.rd SYS_RESET_CAUSE = 4#32 ∧ u.sys.phase = .fill ∧ u.nvm.fails = satN 4 (x.nvm.fails + 1) ∧ u.nvm.reason = reason ∧ u.nvm.trialRunning = none
  ∧ ∀ k, x.nvm.trialRunning = some k → (u.nvm.slot k).valid = false ∧ u.nvm.trialFailed = true

/-- A start is under way and supply power stands. -/
def starting (x : State) : Prop := Powered x ∧ (x.sys.phase = .imageLoad ∨ x.sys.phase = .configLoad)

/-- Porter has restarted for cause `cause` (15_porter_management.md R457, R458; 12_command_packets.md R387): the restart is counted and
told, Porter reloads, and where it is the fourth within 600 s the hub resets with cause 0x06; else whatever was in flight ends with
TIMEOUT. -/
def restarted (cause : Nat) (x : State) : State :=
  let recent := x.sys.restarts.filter fun a => decide (a + fineMs 600000 > x.now)
  let x := (x.bump SYS_PORTER_STAT SYS_PORTER_STAT_RESTARTS).setFld SYS_PORTER_STAT SYS_PORTER_STAT_LAST cause
  let x := x.onSys fun m => { m with restarts := recent ++ [x.now], reloading := !x.isMinimal }
  let y := (x.issue 0x0004 [cause, recent.length + 1]).onMem fun m => { m with damage := m.damage.filter fun d => d.mem != 2 }
  if recent.length ≥ 3 then y.hubReset 6
  else
    let z := (y.cmd.inflight.map Prod.fst).foldl (fun s c => s.timeOut c 1) y
    (z.cmd.ops.map LongOp.caller).foldl (fun s c => (s.stopOp c).report c stTIMEOUT []) z

/-- Boot comes about: after the fill and self-test of sound memories a slot is started, a failed Porter SRAM holds the hub in BOOT and any
other failed memory leads to MINIMAL; a verified image leads on to the calibration and configuration, BOOT_OK applies them, a broken store
or 30 s without BOOT_OK are a failed start (14_memory_and_ecc.md R448, R450; 15_porter_management.md R462, R463, R464, R465, R469). -/
def Obligations.BootEventsComplete : Prop :=
  (∀ (r : FillResult) k trial, Yields (.memoryFillDone · r)
      (fun x => x.sys.phase = .fill ∧ bootFailMask r.fillFailed r.answers = 0 ∧ r.trainFailed = false ∧ r.gib0 = r.gib1 ∧ 4 ≤ r.gib0 + r.gib1
        ∧ r.gib0 + r.gib1 < 32 ∧ x.nvm.choose = some (k, trial))
      fun x u => u.sys.phase = .imageLoad ∧ u.sys.bootSlot = k ∧ u.sys.bootFromTrial = trial ∧ u.sys.stepFourAt = x.now
        ∧ u.on MEM_BOOT_STAT MEM_BOOT_STAT_FILL_DONE = true ∧ u.on MEM_BOOT_STAT MEM_BOOT_STAT_TEST_DONE = true
        ∧ u.on MEM_BOOT_STAT MEM_BOOT_STAT_FAILED = false ∧ u.fld MEM_DRAM_CFG MEM_DRAM_CFG_INSTALLED = r.gib0 + r.gib1
        ∧ (Powered x → u.nvm.startCount = x.nvm.startCount + 1))
  ∧ (∀ r : FillResult, Yields (.memoryFillDone · r) (fun x => x.sys.phase = .fill ∧ bit (bootFailMask r.fillFailed r.answers) 2 = true)
      fun _ u => u.sys.phase = .held ∧ (bit (bootFailMask r.fillFailed r.answers) 3 = false → u.on MEM_BOOT_STAT MEM_BOOT_STAT_FAILED = true))
  ∧ (∀ r : FillResult, Yields (.memoryFillDone · r)
      (fun x => x.sys.phase = .fill ∧ bootFailMask r.fillFailed r.answers ≠ 0 ∧ bit (bootFailMask r.fillFailed r.answers) 2 = false)
      fun _ u => u.sys.phase = .minimal ∧ u.power = 4
        ∧ (bit (bootFailMask r.fillFailed r.answers) 3 = false → u.on MEM_BOOT_STAT MEM_BOOT_STAT_FAILED = true))
  ∧ Occurs .imageLoadDone (fun x => x.sys.phase = .imageLoad ∧ x.imageFault x.sys.bootSlot true = none)
      (fun x => ((x.conLine (.bootStep 5)).onSys fun y => { y with phase := .configLoad }).conLine (.bootStep 6))
  ∧ (∀ reason, Yields .imageLoadDone (fun x => starting x ∧ x.sys.phase = .imageLoad ∧ x.imageFault x.sys.bootSlot true = some reason)
      (AfterFailedStart reason))
  ∧ Yields (.bootOk · false) (fun x => x.sys.phase = .configLoad ∧ x.nvm.storeBroken = false ∧ x.nvm.bootPower < 4 ∧ x.sys.bootSlot < 2)
      (fun x u => u.sys.phase = .running ∧ u.power = x.nvm.bootPower ∧ u.on SYS_BOOT_STAT SYS_BOOT_STAT_BOOT_OK = true
        ∧ u.fld SYS_BOOT_STAT SYS_BOOT_STAT_SLOT_NOW = x.sys.bootSlot
        ∧ (Powered x → u.nvm.fails = 0 ∧ u.nvm.activeSlot = x.sys.bootSlot ∧ u.nvm.heldAtReset = 0))
  ∧ (∀ refused, Yields (.bootOk · refused)
      (fun x => starting x ∧ x.sys.phase = .configLoad ∧ (x.nvm.storeBroken = true ∨ refused = true ∧ x.nvm.store.isSome = true)) (AfterFailedStart 5))
  ∧ Yields .bootTimeout (fun x => starting x ∧ x.sys.stepFourAt + fineMs 30000 ≤ x.now) (AfterFailedStart 3)

/-- Supply power fails and comes back, and Porter restarts: PFW_N falling commits the POWER_FAIL entry with the records held, and ends the
transition and the update session; PFW_N rising lets a boot go on that waits for it, or begins the 10 ms; the watchdog and a lockstep
mismatch restart Porter once the hub has booted and fail the start before; a reload that does not verify resets the hub, one that does
lets Porter resume (01_architecture.md R35; 12_command_packets.md R387; 15_porter_management.md R457, R458, R463, R468, R473). -/
def Obligations.PowerFailAndRestartsComplete : Prop :=
  Occurs .pfwNFall (fun x => x.sys.pfwNLow = false)
      (fun x =>
        let y := (x.onNvm fun m => { m with hubAddr := x.storedAddr, nextAddr := none, heldAtReset := x.qm.recs.length, heldOldest := x.oldestHeld }).onSys
          fun m => { m with pfwNLow := true, pfwRoseAt := none }
        (y.bbCommit 0x0008 [x.qm.recs.length, x.oldestHeld, (x.rd SYS_PWR_STATE).toNat,
          b2n x.sys.transition.isSome + 2 * b2n x.sys.session.isSome]).onSys fun m => { m with transition := none, session := none, commits := [] })
  ∧ Occurs .pfwNRise (fun x => x.sys.pfwNLow = true ∧ x.sys.phase ≠ .waitPfw) (fun x => x.onSys fun y => { y with pfwNLow := false, pfwRoseAt := some x.now })
  ∧ Occurs .pfwNRise (fun x => x.sys.pfwNLow = true ∧ x.sys.phase = .waitPfw)
      (fun x => x.onSys fun y => { y with pfwNLow := false, phase := .fill, conOut := y.conOut ++ [.bootStep 2] })
  ∧ Occurs .watchdogExpiry (fun x => x.sys.phase = .running ∧ x.sys.reloading = false) (restarted 0)
  ∧ Yields .watchdogExpiry (fun x => starting x ∧ x.sys.phase = .configLoad) (AfterFailedStart 3)
  ∧ Occurs .lockstepMismatch (fun x => x.booted = true ∧ x.sys.reloading = false) (restarted 1)
  ∧ Yields .lockstepMismatch starting (AfterFailedStart 4)
  ∧ Occurs (.porterReloadDone · false) (fun x => x.sys.reloading = true) (State.hubReset · 6)
  ∧ Occurs (.porterReloadDone · true) (fun x => x.sys.reloading = true)
      (fun x =>
        let queued := x.qm.items.filterMap fun i => match i.ctl with
          | .packet op p => if i.q = 56 then some (op, p) else none
          | _ => none
        queued.foldl (fun s e => s.carryQueued e.1 e.2)
          ((x.onSys fun y => { y with reloading := false }).onQm fun m => { m with items := m.items.filter fun i => i.q != 56 }))

/-- Porter's own timed work and its console come about: the sensor poll, the refill of the black-box allowance, the storing of the
configuration, the answer to "s" on the console, LOCK, a write of NEXT_ADDR, the end of an update commit (15_porter_management.md R461,
R470, R472, R475, R480; 01_architecture.md R20; 00_scope.md R10). -/
def Obligations.PorterEventsComplete : Prop :=
  Occurs .sensorPoll
      (fun x => (x.transomRuns || x.isMinimal) = true ∧ x.sys.reloading = false ∧ x.acq.transom.poll = []
        ∧ (x.sys.sensorAt = none ∨ ∃ f, x.sys.sensorAt = some f ∧ f + fineMs 1000 ≤ x.now))
      (fun x => ((x.onSys fun y => { y with sensorAt := some x.now, sensorSt := x.st }).onTransom fun y => { y with poll := sensorSources }).pollFill)
  ∧ Occurs .bbAllowanceRefill (fun x => x.sys.bbLastSecond < x.second ∧ x.sys.bbDropped = 0)
      (fun x => (x.setFld SYS_BB_STAT SYS_BB_STAT_ALLOWANCE (min 64 (x.bbAllowance + (x.second - x.sys.bbLastSecond)))).onSys fun y =>
        { y with bbLastSecond := x.second })
  ∧ Occurs (.consoleStatusQuery · 0x73#8) (fun x => x.on SYS_CON_CFG SYS_CON_CFG_INPUT = true)
      (fun x => x.conLine (.status x.power (x.fld SYS_BOOT_STAT SYS_BOOT_STAT_SLOT_NOW)))
  ∧ Occurs .consoleLock (fun _ => True) (fun x => x.setFld SYS_CON_CFG SYS_CON_CFG_LOCK 1)
  ∧ (∀ a, Occurs (.nextAddrWrite · a) (fun x => x.memFailed 3 = false)
      fun x => (x.setFld SYS_HUB_ADDR SYS_HUB_ADDR_NEXT_ADDR (a % 2048)).onNvm fun n =>
        { n with hubAddr := x.storedAddr, nextAddr := some (a % 2048), nextAddrAt := x.now })
  ∧ (∀ c e rest, Occurs .updateCommitDone (fun x => x.sys.commits = (c, e) :: rest ∧ x.imageFault e.slot false = none)
      fun x =>
        let h := x.flash (slotBase e.slot) 128
        (((x.onSys fun y => { y with commits := rest }).onNvm fun n => n.onSlot e.slot fun m =>
          { m with valid := true, version := num h 16 4, secVer := num h 20 4 }).issue 0x0005 [e.slot, 1, num h 16 4]).report c stOK
            (le 4 (num h 16 4) ++ le 4 (num h 20 4)))
  ∧ Occurs .configStoreWrite (fun x => x.sys.phase = .running ∧ x.sys.reloading = false ∧ x.memFailed 3 = false ∧ x.config ≠ (x.nvm.store.map CfgCopy.words).getD [])
      fun x =>
        let new : CfgCopy := ⟨false, true, (x.nvm.store.map CfgCopy.generation).getD 0 + 1, x.config⟩
        if x.nvm.store = some x.nvm.cfg0 then x.onNvm fun m => { m with cfg1 := new } else x.onNvm fun m => { m with cfg0 := new }

/-- ABORT stops a long operation short of its commit point, which reports ABORTED; CRED_INSTALL stores the unwrapped key with its
permissions and the counters of a new slot, CRED_REVOKE empties a slot, CRED_STATUS answers all sixteen (12_command_packets.md R390, R403,
R404, R406). -/
def Obligations.CommandBlockCommandsComplete : Prop :=
  (∀ o : LongOp, Completes 0x0040 .abort
      (fun c ps x => (x.cmd.ops.find? fun o => o.caller.tag == num ps 0 2 && o.caller.opcode == num ps 2 2 && o.caller.source == c.source) = some o
        ∧ x.committed o.caller = false ∧ num ps 2 2 ≠ 0xA003)
      stABORTED (fun _ _ _ => []) (fun _ _ x => (x.stopOp o.caller).report o.caller stABORTED []))
  ∧ (∀ o : LongOp, Completes 0x0040 .abort
      (fun c ps x => (x.cmd.ops.find? fun o => o.caller.tag == num ps 0 2 && o.caller.opcode == num ps 2 2 && o.caller.source == c.source) = some o
        ∧ x.committed o.caller = false ∧ num ps 2 2 = 0xA003)
      stABORTED (fun _ _ _ => []) (fun _ _ x => (x.stopOp o.caller).onCmd fun m => { m with ops := m.ops.filter fun y => y.caller != o.caller }))
  ∧ (∀ key : List Byte, Completes 0xB001 .credInstall
      (fun c ps _ => 1 ≤ num ps 0 1 ∧ num ps 0 1 ≤ 15 ∧ num ps 2 2 < 4096 ∧ zeroAt ps 1 1 = true ∧ zeroAt ps 28 4 = true
        ∧ keyUnwrap c.key (bytesAt ps 4 24) = some key)
      stOK (fun _ _ _ => [])
      (fun c ps x =>
        let k := num ps 0 1
        let new : Cred := ⟨true, key, num ps 2 2, 65536⟩
        ((x.onNvm fun n => { n with creds := n.creds.mapIdx fun i old => if i == k then new else old }).setFld (CMD_SLOT_CTR k) CMD_SLOT_CTR_LAST 0).issue
          0xB003 [k, 0, num ps 2 2, c.source]))
  ∧ (∀ old : Cred, Completes 0xB002 .credRevoke
      (fun _ ps x => 1 ≤ num ps 0 1 ∧ num ps 0 1 ≤ 15 ∧ zeroAt ps 1 3 = true ∧ x.cred (num ps 0 1) = some old) stOK (fun _ _ _ => [])
      (fun c ps x =>
        let k := num ps 0 1
        ((x.onNvm fun n => { n with creds := n.creds.mapIdx fun i o => if i == k then ⟨false, [], 0, 0⟩ else o }).setFld (CMD_SLOT_CTR k)
          CMD_SLOT_CTR_LAST 0).issue 0xB003 [k, 1, old.perms, c.source]))
  ∧ Completes 0xB003 .credStatus (fun _ _ _ => True) stOK (fun _ _ x => (List.range 16).flatMap x.credEntry) (fun _ _ x => x)

/-- A packet that is not for this hub is relayed with its TTL less by one, after the part that a relaying hub takes in it, and dropped
with its TTL at an end; a REPLY for this hub is handed to what awaits it; a command that waits 1 s for Porter's reply ends with TIMEOUT;
the caches lose their entries after 8 s and 60 s (12_command_packets.md R370, R371, R372, R379, R386, R387, R544). -/
def Obligations.CommandBlockEventsComplete : Prop :=
  (∀ op p, Occurs (.packetRelay · op p)
      (fun x => x.booted = true ∧ x.malformed p = false ∧ flagScoped p = false ∧ flagOrigin p = false ∧ x.forSpiHost p = false ∧ x.forHere p = false
        ∧ x.relays p = true)
      fun x => (x.relayAct (bodyOf op) op p).relay op p)
  ∧ (∀ op p, Occurs (.packetRelay · op p)
      (fun x => x.booted = true ∧ x.malformed p = false ∧ flagScoped p = false ∧ flagOrigin p = false ∧ x.forSpiHost p = false ∧ x.forHere p = false
        ∧ p.ttl ≤ 1)
      fun x => x.bump CMD_ERR CMD_ERR_TTL_DROPS)
  ∧ (∀ op p, Occurs (.packetRelay · op p)
      (fun x => x.booted = true ∧ x.malformed p = false ∧ flagScoped p = false ∧ flagOrigin p = false ∧ flagReply p = true ∧ x.forSpiHost p = false
        ∧ x.forHere p = false ∧ 1 < p.ttl ∧ x.isActive = false ∧ (p.arrival < 8 → x.role p.arrival ≠ rUplink))
      fun x => x.forward op { p with ttl := p.ttl - 1 } p.arrival)
  ∧ (∀ op p cr, Occurs (.replyReceived · op p)
      (fun x => x.booted = true ∧ x.malformed p = false ∧ flagScoped p = false ∧ flagOrigin p = false ∧ flagReply p = true ∧ x.forSpiHost p = false
        ∧ x.forHere p = true ∧ x.authentic op p = some cr)
      fun x => (x.pmc 0xB01 0 1).handReply op p)
  ∧ (∀ op p e, Occurs (.commandTimeout · op p)
      (fun x => (x.cmd.inflight.find? fun e => e.1.opcode == op && e.1.tag == p.tag && e.1.source == p.source && e.1.slot == p.slot
        && e.1.counter == p.counter && decide (x.now ≥ e.2 + fineMs 1000) && ((opRow op).map OpRow.kind) == some .p) = some e)
      fun x => x.timeOut e.1 0)
  ∧ Occurs .seenCacheExpiry (fun _ => True) (fun x => x.onCmd fun m => { m with seen := m.seen.filter fun e => decide (x.now < e.at_ + fineMs 8000) })
  ∧ Occurs .replyCacheExpiry (fun _ => True) (fun x => x.onCmd fun m => { m with cache := m.cache.filter fun e => decide (x.now < e.at_ + fineMs 60000) })

/-- The frames of the service SPI come about: the status byte (Q60 takes a full packet, Q61 holds one, booted, MINIMAL, FRAME_ERR), reads
of 1 to 64 words, writes while DIRECT_WR is set, whole packets in and out, and a code of no frame, which sets FRAME_ERR
(12_command_packets.md R399, R400, R401, R402). -/
def Obligations.ServiceSpiComplete : Prop :=
  Occurs .spiStatus (fun _ => True)
      (fun x => (x.bump CMD_SPI_CTRL CMD_SPI_CTRL_FRAMES).onCmd fun m => { m with
        spiOut := le 1 (b2n (x.booted && decide (18 ≤ x.room 60)) + 2 * b2n (x.booted && x.q61Head.isSome) + 4 * b2n x.booted + 8 * b2n x.isMinimal
          + 16 * x.fld CMD_SPI_CTRL CMD_SPI_CTRL_FRAME_ERR) })
  ∧ (∀ a n, Occurs (.spiRegRead · a n) (fun x => 1 ≤ n ∧ n ≤ 64 ∧ rangeOk a n = true ∧ x.directReadOk a n = true)
      fun x =>
        let r := (x.spiFrame []).readRegs .spi a n coreClk
        r.2.onCmd fun m => { m with spiOut := le 1 0x5A ++ r.1.flatMap fun w => le 4 w.toNat })
  ∧ (∀ a ws, Occurs (.spiRegWrite · a ws)
      (fun x => x.booted = true ∧ x.on CMD_SPI_CTRL CMD_SPI_CTRL_DIRECT_WR = true ∧ 1 ≤ ws.length ∧ ws.length ≤ 64 ∧ rangeOk a ws.length = true
        ∧ x.nvmRefuses a ws.length = false)
      fun x => (x.spiFrame []).writeRegs .spi a ws)
  ∧ (∀ bs, Occurs (.spiPktWrite · bs (crc32c bs) true) (fun x => x.booted = true ∧ 48 ≤ bs.length ∧ bs.length ≤ 4144 ∧ ceilDiv bs.length 240 ≤ x.room 60)
      fun x => (x.spiFrame []).receive (bodyOf (num bs 2 2)) (num bs 2 2) (packetOf bs))
  ∧ (∀ i op p, Occurs (.spiPktRead · true) (fun x => x.booted = true ∧ x.q61Head = some (i, op, p))
      fun x =>
        let bs := packetBytes op p
        ((x.spiFrame (le 1 0x5A ++ le 2 bs.length ++ bs ++ le 4 (crc32c bs))).onQm fun m => { m with items := m.items.filter fun j => j.iid != i.iid }).replyLeft
          (.packet op p))
  ∧ (∀ code, Occurs (.spiFrameIgnored · code) (fun _ => [0x05#8, 0x0B#8, 0x02#8, 0x12#8, 0x13#8].contains code = false)
      fun x => (x.spiFrame []).setBit CMD_SPI_CTRL CMD_SPI_CTRL_FRAME_ERR 0)

/-- Register access completes: reads and writes of a range of whole words inside a window, 64-bit reads of an aligned pair, and a write by
any other path (12_command_packets.md R394, R395, R396, R397, R398; 00_scope.md R4, R7). -/
def Obligations.RegisterAccessCompletes : Prop :=
  Completes 0x0004 .regRead (fun _ ps _ => 1 ≤ num ps 4 4 ∧ num ps 4 4 ≤ 1023 ∧ rangeOk (num ps 0 4) (num ps 4 4) = true) stOK
      (fun _ ps x => (x.readRegs .command (num ps 0 4) (num ps 4 4) coreClk).1.flatMap fun w => le 4 w.toNat)
      (fun _ ps x => (x.readRegs .command (num ps 0 4) (num ps 4 4) coreClk).2)
  ∧ Completes 0x0006 .regRead64 (fun _ ps _ => num ps 0 4 % 8 = 0 ∧ rangeOk (num ps 0 4) 2 = true) stOK
      (fun _ ps x => (x.readRegs .command (num ps 0 4) 2 0).1.flatMap fun w => le 4 w.toNat)
      (fun _ ps x => (x.readRegs .command (num ps 0 4) 2 0).2)
  ∧ Completes 0x0005 .regWrite
      (fun _ ps x => 1 ≤ num ps 4 4 ∧ num ps 4 4 ≤ 1022 ∧ rangeOk (num ps 0 4) (num ps 4 4) = true ∧ x.nvmRefuses (num ps 0 4) (num ps 4 4) = false)
      stOK (fun _ _ _ => []) (fun _ ps x => x.writeRegs .command (num ps 0 4) ((wordsOf (ps.drop 8) (num ps 4 4)).map word))
  ∧ (∀ path a w, Occurs (.registerWrite · path a w) (fun x => rangeOk a 1 = true ∧ x.nvmRefuses a 1 = false) fun x => x.writeReg path a w)
  ∧ (∀ j, Occurs (.jtagInstruction · j) (fun _ => True) fun x => x.onSys fun y => { y with jtag := some j })

/-- The MEM block's commands and events complete: SCRUB starts over whole words of the range and reports at its end, MEM_STATUS answers
the counts and clears them on request, MEM_INJECT plants damage in place of what stood there, the DRAM's refresh rate follows its
temperature (14_memory_and_ecc.md R451, R452, R453, R454). -/
def Obligations.MemoryCommandsComplete : Prop :=
  Completes 0xD001 .scrub
      (fun _ ps x =>
        let m := num ps 0 1
        let size := x.memSize m
        x.power ≠ 1 ∧ m ≤ 4 ∧ num ps 1 1 ≤ 1 ∧ zeroAt ps 2 2 = true ∧ ¬ (num ps 1 1 = 1 ∧ m = 3) ∧ num ps 4 8 < size ∧ num ps 4 8 + num ps 12 8 ≤ size
        ∧ (m = 0 → num ps 20 4 ≤ 8000) ∧ ¬ (x.isMinimal = true ∧ m = 0 ∧ x.memFailed 0 = true) ∧ x.mem.scrub = none)
      stACCEPTED (fun _ _ _ => [])
      (fun c ps x =>
        let m := num ps 0 1
        let stop := if num ps 12 8 = 0 then x.memSize m else num ps 4 8 + num ps 12 8
        started c ((((((x.setFld MEM_SCRUB_STAT MEM_SCRUB_STAT_RUNNING 1).setFld MEM_SCRUB_STAT MEM_SCRUB_STAT_MEMORY m).setFld MEM_SCRUB_STAT
          MEM_SCRUB_STAT_MODE (num ps 1 1)).setFld MEM_SCRUB_STAT MEM_SCRUB_STAT_PROGRESS 0)).onMem fun y =>
            { y with scrub := some ⟨m, num ps 1 1 == 1, num ps 4 8 / memWord m * memWord m, stop, if num ps 20 4 = 0 then 1000 else num ps 20 4, x.now, c⟩ }))
  ∧ Completes 0xD002 .memStatus (fun _ ps _ => num ps 0 4 < 2) stOK
      (fun _ ps x =>
        let w := fun a => le 4 (x.rd a).toNat
        let err := fun (x : State) (m : Nat) =>
          if bit (num ps 0 1) 0 then
            le 4 ((x.takeRc (MEM_ERR m) MEM_ERR_CORRECTED).1 * 65536 + ((x.takeRc (MEM_ERR m) MEM_ERR_CORRECTED).2.takeRc (MEM_ERR m) MEM_ERR_UNCORR).1)
          else w (MEM_ERR m)
        w MEM_BOOT_STAT ++ w MEM_LAYOUT ++ w MEM_DRAM_CFG ++ (List.range 5).flatMap fun m => err x m ++ w (MEM_ERR_INFO m) ++ le 8 (x.rd64 (MEM_ERR_ADDR m)))
      (fun _ ps x =>
        if bit (num ps 0 1) 0 then
          (List.range 5).foldl (fun s m => ((s.takeRc (MEM_ERR m) MEM_ERR_CORRECTED).2.takeRc (MEM_ERR m) MEM_ERR_UNCORR).2) x
        else x)
  ∧ Completes 0xD003 .memInject
      (fun _ ps x => num ps 0 1 ≤ 4 ∧ num ps 0 1 ≠ 3 ∧ num ps 1 1 ≤ 2 ∧ zeroAt ps 2 2 = true ∧ ¬ (num ps 0 1 = 2 ∧ num ps 1 1 ≠ 0)
        ∧ num ps 4 8 < x.memSize (num ps 0 1) ∧ (x.memRead (num ps 0 1) (num ps 4 8) 6).1 = true)
      stOK (fun _ _ _ => [])
      (fun _ ps x =>
        let m := num ps 0 1
        let y := (x.memRead m (num ps 4 8) 6).2
        (y.heal m (num ps 4 8)).onMem fun z => { z with damage := z.damage ++ [⟨m, num ps 4 8 / memWord m * memWord m, num ps 1 1, some x.clock, none⟩] })
  ∧ (∀ mr4, Occurs (.dramTempPoll · mr4) (fun x => x.power ≠ 1 ∧ x.sys.phase ≠ .waitPfw) fun x => x.onMem fun y => { y with refresh := mr4 % 8 })
  ∧ (∀ k, Occurs .scrubDone
      (fun x => x.mem.scrub = some k ∧ x.power ≠ 1 ∧ ¬ (k.mem = 0 ∧ (x.now - k.since) * k.rate < (k.stop - k.start) * 419431))
      fun x =>
        let hits := x.scrubHits k k.stop
        let y := ((hits.foldl (scrubWord k.correct) x).setFld MEM_SCRUB_STAT MEM_SCRUB_STAT_RUNNING 0).setFld MEM_SCRUB_STAT MEM_SCRUB_STAT_PROGRESS 0xFF
        let z := y.onMem fun m => { m with scrub := none }
        let n := fun j => le 4 (satN 32 (hits.filter fun d => d.kind == j).length)
        z.report k.caller stOK (le 8 (ceilDiv (k.stop - k.start) (memWord k.mem)) ++ n 0 ++ n 1 ++ n 2
          ++ le 8 (match hits.find? fun d => d.kind != 0 with
            | some d => d.offset / memWord k.mem * memWord k.mem
            | none => 2 ^ 64 - 1)
          ++ le 4 ((z.now - k.since) / fineMs 1)))

/-- The PMC block's commands and events complete: the counters named are configured, zeroed, enabled or disabled together, read with the
cycle count, dumped, and cleared (17_counters_and_test.md R507, R508, R509, R511, R513, R514, R515). -/
def Obligations.CounterCommandsComplete : Prop :=
  Completes 0xE001 .pmcConfig
      (fun _ ps _ => num ps 1 1 < 8 ∧ zeroAt ps 2 2 = true ∧ ¬ (bit (num ps 1 1) 1 = true ∧ bit (num ps 1 1) 2 = true)
        ∧ ∀ i, i < 8 → bit (num ps 0 1) i = true → pmcCfgOk (word (num ps (4 + 4 * i) 4)) = true ∧ bits (num ps (4 + 4 * i) 4) 23 7 = 0
          ∧ bits (num ps (4 + 4 * i) 4) 12 4 = 0)
      stOK (fun _ _ _ => [])
      (fun _ ps x =>
        let f := num ps 1 1
        let x := x.pmcHold
        let x := if bit f 0 then x.pmcZero else x
        let x := ((List.range 8).filter fun i => bit (num ps 0 1) i).foldl (fun s i => s.wr (PMC_CFG i) (word (num ps (4 + 4 * i) 4))) x
        if bit f 1 then x.setFld PMC_CTRL PMC_CTRL_ENABLE 1 else if bit f 2 then x.setFld PMC_CTRL PMC_CTRL_ENABLE 0 else x)
  ∧ Completes 0xE002 .pmcRead (fun _ ps _ => num ps 0 4 < 2) stOK
      (fun _ _ x =>
        let w := fun a => le 4 (x.rd a).toNat
        le 8 x.pmcBlk.cycle ++ le 4 x.pmcOvf ++ ((List.range 8).flatMap fun i => le 4 (x.pmcCount i)) ++ (List.range 8).flatMap fun i => w (PMC_CFG i))
      (fun _ ps x => if bit (num ps 0 1) 0 then x.pmcZero else x)
  ∧ Completes 0xE003 .pmcDumpConfig (fun _ ps _ => 10 ≤ wfld (word (num ps 0 4)) PMC_DUMP_PERIOD ∧ bits (num ps 0 4) 24 6 = 0) stOK
      (fun _ _ _ => []) (fun _ ps x => x.setDump (word (num ps 0 4)))
  ∧ Occurs .pmcDump
      (fun x => x.on PMC_DUMP PMC_DUMP_DUMP_EN = true ∧ x.coreClock = true ∧ x.pmcBlk.nextDump ≤ x.served40 ∧ x.address.isSome = true ∧ x.full 58 = false)
      (fun x =>
        let y := x.onPmc fun m => { m with nextDump := nextMultiple (x.fld PMC_DUMP PMC_DUMP_PERIOD) (x.served40 + 1) }
        let r : Rec := { blankRec with
          rtype := 6, addr := x.noChan, st := x.st, stLast := x.st, tqByte := x.tqByte false, count := 9, payload := x.dumpImage, aq := 58 }
        let z := (y.addSeqRec r).onPmc fun m => { m with intervalStart := x.st, skippedSince := 0 }
        if x.on PMC_DUMP PMC_DUMP_DELTA then z.pmcClear else z)
  ∧ Occurs .pmcDump
      (fun x => x.on PMC_DUMP PMC_DUMP_DUMP_EN = true ∧ x.coreClock = true ∧ x.pmcBlk.nextDump ≤ x.served40 ∧ x.address.isSome = true ∧ x.full 58 = true)
      (fun x => ((x.onPmc fun m => { m with nextDump := nextMultiple (x.fld PMC_DUMP PMC_DUMP_PERIOD) (x.served40 + 1) }).bump PMC_DUMP
        PMC_DUMP_SKIPPED).onPmc fun m => { m with skippedSince := m.skippedSince + 1 })
  ∧ Occurs .pmcClear (fun _ => True)
      (fun x => ((List.range 8).foldl (fun s i =>
          let chained := i % 2 == 1 && wfld (s.pmcWord i) PMC_CFG_CHAIN == 1
          s.setFld (PMC_CNT i) PMC_CNT_COUNT (if chained then 0 else s.freshCount (PMC_CNT i) PMC_CNT_COUNT % 2 ^ 32)) x).setFld PMC_STAT PMC_STAT_OVF
        (x.freshBits PMC_STAT PMC_STAT_OVF))
  ∧ (∀ b w, Occurs (.pmcToneWrite · b w)
      (fun x => wfld w PMC_TONE_EN = 1 ∧ (x.fld (AFE_BAY_EXC b) AFE_BAY_EXC_EMODE ≠ 1 ∨ ∃ c ∈ x.sampled b, x.chMode c ≠ 2 ∧ x.chMode c ≠ 3)) fun x => x)
  ∧ (∀ b w, Occurs (.pmcToneWrite · b w)
      (fun x => wfld w PMC_TONE_EN = 1 ∧ x.fld (AFE_BAY_EXC b) AFE_BAY_EXC_EMODE = 1 ∧ (∀ c ∈ x.sampled b, x.chMode c = 2 ∨ x.chMode c = 3)
        ∧ x.toned b = false ∧ x.bayRuns b = true)
      fun x =>
        ((x.setFld (PMC_TONE b) PMC_TONE_EN 1).setFld (PMC_TONE b) PMC_TONE_LEVEL (wfld w PMC_TONE_LEVEL)).toneEvent b 1)
  ∧ (∀ b w, Occurs (.pmcToneWrite · b w) (fun x => wfld w PMC_TONE_EN = 0 ∧ x.toned b = false)
      fun x => (x.setFld (PMC_TONE b) PMC_TONE_EN 0).setFld (PMC_TONE b) PMC_TONE_LEVEL (wfld w PMC_TONE_LEVEL))

/-- The CAL block's commands complete: CAL_RUN queues the groups it names, CAL_STATUS and CAL_COEFF_READ answer, CAL_POLICY stores the
policy (16_calibration.md R500, R501, R502, R503). -/
def Obligations.CalibrationCommandsComplete : Prop :=
  Completes 0xF001 .calRun
      (fun _ ps x => num ps 0 1 < 6 ∧ 1 ≤ num ps 2 1 ∧ num ps 1 1 + num ps 2 1 ≤ calCount (num ps 0 1) ∧ num ps 3 1 < 2
        ∧ (num ps 0 1 = 0 → (allIn (num ps 1 1) (num ps 2 1) fun k => allIn 0 16 fun i => x.bmode (dieBay k i) == 0) = true)
        ∧ (num ps 0 1 = 3 → (allIn (num ps 1 1) (num ps 2 1) fun p => x.on (LNK_PORT_CFG p) LNK_PORT_CFG_TEST) = true)
        ∧ (x.cal.running.any fun r => (calItem r.g).1 == num ps 0 1) = false)
      stACCEPTED (fun _ _ _ => [])
      (fun c ps x =>
        let gs := (List.range (num ps 2 1)).map fun i => calGroup (num ps 0 1) (num ps 1 1 + i)
        started c (gs.foldl (fun s g => s.queueCal g) (x.onCal fun y => { y with ops := y.ops ++ [⟨c, gs, [], bit (num ps 3 1) 0⟩] })))
  ∧ Completes 0xF002 .calStatus (fun _ _ _ => True) stOK
      (fun _ _ x => (([CAL_POLICY, CAL_PERIOD, CAL_STAT, CAL_COUNT].map fun a => (x.rd a).toNat)
        ++ (List.range 29).flatMap fun g => [(x.calGrpStat g).toNat, (x.rd (CAL_GRP_QUAL g)).toNat]).flatMap (le 4))
      (fun _ _ x => x)
  ∧ Completes 0xF003 .calCoeffRead
      (fun _ ps x => num ps 0 1 < 6 ∧ num ps 1 1 < calCount (num ps 0 1) ∧ zeroAt ps 2 2 = true ∧ 1 ≤ num ps 8 4 ∧ num ps 8 4 ≤ 4000
        ∧ num ps 4 4 + num ps 8 4 ≤ (x.calImage (calGroup (num ps 0 1) (num ps 1 1))).length)
      stOK (fun _ ps x => bytesAt (x.calImage (calGroup (num ps 0 1) (num ps 1 1))) (num ps 4 4) (num ps 8 4)) (fun _ _ x => x)
  ∧ Completes 0xF004 .calPolicy (fun _ ps _ => bits (num ps 0 4) 24 5 = 0 ∧ bits (num ps 0 4) 0 16 = 0 ∧ bits (num ps 0 4) 16 8 ≠ 0) stOK
      (fun _ _ _ => []) (fun _ ps x => (x.wrNvm CAL_POLICY (word (num ps 0 4))).wrNvm CAL_PERIOD (word (num ps 4 4)))

/-- The CAL block's events come about: a due group is queued, a ready group starts, a running one ends with its values, a failed one is
tried again (16_calibration.md R489, R492, R493, R494, R495, R496, R497). -/
def Obligations.CalibrationEventsComplete : Prop :=
  (∀ g, Occurs (.calPeriodExpiry · g)
      (fun x => x.sys.reloading = false ∧ (x.calPolicy g).1 = true ∧ (x.calPolicy g).2 ≠ 0 ∧ Tab.get 0 x.cal.lastRun g + (x.calPolicy g).2 ≤ x.now) (State.queueCal · g))
  ∧ (∀ g, Occurs (.calGroupStart · g)
      (fun x => x.calReady g = true ∧ (x.cal.queued.any fun h => decide (h < g) && (calItem h).1 == (calItem g).1 && x.calReady h) = false
        ∧ (calItem g).1 ≠ 1 ∧ (calItem g).1 ≠ 2 ∧ (calItem g).1 ≠ 5)
      (State.calBegin · g))
  ∧ (∀ g, Occurs (.calGroupStart · g)
      (fun x => x.calReady g = true ∧ (x.cal.queued.any fun h => decide (h < g) && (calItem h).1 == (calItem g).1 && x.calReady h) = false
        ∧ (calItem g).1 = 1)
      fun x =>
        let k := (calItem g).2
        (((List.range 16).foldl (fun s i =>
          if s.bayIdle (dieBay k i) then s.setFld (CONV_BAY_STAT (dieBay k i)) CONV_BAY_STAT_CAL_BUSY 1 else s) (x.calBegin g)).onTakeover k
            fun _ => { left := List.range 17 }).nextTakeover k)
  ∧ (∀ g, Occurs (.calGroupStart · g)
      (fun x => x.calReady g = true ∧ (x.cal.queued.any fun h => decide (h < g) && (calItem h).1 == (calItem g).1 && x.calReady h) = false
        ∧ (calItem g).1 = 2)
      fun x => (x.calBegin g).coreOut (calItem g).2)
  ∧ (∀ g, Occurs (.calGroupStart · g)
      (fun x => x.calReady g = true ∧ (x.cal.queued.any fun h => decide (h < g) && (calItem h).1 == (calItem g).1 && x.calReady h) = false
        ∧ (calItem g).1 = 5)
      fun x =>
        let y := x.calBegin g
        (y.onTransom fun m => { m with calibrating := true, since := y.now, lastCal := some (y.now, y.calTemp 28) }).showTransom)
  ∧ (∀ g vs q, Occurs (.calGroupDone · g vs q)
      (fun x => (x.cal.running.any fun r => r.g == g) = true ∧ (calItem g).1 ≠ 1 ∧ (calItem g).1 ≠ 2 ∧ (calItem g).1 ≠ 4)
      fun x => (vs.foldl (fun s v => s.calValue g v) x).calFinish g q)
  ∧ (∀ g vs q, Occurs (.calGroupDone · g vs q) (fun x => (x.cal.running.any fun r => r.g == g) = true ∧ (calItem g).1 = 4)
      fun x => ((vs.filter fun v => x.excTakes (calItem g).2 v).foldl (fun s v => s.calValue g v) x).calFinish g q)
  ∧ (∀ g vs q, Occurs (.calGroupDone · g vs q)
      (fun x => (x.cal.running.any fun r => r.g == g) = true ∧ (calItem g).1 = 1 ∧ (x.takeover (calItem g).2).left = []
        ∧ (x.takeover (calItem g).2).bay = none ∧ (x.takeover (calItem g).2).reliefDue = false)
      (State.calFinish · g q))
  ∧ (∀ g, Occurs (.calRetry · g) (fun x => (Tab.get (0, 0) x.cal.retryAt g).1 ≠ 0 ∧ (Tab.get (0, 0) x.cal.retryAt g).1 ≤ x.now)
      fun x => (x.onCal fun c => { c with retryAt := Tab.set (0, 0) c.retryAt g (0, (Tab.get (0, 0) x.cal.retryAt g).2) }).queueCal g)
  ∧ (∀ (v : Fin 8) vs q r, Occurs (.vernierCalDone · v vs q) (fun x => (x.cal.running.find? fun r => r.g == 8 + v.val) = some r)
      fun x => ((vs.foldl (fun s y => s.calValue (8 + v.val) y) x).calFinish (8 + v.val) q).coreBack v (some r.since))

/-- The AFE block's commands complete: CH_CONFIG, CH_QUERY, BAY_EXCITATION, CH_TEST_INJECT at once and at a time, CLAMP_STATUS
(02_front_end.md R73, R75, R76, R77, R78, R79). -/
def Obligations.FrontEndCommandsComplete : Prop :=
  Completes 0x1001 .chConfig
      (fun _ ps x => 1 ≤ num ps 2 2 ∧ num ps 0 2 + num ps 2 2 ≤ 512 ∧ chWordsClean (word (num ps 4 4)).toNat (word (num ps 8 4)).toNat = true
        ∧ ∀ o ∈ x.chChecks (num ps 0 2) (num ps 2 2) (word (num ps 4 4)) (word (num ps 8 4)), o = none)
      stOK (fun _ _ _ => [])
      (fun _ ps x => (List.range (num ps 2 2)).foldl (fun s i => s.applyChannel (num ps 0 2 + i) (word (num ps 4 4)) (word (num ps 8 4))) x)
  ∧ Completes 0x1002 .chQuery (fun _ ps _ => num ps 0 2 < 512 ∧ zeroAt ps 2 2 = true) stOK
      (fun _ ps x =>
        let c := num ps 0 2
        let m := x.chMode c
        le 4 (x.rd (AFE_CH_CFG c)).toNat ++ le 4 (x.rd (AFE_CH_THR c)).toNat ++ le 4 (x.chStat c).toNat
          ++ le 4 (if m = 0 then 0 else fullScale m (if m = 5 then 0 else wfld (x.chStat c) AFE_CH_STAT_RANGE_NOW))
          ++ le 4 (if m = 1 then (x.ch c).capLast else 0) ++ le 4 (if m = 4 then (x.ch c).loopLast else 0)
          ++ le 8 (((x.ch c).proven.map x.stAt).getD 0))
      (fun _ _ x => x)
  ∧ Completes 0x1003 .bayExcitation
      (fun _ ps x => num ps 0 1 < 64 ∧ zeroAt ps 1 3 = true ∧ bits (word (num ps 4 4)).toNat 28 1 = 0 ∧ bits (word (num ps 4 4)).toNat 12 4 = 0
        ∧ bits (word (num ps 8 4)).toNat 16 4 = 0 ∧ ∀ o ∈ x.excChecks (num ps 0 1) (word (num ps 4 4)) (word (num ps 8 4)), o = none)
      stOK (fun _ _ _ => []) (fun _ ps x => x.setExc (num ps 0 1) (word (num ps 4 4)) (word (num ps 8 4)))
  ∧ Completes 0x1004 .chTestInject
      (fun _ ps x => num ps 6 1 < 4 ∧ zeroAt ps 7 1 = true ∧ num ps 8 12 = 0 ∧ ∀ o ∈ x.injectChecks (num ps 0 2) (num ps 2 2) (num ps 4 2) (num ps 20 4), o = none)
      stOK (fun _ _ _ => [])
      (fun _ ps x => x.doInject (num ps 0 2) (num ps 2 2) (num ps 4 2) (bit (num ps 6 1) 0) (bit (num ps 6 1) 1) (num ps 20 4))
  ∧ (∀ i, Completes 0x1004 .chTestInject
      (fun _ ps x => num ps 6 1 < 4 ∧ zeroAt ps 7 1 = true ∧ num ps 8 12 ≠ 0 ∧ x.armTimeOk (num ps 8 12 / 2 ^ 8) = true ∧ x.tq ≠ 3 ∧ x.freeAction = some i
        ∧ ∀ o ∈ x.injectChecks (num ps 0 2) (num ps 2 2) (num ps 4 2) (num ps 20 4), o = none)
      stOK (fun _ _ _ => [])
      (fun _ ps x =>
        let f := num ps 6 1
        x.armEntry i (word (5 * 2 ^ 24 + f / 2 * 2 ^ 23 + f % 2 * 2 ^ 22 + num ps 2 2 * 2 ^ 10 + num ps 0 2)) (num ps 20 4 * 4096 + num ps 4 2)
          (num ps 8 12 / 2 ^ 8)))
  ∧ Completes 0x1005 .clampStatus (fun _ ps _ => 1 ≤ num ps 2 2 ∧ num ps 0 2 + num ps 2 2 ≤ 512 ∧ num ps 4 1 < 2 ∧ zeroAt ps 5 3 = true) stOK
      (fun _ ps x => ((List.range (num ps 2 2)).map fun i => num ps 0 2 + i).flatMap fun c =>
        le 2 (x.takeRc (AFE_CH_STAT c) AFE_CH_STAT_CLAMP_COUNT).1 ++ le 1 (wfld (x.chStat c) AFE_CH_STAT_CLAMP_NOW
          + 2 * b2n (bit (x.fld (AFE_CLAMP_SEEN (c / 32)) AFE_CLAMP_SEEN_SEEN) (c % 32)
            && !bit (x.freshBits (AFE_CLAMP_SEEN (c / 32)) AFE_CLAMP_SEEN_SEEN) (c % 32))) ++ le 1 0)
      (fun _ ps x => if bit (num ps 4 1) 0 then ((List.range (num ps 2 2)).map fun i => num ps 0 2 + i).foldl (fun s c =>
          let a := AFE_CLAMP_SEEN (c / 32)
          let v := s.fld a AFE_CLAMP_SEEN_SEEN
          (s.takeRc (AFE_CH_STAT c) AFE_CH_STAT_CLAMP_COUNT).2.setFld a AFE_CLAMP_SEEN_SEEN
            (if bit v (c % 32) && !bit (s.freshBits a AFE_CLAMP_SEEN_SEEN) (c % 32) then v - 2 ^ (c % 32) else v)) x
        else x)

/-- The AFE block's events come about: charge resets, clamps, the excitation's periods and limit, pilot windows, test ticks and the
opposite edge of an injected charge (02_front_end.md R47, R49, R53, R54, R55, R56, R61, R62, R64, R65, R73). -/
def Obligations.FrontEndEventsComplete : Prop :=
  (∀ c : Fin 512, Occurs (.chargeReset · c)
      (fun x =>
        let step := x.scanN (c.val / 8) * clk
        let k := x.now / step * step
        x.modeAt c.val k = 1 ∧ x.bayRuns (c.val / 8) = true ∧ (x.ch c.val).resetDue = true ∧ (x.ch c.val).switches = []
          ∧ (∀ e, (x.ch c.val).edgeAt = some e → ¬ (k ≤ e ∧ e ≤ k + step))
          ∧ ∀ i, (x.ch c.val).inject = some i → ¬ (k ≤ i.edge ∧ i.edge ≤ k + step) ∧ ¬ (k ≤ i.back ∧ i.back ≤ k + step))
      fun x =>
        let step := x.scanN (c.val / 8) * clk
        let k := x.now / step * step
        ((x.onCh c.val fun h => { h with resetDue := false, resets := k :: h.resets }).addSpan c.val fResetStitch (k + step) (k + step)).bump
          (AFE_CH_STAT c.val) AFE_CH_STAT_RESET_COUNT)
  ∧ (∀ (c : Fin 512) u, Occurs (.clampOnset · c u) (fun x => x.driven c.val = false)
      fun x =>
        let y := (x.bump (AFE_CH_STAT c.val) AFE_CH_STAT_CLAMP_COUNT).setBit (AFE_CLAMP_SEEN (c.val / 32)) AFE_CLAMP_SEEN_SEEN (c.val % 32)
        let y := (y.addSpan c.val fClamp y.now (max y.now u)).addSpan c.val fOverload y.now (max y.now u)
        (y.onCh c.val fun h => { h with clampUntil := max h.clampUntil u }).issueLim 0x1003 c.val 1 1 true [c.val, 0])
  ∧ (∀ b : Fin 64, Occurs (.excLimit · b)
      (fun x => x.on (AFE_BAY_EXC b.val) AFE_BAY_EXC_BOOST = false ∧ wfld (x.excWord b.val) AFE_BAY_EXC_EMODE ≠ 0
        ∧ x.on (AFE_BAY_MON b.val) AFE_BAY_MON_LIMIT = false)
      fun x => (bayChans b.val).foldl (fun s c => if s.chMode c == 3 && s.wireEn c then s.wireBreak c 2 else s)
        ((x.setFld (AFE_BAY_MON b.val) AFE_BAY_MON_LIMIT 1).issue 0x1004 [b.val, x.st]))
  ∧ (∀ (b : Fin 64) m, Occurs (.excitationPeriod · b m)
      (fun x => wfld (x.excWord b.val) AFE_BAY_EXC_EMODE ≠ 0 ∧ wfld (x.excWord b.val) AFE_BAY_EXC_EMODE ≠ 1
        ∧ (m.limit = false ∨ x.on (AFE_BAY_EXC b.val) AFE_BAY_EXC_BOOST = true))
      fun x => x.setFld (AFE_BAY_MON b.val) AFE_BAY_MON_LIMIT 0)
  ∧ (∀ (b : Fin 64) m, Occurs (.excitationPeriod · b m)
      (fun x => wfld (x.excWord b.val) AFE_BAY_EXC_EMODE = 1 ∧ (x.bayOf b.val).perFrom = none) fun x => x.excStart b.val x.now)
  ∧ (∀ (b : Fin 64) m f, Occurs (.excitationPeriod · b m)
      (fun x => wfld (x.excWord b.val) AFE_BAY_EXC_EMODE = 1 ∧ (x.bayOf b.val).perFrom = some f ∧ f + x.excPeriod b.val ≤ x.now)
      fun x =>
        let e := f + x.excPeriod b.val
        let r := x.excSense b.val m
        let y := if m.limit && !r.2.on (AFE_BAY_EXC b.val) AFE_BAY_EXC_BOOST then r.2.excLimit b.val
          else r.2.setFld (AFE_BAY_MON b.val) AFE_BAY_MON_LIMIT 0
        let z := y.excMeasured b.val f e r.1
        if (z.bayOf b.val).excOld.isNone then (z.excLatch b.val).onBay b.val fun h => { h with perFrom := some e }
        else (((bayChans b.val).filter fun c => z.chMode c == 3).foldl (fun s c => s.addSpan c fRangeChange (e - 1) (e - 1)) z).excStart b.val e)
  ∧ (∀ (c : Fin 512) r, Occurs (.pilotWindow · c r)
      (fun x => x.chMode c.val = 1 ∧ x.wireEn c.val = true ∧ x.on (AFE_CH_CFG c.val) AFE_CH_CFG_PILOT = true
        ∧ (x.on (AFE_CH_CFG c.val) AFE_CH_CFG_CM_CHECK = false ∨ ∀ f, x.acq.tickAt = some f → x.now ≤ f ∨ f + fineUs 264 ≤ x.now))
      fun x => match r with
        | .passed => x.wirePass c.val (x.now - fineUs 64) x.now
        | .openCable => x.wireBreak c.val 5
        | .shortCable => x.wireBreak c.val 7)
  ∧ (∀ caps, Occurs (.testTick · caps)
      (fun x => x.fld AFE_CTRL AFE_CTRL_TEST_TICK ≠ 0
        ∧ x.fld AFE_CTRL AFE_CTRL_TEST_TICK * periodOf (max 1 (x.fld AFE_CTRL AFE_CTRL_TEST_TICK)) x.served ≠ x.acq.lastTick)
      fun x =>
        let k := x.fld AFE_CTRL AFE_CTRL_TEST_TICK * periodOf (max 1 (x.fld AFE_CTRL AFE_CTRL_TEST_TICK)) x.served
        let f := x.localOf (ceilDiv (k * 2 ^ 80) 1000)
        caps.foldl (fun s e =>
          if e.1 ≥ 512 || s.chMode e.1 != 1 || !s.on (AFE_CH_CFG e.1) AFE_CH_CFG_CM_CHECK then s
          else
            let y := s.onCh e.1 fun h => { h with capLast := e.2.getD h.capLast }
            if !y.wireEn e.1 then y
            else match e.2 with
              | none => y.wireBreak e.1 7
              | some cap => if cap < 500 then y.wireBreak e.1 5 else y.wirePass e.1 f (f + tickLen))
          (x.onAcq fun a => { a with lastTick := k, tickAt := some f }))
  ∧ (∀ (c : Fin 512) i, Occurs (.injectOppositeEdge · c) (fun x => (x.ch c.val).inject = some i ∧ i.back ≤ x.now)
      fun x =>
        let y := (x.chargeEdge c.val i.back).onCh c.val fun h => { h with inject := none }
        if allIn i.first i.count fun k => (y.ch k).inject.all fun j => j.cmd != i.cmd then y.issue 0x1006 [i.first, i.count, i.edgeSt] else y)

/-- The CONV block's commands complete: BAY_MODE, TRANSOM_SEQUENCE, TRANSOM_URGENT, and the starts and COMMIT of the transom sequence
(03_conversion.md R101, R105, R108, R109, R110). -/
def Obligations.ConversionCommandsComplete : Prop :=
  Completes 0x2001 .bayMode
      (fun _ ps x => 1 ≤ num ps 1 1 ∧ num ps 0 1 + num ps 1 1 ≤ 64 ∧ zeroAt ps 2 2 = true ∧ bits (word (num ps 4 4)).toNat 6 26 = 0
        ∧ bits (word (num ps 4 4)).toNat 2 2 = 0 ∧ ∀ i, i < num ps 1 1 →
          ∀ o ∈ x.bayChecks ((List.range (num ps 1 1)).map fun i => num ps 0 1 + i) (word (num ps 4 4)) (word (num ps 8 4)) (num ps 0 1 + i), o = none)
      stOK (fun _ _ _ => [])
      (fun _ ps x => (((List.range (num ps 1 1)).map fun i => num ps 0 1 + i).foldl (fun s b => s.setBay b (word (num ps 4 4)) (word (num ps 8 4))) x).showLoad)
  ∧ Completes 0x2002 .transomSequence
      (fun _ ps _ => num ps 0 1 < 64 ∧ num ps 1 1 ≤ 64 ∧ num ps 0 1 + num ps 1 1 ≤ 64 ∧ num ps 2 1 < 4 ∧ zeroAt ps 3 1 = true
        ∧ bits (word (num ps 4 4)).toNat 10 2 = 0 ∧ bits (word (num ps 4 4)).toNat 6 2 = 0
        ∧ (((wordsOf (ps.drop 8) (num ps 1 1)).map word).all tseqOk) = true)
      stOK (fun _ _ _ => [])
      (fun _ ps x =>
        let y := ((List.range (num ps 1 1)).zip ((wordsOf (ps.drop 8) (num ps 1 1)).map word)).foldl (fun s e => s.wr (CONV_TSEQ (num ps 0 1 + e.1)) e.2) x
        let y := y.setTseqCtrl (word (num ps 4 4))
        let y := if bit (num ps 2 1) 0 then y.setFld CONV_TSEQ_CTRL CONV_TSEQ_CTRL_COMMIT 1 else y
        if bit (num ps 2 1) 1 then y.transomTrigger else y)
  ∧ CompletesLater 0x2003 .transomUrgent
      (fun _ ps x => tseqOk (setBits (word (num ps 0 4)) CONV_TSEQ_LAST 0) = true ∧ x.transomRuns = true ∧ x.acq.transom.urgent.length < 4)
      (fun c ps x => x.urgentRequest ⟨word (num ps 0 4), some c⟩)
  ∧ Occurs .transomStart
      (fun x => x.transomRuns = true ∧ x.acq.transom.running = none ∧ x.acq.transom.calibrating = false ∧ x.acq.transom.fullAt ≠ some (x.now / clk))
      (fun x => x.startSequence.showTransom)
  ∧ Occurs .transomStart
      (fun x => x.transomRuns = true ∧ x.acq.transom.running.isSome = true ∧ x.acq.transom.fullAt ≠ some (x.now / clk)
        ∧ x.acq.transom.pendingSlot = false)
      (fun x => (x.onTransom fun y => { y with pendingSlot := true }).showTransom)
  ∧ Occurs .transomStart
      (fun x => x.transomRuns = true ∧ x.acq.transom.running.isSome = true ∧ x.acq.transom.pendingSlot = true)
      (fun x => (x.bump CONV_TSEQ_STAT CONV_TSEQ_STAT_OVERRUN).issueLim 0x2002 0 1 0 true [0, x.st])
  ∧ Occurs .transomCommit (fun _ => True) (fun x => x.setFld CONV_TSEQ_CTRL CONV_TSEQ_CTRL_COMMIT 1)

/-- The CONV block's events come about: burst windows, new scan settings, the transom's triggers, entries and calibration, the comparisons
of RELIEF and the takeovers of a foreground run (03_conversion.md R86, R87, R89, R94, R96, R98, R100, R101, R102, R103, R104, R106;
16_calibration.md R488). -/
def Obligations.ConversionEventsComplete : Prop :=
  (∀ (b : Fin 64) w, Occurs (.burstWindowWake · b)
      (fun x => x.scanHolds = false ∧ x.bmode b.val = 2 ∧ x.bayReady b.val = true ∧ (x.bayOf b.val).window = none ∧ x.nextWindow b.val = some w)
      fun x => (bayChans b.val).foldl (fun s c => s.restartDet c)
        (((x.setFld (CONV_BAY_STAT b.val) CONV_BAY_STAT_AWAKE 1).setConv b.val
          (x.strobeFrom b.val (max (x.windowStrobes b.val w).1 (x.now + fineUs 2))) true).onBay b.val fun y => { y with window := some w }))
  ∧ (∀ (b : Fin 64) w, Occurs (.burstWindowEnd · b)
      (fun x => (x.bayOf b.val).window = some w ∧ (x.windowStrobes b.val w).2 + (14 + x.scanN b.val - 1) * clk ≤ x.now)
      fun x =>
        ((x.setFld (CONV_BAY_STAT b.val) CONV_BAY_STAT_AWAKE 0).bump (CONV_BAY_STAT b.val) CONV_BAY_STAT_BURST_COUNT).onBay b.val fun z =>
          { z with window := none, past := some w, conv := false,
                   convs := if z.conv then ((x.windowStrobes b.val w).2 + x.scanN b.val * clk, true) :: z.convs else z.convs })
  ∧ (∀ (b : Fin 64) scan at_, Occurs (.newScanSetting · b) (fun x => (x.bayOf b.val).scanNext = some (scan, at_) ∧ at_ ≤ x.now)
      fun x =>
        let y := (bayChans b.val).foldl (fun s c => s.dropTail c) x
        let z := (y.setFld (CONV_BAY_STAT b.val) CONV_BAY_STAT_SCAN_NOW scan).onBay b.val fun h =>
          { h with scanNext := none, scans := (at_, y.scanN b.val) :: h.scans }
        (((bayChans b.val).foldl (fun s c => (s.onCh c fun h =>
          { h with histFrom := at_, histNext := 0, raws := [], last := none, switches := [] }).onStrm c fun h => { h with waitFrom := at_, fed := 0 }) z).startBay
            b.val at_).showLoad)
  ∧ Occurs .transomPeriodTrigger
      (fun x => x.fld CONV_TSEQ_CTRL CONV_TSEQ_CTRL_PERIOD ≠ 0 ∧ x.acq.transom.lastPeriodAt
        < ceilDiv (periodOf (max 1 (x.fld CONV_TSEQ_CTRL CONV_TSEQ_CTRL_PERIOD)) x.served * x.fld CONV_TSEQ_CTRL CONV_TSEQ_CTRL_PERIOD * 2 ^ 80) 1000)
      (fun x => (x.onTransom fun y =>
        { y with lastPeriodAt := ceilDiv (periodOf (max 1 (x.fld CONV_TSEQ_CTRL CONV_TSEQ_CTRL_PERIOD)) x.served
                                            * x.fld CONV_TSEQ_CTRL CONV_TSEQ_CTRL_PERIOD * 2 ^ 80) 1000 }).transomTrigger)
  ∧ (∀ (j : Fin 4) falling, Occurs (.trigInEdge · j falling) (fun _ => True)
      fun x =>
        let y := x.edgeStamp (0x22 + j.val) falling []
        if !falling && bit (y.fld CONV_TSEQ_CTRL CONV_TSEQ_CTRL_TRIG_IN_EN) j.val then y.transomTrigger else y)
  ∧ (∀ codes u c, Occurs (.transomEntryDone · codes)
      (fun x => x.acq.transom.urgentNow = some u ∧ u.caller = some c ∧ x.acq.transom.since + settleOf u.entry + convOf u.entry ≤ x.now)
      fun x =>
        let r := x.transomResult u.entry codes
        ((r.2.2.onTransom fun y => { y with urgentNow := none }).answer c stOK (le 4 r.1 ++ le 8 r.2.1)).transomNext.pollFill)
  ∧ (∀ codes u, Occurs (.transomEntryDone · codes)
      (fun x => x.acq.transom.urgentNow = some u ∧ u.caller = none ∧ x.acq.transom.since + settleOf u.entry + convOf u.entry ≤ x.now)
      fun x =>
        let r := x.transomResult u.entry codes
        ((r.2.2.onTransom fun y => { y with urgentNow := none }).sensorRead (wfld u.entry CONV_TSEQ_SRC) r.1).transomNext.pollFill)
  ∧ (∀ codes i, Occurs (.transomEntryDone · codes)
      (fun x => x.acq.transom.urgentNow = none ∧ x.acq.transom.running = some i ∧ x.acq.transom.calibrating = false
        ∧ x.acq.transom.since + settleOf (x.acq.transom.entry i) + convOf (x.acq.transom.entry i) ≤ x.now
        ∧ wfld (x.acq.transom.entry i) CONV_TSEQ_LAST ≠ 1 ∧ i ≠ 63)
      fun x => ((x.transomResult (x.acq.transom.entry i) codes).2.2.onTransom fun y => { y with running := some (i + 1) }).transomNext)
  ∧ (∀ codes i, Occurs (.transomEntryDone · codes)
      (fun x => x.acq.transom.urgentNow = none ∧ x.acq.transom.running = some i ∧ x.acq.transom.calibrating = false
        ∧ x.acq.transom.since + settleOf (x.acq.transom.entry i) + convOf (x.acq.transom.entry i) ≤ x.now
        ∧ (wfld (x.acq.transom.entry i) CONV_TSEQ_LAST = 1 ∨ i = 63))
      fun x =>
        let y := (x.transomResult (x.acq.transom.entry i) codes).2.2
        let cal := y.transomCalDue
        let z := if cal && !(y.cal.running.any fun r => r.g == 28) then y.calBegin 28 else y
        let last := if cal then some (z.now, y.calTemp 28) else x.acq.transom.lastCal
        let full := if x.acq.transom.pendingSlot then some (z.now / clk) else x.acq.transom.fullAt
        (z.onTransom fun m => { m with running := none, calibrating := cal, since := z.now, lastCal := last, fullAt := full }).transomNext.pollFill)
  ∧ Occurs .transomCalibrationDone (fun x => x.acq.transom.calibrating = true ∧ x.acq.transom.since + fineMs 1 ≤ x.now)
      (fun x => (x.onTransom fun y => { y with calibrating := false }).transomNext.pollFill)
  ∧ (∀ (k : Fin 4) diffs i, Occurs (.reliefCompareEnd · k diffs)
      (fun x => (x.takeover k.val).bay = some i ∧ (x.takeover k.val).step = 1
        ∧ (x.takeover k.val).since + 64 * x.scanN (dieBay k.val i) * clk ≤ x.now ∧ (worstDiff diffs).2.natAbs ≤ 32)
      fun x =>
        let b := dieBay k.val i
        let y := x.setFld (CONV_RELIEF k.val) CONV_RELIEF_LAST_DIFF (unsigned 8 (satI 8 (worstDiff diffs).2))
        let z := (y.sampled b).foldl (fun s c => s.openSpan c fRelief (s.strobeFrom b s.now)) y
        (((z.setFld (CONV_BAY_STAT b) CONV_BAY_STAT_RELIEF 1).setFld (CONV_BAY_STAT b) CONV_BAY_STAT_CAL_BUSY 1).pmc 0x201 k.val 1).onTakeover k.val
          fun t => { t with step := 4, since := z.now })
  ∧ (∀ (k : Fin 4) diffs i, Occurs (.reliefCompareEnd · k diffs)
      (fun x => (x.takeover k.val).bay = some i ∧ (x.takeover k.val).step = 1
        ∧ (x.takeover k.val).since + 64 * x.scanN (dieBay k.val i) * clk ≤ x.now ∧ 32 < (worstDiff diffs).2.natAbs)
      fun x =>
        let w := worstDiff diffs
        let y := x.setFld (CONV_RELIEF k.val) CONV_RELIEF_LAST_DIFF (unsigned 8 (satI 8 w.2))
        let z := ((y.bump (CONV_RELIEF k.val) CONV_RELIEF_MISMATCH_COUNT).issue 0x2001 [dieBay k.val i, 2, w.1, item w.2]).calReject (4 + k.val) i 3 w.2
        ((z.endTakeover k.val).onTakeover k.val fun t => { t with left := t.left.filter (· != i), reliefDue := true }).nextTakeover k.val)
  ∧ (∀ (k : Fin 4) diffs i, Occurs (.reliefCompareEnd · k diffs)
      (fun x => (x.takeover k.val).bay = some i ∧ (x.takeover k.val).step = 5
        ∧ (x.takeover k.val).since + 64 * x.scanN (dieBay k.val i) * clk ≤ x.now)
      fun x =>
        let w := worstDiff diffs
        let y := x.setFld (CONV_RELIEF k.val) CONV_RELIEF_LAST_DIFF (unsigned 8 (satI 8 w.2))
        let z := if w.2.natAbs > 32 then
            (((y.bump (CONV_RELIEF k.val) CONV_RELIEF_MISMATCH_COUNT).issue 0x2001 [dieBay k.val i, 5, w.1, item w.2]).calReject (4 + k.val) i 3
              w.2).restoreBay k.val
          else y
        ((z.endTakeover k.val).onTakeover k.val fun t => { t with left := t.left.filter (· != i) }).nextTakeover k.val)
  ∧ (∀ (k : Fin 4) vs i, Yields (.bayCalibrationDone · k vs)
      (fun x => (x.cal.running.any fun r => r.g == 4 + k.val) = true ∧ (x.takeover k.val).bay = some i ∧ (x.takeover k.val).step = 4
        ∧ ∀ v ∈ vs, v.element = i)
      fun x u => (u.takeover k.val).bay = some i ∧ (u.takeover k.val).step = 5 ∧ u.fld (CONV_BAY_STAT (dieBay k.val i)) CONV_BAY_STAT_CAL_BUSY = 0
        ∧ (u.takeover k.val).prev = bytesAt (x.calPayload (4 + k.val)) (16 * i) 16 ∧ (u.takeover k.val).left = (x.takeover k.val).left)

/-- The DEC block's commands complete: CHAIN_CONFIG, DETECTOR_CONFIG, STREAM_ENABLE either way (04_decimation.md R139, R140, R141). -/
def Obligations.DecimationCommandsComplete : Prop :=
  Completes 0x3001 .chainConfig
      (fun _ ps x =>
        let first := num ps 0 2
        let count := num ps 2 2
        let w := word (num ps 4 4)
        let bw := word (num ps 12 4)
        let apply := bit (num ps 8 1) 0
        let chans := (List.range count).map fun i => first + i
        1 ≤ count ∧ first + count ≤ 512 ∧ bits w.toNat 12 20 = 0 ∧ bits w.toNat 9 1 = 0 ∧ num ps 8 1 < 2 ∧ zeroAt ps 9 3 = true
        ∧ (apply = true → bits bw.toNat 17 3 = 0 ∧ bits bw.toNat 8 8 = 0
          ∧ ∀ b ∈ (chans.map (· / 8)).eraseDups, histOk (x.scanCfg b) (wfld bw DEC_BAY_CFG_HIST_RATE) = true)
        ∧ x.loadFits (fun c => if decide (first ≤ c) && decide (c < first + count) then wfld w DEC_CH_CFG_RATE else x.chRate c) x.streaming
            x.acq.taps = true
        ∧ ∀ c ∈ chans, ∀ o ∈ x.chainChecks c w, o = none)
      stOK (fun _ _ _ => [])
      (fun _ ps x =>
        let w := word (num ps 4 4)
        let bw := word (num ps 12 4)
        let chans := (List.range (num ps 2 2)).map fun i => num ps 0 2 + i
        let bays := if bit (num ps 8 1) 0 then (chans.map (· / 8)).eraseDups else []
        (chans.foldl (fun s c => s.setChain c w)
          (bays.foldl (fun s b => s.setHist b (wfld bw DEC_BAY_CFG_HIST_EN) (wfld bw DEC_BAY_CFG_HIST_RATE)) x)).showLoad)
  ∧ Completes 0x3002 .detectorConfig
      (fun _ ps x => 1 ≤ num ps 2 2 ∧ num ps 0 2 + num ps 2 2 ≤ 512 ∧ bits (word (num ps 4 4)).toNat 21 6 = 0 ∧ bits (word (num ps 4 4)).toNat 0 16 = 0
        ∧ ∀ i, i < num ps 2 2 → ∀ o ∈ x.detChecks (num ps 0 2 + i) (word (num ps 4 4)), o = none)
      stOK (fun _ _ _ => [])
      (fun _ ps x => ((List.range (num ps 2 2)).map fun i => num ps 0 2 + i).foldl (fun s c => (s.wr (DEC_DET_CFG c) (word (num ps 4 4))).restartDet c) x)
  ∧ Completes 0x3003 .streamEnable
      (fun _ ps x => 1 ≤ num ps 2 2 ∧ num ps 0 2 + num ps 2 2 ≤ 592 ∧ num ps 4 1 = 1 ∧ zeroAt ps 5 3 = true ∧ bits (word (num ps 8 4)).toNat 16 12 = 0
        ∧ ∀ o ∈ x.enableChecks ((List.range (num ps 2 2)).map fun i => num ps 0 2 + i) (word (num ps 8 4)), o = none)
      stOK
      (fun _ ps x => le 4 (loadKs (((List.range (num ps 2 2)).map fun i => num ps 0 2 + i).foldl (fun s c => s.enableStream c (word (num ps 8 4))) x).showLoad.load))
      (fun _ ps x => (((List.range (num ps 2 2)).map fun i => num ps 0 2 + i).foldl (fun s c => s.enableStream c (word (num ps 8 4))) x).showLoad)
  ∧ Completes 0x3003 .streamEnable
      (fun _ ps _ => 1 ≤ num ps 2 2 ∧ num ps 0 2 + num ps 2 2 ≤ 592 ∧ num ps 4 1 = 0 ∧ zeroAt ps 5 3 = true ∧ bits (word (num ps 8 4)).toNat 16 12 = 0)
      stOK
      (fun _ ps x => le 4 (loadKs (((List.range (num ps 2 2)).map fun i => num ps 0 2 + i).foldl (fun s c => s.disableStream c) x).showLoad.load))
      (fun _ ps x => (((List.range (num ps 2 2)).map fun i => num ps 0 2 + i).foldl (fun s c => s.disableStream c) x).showLoad)

/-- The index that the first sample of a stream that waits has: its first by the channel's time, or the first of the burst window that is
open (04_decimation.md R132; 03_conversion.md R88). -/
def streamFirst (x : State) (c : Nat) : Nat :=
  match (x.bayOf (c / 8)).window.filter fun _ => x.bmode (c / 8) == 2 with
  | some w => max (x.firstIdx c) (x.burstFirst c (x.chRate c) (x.chGrid c) w)
  | none => x.firstIdx c

/-- The strobe whose code of channel `c` arrives now (03_conversion.md R84). -/
def arriving (x : State) (c : Nat) : Nat :=
  let f := x.now - (22 + c % 8) * clk
  f / (x.scanAt (c / 8) f * clk) * (x.scanAt (c / 8) f * clk)

/-- The code of channel `c` that arrives now is of a strobe that held, in the bay's scan, and the channel's next. -/
def codeDue (x : State) (c : Nat) : Prop :=
  x.scanHolds = false ∧ (22 + c % 8) * clk ≤ x.now ∧ x.convAt (c / 8) (arriving x c) = true
  ∧ c % 8 < x.scanAt (c / 8) (x.now - (22 + c % 8) * clk) ∧ ∀ e, (x.ch c).outs.head? = some e → e.1 < arriving x c

/-- The DEC block's events come about: a raw code of a channel that converts is corrected and kept (of a SWITCH channel the comparator's
state, of an OFF channel 0), a sample of a stream, a history or a pane tap is formed from its support, a stream whose first sample's
support has passed starts (02_front_end.md R39; 03_conversion.md R83, R84, R90; 04_decimation.md R113, R117, R121, R132, R134). -/
def Obligations.DecimationEventsComplete : Prop :=
  (∀ (c : Fin 512) code, Occurs (.rawCodeArrival · c code) (fun x => codeDue x c.val)
      fun x =>
        let n := x.scanAt (c.val / 8) (x.now - (22 + c.val % 8) * clk)
        let k := arriving x c.val
        let v := (x.chainStart c.val (x.modeAt c.val k) k (n * clk)).correction c.val (x.modeAt c.val k) k (n * clk) code
        let y := v.2.onCh c.val fun h => { h with outs := (k, v.1) :: h.outs }
        y.feedSignal c.val 0 v.1 (y.holdAt c.val k) (spanFlags (y.ch c.val).spans (n * clk) k k k))
  ∧ (∀ (c : Fin 512) code, Occurs (.rawCodeArrival · c code)
      (fun x => codeDue x c.val ∧ (x.modeAt c.val (arriving x c.val) = 0 ∨ x.modeAt c.val (arriving x c.val) = 5))
      fun x =>
        let n := x.scanAt (c.val / 8) (x.now - (22 + c.val % 8) * clk)
        let k := arriving x c.val
        let v : Int := if x.modeAt c.val k = 5 ∧ code ≠ 0#16 then 1 else 0
        let y := (x.chainStart c.val (x.modeAt c.val k) k (n * clk)).onCh c.val fun h => { h with outs := (k, v) :: h.outs }
        y.feedSignal c.val 0 v (y.holdAt c.val k) (spanFlags (y.ch c.val).spans (n * clk) k k k))
  ∧ (∀ (c : Fin 512) idx, Occurs (.outputSampleDelivered · c .stream idx)
      (fun x => c.val % 8 < x.scanN (c.val / 8) ∧ (x.strm c.val).tail = none ∧ x.on (DEC_CH_STAT c.val) DEC_CH_STAT_RUNNING = true
        ∧ x.burstDue c.val (x.course c.val).rate (x.course c.val).grid (x.strm c.val).next
            (x.sampleAt c.val (x.course c.val).rate (x.course c.val).grid idx) = some idx
        ∧ x.supportIn c.val (x.course c.val).mode (x.course c.val).rate (x.course c.val).grid idx = true)
      fun x =>
        let r := x.course c.val
        let v := x.outValue c.val r.mode r.rate r.grid idx
        let fl := x.sampleFlags r.mode c.val r.rate r.grid idx
        ((((x.streamSample c.val r idx fl v false).onStrm c.val fun y => { y with next := idx + 1 }).pmc 0x301 (c.val / 8) 1).onStrm c.val fun y =>
          { y with fed := idx + 1 }).feedSignal c.val 1 v (x.sampleAt c.val r.rate r.grid idx) fl)
  ∧ (∀ (c : Fin 512) idx, Occurs (.outputSampleDelivered · c .history idx)
      (fun x =>
        let rate := x.histRate (c.val / 8)
        c.val % 8 < x.scanN (c.val / 8) ∧ x.on (DEC_BAY_STAT (c.val / 8)) DEC_BAY_STAT_HIST_RUN = true
        ∧ idx = max (x.ch c.val).histNext (x.firstFrom c.val rate false (x.ch c.val).histFrom)
        ∧ x.supportIn c.val (x.chMode c.val) rate false idx = true)
      fun x =>
        let rate := x.histRate (c.val / 8)
        let v := x.outValue c.val (x.chMode c.val) rate false idx
        (x.keepHistory c.val idx v).feedSignal c.val 2 v (x.sampleAt c.val rate false idx) (x.sampleFlags (x.chMode c.val) c.val rate false idx))
  ∧ (∀ (c : Fin 512) idx, Occurs (.outputSampleDelivered · c .tap0 idx) (fun x => c.val % 8 < x.scanN (c.val / 8)) fun x => x.tapOut c.val 0 idx)
  ∧ (∀ (c : Fin 512) idx, Occurs (.outputSampleDelivered · c .tap1 idx) (fun x => c.val % 8 < x.scanN (c.val / 8)) fun x => x.tapOut c.val 1 idx)
  ∧ (∀ c : Fin 512, Occurs (.streamStart · c)
      (fun x =>
        let rate := x.chRate c.val
        let grid := x.chGrid c.val
        x.on (DEC_CH_STAT c.val) DEC_CH_STAT_WAITING = true ∧ x.live c.val = true
        ∧ (x.burstDue c.val rate grid (streamFirst x c.val) (x.sampleAt c.val rate grid (streamFirst x c.val))).isSome = true
        ∧ x.centre c.val rate grid (streamFirst x c.val) + x.halfSupport c.val rate grid ≤ x.now)
      fun x =>
        let k := streamFirst x c.val
        let y := (((x.dropTail c.val).setFld (DEC_CH_STAT c.val) DEC_CH_STAT_WAITING 0).setFld (DEC_CH_STAT c.val) DEC_CH_STAT_RUNNING 1).onStrm c.val fun z =>
          { z with next := k, fed := k, told := true }
        let z := y.issue 0x3001 [c.val, k, st64 (x.sampleAt c.val (x.chRate c.val) (x.chGrid c.val) k), y.fld (DEC_CH_STAT c.val) DEC_CH_STAT_SCALE]
        if z.fld (DEC_DET_CFG c.val) DEC_DET_CFG_SRC = 1 then z.restartDet c.val else z)

/-- The announcements heard in the last 10 s (07_panes_and_triggers.md R242). -/
def heardLately (x : State) : List Announce := x.cap.seen.filter fun a => decide (x.now < a.at_ + fineMs 10000)

/-- Is the announcement that a TRIGGER_ANNOUNCE's parameters describe among those heard in the last 10 s? -/
def heardBefore (x : State) (ps : List Byte) : Bool :=
  (heardLately x).any fun a => a.origin == num ps 16 2 % 2048 && a.group == num ps 12 1 && a.time == num ps 0 12 && a.pane == num ps 14 2

/-- An announcement not heard before: it is remembered, and each trigger unit of its group fires at its time; how many panes opened, how
many engines found none, and the state after it (07_panes_and_triggers.md R235, R242). -/
def announce (x : State) (ps : List Byte) : Nat × Nat × State :=
  let y := x.onCap fun z => { z with seen := heardLately x ++ [⟨num ps 16 2 % 2048, num ps 12 1, num ps 0 12, num ps 14 2, x.now⟩] }
  ((y.unitsOf 7).filter fun u => y.fld (CAP_TRIG_CFG u) CAP_TRIG_CFG_GROUP == num ps 12 1).foldl
    (fun (a : Nat × Nat × State) u =>
      let f := a.2.2.fire u (num ps 0 12 * 2 ^ 32) (num ps 16 2 % 2048) (num ps 14 2)
      (a.1 + f.1, a.2.1 + f.2.1, f.2.2)) (0, 0, y)

/-- The template that engine `e`'s registers hold (07_panes_and_triggers.md, Registers). -/
def engineTemplate (x : State) (e : Nat) : Template :=
  ⟨x.rd (CAP_ENG_CFG e), x.rd (CAP_ENG_CHAN e), x.fld (CAP_ENG_PRE e) CAP_ENG_PRE_PRE, x.fld (CAP_ENG_POST e) CAP_ENG_POST_POST,
   x.fld (CAP_ENG_MAXLEN e) CAP_ENG_MAXLEN_MAX_LEN, x.fld (CAP_ENG_TRIG e) CAP_ENG_TRIG_MASK⟩

/-- The served time, in units of 2^-40 s, that the ST64 of action entry `i` names: the first from now on (05_time_base.md R169). -/
def actionTime (x : State) (i : Nat) : Nat :=
  let st := x.rd64 (TB_ACT_TIME i)
  x.served40 - x.served40 % 2 ^ 64 + st + (if st < x.served40 % 2 ^ 64 then 2 ^ 64 else 0)

/-- The CAP block's commands complete: PANE_OPEN arms an engine, opens a pane now or holds one for a time or a HOST claim; PANE_CLOSE
closes; TRIGGER_ANNOUNCE fires its group's units; HISTORY_EXTRACT waits for its span; MEASURE_CONFIG sets its channels
(07_panes_and_triggers.md R235, R240, R241, R242, R243, R244). -/
def Obligations.CaptureCommandsComplete : Prop :=
  Completes 0x6002 .paneOpen
      (fun _ ps x =>
        let y : Template := ⟨word (num ps 4 4), word (num ps 8 4), num ps 12 4, num ps 16 4, num ps 20 4, num ps 24 4⟩
        num ps 0 1 < 16 ∧ num ps 1 1 = 0 ∧ zeroAt ps 2 2 = true ∧ bits (num ps 4 4) 8 15 = 0 ∧ bits (num ps 8 4) 9 7 = 0 ∧ bits (num ps 8 4) 23 9 = 0
        ∧ zeroAt ps 15 1 = true ∧ zeroAt ps 19 1 = true ∧ zeroAt ps 23 1 = true ∧ (∀ o ∈ x.armChecks (num ps 0 1) y, o = none)
        ∧ x.engArmed (num ps 0 1) = false)
      stOK (fun _ _ _ => le 2 0)
      (fun _ ps x => x.arm (num ps 0 1) ⟨word (num ps 4 4), word (num ps 8 4), num ps 12 4, num ps 16 4, num ps 20 4, num ps 24 4⟩)
  ∧ Completes 0x6002 .paneOpen
      (fun _ ps x => num ps 0 1 < 16 ∧ num ps 1 1 = 1 ∧ zeroAt ps 2 2 = true ∧ x.served < num ps 28 12 * 2 ^ 32
        ∧ num ps 28 12 * 2 ^ 32 ≤ x.served + 2592000 * 2 ^ 80 ∧ x.engArmed (num ps 0 1) = true ∧ x.address.isSome = true ∧ x.slotsUsed (num ps 0 1) < 4)
      stOK (fun _ ps x => le 2 (x.takeSlot (num ps 0 1) (some (num ps 28 12 * 2 ^ 32))).1)
      (fun _ ps x => (x.takeSlot (num ps 0 1) (some (num ps 28 12 * 2 ^ 32))).2)
  ∧ (∀ id, Completes 0x6002 .paneOpen
      (fun _ ps x =>
        let T := if num ps 28 12 = 0 then x.served else num ps 28 12 * 2 ^ 32
        num ps 0 1 < 16 ∧ num ps 1 1 = 1 ∧ zeroAt ps 2 2 = true ∧ T ≤ x.served ∧ x.engArmed (num ps 0 1) = true ∧ x.address.isSome = true
        ∧ ((x.judge (num ps 0 1) T 32 x.addr 65536 none).1 = .opened id ∨ (x.judge (num ps 0 1) T 32 x.addr 65536 none).1 = .nothing id))
      stOK (fun _ _ _ => le 2 id)
      (fun _ ps x => (x.judge (num ps 0 1) (if num ps 28 12 = 0 then x.served else num ps 28 12 * 2 ^ 32) 32 x.addr 65536 none).2))
  ∧ Completes 0x6002 .paneOpen
      (fun _ ps x => num ps 0 1 < 16 ∧ num ps 1 1 = 2 ∧ zeroAt ps 2 2 = true ∧ x.engArmed (num ps 0 1) = true ∧ x.address.isSome = true
        ∧ x.slotsUsed (num ps 0 1) < 4)
      stOK (fun _ ps x => le 2 (x.takeSlot (num ps 0 1) none).1) (fun _ ps x => (x.takeSlot (num ps 0 1) none).2)
  ∧ (∀ pane, Completes 0x6003 .paneClose
      (fun _ ps x => num ps 0 1 < 16 ∧ num ps 1 1 = 0 ∧ (x.eng (num ps 0 1)).issued.contains (num ps 2 2) = true
        ∧ ((x.eng (num ps 0 1)).panes.find? fun q => q.id == num ps 2 2) = some pane)
      stOK (fun _ _ _ => []) (fun _ _ x => x.closePane pane 2))
  ∧ Completes 0x6003 .paneClose (fun _ ps _ => num ps 0 1 < 16 ∧ num ps 1 1 = 1) stOK (fun _ _ _ => [])
      (fun _ ps x => (x.eng (num ps 0 1)).panes.foldl (fun s q => s.closePane q 2) x)
  ∧ Completes 0x6003 .paneClose (fun _ ps _ => num ps 0 1 < 16 ∧ num ps 1 1 = 2) stOK (fun _ _ _ => []) (fun _ ps x => x.disarm (num ps 0 1) 2)
  ∧ Completes 0x6004 .triggerAnnounce
      (fun c ps x => bits (num ps 13 1) 3 5 = 0 ∧ bits (num ps 16 2) 11 5 = 0 ∧ zeroAt ps 18 2 = true ∧ c.origin = false
        ∧ heardBefore x ps = false)
      stOK (fun _ ps x => le 1 (satN 8 (announce x ps).1) ++ le 1 (satN 8 (announce x ps).2.1)) (fun _ ps x => (announce x ps).2.2)
  ∧ CompletesSilently 0x6004 .triggerAnnounce
      (fun c ps x => bits (num ps 13 1) 3 5 = 0 ∧ bits (num ps 16 2) 11 5 = 0 ∧ zeroAt ps 18 2 = true ∧ c.origin = true
        ∧ heardBefore x ps = false ∧ num ps 16 2 % 2048 ≠ x.addr)
      (fun _ ps x => (announce x ps).2.2)
  ∧ Completes 0x6005 .historyExtract
      (fun _ ps x => 1 ≤ num ps 2 2 ∧ num ps 0 2 + num ps 2 2 ≤ 512 ∧ num ps 4 12 < num ps 16 12
        ∧ num ps 16 12 * 2 ^ 32 ≤ x.served + 10 * 2 ^ 80 ∧ num ps 28 1 < 2 ∧ zeroAt ps 29 3 = true
        ∧ (allIn (num ps 0 2) (num ps 2 2) fun ch => x.histEn (ch / 8)) = true)
      stACCEPTED (fun _ _ _ => [])
      (fun c ps x => started c (x.onCap fun y =>
        { y with extracts := y.extracts ++ [⟨num ps 0 2, num ps 2 2, num ps 4 12 * 2 ^ 32, num ps 16 12 * 2 ^ 32, bit (num ps 28 1) 0, c, none⟩] }))
  ∧ Completes 0x6006 .measureConfig
      (fun _ ps _ => 1 ≤ num ps 2 2 ∧ num ps 0 2 + num ps 2 2 ≤ 512 ∧ bits (num ps 4 4) 24 6 = 0 ∧ bits (num ps 4 4) 6 14 = 0)
      stOK (fun _ _ _ => [])
      (fun _ ps x => (List.range (num ps 2 2)).foldl (fun s i => s.wr (CAP_MEAS_CFG (num ps 0 2 + i)) (word (num ps 4 4))) x)

/-- The CAP block's events come about: a TIME_TRIGGER, the time of a held pane, the cut of a HISTORY pane, the end of an extraction, the
re-partition of history, a write of an engine's ARM bit (07_panes_and_triggers.md R215, R217, R220, R221, R224, R227, R240, R241). -/
def Obligations.CaptureEventsComplete : Prop :=
  (∀ u : Fin 32, Occurs (.timeTrigger · u)
      (fun x =>
        let p := x.fld (CAP_TRIG_PARAM u.val) CAP_TRIG_PARAM_PARAM
        (x.unitsOf 6).contains u.val = true ∧ p ≠ 0 ∧ (x.unit u.val).lastTime < periodOf p x.served ∧ (x.power = 2 ∨ x.power = 3))
      fun x =>
        let p := x.fld (CAP_TRIG_PARAM u.val) CAP_TRIG_PARAM_PARAM
        (x.onUnit u.val fun y => { y with lastTime := periodOf p x.served }).fireOwn u.val (ceilDiv (periodOf p x.served * p * 2 ^ 80) 1000))
  ∧ (∀ id p h, Occurs (.paneHeldTime · id)
      (fun x => ((x.eng (id / 4096)).panes.find? fun p => p.id == id && !p.opened) = some p ∧ p.heldTime = some h ∧ h ≤ x.served)
      fun x => ((x.onPane id fun y => { y with heldTime := none }).judge p.engine h 32 x.addr 65536 (some p)).2)
  ∧ (∀ id p, Occurs (.paneCut · id)
      (fun x => ((x.eng (id / 4096)).panes.find? fun p => p.id == id && p.opened) = some p ∧ x.engHist p.engine = true ∧ x.historyHolds p = true)
      fun x => x.cutPane p 0)
  ∧ (∀ tag source e, Occurs (.extractServe · tag source)
      (fun x => (x.cap.extracts.find? fun e => e.caller.tag == tag && e.caller.source == source) = some e ∧ e.out = none ∧ x.power ≠ 1
        ∧ x.extractReady e = true)
      fun x =>
        let o := (x.formExtract e).2
        let y := (x.formExtract e).1.qm.recs.foldl (fun s r => s.pushRec r) (x.formExtract e).1
        if o.recs.all y.recQueued then
          (y.onCap fun c => { c with extracts := c.extracts.filter fun z => !(z.caller.tag == tag && z.caller.source == source) }).report e.caller stOK
            (le 4 o.recs.length ++ le 8 o.first ++ le 8 o.last ++ le 1 o.flags)
        else y.onCap fun c =>
          { c with extracts := mapIf (fun z => z.caller.tag == tag && z.caller.source == source) (fun z => { z with out := some o }) c.extracts })
  ∧ (∀ tag source e o, Occurs (.extractServe · tag source)
      (fun x => (x.cap.extracts.find? fun e => e.caller.tag == tag && e.caller.source == source) = some e ∧ e.out = some o)
      fun x =>
        let y := x.qm.recs.foldl (fun s r => s.pushRec r) x
        if o.recs.all y.recQueued then
          (y.onCap fun c => { c with extracts := c.extracts.filter fun z => !(z.caller.tag == tag && z.caller.source == source) }).report e.caller stOK
            (le 4 o.recs.length ++ le 8 o.first ++ le 8 o.last ++ le 1 o.flags)
        else y.onCap fun c =>
          { c with extracts := mapIf (fun z => z.caller.tag == tag && z.caller.source == source) (fun z => { z with out := some o }) c.extracts })
  ∧ (∀ k, Occurs .historyRepartition (fun x => x.cap.repartAt = some k ∧ k * 2 ^ 80 ≤ x.served)
      fun x =>
        let y := (List.range 64).foldl (fun s b => s.breakHistory b 6) (x.onCap fun c => { c with repartAt := none })
        (y.onCap fun c => { c with history := [], depth := y.histDepth }).setFld CAP_HIST_STAT CAP_HIST_STAT_DEPTH_MS (satN 24 (y.histDepth * 1000 / 2 ^ 80)))
  ∧ (∀ e : Fin 16, Occurs (.engineArmWrite · e true) (fun x => x.engArmed e.val = false ∧ ∀ o ∈ x.armChecks e.val (engineTemplate x e.val), o = none)
      fun x => x.arm e.val (engineTemplate x e.val))
  ∧ (∀ e : Fin 16, Occurs (.engineArmWrite · e false) (fun x => x.engArmed e.val = true) fun x => x.disarm e.val 2)

/-- The TIME block's commands complete: the time of both domains is read, a domain configured, selected, a timed action armed, cancelled
or all of them cancelled, an asymmetry set, the status read (05_time_base.md R169, R173, R174, R175, R176, R177, R178). -/
def Obligations.TimeCommandsComplete : Prop :=
  Completes 0x4001 .timeRead (fun _ _ _ => True) stOK
      (fun _ _ x => le 12 (ft96 x.served) ++ le 12 (ft96 (x.domTime 0 x.now)) ++ le 12 (ft96 (x.domTime 1 x.now)) ++ le 8 x.xc
        ++ le 1 (x.tb.served + 2 * x.tq + 8 * x.domTq 0 + 32 * x.domTq 1 + 128 * b2n (x.tb.d != 0)) ++ le 1 0 ++ leI 2 (x.taiUtc x.tb.served))
      (fun _ _ x => x)
  ∧ Completes 0x4002 .timeDomainConfig
      (fun _ ps x =>
        let w := word (num ps 4 4)
        num ps 0 1 < 2 ∧ zeroAt ps 1 3 = true ∧ num ps 12 1 < 4 ∧ zeroAt ps 13 3 = true ∧ wfld w TB_DOM_CFG_TOD_FMT ≠ 3
        ∧ wfld w TB_DOM_CFG_HOLD_LIMIT ≠ 0 ∧ bit w.toNat 24 = false
        ∧ (bit (num ps 12 1) 0 = true → x.domState (num ps 0 1) = 2 ∨ x.domState (num ps 0 1) = 3))
      stOK (fun _ _ _ => [])
      (fun _ ps x =>
        let d := num ps 0 1
        let y := (x.setDomCfg d (word (num ps 4 4))).wr (TB_PPS_DELAY d) (word (num ps 8 4))
        let y := if bit (num ps 12 1) 0 then y.onDom d fun m => { m with stepReq := some (signed 64 (num ps 16 8) * (2 ^ 40 : Nat), 1) } else y
        if !bit (num ps 12 1) 1 || !y.servoRuns then y
        else if y.gmEn d then (y.setFld (TB_DOM_STAT d) TB_DOM_STAT_UPSTREAM 8).acquire d
        else y.acquire d)
  ∧ Completes 0x4003 .timeSelectDomain
      (fun _ ps x => num ps 0 1 ≤ 2 ∧ num ps 1 1 < 2 ∧ zeroAt ps 2 2 = true ∧ (num ps 0 1 = 0 ∨ x.domTq (num ps 0 1 - 1) ≠ 3))
      stOK (fun _ _ _ => [])
      (fun _ ps x => (x.setFld TB_CTRL TB_CTRL_SELECT (num ps 0 1)).setFld TB_CTRL TB_CTRL_PREFER_B (num ps 1 1))
  ∧ (∀ i, Completes 0x4004 .timeSchedule
      (fun _ ps x =>
        let w := num ps 4 4
        let a := bits w 24 4
        num ps 0 1 = 0 ∧ zeroAt ps 2 2 = true ∧ ((num ps 1 1 = 255 ∧ x.freeAction = some i) ∨ (num ps 1 1 = i ∧ i < 32 ∧ x.armed i = false))
        ∧ a < 8 ∧ bits w 28 3 = 0 ∧ bits w 20 2 = 0 ∧ (a = 1 ∨ a = 2 → num ps 8 4 = 0) ∧ (a = 3 ∨ a = 7 → bits w 0 20 = 0)
        ∧ x.armTimeOk (num ps 12 12 / 256) = true ∧ x.tq ≠ 3)
      stOK (fun _ _ _ => le 4 i) (fun _ ps x => x.armEntry i (word (num ps 4 4)) (num ps 8 4) (num ps 12 12 / 256)))
  ∧ Completes 0x4004 .timeSchedule
      (fun _ ps x => num ps 0 1 = 1 ∧ zeroAt ps 2 2 = true ∧ num ps 1 1 < 32
        ∧ x.actDue (num ps 1 1) = false ∧ (x.armed (num ps 1 1) = true ∨ (x.act (num ps 1 1)).launched = false))
      stOK (fun _ ps _ => le 4 (num ps 1 1)) (fun _ ps x => x.cancelEntry (num ps 1 1))
  ∧ Completes 0x4004 .timeSchedule
      (fun _ ps x => num ps 0 1 = 1 ∧ zeroAt ps 2 2 = true ∧ num ps 1 1 < 32
        ∧ (x.actDue (num ps 1 1) = true ∨ (x.armed (num ps 1 1) = false ∧ (x.act (num ps 1 1)).launched = true)))
      stDONE_BEFORE_ABORT (fun _ ps _ => le 4 (num ps 1 1)) (fun _ _ x => x)
  ∧ Completes 0x4004 .timeSchedule (fun _ ps _ => num ps 0 1 = 2 ∧ zeroAt ps 2 2 = true) stOK (fun _ ps _ => le 4 (num ps 1 1))
      (fun _ _ x => (List.range 32).foldl (fun s i => if s.actDue i then s else s.cancelEntry i) x)
  ∧ Completes 0x4005 .timeAsymmetrySet
      (fun _ ps _ => num ps 0 1 < 8 ∧ zeroAt ps 1 3 = true ∧ (signed 32 (num ps 4 4)).natAbs ≤ 1000000)
      stOK (fun _ _ _ => []) (fun _ ps x => (x.wrNvm (TB_PORT_ASYM (num ps 0 1)) (word (num ps 4 4))).markAsym (num ps 0 1) 0)
  ∧ Completes 0x4006 .timeStatus (fun _ _ _ => True) stOK
      (fun _ _ x => le 4 x.tbStatus.toNat ++ le 4 (x.rd (TB_DOM_STAT 0)).toNat ++ le 4 (x.rd (TB_DOM_STAT 1)).toNat
        ++ leI 4 (satI 32 (to_ps x.tb.d)) ++ le 4 (x.boundNs 0) ++ le 4 (x.boundNs 1) ++ le 1 (b2n x.modelValid) ++ le 3 0
        ++ (List.range 8).flatMap fun p => le 4 (x.rd (TB_PORT_DELAY p)).toNat ++ le 4 (x.rd (TB_PORT_ASYM p)).toNat
          ++ le 4 (x.rd (TB_PORT_OFFSET p 0)).toNat ++ le 4 (x.rd (TB_PORT_OFFSET p 1)).toNat ++ le 4 (x.portFlags p).toNat)
      (fun _ _ x => x)

/-- A boundary's effect on time: the increments committed before it and the steps asked for come into force, and the served domain is
chosen (05_time_base.md R147, R148, R151, R153). -/
def boundaryTimes (x : State) : State :=
  let f := x.xc / 50000 * 50000 * 8192
  (((((x.onTb fun t => { t with lastBoundary := x.xc / 50000 }).applyIncr 0 f).applyIncr 1 f).applyStep 0 f).applyStep 1 f).applyServed f

/-- A boundary's effect on domain `d` of a hub whose servos run: a freeze that has lasted its time ends, it is noted whether another port
qualifies, the upstream is chosen, the servo takes its step and a bound in HOLDOVER grows (05_time_base.md R151, R160, R161, R165, R166). -/
def boundaryServo (s : State) (d k f : Nat) : State :=
  let thawed := match (s.dom d).freeze with
    | some (some u) => if s.now ≥ u then s.setFreeze d none else s
    | _ => s
  let seen := if (List.range 8).any fun q => q != thawed.upstream d && thawed.qualifies d q then thawed.onDom d fun x => { x with lastOther := k } else thawed
  ((seen.refreshUp d).servoStep d).holdBound d f

/-- Does an edge come more than 10 240 counts from a second after the live one before it (05_time_base.md R163)? -/
def lateEdge (es : List PpsEdge) (f : Nat) : Bool :=
  match es with
  | p :: _ => p.live && decide ((((f - p.fine : Nat) : Int) - (51200000 * 8192 : Nat)).natAbs > 10240 * 8192)
  | [] => false

/-- Has the live edge before the last one had no message (05_time_base.md R163)? -/
def unlabelledEdge (es : List PpsEdge) : Bool :=
  match es with
  | _ :: q :: _ => q.live && q.label.isNone
  | _ => false

/-- The TIME block's events come about: a crystal second, an increment boundary, a time block or cell of a port that is up, the entry into
HOLDOVER, a PPS edge, a time-of-day message, the writes that commit an increment, copy an anchor, arm or cancel an action; a timed action
launches at its time, is carried out where the power state supports it and its conditions are met, and TIMED_ACTION_DONE tells which
(05_time_base.md R147, R150, R156, R157, R163, R166, R168, R169, R170, R171, R172; 08_field_ports_and_outputs.md R258, R259;
01_architecture.md R36; 00_scope.md R541). -/
def Obligations.TimeEventsComplete : Prop :=
  (∀ span, Occurs (.crystalSecond · span) (fun x => x.tb.lastSecond < x.second)
      fun x =>
        let y := (x.onTb fun t => { t with lastSecond := x.second }).flushLimits.ratioSecond.refSecond span
        let y := (List.range 8).foldl (fun s p => if s.portUp p then s.portSecond (x.second - 1) p else s) y
        ((List.range 8).foldl (fun s p => s.reestimate p) y).learn)
  ∧ Occurs .incrementBoundary (fun x => x.tb.lastBoundary < x.xc / 50000)
      (fun x =>
        let k := x.xc / 50000
        let f := k * 50000 * 8192
        let y := boundaryTimes x
        let z := if y.servoRuns then [0, 1].foldl (fun s d => boundaryServo s d k f) y else y
        (List.range 8).foldl (fun s p => if s.portUp p then s.sendTime p f else if s.ptime p = {} then s else s.clearTime p) z)
  ∧ (∀ (p : Fin 8) seq st, Occurs (.timeBlockReceived · p seq)
      (fun x => x.portUp p.val = true ∧ (x.stampEdge (0x32 + p.val) false x.now).1 = some st)
      fun x =>
        let y := ((x.stampEdge (0x32 + p.val) false x.now).2.setFld (TB_PORT_FLAGS p.val) TB_PORT_FLAGS_EXCHANGING 1).onLane (x.timeLane p.val) fun l =>
          { l with idleOther := l.idleOther + 1 }
        y.onPtime p.val fun m =>
          { m with rxSeq := seq % 65536, rxStamp := some (st.fine + y.deskew (y.timeLane p.val) - y.laneLat (y.timeLane p.val) false) })
  ∧ (∀ (p : Fin 8) c, Occurs (.timeCellReceived · p c) (fun x => c.crcOk = true ∧ x.portUp p.val = true)
      fun x =>
        let k := x.tb.lastBoundary
        let y := x.onPtime p.val fun m => { m with offerA := some (offerOf c.domA k), offerB := some (offerOf c.domB k) }
        [0, 1].foldl (fun s d =>
          let h := if d = 0 then c.domA else c.domB
          let z := s.refreshUp d
          if z.upstream d = p.val && z.qualifies d p.val then
            (z.onDom d fun m => { m with lastCell := k, taiUtc := some h.taiUtc, root := h.root }).refreshDom d
          else z) ((y.exchange p.val 0 c.seq c.domA).exchange p.val 1 c.seq c.domB))
  ∧ (∀ d : Fin 2, Occurs (.holdoverEntry · d)
      (fun x => x.domState d.val = 2 ∧ x.servoRuns = true ∧ x.gmEn d.val = false ∧ x.chooseUp d.val = none
        ∧ max (x.dom d.val).lastCell (x.dom d.val).lastOther + 16 ≤ x.tb.lastBoundary)
      fun x =>
        let b := (4000 + (x.dom d.val).lastError.natAbs) * 1000
        ((((x.onDom d.val fun m => { m with hold := some ⟨x.now, b, b⟩, avgs := [], reacquire := false }).setFreeze d.val none).setFld
          (TB_DOM_STAT d.val) TB_DOM_STAT_UPSTREAM 15).setDom d.val 3 2).refreshDom d.val)
  ∧ (∀ (d : Fin 2) (e : PpsEdge), Occurs (.holdoverEntry · d)
      (fun x => x.domState d.val = 2 ∧ x.servoRuns = true ∧ x.gmEn d.val = true ∧ (x.dom d.val).gm.edges.head? = some e
        ∧ e.fine + 76800000 * 8192 ≤ x.now)
      fun x =>
        let b := (4000 + (x.dom d.val).lastError.natAbs) * 1000
        ((((x.onDom d.val fun m => { m with hold := some ⟨x.now, b, b⟩, avgs := [], reacquire := false }).setFreeze d.val none).setFld
          (TB_DOM_STAT d.val) TB_DOM_STAT_UPSTREAM 15).setDom d.val 3 2).refreshDom d.val)
  ∧ (∀ (d : Fin 2) falling st, Occurs (.ppsEdge · d falling)
      (fun x => x.gmEn d.val = true ∧ x.on (TB_DOM_CFG d.val) TB_DOM_CFG_PPS_FALL = falling
        ∧ (x.stampEdge (0x20 + d.val) falling x.now).1 = some st ∧ (x.stampEdge (0x20 + d.val) falling x.now).2.servoRuns = true)
      fun x =>
        let y := (x.stampEdge (0x20 + d.val) falling x.now).2
        let es := (y.dom d.val).gm.edges
        let z := y.onGm d.val fun g => { g with edges := (⟨st.fine, none, true⟩ :: g.edges).take 4 }
        let z := if z.domState d.val = 0 then (z.setFld (TB_DOM_STAT d.val) TB_DOM_STAT_UPSTREAM 8).setDom d.val 1 3 else z
        let w := if unlabelledEdge es then
            (z.ppsFault d.val 2).onGm d.val fun g => { g with edges := g.edges.mapIdx fun i e => if i = 2 then { e with live := false } else e }
          else z
        if lateEdge es st.fine then w.ppsFault d.val 1 else w)
  ∧ (∀ (d : Fin 2) falling, Occurs (.ppsEdge · d falling)
      (fun x => x.gmEn d.val = true ∧ x.on (TB_DOM_CFG d.val) TB_DOM_CFG_PPS_FALL = falling
        ∧ (x.stampEdge (0x20 + d.val) falling x.now).1 = none)
      fun x => (x.stampEdge (0x20 + d.val) falling x.now).2)
  ∧ (∀ (n : Fin 4) bytes start, Occurs (.todMessage · n bytes start)
      (fun x => x.fpMode n.val = 1 ∧ x.fldRuns = true ∧ x.servoRuns = true)
      fun x => [0, 1].foldl (fun s d =>
        if !s.gmEn d || s.fld (TB_DOM_CFG d) TB_DOM_CFG_TOD_PORT != n.val then s
        else
          let m := match s.fld (TB_DOM_CFG d) TB_DOM_CFG_TOD_FMT with
            | 1 => nmeaTod (signed 16 (s.fld (TB_DOM_CFG d) TB_DOM_CFG_UTC_OFFSET)) bytes
            | 2 => binaryTod bytes
            | _ => none
          match m with
          | some m => s.todFor d m start
          | none => s) x)
  ∧ (∀ (p : Path) (d : Fin 2) hi, Occurs (.tbIncrCommit · p d hi)
      (fun x => incrOk (hi.toNat * 2 ^ 32 + (x.takeLow p (TB_INCR d.val)).1.toNat) = true)
      fun x => ((x.takeLow p (TB_INCR d.val)).2.onDom d.val fun m =>
        { m with pending := (hi.toNat * 2 ^ 32 + (x.takeLow p (TB_INCR d.val)).1.toNat, (x.takeLow p (TB_INCR d.val)).2.now) :: m.pending }).setFld (TB_DOM_STAT d.val) TB_DOM_STAT_INCR_PENDING 1)
  ∧ (∀ d : Fin 2, Occurs (.anchorGo · d) (fun x => x.domState d.val = 1 ∨ (x.dom d.val).stepReq.isSome = true)
      fun x => x.setFld (TB_ANCHOR_CTRL d.val) TB_ANCHOR_CTRL_GO 1)
  ∧ (∀ d : Fin 2, Occurs (.anchorGo · d) (fun x => x.domState d.val ≠ 1 ∧ (x.dom d.val).stepReq.isSome = false)
      fun x => x.bump (TB_ANCHOR_CTRL d.val) TB_ANCHOR_CTRL_REFUSED_COUNT)
  ∧ (∀ i : Fin 32, Occurs (.timedActionLaunch · i)
      (fun x => x.armed i.val = true ∧ (x.act i.val).time ≤ x.served40 ∧ x.actDue i.val = true ∧ (∀ j, j < i.val → x.actDue j = false)
        ∧ x.supportsAction (x.action i.val) = true ∧ firstFail (x.actionChecks i.val) = none)
      fun x => (((x.doAction i.val).setFld (TB_ACT_CTRL i.val) TB_ACT_CTRL_ARMED 0).onAct i.val fun y => { y with launched := true, late := false }).issue
        0x4006 [i.val, x.action i.val, (x.act i.val).time % 2 ^ 64, b2n (x.act i.val).late, 0])
  ∧ (∀ (i : Fin 32) st, Occurs (.timedActionLaunch · i)
      (fun x => x.armed i.val = true ∧ (x.act i.val).time ≤ x.served40 ∧ x.actDue i.val = true ∧ (∀ j, j < i.val → x.actDue j = false)
        ∧ x.supportsAction (x.action i.val) = true ∧ firstFail (x.actionChecks i.val) = some st)
      fun x => ((x.setFld (TB_ACT_CTRL i.val) TB_ACT_CTRL_ARMED 0).onAct i.val fun y => { y with launched := true, late := false }).issue 0x4006
        [i.val, x.action i.val, (x.act i.val).time % 2 ^ 64, 2, st])
  ∧ (∀ i : Fin 32, Occurs (.timedActionLaunch · i)
      (fun x => x.armed i.val = true ∧ (x.act i.val).time ≤ x.served40 ∧ x.actDue i.val = true ∧ (∀ j, j < i.val → x.actDue j = false)
        ∧ x.supportsAction (x.action i.val) = false)
      fun x => ((x.setFld (TB_ACT_CTRL i.val) TB_ACT_CTRL_ARMED 0).onAct i.val fun y => { y with launched := false, late := false }).issue 0x4006
        [i.val, x.action i.val, (x.act i.val).time % 2 ^ 64, 3, 0])
  ∧ (∀ (i : Fin 32) w, Occurs (.timedActionArm · i w)
      (fun x => x.armed i.val = false ∧ wfld w TB_ACT_CTRL_ACTION < 8 ∧ x.armTimeOk (actionTime x i.val) = true ∧ x.tq ≠ 3)
      fun x => x.armEntry i.val (word ((setBits w TB_ACT_CTRL_ARMED 1).toNat &&& 0x8FCFFFFF)) (x.actArg i.val) (actionTime x i.val))
  ∧ (∀ i : Fin 32, Occurs (.timedActionCancel · i) (fun x => x.armed i.val = true ∧ x.actDue i.val = false)
      fun x => (x.setFld (TB_ACT_CTRL i.val) TB_ACT_CTRL_ARMED 0).onAct i.val fun y => { y with launched := false, late := false })

/-- The TIU block's commands complete: TIU_ROUTE frees or sets a source, FREQ_MEASURE claims its comparators and waits for its gate,
STAMP_READ takes up to 64 stamps out; TRIGGER_CONFIG sets a trigger unit (06_interval_unit.md R195, R198, R199, R200;
07_panes_and_triggers.md R239). -/
def Obligations.TimeIntervalCommandsComplete : Prop :=
  Completes 0x5001 .tiuRoute
      (fun _ ps x => zeroAt ps 6 2 = true ∧ ∀ o ∈ x.routeChecks (num ps 0 1) (num ps 1 1) (num ps 2 1) (num ps 3 1) (num ps 4 2), o = none) stOK
      (fun _ _ _ => [])
      (fun _ ps x => if num ps 1 1 = 255 then x.freeSource (num ps 0 1)
        else x.setSource (num ps 0 1) (num ps 2 1 != 0) (num ps 1 1) (num ps 2 1) (bit (num ps 3 1) 0) (bit (num ps 3 1) 1)
          (if srcComp (num ps 0 1) then num ps 4 2 else 0))
  ∧ (∀ loops, Completes 0x5002 (.freqMeasure · · loops)
      (fun _ ps x =>
        let first := num ps 0 2
        let count := num ps 2 1
        let em := x.fld (AFE_BAY_EXC (first / 8)) AFE_BAY_EXC_EMODE
        first < 512 ∧ 1 ≤ count ∧ count ≤ 8 ∧ (first + count - 1) / 8 = first / 8 ∧ num ps 3 1 < 8 ∧ 10 ≤ num ps 4 4 ∧ num ps 4 4 ≤ 60000
        ∧ 2000 ≤ num ps 8 4 ∧ num ps 12 4 ≤ 500000000 ∧ num ps 8 4 < num ps 12 4
        ∧ (allIn first count fun ch => x.chMode ch != 0 && x.chMode ch != 1) = true ∧ (bit (num ps 3 1) 0 = true → em = 2 ∨ em = 3)
        ∧ (x.tiu.gates.any fun g => g.bay == first / 8) = false ∧ count ≤ x.freeComps.length)
      stACCEPTED (fun _ _ _ => [])
      (fun c ps x =>
        let first := num ps 0 2
        let f := num ps 3 1
        let causes := if bit f 0 then x.loopChecks (first / 8) loops else ([], x)
        let r := (x.freeComps.take (num ps 2 1)).foldl (fun (a : State × List GateCh) n =>
          let ch := first + a.2.length
          (a.1.setSource n false a.1.pickCore 3 (bit f 2) false ch, a.2 ++ [⟨ch, n, 0, [], false, false, false, Tab.get 0 causes.1 ch⟩])) (causes.2, [])
        let g : Gate := { bay := first / 8, chans := r.2, drive := bit f 0, record := bit f 1, falling := bit f 2, gateMs := num ps 4 4,
                          fLo := num ps 8 4, fHi := num ps 12 4, caller := c,
                          driveEnd := if bit f 0 then x.now + fineMs 1 + x.driveLen (first / 8) + fineMs 2 else x.now, openAt := none,
                          pausedAt := none, paused := 0, everPaused := false }
        started c (r.1.onTiu fun t => { t with gates := t.gates ++ [g] })))
  ∧ Completes 0x5003 .stampRead (fun _ ps _ => 1 ≤ num ps 0 1 ∧ num ps 0 1 ≤ 64 ∧ zeroAt ps 1 3 = true) stOK
      (fun _ ps x => le 2 (x.tiu.host.take (num ps 0 1)).length ++ le 2 (x.tiu.host.drop (num ps 0 1)).length ++ le 8 0
        ++ (x.tiu.host.take (num ps 0 1)).flatMap fun a => le 8 a.fine ++ le 8 (st64 a.time)
          ++ le 4 (a.src + 64 * b2n a.falling + 128 * b2n a.missBefore + 256 * b2n a.lost + 512 * b2n a.moved + 1024 * a.core) ++ le 4 0)
      (fun _ ps x => (x.onTiu fun t => { t with host := x.tiu.host.drop (num ps 0 1) }).setFld TIU_HOST_STAT TIU_HOST_STAT_DEPTH
        (x.tiu.host.drop (num ps 0 1)).length)
  ∧ Completes 0x6001 .triggerConfig
      (fun _ ps x => num ps 0 1 < 32 ∧ zeroAt ps 1 3 = true ∧ bits (word (num ps 4 4)).toNat 10 6 = 0
        ∧ ∀ o ∈ x.trigChecks (num ps 0 1) (word (num ps 4 4)) (num ps 8 4) (num ps 12 4) (num ps 16 4), o = none)
      stOK (fun _ _ _ => []) (fun _ ps x => x.setTrigger (num ps 0 1) (word (num ps 4 4)) (num ps 8 4) (num ps 12 4) (num ps 16 4))

/-- The TIU block's events come about: an edge of a routed source is stamped and goes to the source's consumer, a loop loses and finds its
lock, a frequency gate closes and reports (06_interval_unit.md R182, R184, R186, R190, R192, R196). -/
def Obligations.TimeIntervalEventsComplete : Prop :=
  (∀ (n : Fin 64) falling, Occurs (.edgeStamp · n falling [])
      (fun x => x.takesEdge n.val falling = true ∧ x.srcUser n.val ≠ 3 ∧ (x.stampEdge n.val falling x.now).1 = none)
      fun x => (x.stampEdge n.val falling x.now).2)
  ∧ (∀ (n : Fin 64) falling st, Occurs (.edgeStamp · n falling [])
      (fun x => x.takesEdge n.val falling = true ∧ x.srcUser n.val ≠ 3 ∧ (x.stampEdge n.val falling x.now).1 = some st
        ∧ (x.stampEdge n.val falling x.now).2.srcUser st.src = 1)
      fun x => (x.stampEdge n.val falling x.now).2.hostStamp st)
  ∧ (∀ (n : Fin 64) falling st, Occurs (.edgeStamp · n falling [])
      (fun x => x.takesEdge n.val falling = true ∧ x.srcUser n.val ≠ 3 ∧ (x.stampEdge n.val falling x.now).1 = some st
        ∧ (x.stampEdge n.val falling x.now).2.srcUser st.src = 2)
      fun x => (x.stampEdge n.val falling x.now).2.capStamp st)
  ∧ (∀ (n : Fin 64) falling st, Occurs (.edgeStamp · n falling [])
      (fun x => x.takesEdge n.val falling = true ∧ x.srcUser n.val = 3 ∧ (x.gateEdge n.val falling).1 = true
        ∧ ((x.gateEdge n.val falling).2.stampEdge n.val falling (x.gateEdge n.val falling).2.now).1 = some st
        ∧ ((x.gateEdge n.val falling).2.stampEdge n.val falling (x.gateEdge n.val falling).2.now).2.srcUser st.src = 3)
      fun x => ((x.gateEdge n.val falling).2.stampEdge n.val falling (x.gateEdge n.val falling).2.now).2.gateStamp st)
  ∧ (∀ (n : Fin 64) falling, Occurs (.edgeStamp · n falling [])
      (fun x => x.takesEdge n.val falling = true ∧ x.srcUser n.val = 3 ∧ (x.gateEdge n.val falling).1 = false)
      fun x => (x.gateEdge n.val falling).2)
  ∧ (∀ v : Fin 8, Occurs (.loopUnlock · v true) (fun _ => True)
      fun x => (((x.setFld (TIU_CORE_STAT v.val) TIU_CORE_STAT_LOCK_S 0).onCore v.val fun c => { c with lostAt := some x.now }).setFld
        (TIU_CORE_STAT v.val) TIU_CORE_STAT_MOVED 1).issue 0x5002 [v.val, 1, x.st])
  ∧ (∀ v : Fin 8, Occurs (.loopUnlock · v false) (fun _ => True)
      fun x => (((x.setFld (TIU_CORE_STAT v.val) TIU_CORE_STAT_LOCK_F 0).onCore v.val fun c => { c with lostAt := some x.now }).setFld
        (TIU_CORE_STAT v.val) TIU_CORE_STAT_MOVED 1).issue 0x5002 [v.val, 0, x.st])
  ∧ (∀ v : Fin 8, Occurs (.loopRelock · v) (fun _ => True)
      fun x =>
        let y := (x.setFld (TIU_CORE_STAT v.val) TIU_CORE_STAT_LOCK_F 1).setFld (TIU_CORE_STAT v.val) TIU_CORE_STAT_LOCK_S 1
        if y.on (TIU_CORE_STAT v.val) TIU_CORE_STAT_MOVED then y.queueCal (8 + v.val) else y)
  ∧ (∀ (b : Fin 64) g, Occurs (.freqGateOpen · b)
      (fun x => (x.tiu.gates.find? fun g => g.bay == b.val) = some g ∧ g.openAt = none ∧ g.driveEnd ≤ x.now)
      fun x =>
        let srcs := (g.chans.map GateCh.src).filter fun n => decide (n < 64)
        let y := srcs.foldl (fun s n => (s.setFld (TIU_SRC_CFG n) TIU_SRC_CFG_CORE s.pickCore).setFld (TIU_SRC_CFG n) TIU_SRC_CFG_EN 1) x
        let z := if g.drive then y.setFld (AFE_BAY_MON b.val) AFE_BAY_MON_LIMIT 0 else y
        let paused := srcs.any fun n => z.on (TIU_CORE_STAT (z.srcCore n)) TIU_CORE_STAT_CAL
        z.onTiu fun t => { t with gates := mapIf (fun m => m.bay == b.val) (fun m =>
          { m with openAt := some z.now, pausedAt := if paused then some z.now else none, everPaused := paused,
                   chans := m.chans.map fun c => { c with few := c.few || paused } }) t.gates })
  ∧ (∀ (b : Fin 64) g a, Occurs (.freqGateClose · b)
      (fun x => (x.tiu.gates.find? fun g => g.bay == b.val) = some g ∧ g.openAt = some a ∧ g.pausedAt = none ∧ a + g.paused + fineMs g.gateMs ≤ x.now)
      fun x =>
        let entries := g.chans.map fun c => x.gateEntry g c a x.now
        let st := x.stAt a
        let y := x.dropGate b.val
        let z := if g.record && y.address.isSome then
            (g.chans.zip entries).foldl (fun s e => s.addSeqRec
              { blankRec with rtype := 8, addr := s.chanAddr e.1.ch, st := st, stLast := st, tqByte := s.tqByte false, count := 1, payload := e.2 }) y
          else y
        z.report g.caller stOK (le 8 st ++ le 4 (roundFree ((z.now - a) * 10000) 4194304000) ++ le 1 entries.length ++ le 3 0 ++ entries.flatMap id))

/-- The FLD block's commands complete: field ports, decoders, trips and FOUT pins are configured, trips reset
(08_field_ports_and_outputs.md R253, R257, R265, R268, R269). -/
def Obligations.FieldCommandsComplete : Prop :=
  Completes 0x7001 .fieldPortConfig
      (fun _ ps x => num ps 0 1 < 4 ∧ zeroAt ps 1 3 = true ∧ ∀ o ∈ x.fpChecks (num ps 0 1) (word (num ps 4 4)) (word (num ps 8 4)), o = none)
      stOK (fun _ _ _ => [])
      (fun _ ps x =>
        let n := num ps 0 1
        (((x.wr (FLD_PORT_CFG n) (word (num ps 4 4))).wr (FLD_PORT_TIMING n) (word (num ps 8 4))).wr (FLD_PORT_TX n) (word (num ps 12 4))).setupPort n)
  ∧ Completes 0x7002 .fieldDecoderConfig
      (fun _ ps _ => num ps 0 1 < 64 ∧ zeroAt ps 1 3 = true ∧ bits (word (num ps 4 4)).toNat 11 5 = 0 ∧ bits (word (num ps 4 4)).toNat 22 2 = 0
        ∧ bits (word (num ps 8 4)).toNat 8 8 = 0 ∧ ∀ o ∈ decChecks (word (num ps 4 4)), o = none)
      stOK (fun _ _ _ => [])
      (fun _ ps x =>
        let d := num ps 0 1
        x.setDecoder d fun s =>
          ((((s.wr (FLD_DEC_CFG d) (word (num ps 4 4))).wr (FLD_DEC_MATCH d) (word (num ps 8 4))).wr (FLD_DEC_MASK d) (word (num ps 12 4))).wr
            (FLD_DEC_LINTEL d) (word (num ps 16 4))).wr (FLD_DEC_SILL d) (word (num ps 20 4)))
  ∧ Completes 0x7003 .tripConfig
      (fun _ ps x => num ps 0 1 < 16 ∧ zeroAt ps 1 3 = true ∧ bits (word (num ps 4 4)).toNat 10 16 = 0 ∧ x.on FLD_CTRL FLD_CTRL_TRIP_LOCK = false
        ∧ ∀ o ∈ x.tripChecks (word (num ps 4 4)) (num ps 8 4) (num ps 12 4), o = none)
      stOK (fun _ _ _ => [])
      (fun _ ps x =>
        let o := num ps 0 1
        ((((x.wr (FLD_TRIP_CFG o) (word (num ps 4 4))).wr (FLD_TRIP_LINTEL o) (word (num ps 8 4))).wr (FLD_TRIP_SILL o) (word (num ps 12 4))).wr
          (FLD_TRIP_TIME o) (word (num ps 16 4))).setupTrip o 4)
  ∧ Completes 0x7004 .foutConfig
      (fun _ ps _ => num ps 0 1 < 8 ∧ zeroAt ps 1 3 = true ∧ bits (word (num ps 4 4)).toNat 10 18 = 0
        ∧ ∀ o ∈ foutChecks (word (num ps 4 4)) (num ps 8 4) (num ps 12 4) (num ps 16 4), o = none)
      stOK (fun _ _ _ => [])
      (fun _ ps x =>
        let o := num ps 0 1
        ((((x.wr (FLD_FOUT_CFG o) (word (num ps 4 4))).wr (FLD_FOUT_VLO o) (word (num ps 8 4))).wr (FLD_FOUT_VHI o) (word (num ps 12 4))).wr
          (FLD_FOUT_RANGE o) (word (num ps 16 4))).setupFout o (foutMoves (x.rd (FLD_FOUT_CFG o)) (word (num ps 4 4))))
  ∧ Completes 0x7005 .tripReset (fun _ ps _ => zeroAt ps 2 2 = true) stOK
      (fun _ ps x =>
        let r := resetAll x (num ps 0 2)
        le 2 r.1 ++ le 2 (((List.range 16).filter fun o => bit (num ps 0 2) o).foldl
          (fun n o => if r.2.on (FLD_TRIP_STAT o) FLD_TRIP_STAT_HEALTHY then n else n + 2 ^ o) 0))
      (fun _ ps x => (resetAll x (num ps 0 2)).2)

/-- The FLD block's events come about: polls and frames of a field port in use, a trip whose quantity has gone stale or whose minimum time
has passed, TRIP_LOCK (08_field_ports_and_outputs.md R250, R251, R252, R254, R261, R262, R265, R266). -/
def Obligations.FieldEventsComplete : Prop :=
  (∀ n : Fin 4, Occurs (.fieldPortPoll · n)
      (fun x => x.fld (FLD_PORT_TIMING n.val) FLD_PORT_TIMING_POLL ≠ 0 ∧ x.fpMode n.val ≠ 0 ∧ x.fldRuns = true
        ∧ (x.fport n.val).lastPoll < periodOf (x.fld (FLD_PORT_TIMING n.val) FLD_PORT_TIMING_POLL) x.served ∧ x.fpBusy n.val = false)
      fun x =>
        let cfg := x.rd (FLD_PORT_CFG n.val)
        let timing := x.rd (FLD_PORT_TIMING n.val)
        let sent := if x.fpMode n.val = 3 then [] else le (min 4 (wfld cfg FLD_PORT_CFG_TX_LEN)) (x.rd (FLD_PORT_TX n.val)).toNat
        (x.onFport n.val fun z => { z with lastPoll := periodOf (wfld timing FLD_PORT_TIMING_POLL) x.served }).onFport n.val fun z =>
          { z with xfer := some ⟨x.now, x.now + xferLen cfg timing, cfg, timing, sent⟩, taken := false })
  ∧ (∀ n : Fin 4, Occurs (.fieldPortPoll · n)
      (fun x => x.fld (FLD_PORT_TIMING n.val) FLD_PORT_TIMING_POLL ≠ 0 ∧ x.fpMode n.val ≠ 0 ∧ x.fldRuns = true
        ∧ (x.fport n.val).lastPoll < periodOf (x.fld (FLD_PORT_TIMING n.val) FLD_PORT_TIMING_POLL) x.served ∧ x.fpBusy n.val = true)
      fun x => (x.onFport n.val fun z => { z with lastPoll := periodOf (x.fld (FLD_PORT_TIMING n.val) FLD_PORT_TIMING_POLL) x.served }).frameError n.val 3)
  ∧ (∀ (n : Fin 4) chars cfg start bytes, Occurs (.frameReceived · n chars false)
      (fun x => x.fldRuns = true ∧ x.frameOf n.val chars = some (cfg, start, bytes) ∧ (x.fport n.val).from_ ≤ start ∧ bytes.length ≤ 256
        ∧ frameCheck cfg (frameBytes cfg bytes) = true)
      fun x =>
        let z := x.onFport n.val fun m => { m with taken := true }
        let y := (z.bump (FLD_PORT_STAT n.val) FLD_PORT_STAT_FRAMES).pmc 0x701 n.val 1
        ((List.range 64).filter fun d =>
            wfld ((y.decNow d).1.headD 0#32) FLD_DEC_CFG_EN == 1 && wfld ((y.decNow d).1.headD 0#32) FLD_DEC_CFG_PORT == n.val).foldl
          (fun s d => s.decodeFrame d (frameBytes cfg bytes) (z.frameTime n.val start (wfld cfg FLD_PORT_CFG_STAMP == 1))) y)
  ∧ (∀ (n : Fin 4) chars cfg start bytes, Occurs (.frameReceived · n chars true)
      (fun x => x.fldRuns = true ∧ x.frameOf n.val chars = some (cfg, start, bytes) ∧ (x.fport n.val).from_ ≤ start
        ∧ wfld cfg FLD_PORT_CFG_MODE = 1)
      fun x => (x.onFport n.val fun m => { m with taken := true }).frameError n.val 0)
  ∧ (∀ o : Fin 16, Occurs (.tripStale · o)
      (fun x => x.fld (FLD_TRIP_TIME o.val) FLD_TRIP_TIME_STALE ≠ 0 ∧ x.fldRuns = true ∧ x.on (FLD_TRIP_CFG o.val) FLD_TRIP_CFG_EN = true
        ∧ (x.trip o.val).since + fineMs (x.fld (FLD_TRIP_TIME o.val) FLD_TRIP_TIME_STALE) ≤ x.now)
      fun x => (x.onTrip o.val fun y => { y with stale := true }).evalTrip o.val 1)
  ∧ (∀ o : Fin 16, Occurs (.tripMinOnExpiry · o) (fun x => (x.trip o.val).minOnEnd ≤ x.now ∧ (x.trip o.val).resetPending = false) fun x => x.evalTrip o.val 0)
  ∧ (∀ o : Fin 16, Occurs (.tripMinOnExpiry · o) (fun x => (x.trip o.val).minOnEnd ≤ x.now ∧ (x.trip o.val).resetPending = true)
      fun x =>
        let y := x.onTrip o.val fun z => { z with resetPending := false }
        if y.tripCondOk o.val then (y.setFld (FLD_TRIP_STAT o.val) FLD_TRIP_STAT_LATCHED 0).evalTrip o.val 3 else y)
  ∧ Occurs .tripLock (fun _ => True) (fun x => x.setFld FLD_CTRL FLD_CTRL_TRIP_LOCK 1)

/-- The cells and the entries named that one RELEASE of a caller frees, and the state after it; the ACTIVE head adds a scoped one to its
ledger (09_queues_and_retention.md R281; 13_head_redundancy.md R429). -/
def releaseAll (c : Caller) (x : State) (es : List (List Byte)) : Nat × Nat × State :=
  es.foldl (fun (a : Nat × Nat × State) e =>
    let r := a.2.2.releaseEntry e
    (a.1 + r.1, a.2.1 + r.2.1, r.2.2)) (0, 0, if x.isActive && c.isScoped then x.ledgerAdd es else x)

/-- The entries of a RELEASE, 24 bytes each (09_queues_and_retention.md R297). -/
def releaseEntries (ps : List Byte) : List (List Byte) := (List.range (num ps 0 2)).map fun i => bytesAt ps (4 + 24 * i) 24

/-- The bytes that a QUEUE_STATUS answers of the queues `qs`, and the state after it: with `clear`, the flags and counts of each are read
and cleared in turn (09_queues_and_retention.md R296; 00_scope.md R9). -/
def queueReads (x : State) (clear : Bool) (qs : List Nat) : List Byte × State :=
  qs.foldl (fun (a : List Byte × State) q =>
    let r := if clear then a.2.clearQueue q else ((a.2.qFlags q, (a.2.qst q).underruns, (a.2.qst q).rewinds), a.2)
    (a.1 ++ le 4 (x.rd (QM_Q_CFG q)).toNat ++ le 4 (x.rd (QM_Q_WM q)).toNat ++ le 4 (x.qStat q).toNat ++ le 4 r.1.1.toNat
      ++ le 2 r.1.2.1 ++ le 2 r.1.2.2, r.2)) ([], x)

/-- The QM block's commands complete: QUEUE_CONFIG writes a queue's limits and watermark pair, QUEUE_STATUS reads and clears,
RETENTION_CONFIG, SHUTTER and SHUTTER_OPEN; RELEASE frees what its entries name, with or without a reply (09_queues_and_retention.md R281,
R282, R294, R295, R296, R297, R298, R299). -/
def Obligations.QueueCommandsComplete : Prop :=
  Completes 0x8001 .queueConfig
      (fun _ ps x => num ps 0 1 < 64 ∧ zeroAt ps 1 3 = true ∧ ∀ o ∈ x.queueRefuses (num ps 0 1) (word (num ps 4 4)) (word (num ps 8 4)), o = none)
      stOK (fun _ _ _ => [])
      (fun _ ps x => (x.wr (QM_Q_CFG (num ps 0 1)) (word (num ps 4 4))).setWatermark (num ps 0 1) (word (num ps 8 4)))
  ∧ Completes 0x8002 .queueStatus
      (fun _ ps _ => 1 ≤ num ps 1 1 ∧ num ps 1 1 ≤ 64 ∧ num ps 0 1 + num ps 1 1 ≤ 64 ∧ num ps 2 1 < 2 ∧ zeroAt ps 3 1 = true) stOK
      (fun _ ps x => (queueReads x (bit (num ps 2 1) 0) ((List.range (num ps 1 1)).map (num ps 0 1 + ·))).1)
      (fun _ ps x => (queueReads x (bit (num ps 2 1) 0) ((List.range (num ps 1 1)).map (num ps 0 1 + ·))).2)
  ∧ Completes 0x8004 .retentionConfig
      (fun _ ps _ => retCfgOk (word (num ps 0 4)) = true ∧ bits (word (num ps 0 4)).toNat 24 7 = 0 ∧ qmCtrlOk (word (num ps 4 4)) = true
        ∧ bits (word (num ps 4 4)).toNat 16 8 = 0)
      stOK (fun _ _ x => le 8 x.retArea)
      (fun _ ps x => (x.wr QM_RET_CFG (word (num ps 0 4))).wr QM_CTRL (word (num ps 4 4)))
  ∧ (∀ i, Completes 0x8005 .shutter
      (fun _ ps x => num ps 0 2 ≠ 0xFFFF ∧ num ps 2 1 < 8 ∧ num ps 2 1 / 2 ≠ 0 ∧ zeroAt ps 3 1 = true ∧ zeroAt ps 14 2 = true
        ∧ num ps 4 2 ≤ num ps 6 2 ∧ num ps 6 2 < 2048 ∧ num ps 8 2 ≤ num ps 10 2 ∧ num ps 10 2 < 1024
        ∧ num ps 12 2 ≠ 0 ∧ num ps 12 2 < 512 ∧ num ps 16 4 ≤ 86400000 ∧ x.shutEntry (num ps 0 2) = some i)
      stOK (fun _ _ _ => []) (fun _ ps x => x.installShutter i ps))
  ∧ Completes 0x8006 .shutterOpen (fun _ ps _ => zeroAt ps 2 2 = true) stOK (fun _ _ _ => [])
      (fun _ ps x => (x.shutters.filter fun i => num ps 0 2 == 0xFFFF || x.fld (QM_SHUT_CTRL i) QM_SHUT_CTRL_ID == num ps 0 2).foldl
        (fun s i => s.openShutter i 1) x)
  ∧ Completes 0x8003 .release (fun _ ps _ => 1 ≤ num ps 0 2 ∧ num ps 0 2 ≤ 170 ∧ num ps 2 1 = 1 ∧ zeroAt ps 3 1 = true
        ∧ (allIn 0 (num ps 0 2) fun i => zeroAt ps (10 + 24 * i) 2) = true) stOK
      (fun c ps x => le 4 (releaseAll c x (releaseEntries ps)).1 ++ le 2 (releaseAll c x (releaseEntries ps)).2.1)
      (fun c ps x => (releaseAll c x (releaseEntries ps)).2.2.retNormal)
  ∧ CompletesSilently 0x8003 .release (fun _ ps _ => 1 ≤ num ps 0 2 ∧ num ps 0 2 ≤ 170 ∧ num ps 2 1 = 0 ∧ zeroAt ps 3 1 = true
        ∧ (allIn 0 (num ps 0 2) fun i => zeroAt ps (10 + 24 * i) 2) = true)
      (fun c ps x => (releaseAll c x (releaseEntries ps)).2.2.retNormal)

/-- The queues' events come about: pushes that waited go on, a record spills and returns, a rewind is asked for and applied, a shutter
expires, an event record 10 ms old closes (09_queues_and_retention.md R274, R279, R280, R285, R294; 07_panes_and_triggers.md R211). -/
def Obligations.QueueEventsComplete : Prop :=
  (∀ q : Fin 64, Occurs (.pushResumed · q) (fun _ => True)
      fun x => (x.qm.recs.filter fun r => r.aq == q.val || r.q == q.val).foldl (fun s r => s.pushRec r) x)
  ∧ (∀ rid r, Occurs (.spill · rid) (fun x => (x.qm.recs.find? fun r => r.id == rid && r.spillable) = some r ∧ x.spillDue r = true) fun x => x.startSpill r)
  ∧ (∀ rid r, Occurs (.retentionReturn · rid)
      (fun x => (x.qm.recs.find? fun r => x.wanted r) = some r ∧ (x.qm.recs.find? fun r => r.id == rid && x.wanted r) = some r ∧ r.id = rid
        ∧ x.power ≠ 1 ∧ r.cells ≤ x.room 53 ∧ r.spilled = none
        ∧ (x.memReadRange 0 (x.retentionBase rid) (32 + (pad4 r.kept).length) 3).1 = true)
      fun x =>
        let y := (x.memReadRange 0 (x.retentionBase rid) (32 + (pad4 r.kept).length) 3).2.wroteCells rid r.cells
        (y.onRec rid fun m => { m with place := .queued, payload := r.payload, spilled := none, exts := [], popped := 0, agedFrom := y.now, aq := 53,
                                       inAsm := m.cells, entered := 0 }).pmc 0x806 0 r.cells)
  ∧ (∀ rid r f, Occurs (.retentionReturn · rid)
      (fun x => (x.qm.recs.find? fun r => x.wanted r) = some r ∧ (x.qm.recs.find? fun r => r.id == rid && x.wanted r) = some r ∧ r.id = rid
        ∧ x.power ≠ 1 ∧ r.cells ≤ x.room 53 ∧ r.spilled = some f ∧ (decodeStream f).err = none
        ∧ (x.memReadRange 0 (x.retentionBase rid) (32 + (pad4 r.kept).length) 3).1 = true)
      fun x =>
        let y := (x.memReadRange 0 (x.retentionBase rid) (32 + (pad4 r.kept).length) 3).2.wroteCells rid r.cells
        (y.onRec rid fun m => { m with place := .queued, payload := elementBytes (decodeStream f).width (decodeStream f).elems, spilled := none,
                                       exts := [], popped := 0, agedFrom := y.now, aq := 53, inAsm := m.cells, entered := 0 }).pmc 0x806 0 r.cells)
  ∧ (∀ rid r, Occurs (.retentionReturn · rid)
      (fun x => (x.qm.recs.find? fun r => x.wanted r) = some r ∧ (x.qm.recs.find? fun r => r.id == rid && x.wanted r) = some r ∧ r.id = rid
        ∧ x.power ≠ 1 ∧ r.cells ≤ x.room 53 ∧ (x.memReadRange 0 (x.retentionBase rid) (32 + (pad4 r.kept).length) 3).1 = false)
      fun x => (x.memReadRange 0 (x.retentionBase rid) (32 + (pad4 r.kept).length) 3).2.dropRec r 3)
  ∧ (∀ q : Fin 64, Occurs (.rewindTimeout · q)
      (fun x => (x.qm.recs.any fun r => r.q == q.val && match r.deliveredAt with
        | some d => decide (x.now ≥ d + fineMs (x.fld QM_CTRL QM_CTRL_REL_TIMEOUT))
        | none => false) = true)
      fun x => x.askRewind q.val 3)
  ∧ (∀ (q : Fin 64) c, Occurs (.rewindApply · q) (fun x => (x.qst q.val).rewindCause = some c ∧ x.sending q.val = false) fun x => x.rewind q.val c)
  ∧ (∀ i : Fin 32, Occurs (.shutterExpiry · i)
      (fun x => x.on (QM_SHUT_CTRL i.val) QM_SHUT_CTRL_ACTIVE = true ∧ Tab.get 0 x.qm.shutEnd i.val ≠ 0 ∧ Tab.get 0 x.qm.shutEnd i.val ≤ x.now)
      fun x => x.openShutter i.val 2)
  ∧ (∀ r, Occurs .eventRecordClose (fun x => x.qm.evRec = some r ∧ r.openedAt + fineMs 10 ≤ x.now) State.closeEvents)

/-- The blocks that a flush of the slots of a mask puts out, and the state after it (10_compression.md R319). -/
def flushAll (x : State) (mask : Nat) : Nat × State :=
  ((List.range 4).filter (bit mask)).foldl (fun (a : Nat × State) k =>
    let r := a.2.flushSlot k
    (a.1 + r.1, r.2)) (0, x)

/-- The CMP block's commands and events complete: CMP_CONFIG, CMP_JOB, CMP_FLUSH at once and after DRAIN, a record compressed or spilled,
a job done, the drained flush answered (10_compression.md R317, R319, R320, R321, R322; 09_queues_and_retention.md R285). -/
def Obligations.CompressionComplete : Prop :=
  Completes 0x9001 .cmpConfig
      (fun _ ps _ => cmpCtrlOk (word (num ps 0 4)) = true ∧ bits (word (num ps 0 4)).toNat 28 3 = 0 ∧ bits (word (num ps 0 4)).toNat 12 14 = 0) stOK
      (fun _ _ _ => []) (fun _ ps x => x.wr CMP_CTRL (word (num ps 0 4)))
  ∧ Completes 0x9002 .cmpJob
      (fun _ ps x =>
        let k := num ps 1 1
        let w := if (x.slot k).opened then (x.slot k).width else num ps 3 1
        let orig := ofLe (Mem.readBytes 0#8 x.bufs.work (num ps 4 8 + 4) 4)
        x.power ≠ 1 ∧ num ps 0 1 ≤ 2 ∧ num ps 2 1 < 4 ∧ 1 ≤ num ps 16 1 ∧ num ps 16 1 ≤ 8 ∧ zeroAt ps 17 3 = true
        ∧ (∀ i, i < num ps 16 1 → zeroAt ps (32 + 16 * i) 4 = true)
        ∧ x.inWork (num ps 4 8) (num ps 12 4) = true ∧ (∀ b ∈ jobBufs ps, x.inWork b.1 b.2 = true)
        ∧ (num ps 0 1 = 0 → k < 4 ∧ (w = 1 ∨ w = 3 ∨ w = 4) ∧ num ps 12 4 % w = 0 ∧ (x.cmp.jobs.any fun j => j.op == 0 && j.slot == k) = false
          ∧ fsfBound (num ps 12 4 + w * (x.slot k).pending.length) w ≤ chainLen (jobBufs ps))
        ∧ (num ps 0 1 = 1 → num ps 12 4 < 8 ∨ orig = 0xFFFFFFFF ∨ orig ≤ chainLen (jobBufs ps)))
      stACCEPTED (fun _ _ _ => [])
      (fun c ps x =>
        let k := num ps 1 1
        let sl := x.slot k
        let w := if sl.opened then sl.width else num ps 3 1
        let job : CJob := ⟨num ps 0 1, k, bit (num ps 2 1) 0, bit (num ps 2 1) 1, w, num ps 4 8, num ps 12 4, jobBufs ps, !sl.opened, c⟩
        let y := x.onCmp fun m => { m with jobs := m.jobs ++ [job] }
        started c (if num ps 0 1 = 0 then y.setSlot k { sl with opened := true, width := w } true else y))
  ∧ Completes 0x9003 .cmpFlush
      (fun _ ps x => num ps 0 1 < 16 ∧ num ps 1 1 < 2 ∧ zeroAt ps 2 2 = true ∧ (num ps 1 1 = 0 ∨ (flushAll x (num ps 0 1)).2.inEngine = [])) stOK
      (fun _ ps x => le 1 (flushAll x (num ps 0 1)).1) (fun _ ps x => (flushAll x (num ps 0 1)).2)
  ∧ CompletesLater 0x9003 .cmpFlush
      (fun _ ps x => num ps 0 1 < 16 ∧ num ps 1 1 = 1 ∧ zeroAt ps 2 2 = true ∧ (flushAll x (num ps 0 1)).2.inEngine ≠ [])
      (fun c ps x =>
        let r := flushAll x (num ps 0 1)
        r.2.onCmp fun m => { m with drains := m.drains ++ [⟨r.2.inEngine, r.1, c⟩] })
  ∧ (∀ rid r, Occurs (.cmpRecordDone · rid) (fun x => (x.qm.recs.filter fun r => r.place == .engine).head? = some r ∧ r.id = rid ∧ r.inAsm = r.cells)
      fun x => match (x.compress r).1 with
        | some out => (x.compress r).2.leaveEngine r fun y => { y with payload := out, fsf := true }
        | none => (x.compress r).2.leaveEngine r id)
  ∧ (∀ rid r, Occurs (.cmpRecordDone · rid)
      (fun x => (x.qm.recs.filter fun r => r.place == .engine) = [] ∧ (x.qm.recs.find? fun r => r.id == rid && r.place == .spilling) = some r)
      fun x => x.finishSpill r)
  ∧ (∀ tag source j, Occurs (.cmpJobDone · tag source)
      (fun x => (x.cmp.jobs.find? fun j => j.caller.tag == tag && j.caller.source == source) = some j
        ∧ ((x.onCmp fun c => { c with jobs := c.jobs.filter fun y => y != j }).workRead j.src j.len).1 = true)
      fun x =>
        let r := (x.onCmp fun c => { c with jobs := c.jobs.filter fun y => y != j }).workRead j.src j.len
        if j.op = 0 then r.2.2.compressJob j r.2.1 else r.2.2.decodeJob j r.2.1)
  ∧ (∀ tag source j, Occurs (.cmpJobDone · tag source)
      (fun x => (x.cmp.jobs.find? fun j => j.caller.tag == tag && j.caller.source == source) = some j
        ∧ ((x.onCmp fun c => { c with jobs := c.jobs.filter fun y => y != j }).workRead j.src j.len).1 = false)
      fun x =>
        let y := x.onCmp fun c => { c with jobs := c.jobs.filter fun y => y != j }
        let r := y.workRead j.src j.len
        (if j.op = 0 then r.2.2.setSlot j.slot (y.slot j.slot) false else r.2.2).report j.caller stMEM_UNCORRECTABLE (jobReport 0 0 0 none 0))
  ∧ (∀ d, Occurs .cmpFlushDrained (fun x => x.cmp.drains = [d] ∧ (d.recs.any fun i => x.inEngine.contains i) = false)
      fun x => (x.onCmp fun c => { c with drains := [] }).answer d.caller stOK (le 1 d.blocks))

/-- What of a count `v` of lane `l`'s checker is of the present clock, which a read does not take (00_scope.md R9). -/
def freshChecks (x : State) (l k v : Nat) : Nat := min (x.freshCount (checkerCount l k) ⟨0, 48⟩) v

/-- The counts of lane `l`'s checker as a reply carries them (11_serial_lanes_and_syrilink.md R363). -/
def checkerCounts (x : State) (l : Nat) (y : LaneSt) : List Byte :=
  le 8 (y.bits - freshChecks x l 0 y.bits) ++ le 8 (y.errors - freshChecks x l 1 y.errors) ++ le 4 (y.lockLosses - freshChecks x l 2 y.lockLosses)

/-- The LNK block's commands complete: PORT_CONFIG, PORT_STATUS, LANE_EYE_SCAN, LANE_PATTERN, LANE_LOOPBACK, PORT_RETRAIN
(11_serial_lanes_and_syrilink.md R357, R358, R360, R361, R362, R363, R364, R365). -/
def Obligations.LinkCommandsComplete : Prop :=
  Completes 0xA001 .portConfig
      (fun _ ps x => num ps 0 1 < 8 ∧ zeroAt ps 1 3 = true ∧ bits (word (num ps 4 4)).toNat 12 3 = 0 ∧ bits (word (num ps 8 4)).toNat 16 16 = 0
        ∧ x.portWordsOk (num ps 0 1) (word (num ps 4 4)) (word (num ps 8 4)) = true ∧ x.portFits (num ps 0 1) (word (num ps 4 4)) = true)
      stOK (fun _ _ _ => []) (fun _ ps x => x.configurePort (num ps 0 1) (word (num ps 4 4)) (word (num ps 8 4)))
  ∧ Completes 0xA002 .portStatus (fun _ ps _ => num ps 0 1 < 8 ∧ zeroAt ps 1 3 = true) stOK
      (fun _ ps x =>
        let p := num ps 0 1
        let w := fun a => le 4 (x.rd a).toNat
        w (LNK_PORT_CFG p) ++ w (LNK_PORT_STAT p) ++ w (LNK_PORT_ERR p) ++ w (LNK_PORT_CNT p) ++ w (LNK_PORT_RTT p)
          ++ ((List.range 4).flatMap fun i => w (LNK_LANE_STAT (4 * p + i))) ++ w (LNK_MOD_STAT p))
      (fun _ _ x => x)
  ∧ Completes 0xA003 .laneEyeScan
      (fun _ ps x =>
        let l := num ps 0 1
        l < 32 ∧ 16 ≤ num ps 1 1 ∧ num ps 1 1 ≤ 40 ∧ zeroAt ps 2 2 = true ∧ zeroAt ps 10 2 = true
        ∧ 1 ≤ num ps 5 1 ∧ num ps 5 1 ≤ 128 ∧ 1 ≤ num ps 6 1 ∧ num ps 6 1 ≤ 32 ∧ 1 ≤ num ps 8 1 ∧ num ps 8 1 ≤ 63 ∧ 1 ≤ num ps 9 1 ∧ num ps 9 1 ≤ 31
        ∧ num ps 5 1 * num ps 8 1 ≤ 2000 ∧ -64 ≤ numI ps 4 1 ∧ numI ps 4 1 + ((num ps 5 1 - 1) * num ps 6 1 : Nat) ≤ 63
        ∧ -31 ≤ numI ps 7 1 ∧ numI ps 7 1 + ((num ps 8 1 - 1) * num ps 9 1 : Nat) ≤ 31
        ∧ (x.on (LNK_LANE_STAT l) LNK_LANE_STAT_IN_USE || x.underTest l) = true ∧ (x.lnk.scans.any fun y => y.port == l / 4) = false)
      stACCEPTED (fun _ _ _ => [])
      (fun c ps x => started c (x.onLnk fun n =>
        { n with scans := n.scans ++ [⟨num ps 0 1 / 4, num ps 0 1, num ps 1 1, num ps 4 1, num ps 5 1, num ps 6 1, num ps 7 1, num ps 8 1, num ps 9 1, x.now, c⟩] }))
  ∧ Completes 0xA004 .lanePattern
      (fun _ ps x => num ps 0 1 < 32 ∧ num ps 1 1 ≤ 3 ∧ num ps 2 1 ≤ 6 ∧ zeroAt ps 3 5 = true ∧ x.underTest (num ps 0 1) = true) stOK
      (fun _ ps x =>
        let y := x.lane (num ps 0 1)
        let op := num ps 1 1
        le 1 (b2n (op == 1 || op == 3) + 2 * b2n (op == 2 || op == 3)) ++ le 3 0 ++ checkerCounts x (num ps 0 1) y)
      (fun _ ps x => x.onLane (num ps 0 1) fun y =>
        { y with gen := num ps 1 1 == 1 || num ps 1 1 == 3, chk := num ps 1 1 == 2 || num ps 1 1 == 3, locked := false, pattern := num ps 2 1,
                 user := num ps 8 8, genAt := 0, window := [], wrong := [], clean := 0 })
  ∧ Completes 0xA004 .lanePattern
      (fun _ ps x => num ps 0 1 < 32 ∧ (num ps 1 1 = 4 ∨ num ps 1 1 = 5) ∧ num ps 2 1 ≤ 6 ∧ zeroAt ps 3 5 = true ∧ x.underTest (num ps 0 1) = true) stOK
      (fun _ ps x =>
        let y := x.lane (num ps 0 1)
        le 1 (b2n y.gen + 2 * b2n y.chk + 4 * b2n y.locked) ++ le 3 0 ++ checkerCounts x (num ps 0 1) y)
      (fun _ ps x => if num ps 1 1 = 5 then x.onLane (num ps 0 1) fun y =>
          { y with bits := freshChecks x (num ps 0 1) 0 y.bits, errors := freshChecks x (num ps 0 1) 1 y.errors,
                   lockLosses := freshChecks x (num ps 0 1) 2 y.lockLosses }
        else x)
  ∧ Completes 0xA005 .laneLoopback (fun _ ps x => num ps 0 1 < 32 ∧ num ps 1 1 ≤ 3 ∧ zeroAt ps 2 2 = true ∧ x.underTest (num ps 0 1) = true) stOK
      (fun _ _ _ => []) (fun _ ps x => x.onLane (num ps 0 1) fun y => { y with loopback := num ps 1 1 })
  ∧ Completes 0xA006 .portRetrain
      (fun _ ps x => num ps 0 1 < 8 ∧ num ps 1 1 < 2 ∧ zeroAt ps 2 2 = true ∧ x.portRuns (num ps 0 1) = true ∧ x.pstate (num ps 0 1) ≠ 2) stOK
      (fun _ _ _ => []) (fun _ ps x => x.startTraining (num ps 0 1) (num ps 1 1 == 0) 2)

/-- What a port has learnt of its peer from an IDENT (11_serial_lanes_and_syrilink.md R332). -/
def heardIdent (x : State) (p : Nat) (i : Ident) : State :=
  ((x.setFld (LNK_PORT_STAT p) LNK_PORT_STAT_PEER_VALID 1).setFld (LNK_PORT_STAT p) LNK_PORT_STAT_PEER_ROLE i.role).setFld (LNK_PORT_STAT p)
    LNK_PORT_STAT_PEER_ADDR i.addr

/-- The lanes that both ends of a port find good when READY comes with these markers (11_serial_lanes_and_syrilink.md R332, R336). -/
def readyLanes (x : State) (p : Nat) (markers : List (Option Marker)) : Nat :=
  if (x.port p).peer.isSome then admitted markers &&& (x.port p).goodMask else admitted markers

/-- Training comes about: it starts, IDENT is agreed or finds roles or addresses that do not fit, READY brings the port up on the lanes
that are good, training times out, starts again, and a mismatched port tries again (11_serial_lanes_and_syrilink.md R332, R333). -/
def Obligations.TrainingEventsComplete : Prop :=
  (∀ p : Fin 8, Occurs (.portTrainingStart · p) (fun x => x.portRuns p.val = true ∧ (x.pstate p.val = 0 ∨ x.pstate p.val = 1))
      fun x => x.startTraining p.val false 0)
  ∧ (∀ (p : Fin 8) i, Occurs (.trainIdentReceived · p i)
      (fun x => (x.port p.val).train = .ident ∧ (x.pstate p.val = 2 ∨ x.pstate p.val = 5)
        ∧ (rolesFit ((heardIdent x p.val i).role p.val) i.role = false ∨ (heardIdent x p.val i).address = some i.addr))
      fun x => (((heardIdent x p.val i).onPort p.val fun y => { y with train := .idle, trainAt := (heardIdent x p.val i).now }).violation p.val 12).setPort
        p.val 5 3)
  ∧ (∀ (p : Fin 8) i, Occurs (.trainIdentReceived · p i)
      (fun x => (x.port p.val).train = .ident ∧ (x.pstate p.val = 2 ∨ x.pstate p.val = 5)
        ∧ rolesFit ((heardIdent x p.val i).role p.val) i.role = true ∧ (heardIdent x p.val i).address ≠ some i.addr ∧ i.rate ≠ 1)
      fun x =>
        let y := (List.range 4).foldl (fun s k => s.setFld (LNK_LANE_STAT (4 * p.val + k)) LNK_LANE_STAT_LOCK (b2n (bit i.lockMask k))) (heardIdent x p.val i)
        let z := y.setFld (LNK_PORT_STAT p.val) LNK_PORT_STAT_RATE_NOW (max i.rate (y.reqRate p.val))
        (z.onPort p.val fun m => { m with train := .agreed, peer := some i, goodMask := i.lockMask }).setPort p.val 2 2)
  ∧ (∀ (p : Fin 8) markers, Occurs (.trainReadyReceived · p markers)
      (fun x => (x.port p.val).train = .agreed ∧ x.pstate p.val = 2 ∧ x.laneChoice p.val (readyLanes x p.val markers) ≠ 0
        ∧ x.now < (x.port p.val).trainAt + fineMs 5)
      fun x =>
        let first := (markers.filterMap fun m => m.map Marker.at_).foldl min ((markers.filterMap fun m => m.map Marker.at_).headD 0)
        let y := if swapped markers then x.violation p.val 11 else x
        let y := (y.useLanes p.val (x.laneChoice p.val (readyLanes x p.val markers))).onPort p.val fun m =>
          { m with train := .idle, goodMask := readyLanes x p.val markers, linkDue := true, linkAt := y.now, ackAt := y.now }
        let z := (List.range 4).foldl (fun s k =>
          let mk := (markers[k]?).getD none
          ((s.setFld (LNK_LANE_STAT (4 * p.val + k)) LNK_LANE_STAT_GOOD (b2n (bit (readyLanes x p.val markers) k))).setFld
            (LNK_LANE_STAT (4 * p.val + k)) LNK_LANE_STAT_FROZEN 0).onLane (4 * p.val + k) fun l =>
              { l with idleFrom := s.now, idleOther := 0, txIdleFrom := s.now, txIdleOther := 0, refreshed := l.refreshed + l.refreshes, refreshes := 0,
                       skew := mk.elim 0 fun a => a.at_ - first, found := mk.elim l.found fun a => (a.lane, a.port),
                       seen := mk.elim l.found fun a => (a.lane, a.port), alignAt := s.now, bipRun := 0 }) y
        (z.setPort p.val (z.upState p.val) 2).tellMinimal)
  ∧ (∀ p : Fin 8, Occurs (.trainingTimeout · p)
      (fun x => x.pstate p.val = 2 ∧ (x.port p.val).train ≠ .paused ∧ (x.port p.val).trainAt + fineMs 5 ≤ x.now)
      fun x => x.onPort p.val fun y => { y with train := .paused, trainAt := x.now })
  ∧ (∀ p : Fin 8, Occurs (.trainingRestart · p)
      (fun x => x.pstate p.val = 2 ∧ (x.port p.val).train = .paused ∧ (x.port p.val).trainAt + fineMs 10 ≤ x.now)
      fun x => x.startTraining p.val (x.port p.val).planned 2)
  ∧ (∀ p : Fin 8, Occurs (.mismatchRetry · p) (fun x => x.pstate p.val = 5 ∧ (x.port p.val).trainAt + fineMs 1000 ≤ x.now)
      fun x => (x.bump (LNK_PORT_CNT p.val) LNK_PORT_CNT_RETRAINS).onPort p.val fun y => { y with train := .ident, trainAt := x.now })

/-- Lane `l` fails with fault `f`: the loss is counted, and the lane is no longer GOOD (11_serial_lanes_and_syrilink.md R337, R338). -/
def laneDark (x : State) (l : Nat) (f : LaneFault) : State :=
  let y := ((x.bump (LNK_PORT_CNT (l / 4)) LNK_PORT_CNT_LANE_LOSSES).setFld (LNK_LANE_STAT l) LNK_LANE_STAT_GOOD 0).onLane l fun m =>
    { m with lostAt := (x.bump (LNK_PORT_CNT (l / 4)) LNK_PORT_CNT_LANE_LOSSES).now }
  match f with
  | .sync hs => (y.setFld (LNK_LANE_STAT l) LNK_LANE_STAT_LOCK 0).countSync l (invalidSync hs)
  | .lock => y.setFld (LNK_LANE_STAT l) LNK_LANE_STAT_LOCK 0
  | _ => y

/-- The port of a lane that fails, with the good lanes it has left. -/
def lanePort (x : State) (l : Nat) (f : LaneFault) : State :=
  let good := ((laneDark x l f).port (l / 4)).goodMask &&& (15 - 2 ^ (l % 4))
  (laneDark x l f).onPort (l / 4) fun m => { m with goodMask := good }

/-- The set that a port whose lane `l` fails goes on with (11_serial_lanes_and_syrilink.md R337). -/
def lanesLeft (x : State) (l : Nat) (f : LaneFault) : Nat :=
  (lanePort x l f).laneChoice (l / 4) (((laneDark x l f).port (l / 4)).goodMask &&& (15 - 2 ^ (l % 4)))

/-- The loss of a lane is told by 0xA002 (11_serial_lanes_and_syrilink.md R337). -/
def laneOut (x : State) (l : Nat) (f : LaneFault) : State :=
  (lanePort x l f).issue 0xA002 [l / 4, l % 4, faultCode f, lanesLeft x l f]

/-- May lane `l` come back, in lock since `lockAt` and `skew` behind the others (11_serial_lanes_and_syrilink.md R334, R338)? -/
def mayReturn (x : State) (l lockAt skew : Nat) : Prop :=
  x.portUp (l / 4) = true ∧ x.on (LNK_LANE_STAT l) LNK_LANE_STAT_GOOD = false ∧ x.legacyPort (l / 4) = false ∧ (x.lane l).lostAt ≤ lockAt
    ∧ max lockAt (x.lane l).faultAt + fineMs 1000 ≤ x.now ∧ skew ≤ 107374

/-- The good lanes of lane `l`'s port with lane `l`. -/
def goodWith (x : State) (l : Nat) : Nat := (x.port (l / 4)).goodMask ||| 2 ^ (l % 4)

/-- Lane `l` is good again, and in lock. -/
def laneBack (x : State) (l skew : Nat) : State :=
  (((x.onLane l fun m => { m with skew := skew, seen := m.found, alignAt := x.now, bipRun := 0 }).setFld (LNK_LANE_STAT l) LNK_LANE_STAT_GOOD 1).setFld
    (LNK_LANE_STAT l) LNK_LANE_STAT_LOCK 1).onPort (l / 4) fun m => { m with goodMask := goodWith x l }

/-- Has port `p`'s module not been read for a second (11_serial_lanes_and_syrilink.md R359)? -/
def pollDue (x : State) (p : Nat) : Bool :=
  match (Tab.get {} x.lnk.modules p).at_ with
  | some a => decide (x.now ≥ a + fineMs 1000)
  | none => true

/-- What a module answered is kept and shown, its loss of signal at the lanes too (11_serial_lanes_and_syrilink.md R359). -/
def moduleShown (x : State) (p : Nat) (r : ModuleRead) : State :=
  let a := LNK_MOD_STAT p
  let y := x.onLnk fun n => { n with modules := Tab.set {} n.modules p ⟨some r, some x.now, x.role p == rOFF || !r.present⟩ }
  let y := ((((y.setFld a LNK_MOD_STAT_PRESENT (b2n r.present)).setFld a LNK_MOD_STAT_READ_OK (b2n (r.present && r.readOk))).setFld a
    LNK_MOD_STAT_LOS (r.los % 16)).setFld a LNK_MOD_STAT_ALARM (b2n r.alarm)).setFld a LNK_MOD_STAT_TEMP r.temp
  (List.range 4).foldl (fun s i => s.setFld (LNK_LANE_STAT (4 * p + i)) LNK_LANE_STAT_LOS (b2n (bit (r.los % 16) i))) y

/-- Is a module's answer told: it does not read, signals loss or an alarm, which is new (11_serial_lanes_and_syrilink.md R359)? -/
def moduleTold (x : State) (p : Nat) (r : ModuleRead) : Bool :=
  let status := fun (w : Word) => (wfld w LNK_MOD_STAT_PRESENT, wfld w LNK_MOD_STAT_READ_OK, wfld w LNK_MOD_STAT_LOS, wfld w LNK_MOD_STAT_ALARM)
  (!(r.present && r.readOk) || r.alarm || r.los % 16 != 0) && status (x.rd (LNK_MOD_STAT p)) != status ((moduleShown x p r).rd (LNK_MOD_STAT p))

/-- What happens to the lanes of a port that is up comes about: a lane is lost and the port goes on with fewer, or goes down with its
last; the lanes are restriped, a lane is readmitted, freezes and refreshes in idle; a module is polled, an eye scan ends, a checker takes
bits (11_serial_lanes_and_syrilink.md R336, R337, R338, R340, R356, R357, R359, R362, R363). -/
def Obligations.LaneEventsComplete : Prop :=
  (∀ (l : Fin 32) f, Occurs (.laneLost · l f)
      (fun x => x.portUp (l.val / 4) = true ∧ bit (x.fld (LNK_PORT_STAT (l.val / 4)) LNK_PORT_STAT_LANES) (l.val % 4) = true ∧ x.laneFails l.val f = true
        ∧ lanesLeft x l.val f = 0)
      fun x => (((laneOut x l.val f).useLanes (l.val / 4) 0).dropLink (l.val / 4)).setPort (l.val / 4) 1 1)
  ∧ (∀ (l : Fin 32) f, Occurs (.laneLost · l f)
      (fun x => x.portUp (l.val / 4) = true ∧ bit (x.fld (LNK_PORT_STAT (l.val / 4)) LNK_PORT_STAT_LANES) (l.val % 4) = true ∧ x.laneFails l.val f = true
        ∧ lanesLeft x l.val f ≠ 0 ∧ (laneOut x l.val f).legacyPort (l.val / 4) = true)
      fun x => (laneOut x l.val f).startTraining (l.val / 4) false 1)
  ∧ (∀ (l : Fin 32) f, Occurs (.laneLost · l f)
      (fun x => x.portUp (l.val / 4) = true ∧ bit (x.fld (LNK_PORT_STAT (l.val / 4)) LNK_PORT_STAT_LANES) (l.val % 4) = true ∧ x.laneFails l.val f = true
        ∧ lanesLeft x l.val f ≠ 0 ∧ (laneOut x l.val f).legacyPort (l.val / 4) = false)
      fun x =>
        let p := l.val / 4
        let y := (((laneOut x l.val f).useLanes p (lanesLeft x l.val f)).sendRestripe p (lanesLeft x l.val f) false).onPort p fun m =>
          { m with linkDue := true, nakDue := true, discardUntil := some m.rxNext }
        y.setPort p (y.upState p) 1)
  ∧ (∀ (p : Fin 8) mask, Occurs (.restripeReceived · p mask false) (fun x => x.portUp p.val = true ∧ mask % 16 ≠ 0)
      fun x =>
        let y := (x.useLanes p.val (mask % 16)).sendRestripe p.val (mask % 16) true
        y.setPort p.val (y.upState p.val) 1)
  ∧ (∀ (l : Fin 32) lockAt skew, Occurs (.laneReadmitted · l lockAt skew)
      (fun x => mayReturn x l.val lockAt skew
        ∧ laneCount ((laneBack x l.val skew).laneChoice (l.val / 4) (goodWith x l.val))
            ≤ laneCount ((laneBack x l.val skew).fld (LNK_PORT_STAT (l.val / 4)) LNK_PORT_STAT_LANES))
      fun x => laneBack x l.val skew)
  ∧ (∀ (l : Fin 32) lockAt skew, Occurs (.laneReadmitted · l lockAt skew)
      (fun x => mayReturn x l.val lockAt skew
        ∧ laneCount ((laneBack x l.val skew).fld (LNK_PORT_STAT (l.val / 4)) LNK_PORT_STAT_LANES)
            < laneCount ((laneBack x l.val skew).laneChoice (l.val / 4) (goodWith x l.val)))
      fun x =>
        let p := l.val / 4
        let y := laneBack x l.val skew
        let set := y.laneChoice p (goodWith x l.val)
        let z := ((y.useLanes p set).sendRestripe p set false).issue 0xA003 [p, l.val % 4, set]
        z.setPort p (z.upState p) 1)
  ∧ (∀ l : Fin 32, Occurs (.idleFreeze · l)
      (fun x => x.idles l.val = true ∧ x.rateNow (l.val / 4) = 0 ∧ 2 ^ 20 ≤ idleOf (blocksIn 0 (x.now - (x.lane l.val).idleFrom)) (x.lane l.val).idleOther)
      fun x => x.setFld (LNK_LANE_STAT l.val) LNK_LANE_STAT_FROZEN 1)
  ∧ (∀ l : Fin 32, Occurs (.idleRefresh · l)
      (fun x => x.idles l.val = true
        ∧ 2 ^ 20 + 8192 * ((x.lane l.val).refreshes + 1)
            ≤ idleOf (blocksIn (x.rateNow (l.val / 4)) (x.now - (x.lane l.val).txIdleFrom)) (x.lane l.val).txIdleOther)
      fun x => (x.onLane l.val fun y => { y with refreshes := y.refreshes + 1 }).onPort (l.val / 4) fun y =>
        { y with aside := [(l.val % 4, refreshWord (refreshContent l.val ((x.lane l.val).refreshed + (x.lane l.val).refreshes)))] })
  ∧ (∀ (p : Fin 8) r, Occurs (.modulePoll · p r)
      (fun x => x.fld (LNK_PORT_CFG p.val) LNK_PORT_CFG_MODULE ≠ 0 ∧ pollDue x p.val = true ∧ moduleTold x p.val r = false)
      fun x => (List.range 4).foldl (fun s i => s.loseLane (4 * p.val + i) .los) (moduleShown x p.val r))
  ∧ (∀ (p : Fin 8) r, Occurs (.modulePoll · p r)
      (fun x => x.fld (LNK_PORT_CFG p.val) LNK_PORT_CFG_MODULE ≠ 0 ∧ pollDue x p.val = true ∧ moduleTold x p.val r = true)
      fun x => (List.range 4).foldl (fun s i => s.loseLane (4 * p.val + i) .los)
        ((moduleShown x p.val r).issue 0xA006 [p.val, b2n r.present, r.los % 16, b2n r.alarm]))
  ∧ (∀ (p : Fin 8) counts e, Occurs (.eyeScanDone · p counts) (fun x => (x.lnk.scans.find? fun y => y.port == p.val) = some e ∧ x.scanEnd e ≤ x.now)
      fun x => (x.onLnk fun m => { m with scans := m.scans.filter fun y => y.port != p.val }).report e.caller stOK
        (le 1 e.lane ++ le 1 e.d ++ le 1 e.phases ++ le 1 e.thrs ++ le 1 e.phase0 ++ le 1 e.phaseStep ++ le 1 e.thr0 ++ le 1 e.thrStep
          ++ le 4 (uiFs (x.rateNow p.val)) ++ le 4 0 ++ (List.range (e.phases * e.thrs)).flatMap fun i => le 2 (satN 16 (counts.getD i 0))))
  ∧ (∀ (l : Fin 32) got, Occurs (.checkerLockChange · l got)
      (fun x => (x.lane l.val).chk = true ∧ x.underTest l.val = true ∧ ((x.lane l.val).loopback == 1 && (x.lane l.val).gen) = false)
      fun x =>
        let m := x.lane l.val
        let y := got.foldl LaneSt.check m
        (((x.onLane l.val fun _ => y).mark (checkerCount l.val 0) 0 (y.bits - m.bits)).mark (checkerCount l.val 1) 0 (y.errors - m.errors)).mark
          (checkerCount l.val 2) 0 (y.lockLosses - m.lockLosses))

/-- A cell of a right END (11_serial_lanes_and_syrilink.md R328, R345): 256 bytes of the class of its START, the CRC right, the number
that the receiver expects, and a credit left for it. -/
def rightCell (x : State) (p cls seq crc : Nat) (data : List Byte) : Prop :=
  data.length = 256 ∧ crc = crc32c data ∧ seq = (x.port p).rxNext ∧ (x.port p).got.get cls < (x.port p).given.get cls ∧ (cellOfBytes data).cls = cls

/-- What an END ends is no longer in progress. -/
def cellClosed (x : State) (p : Nat) (rest : List RxCell) : State := x.onPort p fun m => { m with rx := rest }

/-- The cells that a LINK block acknowledges anew, its credit of a class beyond what was sent, and whether one of its credits goes back
(11_serial_lanes_and_syrilink.md R344, R345). -/
def newlyAcked (x : State) (p : Nat) (b : LinkBlock) : Nat :=
  (b.ack + 65536 - ((x.port p).txSeq + 65536 - (x.port p).replay.length) % 65536) % 65536
def creditStep (x : State) (p cls cred : Nat) : Nat := (cred + 256 - (x.port p).sent.get cls % 256) % 256
def creditBack (x : State) (p : Nat) (b : LinkBlock) : Bool :=
  let back := fun cls cred => decide (creditStep x p cls cred < (x.port p).granted.get cls - (x.port p).sent.get cls)
  back 0 b.credC || back 1 b.credT || back 2 b.credS || back 3 b.credB

/-- Cells and LINK blocks come and go: a cell of the next class starts at a cell boundary, one of class C inside a cell, or a replay goes
on; START, data and END make a cell, which in order is counted and routed and with a wrong CRC is asked for again; LINK blocks acknowledge
and are sent when they are due, replay starts when an acknowledgement is late (11_serial_lanes_and_syrilink.md R328, R330, R341, R342,
R344, R345, R346, R355). -/
def Obligations.CellEventsComplete : Prop :=
  (∀ (p : Fin 8) c, Occurs (.egressCellStart · p)
      (fun x => x.portUp p.val = true ∧ (x.tidyLine p.val).atBoundary p.val = true ∧ ((x.tidyLine p.val).port p.val).replayFrom = none
        ∧ ((x.tidyLine p.val).port p.val).replay.length < ((x.tidyLine p.val).port p.val).replaySize ∧ (x.tidyLine p.val).nextClass p.val = some c)
      fun x => (x.tidyLine p.val).startCell p.val c)
  ∧ (∀ p : Fin 8, Occurs (.egressCellStart · p)
      (fun x => x.portUp p.val = true ∧ (x.tidyLine p.val).atBoundary p.val = false ∧ ((x.tidyLine p.val).port p.val).replayFrom = none
        ∧ ((x.tidyLine p.val).port p.val).replay.length < ((x.tidyLine p.val).port p.val).replaySize ∧ (x.tidyLine p.val).canSuspend p.val = true
        ∧ (x.tidyLine p.val).canSend p.val 0 = true)
      fun x => (x.tidyLine p.val).startCell p.val 0)
  ∧ (∀ (p : Fin 8) k e, Occurs (.egressCellStart · p)
      (fun x => x.portUp p.val = true ∧ (x.tidyLine p.val).atBoundary p.val = true ∧ ((x.tidyLine p.val).port p.val).replayFrom = some k
        ∧ (((x.tidyLine p.val).port p.val).replay.find? fun e => e.seq == k) = some e)
      fun x => (x.tidyLine p.val).replayCell p.val e)
  ∧ (∀ (p : Fin 8) b cls, Occurs (.cellReceived · p [b])
      (fun x => x.portUp p.val = true ∧ blockKind b = .start cls false ∧ (x.port p.val).rx = [])
      fun x => (x.endIdle p.val).onPort p.val fun m => { m with rx := [⟨cls, [], false⟩] })
  ∧ (∀ (p : Fin 8) b d c r, Occurs (.cellReceived · p [b])
      (fun x => x.portUp p.val = true ∧ blockKind b = .data d ∧ (x.port p.val).rx = c :: r ∧ c.data.length ≤ 256)
      fun x => x.onPort p.val fun m => { m with rx := { c with data := c.data ++ d } :: r })
  ∧ (∀ (p : Fin 8) b k seq crc c r, Occurs (.cellReceived · p [b])
      (fun x => x.portUp p.val = true ∧ blockKind b = .finish k false seq crc ∧ (x.port p.val).rx = c :: r ∧ c.bad = false ∧ 2 ≤ c.cls
        ∧ rightCell (cellClosed x p.val r) p.val c.cls seq crc c.data)
      fun x =>
        let y := (cellClosed x p.val r).onPort p.val fun z =>
          { z with rxNext := (z.rxNext + 1) % 65536, got := z.got.add c.cls 1, linkDue := true, nakDue := false, discardUntil := none }
        (y.pmc 0xA02 p.val 1).routeCell p.val (cellOfBytes c.data))
  ∧ (∀ (p : Fin 8) b k seq crc c r, Occurs (.cellReceived · p [b])
      (fun x => x.portUp p.val = true ∧ blockKind b = .finish k false seq crc ∧ (x.port p.val).rx = c :: r ∧ c.bad = false ∧ c.cls ≠ 0
        ∧ c.data.length = 256 ∧ crc ≠ crc32c c.data)
      fun x => ((((cellClosed x p.val r).bump (LNK_PORT_ERR p.val) LNK_PORT_ERR_CRC_ERR).violation p.val 3).onPort p.val fun m =>
        { m with linkDue := true, nakDue := true, discardUntil := some m.rxNext }))
  ∧ (∀ (p : Fin 8) b, Occurs (.linkBlockReceived · p b)
      (fun x => x.portUp p.val = true ∧ (x.port p.val).replay.length < newlyAcked x p.val b)
      fun x =>
        let y := ((x.onLane (4 * p.val + b.lane % 4) fun l => { l with idleOther := l.idleOther + 1 }).violation p.val 8).onPort p.val fun m =>
          { m with ackViol := x.recent m.ackViol }
        if 8 ≤ (y.port p.val).ackViol.length then y.startTraining p.val false 2 else y)
  ∧ (∀ (p : Fin 8) b e, Occurs (.linkBlockReceived · p b)
      (fun x => x.portUp p.val = true ∧ b.nak = false ∧ newlyAcked x p.val b ≤ (x.port p.val).replay.length ∧ creditBack x p.val b = false
        ∧ ((x.port p.val).replay.take (newlyAcked x p.val b)).getLast? = some e ∧ (x.port p.val).replayFrom = none)
      fun x =>
        let n := newlyAcked x p.val b
        let y := ((x.port p.val).replay.take n).foldl (fun s e => s.acked e)
          (x.onLane (4 * p.val + b.lane % 4) fun l => { l with idleOther := l.idleOther + 1 })
        (y.setFld (LNK_PORT_RTT p.val) LNK_PORT_RTT_RTT (satN 20 ((fineToPs (y.now - e.at_ : Nat)).toNat / 1000))).onPort p.val fun m =>
          let g := fun cls cred => (x.port p.val).sent.get cls + creditStep x p.val cls cred
          { m with replay := m.replay.drop n, granted := ⟨g 0 b.credC, g 1 b.credT, g 2 b.credS, g 3 b.credB⟩,
                   ackAt := if n = 0 then m.ackAt else y.now, replaysInRow := if n = 0 then m.replaysInRow else 0,
                   replayFrom := match m.replayFrom with
                     | some k => if ((x.port p.val).replay.take n).any (fun e => e.seq == k) then (m.replay.drop n).head?.map Sent.seq else some k
                     | none => none })
  ∧ (∀ (p : Fin 8), Occurs (.linkBlockSend · p)
      (fun x => x.portUp p.val = true ∧ ((x.port p.val).linkDue = true ∨ (x.port p.val).linkAt + fineUs 10 ≤ x.now))
      fun x =>
        let g : Four := ⟨x.grantNow p.val 0, x.grantNow p.val 1, x.grantNow p.val 2, x.grantNow p.val 3⟩
        let y := x.tidyLine p.val
        let z := (y.insertLine p.val [(2, linkWord (x.port p.val).rxNext (x.port p.val).nakDue g)]).onLane
          (4 * p.val + y.lineLane p.val (min (y.laneList p.val).length (y.port p.val).wire.length)) fun l => { l with txIdleOther := l.txIdleOther + 1 }
        z.onPort p.val fun m => { m with given := g, linkDue := false, nakDue := false, linkAt := z.now })
  ∧ (∀ (p : Fin 8) e, Occurs (.replayTimeout · p)
      (fun x => (x.port p.val).replay.head? = some e ∧ x.portUp p.val = true
        ∧ (x.port p.val).ackAt + (fineUs 10 + 4 * x.fld (LNK_PORT_RTT p.val) LNK_PORT_RTT_RTT * 4194304 / 10000) ≤ x.now)
      fun x => x.startReplay p.val e.seq)

/-- Link states come about: the hub's own every 100 ms, another hub's when it is new, their expiry after 350 ms, and the end of cells held
for a route (11_serial_lanes_and_syrilink.md R350, R351, R352, R353). -/
def Obligations.LinkStateEventsComplete : Prop :=
  Occurs .linkStateRefresh (fun x => x.booted = true ∧ x.lnk.refreshedAt + fineMs 100 ≤ x.now) (fun x => x.sendLinkState false)
  ∧ (∀ (p : Fin 8) l, Occurs (.linkStateReceived · p l)
      (fun x => x.portUp p.val = true ∧ 1 ≤ x.role p.val ∧ x.role p.val ≤ 4 ∧ x.address ≠ some l.origin
        ∧ (x.lnk.table.find? fun e => e.ls.origin == l.origin) = none)
      fun x =>
        let y := x.onLnk fun n => { n with table := (n.table.filter fun e => e.ls.origin != l.origin) ++ [⟨l, x.now⟩] }
        ((y.ringPorts p.val).foldl (fun s q => s.pushT q (.linkState l) p.val) y).reroute.retryHeld)
  ∧ (∀ (p : Fin 8) l e, Occurs (.linkStateReceived · p l)
      (fun x => x.portUp p.val = true ∧ 1 ≤ x.role p.val ∧ x.role p.val ≤ 4 ∧ x.address ≠ some l.origin
        ∧ (x.lnk.table.find? fun e => e.ls.origin == l.origin) = some e ∧ newer l.generation e.ls.generation = true)
      fun x =>
        let y := x.onLnk fun n => { n with table := (n.table.filter fun e => e.ls.origin != l.origin) ++ [⟨l, x.now⟩] }
        ((y.ringPorts p.val).foldl (fun s q => s.pushT q (.linkState l) p.val) y).reroute.retryHeld)
  ∧ (∀ origin, Occurs (.linkStateExpiry · origin)
      (fun x => (x.lnk.table.any fun e => e.ls.origin == origin && decide (x.now ≥ e.at_ + fineMs 350)) = true)
      fun x => (x.onLnk fun n => { n with table := n.table.filter fun e => e.ls.origin != origin }).reroute.retryHeld)
  ∧ Occurs .transitHoldExpiry (fun _ => True) fun x =>
      let y := x.retryHeld
      let old := fun (h : HeldItem) => decide (y.now ≥ h.since + fineMs 10)
      let due := y.qm.holdItems.filter old
      let keys := (due.filterMap HeldItem.key?).eraseDups
      (y.onQm fun m => { m with holdItems := m.holdItems.filter fun h => !(match h.key? with
          | some k => keys.contains k
          | none => old h) }).bumpBy LNK_ROUTE_STAT LNK_ROUTE_STAT_HELD_DISCARDS (keys.length + (due.filter fun h => h.key?.isNone).length)

/-- A head asks the holder of a latch that is a witness about its entry `k`, the entry of the head's segment: `c` is the sender, `ps` the
parameters (13_head_redundancy.md R418). -/
def asksWitness (c : Caller) (ps : List Byte) (x : State) (k : Nat) : Prop :=
  x.isActive = true
    ∧ ((List.range 4).find? fun k => x.on (RED_WIT_CFG k) RED_WIT_CFG_EN && x.fld (RED_WIT_CFG k) RED_WIT_CFG_SEGMENT == num ps 0 1) = some k
    ∧ c.origin = true ∧ epKind c.source = 0
    ∧ (epNum c.source = x.fld (RED_WIT_CFG k) RED_WIT_CFG_HEAD_A ∨ epNum c.source = x.fld (RED_WIT_CFG k) RED_WIT_CFG_HEAD_B)
    ∧ num ps 1 1 < 2 ∧ zeroAt ps 2 2 = true

/-- The sender is entry `k`'s holder, its lease current or run out with no other holder after it. -/
def holdsLatch (c : Caller) (x : State) (k : Nat) : Prop :=
  (x.wit k).lease.isSome = true ∧ x.fld (RED_WIT_STAT k) RED_WIT_STAT_HOLDER = epNum c.source

/-- The RED block's commands complete: HEAD_CONFIG sets the head or a witness entry, HEAD_STATUS reads a page, HEAD_DRILL starts its
drill; a witness grants an entry that is not held under the next epoch, renews the lease of the holder that presents the epoch in force,
and takes the release of its holder (13_head_redundancy.md R412, R418, R428, R431, R433, R434, R435). -/
def Obligations.HeadCommandsComplete : Prop :=
  Completes 0xC001 .headConfig
      (fun _ ps x =>
        num ps 0 1 = 0 ∧ num ps 1 1 < 2 ∧ zeroAt ps 2 2 = true ∧ bits (word (num ps 4 4)).toNat 28 1 = 0 ∧ bits (word (num ps 4 4)).toNat 9 15 = 0
        ∧ bits (word (num ps 8 4)).toNat 11 21 = 0 ∧ bits (word (num ps 12 4)).toNat 27 5 = 0 ∧ bits (word (num ps 12 4)).toNat 11 5 = 0
        ∧ ∀ o ∈ x.headRefuses (word (num ps 4 4)) (word (num ps 8 4)) (word (num ps 12 4)) (bit (num ps 1 1) 0), o = none)
      stOK (fun _ _ _ => []) (fun _ ps x => x.configureHead (word (num ps 4 4)) (word (num ps 8 4)) (word (num ps 12 4)))
  ∧ Completes 0xC001 .headConfig
      (fun _ ps _ => num ps 0 1 = 1 ∧ num ps 1 1 < 4 ∧ zeroAt ps 2 2 = true ∧ bits (word (num ps 4 4)).toNat 27 4 = 0)
      stOK (fun _ _ _ => []) (fun _ ps x => x.configureWitness (num ps 1 1) (word (num ps 4 4)))
  ∧ Completes 0xC002 .headStatus (fun _ ps _ => num ps 0 1 = 0 ∧ zeroAt ps 1 3 = true) stOK
      (fun _ _ x => le 4 x.redStat.toNat ++ le 4 (x.rd RED_EPOCH).toNat ++ le 4 (x.rd RED_COUNT).toNat ++ le 4 x.redLedger.toNat
        ++ le 4 (x.rd RED_MIRROR).toNat)
      (fun _ _ x => x)
  ∧ Completes 0xC002 .headStatus (fun _ ps _ => num ps 0 1 = 1 ∧ zeroAt ps 1 3 = true) stOK
      (fun _ _ x => (List.range 4).flatMap fun k => le 4 (x.rd (RED_WIT_CFG k)).toNat ++ le 4 (x.witStat k).toNat ++ le 4 (x.rd (RED_WIT_EPOCH k)).toNat)
      (fun _ _ x => x)
  ∧ Completes 0xC002 .headStatus
      (fun _ ps _ => num ps 0 1 = 2 ∧ zeroAt ps 1 3 = true ∧ zeroAt ps 9 3 = true ∧ 1 ≤ num ps 8 1 ∧ num ps 8 1 ≤ 64) stOK
      (fun _ ps x => le 1 ((x.red.journal.reverse.drop (num ps 4 4)).take (num ps 8 1)).length ++ le 3 0
        ++ ((x.red.journal.reverse.drop (num ps 4 4)).take (num ps 8 1)).flatMap Journal.image)
      (fun _ _ x => x)
  ∧ Completes 0xC006 .headDrill
      (fun _ ps x => num ps 0 1 = 0 ∧ zeroAt ps 1 3 = true ∧ x.head = hStandby ∧ x.red.drill = none) stACCEPTED (fun _ _ _ => [])
      (fun c _ x => started c (x.onRed fun r => { r with drill := some ⟨0, c, x.now, none, false, false, 0, x.partnerWit⟩ }))
  ∧ Completes 0xC006 .headDrill
      (fun _ ps x => num ps 0 1 = 1 ∧ zeroAt ps 1 3 = true ∧ x.head = hStandby ∧ x.red.drill = none) stACCEPTED (fun _ _ _ => [])
      (fun c _ x =>
        let y := x.onRed fun r => { r with drill := some ⟨1, c, x.now, none, false, false, 0, x.partnerWit⟩ }
        started c (y.sendLatch 0xC003 x.partnerWit puDry true 0))
  ∧ Completes 0xC006 .headDrill
      (fun _ ps x => num ps 0 1 = 2 ∧ zeroAt ps 1 3 = true ∧ x.isActive = true ∧ x.red.drill = none) stACCEPTED (fun _ _ _ => [])
      (fun c _ x => started c (x.onRed fun r => { r with drill := some ⟨2, c, x.now, none, false, false, 0, x.partnerWit⟩ }).trySwitch)
  ∧ (∀ k, Completes 0xC003 .latchRequest
      (fun c ps x => asksWitness c ps x k ∧ (x.wit k).quiet = none ∧ bit (num ps 1 1) 0 = false ∧ x.witHeld k = false
        ∧ ¬ (holdsLatch c x k ∧ num ps 4 4 = x.fld (RED_WIT_EPOCH k) RED_WIT_EPOCH_EPOCH))
      stOK
      (fun c _ x => ((x.witGrant k (epNum c.source) ((x.fld (RED_WIT_EPOCH k) RED_WIT_EPOCH_EPOCH + 1) % 2 ^ 32)).latchEvent k 0).latchData k)
      (fun c _ x => (x.witGrant k (epNum c.source) ((x.fld (RED_WIT_EPOCH k) RED_WIT_EPOCH_EPOCH + 1) % 2 ^ 32)).latchEvent k 0))
  ∧ (∀ k, Completes 0xC003 .latchRequest
      (fun c ps x => asksWitness c ps x k ∧ (x.wit k).quiet = none ∧ bit (num ps 1 1) 0 = true) stOK (fun _ _ x => x.latchData k) (fun _ _ x => x))
  ∧ (∀ k, Completes 0xC004 .latchRenew
      (fun c ps x => asksWitness c ps x k ∧ (x.wit k).quiet = none ∧ holdsLatch c x k ∧ num ps 4 4 = x.fld (RED_WIT_EPOCH k) RED_WIT_EPOCH_EPOCH)
      stOK (fun c _ x => (x.witGrant k (epNum c.source) (x.fld (RED_WIT_EPOCH k) RED_WIT_EPOCH_EPOCH)).latchData k)
      (fun c _ x => x.witGrant k (epNum c.source) (x.fld (RED_WIT_EPOCH k) RED_WIT_EPOCH_EPOCH)))
  ∧ (∀ k, Completes 0xC003 .latchRequest
      (fun c ps x => asksWitness c ps x k ∧ (x.wit k).quiet = none ∧ bit (num ps 1 1) 0 = false ∧ holdsLatch c x k
        ∧ num ps 4 4 = x.fld (RED_WIT_EPOCH k) RED_WIT_EPOCH_EPOCH)
      stOK (fun c _ x => (x.witGrant k (epNum c.source) (x.fld (RED_WIT_EPOCH k) RED_WIT_EPOCH_EPOCH)).latchData k)
      (fun c _ x => x.witGrant k (epNum c.source) (x.fld (RED_WIT_EPOCH k) RED_WIT_EPOCH_EPOCH)))
  ∧ (∀ k, Completes 0xC005 .latchRelease
      (fun c ps x => asksWitness c ps x k ∧ (x.wit k).quiet = none ∧ holdsLatch c x k) stOK
      (fun _ _ x => (((x.latchEvent k 2).setFld (RED_WIT_STAT k) RED_WIT_STAT_HELD 0).onWit k fun w => { w with lease := none }).latchData k)
      (fun _ _ x => ((x.latchEvent k 2).setFld (RED_WIT_STAT k) RED_WIT_STAT_HELD 0).onWit k fun w => { w with lease := none }))

/-- A head cell for `dest` that comes in on port `p` goes on by port `q`: the first hop of the shortest path, or, at a hub without an
address, the port opposite `p` (13_head_redundancy.md R415; 01_architecture.md R18). -/
def passesTo (x : State) (p dest q : Nat) : Prop :=
  (x.address = none ∧ x.opposite p = some q) ∨ (x.address.isSome = true ∧ x.address ≠ some dest ∧ ∃ link, x.firstHop false false (posOf dest) = some (q, link))

/-- What a head keeps of a heartbeat of its partner (13_head_redundancy.md R415, R416, R419). -/
def beatHeard (x : State) (h : Heartbeat) : State :=
  (x.onPath (h.path == 1) fun y => { y with run := if h.seq = (y.rxSeq + 1) % 2 ^ 32 then y.run + 1 else 1, rxSeq := h.seq, lastRx := some x.now }).onRed
    fun r => { r with partner := some h, noHoldSince := if bit h.flags 0 then x.now else r.noHoldSince }

/-- The latch's events come about at the holder and at the witness: heartbeats are sent and heard, paths fail and come back, the latch is
asked for and renewed, a lease runs out at the holder, which is fenced, and at the witness, whose entry is left unheld, a quiet period
ends (13_head_redundancy.md R415, R416, R417, R418, R419, R420, R421, R430, R432). -/
def Obligations.LatchEventsComplete : Prop :=
  Occurs .heartbeatSend (fun x => x.headOn = true ∧ x.red.hbSentAt + fineMs 5 ≤ x.now)
      (fun x => ((x.beat false).beat true).onRed fun r => { r with hbSentAt := x.now })
  ∧ (∀ (p : Fin 8) h q, Occurs (.heartbeatReceived · p h) (fun x => passesTo x p.val h.dest q) fun x => x.pushT q (.heartbeat h) p.val)
  ∧ (∀ (p : Fin 8) h, Occurs (.heartbeatReceived · p h)
      (fun x => x.address = some h.dest ∧ h.sender = x.partner ∧ x.head = hStandby ∧ x.red.drill = none) fun x => beatHeard x h)
  ∧ (∀ (p : Fin 8) h, Occurs (.heartbeatReceived · p h)
      (fun x => x.address = some h.dest ∧ h.sender = x.partner ∧ x.head = hFenced ∧ x.red.drill = none ∧ bit h.flags 0 = true ∧ x.epoch < h.epoch)
      fun x => (beatHeard x h).toStandby)
  ∧ (∀ (p : Fin 8) h, Occurs (.heartbeatReceived · p h)
      (fun x => x.address = some h.dest ∧ h.sender = x.partner ∧ x.head = hActive ∧ x.red.drill = none ∧ x.red.acked < h.mirrorSeq
        ∧ bit h.flags 4 = false)
      fun x => (beatHeard x h).onRed fun r =>
        { r with acked := h.mirrorSeq, ackedAt := x.now, unacked := r.unacked.filter fun e => decide (e.1 > h.mirrorSeq), partnerResync := false })
  ∧ (∀ (p : Fin 8) h, Occurs (.heartbeatReceived · p h)
      (fun x => x.address = some h.dest ∧ h.sender = x.partner ∧ x.head = hActive ∧ x.red.drill = none ∧ h.mirrorSeq ≤ x.red.acked
        ∧ bit h.flags 4 = true ∧ x.red.partnerResync = false)
      fun x => ((beatHeard x h).onRed fun r => { r with partnerResync := true }).resend)
  ∧ (∀ ring r, Occurs (.pathFailed · ring) (fun x => (x.red.path ring).lastRx = some r ∧ (x.red.path ring).up = true ∧ r + fineMs 20 ≤ x.now)
      fun x => x.setPath ring false)
  ∧ (∀ ring, Occurs (.pathRestored · ring) (fun x => (x.red.path ring).up = false ∧ 8 ≤ (x.red.path ring).run) fun x => x.setPath ring true)
  ∧ Occurs .latchRenewSend (fun x => x.isActive = true ∧ x.red.renewOut = none ∧ x.red.renewSentAt + fineMs 50 ≤ x.now)
      (fun x => (x.onRed fun r => { r with renewSentAt := x.now, renewOut := some x.now }).sendLatch 0xC004 x.red.witNow puRenew false x.epoch)
  ∧ (∀ o, Occurs .latchRenewSend (fun x => x.isActive = true ∧ x.red.renewOut = some o ∧ o + fineMs 10 ≤ x.now)
      fun x => (x.onRed fun r => { r with witNow := x.otherWit r.witNow, renewSentAt := x.now, renewOut := some x.now }).sendLatch 0xC004
        (x.otherWit x.red.witNow) puRenew false x.epoch)
  ∧ Occurs .leaseExpiry (fun x => x.isActive = true ∧ x.red.confirmedAt + fineMs 198 ≤ x.now) (fun x => x.fence 2)
  ∧ Occurs .latchRequestSend (fun x => x.mayAsk = true ∧ (x.red.requestSentAt = 0 ∨ x.red.requestSentAt + fineMs 5 ≤ x.now)) State.askLatch
  ∧ Occurs .startHoldoffExpiry
      (fun x => x.head = hStarting ∧ x.red.asking = false
        ∧ x.red.stateSince + fineMs (if x.on RED_CFG RED_CFG_PRIMARY then 500 else 1000) ≤ x.now)
      (fun x => (x.onRed fun r => { r with asking := true }).requestLatch)
  ∧ (∀ (k : Fin 4) e, Occurs (.witnessLeaseExpiry · k) (fun x => (x.wit k.val).lease = some e ∧ e ≤ x.now ∧ x.on (RED_WIT_STAT k.val) RED_WIT_STAT_HELD = true)
      fun x => (x.latchEvent k.val 1).setFld (RED_WIT_STAT k.val) RED_WIT_STAT_HELD 0)
  ∧ (∀ (k : Fin 4) e ep who, Occurs (.quietPeriodEnd · k) (fun x => (x.wit k.val).quiet = some e ∧ e ≤ x.now ∧ (x.wit k.val).best = some (ep, who))
      fun x => (((x.onWit k.val fun w => { w with quiet := none, best := none }).setFld (RED_WIT_STAT k.val) RED_WIT_STAT_QUIET 0).witGrant k.val who
        ep).latchEvent k.val 3)
  ∧ (∀ (k : Fin 4) e, Occurs (.quietPeriodEnd · k) (fun x => (x.wit k.val).quiet = some e ∧ e ≤ x.now ∧ (x.wit k.val).best = none)
      fun x => (((x.onWit k.val fun w => { w with quiet := none, best := none }).setFld (RED_WIT_STAT k.val) RED_WIT_STAT_QUIET 0).setFld
        (RED_WIT_STAT k.val) RED_WIT_STAT_HELD 0).latchEvent k.val 3)

/-- A digest has been compared, and a drill of kind SHADOW learns whether it differs (13_head_redundancy.md R425, R435). -/
def judged (x : State) (fault : Nat) : State :=
  x.onRed fun r =>
    { r with digestWait := none, drill := r.drill.map fun y => if y.kind = 0 then { y with answered := true, fault := fault } else y }

/-- The mirror's events come about: items come, are sent again and refreshed, digests are sent, compared and missed, the ledger is
replayed, drills end (13_head_redundancy.md R422, R423, R424, R425, R428, R435). -/
def Obligations.MirrorEventsComplete : Prop :=
  (∀ (p : Fin 8) m q, Occurs (.mirrorReceived · p m) (fun x => passesTo x p.val m.dest q) fun x => x.pushT q (.mirror m) p.val)
  ∧ (∀ (p : Fin 8) m, Occurs (.mirrorReceived · p m)
      (fun x => x.address = some m.dest ∧ x.head = hStandby ∧ m.sender = x.partner ∧ x.red.digestWait = none)
      fun x =>
        let y := (m.items.mapIdx fun i b => (m.firstSeq + i, m.itemType, b)).foldl (fun s e =>
          if s.red.mirrorNext = 0 ∨ e.1 = s.red.mirrorNext + 1 then s.onRed fun r => { r with mirror := r.mirror ++ [e], mirrorNext := e.1 } else s) x
        y.setFld RED_MIRROR RED_MIRROR_SEQ y.red.mirrorNext)
  ∧ Occurs .mirrorResend (fun x => x.isActive = true ∧ x.red.unacked.isEmpty = false ∧ x.red.ackedAt + fineMs 20 ≤ x.now)
      (fun x => x.red.unacked.foldl (fun s e => s.sendHead fun a b path => .mirror ⟨a, b, path, e.1, e.2.1, [e.2.2]⟩)
        (x.onRed fun r => { r with ackedAt := x.now }))
  ∧ Occurs .mirrorStateRefresh (fun x => x.isActive = true ∧ x.red.stateSentAt + fineMs 10000 ≤ x.now)
      (fun x => stateAddrs.foldl (fun s a => s.mirrorState a) (x.onRed fun r => { r with stateSentAt := x.now }))
  ∧ Occurs .digestSend (fun x => x.isActive = true ∧ x.red.digestSecond < x.served40 / 2 ^ 40)
      (fun x =>
        let sec := x.served40 / 2 ^ 40
        let d := x.digestOf x.red.nextMirror (sec40 sec % 2 ^ 64)
        (x.onRed fun r => { r with digestSecond := sec }).sendHead fun a b path =>
          .digest ⟨a, b, path, x.red.nextMirror, d.1, d.2, sec40 sec % 2 ^ 64⟩)
  ∧ (∀ (p : Fin 8) d q, Occurs (.digestReceived · p d) (fun x => passesTo x p.val d.dest q) fun x => x.pushT q (.digest d) p.val)
  ∧ (∀ (p : Fin 8) d, Occurs (.digestReceived · p d)
      (fun x => x.address = some d.dest ∧ x.head = hStandby ∧ d.sender = x.partner ∧ d.cutoff ≤ x.red.mirrorNext
        ∧ (x.digestOf d.cutoff d.st64).1 = d.digest)
      fun x => ((judged x 0).setFld RED_STAT RED_STAT_MIRROR_OK 1).onRed fun r => { r with resync := false })
  ∧ (∀ (p : Fin 8) d, Occurs (.digestReceived · p d)
      (fun x => x.address = some d.dest ∧ x.head = hStandby ∧ d.sender = x.partner ∧ d.cutoff ≤ x.red.mirrorNext
        ∧ (x.digestOf d.cutoff d.st64).1 ≠ d.digest)
      fun x =>
        let y := (((judged x 1).setFld RED_STAT RED_STAT_MIRROR_OK 0).bump RED_COUNT RED_COUNT_DIGEST_FAIL).issue 0xC004
          [d.st64, (x.digestOf d.cutoff d.st64).1, d.digest, 0]
        if y.red.resync then y else y.onRed fun r => { r with resync := true, mirror := [], mirrorNext := 0 })
  ∧ (∀ (p : Fin 8) d, Occurs (.digestReceived · p d)
      (fun x => x.address = some d.dest ∧ x.head = hStandby ∧ d.sender = x.partner ∧ x.red.mirrorNext < d.cutoff)
      fun x => x.onRed fun r => { r with digestWait := some (d, x.now) })
  ∧ (∀ d a, Occurs .digestTimeout (fun x => x.red.digestWait = some (d, a) ∧ x.head = hStandby ∧ a + fineMs 1000 ≤ x.now)
      fun x => (((x.setFld RED_STAT RED_STAT_MIRROR_OK 0).bump RED_COUNT RED_COUNT_DIGEST_FAIL).issue 0xC004
          [d.st64, (x.digestOf d.cutoff d.st64).1, d.digest, 1]).onRed fun r =>
        { r with digestWait := none, mirror := if r.resync then r.mirror else [], mirrorNext := if r.resync then r.mirrorNext else 0, resync := true,
                 drill := r.drill.map fun y => if y.kind = 0 then { y with answered := true, fault := 1 } else y })
  ∧ Occurs .ledgerReplaySend
      (fun x => x.red.replayLeft = some [] ∧ x.isActive = true ∧ (x.red.replayAt = 0 ∨ x.red.replayAt + fineUs 50 ≤ x.now))
      (fun x => (x.issue 0xC005 [x.red.replaySent, x.red.replayOldest, x.fld RED_LEDGER RED_LEDGER_OVERFLOW]).onRed fun r =>
        { r with replayLeft := none, replayAt := 0 })
  ∧ (∀ left, Occurs .ledgerReplaySend
      (fun x => x.red.replayLeft = some left ∧ x.isActive = true ∧ (x.red.replayAt = 0 ∨ x.red.replayAt + fineUs 50 ≤ x.now)
        ∧ left ≠ [] ∧ (x.readLedger (left.take 170)).1 ≠ [])
      fun x =>
        let r := x.readLedger (left.take 170)
        let y := r.2.2.onRed fun y => { y with replayLeft := some (left.drop 170), replayAt := x.now, replaySent := y.replaySent + r.1.length }
        y.originate 0x8003 (0x4000 + 64 * y.mySeg) (y.fld RED_CFG RED_CFG_HEAD_SLOT) 64 puReplay (le 2 r.1.length ++ le 2 0 ++ r.1.flatMap Ledger.entry))
  ∧ (∀ d c, Occurs .switchoverTimeout (fun x => x.red.drill = some d ∧ d.committedAt = some c ∧ d.kind = 2 ∧ c + fineMs 500 ≤ x.now)
      fun x => x.endDrill d 16 0 0)
  ∧ (∀ d, Occurs .drillDone (fun x => x.red.drill = some d ∧ d.kind = 0 ∧ d.answered = true)
      fun x => x.endDrill d d.fault x.red.mirrorLedger.length 0)
  ∧ (∀ d, Occurs .drillDone (fun x => x.red.drill = some d ∧ d.kind = 1 ∧ (d.answered = true ∨ d.startAt + fineMs 10 ≤ x.now))
      fun x =>
        let r := x.readLedger x.red.mirrorLedger
        r.2.2.endDrill d (2 * b2n (x.upPortOf rUplink).isNone + 4 * b2n (!(x.red.direct.up || x.red.ring.up))
          + 8 * b2n (!x.on RED_STAT RED_STAT_MIRROR_OK) + 16 * b2n (!d.witnessOk) + 32 * b2n (!r.2.1)) x.red.mirrorLedger.length 0)
  ∧ (∀ d, Occurs .drillDone (fun x => x.red.drill = some d ∧ d.kind = 2 ∧ d.committedAt = none ∧ d.startAt + fineMs 2000 ≤ x.now)
      fun x => x.endDrill d 64 0 0)

/-- Of the commands of the SYS, CMD, MEM, PMC, CAL, QM, CMP, LNK and RED blocks each changes no part of the state and no register but
those its line names and those that any such row may change (12_command_packets.md; 00_scope.md). -/
def Obligations.HubCommandFrames : Prop :=
  CommandFrame .ping [] []
  ∧ CommandFrame .identify [] []
  ∧ CommandFrame .softReset [.sys] []
  ∧ CommandFrame .updateBegin [.sys] []
  ∧ CommandFrame .updateData [.sys, .flash] []
  ∧ CommandFrame .updateCommit [.sys] []
  ∧ CommandFrame .updateActivate [.sys] []
  ∧ CommandFrame .logRead [] []
  ∧ CommandFrame .logMark [] []
  ∧ CommandFrame .sensorRead [] []
  ∧ CommandFrame .setPowerState [.sys] [(SYS_PWR_STATE, 0, 1)]
  ∧ CommandFrame .abort [.sys, .acq, .tiu, .cap, .cmp, .lnk, .mem, .cal, .work] [(TIU_SRC_CFG 0, 4, 64), (MEM_ERR 0, 32, 5), (MEM_ERR_INFO 0,
    32, 5), (MEM_ERR_ADDR 0, 32, 5), (MEM_ERR_ADDR 0 + 4, 32, 5), (CMP_SLOT 0, 16, 4), (CMP_SLOT_OUT 0, 16, 4), (MEM_SCRUB_STAT, 0, 1),
    (CONV_BAY_STAT 0, 16, 64), (CONV_RELIEF 0, 4, 4), (TIU_CORE_STAT 0, 16, 8), (CAL_GRP_STAT 0, 16, 29), (CAL_STAT, 0, 1)]
  ∧ CommandFrame .credInstall [] []
  ∧ CommandFrame .credRevoke [] []
  ∧ CommandFrame .credStatus [] []
  ∧ CommandParts .regRead [.tiu]
  ∧ CommandParts .regWrite [.acq, .tb, .tiu, .cap, .fblk, .lnk, .mem, .cal, .pmc]
  ∧ CommandParts .regRead64 [.tiu]
  ∧ CommandFrame .scrub [.mem] [(MEM_SCRUB_STAT, 0, 1)]
  ∧ CommandFrame .memStatus [] [(MEM_ERR 0, 32, 5)]
  ∧ CommandFrame .memInject [.mem] [(MEM_ERR 0, 32, 5), (MEM_ERR_INFO 0, 32, 5), (MEM_ERR_ADDR 0, 32, 5), (MEM_ERR_ADDR 0 + 4, 32, 5)]
  ∧ CommandFrame .pmcConfig [.pmc] [(PMC_CFG 0, 16, 8), (PMC_CTRL, 0, 1)]
  ∧ CommandFrame .pmcRead [] []
  ∧ CommandFrame .pmcDumpConfig [.pmc] [(PMC_DUMP, 0, 1)]
  ∧ CommandFrame .calRun [.cal] [(CAL_GRP_STAT 0, 16, 29)]
  ∧ CommandFrame .calStatus [] []
  ∧ CommandFrame .calCoeffRead [] []
  ∧ CommandFrame .calPolicy [] [(CAL_PERIOD, 0, 1), (CAL_POLICY, 0, 1)]
  ∧ CommandFrame .queueConfig [] [(QM_Q_WM 0, 32, 64), (QM_Q_CFG 0, 32, 64)]
  ∧ CommandFrame .queueStatus [] []
  ∧ CommandFrame .release [.mem] [(RED_LEDGER, 0, 1), (MEM_ERR 0, 32, 5), (MEM_ERR_INFO 0, 32, 5), (MEM_ERR_ADDR 0, 32, 5),
    (MEM_ERR_ADDR 0 + 4, 32, 5), (QM_REL_STAT, 0, 1)]
  ∧ CommandFrame .retentionConfig [] [(QM_CTRL, 0, 1), (QM_RET_CFG, 0, 1)]
  ∧ CommandFrame .shutter [] [(QM_SHUT_CTRL 0, 16, 32), (QM_SHUT_HUB 0, 16, 32), (QM_SHUT_CHAN 0, 16, 32), (QM_SHUT_TYPE 0, 16, 32)]
  ∧ CommandFrame .shutterOpen [] [(QM_SHUT_TYPE 0, 16, 32), (QM_SHUT_CHAN 0, 16, 32), (QM_SHUT_HUB 0, 16, 32), (QM_SHUT_CTRL 0, 16, 32)]
  ∧ CommandFrame .cmpConfig [] [(CMP_CTRL, 0, 1)]
  ∧ CommandFrame .cmpJob [.cmp] [(CMP_SLOT 0, 16, 4), (CMP_SLOT_OUT 0, 16, 4)]
  ∧ CommandFrame .cmpFlush [.cmp, .mem, .work] [(CMP_SLOT 0, 16, 4), (CMP_SLOT_OUT 0, 16, 4), (MEM_ERR 0, 32, 5), (MEM_ERR_INFO 0, 32, 5),
    (MEM_ERR_ADDR 0, 32, 5), (MEM_ERR_ADDR 0 + 4, 32, 5)]
  ∧ CommandFrame .portConfig [.tb, .lnk] [(LNK_PORT_CREDIT 0, 64, 8), (LNK_PORT_CFG 0, 64, 8), (LNK_PORT_STAT 0, 64, 8), (LNK_ROUTE_STAT, 0,
    1), (LNK_ROUTE_CFG, 0, 1), (LNK_LANE_STAT 0, 16, 32), (LNK_PORT_CNT 0, 64, 8)]
  ∧ CommandFrame .portStatus [] []
  ∧ CommandFrame .laneEyeScan [.lnk] []
  ∧ CommandFrame .lanePattern [.lnk] []
  ∧ CommandFrame .laneLoopback [.lnk] []
  ∧ CommandFrame .portRetrain [.tb, .lnk] [(LNK_PORT_CNT 0, 64, 8), (LNK_PORT_STAT 0, 64, 8), (LNK_LANE_STAT 0, 16, 32), (LNK_ROUTE_STAT, 0,
    1), (LNK_ROUTE_CFG, 0, 1)]
  ∧ CommandFrame .headConfig [.lnk] [(RED_WITNESS, 0, 1), (RED_PARTNER, 0, 1), (RED_CFG, 0, 1), (RED_STAT, 0, 1), (RED_COUNT, 0, 1),
    (LNK_ROUTE_STAT, 0, 1), (LNK_ROUTE_CFG, 0, 1), (RED_WIT_CFG 0, 16, 4), (RED_WIT_STAT 0, 16, 4)]
  ∧ CommandFrame .headStatus [] []
  ∧ CommandFrame .latchRequest [] [(RED_WIT_EPOCH 0, 16, 4), (RED_WIT_STAT 0, 16, 4)]
  ∧ CommandFrame .latchRenew [] [(RED_WIT_EPOCH 0, 16, 4), (RED_WIT_STAT 0, 16, 4)]
  ∧ CommandFrame .latchRelease [] [(RED_WIT_EPOCH 0, 16, 4), (RED_WIT_STAT 0, 16, 4)]
  ∧ CommandFrame .headDrill [.lnk] [(RED_COUNT, 0, 1), (RED_STAT, 0, 1), (LNK_ROUTE_STAT, 0, 1), (LNK_ROUTE_CFG, 0, 1)]

/-- Of the commands of the AFE, CONV, DEC, TIME, TIU, CAP and FLD blocks each changes no part of the state and no register but those its
line names and those that any such row may change (02_front_end.md; 03_conversion.md; 04_decimation.md; 05_time_base.md;
06_interval_unit.md; 07_panes_and_triggers.md; 08_field_ports_and_outputs.md). -/
def Obligations.SignalCommandFrames : Prop :=
  CommandFrame .chConfig [.acq, .tiu, .cap, .mem] [(MEM_ERR 0, 32, 5), (MEM_ERR_INFO 0, 32, 5), (MEM_ERR_ADDR 0, 32, 5),
    (MEM_ERR_ADDR 0 + 4, 32, 5), (CAP_ENG_STAT 0, 64, 16), (DEC_CH_STAT 0, 16, 512), (TIU_SRC_CFG 0, 4, 64), (AFE_CH_THR 0, 16, 512),
    (AFE_CH_CFG 0, 16, 512), (AFE_CH_STAT 0, 16, 512), (DEC_DET_VAL 0, 8, 512)]
  ∧ CommandFrame .chQuery [] []
  ∧ CommandFrame .bayExcitation [.acq] [(AFE_BAY_SWEEP 0, 16, 64), (AFE_BAY_EXC 0, 16, 64), (AFE_BAY_MON 0, 16, 64)]
  ∧ CommandFrame .chTestInject [.acq, .tb] [(TB_ACT_TIME 0, 32, 32), (TB_ACT_TIME 0 + 4, 32, 32), (TB_ACT_ARG 0, 32, 32), (TB_ACT_CTRL 0, 32,
    32)]
  ∧ CommandFrame .clampStatus [] [(AFE_CLAMP_SEEN 0, 4, 16), (AFE_CH_STAT 0, 16, 512)]
  ∧ CommandFrame .bayMode [.acq, .cap, .mem, .cal] [(DEC_LOAD, 0, 1), (CONV_BAY_STAT 0, 16, 64), (CONV_RELIEF 0, 4, 4), (MEM_ERR 0, 32, 5),
    (MEM_ERR_INFO 0, 32, 5), (MEM_ERR_ADDR 0, 32, 5), (MEM_ERR_ADDR 0 + 4, 32, 5), (CAP_ENG_STAT 0, 64, 16), (DEC_CH_STAT 0, 16, 512),
    (CAP_ENG_CFG 0, 64, 16), (DEC_BAY_STAT 0, 16, 64), (CONV_BAY_BURST 0, 16, 64), (CONV_BAY_MODE 0, 16, 64), (CAP_HIST_STAT, 0, 1),
    (DEC_DET_VAL 0, 8, 512)]
  ∧ CommandFrame .transomSequence [.acq] [(CONV_TSEQ 0, 4, 64), (CONV_TSEQ_CTRL, 0, 1), (CONV_TSEQ_STAT, 0, 1)]
  ∧ CommandFrame .transomUrgent [.acq] [(CONV_TSEQ_STAT, 0, 1)]
  ∧ CommandFrame .chainConfig [.acq, .cap, .mem] [(MEM_ERR 0, 32, 5), (MEM_ERR_INFO 0, 32, 5), (MEM_ERR_ADDR 0, 32, 5), (MEM_ERR_ADDR 0 + 4,
    32, 5), (CAP_ENG_STAT 0, 64, 16), (DEC_BAY_CFG 0, 16, 64), (DEC_DET_VAL 0, 8, 512), (DEC_BAY_STAT 0, 16, 64), (CAP_HIST_STAT, 0, 1),
    (DEC_LOAD, 0, 1), (DEC_CH_STAT 0, 16, 512), (DEC_CH_CFG 0, 16, 512)]
  ∧ CommandFrame .detectorConfig [.acq] [(DEC_DET_VAL 0, 8, 512), (DEC_DET_CFG 0, 8, 512)]
  ∧ CommandFrame .streamEnable [.acq] [(DEC_LOAD, 0, 1), (DEC_STREAM 0, 4, 592), (DEC_CH_STAT 0, 16, 512)]
  ∧ CommandFrame .timeRead [] []
  ∧ CommandFrame .timeDomainConfig [.tb] [(TB_PPS_DELAY 0, 256, 2), (TB_DOM_CFG 0, 256, 2), (TB_DOM_STAT 0, 256, 2)]
  ∧ CommandFrame .timeSelectDomain [] [(TB_CTRL, 0, 1)]
  ∧ CommandFrame .timeSchedule [.tb] [(TB_ACT_TIME 0, 32, 32), (TB_ACT_TIME 0 + 4, 32, 32), (TB_ACT_ARG 0, 32, 32), (TB_ACT_CTRL 0, 32, 32)]
  ∧ CommandFrame .timeAsymmetrySet [.tb] [(TB_PORT_FLAGS 0, 32, 8), (TB_DOM_STAT 0, 256, 2), (TB_PORT_ASYM 0, 32, 8)]
  ∧ CommandFrame .timeStatus [] []
  ∧ CommandFrame .tiuRoute [] [(TIU_SRC_CFG 0, 4, 64)]
  ∧ CommandFrame .stampRead [.tiu] [(TIU_HOST_STAT, 0, 1)]
  ∧ CommandFrame .triggerConfig [.cap] [(TIU_SRC_CFG 0, 4, 64), (CAP_TRIG_PARAM 0, 32, 32), (CAP_TRIG_SILL 0, 32, 32), (CAP_TRIG_LINTEL 0, 32,
    32), (CAP_TRIG_CFG 0, 32, 32), (CAP_TRIG_STAT 0, 32, 32)]
  ∧ (∀ loops, CommandFrame (fun t p => .freqMeasure t p loops) [.acq, .tiu, .cap] [(TIU_SRC_CFG 0, 4, 64), (AFE_CH_STAT 0, 16, 512),
    (AFE_WIRE_BREAK 0, 4, 16)])
  ∧ CommandFrame .paneOpen [.acq, .cap] [(CAP_ENG_TRIG 0, 64, 16), (CAP_ENG_MAXLEN 0, 64, 16), (CAP_ENG_POST 0, 64, 16), (CAP_ENG_PRE 0, 64,
    16), (CAP_ENG_CHAN 0, 64, 16), (CAP_ENG_CFG 0, 64, 16), (DEC_LOAD, 0, 1), (DEC_BAY_STAT 0, 16, 64), (CAP_ENG_STAT 0, 64, 16),
    (CAP_ENG_CNT 0, 64, 16)]
  ∧ CommandFrame .paneClose [.acq, .cap, .mem] [(CAP_ENG_STAT 0, 64, 16), (MEM_ERR 0, 32, 5), (MEM_ERR_INFO 0, 32, 5), (MEM_ERR_ADDR 0, 32,
    5), (MEM_ERR_ADDR 0 + 4, 32, 5), (DEC_LOAD, 0, 1), (CAP_ENG_CFG 0, 64, 16), (DEC_BAY_STAT 0, 16, 64)]
  ∧ CommandFrame .triggerAnnounce [.acq, .cap] [(CAP_TRIG_STAT 0, 32, 32), (CAP_ENG_CNT 0, 64, 16), (CAP_ENG_STAT 0, 64, 16)]
  ∧ CommandFrame .historyExtract [.cap] []
  ∧ CommandFrame .measureConfig [] [(CAP_MEAS_CFG 0, 4, 512)]
  ∧ CommandFrame .fieldPortConfig [.fblk] [(TIU_SRC_CFG 0, 4, 64), (FLD_PORT_TX 0, 64, 4), (FLD_PORT_TIMING 0, 64, 4), (FLD_PORT_CFG 0, 64,
    4)]
  ∧ CommandFrame .fieldDecoderConfig [.fblk] [(FLD_DEC_SILL 0, 32, 64), (FLD_DEC_LINTEL 0, 32, 64), (FLD_DEC_MASK 0, 32, 64),
    (FLD_DEC_MATCH 0, 32, 64), (FLD_DEC_CFG 0, 32, 64)]
  ∧ CommandFrame .tripConfig [.fblk] [(FLD_TRIP_STAT 0, 32, 16), (FLD_TRIP_TIME 0, 32, 16), (FLD_TRIP_SILL 0, 32, 16), (FLD_TRIP_LINTEL 0, 32,
    16), (FLD_TRIP_CFG 0, 32, 16)]
  ∧ CommandFrame .foutConfig [.fblk] [(FLD_FOUT_RANGE 0, 32, 8), (FLD_FOUT_VHI 0, 32, 8), (FLD_FOUT_VLO 0, 32, 8), (FLD_FOUT_CFG 0, 32, 8)]
  ∧ CommandFrame .tripReset [.fblk] [(FLD_TRIP_STAT 0, 32, 16)]

/-- Of the events of the SYS, CMD, MEM, PMC, CAL, QM, CMP, LNK and RED blocks each changes no part of the state and no register but those
its line names and those that any such row may change (09_queues_and_retention.md; 10_compression.md; 11_serial_lanes_and_syrilink.md;
13_head_redundancy.md; 14_memory_and_ecc.md; 15_porter_management.md; 16_calibration.md; 17_counters_and_test.md). -/
def Obligations.HubEventFrames : Prop :=
  EventFrame .pfwNFall [.sys, .nvm] []
  ∧ (∀ r, EventParts (.memoryFillDone · r) [.sys, .nvm])
  ∧ EventFrame .pfwNRise [.sys] []
  ∧ EventFrame .powerTransitionDone [.sys, .acq, .tb, .tiu, .cap, .fblk, .cmp, .lnk, .cmd, .mem, .cal, .nvm, .work] [(SYS_PWR_STATE, 0, 1),
    (LNK_PORT_STAT 0, 64, 8), (LNK_ROUTE_STAT, 0, 1), (LNK_ROUTE_CFG, 0, 1), (LNK_LANE_STAT 0, 16, 32), (LNK_PORT_CNT 0, 64, 8),
    (FLD_TRIP_STAT 0, 32, 16), (CONV_BAY_STAT 0, 16, 64), (DEC_DET_VAL 0, 8, 512), (DEC_CH_STAT 0, 16, 512), (CONV_RELIEF 0, 4, 4),
    (DEC_BAY_STAT 0, 16, 64), (CAP_HIST_STAT, 0, 1), (CMP_STAT, 0, 1), (CMP_RATIO, 0, 1), (MEM_ERR 0, 32, 5), (MEM_ERR_INFO 0, 32, 5),
    (MEM_ERR_ADDR 0, 32, 5), (MEM_ERR_ADDR 0 + 4, 32, 5), (CMD_CACHE, 0, 1), (CMP_SLOT 0, 16, 4), (CMP_SLOT_OUT 0, 16, 4),
    (CONV_TSEQ_STAT, 0, 1), (TIU_CORE_STAT 0, 16, 8), (CAL_GRP_STAT 0, 16, 29), (CAL_STAT, 0, 1), (CAP_ENG_STAT 0, 64, 16), (DEC_LOAD, 0,
    1), (CAP_ENG_CFG 0, 64, 16), (TB_ACT_CTRL 0, 32, 32), (DEC_STREAM 0, 4, 592), (CAP_ENG_CNT 0, 64, 16), (DEC_CH_CFG 0, 16, 512),
    (CONV_BAY_BURST 0, 16, 64), (CONV_BAY_MODE 0, 16, 64), (TB_CTRL, 0, 1)]
  ∧ EventFrame .bbAllowanceRefill [.sys] []
  ∧ (∀ c, EventFrame (.consoleStatusQuery · c) [.sys] [])
  ∧ (∀ a, EventFrame (.nextAddrWrite · a) [.nvm] [(SYS_HUB_ADDR, 0, 1)])
  ∧ EventFrame .consoleLock [] [(SYS_CON_CFG, 0, 1)]
  ∧ EventFrame .updateCommitDone [.sys, .cmd, .nvm] [(CMD_CACHE, 0, 1)]
  ∧ EventFrame .configStoreWrite [.nvm] []
  ∧ (∀ op p, EventFrame (.commandTimeout · op p) [.cmd] [(CMD_ERR, 0, 1), (CMD_CACHE, 0, 1)])
  ∧ EventFrame .seenCacheExpiry [.cmd] []
  ∧ EventFrame .replyCacheExpiry [.cmd] []
  ∧ EventFrame .spiStatus [.cmd] [(CMD_SPI_CTRL, 0, 1)]
  ∧ (∀ addr n, EventParts (.spiRegRead · addr n) [.tiu, .cmd])
  ∧ (∀ addr words, EventParts (.spiRegWrite · addr words) [.acq, .tb, .tiu, .cap, .fblk, .lnk, .cmd, .mem, .cal, .pmc, .nvm])
  ∧ (∀ complete, EventFrame (.spiPktRead · complete) [.sys, .cmd] [(CMD_SPI_CTRL, 0, 1)])
  ∧ (∀ code, EventFrame (.spiFrameIgnored · code) [.cmd] [(CMD_SPI_CTRL, 0, 1)])
  ∧ (∀ path addr w, EventParts (.registerWrite · path addr w) [.acq, .tb, .tiu, .cap, .fblk, .lnk, .cmd, .mem, .cal, .pmc, .nvm])
  ∧ (∀ mr4, EventFrame (.dramTempPoll · mr4) [.mem] [])
  ∧ EventFrame .scrubDone [.cmd, .mem] [(MEM_ERR 0, 32, 5), (MEM_ERR_INFO 0, 32, 5), (MEM_ERR_ADDR 0, 32, 5), (MEM_ERR_ADDR 0 + 4, 32, 5),
    (MEM_SCRUB_STAT, 0, 1), (CMD_CACHE, 0, 1)]
  ∧ EventFrame .pmcDump [.pmc] [(PMC_DUMP, 0, 1)]
  ∧ (∀ j, EventFrame (.jtagInstruction · j) [.sys] [])
  ∧ EventFrame .pmcClear [] []
  ∧ (∀ v values quality, EventFrame (.vernierCalDone · v values quality) [.acq, .tiu, .cmd, .cal, .nvm] [(TIU_CORE_STAT 0, 16, 8),
    (CAL_GRP_STAT 0, 16, 29), (CAL_STAT, 0, 1), (CAL_GRP_QUAL 0, 16, 29), (CAL_COUNT, 0, 1), (CONV_TRIM 0, 4, 512), (DEC_BAY_CFG 0, 16,
    64), (CMD_CACHE, 0, 1)])
  ∧ (∀ g, EventFrame (.calPeriodExpiry · g) [.cal] [(CAL_GRP_STAT 0, 16, 29)])
  ∧ (∀ g, EventFrame (.calGroupStart · g) [.acq, .tiu, .cal] [(CAL_STAT, 0, 1), (CAL_GRP_STAT 0, 16, 29), (CONV_BAY_STAT 0, 16, 64),
    (CONV_RELIEF 0, 4, 4), (TIU_CORE_STAT 0, 16, 8), (CONV_TSEQ_STAT, 0, 1)])
  ∧ (∀ g values quality, EventFrame (.calGroupDone · g values quality) [.acq, .cmd, .cal, .nvm] [(CAL_STAT, 0, 1), (CAL_GRP_STAT 0, 16, 29),
    (CAL_GRP_QUAL 0, 16, 29), (CAL_COUNT, 0, 1), (CONV_TRIM 0, 4, 512), (DEC_BAY_CFG 0, 16, 64), (CMD_CACHE, 0, 1)])
  ∧ (∀ g, EventFrame (.calRetry · g) [.cal] [(CAL_GRP_STAT 0, 16, 29)])
  ∧ (∀ q, EventFrame (.pushResumed · q) [] [])
  ∧ (∀ rid, EventFrame (.spill · rid) [.mem] [(MEM_ERR 0, 32, 5), (MEM_ERR_INFO 0, 32, 5), (MEM_ERR_ADDR 0, 32, 5), (MEM_ERR_ADDR 0 + 4, 32,
    5)])
  ∧ (∀ rid, EventFrame (.retentionReturn · rid) [.mem] [(MEM_ERR 0, 32, 5), (MEM_ERR_INFO 0, 32, 5), (MEM_ERR_ADDR 0, 32, 5),
    (MEM_ERR_ADDR 0 + 4, 32, 5), (CMP_LAST_ERR, 0, 1), (CMP_LAST_POS, 0, 1)])
  ∧ (∀ q, EventFrame (.rewindTimeout · q) [] [])
  ∧ (∀ q, EventFrame (.rewindApply · q) [] [(QM_RET_STAT, 0, 1)])
  ∧ (∀ n, EventFrame (.shutterExpiry · n) [] [(QM_SHUT_TYPE 0, 16, 32), (QM_SHUT_CHAN 0, 16, 32), (QM_SHUT_HUB 0, 16, 32), (QM_SHUT_CTRL 0,
    16, 32)])
  ∧ EventFrame .eventRecordClose [] []
  ∧ (∀ rid, EventFrame (.cmpRecordDone · rid) [.cmp, .mem] [(CMP_STAT, 0, 1), (CMP_RATIO, 0, 1), (MEM_ERR 0, 32, 5), (MEM_ERR_INFO 0, 32, 5),
    (MEM_ERR_ADDR 0, 32, 5), (MEM_ERR_ADDR 0 + 4, 32, 5)])
  ∧ (∀ tag source, EventFrame (.cmpJobDone · tag source) [.cmp, .cmd, .mem, .work] [(CMP_SLOT 0, 16, 4), (CMP_SLOT_OUT 0, 16, 4), (MEM_ERR 0,
    32, 5), (MEM_ERR_INFO 0, 32, 5), (MEM_ERR_ADDR 0, 32, 5), (MEM_ERR_ADDR 0 + 4, 32, 5), (CMD_CACHE, 0, 1), (CMP_STAT, 0, 1),
    (CMP_LAST_ERR, 0, 1), (CMP_LAST_POS, 0, 1)])
  ∧ EventFrame .cmpFlushDrained [.cmp, .cmd] [(CMD_CACHE, 0, 1)]
  ∧ (∀ p, EventFrame (.portTrainingStart · p) [.tb, .lnk] [(LNK_PORT_CNT 0, 64, 8), (LNK_PORT_STAT 0, 64, 8), (LNK_LANE_STAT 0, 16, 32),
    (LNK_ROUTE_STAT, 0, 1), (LNK_ROUTE_CFG, 0, 1)])
  ∧ (∀ p ident, EventFrame (.trainIdentReceived · p ident) [.lnk] [(LNK_PORT_STAT 0, 64, 8), (LNK_ROUTE_STAT, 0, 1), (LNK_ROUTE_CFG, 0, 1),
    (LNK_PORT_ERR 0, 64, 8), (LNK_LANE_STAT 0, 16, 32)])
  ∧ (∀ p markers, EventFrame (.trainReadyReceived · p markers) [.sys, .tb, .lnk] [(LNK_PORT_ERR 0, 64, 8), (LNK_PORT_STAT 0, 64, 8),
    (LNK_LANE_STAT 0, 16, 32), (LNK_ROUTE_STAT, 0, 1), (LNK_ROUTE_CFG, 0, 1)])
  ∧ (∀ p, EventFrame (.trainingTimeout · p) [.lnk] [])
  ∧ (∀ p, EventFrame (.trainingRestart · p) [.tb, .lnk] [(LNK_PORT_CNT 0, 64, 8), (LNK_PORT_STAT 0, 64, 8), (LNK_LANE_STAT 0, 16, 32),
    (LNK_ROUTE_STAT, 0, 1), (LNK_ROUTE_CFG, 0, 1)])
  ∧ (∀ p, EventFrame (.mismatchRetry · p) [.lnk] [(LNK_PORT_CNT 0, 64, 8)])
  ∧ (∀ l f, EventFrame (.laneLost · l f) [.tb, .lnk] [(LNK_PORT_CNT 0, 64, 8), (LNK_LANE_STAT 0, 16, 32), (LNK_PORT_ERR 0, 64, 8),
    (LNK_PORT_STAT 0, 64, 8), (LNK_ROUTE_STAT, 0, 1), (LNK_ROUTE_CFG, 0, 1)])
  ∧ (∀ p mask ack, EventFrame (.restripeReceived · p mask ack) [.tb, .lnk] [(LNK_PORT_STAT 0, 64, 8), (LNK_LANE_STAT 0, 16, 32),
    (LNK_ROUTE_STAT, 0, 1), (LNK_ROUTE_CFG, 0, 1)])
  ∧ (∀ l lockAt skew, EventFrame (.laneReadmitted · l lockAt skew) [.tb, .lnk] [(LNK_LANE_STAT 0, 16, 32), (LNK_PORT_STAT 0, 64, 8),
    (LNK_ROUTE_STAT, 0, 1), (LNK_ROUTE_CFG, 0, 1)])
  ∧ (∀ l, EventFrame (.idleFreeze · l) [] [(LNK_LANE_STAT 0, 16, 32)])
  ∧ (∀ l, EventFrame (.idleRefresh · l) [.lnk] [])
  ∧ (∀ p, EventFrame (.egressCellStart · p) [.sys, .lnk, .cmd, .mem] [(MEM_ERR 0, 32, 5), (MEM_ERR_INFO 0, 32, 5), (MEM_ERR_ADDR 0, 32, 5),
    (MEM_ERR_ADDR 0 + 4, 32, 5), (LNK_PORT_RTT 0, 64, 8)])
  ∧ (∀ p blocks, EventFrame (.cellReceived · p blocks) [.tb, .lnk] [(LNK_PORT_ERR 0, 64, 8), (LNK_LANE_STAT 0, 16, 32), (LNK_PORT_RTT 0, 64,
    8), (LNK_PORT_CNT 0, 64, 8), (LNK_PORT_STAT 0, 64, 8), (LNK_ROUTE_STAT, 0, 1), (LNK_ROUTE_CFG, 0, 1)])
  ∧ (∀ p blk, EventFrame (.linkBlockReceived · p blk) [.tb, .lnk] [(LNK_PORT_ERR 0, 64, 8), (LNK_PORT_CNT 0, 64, 8), (LNK_PORT_STAT 0, 64, 8),
    (LNK_LANE_STAT 0, 16, 32), (LNK_ROUTE_STAT, 0, 1), (LNK_ROUTE_CFG, 0, 1), (LNK_PORT_RTT 0, 64, 8)])
  ∧ (∀ p, EventFrame (.linkBlockSend · p) [.lnk] [])
  ∧ (∀ p, EventFrame (.replayTimeout · p) [.tb, .lnk] [(LNK_PORT_CNT 0, 64, 8), (LNK_PORT_STAT 0, 64, 8), (LNK_LANE_STAT 0, 16, 32),
    (LNK_ROUTE_STAT, 0, 1), (LNK_ROUTE_CFG, 0, 1), (LNK_PORT_ERR 0, 64, 8)])
  ∧ EventFrame .linkStateRefresh [.lnk] [(LNK_ROUTE_CFG, 0, 1)]
  ∧ (∀ p ls, EventFrame (.linkStateReceived · p ls) [.lnk] [(LNK_ROUTE_STAT, 0, 1), (LNK_ROUTE_CFG, 0, 1)])
  ∧ (∀ origin, EventFrame (.linkStateExpiry · origin) [.lnk] [(LNK_ROUTE_STAT, 0, 1), (LNK_ROUTE_CFG, 0, 1)])
  ∧ EventFrame .transitHoldExpiry [] [(LNK_ROUTE_STAT, 0, 1)]
  ∧ (∀ p r, EventFrame (.modulePoll · p r) [.tb, .lnk] [(LNK_MOD_STAT 0, 16, 8), (LNK_LANE_STAT 0, 16, 32), (LNK_PORT_CNT 0, 64, 8),
    (LNK_PORT_ERR 0, 64, 8), (LNK_PORT_STAT 0, 64, 8), (LNK_ROUTE_STAT, 0, 1), (LNK_ROUTE_CFG, 0, 1)])
  ∧ (∀ p counts, EventFrame (.eyeScanDone · p counts) [.lnk, .cmd] [(CMD_CACHE, 0, 1)])
  ∧ (∀ l bits, EventFrame (.checkerLockChange · l bits) [.lnk] [])
  ∧ EventFrame .heartbeatSend [] []
  ∧ (∀ p h, EventFrame (.heartbeatReceived · p h) [.lnk, .cmd] [(RED_STAT, 0, 1), (RED_COUNT, 0, 1), (LNK_ROUTE_STAT, 0, 1), (LNK_ROUTE_CFG,
    0, 1), (CMD_CACHE, 0, 1)])
  ∧ (∀ ring, EventFrame (.pathFailed · ring) [] [(RED_STAT, 0, 1), (RED_STAT + 4, 0, 1)])
  ∧ (∀ ring, EventFrame (.pathRestored · ring) [] [(RED_STAT, 0, 1), (RED_STAT + 4, 0, 1)])
  ∧ EventFrame .latchRenewSend [.cmd] []
  ∧ EventFrame .leaseExpiry [.lnk] [(RED_COUNT, 0, 1), (RED_STAT, 0, 1), (LNK_ROUTE_STAT, 0, 1), (LNK_ROUTE_CFG, 0, 1)]
  ∧ EventFrame .latchRequestSend [.cmd] []
  ∧ EventFrame .startHoldoffExpiry [.cmd] []
  ∧ (∀ k, EventFrame (.witnessLeaseExpiry · k) [] [(RED_WIT_STAT 0, 16, 4)])
  ∧ (∀ k, EventFrame (.quietPeriodEnd · k) [] [(RED_WIT_STAT 0, 16, 4), (RED_WIT_EPOCH 0, 16, 4)])
  ∧ (∀ p m, EventFrame (.mirrorReceived · p m) [] [(RED_STAT, 0, 1), (RED_COUNT, 0, 1)])
  ∧ EventFrame .mirrorResend [] []
  ∧ EventFrame .mirrorStateRefresh [] []
  ∧ EventFrame .digestSend [] []
  ∧ (∀ p d, EventFrame (.digestReceived · p d) [] [(RED_STAT, 0, 1), (RED_COUNT, 0, 1)])
  ∧ EventFrame .digestTimeout [] [(RED_COUNT, 0, 1), (RED_STAT, 0, 1)]
  ∧ EventFrame .ledgerReplaySend [.cmd, .mem] [(MEM_ERR 0, 32, 5), (MEM_ERR_INFO 0, 32, 5), (MEM_ERR_ADDR 0, 32, 5), (MEM_ERR_ADDR 0 + 4, 32,
    5)]
  ∧ EventFrame .switchoverTimeout [.cmd] [(CMD_CACHE, 0, 1)]
  ∧ EventFrame .drillDone [.cmd, .mem] [(CMD_CACHE, 0, 1), (MEM_ERR 0, 32, 5), (MEM_ERR_INFO 0, 32, 5), (MEM_ERR_ADDR 0, 32, 5),
    (MEM_ERR_ADDR 0 + 4, 32, 5)]
  ∧ ResetFrame .powerOn
  ∧ (∀ widthNs, ResetFrame (.resetNPulse · widthNs))
  ∧ (∀ durNs, ResetFrame (.supplyBrownout · durNs))
  ∧ ResetFrame .pfwRecoveryReset
  ∧ (∀ refused, ResetFrame (.bootOk · refused))
  ∧ ResetFrame .bootTimeout
  ∧ ResetFrame .watchdogExpiry
  ∧ ResetFrame .lockstepMismatch
  ∧ ResetFrame .imageLoadDone
  ∧ ResetFrame .resetAfterReply

/-- Of the events of the AFE, CONV, DEC, TIME, TIU, CAP and FLD blocks each changes no part of the state and no register but those its
line names and those that any such row may change (02_front_end.md; 03_conversion.md; 04_decimation.md; 05_time_base.md;
06_interval_unit.md; 07_panes_and_triggers.md; 08_field_ports_and_outputs.md). -/
def Obligations.SignalEventFrames : Prop :=
  (∀ c, EventFrame (.chargeReset · c) [.acq] [(AFE_CH_STAT 0, 16, 512)])
  ∧ (∀ c until_, EventFrame (.clampOnset · c until_) [.acq] [(AFE_CLAMP_SEEN 0, 4, 16), (AFE_CH_STAT 0, 16, 512)])
  ∧ (∀ b, EventFrame (.excLimit · b) [.acq, .cap] [(AFE_BAY_MON 0, 16, 64), (AFE_CH_STAT 0, 16, 512), (AFE_WIRE_BREAK 0, 4, 16)])
  ∧ (∀ c r, EventFrame (.pilotWindow · c r) [.acq, .cap] [(AFE_CH_STAT 0, 16, 512), (AFE_WIRE_BREAK 0, 4, 16)])
  ∧ (∀ caps, EventFrame (.testTick · caps) [.acq, .cap] [(AFE_CH_STAT 0, 16, 512), (AFE_WIRE_BREAK 0, 4, 16)])
  ∧ (∀ c, EventFrame (.injectOppositeEdge · c) [.acq] [])
  ∧ (∀ b m, EventFrame (.excitationPeriod · b m) [.acq, .cap, .cal] [(AFE_BAY_MON 0, 16, 64), (AFE_CH_STAT 0, 16, 512), (AFE_WIRE_BREAK 0, 4,
    16)])
  ∧ (∀ b, EventFrame (.burstWindowWake · b) [.acq] [(CONV_BAY_STAT 0, 16, 64), (DEC_DET_VAL 0, 8, 512)])
  ∧ (∀ b, EventFrame (.burstWindowEnd · b) [.acq] [(CONV_BAY_STAT 0, 16, 64)])
  ∧ EventFrame .transomPeriodTrigger [.acq] [(CONV_TSEQ_STAT, 0, 1), (CONV_TSEQ_CTRL, 0, 1)]
  ∧ (∀ j falling, EventFrame (.trigInEdge · j falling) [.acq, .tb, .tiu, .cap, .fblk, .cmd] [(TIU_CORE_STAT 0, 16, 8), (TIU_CORE_ERR 0, 16,
    8), (TIU_HOST_STAT, 0, 1), (CAP_TRIG_STAT 0, 32, 32), (CAP_ENG_CNT 0, 64, 16), (CAP_ENG_STAT 0, 64, 16), (CONV_TSEQ_STAT, 0, 1),
    (CONV_TSEQ_CTRL, 0, 1)])
  ∧ EventFrame .transomStart [.acq] [(CONV_TSEQ_STAT, 0, 1), (CONV_TSEQ_CTRL, 0, 1)]
  ∧ EventFrame .transomCommit [] [(CONV_TSEQ_CTRL, 0, 1)]
  ∧ (∀ b w, EventFrame (.pmcToneWrite · b w) [] [(PMC_TONE 0, 4, 64)])
  ∧ (∀ b, EventFrame (.newScanSetting · b) [.acq] [(CONV_BAY_STAT 0, 16, 64), (DEC_LOAD, 0, 1), (DEC_DET_VAL 0, 8, 512), (DEC_CH_STAT 0, 16,
    512), (CONV_RELIEF 0, 4, 4), (DEC_BAY_STAT 0, 16, 64), (CAP_HIST_STAT, 0, 1)])
  ∧ (∀ k diffs, EventFrame (.reliefCompareEnd · k diffs) [.acq, .cal] [(CONV_RELIEF 0, 4, 4), (CAL_COUNT, 0, 1), (CAL_STAT, 0, 1),
    (CONV_BAY_STAT 0, 16, 64)])
  ∧ (∀ k values, EventFrame (.bayCalibrationDone · k values) [.acq, .cal] [(CAL_COUNT, 0, 1), (CAL_STAT, 0, 1), (CONV_BAY_STAT 0, 16, 64),
    (CONV_RELIEF 0, 4, 4)])
  ∧ (∀ c code, EventFrame (.rawCodeArrival · c code) [.acq, .cap, .fblk, .cmd] [(AFE_CH_STAT 0, 16, 512), (CAP_TRIG_STAT 0, 32, 32),
    (CAP_ENG_CNT 0, 64, 16), (CAP_ENG_STAT 0, 64, 16), (DEC_DET_VAL 0, 8, 512), (FLD_TRIP_STAT 0, 32, 16)])
  ∧ (∀ c br idx, EventFrame (.outputSampleDelivered · c br idx) [.acq, .cap, .fblk, .cmd] [(CAP_TRIG_STAT 0, 32, 32), (CAP_ENG_CNT 0, 64, 16),
    (CAP_ENG_STAT 0, 64, 16), (DEC_DET_VAL 0, 8, 512), (FLD_TRIP_STAT 0, 32, 16)])
  ∧ (∀ c, EventFrame (.streamStart · c) [.acq] [(DEC_CH_STAT 0, 16, 512), (DEC_DET_VAL 0, 8, 512)])
  ∧ (∀ src falling others, EventFrame (.edgeStamp · src falling others) [.acq, .tb, .tiu, .cap, .fblk, .cmd] [(TIU_CORE_STAT 0, 16, 8),
    (TIU_CORE_ERR 0, 16, 8), (TIU_HOST_STAT, 0, 1), (CAP_TRIG_STAT 0, 32, 32), (CAP_ENG_CNT 0, 64, 16), (CAP_ENG_STAT 0, 64, 16)])
  ∧ (∀ v slow, EventFrame (.loopUnlock · v slow) [.tiu] [(TIU_CORE_STAT 0, 16, 8)])
  ∧ (∀ v, EventFrame (.loopRelock · v) [.cal] [(TIU_CORE_STAT 0, 16, 8), (CAL_GRP_STAT 0, 16, 29)])
  ∧ (∀ o, EventFrame (.tripStale · o) [.fblk] [(FLD_TRIP_STAT 0, 32, 16)])
  ∧ (∀ o, EventFrame (.tripMinOnExpiry · o) [.fblk] [(FLD_TRIP_STAT 0, 32, 16)])
  ∧ (∀ n, EventFrame (.fieldPortPoll · n) [.fblk] [(FLD_PORT_STAT 0, 64, 4)])
  ∧ (∀ n chars charError, EventFrame (.frameReceived · n chars charError) [.acq, .cap, .fblk, .cmd] [(FLD_PORT_STAT 0, 64, 4),
    (CAP_TRIG_STAT 0, 32, 32), (CAP_ENG_CNT 0, 64, 16), (CAP_ENG_STAT 0, 64, 16), (FLD_TRIP_STAT 0, 32, 16)])
  ∧ EventFrame .tripLock [] [(FLD_CTRL, 0, 1)]
  ∧ (∀ refSpan, EventFrame (.crystalSecond · refSpan) [.tb, .cmp] [(TB_REF, 0, 1), (TB_STATUS, 0, 1), (CMP_RATIO, 0, 1), (TB_PORT_FLAGS 0, 32,
    8), (TB_PORT_DELAY 0, 32, 8), (TB_PORT_OFFSET 0 0, 32, 8), (TB_PORT_OFFSET 0 1, 32, 8), (TB_DOM_STAT 0, 256, 2), (TB_PORT_ASYM 0, 32,
    8)])
  ∧ EventFrame .incrementBoundary [.acq, .tb, .tiu, .cap, .fblk, .lnk, .mem, .pmc] [(TB_INCR 0, 256, 2), (TB_INCR 0 + 4, 256, 2),
    (TB_DOM_STAT 0, 256, 2), (DEC_CH_STAT 0, 16, 512), (MEM_ERR 0, 32, 5), (MEM_ERR_INFO 0, 32, 5), (MEM_ERR_ADDR 0, 32, 5),
    (MEM_ERR_ADDR 0 + 4, 32, 5), (CAP_ENG_STAT 0, 64, 16), (TB_ANCHOR_CTRL 0, 256, 2), (TIU_CORE_STAT 0, 16, 8), (TIU_CORE_ERR 0, 16, 8),
    (TB_PORT_FLAGS 0, 32, 8)]
  ∧ (∀ p seq, EventFrame (.timeBlockReceived · p seq) [.tb, .tiu, .lnk] [(TB_PORT_FLAGS 0, 32, 8), (TIU_CORE_STAT 0, 16, 8), (TIU_CORE_ERR 0,
    16, 8)])
  ∧ (∀ p cell, EventFrame (.timeCellReceived · p cell) [.tb] [(TB_DOM_STAT 0, 256, 2)])
  ∧ (∀ d, EventFrame (.holdoverEntry · d) [.tb] [(TB_DOM_STAT 0, 256, 2)])
  ∧ (∀ d falling, EventFrame (.ppsEdge · d falling) [.tb, .tiu] [(TIU_CORE_STAT 0, 16, 8), (TIU_CORE_ERR 0, 16, 8), (TB_DOM_STAT 0, 256, 2)])
  ∧ (∀ n bytes start, EventFrame (.todMessage · n bytes start) [.tb] [(TB_DOM_STAT 0, 256, 2), (TB_ANCHOR_XC 0, 256, 2), (TB_ANCHOR_XC 0 + 4,
    256, 2), (TB_ANCHOR_FRAC 0, 256, 2), (TB_ANCHOR_FRAC 0 + 4, 256, 2), (TB_ANCHOR_SEC 0, 256, 2), (TB_ANCHOR_SEC 0 + 4, 256, 2),
    (TB_ANCHOR_CTRL 0, 256, 2)])
  ∧ (∀ slot, EventFrame (.timedActionLaunch · slot) [.acq, .tb, .cap, .mem, .cal] [(TB_ACT_CTRL 0, 32, 32), (DEC_LOAD, 0, 1), (DEC_STREAM 0,
    4, 592), (DEC_CH_STAT 0, 16, 512), (CAP_ENG_CNT 0, 64, 16), (CAP_ENG_STAT 0, 64, 16), (DEC_CH_CFG 0, 16, 512), (DEC_DET_VAL 0, 8,
    512), (CONV_BAY_STAT 0, 16, 64), (CONV_RELIEF 0, 4, 4), (MEM_ERR 0, 32, 5), (MEM_ERR_INFO 0, 32, 5), (MEM_ERR_ADDR 0, 32, 5),
    (MEM_ERR_ADDR 0 + 4, 32, 5), (CAP_ENG_CFG 0, 64, 16), (DEC_BAY_STAT 0, 16, 64), (CONV_BAY_BURST 0, 16, 64), (CONV_BAY_MODE 0, 16, 64),
    (CAP_HIST_STAT, 0, 1), (TB_CTRL, 0, 1)])
  ∧ (∀ path d hi, EventFrame (.tbIncrCommit · path d hi) [.tb, .cmd] [(TB_DOM_STAT 0, 256, 2)])
  ∧ (∀ d, EventFrame (.anchorGo · d) [] [(TB_ANCHOR_CTRL 0, 256, 2)])
  ∧ (∀ slot w, EventFrame (.timedActionArm · slot w) [.tb] [(TB_ACT_TIME 0, 32, 32), (TB_ACT_TIME 0 + 4, 32, 32), (TB_ACT_ARG 0, 32, 32),
    (TB_ACT_CTRL 0, 32, 32)])
  ∧ (∀ slot, EventFrame (.timedActionCancel · slot) [.tb] [(TB_ACT_CTRL 0, 32, 32)])
  ∧ (∀ u, EventFrame (.timeTrigger · u) [.acq, .cap, .cmd] [(CAP_TRIG_STAT 0, 32, 32), (CAP_ENG_CNT 0, 64, 16), (CAP_ENG_STAT 0, 64, 16)])
  ∧ (∀ id, EventFrame (.paneHeldTime · id) [.acq, .cap] [(CAP_ENG_CNT 0, 64, 16), (CAP_ENG_STAT 0, 64, 16)])
  ∧ (∀ id, EventFrame (.paneCut · id) [.acq, .cap, .mem] [(MEM_ERR 0, 32, 5), (MEM_ERR_INFO 0, 32, 5), (MEM_ERR_ADDR 0, 32, 5),
    (MEM_ERR_ADDR 0 + 4, 32, 5), (CAP_ENG_STAT 0, 64, 16)])
  ∧ (∀ tag source, EventFrame (.extractServe · tag source) [.acq, .cap, .cmd, .mem] [(MEM_ERR 0, 32, 5), (MEM_ERR_INFO 0, 32, 5),
    (MEM_ERR_ADDR 0, 32, 5), (MEM_ERR_ADDR 0 + 4, 32, 5), (CMD_CACHE, 0, 1)])
  ∧ EventFrame .historyRepartition [.acq, .cap, .mem] [(MEM_ERR 0, 32, 5), (MEM_ERR_INFO 0, 32, 5), (MEM_ERR_ADDR 0, 32, 5),
    (MEM_ERR_ADDR 0 + 4, 32, 5), (CAP_ENG_STAT 0, 64, 16), (CAP_HIST_STAT, 0, 1)]
  ∧ (∀ e arm, EventFrame (.engineArmWrite · e arm) [.acq, .cap, .mem] [(CAP_ENG_TRIG 0, 64, 16), (CAP_ENG_MAXLEN 0, 64, 16), (CAP_ENG_POST 0,
    64, 16), (CAP_ENG_PRE 0, 64, 16), (CAP_ENG_CHAN 0, 64, 16), (CAP_ENG_CFG 0, 64, 16), (DEC_LOAD, 0, 1), (DEC_BAY_STAT 0, 16, 64),
    (MEM_ERR 0, 32, 5), (MEM_ERR_INFO 0, 32, 5), (MEM_ERR_ADDR 0, 32, 5), (MEM_ERR_ADDR 0 + 4, 32, 5), (CAP_ENG_STAT 0, 64, 16)])
  ∧ (∀ b, EventFrame (.freqGateOpen · b) [.tiu] [(TIU_SRC_CFG 0, 4, 64), (AFE_BAY_MON 0, 16, 64)])
  ∧ (∀ b, EventFrame (.freqGateClose · b) [.tiu, .cmd] [(TIU_SRC_CFG 0, 4, 64), (CMD_CACHE, 0, 1)])
  ∧ EventFrame .sensorPoll [.sys, .acq] [(CONV_TSEQ_STAT, 0, 1)]
  ∧ (∀ codes, EventFrame (.transomEntryDone · codes) [.sys, .acq, .cmd, .cal] [(CONV_TRESULT 0, 4, 64), (CMD_CACHE, 0, 1), (SYS_SENSOR_ALM, 0,
    1), (CAL_GRP_STAT 0, 16, 29), (CONV_TSEQ_STAT, 0, 1), (CONV_TSEQ_CTRL, 0, 1), (CAL_STAT, 0, 1)])
  ∧ EventFrame .transomCalibrationDone [.acq] [(CONV_TSEQ_STAT, 0, 1), (CONV_TSEQ_CTRL, 0, 1)]
end

