-- ==== Sys2Proof/Laws/Tab.lean ====
section
/-!
SUPPORT. What the tables answer: reading what was written, leaving every other key alone, and keeping the canonical
form.
-/

namespace Sys2Proof.Machine

set_option Elab.async false

variable {α : Type}

theorem Tab.get_erase_self (d : α) (t : Tab α) (k : Nat) : Tab.get d (t.erase k) k = d := by
  induction t with
  | nil => rfl
  | cons e t ih =>
    obtain ⟨j, v⟩ := e
    unfold Tab.erase
    split
    · exact ih
    · simp [Tab.get, *]

theorem Tab.get_erase_ne (d : α) (t : Tab α) {k i : Nat} (h : i ≠ k) : Tab.get d (t.erase k) i = Tab.get d t i := by
  induction t with
  | nil => rfl
  | cons e t ih =>
    obtain ⟨j, v⟩ := e
    unfold Tab.erase
    split
    · next hj => simp [Tab.get, ih, show j ≠ i by omega]
    · simp [Tab.get, ih]

theorem Tab.get_insert_self (d : α) (t : Tab α) (k : Nat) (v : α) : Tab.get d (t.insert k v) k = v := by
  induction t with
  | nil => simp [Tab.insert, Tab.get]
  | cons e t ih =>
    obtain ⟨j, w⟩ := e
    unfold Tab.insert
    split
    · simp [Tab.get]
    · split <;> simp [Tab.get, *]

theorem Tab.get_insert_ne (d : α) (t : Tab α) {k i : Nat} (v : α) (h : i ≠ k) : Tab.get d (t.insert k v) i = Tab.get d t i := by
  induction t with
  | nil => simp [Tab.insert, Tab.get, h.symm]
  | cons e t ih =>
    obtain ⟨j, w⟩ := e
    unfold Tab.insert
    split
    · next hj => simp [Tab.get, show j ≠ i by omega, show k ≠ i by omega]
    · split
      · simp [Tab.get, show k ≠ i by omega]
      · simp [Tab.get, ih]

@[simp] theorem Tab.get_set_self [DecidableEq α] (d : α) (t : Tab α) (k : Nat) (v : α) : Tab.get d (Tab.set d t k v) k = v := by
  unfold Tab.set
  split
  · next h => rw [Tab.get_erase_self, h]
  · exact Tab.get_insert_self d t k v

theorem Tab.get_set_ne [DecidableEq α] (d d' : α) (t : Tab α) {k i : Nat} (v : α) (h : i ≠ k) :
    Tab.get d' (Tab.set d t k v) i = Tab.get d' t i := by
  unfold Tab.set
  split
  · exact Tab.get_erase_ne d' t h
  · exact Tab.get_insert_ne d' t v h

theorem Tab.get_set [DecidableEq α] (d : α) (t : Tab α) (k i : Nat) (v : α) :
    Tab.get d (Tab.set d t k v) i = if i = k then v else Tab.get d t i := by
  split
  · next h => rw [h, Tab.get_set_self]
  · next h => exact Tab.get_set_ne d d t v h

theorem Tab.mem_erase {t : Tab α} {k : Nat} {e : Nat × α} (h : e ∈ t.erase k) : e ∈ t := by
  induction t with
  | nil => exact h
  | cons x t ih =>
    obtain ⟨j, w⟩ := x
    unfold Tab.erase at h
    split at h
    · exact List.mem_cons_of_mem _ (ih h)
    · rcases List.mem_cons.mp h with rfl | h
      · exact List.mem_cons_self
      · exact List.mem_cons_of_mem _ (ih h)

theorem Tab.mem_insert {t : Tab α} {k : Nat} {v : α} {e : Nat × α} (h : e ∈ t.insert k v) : e = (k, v) ∨ e ∈ t := by
  induction t with
  | nil => exact Or.inl (List.mem_singleton.mp h)
  | cons x t ih =>
    obtain ⟨j, w⟩ := x
    unfold Tab.insert at h
    split at h
    · rcases List.mem_cons.mp h with rfl | h
      · exact Or.inl rfl
      · exact Or.inr (List.mem_cons_of_mem _ h)
    · split at h
      · rcases List.mem_cons.mp h with rfl | h
        · exact Or.inl rfl
        · exact Or.inr h
      · rcases List.mem_cons.mp h with rfl | h
        · exact Or.inr List.mem_cons_self
        · rcases ih h with h | h
          · exact Or.inl h
          · exact Or.inr (List.mem_cons_of_mem _ h)

/-- Keys that rise from above a greater key rise from above a lesser one. -/
theorem Tab.rising_weaken {t : Tab α} {i j : Nat} (hij : i ≤ j) (h : Tab.rising (some j) t = true) : Tab.rising (some i) t = true := by
  cases t with
  | nil => rfl
  | cons x t =>
    obtain ⟨k, v⟩ := x
    simp only [Tab.rising, Bool.and_eq_true, decide_eq_true_eq] at h ⊢
    exact ⟨by omega, h.2⟩

theorem Tab.rising_none {t : Tab α} {j : Nat} (h : Tab.rising (some j) t = true) : Tab.rising none t = true := by
  cases t with
  | nil => rfl
  | cons x t =>
    simp only [Tab.rising, Bool.and_eq_true] at h ⊢
    exact h.2

theorem Tab.rising_erase {t : Tab α} {lo : Option Nat} {k : Nat} (h : Tab.rising lo t = true) : Tab.rising lo (t.erase k) = true := by
  induction t generalizing lo with
  | nil => exact h
  | cons x t ih =>
    obtain ⟨j, v⟩ := x
    unfold Tab.erase
    cases lo with
    | none =>
      simp only [Tab.rising] at h
      split
      · exact ih (Tab.rising_none h)
      · simp only [Tab.rising]
        exact ih h
    | some i =>
      simp only [Tab.rising, Bool.and_eq_true, decide_eq_true_eq] at h
      split
      · exact ih (Tab.rising_weaken (by omega) h.2)
      · simp only [Tab.rising, Bool.and_eq_true, decide_eq_true_eq]
        exact ⟨h.1, ih h.2⟩

theorem Tab.rising_insert_some {t : Tab α} {i k : Nat} {v : α} (hk : i < k) (h : Tab.rising (some i) t = true) :
    Tab.rising (some i) (t.insert k v) = true := by
  induction t generalizing i with
  | nil => simpa [Tab.insert, Tab.rising] using hk
  | cons x t ih =>
    obtain ⟨j, w⟩ := x
    simp only [Tab.rising, Bool.and_eq_true, decide_eq_true_eq] at h
    unfold Tab.insert
    split
    · next hj =>
      simp only [Tab.rising, Bool.and_eq_true, decide_eq_true_eq]
      exact ⟨hk, hj ▸ h.2⟩
    · split
      · simp only [Tab.rising, Bool.and_eq_true, decide_eq_true_eq]
        exact ⟨hk, by assumption, h.2⟩
      · simp only [Tab.rising, Bool.and_eq_true, decide_eq_true_eq]
        exact ⟨h.1, ih (by omega) h.2⟩

theorem Tab.rising_insert {t : Tab α} {k : Nat} {v : α} (h : Tab.rising none t = true) : Tab.rising none (t.insert k v) = true := by
  cases t with
  | nil => rfl
  | cons x t =>
    obtain ⟨j, w⟩ := x
    simp only [Tab.rising] at h
    unfold Tab.insert
    split
    · next hj => simpa only [Tab.rising, hj] using h
    · split
      · simp only [Tab.rising, Bool.and_eq_true, decide_eq_true_eq]
        exact ⟨by assumption, h⟩
      · simp only [Tab.rising]
        exact Tab.rising_insert_some (by omega) h

theorem Tab.rising_set [DecidableEq α] {d : α} {t : Tab α} {k : Nat} {v : α} (h : Tab.rising none t = true) :
    Tab.rising none (Tab.set d t k v) = true := by
  unfold Tab.set
  split
  · exact Tab.rising_erase h
  · exact Tab.rising_insert h

theorem Tab.mem_set [DecidableEq α] {d : α} {t : Tab α} {k : Nat} {v : α} {e : Nat × α} (h : e ∈ Tab.set d t k v) :
    (e = (k, v) ∧ v ≠ d) ∨ e ∈ t := by
  unfold Tab.set at h
  split at h
  · exact Or.inr (Tab.mem_erase h)
  · exact (Tab.mem_insert h).imp (fun h => ⟨h, by assumption⟩) id

/-- Every write keeps the canonical form. -/
theorem Tab.wf_set [DecidableEq α] {d : α} {t : Tab α} (k : Nat) (v : α) (h : Tab.wf d t = true) : Tab.wf d (Tab.set d t k v) = true := by
  simp only [Tab.wf, Bool.and_eq_true, List.all_eq_true, decide_eq_true_eq] at h ⊢
  refine ⟨Tab.rising_set h.1, fun e he => ?_⟩
  rcases Tab.mem_set he with ⟨rfl, hv⟩ | he
  · exact hv
  · exact h.2 e he

theorem Mem.wf_write {d : Byte} {m : Mem} (a : Nat) (b : Byte) (h : Mem.wf d m = true) : Mem.wf d (Mem.write d m a b) = true := Tab.wf_set a b h

theorem Mem.wf_writeBytes {d : Byte} {m : Mem} (a : Nat) (bs : List Byte) (h : Mem.wf d m = true) : Mem.wf d (Mem.writeBytes d m a bs) = true := by
  induction bs generalizing m a with
  | nil => exact h
  | cons b bs ih => exact ih (a + 1) (Mem.wf_write a b h)

@[simp] theorem Mem.read_write_self (d : Byte) (m : Mem) (a : Nat) (b : Byte) : Mem.read d (Mem.write d m a b) a = b := Tab.get_set_self d m a b

theorem Mem.read_write_ne (d : Byte) (m : Mem) {a i : Nat} (b : Byte) (h : i ≠ a) : Mem.read d (Mem.write d m a b) i = Mem.read d m i :=
  Tab.get_set_ne d d m b h

/-- Bytes outside the written range stand. -/
theorem Mem.read_writeBytes_out (d : Byte) (m : Mem) {a i : Nat} (bs : List Byte) (h : i < a ∨ a + bs.length ≤ i) :
    Mem.read d (Mem.writeBytes d m a bs) i = Mem.read d m i := by
  induction bs generalizing m a with
  | nil => rfl
  | cons b bs ih =>
    simp only [List.length_cons] at h
    rw [Mem.writeBytes, ih _ (by omega), Mem.read_write_ne d m b (by omega)]

/-- A byte of the written range reads as written. -/
theorem Mem.read_writeBytes_in (d : Byte) (m : Mem) (a : Nat) (bs : List Byte) (j : Nat) (h : j < bs.length) :
    Mem.read d (Mem.writeBytes d m a bs) (a + j) = bs[j] := by
  induction bs generalizing m a j with
  | nil => simp at h
  | cons b bs ih =>
    cases j with
    | zero => rw [Mem.writeBytes, Mem.read_writeBytes_out d _ bs (by omega)]; simp
    | succ j =>
      have := ih (Mem.write d m a b) (a + 1) j (by simpa using h)
      rw [Mem.writeBytes, show a + (j + 1) = a + 1 + j by omega, this]
      rfl

end Sys2Proof.Machine
end

