-- ==== Sys2Proof/Laws/Regs.lean ====
section
/-!
SUPPORT. What the register operations answer: a word read back, every other word left alone, fields within a word.
-/

namespace Sys2Proof.Machine

set_option Elab.async false

@[simp] theorem State.rd_wr_self (s : State) (a : Nat) (w : Word) : (s.wr a w).rd a = w := Tab.get_set_self _ _ _ _

theorem State.rd_wr_ne (s : State) {a b : Nat} (w : Word) (h : b ≠ a) : (s.wr a w).rd b = s.rd b := Tab.get_set_ne _ _ _ _ h

theorem State.rd_wr (s : State) (a b : Nat) (w : Word) : (s.wr a w).rd b = if b = a then w else s.rd b := by
  split
  · next h => rw [h, State.rd_wr_self]
  · next h => exact State.rd_wr_ne s w h

/-- Fields of up to 32 bits live in the word at their address. -/
theorem State.fld_eq (s : State) (a : Nat) (f : Fld) (h : f.lo + f.width ≤ 32) : s.fld a f = wfld (s.rd a) f := by
  unfold State.fld wfld
  rw [if_pos h]

theorem State.setFld_eq (s : State) (a : Nat) (f : Fld) (v : Nat) (h : f.lo + f.width ≤ 32) :
    s.setFld a f v = s.wr a (setBits (s.rd a) f v) := by
  unfold State.setFld
  rw [if_pos h]

/-- A number split at a field. -/
theorem bits_split (o lo w : Nat) : o = o / 2 ^ (lo + w) * 2 ^ (lo + w) + bits o lo w * 2 ^ lo + o % 2 ^ lo := by
  unfold bits
  have h1 := Nat.div_add_mod o (2 ^ lo)
  have h2 := Nat.div_add_mod (o / 2 ^ lo) (2 ^ w)
  rw [Nat.div_div_eq_div_mul, ← Nat.pow_add] at h2
  have h3 : 2 ^ (lo + w) = 2 ^ lo * 2 ^ w := Nat.pow_add ..
  generalize o / 2 ^ (lo + w) = q at *
  generalize o / 2 ^ lo % 2 ^ w = r at *
  generalize o / 2 ^ lo = t at *
  generalize o % 2 ^ lo = m at *
  rw [h3, ← h1, ← h2, Nat.mul_add, Nat.mul_comm q, Nat.mul_comm r, Nat.mul_assoc]

theorem bits_lt (o lo w : Nat) : bits o lo w < 2 ^ w := Nat.mod_lt _ (Nat.two_pow_pos w)

/-- The field of a number put together around it. -/
theorem bits_join (q b m lo w : Nat) (hb : b < 2 ^ w) (hm : m < 2 ^ lo) : bits (q * 2 ^ (lo + w) + b * 2 ^ lo + m) lo w = b := by
  unfold bits
  have e : q * 2 ^ (lo + w) + b * 2 ^ lo + m = (q * 2 ^ w + b) * 2 ^ lo + m := by
    rw [Nat.pow_add, Nat.add_mul, Nat.mul_assoc, Nat.mul_comm (2 ^ w)]
  rw [e, Nat.add_comm, Nat.add_mul_div_right _ _ (Nat.two_pow_pos lo), Nat.div_eq_of_lt hm, Nat.zero_add, Nat.add_comm,
    Nat.add_mul_mod_self_right, Nat.mod_eq_of_lt hb]

/-- The number with another value in a field. -/
theorem setBits_nat (o lo w v : Nat) :
    o - bits o lo w * 2 ^ lo + v % 2 ^ w * 2 ^ lo = o / 2 ^ (lo + w) * 2 ^ (lo + w) + v % 2 ^ w * 2 ^ lo + o % 2 ^ lo := by
  have h := bits_split o lo w
  omega

theorem setBits_toNat (w : Word) (f : Fld) (v : Nat) (h : f.lo + f.width ≤ 32) :
    (setBits w f v).toNat = w.toNat / 2 ^ (f.lo + f.width) * 2 ^ (f.lo + f.width) + v % 2 ^ f.width * 2 ^ f.lo + w.toNat % 2 ^ f.lo := by
  unfold setBits word
  simp only [BitVec.toNat_ofNat, setBits_nat]
  apply Nat.mod_eq_of_lt
  have hw := w.isLt
  have h1 : v % 2 ^ f.width < 2 ^ f.width := Nat.mod_lt _ (Nat.two_pow_pos _)
  have h2 : w.toNat % 2 ^ f.lo < 2 ^ f.lo := Nat.mod_lt _ (Nat.two_pow_pos _)
  have h3 : v % 2 ^ f.width * 2 ^ f.lo + w.toNat % 2 ^ f.lo < 2 ^ (f.lo + f.width) := by
    have : (v % 2 ^ f.width + 1) * 2 ^ f.lo ≤ 2 ^ f.width * 2 ^ f.lo := Nat.mul_le_mul_right _ h1
    rw [Nat.add_mul, Nat.one_mul] at this
    rw [Nat.pow_add, Nat.mul_comm (2 ^ f.lo)]
    omega
  have h4 : w.toNat / 2 ^ (f.lo + f.width) < 2 ^ (32 - (f.lo + f.width)) := by
    rw [Nat.div_lt_iff_lt_mul (Nat.two_pow_pos _), ← Nat.pow_add, show 32 - (f.lo + f.width) + (f.lo + f.width) = 32 by omega]
    exact hw
  have h5 : (w.toNat / 2 ^ (f.lo + f.width) + 1) * 2 ^ (f.lo + f.width) ≤ 2 ^ (32 - (f.lo + f.width)) * 2 ^ (f.lo + f.width) :=
    Nat.mul_le_mul_right _ h4
  rw [← Nat.pow_add, show 32 - (f.lo + f.width) + (f.lo + f.width) = 32 by omega, Nat.add_mul, Nat.one_mul] at h5
  omega

/-- A field reads back what was written to it, cut to its width. -/
@[simp] theorem wfld_setBits_self (w : Word) (f : Fld) (v : Nat) (h : f.lo + f.width ≤ 32) : wfld (setBits w f v) f = v % 2 ^ f.width := by
  unfold wfld
  rw [setBits_toNat w f v h]
  exact bits_join _ _ _ _ _ (Nat.mod_lt _ (Nat.two_pow_pos _)) (Nat.mod_lt _ (Nat.two_pow_pos _))

/-- A field below or above the one written stands. -/
theorem wfld_setBits_ne (w : Word) (f g : Fld) (v : Nat) (h : f.lo + f.width ≤ 32) (hd : g.lo + g.width ≤ f.lo ∨ f.lo + f.width ≤ g.lo) :
    wfld (setBits w f v) g = wfld w g := by
  unfold wfld
  rw [setBits_toNat w f v h]
  conv => rhs; rw [bits_split w.toNat f.lo f.width]
  generalize w.toNat / 2 ^ (f.lo + f.width) = q
  have hb := bits_lt w.toNat f.lo f.width
  generalize bits w.toNat f.lo f.width = b at *
  have hv : v % 2 ^ f.width < 2 ^ f.width := Nat.mod_lt _ (Nat.two_pow_pos _)
  generalize v % 2 ^ f.width = c at *
  have hm : w.toNat % 2 ^ f.lo < 2 ^ f.lo := Nat.mod_lt _ (Nat.two_pow_pos _)
  generalize w.toNat % 2 ^ f.lo = m at *
  rcases hd with hd | hd
  · obtain ⟨k, hk⟩ := Nat.le.dest hd
    have key : ∀ x, bits (q * 2 ^ (f.lo + f.width) + x * 2 ^ f.lo + m) g.lo g.width = bits m g.lo g.width := by
      intro x
      unfold bits
      have e : q * 2 ^ (f.lo + f.width) + x * 2 ^ f.lo + m = m + (q * 2 ^ f.width + x) * 2 ^ k * 2 ^ g.width * 2 ^ g.lo := by
        rw [show f.lo = g.lo + g.width + k by omega]
        simp only [Nat.pow_add]
        simp only [Nat.add_mul]
        ac_rfl
      rw [e, Nat.add_mul_div_right _ _ (Nat.two_pow_pos _), Nat.add_mul_mod_self_right]
    rw [key, key]
  · obtain ⟨k, hk⟩ := Nat.le.dest hd
    have key : ∀ x, x < 2 ^ f.width → bits (q * 2 ^ (f.lo + f.width) + x * 2 ^ f.lo + m) g.lo g.width = q / 2 ^ k % 2 ^ g.width := by
      intro x hx
      unfold bits
      have hs : x * 2 ^ f.lo + m < 2 ^ (f.lo + f.width) := by
        have : (x + 1) * 2 ^ f.lo ≤ 2 ^ f.width * 2 ^ f.lo := Nat.mul_le_mul_right _ hx
        rw [Nat.add_mul, Nat.one_mul] at this
        rw [Nat.pow_add, Nat.mul_comm (2 ^ f.lo)]
        omega
      rw [← hk, Nat.pow_add _ _ k, ← Nat.div_div_eq_div_mul, Nat.add_assoc, Nat.add_comm, Nat.add_mul_div_right _ _ (Nat.two_pow_pos _),
        Nat.div_eq_of_lt hs, Nat.zero_add]
    rw [key _ hb, key _ hv]

theorem State.fld_setFld_self (s : State) (a : Nat) (f : Fld) (v : Nat) (h : f.lo + f.width ≤ 32) : (s.setFld a f v).fld a f = v % 2 ^ f.width := by
  rw [State.fld_eq _ _ _ h, State.setFld_eq _ _ _ _ h, State.rd_wr_self, wfld_setBits_self _ _ _ h]

theorem State.fld_setFld_other (s : State) (a : Nat) (f g : Fld) (v : Nat) (h : f.lo + f.width ≤ 32) (hg : g.lo + g.width ≤ 32)
    (hd : g.lo + g.width ≤ f.lo ∨ f.lo + f.width ≤ g.lo) : (s.setFld a f v).fld a g = s.fld a g := by
  rw [State.fld_eq _ _ _ hg, State.setFld_eq _ _ _ _ h, State.rd_wr_self, wfld_setBits_ne _ _ _ _ h hd, State.fld_eq _ _ _ hg]

theorem State.rd_setFld_ne (s : State) {a b : Nat} (f : Fld) (v : Nat) (h : f.lo + f.width ≤ 32) (hb : b ≠ a) : (s.setFld a f v).rd b = s.rd b := by
  rw [State.setFld_eq _ _ _ _ h, State.rd_wr_ne _ _ hb]

theorem State.fld_setFld_ne (s : State) {a b : Nat} (f g : Fld) (v : Nat) (h : f.lo + f.width ≤ 32) (hg : g.lo + g.width ≤ 32) (hb : b ≠ a) :
    (s.setFld a f v).fld b g = s.fld b g := by
  rw [State.fld_eq _ _ _ hg, State.fld_eq _ _ _ hg, State.rd_setFld_ne _ _ _ h hb]

end Sys2Proof.Machine
end

