-- ==== Sys2Proof/Laws/State.lean ====
section
/-!
SUPPORT. What each update of the state leaves and what it changes: one lemma per field per update, so that no later proof
unfolds a record update.
-/

namespace Sys2Proof.Machine

set_option Elab.async false

section
variable (s : State) (f : Sys → Sys)

@[simp] theorem State.onSys_now : (s.onSys f).now = s.now := rfl
@[simp] theorem State.onSys_pending : (s.onSys f).pending = s.pending := rfl
@[simp] theorem State.onSys_regs : (s.onSys f).regs = s.regs := rfl
@[simp] theorem State.onSys_nvm : (s.onSys f).nvm = s.nvm := rfl
@[simp] theorem State.onSys_bufs : (s.onSys f).bufs = s.bufs := rfl
@[simp] theorem State.onSys_sys : (s.onSys f).sys = f s.sys := rfl
@[simp] theorem State.onSys_qm : (s.onSys f).qm = s.qm := rfl
@[simp] theorem State.onSys_acq : (s.onSys f).acq = s.acq := rfl
@[simp] theorem State.onSys_tb : (s.onSys f).tb = s.tb := rfl
@[simp] theorem State.onSys_tiu : (s.onSys f).tiu = s.tiu := rfl
@[simp] theorem State.onSys_cap : (s.onSys f).cap = s.cap := rfl
@[simp] theorem State.onSys_fblk : (s.onSys f).fblk = s.fblk := rfl
@[simp] theorem State.onSys_cmp : (s.onSys f).cmp = s.cmp := rfl
@[simp] theorem State.onSys_lnk : (s.onSys f).lnk = s.lnk := rfl
@[simp] theorem State.onSys_cmd : (s.onSys f).cmd = s.cmd := rfl
@[simp] theorem State.onSys_red : (s.onSys f).red = s.red := rfl
@[simp] theorem State.onSys_mem : (s.onSys f).mem = s.mem := rfl
@[simp] theorem State.onSys_cal : (s.onSys f).cal = s.cal := rfl
@[simp] theorem State.onSys_pmcBlk : (s.onSys f).pmcBlk = s.pmcBlk := rfl
@[simp] theorem State.onSys_free : (s.onSys f).free = s.free := rfl
@[simp] theorem State.onSys_fresh : (s.onSys f).fresh = s.fresh := rfl
@[simp] theorem State.onSys_rd (a : Nat) : (s.onSys f).rd a = s.rd a := rfl
@[simp] theorem State.onSys_fld (a : Nat) (g : Fld) : (s.onSys f).fld a g = s.fld a g := rfl

end

section
variable (s : State) (f : Qm → Qm)

@[simp] theorem State.onQm_now : (s.onQm f).now = s.now := rfl
@[simp] theorem State.onQm_pending : (s.onQm f).pending = s.pending := rfl
@[simp] theorem State.onQm_regs : (s.onQm f).regs = s.regs := rfl
@[simp] theorem State.onQm_nvm : (s.onQm f).nvm = s.nvm := rfl
@[simp] theorem State.onQm_bufs : (s.onQm f).bufs = s.bufs := rfl
@[simp] theorem State.onQm_sys : (s.onQm f).sys = s.sys := rfl
@[simp] theorem State.onQm_qm : (s.onQm f).qm = f s.qm := rfl
@[simp] theorem State.onQm_acq : (s.onQm f).acq = s.acq := rfl
@[simp] theorem State.onQm_tb : (s.onQm f).tb = s.tb := rfl
@[simp] theorem State.onQm_tiu : (s.onQm f).tiu = s.tiu := rfl
@[simp] theorem State.onQm_cap : (s.onQm f).cap = s.cap := rfl
@[simp] theorem State.onQm_fblk : (s.onQm f).fblk = s.fblk := rfl
@[simp] theorem State.onQm_cmp : (s.onQm f).cmp = s.cmp := rfl
@[simp] theorem State.onQm_lnk : (s.onQm f).lnk = s.lnk := rfl
@[simp] theorem State.onQm_cmd : (s.onQm f).cmd = s.cmd := rfl
@[simp] theorem State.onQm_red : (s.onQm f).red = s.red := rfl
@[simp] theorem State.onQm_mem : (s.onQm f).mem = s.mem := rfl
@[simp] theorem State.onQm_cal : (s.onQm f).cal = s.cal := rfl
@[simp] theorem State.onQm_pmcBlk : (s.onQm f).pmcBlk = s.pmcBlk := rfl
@[simp] theorem State.onQm_free : (s.onQm f).free = s.free := rfl
@[simp] theorem State.onQm_fresh : (s.onQm f).fresh = s.fresh := rfl
@[simp] theorem State.onQm_rd (a : Nat) : (s.onQm f).rd a = s.rd a := rfl
@[simp] theorem State.onQm_fld (a : Nat) (g : Fld) : (s.onQm f).fld a g = s.fld a g := rfl

end

section
variable (s : State) (f : Acq → Acq)

@[simp] theorem State.onAcq_now : (s.onAcq f).now = s.now := rfl
@[simp] theorem State.onAcq_pending : (s.onAcq f).pending = s.pending := rfl
@[simp] theorem State.onAcq_regs : (s.onAcq f).regs = s.regs := rfl
@[simp] theorem State.onAcq_nvm : (s.onAcq f).nvm = s.nvm := rfl
@[simp] theorem State.onAcq_bufs : (s.onAcq f).bufs = s.bufs := rfl
@[simp] theorem State.onAcq_sys : (s.onAcq f).sys = s.sys := rfl
@[simp] theorem State.onAcq_qm : (s.onAcq f).qm = s.qm := rfl
@[simp] theorem State.onAcq_acq : (s.onAcq f).acq = f s.acq := rfl
@[simp] theorem State.onAcq_tb : (s.onAcq f).tb = s.tb := rfl
@[simp] theorem State.onAcq_tiu : (s.onAcq f).tiu = s.tiu := rfl
@[simp] theorem State.onAcq_cap : (s.onAcq f).cap = s.cap := rfl
@[simp] theorem State.onAcq_fblk : (s.onAcq f).fblk = s.fblk := rfl
@[simp] theorem State.onAcq_cmp : (s.onAcq f).cmp = s.cmp := rfl
@[simp] theorem State.onAcq_lnk : (s.onAcq f).lnk = s.lnk := rfl
@[simp] theorem State.onAcq_cmd : (s.onAcq f).cmd = s.cmd := rfl
@[simp] theorem State.onAcq_red : (s.onAcq f).red = s.red := rfl
@[simp] theorem State.onAcq_mem : (s.onAcq f).mem = s.mem := rfl
@[simp] theorem State.onAcq_cal : (s.onAcq f).cal = s.cal := rfl
@[simp] theorem State.onAcq_pmcBlk : (s.onAcq f).pmcBlk = s.pmcBlk := rfl
@[simp] theorem State.onAcq_free : (s.onAcq f).free = s.free := rfl
@[simp] theorem State.onAcq_fresh : (s.onAcq f).fresh = s.fresh := rfl
@[simp] theorem State.onAcq_rd (a : Nat) : (s.onAcq f).rd a = s.rd a := rfl
@[simp] theorem State.onAcq_fld (a : Nat) (g : Fld) : (s.onAcq f).fld a g = s.fld a g := rfl

end

section
variable (s : State) (f : Tb → Tb)

@[simp] theorem State.onTb_now : (s.onTb f).now = s.now := rfl
@[simp] theorem State.onTb_pending : (s.onTb f).pending = s.pending := rfl
@[simp] theorem State.onTb_regs : (s.onTb f).regs = s.regs := rfl
@[simp] theorem State.onTb_nvm : (s.onTb f).nvm = s.nvm := rfl
@[simp] theorem State.onTb_bufs : (s.onTb f).bufs = s.bufs := rfl
@[simp] theorem State.onTb_sys : (s.onTb f).sys = s.sys := rfl
@[simp] theorem State.onTb_qm : (s.onTb f).qm = s.qm := rfl
@[simp] theorem State.onTb_acq : (s.onTb f).acq = s.acq := rfl
@[simp] theorem State.onTb_tb : (s.onTb f).tb = f s.tb := rfl
@[simp] theorem State.onTb_tiu : (s.onTb f).tiu = s.tiu := rfl
@[simp] theorem State.onTb_cap : (s.onTb f).cap = s.cap := rfl
@[simp] theorem State.onTb_fblk : (s.onTb f).fblk = s.fblk := rfl
@[simp] theorem State.onTb_cmp : (s.onTb f).cmp = s.cmp := rfl
@[simp] theorem State.onTb_lnk : (s.onTb f).lnk = s.lnk := rfl
@[simp] theorem State.onTb_cmd : (s.onTb f).cmd = s.cmd := rfl
@[simp] theorem State.onTb_red : (s.onTb f).red = s.red := rfl
@[simp] theorem State.onTb_mem : (s.onTb f).mem = s.mem := rfl
@[simp] theorem State.onTb_cal : (s.onTb f).cal = s.cal := rfl
@[simp] theorem State.onTb_pmcBlk : (s.onTb f).pmcBlk = s.pmcBlk := rfl
@[simp] theorem State.onTb_free : (s.onTb f).free = s.free := rfl
@[simp] theorem State.onTb_fresh : (s.onTb f).fresh = s.fresh := rfl
@[simp] theorem State.onTb_rd (a : Nat) : (s.onTb f).rd a = s.rd a := rfl
@[simp] theorem State.onTb_fld (a : Nat) (g : Fld) : (s.onTb f).fld a g = s.fld a g := rfl

end

section
variable (s : State) (f : Tiu → Tiu)

@[simp] theorem State.onTiu_now : (s.onTiu f).now = s.now := rfl
@[simp] theorem State.onTiu_pending : (s.onTiu f).pending = s.pending := rfl
@[simp] theorem State.onTiu_regs : (s.onTiu f).regs = s.regs := rfl
@[simp] theorem State.onTiu_nvm : (s.onTiu f).nvm = s.nvm := rfl
@[simp] theorem State.onTiu_bufs : (s.onTiu f).bufs = s.bufs := rfl
@[simp] theorem State.onTiu_sys : (s.onTiu f).sys = s.sys := rfl
@[simp] theorem State.onTiu_qm : (s.onTiu f).qm = s.qm := rfl
@[simp] theorem State.onTiu_acq : (s.onTiu f).acq = s.acq := rfl
@[simp] theorem State.onTiu_tb : (s.onTiu f).tb = s.tb := rfl
@[simp] theorem State.onTiu_tiu : (s.onTiu f).tiu = f s.tiu := rfl
@[simp] theorem State.onTiu_cap : (s.onTiu f).cap = s.cap := rfl
@[simp] theorem State.onTiu_fblk : (s.onTiu f).fblk = s.fblk := rfl
@[simp] theorem State.onTiu_cmp : (s.onTiu f).cmp = s.cmp := rfl
@[simp] theorem State.onTiu_lnk : (s.onTiu f).lnk = s.lnk := rfl
@[simp] theorem State.onTiu_cmd : (s.onTiu f).cmd = s.cmd := rfl
@[simp] theorem State.onTiu_red : (s.onTiu f).red = s.red := rfl
@[simp] theorem State.onTiu_mem : (s.onTiu f).mem = s.mem := rfl
@[simp] theorem State.onTiu_cal : (s.onTiu f).cal = s.cal := rfl
@[simp] theorem State.onTiu_pmcBlk : (s.onTiu f).pmcBlk = s.pmcBlk := rfl
@[simp] theorem State.onTiu_free : (s.onTiu f).free = s.free := rfl
@[simp] theorem State.onTiu_fresh : (s.onTiu f).fresh = s.fresh := rfl
@[simp] theorem State.onTiu_rd (a : Nat) : (s.onTiu f).rd a = s.rd a := rfl
@[simp] theorem State.onTiu_fld (a : Nat) (g : Fld) : (s.onTiu f).fld a g = s.fld a g := rfl

end

section
variable (s : State) (f : Cap → Cap)

@[simp] theorem State.onCap_now : (s.onCap f).now = s.now := rfl
@[simp] theorem State.onCap_pending : (s.onCap f).pending = s.pending := rfl
@[simp] theorem State.onCap_regs : (s.onCap f).regs = s.regs := rfl
@[simp] theorem State.onCap_nvm : (s.onCap f).nvm = s.nvm := rfl
@[simp] theorem State.onCap_bufs : (s.onCap f).bufs = s.bufs := rfl
@[simp] theorem State.onCap_sys : (s.onCap f).sys = s.sys := rfl
@[simp] theorem State.onCap_qm : (s.onCap f).qm = s.qm := rfl
@[simp] theorem State.onCap_acq : (s.onCap f).acq = s.acq := rfl
@[simp] theorem State.onCap_tb : (s.onCap f).tb = s.tb := rfl
@[simp] theorem State.onCap_tiu : (s.onCap f).tiu = s.tiu := rfl
@[simp] theorem State.onCap_cap : (s.onCap f).cap = f s.cap := rfl
@[simp] theorem State.onCap_fblk : (s.onCap f).fblk = s.fblk := rfl
@[simp] theorem State.onCap_cmp : (s.onCap f).cmp = s.cmp := rfl
@[simp] theorem State.onCap_lnk : (s.onCap f).lnk = s.lnk := rfl
@[simp] theorem State.onCap_cmd : (s.onCap f).cmd = s.cmd := rfl
@[simp] theorem State.onCap_red : (s.onCap f).red = s.red := rfl
@[simp] theorem State.onCap_mem : (s.onCap f).mem = s.mem := rfl
@[simp] theorem State.onCap_cal : (s.onCap f).cal = s.cal := rfl
@[simp] theorem State.onCap_pmcBlk : (s.onCap f).pmcBlk = s.pmcBlk := rfl
@[simp] theorem State.onCap_free : (s.onCap f).free = s.free := rfl
@[simp] theorem State.onCap_fresh : (s.onCap f).fresh = s.fresh := rfl
@[simp] theorem State.onCap_rd (a : Nat) : (s.onCap f).rd a = s.rd a := rfl
@[simp] theorem State.onCap_fld (a : Nat) (g : Fld) : (s.onCap f).fld a g = s.fld a g := rfl

end

section
variable (s : State) (f : FldS → FldS)

@[simp] theorem State.onFld_now : (s.onFld f).now = s.now := rfl
@[simp] theorem State.onFld_pending : (s.onFld f).pending = s.pending := rfl
@[simp] theorem State.onFld_regs : (s.onFld f).regs = s.regs := rfl
@[simp] theorem State.onFld_nvm : (s.onFld f).nvm = s.nvm := rfl
@[simp] theorem State.onFld_bufs : (s.onFld f).bufs = s.bufs := rfl
@[simp] theorem State.onFld_sys : (s.onFld f).sys = s.sys := rfl
@[simp] theorem State.onFld_qm : (s.onFld f).qm = s.qm := rfl
@[simp] theorem State.onFld_acq : (s.onFld f).acq = s.acq := rfl
@[simp] theorem State.onFld_tb : (s.onFld f).tb = s.tb := rfl
@[simp] theorem State.onFld_tiu : (s.onFld f).tiu = s.tiu := rfl
@[simp] theorem State.onFld_cap : (s.onFld f).cap = s.cap := rfl
@[simp] theorem State.onFld_fblk : (s.onFld f).fblk = f s.fblk := rfl
@[simp] theorem State.onFld_cmp : (s.onFld f).cmp = s.cmp := rfl
@[simp] theorem State.onFld_lnk : (s.onFld f).lnk = s.lnk := rfl
@[simp] theorem State.onFld_cmd : (s.onFld f).cmd = s.cmd := rfl
@[simp] theorem State.onFld_red : (s.onFld f).red = s.red := rfl
@[simp] theorem State.onFld_mem : (s.onFld f).mem = s.mem := rfl
@[simp] theorem State.onFld_cal : (s.onFld f).cal = s.cal := rfl
@[simp] theorem State.onFld_pmcBlk : (s.onFld f).pmcBlk = s.pmcBlk := rfl
@[simp] theorem State.onFld_free : (s.onFld f).free = s.free := rfl
@[simp] theorem State.onFld_fresh : (s.onFld f).fresh = s.fresh := rfl
@[simp] theorem State.onFld_rd (a : Nat) : (s.onFld f).rd a = s.rd a := rfl
@[simp] theorem State.onFld_fld (a : Nat) (g : Fld) : (s.onFld f).fld a g = s.fld a g := rfl

end

section
variable (s : State) (f : Cmp → Cmp)

@[simp] theorem State.onCmp_now : (s.onCmp f).now = s.now := rfl
@[simp] theorem State.onCmp_pending : (s.onCmp f).pending = s.pending := rfl
@[simp] theorem State.onCmp_regs : (s.onCmp f).regs = s.regs := rfl
@[simp] theorem State.onCmp_nvm : (s.onCmp f).nvm = s.nvm := rfl
@[simp] theorem State.onCmp_bufs : (s.onCmp f).bufs = s.bufs := rfl
@[simp] theorem State.onCmp_sys : (s.onCmp f).sys = s.sys := rfl
@[simp] theorem State.onCmp_qm : (s.onCmp f).qm = s.qm := rfl
@[simp] theorem State.onCmp_acq : (s.onCmp f).acq = s.acq := rfl
@[simp] theorem State.onCmp_tb : (s.onCmp f).tb = s.tb := rfl
@[simp] theorem State.onCmp_tiu : (s.onCmp f).tiu = s.tiu := rfl
@[simp] theorem State.onCmp_cap : (s.onCmp f).cap = s.cap := rfl
@[simp] theorem State.onCmp_fblk : (s.onCmp f).fblk = s.fblk := rfl
@[simp] theorem State.onCmp_cmp : (s.onCmp f).cmp = f s.cmp := rfl
@[simp] theorem State.onCmp_lnk : (s.onCmp f).lnk = s.lnk := rfl
@[simp] theorem State.onCmp_cmd : (s.onCmp f).cmd = s.cmd := rfl
@[simp] theorem State.onCmp_red : (s.onCmp f).red = s.red := rfl
@[simp] theorem State.onCmp_mem : (s.onCmp f).mem = s.mem := rfl
@[simp] theorem State.onCmp_cal : (s.onCmp f).cal = s.cal := rfl
@[simp] theorem State.onCmp_pmcBlk : (s.onCmp f).pmcBlk = s.pmcBlk := rfl
@[simp] theorem State.onCmp_free : (s.onCmp f).free = s.free := rfl
@[simp] theorem State.onCmp_fresh : (s.onCmp f).fresh = s.fresh := rfl
@[simp] theorem State.onCmp_rd (a : Nat) : (s.onCmp f).rd a = s.rd a := rfl
@[simp] theorem State.onCmp_fld (a : Nat) (g : Fld) : (s.onCmp f).fld a g = s.fld a g := rfl

end

section
variable (s : State) (f : Lnk → Lnk)

@[simp] theorem State.onLnk_now : (s.onLnk f).now = s.now := rfl
@[simp] theorem State.onLnk_pending : (s.onLnk f).pending = s.pending := rfl
@[simp] theorem State.onLnk_regs : (s.onLnk f).regs = s.regs := rfl
@[simp] theorem State.onLnk_nvm : (s.onLnk f).nvm = s.nvm := rfl
@[simp] theorem State.onLnk_bufs : (s.onLnk f).bufs = s.bufs := rfl
@[simp] theorem State.onLnk_sys : (s.onLnk f).sys = s.sys := rfl
@[simp] theorem State.onLnk_qm : (s.onLnk f).qm = s.qm := rfl
@[simp] theorem State.onLnk_acq : (s.onLnk f).acq = s.acq := rfl
@[simp] theorem State.onLnk_tb : (s.onLnk f).tb = s.tb := rfl
@[simp] theorem State.onLnk_tiu : (s.onLnk f).tiu = s.tiu := rfl
@[simp] theorem State.onLnk_cap : (s.onLnk f).cap = s.cap := rfl
@[simp] theorem State.onLnk_fblk : (s.onLnk f).fblk = s.fblk := rfl
@[simp] theorem State.onLnk_cmp : (s.onLnk f).cmp = s.cmp := rfl
@[simp] theorem State.onLnk_lnk : (s.onLnk f).lnk = f s.lnk := rfl
@[simp] theorem State.onLnk_cmd : (s.onLnk f).cmd = s.cmd := rfl
@[simp] theorem State.onLnk_red : (s.onLnk f).red = s.red := rfl
@[simp] theorem State.onLnk_mem : (s.onLnk f).mem = s.mem := rfl
@[simp] theorem State.onLnk_cal : (s.onLnk f).cal = s.cal := rfl
@[simp] theorem State.onLnk_pmcBlk : (s.onLnk f).pmcBlk = s.pmcBlk := rfl
@[simp] theorem State.onLnk_free : (s.onLnk f).free = s.free := rfl
@[simp] theorem State.onLnk_fresh : (s.onLnk f).fresh = s.fresh := rfl
@[simp] theorem State.onLnk_rd (a : Nat) : (s.onLnk f).rd a = s.rd a := rfl
@[simp] theorem State.onLnk_fld (a : Nat) (g : Fld) : (s.onLnk f).fld a g = s.fld a g := rfl

end

section
variable (s : State) (f : Cmd → Cmd)

@[simp] theorem State.onCmd_now : (s.onCmd f).now = s.now := rfl
@[simp] theorem State.onCmd_pending : (s.onCmd f).pending = s.pending := rfl
@[simp] theorem State.onCmd_regs : (s.onCmd f).regs = s.regs := rfl
@[simp] theorem State.onCmd_nvm : (s.onCmd f).nvm = s.nvm := rfl
@[simp] theorem State.onCmd_bufs : (s.onCmd f).bufs = s.bufs := rfl
@[simp] theorem State.onCmd_sys : (s.onCmd f).sys = s.sys := rfl
@[simp] theorem State.onCmd_qm : (s.onCmd f).qm = s.qm := rfl
@[simp] theorem State.onCmd_acq : (s.onCmd f).acq = s.acq := rfl
@[simp] theorem State.onCmd_tb : (s.onCmd f).tb = s.tb := rfl
@[simp] theorem State.onCmd_tiu : (s.onCmd f).tiu = s.tiu := rfl
@[simp] theorem State.onCmd_cap : (s.onCmd f).cap = s.cap := rfl
@[simp] theorem State.onCmd_fblk : (s.onCmd f).fblk = s.fblk := rfl
@[simp] theorem State.onCmd_cmp : (s.onCmd f).cmp = s.cmp := rfl
@[simp] theorem State.onCmd_lnk : (s.onCmd f).lnk = s.lnk := rfl
@[simp] theorem State.onCmd_cmd : (s.onCmd f).cmd = f s.cmd := rfl
@[simp] theorem State.onCmd_red : (s.onCmd f).red = s.red := rfl
@[simp] theorem State.onCmd_mem : (s.onCmd f).mem = s.mem := rfl
@[simp] theorem State.onCmd_cal : (s.onCmd f).cal = s.cal := rfl
@[simp] theorem State.onCmd_pmcBlk : (s.onCmd f).pmcBlk = s.pmcBlk := rfl
@[simp] theorem State.onCmd_free : (s.onCmd f).free = s.free := rfl
@[simp] theorem State.onCmd_fresh : (s.onCmd f).fresh = s.fresh := rfl
@[simp] theorem State.onCmd_rd (a : Nat) : (s.onCmd f).rd a = s.rd a := rfl
@[simp] theorem State.onCmd_fld (a : Nat) (g : Fld) : (s.onCmd f).fld a g = s.fld a g := rfl

end

section
variable (s : State) (f : Red → Red)

@[simp] theorem State.onRed_now : (s.onRed f).now = s.now := rfl
@[simp] theorem State.onRed_pending : (s.onRed f).pending = s.pending := rfl
@[simp] theorem State.onRed_regs : (s.onRed f).regs = s.regs := rfl
@[simp] theorem State.onRed_nvm : (s.onRed f).nvm = s.nvm := rfl
@[simp] theorem State.onRed_bufs : (s.onRed f).bufs = s.bufs := rfl
@[simp] theorem State.onRed_sys : (s.onRed f).sys = s.sys := rfl
@[simp] theorem State.onRed_qm : (s.onRed f).qm = s.qm := rfl
@[simp] theorem State.onRed_acq : (s.onRed f).acq = s.acq := rfl
@[simp] theorem State.onRed_tb : (s.onRed f).tb = s.tb := rfl
@[simp] theorem State.onRed_tiu : (s.onRed f).tiu = s.tiu := rfl
@[simp] theorem State.onRed_cap : (s.onRed f).cap = s.cap := rfl
@[simp] theorem State.onRed_fblk : (s.onRed f).fblk = s.fblk := rfl
@[simp] theorem State.onRed_cmp : (s.onRed f).cmp = s.cmp := rfl
@[simp] theorem State.onRed_lnk : (s.onRed f).lnk = s.lnk := rfl
@[simp] theorem State.onRed_cmd : (s.onRed f).cmd = s.cmd := rfl
@[simp] theorem State.onRed_red : (s.onRed f).red = f s.red := rfl
@[simp] theorem State.onRed_mem : (s.onRed f).mem = s.mem := rfl
@[simp] theorem State.onRed_cal : (s.onRed f).cal = s.cal := rfl
@[simp] theorem State.onRed_pmcBlk : (s.onRed f).pmcBlk = s.pmcBlk := rfl
@[simp] theorem State.onRed_free : (s.onRed f).free = s.free := rfl
@[simp] theorem State.onRed_fresh : (s.onRed f).fresh = s.fresh := rfl
@[simp] theorem State.onRed_rd (a : Nat) : (s.onRed f).rd a = s.rd a := rfl
@[simp] theorem State.onRed_fld (a : Nat) (g : Fld) : (s.onRed f).fld a g = s.fld a g := rfl

end

section
variable (s : State) (f : MemS → MemS)

@[simp] theorem State.onMem_now : (s.onMem f).now = s.now := rfl
@[simp] theorem State.onMem_pending : (s.onMem f).pending = s.pending := rfl
@[simp] theorem State.onMem_regs : (s.onMem f).regs = s.regs := rfl
@[simp] theorem State.onMem_nvm : (s.onMem f).nvm = s.nvm := rfl
@[simp] theorem State.onMem_bufs : (s.onMem f).bufs = s.bufs := rfl
@[simp] theorem State.onMem_sys : (s.onMem f).sys = s.sys := rfl
@[simp] theorem State.onMem_qm : (s.onMem f).qm = s.qm := rfl
@[simp] theorem State.onMem_acq : (s.onMem f).acq = s.acq := rfl
@[simp] theorem State.onMem_tb : (s.onMem f).tb = s.tb := rfl
@[simp] theorem State.onMem_tiu : (s.onMem f).tiu = s.tiu := rfl
@[simp] theorem State.onMem_cap : (s.onMem f).cap = s.cap := rfl
@[simp] theorem State.onMem_fblk : (s.onMem f).fblk = s.fblk := rfl
@[simp] theorem State.onMem_cmp : (s.onMem f).cmp = s.cmp := rfl
@[simp] theorem State.onMem_lnk : (s.onMem f).lnk = s.lnk := rfl
@[simp] theorem State.onMem_cmd : (s.onMem f).cmd = s.cmd := rfl
@[simp] theorem State.onMem_red : (s.onMem f).red = s.red := rfl
@[simp] theorem State.onMem_mem : (s.onMem f).mem = f s.mem := rfl
@[simp] theorem State.onMem_cal : (s.onMem f).cal = s.cal := rfl
@[simp] theorem State.onMem_pmcBlk : (s.onMem f).pmcBlk = s.pmcBlk := rfl
@[simp] theorem State.onMem_free : (s.onMem f).free = s.free := rfl
@[simp] theorem State.onMem_fresh : (s.onMem f).fresh = s.fresh := rfl
@[simp] theorem State.onMem_rd (a : Nat) : (s.onMem f).rd a = s.rd a := rfl
@[simp] theorem State.onMem_fld (a : Nat) (g : Fld) : (s.onMem f).fld a g = s.fld a g := rfl

end

section
variable (s : State) (f : Cal → Cal)

@[simp] theorem State.onCal_now : (s.onCal f).now = s.now := rfl
@[simp] theorem State.onCal_pending : (s.onCal f).pending = s.pending := rfl
@[simp] theorem State.onCal_regs : (s.onCal f).regs = s.regs := rfl
@[simp] theorem State.onCal_nvm : (s.onCal f).nvm = s.nvm := rfl
@[simp] theorem State.onCal_bufs : (s.onCal f).bufs = s.bufs := rfl
@[simp] theorem State.onCal_sys : (s.onCal f).sys = s.sys := rfl
@[simp] theorem State.onCal_qm : (s.onCal f).qm = s.qm := rfl
@[simp] theorem State.onCal_acq : (s.onCal f).acq = s.acq := rfl
@[simp] theorem State.onCal_tb : (s.onCal f).tb = s.tb := rfl
@[simp] theorem State.onCal_tiu : (s.onCal f).tiu = s.tiu := rfl
@[simp] theorem State.onCal_cap : (s.onCal f).cap = s.cap := rfl
@[simp] theorem State.onCal_fblk : (s.onCal f).fblk = s.fblk := rfl
@[simp] theorem State.onCal_cmp : (s.onCal f).cmp = s.cmp := rfl
@[simp] theorem State.onCal_lnk : (s.onCal f).lnk = s.lnk := rfl
@[simp] theorem State.onCal_cmd : (s.onCal f).cmd = s.cmd := rfl
@[simp] theorem State.onCal_red : (s.onCal f).red = s.red := rfl
@[simp] theorem State.onCal_mem : (s.onCal f).mem = s.mem := rfl
@[simp] theorem State.onCal_cal : (s.onCal f).cal = f s.cal := rfl
@[simp] theorem State.onCal_pmcBlk : (s.onCal f).pmcBlk = s.pmcBlk := rfl
@[simp] theorem State.onCal_free : (s.onCal f).free = s.free := rfl
@[simp] theorem State.onCal_fresh : (s.onCal f).fresh = s.fresh := rfl
@[simp] theorem State.onCal_rd (a : Nat) : (s.onCal f).rd a = s.rd a := rfl
@[simp] theorem State.onCal_fld (a : Nat) (g : Fld) : (s.onCal f).fld a g = s.fld a g := rfl

end

section
variable (s : State) (f : Pmc → Pmc)

@[simp] theorem State.onPmc_now : (s.onPmc f).now = s.now := rfl
@[simp] theorem State.onPmc_pending : (s.onPmc f).pending = s.pending := rfl
@[simp] theorem State.onPmc_regs : (s.onPmc f).regs = s.regs := rfl
@[simp] theorem State.onPmc_nvm : (s.onPmc f).nvm = s.nvm := rfl
@[simp] theorem State.onPmc_bufs : (s.onPmc f).bufs = s.bufs := rfl
@[simp] theorem State.onPmc_sys : (s.onPmc f).sys = s.sys := rfl
@[simp] theorem State.onPmc_qm : (s.onPmc f).qm = s.qm := rfl
@[simp] theorem State.onPmc_acq : (s.onPmc f).acq = s.acq := rfl
@[simp] theorem State.onPmc_tb : (s.onPmc f).tb = s.tb := rfl
@[simp] theorem State.onPmc_tiu : (s.onPmc f).tiu = s.tiu := rfl
@[simp] theorem State.onPmc_cap : (s.onPmc f).cap = s.cap := rfl
@[simp] theorem State.onPmc_fblk : (s.onPmc f).fblk = s.fblk := rfl
@[simp] theorem State.onPmc_cmp : (s.onPmc f).cmp = s.cmp := rfl
@[simp] theorem State.onPmc_lnk : (s.onPmc f).lnk = s.lnk := rfl
@[simp] theorem State.onPmc_cmd : (s.onPmc f).cmd = s.cmd := rfl
@[simp] theorem State.onPmc_red : (s.onPmc f).red = s.red := rfl
@[simp] theorem State.onPmc_mem : (s.onPmc f).mem = s.mem := rfl
@[simp] theorem State.onPmc_cal : (s.onPmc f).cal = s.cal := rfl
@[simp] theorem State.onPmc_pmcBlk : (s.onPmc f).pmcBlk = f s.pmcBlk := rfl
@[simp] theorem State.onPmc_free : (s.onPmc f).free = s.free := rfl
@[simp] theorem State.onPmc_fresh : (s.onPmc f).fresh = s.fresh := rfl
@[simp] theorem State.onPmc_rd (a : Nat) : (s.onPmc f).rd a = s.rd a := rfl
@[simp] theorem State.onPmc_fld (a : Nat) (g : Fld) : (s.onPmc f).fld a g = s.fld a g := rfl

end

section
variable (s : State) (f : Nvm → Nvm)

@[simp] theorem State.onNvm_now : (s.onNvm f).now = s.now := rfl
@[simp] theorem State.onNvm_pending : (s.onNvm f).pending = s.pending := rfl
@[simp] theorem State.onNvm_regs : (s.onNvm f).regs = s.regs := rfl
@[simp] theorem State.onNvm_nvm : (s.onNvm f).nvm = f s.nvm := rfl
@[simp] theorem State.onNvm_bufs : (s.onNvm f).bufs = s.bufs := rfl
@[simp] theorem State.onNvm_sys : (s.onNvm f).sys = s.sys := rfl
@[simp] theorem State.onNvm_qm : (s.onNvm f).qm = s.qm := rfl
@[simp] theorem State.onNvm_acq : (s.onNvm f).acq = s.acq := rfl
@[simp] theorem State.onNvm_tb : (s.onNvm f).tb = s.tb := rfl
@[simp] theorem State.onNvm_tiu : (s.onNvm f).tiu = s.tiu := rfl
@[simp] theorem State.onNvm_cap : (s.onNvm f).cap = s.cap := rfl
@[simp] theorem State.onNvm_fblk : (s.onNvm f).fblk = s.fblk := rfl
@[simp] theorem State.onNvm_cmp : (s.onNvm f).cmp = s.cmp := rfl
@[simp] theorem State.onNvm_lnk : (s.onNvm f).lnk = s.lnk := rfl
@[simp] theorem State.onNvm_cmd : (s.onNvm f).cmd = s.cmd := rfl
@[simp] theorem State.onNvm_red : (s.onNvm f).red = s.red := rfl
@[simp] theorem State.onNvm_mem : (s.onNvm f).mem = s.mem := rfl
@[simp] theorem State.onNvm_cal : (s.onNvm f).cal = s.cal := rfl
@[simp] theorem State.onNvm_pmcBlk : (s.onNvm f).pmcBlk = s.pmcBlk := rfl
@[simp] theorem State.onNvm_free : (s.onNvm f).free = s.free := rfl
@[simp] theorem State.onNvm_fresh : (s.onNvm f).fresh = s.fresh := rfl
@[simp] theorem State.onNvm_rd (a : Nat) : (s.onNvm f).rd a = s.rd a := rfl
@[simp] theorem State.onNvm_fld (a : Nat) (g : Fld) : (s.onNvm f).fld a g = s.fld a g := rfl

end

section
variable (s : State) (a : Nat) (w : Word)

@[simp] theorem State.wr_now : (s.wr a w).now = s.now := rfl
@[simp] theorem State.wr_pending : (s.wr a w).pending = s.pending := rfl
@[simp] theorem State.wr_regs : (s.wr a w).regs = Tab.set (resetWord a) s.regs a w := rfl
@[simp] theorem State.wr_nvm : (s.wr a w).nvm = s.nvm := rfl
@[simp] theorem State.wr_bufs : (s.wr a w).bufs = s.bufs := rfl
@[simp] theorem State.wr_sys : (s.wr a w).sys = s.sys := rfl
@[simp] theorem State.wr_qm : (s.wr a w).qm = s.qm := rfl
@[simp] theorem State.wr_acq : (s.wr a w).acq = s.acq := rfl
@[simp] theorem State.wr_tb : (s.wr a w).tb = s.tb := rfl
@[simp] theorem State.wr_tiu : (s.wr a w).tiu = s.tiu := rfl
@[simp] theorem State.wr_cap : (s.wr a w).cap = s.cap := rfl
@[simp] theorem State.wr_fblk : (s.wr a w).fblk = s.fblk := rfl
@[simp] theorem State.wr_cmp : (s.wr a w).cmp = s.cmp := rfl
@[simp] theorem State.wr_lnk : (s.wr a w).lnk = s.lnk := rfl
@[simp] theorem State.wr_cmd : (s.wr a w).cmd = s.cmd := rfl
@[simp] theorem State.wr_red : (s.wr a w).red = s.red := rfl
@[simp] theorem State.wr_mem : (s.wr a w).mem = s.mem := rfl
@[simp] theorem State.wr_cal : (s.wr a w).cal = s.cal := rfl
@[simp] theorem State.wr_pmcBlk : (s.wr a w).pmcBlk = s.pmcBlk := rfl
@[simp] theorem State.wr_free : (s.wr a w).free = s.free := rfl
@[simp] theorem State.wr_fresh : (s.wr a w).fresh = s.fresh := rfl

end

section
variable (s : State) (t : Nat)

@[simp] theorem State.advance_now : (s.advance t).now = max s.now t := rfl
@[simp] theorem State.advance_pending : (s.advance t).pending = s.pending := rfl
@[simp] theorem State.advance_regs : (s.advance t).regs = s.regs := rfl
@[simp] theorem State.advance_nvm : (s.advance t).nvm = s.nvm := rfl
@[simp] theorem State.advance_bufs : (s.advance t).bufs = s.bufs := rfl
@[simp] theorem State.advance_sys : (s.advance t).sys = s.sys := rfl
@[simp] theorem State.advance_qm : (s.advance t).qm = s.qm := rfl
@[simp] theorem State.advance_acq : (s.advance t).acq = s.acq := rfl
@[simp] theorem State.advance_tb : (s.advance t).tb = s.tb := rfl
@[simp] theorem State.advance_tiu : (s.advance t).tiu = s.tiu := rfl
@[simp] theorem State.advance_cap : (s.advance t).cap = s.cap := rfl
@[simp] theorem State.advance_fblk : (s.advance t).fblk = s.fblk := rfl
@[simp] theorem State.advance_cmp : (s.advance t).cmp = s.cmp := rfl
@[simp] theorem State.advance_lnk : (s.advance t).lnk = s.lnk := rfl
@[simp] theorem State.advance_cmd : (s.advance t).cmd = s.cmd := rfl
@[simp] theorem State.advance_red : (s.advance t).red = s.red := rfl
@[simp] theorem State.advance_mem : (s.advance t).mem = s.mem := rfl
@[simp] theorem State.advance_cal : (s.advance t).cal = s.cal := rfl
@[simp] theorem State.advance_free : (s.advance t).free = s.free := rfl
@[simp] theorem State.advance_fresh : (s.advance t).fresh = s.fresh := rfl
@[simp] theorem State.advance_rd (b : Nat) : (s.advance t).rd b = s.rd b := rfl
@[simp] theorem State.advance_fld (b : Nat) (g : Fld) : (s.advance t).fld b g = s.fld b g := rfl

end

section
variable (s : State) (t : Nat)

@[simp] theorem State.setNow_now : (s.setNow t).now = t := rfl
@[simp] theorem State.setNow_pending : (s.setNow t).pending = s.pending := rfl
@[simp] theorem State.setNow_regs : (s.setNow t).regs = s.regs := rfl
@[simp] theorem State.setNow_nvm : (s.setNow t).nvm = s.nvm := rfl
@[simp] theorem State.setNow_bufs : (s.setNow t).bufs = s.bufs := rfl
@[simp] theorem State.setNow_sys : (s.setNow t).sys = s.sys := rfl
@[simp] theorem State.setNow_qm : (s.setNow t).qm = s.qm := rfl
@[simp] theorem State.setNow_acq : (s.setNow t).acq = s.acq := rfl
@[simp] theorem State.setNow_tb : (s.setNow t).tb = s.tb := rfl
@[simp] theorem State.setNow_tiu : (s.setNow t).tiu = s.tiu := rfl
@[simp] theorem State.setNow_cap : (s.setNow t).cap = s.cap := rfl
@[simp] theorem State.setNow_fblk : (s.setNow t).fblk = s.fblk := rfl
@[simp] theorem State.setNow_cmp : (s.setNow t).cmp = s.cmp := rfl
@[simp] theorem State.setNow_lnk : (s.setNow t).lnk = s.lnk := rfl
@[simp] theorem State.setNow_cmd : (s.setNow t).cmd = s.cmd := rfl
@[simp] theorem State.setNow_red : (s.setNow t).red = s.red := rfl
@[simp] theorem State.setNow_mem : (s.setNow t).mem = s.mem := rfl
@[simp] theorem State.setNow_cal : (s.setNow t).cal = s.cal := rfl
@[simp] theorem State.setNow_pmcBlk : (s.setNow t).pmcBlk = s.pmcBlk := rfl
@[simp] theorem State.setNow_free : (s.setNow t).free = s.free := rfl
@[simp] theorem State.setNow_fresh : (s.setNow t).fresh = s.fresh := rfl
@[simp] theorem State.setNow_rd (b : Nat) : (s.setNow t).rd b = s.rd b := rfl
@[simp] theorem State.setNow_fld (b : Nat) (g : Fld) : (s.setNow t).fld b g = s.fld b g := rfl

end

section
variable (s : State) 

@[simp] theorem State.draw_now : (s.draw.2).now = s.now := rfl
@[simp] theorem State.draw_pending : (s.draw.2).pending = s.pending := rfl
@[simp] theorem State.draw_regs : (s.draw.2).regs = s.regs := rfl
@[simp] theorem State.draw_nvm : (s.draw.2).nvm = s.nvm := rfl
@[simp] theorem State.draw_bufs : (s.draw.2).bufs = s.bufs := rfl
@[simp] theorem State.draw_sys : (s.draw.2).sys = s.sys := rfl
@[simp] theorem State.draw_qm : (s.draw.2).qm = s.qm := rfl
@[simp] theorem State.draw_acq : (s.draw.2).acq = s.acq := rfl
@[simp] theorem State.draw_tb : (s.draw.2).tb = s.tb := rfl
@[simp] theorem State.draw_tiu : (s.draw.2).tiu = s.tiu := rfl
@[simp] theorem State.draw_cap : (s.draw.2).cap = s.cap := rfl
@[simp] theorem State.draw_fblk : (s.draw.2).fblk = s.fblk := rfl
@[simp] theorem State.draw_cmp : (s.draw.2).cmp = s.cmp := rfl
@[simp] theorem State.draw_lnk : (s.draw.2).lnk = s.lnk := rfl
@[simp] theorem State.draw_cmd : (s.draw.2).cmd = s.cmd := rfl
@[simp] theorem State.draw_red : (s.draw.2).red = s.red := rfl
@[simp] theorem State.draw_mem : (s.draw.2).mem = s.mem := rfl
@[simp] theorem State.draw_cal : (s.draw.2).cal = s.cal := rfl
@[simp] theorem State.draw_pmcBlk : (s.draw.2).pmcBlk = s.pmcBlk := rfl
@[simp] theorem State.draw_free : (s.draw.2).free = s.free + 1 := rfl
@[simp] theorem State.draw_fresh : (s.draw.2).fresh = s.fresh := rfl
@[simp] theorem State.draw_rd (b : Nat) : (s.draw.2).rd b = s.rd b := rfl
@[simp] theorem State.draw_fld (b : Nat) (g : Fld) : (s.draw.2).fld b g = s.fld b g := rfl

end

section
variable (s : State) (k : Nat) (bs : List Byte)

@[simp] theorem State.putWork_now : (s.putWork k bs).now = s.now := rfl
@[simp] theorem State.putWork_pending : (s.putWork k bs).pending = s.pending := rfl
@[simp] theorem State.putWork_regs : (s.putWork k bs).regs = s.regs := rfl
@[simp] theorem State.putWork_nvm : (s.putWork k bs).nvm = s.nvm := rfl
@[simp] theorem State.putWork_bufs : (s.putWork k bs).bufs = { s.bufs with work := Mem.writeBytes 0#8 s.bufs.work k bs } := rfl
@[simp] theorem State.putWork_sys : (s.putWork k bs).sys = s.sys := rfl
@[simp] theorem State.putWork_qm : (s.putWork k bs).qm = s.qm := rfl
@[simp] theorem State.putWork_acq : (s.putWork k bs).acq = s.acq := rfl
@[simp] theorem State.putWork_tb : (s.putWork k bs).tb = s.tb := rfl
@[simp] theorem State.putWork_tiu : (s.putWork k bs).tiu = s.tiu := rfl
@[simp] theorem State.putWork_cap : (s.putWork k bs).cap = s.cap := rfl
@[simp] theorem State.putWork_fblk : (s.putWork k bs).fblk = s.fblk := rfl
@[simp] theorem State.putWork_cmp : (s.putWork k bs).cmp = s.cmp := rfl
@[simp] theorem State.putWork_lnk : (s.putWork k bs).lnk = s.lnk := rfl
@[simp] theorem State.putWork_cmd : (s.putWork k bs).cmd = s.cmd := rfl
@[simp] theorem State.putWork_red : (s.putWork k bs).red = s.red := rfl
@[simp] theorem State.putWork_mem : (s.putWork k bs).mem = s.mem := rfl
@[simp] theorem State.putWork_cal : (s.putWork k bs).cal = s.cal := rfl
@[simp] theorem State.putWork_pmcBlk : (s.putWork k bs).pmcBlk = s.pmcBlk := rfl
@[simp] theorem State.putWork_free : (s.putWork k bs).free = s.free := rfl
@[simp] theorem State.putWork_fresh : (s.putWork k bs).fresh = s.fresh := rfl
@[simp] theorem State.putWork_rd (b : Nat) : (s.putWork k bs).rd b = s.rd b := rfl
@[simp] theorem State.putWork_fld (b : Nat) (g : Fld) : (s.putWork k bs).fld b g = s.fld b g := rfl

end

section
variable (s : State) (k i : Nat) (bs : List Byte)

@[simp] theorem State.program_now : (s.program k i bs).now = s.now := rfl
@[simp] theorem State.program_pending : (s.program k i bs).pending = s.pending := rfl
@[simp] theorem State.program_regs : (s.program k i bs).regs = s.regs := rfl
@[simp] theorem State.program_nvm : (s.program k i bs).nvm = s.nvm := rfl
@[simp] theorem State.program_bufs : (s.program k i bs).bufs = { s.bufs with flash := programFlash s.bufs.flash k i bs } := rfl
@[simp] theorem State.program_sys : (s.program k i bs).sys = s.sys := rfl
@[simp] theorem State.program_qm : (s.program k i bs).qm = s.qm := rfl
@[simp] theorem State.program_acq : (s.program k i bs).acq = s.acq := rfl
@[simp] theorem State.program_tb : (s.program k i bs).tb = s.tb := rfl
@[simp] theorem State.program_tiu : (s.program k i bs).tiu = s.tiu := rfl
@[simp] theorem State.program_cap : (s.program k i bs).cap = s.cap := rfl
@[simp] theorem State.program_fblk : (s.program k i bs).fblk = s.fblk := rfl
@[simp] theorem State.program_cmp : (s.program k i bs).cmp = s.cmp := rfl
@[simp] theorem State.program_lnk : (s.program k i bs).lnk = s.lnk := rfl
@[simp] theorem State.program_cmd : (s.program k i bs).cmd = s.cmd := rfl
@[simp] theorem State.program_red : (s.program k i bs).red = s.red := rfl
@[simp] theorem State.program_mem : (s.program k i bs).mem = s.mem := rfl
@[simp] theorem State.program_cal : (s.program k i bs).cal = s.cal := rfl
@[simp] theorem State.program_pmcBlk : (s.program k i bs).pmcBlk = s.pmcBlk := rfl
@[simp] theorem State.program_free : (s.program k i bs).free = s.free := rfl
@[simp] theorem State.program_fresh : (s.program k i bs).fresh = s.fresh := rfl
@[simp] theorem State.program_rd (b : Nat) : (s.program k i bs).rd b = s.rd b := rfl
@[simp] theorem State.program_fld (b : Nat) (g : Fld) : (s.program k i bs).fld b g = s.fld b g := rfl

end

section
variable (s : State) (a lo n : Nat)

@[simp] theorem State.mark_now : (s.mark a lo n).now = s.now := rfl
@[simp] theorem State.mark_pending : (s.mark a lo n).pending = s.pending := rfl
@[simp] theorem State.mark_regs : (s.mark a lo n).regs = s.regs := rfl
@[simp] theorem State.mark_nvm : (s.mark a lo n).nvm = s.nvm := rfl
@[simp] theorem State.mark_bufs : (s.mark a lo n).bufs = s.bufs := rfl
@[simp] theorem State.mark_sys : (s.mark a lo n).sys = s.sys := rfl
@[simp] theorem State.mark_qm : (s.mark a lo n).qm = s.qm := rfl
@[simp] theorem State.mark_acq : (s.mark a lo n).acq = s.acq := rfl
@[simp] theorem State.mark_tb : (s.mark a lo n).tb = s.tb := rfl
@[simp] theorem State.mark_tiu : (s.mark a lo n).tiu = s.tiu := rfl
@[simp] theorem State.mark_cap : (s.mark a lo n).cap = s.cap := rfl
@[simp] theorem State.mark_fblk : (s.mark a lo n).fblk = s.fblk := rfl
@[simp] theorem State.mark_cmp : (s.mark a lo n).cmp = s.cmp := rfl
@[simp] theorem State.mark_lnk : (s.mark a lo n).lnk = s.lnk := rfl
@[simp] theorem State.mark_cmd : (s.mark a lo n).cmd = s.cmd := rfl
@[simp] theorem State.mark_red : (s.mark a lo n).red = s.red := rfl
@[simp] theorem State.mark_mem : (s.mark a lo n).mem = s.mem := rfl
@[simp] theorem State.mark_cal : (s.mark a lo n).cal = s.cal := rfl
@[simp] theorem State.mark_pmcBlk : (s.mark a lo n).pmcBlk = s.pmcBlk := rfl
@[simp] theorem State.mark_free : (s.mark a lo n).free = s.free := rfl
@[simp] theorem State.mark_fresh : (s.mark a lo n).fresh = (s.fresh.filter fun e => e.clock == s.clock) ++ [⟨s.clock, a, lo, n⟩] := rfl
@[simp] theorem State.mark_rd (b : Nat) : (s.mark a lo n).rd b = s.rd b := rfl
@[simp] theorem State.mark_fld (b : Nat) (g : Fld) : (s.mark a lo n).fld b g = s.fld b g := rfl

end

end Sys2Proof.Machine
end

