-- ==== Sys2Proof/Laws/Keep.lean ====
section
/-!
SUPPORT. What a meaning may touch. Every change of state in the model is one of the few kinds of `Prim`; the lemmas
`…_keep` of the files KeepA and on say, for each function, which kinds it uses, so that whatever is closed under those
kinds is kept by it: a frame, or an invariant.
-/

namespace Sys2Proof.Machine

set_option Elab.async false

open Reg Bits

/-- The kinds of change: the event log with its counters, a register of an array, any register, one sub-state, time with
PMC_CYCLE, the instant alone, the free counter, the DRAM work area, flash, a hub reset, the guard on NVM of R473, the record of what
the present clock has set (00_scope.md R9), and a memory word written whole (14_memory_and_ecc.md R444). -/
inductive Prim where
  | log
  | arr (base step count : Nat)
  | anyReg
  | sys
  | qm
  | acq
  | tb
  | tiu
  | cap
  | fblk
  | cmp
  | lnk
  | cmd
  | red
  | mem
  | cal
  | pmc
  | nvm
  | time
  | now
  | free
  | work
  | flash
  | reset
  | guard
  | fresh
  | mend
  deriving DecidableEq, Repr

/-- Every kind. -/
def Prim.every : List Prim :=
  [.log, .anyReg, .sys, .qm, .acq, .tb, .tiu, .cap, .fblk, .cmp, .lnk]
    ++ [.cmd, .red, .mem, .cal, .pmc, .nvm, .time, .now, .free, .work, .flash, .reset, .guard, .fresh, .mend]

/-- The registers that issuing events and counting occurrences may change: SYS_BB_STAT, QM_DROP_STAT, QM_Q_FLAGS, PMC_STAT,
PMC_CNT. -/
def logAddr (a : Nat) : Prop :=
  a = SYS_BB_STAT ∨ a = QM_DROP_STAT ∨ a = PMC_STAT ∨ (∃ q, a = QM_Q_FLAGS q) ∨ ∃ i, a = PMC_CNT i

/-- `P` outlasts the changes of the event log. -/
structure LogClosed (P : State → Prop) : Prop where
  wr : ∀ s a w, logAddr a → P s → P (s.wr a w)
  limits : ∀ s l, P s → P (s.onSys fun y => { y with limits := l })
  dropped : ∀ s, P s → P (s.onSys fun y => { y with bbDropped := y.bbDropped + 1 })
  bb : ∀ s b (g : Nvm → Nat), P s → P (s.onNvm fun n => { n with bb := b, bbNext := g n })
  mark : ∀ s a lo n, P s → P (s.mark a lo n)
  ovf : ∀ s (g : Pmc → Nat × Nat), P s → P (s.onPmc fun x => { x with ovfWas := g x })

/-- `P` outlasts one kind of change. -/
def Prim.Closed (P : State → Prop) : Prim → Prop
  | .log => LogClosed P
  | .arr b st n => ∀ s a w, InArray b st n a → P s → P (s.wr a w)
  | .anyReg => ∀ s a w, P s → P (s.wr a w)
  | .sys => ∀ s f, P s → P (s.onSys f)
  | .qm => ∀ s f, P s → P (s.onQm f)
  | .acq => ∀ s f, P s → P (s.onAcq f)
  | .tb => ∀ s f, P s → P (s.onTb f)
  | .tiu => ∀ s f, P s → P (s.onTiu f)
  | .cap => ∀ s f, P s → P (s.onCap f)
  | .fblk => ∀ s f, P s → P (s.onFld f)
  | .cmp => ∀ s f, P s → P (s.onCmp f)
  | .lnk => ∀ s f, P s → P (s.onLnk f)
  | .cmd => ∀ s f, P s → P (s.onCmd f)
  | .red => ∀ s f, P s → P (s.onRed f)
  | .mem => ∀ s f, P s → P (s.onMem f)
  | .cal => ∀ s f, P s → P (s.onCal f)
  | .pmc => ∀ s f, P s → P (s.onPmc f)
  | .nvm => ∀ s f, P s → P (s.onNvm f)
  | .time => ∀ s t, P s → P (s.advance t)
  | .now => ∀ s t, P s → P (s.setNow t)
  | .free => ∀ s, P s → P s.draw.2
  | .work => ∀ s o bs, P s → P (s.putWork o bs)
  | .flash => ∀ s k o bs, P s → P (s.program k o bs)
  | .reset => ∀ s c, P s → P (s.hubReset c)
  | .guard => ∀ s u, P s → P u → P (State.guardNvm s u)
  | .fresh => ∀ s a lo n, P s → P (s.mark a lo n)
  | .mend => ∀ s m off len, P s → P (s.wroteWhole m off len)

/-- `P` outlasts the kinds of change of a list. -/
def Keeps (l : List Prim) (P : State → Prop) : Prop := ∀ q ∈ l, q.Closed P

/-- Is the kind among those of a list, or a register where the list has any register? -/
def Prim.within (l : List Prim) : Prim → Bool
  | .arr b st n => l.contains .anyReg || l.contains (.arr b st n)
  | q => l.contains q

theorem Keeps.sub {l l' : List Prim} {P : State → Prop} (k : Keeps l P) (h : l'.all (Prim.within l) = true := by rfl) : Keeps l' P := by
  intro q hq
  have := List.all_eq_true.mp h q hq
  cases q with
  | arr b st n =>
    rcases Bool.or_eq_true _ _ ▸ this with h | h
    · exact fun s a w _ hs => k .anyReg (by simpa using h) s a w hs
    · exact k _ (by simpa using h)
  | _ => exact k _ (by simpa [Prim.within] using this)

theorem Keeps.at {l : List Prim} {P : State → Prop} (k : Keeps l P) (q : Prim) (h : Prim.within l q = true := by rfl) : q.Closed P :=
  (k.sub (l' := [q]) (by simpa using h)) q (by simp)

/-- The state of an outcome of a body keeps `P`. -/
def Res.Holds (P : State → Prop) : Res → Prop
  | .reply s _ _ => P s
  | .long s => P s
  | .quiet s => P s

theorem checked_keep {P : State → Prop} {s : State} {l : List (Option Nat)} {r : Res} (h : P s) (hr : r.Holds P) : (checked s l r).Holds P := by
  unfold checked
  split
  · exact h
  · exact hr

theorem foldl_keep {α : Type} {P : State → Prop} {f : State → α → State} {l : List α} {s : State}
    (hf : ∀ s x, P s → P (f s x)) (h : P s) : P (l.foldl f s) := by
  induction l generalizing s with
  | nil => exact h
  | cons x l ih => exact ih (hf s x h)

theorem foldl_keep_on {α β : Type} {P : State → Prop} (g : β → State) {f : β → α → β} {l : List α} {b : β}
    (hf : ∀ b x, P (g b) → P (g (f b x))) (h : P (g b)) : P (g (l.foldl f b)) := by
  induction l generalizing b with
  | nil => exact h
  | cons x l ih => exact ih (hf b x h)

theorem setFld_keep {P : State → Prop} {l : List Prim} (k : Keeps l P) (b st n : Nat) {s : State} {a : Nat} {f : Fld} {v : Nat}
    (ha : InArray b st n a) (h : P s) (hf : f.lo + f.width ≤ 32 := by decide)
    (hn : Prim.within l (.arr b st n) = true := by rfl) : P (s.setFld a f v) := by
  unfold State.setFld
  rw [if_pos hf]
  exact k.at _ hn _ _ _ ha h

theorem wr64_keep {P : State → Prop} {l : List Prim} (k : Keeps l P) (b st n : Nat) {s : State} {a v : Nat} (ha : InArray b st n a) (h : P s)
    (hn : Prim.within l (.arr b st n) = true := by rfl)
    (hn' : Prim.within l (.arr (b + 4) st n) = true := by rfl) : P (s.wr64 a v) := by
  refine k.at _ hn' _ _ _ ?_ (k.at _ hn _ _ _ ha h)
  obtain ⟨i, rfl⟩ := ha
  exact ⟨i, by omega⟩

theorem setFld_keep_wide {P : State → Prop} {l : List Prim} (k : Keeps l P) (b st n : Nat) {s : State} {a : Nat} {f : Fld} {v : Nat}
    (ha : InArray b st n a) (h : P s) (hn : Prim.within l (.arr b st n) = true := by rfl)
    (hn' : Prim.within l (.arr (b + 4) st n) = true := by rfl) : P (s.setFld a f v) := by
  unfold State.setFld
  split
  · exact k.at _ hn _ _ _ ha h
  · exact wr64_keep k b st n ha h hn hn'

theorem wr64_keep_any {P : State → Prop} {l : List Prim} (k : Keeps l P) {s : State} {a v : Nat} (h : P s)
    (hn : Prim.within l .anyReg = true := by rfl) : P (s.wr64 a v) := k.at _ hn _ _ _ (k.at _ hn _ _ _ h)

theorem setFld_keep_any {P : State → Prop} {l : List Prim} (k : Keeps l P) {s : State} {a : Nat} {f : Fld} {v : Nat} (h : P s)
    (hn : Prim.within l .anyReg = true := by rfl) : P (s.setFld a f v) := by
  unfold State.setFld
  split
  · exact k.at _ hn _ _ _ h
  · exact wr64_keep_any k h hn

theorem setFld_keep_log {P : State → Prop} {l : List Prim} (k : Keeps l P) {s : State} {a : Nat} {f : Fld} {v : Nat} (ha : logAddr a) (h : P s)
    (hf : f.lo + f.width ≤ 32 := by decide) (hn : Prim.within l .log = true := by rfl) : P (s.setFld a f v) := by
  unfold State.setFld
  rw [if_pos hf]
  exact (k.at _ hn).wr _ _ _ ha h

theorem bumpBy_keep {P : State → Prop} {l : List Prim} (k : Keeps l P) (b st n : Nat) {s : State} {a : Nat} {f : Fld} {v : Nat}
    (ha : InArray b st n a) (h : P s) (hf : f.lo + f.width ≤ 32 := by decide)
    (hn : Prim.within l (.arr b st n) = true := by rfl)
    (hm : Prim.within l .fresh = true := by rfl) : P (s.bumpBy a f v) :=
  k.at _ hm _ _ _ _ (setFld_keep k b st n ha h hf hn)

theorem bumpBy_keep_log {P : State → Prop} {l : List Prim} (k : Keeps l P) {s : State} {a : Nat} {f : Fld} {v : Nat} (ha : logAddr a) (h : P s)
    (hf : f.lo + f.width ≤ 32 := by decide) (hn : Prim.within l .log = true := by rfl) : P (s.bumpBy a f v) :=
  (k.at _ hn).mark _ _ _ _ (setFld_keep_log k ha h hf hn)

theorem bump_keep {P : State → Prop} {l : List Prim} (k : Keeps l P) (b st n : Nat) {s : State} {a : Nat} {f : Fld}
    (ha : InArray b st n a) (h : P s) (hf : f.lo + f.width ≤ 32 := by decide)
    (hn : Prim.within l (.arr b st n) = true := by rfl)
    (hm : Prim.within l .fresh = true := by rfl) : P (s.bump a f) :=
  k.at _ hm _ _ _ _ (setFld_keep k b st n ha h hf hn)

theorem bump_keep_log {P : State → Prop} {l : List Prim} (k : Keeps l P) {s : State} {a : Nat} {f : Fld} (ha : logAddr a) (h : P s)
    (hf : f.lo + f.width ≤ 32 := by decide) (hn : Prim.within l .log = true := by rfl) : P (s.bump a f) :=
  (k.at _ hn).mark _ _ _ _ (setFld_keep_log k ha h hf hn)

theorem setBit_keep {P : State → Prop} {l : List Prim} (k : Keeps l P) (b st n : Nat) {s : State} {a : Nat} {f : Fld} {v : Nat}
    (ha : InArray b st n a) (h : P s) (hf : f.lo + f.width ≤ 32 := by decide)
    (hn : Prim.within l (.arr b st n) = true := by rfl)
    (hm : Prim.within l .fresh = true := by rfl) : P (s.setBit a f v) :=
  k.at _ hm _ _ _ _ (setFld_keep k b st n ha h hf hn)

theorem setBit_keep_log {P : State → Prop} {l : List Prim} (k : Keeps l P) {s : State} {a : Nat} {f : Fld} {v : Nat} (ha : logAddr a) (h : P s)
    (hf : f.lo + f.width ≤ 32 := by decide) (hn : Prim.within l .log = true := by rfl) : P (s.setBit a f v) :=
  (k.at _ hn).mark _ _ _ _ (setFld_keep_log k ha h hf hn)

theorem logAddr_bb : logAddr SYS_BB_STAT := Or.inl rfl
theorem logAddr_drop : logAddr QM_DROP_STAT := Or.inr (Or.inl rfl)
theorem logAddr_ovf : logAddr PMC_STAT := Or.inr (Or.inr (Or.inl rfl))
theorem logAddr_flags (q : Nat) : logAddr (QM_Q_FLAGS q) := Or.inr (Or.inr (Or.inr (Or.inl ⟨q, rfl⟩)))
theorem logAddr_cnt (i : Nat) : logAddr (PMC_CNT i) := Or.inr (Or.inr (Or.inr (Or.inr ⟨i, rfl⟩)))

end Sys2Proof.Machine
end

