-- ==== Sys2Proof/Laws/KeepA.lean ====
section
/-!
SUPPORT. What the operations of Machine/Ops, Pool, Events, Ecc, Route, Queue, Packets, Links, Head may touch: one lemma per function (Laws/Keep.lean).
-/

namespace Sys2Proof.Machine

set_option Elab.async false

open Reg Bits

theorem State.onCh_keep {P : State → Prop} (k : Keeps [.acq] P) {s1 : State} {a2 : _} {a3 : _} (h1 : P s1) : P (State.onCh s1 a2 a3) := by
  unfold State.onCh
  refine (k.at .acq) _ _ ?_
  assumption

theorem State.onBay_keep {P : State → Prop} (k : Keeps [.acq] P) {s1 : State} {a2 : _} {a3 : _} (h1 : P s1) : P (State.onBay s1 a2 a3) := by
  unfold State.onBay
  refine (k.at .acq) _ _ ?_
  assumption

theorem State.onTakeover_keep {P : State → Prop} (k : Keeps [.acq] P) {s1 : State} {a2 : _} {a3 : _} (h1 : P s1) : P (State.onTakeover s1 a2 a3) := by
  unfold State.onTakeover
  refine (k.at .acq) _ _ ?_
  assumption

theorem State.onTransom_keep {P : State → Prop} (k : Keeps [.acq] P) {s1 : State} {a2 : _} (h1 : P s1) : P (State.onTransom s1 a2) := by
  unfold State.onTransom
  refine (k.at .acq) _ _ ?_
  assumption

theorem State.onStrm_keep {P : State → Prop} (k : Keeps [.acq] P) {s1 : State} {a2 : _} {a3 : _} (h1 : P s1) : P (State.onStrm s1 a2 a3) := by
  unfold State.onStrm
  refine (k.at .acq) _ _ ?_
  assumption

theorem State.onDet_keep {P : State → Prop} (k : Keeps [.acq] P) {s1 : State} {a2 : _} {a3 : _} (h1 : P s1) : P (State.onDet s1 a2 a3) := by
  unfold State.onDet
  refine (k.at .acq) _ _ ?_
  assumption

theorem State.onDom_keep {P : State → Prop} (k : Keeps [.tb] P) {s1 : State} {a2 : _} {a3 : _} (h1 : P s1) : P (State.onDom s1 a2 a3) := by
  unfold State.onDom
  refine (k.at .tb) _ _ ?_
  assumption

theorem State.onPtime_keep {P : State → Prop} (k : Keeps [.tb] P) {s1 : State} {a2 : _} {a3 : _} (h1 : P s1) : P (State.onPtime s1 a2 a3) := by
  unfold State.onPtime
  refine (k.at .tb) _ _ ?_
  assumption

theorem State.onAct_keep {P : State → Prop} (k : Keeps [.tb] P) {s1 : State} {a2 : _} {a3 : _} (h1 : P s1) : P (State.onAct s1 a2 a3) := by
  unfold State.onAct
  refine (k.at .tb) _ _ ?_
  assumption

theorem State.onCore_keep {P : State → Prop} (k : Keeps [.tiu] P) {s1 : State} {a2 : _} {a3 : _} (h1 : P s1) : P (State.onCore s1 a2 a3) := by
  unfold State.onCore
  refine (k.at .tiu) _ _ ?_
  assumption

theorem State.onUnit_keep {P : State → Prop} (k : Keeps [.cap] P) {s1 : State} {a2 : _} {a3 : _} (h1 : P s1) : P (State.onUnit s1 a2 a3) := by
  unfold State.onUnit
  refine (k.at .cap) _ _ ?_
  assumption

theorem State.onEng_keep {P : State → Prop} (k : Keeps [.cap] P) {s1 : State} {a2 : _} {a3 : _} (h1 : P s1) : P (State.onEng s1 a2 a3) := by
  unfold State.onEng
  refine (k.at .cap) _ _ ?_
  assumption

theorem State.onQst_keep {P : State → Prop} (k : Keeps [.qm] P) {s1 : State} {a2 : _} {a3 : _} (h1 : P s1) : P (State.onQst s1 a2 a3) := by
  unfold State.onQst
  refine (k.at .qm) _ _ ?_
  assumption

theorem State.onPort_keep {P : State → Prop} (k : Keeps [.lnk] P) {s1 : State} {a2 : _} {a3 : _} (h1 : P s1) : P (State.onPort s1 a2 a3) := by
  unfold State.onPort
  refine (k.at .lnk) _ _ ?_
  assumption

theorem State.onLane_keep {P : State → Prop} (k : Keeps [.lnk] P) {s1 : State} {a2 : _} {a3 : _} (h1 : P s1) : P (State.onLane s1 a2 a3) := by
  unfold State.onLane
  refine (k.at .lnk) _ _ ?_
  assumption

theorem State.onFport_keep {P : State → Prop} (k : Keeps [.fblk] P) {s1 : State} {a2 : _} {a3 : _} (h1 : P s1) : P (State.onFport s1 a2 a3) := by
  unfold State.onFport
  refine (k.at .fblk) _ _ ?_
  assumption

theorem State.onDec_keep {P : State → Prop} (k : Keeps [.fblk] P) {s1 : State} {a2 : _} {a3 : _} (h1 : P s1) : P (State.onDec s1 a2 a3) := by
  unfold State.onDec
  refine (k.at .fblk) _ _ ?_
  assumption

theorem State.onTrip_keep {P : State → Prop} (k : Keeps [.fblk] P) {s1 : State} {a2 : _} {a3 : _} (h1 : P s1) : P (State.onTrip s1 a2 a3) := by
  unfold State.onTrip
  refine (k.at .fblk) _ _ ?_
  assumption

theorem State.onFout_keep {P : State → Prop} (k : Keeps [.fblk] P) {s1 : State} {a2 : _} {a3 : _} (h1 : P s1) : P (State.onFout s1 a2 a3) := by
  unfold State.onFout
  refine (k.at .fblk) _ _ ?_
  assumption

theorem State.onWit_keep {P : State → Prop} (k : Keeps [.red] P) {s1 : State} {a2 : _} {a3 : _} (h1 : P s1) : P (State.onWit s1 a2 a3) := by
  unfold State.onWit
  refine (k.at .red) _ _ ?_
  assumption

theorem State.wroteCells_keep {P : State → Prop} (k : Keeps [.mend] P) {s1 : State} {a2 : _} {a3 : _} (h1 : P s1) : P (State.wroteCells s1 a2 a3) := by
  unfold State.wroteCells
  split
  · assumption
  · refine foldl_keep (fun t0 x1 e2 => ?_) ?_
    · refine (k.at .mend) _ _ _ _ ?_
      assumption
    · assumption

theorem State.enqueue_keep {P : State → Prop} (k : Keeps [.mend, .qm] P) {s1 : State} {a2 : _} (h1 : P s1) : P (State.enqueue s1 a2) := by
  unfold State.enqueue
  extract_lets +onlyGivenNames x0
  extract_lets +onlyGivenNames x1
  extract_lets +onlyGivenNames x2
  have e3 : P x2 := by
    unfold x2
    refine State.wroteCells_keep k.sub ?_
    assumption
  clear_value x2
  refine (k.at .qm) _ _ ?_
  assumption

theorem State.mirrorBB_keep {P : State → Prop} (k : Keeps [.log, .qm, .mend] P) {s1 : State} {a2 : _} (h1 : P s1) : P (State.mirrorBB s1 a2) := by
  unfold State.mirrorBB
  extract_lets +onlyGivenNames x0
  split
  · refine bump_keep_log k logAddr_bb ?_
    assumption
  · split
    · refine (k.at .qm) _ _ ?_
      assumption
    · split
      · refine bump_keep_log k logAddr_bb ?_
        assumption
      · refine State.enqueue_keep k.sub ?_
        assumption

theorem State.bbCommit_keep {P : State → Prop} (k : Keeps [.log, .qm, .mend] P) {s1 : State} {a2 : _} {a3 : _} (h1 : P s1) : P (State.bbCommit s1 a2 a3) := by
  unfold State.bbCommit
  split
  · assumption
  · extract_lets +onlyGivenNames x0
    extract_lets +onlyGivenNames x1
    refine State.mirrorBB_keep k.sub ?_
    refine (k.at .log).bb _ _ _ ?_
    assumption

theorem State.bbEvent_keep {P : State → Prop} (k : Keeps [.log, .qm, .mend] P) {s1 : State} {a2 : _} {a3 : _} (h1 : P s1) : P (State.bbEvent s1 a2 a3) := by
  unfold State.bbEvent
  split
  · refine State.bbCommit_keep k.sub ?_
    assumption
  · split
    · assumption
    · split
      · refine (k.at .log).dropped _ ?_
        refine bump_keep_log k logAddr_bb ?_
        assumption
      · refine State.bbCommit_keep k.sub ?_
        refine setFld_keep_log k logAddr_bb ?_
        assumption

theorem State.addRec_keep {P : State → Prop} (k : Keeps [.mend, .qm] P) {s1 : State} {a2 : _} (h1 : P s1) : P (State.addRec s1 a2) := by
  unfold State.addRec
  split
  · assumption
  · extract_lets +onlyGivenNames x0
    extract_lets +onlyGivenNames x1
    have e2 : P x1 := by
      unfold x1
      refine State.wroteCells_keep k.sub ?_
      assumption
    clear_value x1
    refine (k.at .qm) _ _ ?_
    assumption

theorem State.nextSeq_keep {P : State → Prop} (k : Keeps [.qm] P) {s1 : State} {a2 : _} (h1 : P s1) : P (State.nextSeq s1 a2).2 := by
  unfold State.nextSeq
  dsimp -zeta only
  refine (k.at .qm) _ _ ?_
  assumption

theorem State.addSeqRec_keep {P : State → Prop} (k : Keeps [.mend, .qm] P) {s1 : State} {a2 : _} (h1 : P s1) : P (State.addSeqRec s1 a2) := by
  unfold State.addSeqRec
  split
  · assumption
  · extract_lets +onlyGivenNames x0
    refine State.addRec_keep k.sub ?_
    refine State.nextSeq_keep k.sub ?_
    assumption

theorem State.closeEvents_keep {P : State → Prop} (k : Keeps [.mend, .qm] P) {s1 : State} (h1 : P s1) : P (State.closeEvents s1) := by
  unfold State.closeEvents
  split
  · assumption
  · extract_lets +onlyGivenNames x0
    refine State.addSeqRec_keep k.sub ?_
    refine (k.at .qm) _ _ ?_
    assumption

theorem State.placeEvent_keep {P : State → Prop} (k : Keeps [.mend, .qm] P) {s1 : State} {a2 : _} {a3 : _} (h1 : P s1) : P (State.placeEvent s1 a2 a3) := by
  unfold State.placeEvent
  extract_lets +onlyGivenNames x0
  extract_lets +onlyGivenNames x1
  extract_lets +onlyGivenNames x2
  have e3 : P x2 := by
    unfold x2
    split
    · split
      · assumption
      · refine State.closeEvents_keep k.sub ?_
        assumption
    · assumption
  clear_value x2
  extract_lets +onlyGivenNames x4
  extract_lets +onlyGivenNames x5
  have e6 : P x5 := by
    unfold x5
    refine (k.at .qm) _ _ ?_
    assumption
  clear_value x5
  split
  · refine State.closeEvents_keep k.sub ?_
    assumption
  · assumption

theorem State.recordEvent_keep {P : State → Prop} (k : Keeps [.qm, .log, .mend] P) {s1 : State} {a2 : _} {a3 : _} (h1 : P s1) : P (State.recordEvent s1 a2 a3) := by
  unfold State.recordEvent
  split
  · assumption
  · split
    · refine (k.at .qm) _ _ ?_
      refine bump_keep_log k logAddr_drop ?_
      assumption
    · refine State.placeEvent_keep k.sub ?_
      assumption

theorem State.issue_keep {P : State → Prop} (k : Keeps [.qm, .log, .mend] P) {s1 : State} {a2 : _} {a3 : _} (h1 : P s1) : P (State.issue s1 a2 a3) := by
  unfold State.issue
  refine State.recordEvent_keep k.sub ?_
  refine State.bbEvent_keep k.sub ?_
  assumption

theorem State.issueLim_keep {P : State → Prop} (k : Keeps [.qm, .log, .mend] P) {s1 : State} {a2 : _} {a3 : _} {a4 : _} {a5 : _} {a6 : _} {a7 : _} {a8 : _} (h1 : P s1) : P (State.issueLim s1 a2 a3 a4 a5 a6 a7 a8) := by
  unfold State.issueLim
  extract_lets +onlyGivenNames x0
  extract_lets +onlyGivenNames x1
  extract_lets +onlyGivenNames x2
  extract_lets +onlyGivenNames x3
  split
  · refine State.issue_keep k.sub ?_
    refine (k.at .log).limits _ _ ?_
    assumption
  · refine (k.at .log).limits _ _ ?_
    assumption

theorem State.flushLimits_keep {P : State → Prop} (k : Keeps [.qm, .log, .mend] P) {s1 : State} (h1 : P s1) : P (State.flushLimits s1) := by
  unfold State.flushLimits
  extract_lets +onlyGivenNames x0
  extract_lets +onlyGivenNames x1
  extract_lets +onlyGivenNames x2
  extract_lets +onlyGivenNames x3
  refine foldl_keep (fun t4 x5 e6 => ?_) ?_
  · refine State.issue_keep k.sub ?_
    assumption
  · refine (k.at .log).limits _ _ ?_
    assumption

theorem State.pmcPut_keep {P : State → Prop} (k : Keeps [.log] P) {s1 : State} {a2 : _} {a3 : _} (h1 : P s1) : P (State.pmcPut s1 a2 a3) := by
  unfold State.pmcPut
  refine (k.at .log).mark _ _ _ _ ?_
  refine setFld_keep_log k (logAddr_cnt _) ?_
  assumption

theorem State.pmcAdd_keep {P : State → Prop} (k : Keeps [.log, .qm, .mend] P) {s1 : State} {a2 : _} {a3 : _} (h1 : P s1) : P (State.pmcAdd s1 a2 a3) := by
  unfold State.pmcAdd
  extract_lets +onlyGivenNames x0
  extract_lets +onlyGivenNames x1
  have e2 : P x1 := by
    unfold x1
    refine State.pmcPut_keep k.sub ?_
    assumption
  clear_value x1
  split
  · assumption
  · split
    · split
      · refine State.pmcPut_keep k.sub ?_
        assumption
      · assumption
    · extract_lets +onlyGivenNames x3
      have e4 : P x3 := by
        unfold x3
        refine (k.at .log).ovf _ _ ?_
        assumption
      clear_value x3
      refine State.issueLim_keep k.sub ?_
      refine setBit_keep_log k logAddr_ovf ?_
      assumption

theorem State.pmc_keep {P : State → Prop} (k : Keeps [.log, .qm, .mend] P) {s1 : State} {a2 : _} {a3 : _} {a4 : _} (h1 : P s1) : P (State.pmc s1 a2 a3 a4) := by
  unfold State.pmc
  split
  · assumption
  · refine foldl_keep (fun t0 x1 e2 => ?_) ?_
    · split
      · refine State.pmcAdd_keep k.sub ?_
        assumption
      · assumption
    · assumption

theorem State.heal_keep {P : State → Prop} (k : Keeps [.mem] P) {s1 : State} {a2 : _} {a3 : _} (h1 : P s1) : P (State.heal s1 a2 a3) := by
  unfold State.heal
  refine (k.at .mem) _ _ ?_
  assumption

theorem State.poison_keep {P : State → Prop} (k : Keeps [.mem] P) {s1 : State} {a2 : _} {a3 : _} (h1 : P s1) : P (State.poison s1 a2 a3) := by
  unfold State.poison
  refine (k.at .mem) _ _ ?_
  refine State.heal_keep k.sub ?_
  assumption

theorem State.memInfo_keep {P : State → Prop} (k : Keeps [.arr (MEM_ERR_INFO 0) 32 5, .free, .arr (MEM_ERR_ADDR 0) 32 5, .arr (MEM_ERR_ADDR 0 + 4) 32 5] P) {s1 : State} {a2 : _} {a3 : _} {a4 : _} {a5 : _} {a6 : _} (h1 : P s1) : P (State.memInfo s1 a2 a3 a4 a5 a6) := by
  unfold State.memInfo
  extract_lets +onlyGivenNames x0
  split
  · assumption
  · extract_lets +onlyGivenNames x1
    extract_lets +onlyGivenNames x2
    extract_lets +onlyGivenNames x3
    have e4 : P x3 := by
      unfold x3
      refine setFld_keep k (MEM_ERR_INFO 0) 32 5 ⟨_, rfl⟩ ?_
      refine setFld_keep k (MEM_ERR_INFO 0) 32 5 ⟨_, rfl⟩ ?_
      refine setFld_keep k (MEM_ERR_INFO 0) 32 5 ⟨_, rfl⟩ ?_
      refine setFld_keep k (MEM_ERR_INFO 0) 32 5 ⟨_, rfl⟩ ?_
      unfold x1
      refine (k.at .free) _ ?_
      assumption
    clear_value x3
    refine wr64_keep k (MEM_ERR_ADDR 0) 32 5 ⟨_, rfl⟩ ?_
    assumption

theorem State.memCorrected_keep {P : State → Prop} (k : Keeps [.arr (MEM_ERR 0) 32 5, .fresh, .arr (MEM_ERR_INFO 0) 32 5, .free, .arr (MEM_ERR_ADDR 0) 32 5, .arr (MEM_ERR_ADDR 0 + 4) 32 5, .qm, .log, .mend, .mem] P) {s1 : State} {a2 : _} {a3 : _} {a4 : _} {a5 : _} {a6 : _} (h1 : P s1) : P (State.memCorrected s1 a2 a3 a4 a5 a6) := by
  unfold State.memCorrected
  extract_lets +onlyGivenNames x0
  have e1 : P x0 := by
    unfold x0
    refine bump_keep k (MEM_ERR 0) 32 5 ⟨_, rfl⟩ ?_
    refine State.memInfo_keep k.sub ?_
    assumption
  clear_value x0
  extract_lets +onlyGivenNames x2
  have e3 : P x2 := by
    unfold x2
    refine State.issueLim_keep k.sub ?_
    refine State.pmc_keep k.sub ?_
    assumption
  clear_value x2
  split
  · refine State.heal_keep k.sub ?_
    assumption
  · assumption

theorem State.memUncorrectable_keep {P : State → Prop} (k : Keeps [.qm, .log, .mend, .arr (MEM_ERR 0) 32 5, .fresh, .arr (MEM_ERR_INFO 0) 32 5, .free, .arr (MEM_ERR_ADDR 0) 32 5, .arr (MEM_ERR_ADDR 0 + 4) 32 5] P) {s1 : State} {a2 : _} {a3 : _} {a4 : _} {a5 : _} {a6 : _} (h1 : P s1) : P (State.memUncorrectable s1 a2 a3 a4 a5 a6) := by
  unfold State.memUncorrectable
  refine State.issueLim_keep k.sub ?_
  refine bump_keep k (MEM_ERR 0) 32 5 ⟨_, rfl⟩ ?_
  refine State.memInfo_keep k.sub ?_
  assumption

theorem State.memFound_keep {P : State → Prop} (k : Keeps [.qm, .log, .mend, .arr (MEM_ERR 0) 32 5, .fresh, .arr (MEM_ERR_INFO 0) 32 5, .free, .arr (MEM_ERR_ADDR 0) 32 5, .arr (MEM_ERR_ADDR 0 + 4) 32 5, .mem] P) {s1 : State} {a2 : _} {a3 : _} {a4 : _} (h1 : P s1) : P (State.memFound s1 a2 a3 a4) := by
  unfold State.memFound
  extract_lets +onlyGivenNames x0
  have e1 : P x0 := by
    unfold x0
    refine State.memUncorrectable_keep k.sub ?_
    assumption
  clear_value x0
  split
  · assumption
  · refine State.poison_keep k.sub ?_
    assumption

theorem State.memRead_keep {P : State → Prop} (k : Keeps [.arr (MEM_ERR 0) 32 5, .fresh, .arr (MEM_ERR_INFO 0) 32 5, .free, .arr (MEM_ERR_ADDR 0) 32 5, .arr (MEM_ERR_ADDR 0 + 4) 32 5, .qm, .log, .mend, .mem] P) {s1 : State} {a2 : _} {a3 : _} {a4 : _} (h1 : P s1) : P (State.memRead s1 a2 a3 a4).2 := by
  unfold State.memRead
  split
  · assumption
  · split
    · dsimp -zeta only
      refine State.memCorrected_keep k.sub ?_
      assumption
    · dsimp -zeta only
      refine State.memFound_keep k.sub ?_
      assumption

theorem State.memReadRange_keep {P : State → Prop} (k : Keeps [.arr (MEM_ERR 0) 32 5, .fresh, .arr (MEM_ERR_INFO 0) 32 5, .free, .arr (MEM_ERR_ADDR 0) 32 5, .arr (MEM_ERR_ADDR 0 + 4) 32 5, .qm, .log, .mend, .mem] P) {s1 : State} {a2 : _} {a3 : _} {a4 : _} {a5 : _} (h1 : P s1) : P (State.memReadRange s1 a2 a3 a4 a5).2 := by
  unfold State.memReadRange
  extract_lets +onlyGivenNames x0
  refine foldl_keep_on (fun z : Bool × State => z.2) (fun b1 x2 e3 => ?_) ?_
  · extract_lets +onlyGivenNames x4
    refine State.memRead_keep k.sub ?_
    assumption
  · assumption

theorem State.memWriteRange_keep {P : State → Prop} (k : Keeps [.mend, .arr (MEM_ERR 0) 32 5, .fresh, .arr (MEM_ERR_INFO 0) 32 5, .free, .arr (MEM_ERR_ADDR 0) 32 5, .arr (MEM_ERR_ADDR 0 + 4) 32 5, .qm, .log, .mem] P) {s1 : State} {a2 : _} {a3 : _} {a4 : _} {a5 : _} (h1 : P s1) : P (State.memWriteRange s1 a2 a3 a4 a5).2 := by
  unfold State.memWriteRange
  extract_lets +onlyGivenNames x0
  refine foldl_keep_on (fun z : Bool × State => z.2) (fun b1 x2 e3 => ?_) ?_
  · extract_lets +onlyGivenNames x4
    split
    · dsimp -zeta only
      refine (k.at .mend) _ _ _ _ ?_
      assumption
    · split
      · dsimp -zeta only
        refine State.memCorrected_keep k.sub ?_
        assumption
      · dsimp -zeta only
        refine State.memFound_keep k.sub ?_
        assumption
  · assumption

theorem State.toQ61_keep {P : State → Prop} (k : Keeps [.mend, .qm] P) {s1 : State} {a2 : _} {a3 : _} (h1 : P s1) : P (State.toQ61 s1 a2 a3) := by
  unfold State.toQ61
  refine State.enqueue_keep k.sub ?_
  assumption

theorem State.pushC_keep {P : State → Prop} (k : Keeps [.mend, .qm] P) {s1 : State} {a2 : _} {a3 : _} {a4 : _} {a5 : _} (h1 : P s1) : P (State.pushC s1 a2 a3 a4 a5) := by
  unfold State.pushC
  refine State.enqueue_keep k.sub ?_
  assumption

theorem State.pushT_keep {P : State → Prop} (k : Keeps [.mend, .qm] P) {s1 : State} {a2 : _} {a3 : _} {a4 : _} (h1 : P s1) : P (State.pushT s1 a2 a3 a4) := by
  unfold State.pushT
  refine State.enqueue_keep k.sub ?_
  assumption

theorem State.holdItem_keep {P : State → Prop} (k : Keeps [.qm] P) {s1 : State} {a2 : _} (h1 : P s1) : P (State.holdItem s1 a2) := by
  unfold State.holdItem
  refine (k.at .qm) _ _ ?_
  assumption

theorem State.forward_keep {P : State → Prop} (k : Keeps [.qm, .mend] P) {s1 : State} {a2 : _} {a3 : _} {a4 : _} (h1 : P s1) : P (State.forward s1 a2 a3 a4) := by
  unfold State.forward
  extract_lets +onlyGivenNames x0
  extract_lets +onlyGivenNames x1
  split
  · refine State.holdItem_keep k.sub ?_
    assumption
  · refine foldl_keep (fun t2 x3 e4 => ?_) ?_
    · refine State.pushC_keep k.sub ?_
      assumption
    · assumption

theorem State.sendPacket_keep {P : State → Prop} (k : Keeps [.mend, .qm] P) {s1 : State} {a2 : _} {a3 : _} (h1 : P s1) : P (State.sendPacket s1 a2 a3) := by
  unfold State.sendPacket
  split
  · refine State.toQ61_keep k.sub ?_
    assumption
  · refine State.forward_keep k.sub ?_
    assumption

theorem State.onRecs_keep {P : State → Prop} (k : Keeps [.qm] P) {s1 : State} {a2 : _} {a3 : _} (h1 : P s1) : P (State.onRecs s1 a2 a3) := by
  unfold State.onRecs
  refine (k.at .qm) _ _ ?_
  assumption

theorem State.onRec_keep {P : State → Prop} (k : Keeps [.qm] P) {s1 : State} {a2 : _} {a3 : _} (h1 : P s1) : P (State.onRec s1 a2 a3) := by
  unfold State.onRec
  refine State.onRecs_keep k.sub ?_
  assumption

theorem State.markGapFollows_keep {P : State → Prop} (k : Keeps [.qm] P) {s1 : State} {a2 : _} {a3 : _} {a4 : _} {a5 : _} (h1 : P s1) : P (State.markGapFollows s1 a2 a3 a4 a5) := by
  unfold State.markGapFollows
  extract_lets +onlyGivenNames x0
  refine State.onRecs_keep k.sub ?_
  assumption

theorem State.addGap_keep {P : State → Prop} (k : Keeps [.qm, .mend, .log] P) {s1 : State} {a2 : _} {a3 : _} {a4 : _} {a5 : _} {a6 : _} {a7 : _} {a8 : _} (h1 : P s1) : P (State.addGap s1 a2 a3 a4 a5 a6 a7 a8) := by
  unfold State.addGap
  extract_lets +onlyGivenNames x0
  have e1 : P x0 := by
    unfold x0
    refine State.markGapFollows_keep k.sub ?_
    assumption
  clear_value x0
  extract_lets +onlyGivenNames x2
  extract_lets +onlyGivenNames x3
  split
  · refine State.onRec_keep k.sub ?_
    assumption
  · refine State.addSeqRec_keep k.sub ?_
    refine bump_keep_log k logAddr_drop ?_
    assumption

theorem State.freeRec_keep {P : State → Prop} (k : Keeps [.qm] P) {s1 : State} {a2 : _} (h1 : P s1) : P (State.freeRec s1 a2) := by
  unfold State.freeRec
  refine (k.at .qm) _ _ ?_
  assumption

theorem State.dropRec_keep {P : State → Prop} (k : Keeps [.qm, .mend, .log] P) {s1 : State} {a2 : _} {a3 : _} (h1 : P s1) : P (State.dropRec s1 a2 a3) := by
  unfold State.dropRec
  refine State.addGap_keep k.sub ?_
  refine State.freeRec_keep k.sub ?_
  assumption

theorem State.pushed_keep {P : State → Prop} (k : Keeps [.log, .qm, .mend] P) {s1 : State} {a2 : _} {a3 : _} (h1 : P s1) : P (State.pushed s1 a2 a3) := by
  unfold State.pushed
  extract_lets +onlyGivenNames x0
  have e1 : P x0 := by
    unfold x0
    refine State.pmc_keep k.sub ?_
    assumption
  clear_value x0
  split
  · assumption
  · refine State.onQst_keep k.sub ?_
    assumption

theorem State.underrun_keep {P : State → Prop} (k : Keeps [.qm, .fresh, .log] P) {s1 : State} {a2 : _} (h1 : P s1) : P (State.underrun s1 a2) := by
  unfold State.underrun
  refine State.onQst_keep k.sub ?_
  refine (k.at .fresh) _ _ _ _ ?_
  refine setBit_keep_log k (logAddr_flags _) ?_
  assumption

theorem State.pushRec_keep {P : State → Prop} (k : Keeps [.qm, .log, .mend] P) {s1 : State} {a2 : _} (h1 : P s1) : P (State.pushRec s1 a2) := by
  unfold State.pushRec
  split
  · assumption
  · extract_lets +onlyGivenNames x0
    extract_lets +onlyGivenNames x1
    extract_lets +onlyGivenNames x2
    have e3 : P x2 := by
      unfold x2
      refine State.onRec_keep k.sub ?_
      assumption
    clear_value x2
    extract_lets +onlyGivenNames x4
    have e5 : P x4 := by
      unfold x4
      refine State.pmc_keep k.sub ?_
      assumption
    clear_value x4
    split
    · assumption
    · extract_lets +onlyGivenNames x6
      extract_lets +onlyGivenNames x7
      have e8 : P x7 := by
        unfold x7
        refine State.onRec_keep k.sub ?_
        assumption
      clear_value x7
      refine State.pushed_keep k.sub ?_
      assumption

theorem State.pushItems_keep {P : State → Prop} (k : Keeps [.log, .qm, .mend] P) {s1 : State} {a2 : _} {a3 : _} (h1 : P s1) : P (State.pushItems s1 a2 a3) := by
  induction a3 generalizing s1 a2 with
  | nil => exact (k.at .qm) _ _ h1
  | cons x l ih =>
    unfold State.pushItems
    exact ih (State.pushed_keep k.sub h1)

theorem State.routeMirror_keep {P : State → Prop} (k : Keeps [.qm] P) {s1 : State} (h1 : P s1) : P (State.routeMirror s1) := by
  unfold State.routeMirror
  split
  · refine (k.at .qm) _ _ ?_
    assumption
  · split
    · assumption
    · split
      · refine (k.at .qm) _ _ ?_
        assumption
      · assumption

theorem State.routeAnnounce_keep {P : State → Prop} (k : Keeps [.mend, .qm, .log] P) {s1 : State} (h1 : P s1) : P (State.routeAnnounce s1) := by
  unfold State.routeAnnounce
  extract_lets +onlyGivenNames x0
  split
  · assumption
  · extract_lets +onlyGivenNames x1
    extract_lets +onlyGivenNames x2
    have e3 : P x2 := by
      unfold x2
      refine foldl_keep (fun t4 x5 e6 => ?_) ?_
      · split
        · refine State.sendPacket_keep k.sub ?_
          assumption
        · assumption
      · refine (k.at .qm) _ _ ?_
        assumption
    clear_value x2
    refine State.pushItems_keep k.sub ?_
    assumption

theorem State.watermark_keep {P : State → Prop} (k : Keeps [.qm, .log, .mend] P) {s1 : State} {a2 : _} (h1 : P s1) : P (State.watermark s1 a2) := by
  unfold State.watermark
  extract_lets +onlyGivenNames x0
  extract_lets +onlyGivenNames x1
  extract_lets +onlyGivenNames x2
  extract_lets +onlyGivenNames x3
  split
  · refine State.onQst_keep k.sub ?_
    assumption
  · split
    · assumption
    · split
      · refine State.issueLim_keep k.sub ?_
        refine bump_keep_log k (logAddr_flags _) ?_
        refine setBit_keep_log k (logAddr_flags _) ?_
        refine State.onQst_keep k.sub ?_
        assumption
      · split
        · refine State.issueLim_keep k.sub ?_
          refine State.onQst_keep k.sub ?_
          assumption
        · assumption

theorem State.easeEvents_keep {P : State → Prop} (k : Keeps [.qm, .mend, .log] P) {s1 : State} {a2 : _} (h1 : P s1) : P (State.easeEvents s1 a2) := by
  induction a2 generalizing s1 with
  | zero => exact h1
  | succ n ih =>
    unfold State.easeEvents
    extract_lets +onlyGivenNames x0
    clear_value x0
    split
    · assumption
    · split
      · exact ih (State.dropRec_keep k.sub h1)
      · assumption

theorem State.discardShut_keep {P : State → Prop} (k : Keeps [.qm, .mend, .log] P) {s1 : State} (h1 : P s1) : P (State.discardShut s1) := by
  unfold State.discardShut
  split
  · assumption
  · extract_lets +onlyGivenNames x0
    refine foldl_keep (fun t1 x2 e3 => ?_) ?_
    · refine State.dropRec_keep k.sub ?_
      assumption
    · assumption

theorem State.retNormal_keep {P : State → Prop} (k : Keeps [.qm, .log, .mend] P) {s1 : State} (h1 : P s1) : P (State.retNormal s1) := by
  unfold State.retNormal
  split
  · refine (k.at .qm) _ _ ?_
    refine State.issue_keep k.sub ?_
    refine setFld_keep_log k logAddr_drop ?_
    assumption
  · assumption

theorem State.reportWithheld_keep {P : State → Prop} (k : Keeps [.qm, .log, .mend] P) {s1 : State} (h1 : P s1) : P (State.reportWithheld s1) := by
  unfold State.reportWithheld
  split
  · assumption
  · refine State.issue_keep k.sub ?_
    refine (k.at .qm) _ _ ?_
    assumption

theorem State.flushLost_keep {P : State → Prop} (k : Keeps [.qm, .mend, .log] P) {s1 : State} (h1 : P s1) : P (State.flushLost s1) := by
  unfold State.flushLost
  extract_lets +onlyGivenNames x0
  refine foldl_keep (fun t1 x2 e3 => ?_) ?_
  · refine State.addGap_keep k.sub ?_
    assumption
  · refine (k.at .qm) _ _ ?_
    assumption

theorem State.pushAsm_keep {P : State → Prop} (k : Keeps [.log, .qm, .mend] P) {s1 : State} (h1 : P s1) : P (State.pushAsm s1) := by
  unfold State.pushAsm
  refine foldl_keep (fun t0 x1 e2 => ?_) ?_
  · extract_lets +onlyGivenNames x3
    refine State.pmc_keep k.sub ?_
    refine (k.at .qm) _ _ ?_
    assumption
  · assumption

theorem State.addClosed_keep {P : State → Prop} (k : Keeps [.mend, .qm, .arr CMP_ERR 0 1, .fresh] P) {s1 : State} {a2 : _} (h1 : P s1) : P (State.addClosed s1 a2) := by
  unfold State.addClosed
  split
  · refine State.addRec_keep k.sub ?_
    assumption
  · split
    · refine State.addRec_keep k.sub ?_
      refine bump_keep k CMP_ERR 0 1 ⟨0, rfl⟩ ?_
      assumption
    · refine State.addRec_keep k.sub ?_
      assumption

theorem State.closeAux_keep {P : State → Prop} (k : Keeps [.mend, .qm, .arr CMP_ERR 0 1, .fresh] P) {s1 : State} (h1 : P s1) : P (State.closeAux s1) := by
  unfold State.closeAux
  refine foldl_keep (fun t0 x1 e2 => ?_) ?_
  · refine State.addClosed_keep k.sub ?_
    refine (k.at .qm) _ _ ?_
    assumption
  · assumption

theorem State.settle_keep {P : State → Prop} (k : Keeps [.mend, .qm, .arr CMP_ERR 0 1, .fresh, .log] P) {s1 : State} (h1 : P s1) : P (State.settle s1) := by
  unfold State.settle
  extract_lets +onlyGivenNames x0
  have e1 : P x0 := by
    unfold x0
    split
    · assumption
    · refine State.closeAux_keep k.sub ?_
      assumption
  clear_value x0
  extract_lets +onlyGivenNames x2
  have e3 : P x2 := by
    unfold x2
    refine State.discardShut_keep k.sub ?_
    refine State.routeMirror_keep k.sub ?_
    assumption
  clear_value x2
  extract_lets +onlyGivenNames x4
  have e5 : P x4 := by
    unfold x4
    refine State.reportWithheld_keep k.sub ?_
    refine State.retNormal_keep k.sub ?_
    refine State.easeEvents_keep k.sub ?_
    assumption
  clear_value x4
  extract_lets +onlyGivenNames x6
  have e7 : P x6 := by
    unfold x6
    refine foldl_keep (fun t8 x9 e10 => ?_) ?_
    · refine State.pushRec_keep k.sub ?_
      assumption
    · assumption
  clear_value x6
  extract_lets +onlyGivenNames x11
  have e12 : P x11 := by
    unfold x11
    refine State.routeAnnounce_keep k.sub ?_
    refine State.pushItems_keep k.sub ?_
    assumption
  clear_value x11
  extract_lets +onlyGivenNames x13
  have e14 : P x13 := by
    unfold x13
    split
    · assumption
    · refine State.pushAsm_keep k.sub ?_
      assumption
  clear_value x13
  split
  · assumption
  · refine State.flushLost_keep k.sub ?_
    assumption

theorem State.endClock_keep {P : State → Prop} (k : Keeps [.qm, .log, .mend] P) {s1 : State} (h1 : P s1) : P (State.endClock s1) := by
  unfold State.endClock
  refine foldl_keep (fun t0 x1 e2 => ?_) ?_
  · refine State.watermark_keep k.sub ?_
    assumption
  · assumption

theorem State.newClock_keep {P : State → Prop} (k : Keeps [.qm, .mend, .log] P) {s1 : State} (h1 : P s1) : P (State.newClock s1) := by
  unfold State.newClock
  split
  · assumption
  · refine (k.at .qm) _ _ ?_
    refine State.discardShut_keep k.sub ?_
    assumption

theorem State.askRewind_keep {P : State → Prop} (k : Keeps [.qm] P) {s1 : State} {a2 : _} {a3 : _} (h1 : P s1) : P (State.askRewind s1 a2 a3) := by
  unfold State.askRewind
  refine State.onQst_keep k.sub ?_
  assumption

theorem State.rewind_keep {P : State → Prop} (k : Keeps [.qm, .arr QM_RET_STAT 0 1, .fresh, .log, .mend] P) {s1 : State} {a2 : _} {a3 : _} (h1 : P s1) : P (State.rewind s1 a2 a3) := by
  unfold State.rewind
  extract_lets +onlyGivenNames x0
  extract_lets +onlyGivenNames x1
  extract_lets +onlyGivenNames x2
  extract_lets +onlyGivenNames x3
  have e4 : P x3 := by
    unfold x3
    refine State.onRecs_keep k.sub ?_
    assumption
  clear_value x3
  extract_lets +onlyGivenNames x5
  extract_lets +onlyGivenNames x6
  extract_lets +onlyGivenNames x7
  have e8 : P x7 := by
    unfold x7
    refine foldl_keep (fun t9 x10 e11 => ?_) ?_
    · split
      · assumption
      · refine State.onRec_keep k.sub ?_
        assumption
    · assumption
  clear_value x7
  extract_lets +onlyGivenNames x12
  extract_lets +onlyGivenNames x13
  have e14 : P x13 := by
    unfold x13
    refine foldl_keep (fun t15 x16 e17 => ?_) ?_
    · refine (k.at .qm) _ _ ?_
      assumption
    · assumption
  clear_value x13
  extract_lets +onlyGivenNames x18
  have e19 : P x18 := by
    unfold x18
    refine bump_keep k QM_RET_STAT 0 1 ⟨0, rfl⟩ ?_
    refine (k.at .fresh) _ _ _ _ ?_
    refine State.onQst_keep k.sub ?_
    assumption
  clear_value x18
  refine State.issue_keep k.sub ?_
  assumption

theorem done_keep {P : State → Prop} (k : Keeps [.mend, .qm, .arr CMP_ERR 0 1, .fresh, .log] P) {s : State} (h : P s) : ∀ u, done s = .next u → P u := by
  intro u hu
  unfold done at hu
  cases hu
  exact State.settle_keep k.sub h

theorem State.emit_keep {P : State → Prop} (k : Keeps [.mend, .qm] P) {s1 : State} {a2 : _} {a3 : _} (h1 : P s1) : P (State.emit s1 a2 a3) := by
  unfold State.emit
  split
  · refine State.toQ61_keep k.sub ?_
    assumption
  · refine State.sendPacket_keep k.sub ?_
    assumption

theorem State.cacheReply_keep {P : State → Prop} (k : Keeps [.cmd, .arr CMD_CACHE 0 1, .fresh] P) {s1 : State} {a2 : _} {a3 : _} {a4 : _} (h1 : P s1) : P (State.cacheReply s1 a2 a3 a4) := by
  unfold State.cacheReply
  split
  · assumption
  · split
    · refine (k.at .cmd) _ _ ?_
      assumption
    · extract_lets +onlyGivenNames x0
      have e1 : P x0 := by
        unfold x0
        refine (k.at .cmd) _ _ ?_
        assumption
      clear_value x0
      extract_lets +onlyGivenNames x2
      have e3 : P x2 := by
        unfold x2
        split
        · refine (k.at .cmd) _ _ ?_
          refine bump_keep k CMD_CACHE 0 1 ⟨0, rfl⟩ ?_
          assumption
        · assumption
      clear_value x2
      refine (k.at .cmd) _ _ ?_
      assumption

theorem State.reply_keep {P : State → Prop} (k : Keeps [.cmd, .arr CMD_CACHE 0 1, .fresh, .mend, .qm] P) {s1 : State} {a2 : _} {a3 : _} {a4 : _} (h1 : P s1) : P (State.reply s1 a2 a3 a4) := by
  unfold State.reply
  extract_lets +onlyGivenNames x0
  extract_lets +onlyGivenNames x1
  have e2 : P x1 := by
    unfold x1
    split
    · refine (k.at .cmd) _ _ ?_
      assumption
    · refine State.cacheReply_keep k.sub ?_
      assumption
  clear_value x1
  split
  · refine State.emit_keep k.sub ?_
    assumption
  · assumption

theorem State.answer_keep {P : State → Prop} (k : Keeps [.cmd, .arr CMD_CACHE 0 1, .fresh, .mend, .qm] P) {s1 : State} {a2 : _} {a3 : _} {a4 : _} (h1 : P s1) : P (State.answer s1 a2 a3 a4) := by
  unfold State.answer
  split
  · refine State.reply_keep k.sub ?_
    refine (k.at .cmd) _ _ ?_
    assumption
  · assumption

theorem State.report_keep {P : State → Prop} (k : Keeps [.cmd, .arr CMD_CACHE 0 1, .fresh, .mend, .qm] P) {s1 : State} {a2 : _} {a3 : _} {a4 : _} (h1 : P s1) : P (State.report s1 a2 a3 a4) := by
  unfold State.report
  extract_lets +onlyGivenNames x0
  extract_lets +onlyGivenNames x1
  have e2 : P x1 := by
    unfold x1
    refine State.cacheReply_keep k.sub ?_
    refine (k.at .cmd) _ _ ?_
    assumption
  clear_value x1
  split
  · refine State.emit_keep k.sub ?_
    assumption
  · assumption

theorem State.originateBy_keep {P : State → Prop} (k : Keeps [.cmd] P) {a1 : State → Nat → Packet → State} {s2 : State} {a3 : _} {a4 : _} {a5 : _} {a6 : _} {a7 : _} {a8 : _} (h1 : ∀ s b0 b1, P s → P (a1 s b0 b1)) (h2 : P s2) : P (State.originateBy a1 s2 a3 a4 a5 a6 a7 a8) := by
  unfold State.originateBy
  split
  · assumption
  · extract_lets +onlyGivenNames x0
    extract_lets +onlyGivenNames x1
    extract_lets +onlyGivenNames x2
    have e3 : P x2 := by
      unfold x2
      refine (k.at .cmd) _ _ ?_
      assumption
    clear_value x2
    refine h1 _ _ _ ?_
    assumption

theorem State.originate_keep {P : State → Prop} (k : Keeps [.cmd, .mend, .qm] P) {s1 : State} {a2 : _} {a3 : _} {a4 : _} {a5 : _} {a6 : _} {a7 : _} (h1 : P s1) : P (State.originate s1 a2 a3 a4 a5 a6 a7) := by
  unfold State.originate
  refine State.originateBy_keep k.sub ?_ ?_
  · intro y0
    intro y1
    intro y2
    intro y3
    refine State.sendPacket_keep k.sub ?_
    assumption
  · assumption

theorem State.sendLinkState_keep {P : State → Prop} (k : Keeps [.arr LNK_ROUTE_CFG 0 1, .lnk, .mend, .qm] P) {s1 : State} {a2 : _} (h1 : P s1) : P (State.sendLinkState s1 a2) := by
  unfold State.sendLinkState
  split
  · assumption
  · extract_lets +onlyGivenNames x0
    have e1 : P x0 := by
      unfold x0
      split
      · refine setFld_keep k LNK_ROUTE_CFG 0 1 ⟨0, rfl⟩ ?_
        assumption
      · assumption
    clear_value x0
    extract_lets +onlyGivenNames x2
    have e3 : P x2 := by
      unfold x2
      refine (k.at .lnk) _ _ ?_
      assumption
    clear_value x2
    refine foldl_keep (fun t4 x5 e6 => ?_) ?_
    · refine State.pushT_keep k.sub ?_
      assumption
    · assumption

theorem State.reroute_keep {P : State → Prop} (k : Keeps [.arr LNK_ROUTE_STAT 0 1, .arr LNK_ROUTE_CFG 0 1, .lnk, .qm, .log, .mend] P) {s1 : State} (h1 : P s1) : P (State.reroute s1) := by
  unfold State.reroute
  extract_lets +onlyGivenNames x0
  extract_lets +onlyGivenNames x1
  extract_lets +onlyGivenNames x2
  extract_lets +onlyGivenNames x3
  extract_lets +onlyGivenNames x4
  extract_lets +onlyGivenNames x5
  extract_lets +onlyGivenNames x6
  have e7 : P x6 := by
    unfold x6
    refine setFld_keep k LNK_ROUTE_STAT 0 1 ⟨0, rfl⟩ ?_
    refine setFld_keep k LNK_ROUTE_STAT 0 1 ⟨0, rfl⟩ ?_
    refine setFld_keep k LNK_ROUTE_STAT 0 1 ⟨0, rfl⟩ ?_
    refine setFld_keep k LNK_ROUTE_STAT 0 1 ⟨0, rfl⟩ ?_
    assumption
  clear_value x6
  extract_lets +onlyGivenNames x8
  have e9 : P x8 := by
    unfold x8
    clear_value x4
    split
    · refine setFld_keep k LNK_ROUTE_CFG 0 1 ⟨0, rfl⟩ ?_
      refine setFld_keep k LNK_ROUTE_CFG 0 1 ⟨0, rfl⟩ ?_
      assumption
    · refine setFld_keep k LNK_ROUTE_CFG 0 1 ⟨0, rfl⟩ ?_
      refine setFld_keep k LNK_ROUTE_CFG 0 1 ⟨0, rfl⟩ ?_
      assumption
  clear_value x8
  extract_lets +onlyGivenNames x10
  have e11 : P x10 := by
    unfold x10
    refine (k.at .lnk) _ _ ?_
    assumption
  clear_value x10
  extract_lets +onlyGivenNames x12
  extract_lets +onlyGivenNames x13
  have e14 : P x13 := by
    unfold x13
    split
    · refine State.issue_keep k.sub ?_
      assumption
    · assumption
  clear_value x13
  extract_lets +onlyGivenNames x15
  have e16 : P x15 := by
    unfold x15
    split
    · refine State.issue_keep k.sub ?_
      assumption
    · assumption
  clear_value x15
  split
  · refine foldl_keep (fun t17 x18 e19 => ?_) ?_
    · refine State.askRewind_keep k.sub ?_
      refine State.askRewind_keep k.sub ?_
      assumption
    · assumption
  · extract_lets +onlyGivenNames x20
    have e21 : P x20 := by
      unfold x20
      split
      · refine State.askRewind_keep k.sub ?_
        refine State.askRewind_keep k.sub ?_
        assumption
      · assumption
    clear_value x20
    split
    · refine State.askRewind_keep k.sub ?_
      refine State.askRewind_keep k.sub ?_
      assumption
    · assumption

theorem State.setPort_keep {P : State → Prop} (k : Keeps [.arr (LNK_PORT_STAT 0) 64 8, .qm, .log, .mend, .arr LNK_ROUTE_STAT 0 1, .arr LNK_ROUTE_CFG 0 1, .lnk] P) {s1 : State} {a2 : _} {a3 : _} {a4 : _} (h1 : P s1) : P (State.setPort s1 a2 a3 a4) := by
  unfold State.setPort
  extract_lets +onlyGivenNames x0
  split
  · assumption
  · extract_lets +onlyGivenNames x1
    have e2 : P x1 := by
      unfold x1
      refine setFld_keep k (LNK_PORT_STAT 0) 64 8 ⟨_, rfl⟩ ?_
      assumption
    clear_value x1
    extract_lets +onlyGivenNames x3
    have e4 : P x3 := by
      unfold x3
      refine State.issue_keep k.sub ?_
      assumption
    clear_value x3
    refine State.reroute_keep k.sub ?_
    refine State.sendLinkState_keep k.sub ?_
    assumption

theorem State.failPort_keep {P : State → Prop} (k : Keeps [.qm] P) {s1 : State} {a2 : _} (h1 : P s1) : P (State.failPort s1 a2) := by
  unfold State.failPort
  refine State.askRewind_keep k.sub ?_
  refine State.askRewind_keep k.sub ?_
  assumption

theorem State.setHead_keep {P : State → Prop} (k : Keeps [.red, .arr RED_STAT 0 1, .arr RED_COUNT 0 1, .fresh, .qm, .log, .mend, .arr LNK_ROUTE_STAT 0 1, .arr LNK_ROUTE_CFG 0 1, .lnk] P) {s1 : State} {a2 : _} {a3 : _} (h1 : P s1) : P (State.setHead s1 a2 a3) := by
  unfold State.setHead
  extract_lets +onlyGivenNames x0
  split
  · assumption
  · extract_lets +onlyGivenNames x1
    have e2 : P x1 := by
      unfold x1
      refine (k.at .red) _ _ ?_
      refine setFld_keep k RED_STAT 0 1 ⟨0, rfl⟩ ?_
      refine setFld_keep k RED_STAT 0 1 ⟨0, rfl⟩ ?_
      assumption
    clear_value x1
    extract_lets +onlyGivenNames x3
    have e4 : P x3 := by
      unfold x3
      split
      · refine bump_keep k RED_COUNT 0 1 ⟨0, rfl⟩ ?_
        assumption
      · split
        · refine bump_keep k RED_COUNT 0 1 ⟨0, rfl⟩ ?_
          assumption
        · assumption
    clear_value x3
    extract_lets +onlyGivenNames x5
    have e6 : P x5 := by
      unfold x5
      refine State.issue_keep k.sub ?_
      assumption
    clear_value x5
    refine State.reroute_keep k.sub ?_
    refine State.sendLinkState_keep k.sub ?_
    assumption

theorem State.fence_keep {P : State → Prop} (k : Keeps [.qm, .arr RED_COUNT 0 1, .fresh, .red, .arr RED_STAT 0 1, .log, .mend, .arr LNK_ROUTE_STAT 0 1, .arr LNK_ROUTE_CFG 0 1, .lnk] P) {s1 : State} {a2 : _} (h1 : P s1) : P (State.fence s1 a2) := by
  unfold State.fence
  extract_lets +onlyGivenNames x0
  extract_lets +onlyGivenNames x1
  extract_lets +onlyGivenNames x2
  extract_lets +onlyGivenNames x3
  extract_lets +onlyGivenNames x4
  have e5 : P x4 := by
    unfold x4
    refine (k.at .qm) _ _ ?_
    assumption
  clear_value x4
  extract_lets +onlyGivenNames x6
  have e7 : P x6 := by
    unfold x6
    refine bumpBy_keep k RED_COUNT 0 1 ⟨0, rfl⟩ ?_
    assumption
  clear_value x6
  refine State.setHead_keep k.sub ?_
  refine (k.at .red) _ _ ?_
  assumption

theorem State.sendHead_keep {P : State → Prop} (k : Keeps [.mend, .qm] P) {s1 : State} {a2 : _} (h1 : P s1) : P (State.sendHead s1 a2) := by
  unfold State.sendHead
  extract_lets +onlyGivenNames x0
  split
  · refine State.pushT_keep k.sub ?_
    assumption
  · assumption

theorem State.mirrorItem_keep {P : State → Prop} (k : Keeps [.red, .arr RED_MIRROR 0 1, .mend, .qm] P) {s1 : State} {a2 : _} {a3 : _} (h1 : P s1) : P (State.mirrorItem s1 a2 a3) := by
  unfold State.mirrorItem
  extract_lets +onlyGivenNames x0
  extract_lets +onlyGivenNames x1
  have e2 : P x1 := by
    unfold x1
    refine (k.at .red) _ _ ?_
    refine setFld_keep k RED_MIRROR 0 1 ⟨0, rfl⟩ ?_
    assumption
  clear_value x1
  refine State.sendHead_keep k.sub ?_
  assumption

theorem State.mirrorState_keep {P : State → Prop} (k : Keeps [.red, .arr RED_MIRROR 0 1, .mend, .qm] P) {s1 : State} {a2 : _} (h1 : P s1) : P (State.mirrorState s1 a2) := by
  unfold State.mirrorState
  extract_lets +onlyGivenNames x0
  refine (k.at .red) _ _ ?_
  refine State.mirrorItem_keep k.sub ?_
  assumption

theorem State.mirrorChanges_keep {P : State → Prop} (k : Keeps [.red, .arr RED_MIRROR 0 1, .mend, .qm] P) {s1 : State} (h1 : P s1) : P (State.mirrorChanges s1) := by
  unfold State.mirrorChanges
  split
  · assumption
  · refine foldl_keep (fun t0 x1 e2 => ?_) ?_
    · split
      · assumption
      · refine State.mirrorState_keep k.sub ?_
        assumption
    · assumption

theorem State.startReplaying_keep {P : State → Prop} (k : Keeps [.red] P) {s1 : State} (h1 : P s1) : P (State.startReplaying s1) := by
  unfold State.startReplaying
  extract_lets +onlyGivenNames x0
  refine (k.at .red) _ _ ?_
  assumption

theorem State.ledgerWrite_keep {P : State → Prop} (k : Keeps [.mend, .arr (MEM_ERR 0) 32 5, .fresh, .arr (MEM_ERR_INFO 0) 32 5, .free, .arr (MEM_ERR_ADDR 0) 32 5, .arr (MEM_ERR_ADDR 0 + 4) 32 5, .qm, .log, .mem] P) {s1 : State} {a2 : _} (h1 : P s1) : P (State.ledgerWrite s1 a2) := by
  unfold State.ledgerWrite
  refine State.memWriteRange_keep k.sub ?_
  assumption

theorem State.ledgerAdd_keep {P : State → Prop} (k : Keeps [.red, .arr RED_MIRROR 0 1, .mend, .qm, .arr RED_LEDGER 0 1, .fresh, .arr (MEM_ERR 0) 32 5, .arr (MEM_ERR_INFO 0) 32 5, .free, .arr (MEM_ERR_ADDR 0) 32 5, .arr (MEM_ERR_ADDR 0 + 4) 32 5, .log, .mem] P) {s1 : State} {a2 : _} (h1 : P s1) : P (State.ledgerAdd s1 a2) := by
  unfold State.ledgerAdd
  refine foldl_keep (fun t0 x1 e2 => ?_) ?_
  · extract_lets +onlyGivenNames x3
    have e4 : P x3 := by
      unfold x3
      refine State.mirrorItem_keep k.sub ?_
      assumption
    clear_value x3
    extract_lets +onlyGivenNames x5
    extract_lets +onlyGivenNames x6
    extract_lets +onlyGivenNames x7
    have e8 : P x7 := by
      unfold x7
      split
      · refine setBit_keep k RED_LEDGER 0 1 ⟨0, rfl⟩ ?_
        assumption
      · assumption
    clear_value x7
    extract_lets +onlyGivenNames x9
    extract_lets +onlyGivenNames x10
    have e11 : P x10 := by
      unfold x10
      refine State.ledgerWrite_keep k.sub ?_
      assumption
    clear_value x10
    refine setFld_keep k RED_LEDGER 0 1 ⟨0, rfl⟩ ?_
    refine (k.at .red) _ _ ?_
    assumption
  · assumption

theorem State.journalAdd_keep {P : State → Prop} (k : Keeps [.red, .arr RED_MIRROR 0 1, .mend, .qm] P) {s1 : State} {a2 : _} {a3 : _} (h1 : P s1) : P (State.journalAdd s1 a2 a3) := by
  unfold State.journalAdd
  extract_lets +onlyGivenNames x0
  refine (k.at .red) _ _ ?_
  refine State.mirrorItem_keep k.sub ?_
  assumption

theorem State.journalReply_keep {P : State → Prop} (k : Keeps [.red, .arr RED_MIRROR 0 1, .mend, .qm] P) {s1 : State} {a2 : _} {a3 : _} (h1 : P s1) : P (State.journalReply s1 a2 a3) := by
  unfold State.journalReply
  extract_lets +onlyGivenNames x0
  split
  · assumption
  · extract_lets +onlyGivenNames x1
    refine (k.at .red) _ _ ?_
    refine State.mirrorItem_keep k.sub ?_
    assumption

theorem State.sendLatch_keep {P : State → Prop} (k : Keeps [.cmd, .mend, .qm] P) {s1 : State} {a2 : _} {a3 : _} {a4 : _} {a5 : _} {a6 : _} (h1 : P s1) : P (State.sendLatch s1 a2 a3 a4 a5 a6) := by
  unfold State.sendLatch
  refine State.originate_keep k.sub ?_
  assumption

theorem State.startQuiet_keep {P : State → Prop} (k : Keeps [.arr (RED_WIT_STAT 0) 16 4, .red] P) {s1 : State} {a2 : _} (h1 : P s1) : P (State.startQuiet s1 a2) := by
  unfold State.startQuiet
  refine setFld_keep k (RED_WIT_STAT 0) 16 4 ⟨_, rfl⟩ ?_
  refine setFld_keep k (RED_WIT_STAT 0) 16 4 ⟨_, rfl⟩ ?_
  refine State.onWit_keep k.sub ?_
  assumption

theorem State.quietAll_keep {P : State → Prop} (k : Keeps [.arr (RED_WIT_STAT 0) 16 4, .red] P) {s1 : State} (h1 : P s1) : P (State.quietAll s1) := by
  unfold State.quietAll
  refine foldl_keep (fun t0 x1 e2 => ?_) ?_
  · split
    · refine State.startQuiet_keep k.sub ?_
      assumption
    · assumption
  · assumption

theorem State.applyMirrored_keep {P : State → Prop} {s : State} {a : Nat} {is : List Nat} (hw : ∀ s i w, i ∈ is → P s → P (s.wr (a + 4 * i) w)) (h : P s) : P (s.applyMirrored a is) := by
  unfold State.applyMirrored
  split
  · exact h
  · rename_i bs hb
    clear hb
    induction is generalizing s with
    | nil => exact h
    | cons i is ih => exact ih (fun s j w hj => hw s j w (List.mem_cons_of_mem _ hj)) (hw _ _ _ List.mem_cons_self h)

theorem State.takeOver_keep {P : State → Prop} (k : Keeps [.arr (RED_WIT_STAT 0) 16 4, .red, .arr LNK_ROUTE_STAT 0 1, .arr LNK_ROUTE_CFG 0 1, .lnk, .qm, .log, .mend, .arr (MEM_ERR 0) 32 5, .fresh, .arr (MEM_ERR_INFO 0) 32 5, .free, .arr (MEM_ERR_ADDR 0) 32 5, .arr (MEM_ERR_ADDR 0 + 4) 32 5, .mem, .arr TB_CTRL 0 1, .arr (RED_WIT_CFG 0) 16 4, .arr (RED_WIT_EPOCH 0) 16 4, .arr RED_LEDGER 0 1] P) {s1 : State} (h1 : P s1) : P (State.takeOver s1) := by
  unfold State.takeOver
  extract_lets +onlyGivenNames x0 x1 x2 x3 x4
  have e3 : P x4 := by
    refine State.applyMirrored_keep (fun s i w hi hs => ?_) (State.reroute_keep k.sub ((k.at (.arr LNK_ROUTE_CFG 0 1)) _ _ _ ⟨0, rfl⟩
      (State.applyMirrored_keep (fun s i w hi hs => ?_) h1)))
    · rw [List.mem_singleton.mp hi]
      exact (k.at (.arr TB_CTRL 0 1)) _ _ _ ⟨0, rfl⟩ hs
    · rw [List.mem_singleton.mp hi]
      exact (k.at (.arr LNK_ROUTE_CFG 0 1)) _ _ _ ⟨0, rfl⟩ hs
  clear_value x4
  extract_lets +onlyGivenNames x5
  have e5 : P x5 := by
    have e : ∀ j < 4, ∀ s, P s → P (s.applyMirrored (0xC0100 + 0x10 * j) [0, 1, 2]) := by
      intro j hj s hs
      refine State.applyMirrored_keep (fun s i w hi hs => ?_) hs
      simp only [List.mem_cons, List.not_mem_nil, or_false] at hi
      rcases hi with rfl | rfl | rfl
      · exact (k.at (.arr (RED_WIT_CFG 0) 16 4)) _ _ _ ⟨j, by unfold RED_WIT_CFG; omega⟩ hs
      · exact (k.at (.arr (RED_WIT_STAT 0) 16 4)) _ _ _ ⟨j, by unfold RED_WIT_STAT; omega⟩ hs
      · exact (k.at (.arr (RED_WIT_EPOCH 0) 16 4)) _ _ _ ⟨j, by unfold RED_WIT_EPOCH; omega⟩ hs
    exact e 3 (by decide) _ (e 2 (by decide) _ (e 1 (by decide) _ (e 0 (by decide) _ e3)))
  clear_value x5
  extract_lets +onlyGivenNames x6 x7 x8 x9 x10 x11
  exact State.quietAll_keep k.sub (State.startReplaying_keep k.sub (setFld_keep k RED_LEDGER 0 1 ⟨0, rfl⟩ ((k.at .red) _ _
    (foldl_keep (fun _ _ h => State.ledgerWrite_keep k.sub h) e5))))

theorem State.granted_keep {P : State → Prop} (k : Keeps [.red, .arr RED_EPOCH 0 1, .arr RED_STAT 0 1, .arr RED_COUNT 0 1, .fresh, .qm, .log, .mend, .arr LNK_ROUTE_STAT 0 1, .arr LNK_ROUTE_CFG 0 1, .lnk, .arr (RED_WIT_STAT 0) 16 4, .arr (MEM_ERR 0) 32 5, .arr (MEM_ERR_INFO 0) 32 5, .free, .arr (MEM_ERR_ADDR 0) 32 5, .arr (MEM_ERR_ADDR 0 + 4) 32 5, .mem, .arr TB_CTRL 0 1, .arr (RED_WIT_CFG 0) 16 4, .arr (RED_WIT_EPOCH 0) 16 4, .arr RED_LEDGER 0 1] P) {s1 : State} {a2 : _} {a3 : _} (h1 : P s1) : P (State.granted s1 a2 a3) := by
  unfold State.granted
  split
  · extract_lets +onlyGivenNames x0
    extract_lets +onlyGivenNames x1
    have e2 : P x1 := by
      unfold x1
      refine (k.at .red) _ _ ?_
      refine setFld_keep k RED_EPOCH 0 1 ⟨0, rfl⟩ ?_
      assumption
    clear_value x1
    extract_lets +onlyGivenNames x3
    have e4 : P x3 := by
      unfold x3
      refine State.setHead_keep k.sub ?_
      assumption
    clear_value x3
    split
    · refine State.takeOver_keep k.sub ?_
      assumption
    · refine State.quietAll_keep k.sub ?_
      refine State.startReplaying_keep k.sub ?_
      assumption
  · assumption

theorem State.latchReply_keep {P : State → Prop} (k : Keeps [.red, .arr RED_STAT 0 1, .arr RED_EPOCH 0 1, .arr RED_COUNT 0 1, .fresh, .qm, .log, .mend, .arr LNK_ROUTE_STAT 0 1, .arr LNK_ROUTE_CFG 0 1, .lnk, .arr (RED_WIT_STAT 0) 16 4, .arr (MEM_ERR 0) 32 5, .arr (MEM_ERR_INFO 0) 32 5, .free, .arr (MEM_ERR_ADDR 0) 32 5, .arr (MEM_ERR_ADDR 0 + 4) 32 5, .mem, .arr TB_CTRL 0 1, .arr (RED_WIT_CFG 0) 16 4, .arr (RED_WIT_EPOCH 0) 16 4, .arr RED_LEDGER 0 1, .cmd] P) {s1 : State} {a2 : _} {a3 : _} (h1 : P s1) : P (State.latchReply s1 a2 a3) := by
  unfold State.latchReply
  extract_lets +onlyGivenNames x0
  extract_lets +onlyGivenNames x1
  extract_lets +onlyGivenNames x2
  extract_lets +onlyGivenNames x3
  have e4 : P x3 := by
    unfold x3
    refine (k.at .red) _ _ ?_
    refine setFld_keep k RED_STAT 0 1 ⟨0, rfl⟩ ?_
    assumption
  clear_value x3
  split
  · split
    · refine State.granted_keep k.sub ?_
      assumption
    · assumption
  · split
    · split
      · refine (k.at .red) _ _ ?_
        assumption
      · split
        · refine State.fence_keep k.sub ?_
          assumption
        · assumption
    · split
      · split
        · split
          · refine State.sendLatch_keep k.sub ?_
            assumption
          · refine (k.at .red) _ _ ?_
            assumption
        · assumption
      · assumption

theorem State.handReply_keep {P : State → Prop} (k : Keeps [.red, .arr RED_STAT 0 1, .arr RED_EPOCH 0 1, .arr RED_COUNT 0 1, .fresh, .qm, .log, .mend, .arr LNK_ROUTE_STAT 0 1, .arr LNK_ROUTE_CFG 0 1, .lnk, .arr (RED_WIT_STAT 0) 16 4, .arr (MEM_ERR 0) 32 5, .arr (MEM_ERR_INFO 0) 32 5, .free, .arr (MEM_ERR_ADDR 0) 32 5, .arr (MEM_ERR_ADDR 0 + 4) 32 5, .mem, .arr TB_CTRL 0 1, .arr (RED_WIT_CFG 0) 16 4, .arr (RED_WIT_EPOCH 0) 16 4, .arr RED_LEDGER 0 1, .cmd] P) {s1 : State} {a2 : _} {a3 : _} (h1 : P s1) : P (State.handReply s1 a2 a3) := by
  unfold State.handReply
  extract_lets +onlyGivenNames x0
  split
  · assumption
  · refine State.latchReply_keep k.sub ?_
    refine (k.at .cmd) _ _ ?_
    assumption

end Sys2Proof.Machine
end

