-- ==== Sys2Proof/Laws/KeepB.lean ====
section
/-!
SUPPORT. What the operations of Machine/Engine, Memory, Retain, Compress may touch: one lemma per function (Laws/Keep.lean).
-/

namespace Sys2Proof.Machine

set_option Elab.async false

open Reg Bits

theorem refuse_keep {P : State → Prop} (k : Keeps [] P) {s1 : State} {a2 : _} (h1 : P s1) : (refuse s1 a2).Holds P := by
  unfold refuse
  show P _
  assumption

theorem ok_keep {P : State → Prop} (k : Keeps [] P) {s1 : State} (h1 : P s1) : (ok s1).Holds P := by
  unfold ok
  show P _
  assumption

theorem State.acceptCtr_keep {P : State → Prop} (k : Keeps [.arr (CMD_SLOT_CTR 0) 16 16, .nvm] P) {s1 : State} {a2 : _} {a3 : _} (h1 : P s1) : P (State.acceptCtr s1 a2 a3) := by
  unfold State.acceptCtr
  extract_lets +onlyGivenNames x0
  have e1 : P x0 := by
    unfold x0
    refine setFld_keep k (CMD_SLOT_CTR 0) 16 16 ⟨_, rfl⟩ ?_
    assumption
  clear_value x0
  refine (k.at .nvm) _ _ ?_
  assumption

theorem State.see_keep {P : State → Prop} (k : Keeps [.cmd, .arr CMD_CACHE 0 1, .fresh] P) {s1 : State} {a2 : _} {a3 : _} (h1 : P s1) : P (State.see s1 a2 a3) := by
  unfold State.see
  extract_lets +onlyGivenNames x0
  have e1 : P x0 := by
    unfold x0
    refine (k.at .cmd) _ _ ?_
    assumption
  clear_value x0
  extract_lets +onlyGivenNames x2
  have e3 : P x2 := by
    unfold x2
    split
    · refine (k.at .cmd) _ _ ?_
      refine bump_keep k CMD_CACHE 0 1 ⟨0, rfl⟩ ?_
      assumption
    · assumption
  clear_value x2
  refine (k.at .cmd) _ _ ?_
  assumption

theorem State.noteAuthFail_keep {P : State → Prop} (k : Keeps [.qm, .log, .mend, .arr CMD_STAT 0 1, .fresh] P) {s1 : State} {a2 : _} (h1 : P s1) : P (State.noteAuthFail s1 a2) := by
  unfold State.noteAuthFail
  refine State.issueLim_keep k.sub ?_
  refine State.pmc_keep k.sub ?_
  refine bump_keep k CMD_STAT 0 1 ⟨0, rfl⟩ ?_
  assumption

theorem State.noteReplay_keep {P : State → Prop} (k : Keeps [.qm, .log, .mend, .arr CMD_STAT 0 1, .fresh] P) {s1 : State} {a2 : _} (h1 : P s1) : P (State.noteReplay s1 a2) := by
  unfold State.noteReplay
  refine State.issueLim_keep k.sub ?_
  refine bump_keep k CMD_STAT 0 1 ⟨0, rfl⟩ ?_
  assumption

theorem State.authFail_keep {P : State → Prop} (k : Keeps [.qm, .log, .mend, .arr CMD_STAT 0 1, .fresh, .cmd] P) {s1 : State} {a2 : _} {a3 : _} (h1 : P s1) : P (State.authFail s1 a2 a3) := by
  unfold State.authFail
  extract_lets +onlyGivenNames x0
  have e1 : P x0 := by
    unfold x0
    refine State.noteAuthFail_keep k.sub ?_
    assumption
  clear_value x0
  split
  · assumption
  · extract_lets +onlyGivenNames x2
    split
    · assumption
    · extract_lets +onlyGivenNames x3
      have e4 : P x3 := by
        unfold x3
        refine (k.at .cmd) _ _ ?_
        assumption
      clear_value x3
      extract_lets +onlyGivenNames x5
      refine State.emit_keep k.sub ?_
      assumption

theorem State.carryOut_keep {P : State → Prop} (k : Keeps [.cmd, .arr CMD_CACHE 0 1, .fresh, .mend, .qm] P) {s1 : State} {a2 : Body} {a3 : _} {a4 : _} (h1 : P s1) (h2 : ∀ c ps s, P s → Res.Holds P (a2 c ps s)) : P (State.carryOut s1 a2 a3 a4) := by
  unfold State.carryOut
  have e := h2 a3 a4 s1 h1
  split
  · rename_i q
    rw [q] at e
    exact State.reply_keep k.sub e
  · rename_i q
    rw [q] at e
    exact State.reply_keep k.sub ((k.at .cmd) _ _ e)
  · rename_i q
    rw [q] at e
    extract_lets +onlyGivenNames x0
    have e0 : P x0 := by
      unfold x0
      split
      · exact e
      · exact State.cacheReply_keep k.sub e
    clear_value x0
    split
    · exact (k.at .cmd) _ _ e0
    · exact e0

theorem State.execute_keep {P : State → Prop} (k : Keeps [.arr CMD_ERR 0 1, .fresh, .cmd, .arr CMD_CACHE 0 1, .mend, .qm, .log] P) {s1 : State} {a2 : Body} {a3 : _} {a4 : _} {a5 : _} (h1 : P s1) (h2 : ∀ c ps s, P s → Res.Holds P (a2 c ps s)) : P (State.execute s1 a2 a3 a4 a5) := by
  unfold State.execute
  extract_lets +onlyGivenNames x0
  split
  · extract_lets +onlyGivenNames x1
    have e2 : P x1 := by
      unfold x1
      split
      · refine bump_keep k CMD_ERR 0 1 ⟨0, rfl⟩ ?_
        assumption
      · assumption
    clear_value x1
    refine State.reply_keep k.sub ?_
    assumption
  · extract_lets +onlyGivenNames x3
    split
    · refine (k.at .cmd) _ _ ?_
      refine State.cacheReply_keep k.sub ?_
      refine State.enqueue_keep k.sub ?_
      assumption
    · refine State.carryOut_keep k.sub ?_ ?_
      · split
        · refine State.pmc_keep k.sub ?_
          assumption
        · assumption
      · assumption

theorem State.judgeHere_keep {P : State → Prop} (k : Keeps ([.qm, .log, .mend, .arr CMD_STAT 0 1, .fresh, .cmd, .red, .arr RED_STAT 0 1, .arr RED_EPOCH 0 1, .arr RED_COUNT 0 1, .arr LNK_ROUTE_STAT 0 1, .arr LNK_ROUTE_CFG 0 1, .lnk, .arr (RED_WIT_STAT 0) 16 4, .arr (MEM_ERR 0) 32 5, .arr (MEM_ERR_INFO 0) 32 5, .free, .arr (MEM_ERR_ADDR 0) 32 5, .arr (MEM_ERR_ADDR 0 + 4) 32 5, .mem, .arr TB_CTRL 0 1, .arr (RED_WIT_CFG 0) 16 4, .arr (RED_WIT_EPOCH 0) 16 4, .arr RED_LEDGER 0 1, .arr CMD_ERR 0 1] ++ [.arr CMD_CACHE 0 1, .arr (CMD_SLOT_CTR 0) 16 16, .nvm]) P) {s1 : State} {a2 : Body} {a3 : _} {a4 : _} (h1 : P s1) (h2 : ∀ c ps s, P s → Res.Holds P (a2 c ps s)) : P (State.judgeHere s1 a2 a3 a4) := by
  unfold State.judgeHere
  split
  · refine State.authFail_keep k.sub ?_
    assumption
  · extract_lets +onlyGivenNames x0
    have e1 : P x0 := by
      unfold x0
      refine State.pmc_keep k.sub ?_
      assumption
    clear_value x0
    split
    · refine State.handReply_keep k.sub ?_
      assumption
    · split
      · refine bump_keep k CMD_STAT 0 1 ⟨0, rfl⟩ ?_
        assumption
      · extract_lets +onlyGivenNames x2
        split
        · split
          · assumption
          · refine State.emit_keep k.sub ?_
            assumption
        · split
          · refine State.execute_keep k.sub ?_ ?_
            · assumption
            · assumption
          · split
            · extract_lets +onlyGivenNames x3
              have e4 : P x3 := by
                unfold x3
                refine State.noteReplay_keep k.sub ?_
                assumption
              clear_value x3
              split
              · refine State.emit_keep k.sub ?_
                assumption
              · assumption
            · refine State.execute_keep k.sub ?_ ?_
              · refine State.acceptCtr_keep k.sub ?_
                assumption
              · assumption

theorem State.uplinkRefuse_keep {P : State → Prop} (k : Keeps [.mend, .qm] P) {s1 : State} {a2 : _} {a3 : _} (h1 : P s1) : P (State.uplinkRefuse s1 a2 a3) := by
  unfold State.uplinkRefuse
  split
  · assumption
  · split
    · extract_lets +onlyGivenNames x0
      refine State.emit_keep k.sub ?_
      assumption
    · assumption

theorem State.relayAct_keep {P : State → Prop} (k : Keeps [.log, .qm, .mend, .arr (CMD_SLOT_CTR 0) 16 16, .nvm, .red, .arr RED_MIRROR 0 1, .arr RED_LEDGER 0 1, .fresh, .arr (MEM_ERR 0) 32 5, .arr (MEM_ERR_INFO 0) 32 5, .free, .arr (MEM_ERR_ADDR 0) 32 5, .arr (MEM_ERR_ADDR 0 + 4) 32 5, .mem, .cmd, .arr CMD_CACHE 0 1, .arr CMD_STAT 0 1] P) {s1 : State} {a2 : Body} {a3 : _} {a4 : _} (h1 : P s1) (h2 : ∀ c ps s, P s → Res.Holds P (a2 c ps s)) : P (State.relayAct s1 a2 a3 a4) := by
  unfold State.relayAct
  split
  · exact h1
  · split
    · exact State.noteAuthFail_keep k.sub h1
    · extract_lets +onlyGivenNames x0
      have e0 : P x0 := State.pmc_keep k.sub h1
      clear_value x0
      split
      · exact bump_keep k CMD_STAT 0 1 ⟨0, rfl⟩ e0
      · split
        · exact State.noteReplay_keep k.sub e0
        · extract_lets +onlyGivenNames x1
          have e1 : P x1 := by
            unfold x1
            split
            · exact e0
            · exact State.acceptCtr_keep k.sub e0
          clear_value x1
          extract_lets +onlyGivenNames x2
          split
          · exact e1
          · split
            · split
              · exact State.ledgerAdd_keep k.sub e1
              · exact e1
            · split
              · exact e1
              · split
                · rename_i q
                  have e := h2 (callerOf a3 a4 ‹Cred›) a4.params x1 e1
                  rw [q] at e
                  split
                  · exact e
                  · exact State.reply_keep k.sub e
                · rename_i q
                  have e := h2 (callerOf a3 a4 ‹Cred›) a4.params x1 e1
                  rw [q] at e
                  exact e
                · rename_i q
                  have e := h2 (callerOf a3 a4 ‹Cred›) a4.params x1 e1
                  rw [q] at e
                  exact e

theorem State.relay_keep {P : State → Prop} (k : Keeps [.arr CMD_ERR 0 1, .fresh, .mend, .qm, .red, .arr RED_MIRROR 0 1] P) {s1 : State} {a2 : _} {a3 : _} (h1 : P s1) : P (State.relay s1 a2 a3) := by
  unfold State.relay
  extract_lets +onlyGivenNames x0
  split
  · refine bump_keep k CMD_ERR 0 1 ⟨0, rfl⟩ ?_
    assumption
  · split
    · refine State.uplinkRefuse_keep k.sub ?_
      assumption
    · extract_lets +onlyGivenNames x1
      have e2 : P x1 := by
        unfold x1
        split
        · refine State.journalAdd_keep k.sub ?_
          assumption
        · split
          · refine State.journalReply_keep k.sub ?_
            assumption
          · assumption
      clear_value x1
      refine State.forward_keep k.sub ?_
      assumption

theorem State.receive_keep {P : State → Prop} (k : Keeps ([.arr CMD_SPI_CTRL 0 1, .fresh, .arr CMD_ERR 0 1, .arr CMD_CACHE 0 1, .cmd, .mend, .qm, .log, .arr CMD_STAT 0 1, .red, .arr RED_STAT 0 1, .arr RED_EPOCH 0 1, .arr RED_COUNT 0 1, .arr LNK_ROUTE_STAT 0 1, .arr LNK_ROUTE_CFG 0 1, .lnk, .arr (RED_WIT_STAT 0) 16 4, .arr (MEM_ERR 0) 32 5, .arr (MEM_ERR_INFO 0) 32 5, .free, .arr (MEM_ERR_ADDR 0) 32 5, .arr (MEM_ERR_ADDR 0 + 4) 32 5, .mem, .arr TB_CTRL 0 1, .arr (RED_WIT_CFG 0) 16 4] ++ [.arr (RED_WIT_EPOCH 0) 16 4, .arr RED_LEDGER 0 1, .arr (CMD_SLOT_CTR 0) 16 16, .nvm, .arr RED_MIRROR 0 1]) P) {s1 : State} {a2 : Body} {a3 : _} {a4 : _} (h1 : P s1) (h2 : ∀ c ps s, P s → Res.Holds P (a2 c ps s)) : P (State.receive s1 a2 a3 a4) := by
  unfold State.receive
  split
  · split
    · refine setBit_keep k CMD_SPI_CTRL 0 1 ⟨0, rfl⟩ ?_
      assumption
    · assumption
  · split
    · refine bump_keep k CMD_ERR 0 1 ⟨0, rfl⟩ ?_
      assumption
    · extract_lets +onlyGivenNames x0
      split
      · assumption
      · split
        · refine bump_keep k CMD_CACHE 0 1 ⟨0, rfl⟩ ?_
          assumption
        · extract_lets +onlyGivenNames x1
          have e2 : P x1 := by
            unfold x1
            split
            · refine State.see_keep k.sub ?_
              assumption
            · assumption
          clear_value x1
          split
          · refine State.toQ61_keep k.sub ?_
            assumption
          · split
            · split
              · assumption
              · refine State.judgeHere_keep k.sub ?_ ?_
                · split
                  · refine State.relay_keep k.sub ?_
                    assumption
                  · assumption
                · assumption
            · refine State.relay_keep k.sub ?_
              split
              · refine State.relayAct_keep k.sub ?_ ?_
                · assumption
                · assumption
              · assumption

theorem State.countStalls_keep {P : State → Prop} (k : Keeps [.log, .qm, .mend] P) {s1 : State} {a2 : _} (h1 : P s1) : P (State.countStalls s1 a2) := by
  unfold State.countStalls
  split
  · assumption
  · extract_lets +onlyGivenNames x0
    refine foldl_keep (fun t1 x2 e3 => ?_) ?_
    · refine State.pmc_keep k.sub ?_
      assumption
    · assumption

theorem State.countUnseen_keep {P : State → Prop} (k : Keeps [.log, .qm, .mend, .free] P) {s1 : State} {a2 : _} (h1 : P s1) : P (State.countUnseen s1 a2) := by
  unfold State.countUnseen
  refine foldl_keep (fun t0 x1 e2 => ?_) ?_
  · split
    · assumption
    · extract_lets +onlyGivenNames x3
      refine State.pmc_keep k.sub ?_
      unfold x3
      refine (k.at .free) _ ?_
      assumption
  · assumption

theorem State.begin__keep {P : State → Prop} (k : Keeps [.time, .qm, .log, .mend, .free] P) {s1 : State} {a2 : _} (h1 : P s1) : P (State.begin_ s1 a2) := by
  unfold State.begin_
  extract_lets +onlyGivenNames x0
  extract_lets +onlyGivenNames x1
  have e2 : P x1 := by
    unfold x1
    refine (k.at .time) _ _ ?_
    split
    · refine State.endClock_keep k.sub ?_
      assumption
    · assumption
  clear_value x1
  extract_lets +onlyGivenNames x3
  refine State.countUnseen_keep k.sub ?_
  refine State.countStalls_keep k.sub ?_
  split
  · refine State.newClock_keep k.sub ?_
    assumption
  · assumption

theorem State.guardNvm_keep {P : State → Prop} (k : Keeps [.guard] P) {s1 : State} {s2 : State} (h1 : P s1) (h2 : P s2) : P (State.guardNvm s1 s2) :=
  (k.at .guard) _ _ h1 h2

theorem command_keep {P : State → Prop} (k : Keeps ([.mend, .qm, .arr CMP_ERR 0 1, .fresh, .log, .guard, .red, .arr RED_MIRROR 0 1, .time, .free, .arr CMD_SPI_CTRL 0 1, .arr CMD_ERR 0 1, .arr CMD_CACHE 0 1, .cmd, .arr CMD_STAT 0 1, .arr RED_STAT 0 1, .arr RED_EPOCH 0 1, .arr RED_COUNT 0 1, .arr LNK_ROUTE_STAT 0 1, .arr LNK_ROUTE_CFG 0 1, .lnk, .arr (RED_WIT_STAT 0) 16 4, .arr (MEM_ERR 0) 32 5, .arr (MEM_ERR_INFO 0) 32 5, .arr (MEM_ERR_ADDR 0) 32 5] ++ [.arr (MEM_ERR_ADDR 0 + 4) 32 5, .mem, .arr TB_CTRL 0 1, .arr (RED_WIT_CFG 0) 16 4, .arr (RED_WIT_EPOCH 0) 16 4, .arr RED_LEDGER 0 1, .arr (CMD_SLOT_CTR 0) 16 16, .nvm]) P) {op : Nat} {b : Body} {t : Nat} {p : Packet} {s : State} (h : P s) (hb : ∀ c ps s, P s → Res.Holds P (b c ps s)) : ∀ u, command op b t p s = .next u → P u := by
  unfold command
  exact done_keep k.sub (State.guardNvm_keep k.sub h (State.mirrorChanges_keep k.sub (State.receive_keep k.sub (State.begin__keep k.sub h) hb)))

theorem event_keep {P : State → Prop} (k : Keeps [.mend, .qm, .arr CMP_ERR 0 1, .fresh, .log, .guard, .red, .arr RED_MIRROR 0 1, .time, .free] P) {t : Nat} {f : State → State} {s : State} (h : P s) (hf : ∀ s, P s → P (f s)) : ∀ u, event t f s = .next u → P u := by
  unfold event
  exact done_keep k.sub (State.guardNvm_keep k.sub h (State.mirrorChanges_keep k.sub (hf _ (State.begin__keep k.sub h))))

theorem bodyScrub_keep {P : State → Prop} (k : Keeps [.arr MEM_SCRUB_STAT 0 1, .mem] P) {a1 : _} {a2 : _} {s3 : State} (h3 : P s3) : (bodyScrub a1 a2 s3).Holds P := by
  unfold bodyScrub
  extract_lets +onlyGivenNames x0
  extract_lets +onlyGivenNames x1
  extract_lets +onlyGivenNames x2
  extract_lets +onlyGivenNames x3
  extract_lets +onlyGivenNames x4
  extract_lets +onlyGivenNames x5
  extract_lets +onlyGivenNames x6
  extract_lets +onlyGivenNames x7
  refine checked_keep ?_ ?_
  · assumption
  · extract_lets +onlyGivenNames x8
    have e9 : P x8 := by
      unfold x8
      refine setFld_keep k MEM_SCRUB_STAT 0 1 ⟨0, rfl⟩ ?_
      refine setFld_keep k MEM_SCRUB_STAT 0 1 ⟨0, rfl⟩ ?_
      refine setFld_keep k MEM_SCRUB_STAT 0 1 ⟨0, rfl⟩ ?_
      refine setFld_keep k MEM_SCRUB_STAT 0 1 ⟨0, rfl⟩ ?_
      assumption
    clear_value x8
    show P _
    refine (k.at .mem) _ _ ?_
    assumption

theorem scrubWord_keep {P : State → Prop} (k : Keeps [.arr (MEM_ERR 0) 32 5, .fresh, .arr (MEM_ERR_INFO 0) 32 5, .free, .arr (MEM_ERR_ADDR 0) 32 5, .arr (MEM_ERR_ADDR 0 + 4) 32 5, .qm, .log, .mend, .mem] P) {a1 : _} {s2 : State} {a3 : _} (h2 : P s2) : P (scrubWord a1 s2 a3) := by
  unfold scrubWord
  split
  · refine State.memCorrected_keep k.sub ?_
    assumption
  · split
    · refine State.memFound_keep k.sub ?_
      assumption
    · refine State.memUncorrectable_keep k.sub ?_
      assumption

theorem State.scrubStop_keep {P : State → Prop} (k : Keeps [.arr (MEM_ERR 0) 32 5, .fresh, .arr (MEM_ERR_INFO 0) 32 5, .free, .arr (MEM_ERR_ADDR 0) 32 5, .arr (MEM_ERR_ADDR 0 + 4) 32 5, .qm, .log, .mend, .mem, .arr MEM_SCRUB_STAT 0 1] P) {s1 : State} (h1 : P s1) : P (State.scrubStop s1) := by
  unfold State.scrubStop
  split
  · assumption
  · extract_lets +onlyGivenNames x0
    extract_lets +onlyGivenNames x1
    have e2 : P x1 := by
      unfold x1
      refine foldl_keep (fun t3 x4 e5 => ?_) ?_
      · refine scrubWord_keep k.sub ?_
        assumption
      · assumption
    clear_value x1
    extract_lets +onlyGivenNames x6
    have e7 : P x6 := by
      unfold x6
      refine setFld_keep k MEM_SCRUB_STAT 0 1 ⟨0, rfl⟩ ?_
      refine (k.at .mem) _ _ ?_
      assumption
    clear_value x6
    refine setFld_keep k MEM_SCRUB_STAT 0 1 ⟨0, rfl⟩ ?_
    assumption

theorem State.scrubDone_keep {P : State → Prop} (k : Keeps [.arr (MEM_ERR 0) 32 5, .fresh, .arr (MEM_ERR_INFO 0) 32 5, .free, .arr (MEM_ERR_ADDR 0) 32 5, .arr (MEM_ERR_ADDR 0 + 4) 32 5, .qm, .log, .mend, .mem, .arr MEM_SCRUB_STAT 0 1, .cmd, .arr CMD_CACHE 0 1] P) {s1 : State} (h1 : P s1) : P (State.scrubDone s1) := by
  unfold State.scrubDone
  split
  · assumption
  · split
    · assumption
    · extract_lets +onlyGivenNames x0
      extract_lets +onlyGivenNames x1
      extract_lets +onlyGivenNames x2
      extract_lets +onlyGivenNames x3
      extract_lets +onlyGivenNames x4
      have e5 : P x4 := by
        unfold x4
        refine foldl_keep (fun t6 x7 e8 => ?_) ?_
        · refine scrubWord_keep k.sub ?_
          assumption
        · assumption
      clear_value x4
      extract_lets +onlyGivenNames x9
      have e10 : P x9 := by
        unfold x9
        refine setFld_keep k MEM_SCRUB_STAT 0 1 ⟨0, rfl⟩ ?_
        refine setFld_keep k MEM_SCRUB_STAT 0 1 ⟨0, rfl⟩ ?_
        assumption
      clear_value x9
      extract_lets +onlyGivenNames x11
      have e12 : P x11 := by
        unfold x11
        refine (k.at .mem) _ _ ?_
        assumption
      clear_value x11
      refine State.report_keep k.sub ?_
      assumption

theorem execScrubDone_keep {P : State → Prop} (k : Keeps [.mend, .qm, .arr CMP_ERR 0 1, .fresh, .log, .guard, .red, .arr RED_MIRROR 0 1, .time, .free, .arr (MEM_ERR 0) 32 5, .arr (MEM_ERR_INFO 0) 32 5, .arr (MEM_ERR_ADDR 0) 32 5, .arr (MEM_ERR_ADDR 0 + 4) 32 5, .mem, .arr MEM_SCRUB_STAT 0 1, .cmd, .arr CMD_CACHE 0 1] P) {a1 : _} {s2 : State} (h2 : P s2) : ∀ u, execScrubDone a1 s2 = .next u → P u := by
  unfold execScrubDone
  refine event_keep k.sub ?_ ?_
  · assumption
  · intro y0
    intro y1
    refine State.scrubDone_keep k.sub ?_
    assumption

theorem bodyMemStatus_keep {P : State → Prop} (k : Keeps [.arr (MEM_ERR 0) 32 5] P) {a1 : _} {a2 : _} {s3 : State} (h3 : P s3) : (bodyMemStatus a1 a2 s3).Holds P := by
  unfold bodyMemStatus
  extract_lets +onlyGivenNames x0
  refine checked_keep ?_ ?_
  · assumption
  · extract_lets +onlyGivenNames x1
    extract_lets +onlyGivenNames x2
    extract_lets +onlyGivenNames x3
    show P _
    unfold x3
    refine foldl_keep_on (fun z : List Byte × State => z.2) (fun b4 x5 e6 => ?_) ?_
    · extract_lets +onlyGivenNames x7
      extract_lets +onlyGivenNames x8
      extract_lets +onlyGivenNames x9
      unfold x9
      dsimp -zeta only
      split
      · unfold x8
        dsimp -zeta only
        unfold State.takeRc
        extract_lets +onlyGivenNames x10
        dsimp -zeta only
        refine setFld_keep k (MEM_ERR 0) 32 5 ⟨_, rfl⟩ ?_
        unfold x7
        unfold State.takeRc
        extract_lets +onlyGivenNames x11
        dsimp -zeta only
        refine setFld_keep k (MEM_ERR 0) 32 5 ⟨_, rfl⟩ ?_
        assumption
      · assumption
    · assumption

theorem bodyMemInject_keep {P : State → Prop} (k : Keeps [.arr (MEM_ERR 0) 32 5, .fresh, .arr (MEM_ERR_INFO 0) 32 5, .free, .arr (MEM_ERR_ADDR 0) 32 5, .arr (MEM_ERR_ADDR 0 + 4) 32 5, .qm, .log, .mend, .mem] P) {a1 : _} {a2 : _} {s3 : State} (h3 : P s3) : (bodyMemInject a1 a2 s3).Holds P := by
  unfold bodyMemInject
  extract_lets +onlyGivenNames x0
  extract_lets +onlyGivenNames x1
  extract_lets +onlyGivenNames x2
  refine checked_keep ?_ ?_
  · assumption
  · extract_lets +onlyGivenNames x3
    split
    · show P _
      refine State.memRead_keep k.sub ?_
      assumption
    · show P _
      refine (k.at .mem) _ _ ?_
      refine State.heal_keep k.sub ?_
      refine State.memRead_keep k.sub ?_
      assumption

theorem State.dramTemp_keep {P : State → Prop} (k : Keeps [.mem] P) {s1 : State} {a2 : _} (h1 : P s1) : P (State.dramTemp s1 a2) := by
  unfold State.dramTemp
  split
  · assumption
  · refine (k.at .mem) _ _ ?_
    assumption

theorem execDramTempPoll_keep {P : State → Prop} (k : Keeps [.mend, .qm, .arr CMP_ERR 0 1, .fresh, .log, .guard, .red, .arr RED_MIRROR 0 1, .time, .free, .mem] P) {a1 : _} {a2 : _} {s3 : State} (h3 : P s3) : ∀ u, execDramTempPoll a1 a2 s3 = .next u → P u := by
  unfold execDramTempPoll
  refine event_keep k.sub ?_ ?_
  · assumption
  · intro y0
    intro y1
    refine State.dramTemp_keep k.sub ?_
    assumption

theorem State.countCompressed_keep {P : State → Prop} (k : Keeps [.cmp, .arr CMP_STAT 0 1, .fresh] P) {s1 : State} (h1 : P s1) : P (State.countCompressed s1) := by
  unfold State.countCompressed
  extract_lets +onlyGivenNames x0
  refine (k.at .cmp) _ _ ?_
  refine bumpBy_keep k CMP_STAT 0 1 ⟨0, rfl⟩ ?_
  assumption

theorem State.countCmp_keep {P : State → Prop} (k : Keeps [.cmp, .log, .qm, .mend] P) {s1 : State} {a2 : _} {a3 : _} (h1 : P s1) : P (State.countCmp s1 a2 a3) := by
  unfold State.countCmp
  extract_lets +onlyGivenNames x0
  extract_lets +onlyGivenNames x1
  extract_lets +onlyGivenNames x2
  have e3 : P x2 := by
    unfold x2
    refine (k.at .cmp) _ _ ?_
    assumption
  clear_value x2
  refine State.pmc_keep k.sub ?_
  refine State.pmc_keep k.sub ?_
  assumption

theorem State.compress_keep {P : State → Prop} (k : Keeps [.cmp, .log, .qm, .mend, .arr CMP_STAT 0 1, .fresh, .arr CMP_RATIO 0 1] P) {s1 : State} {a2 : _} (h1 : P s1) : P (State.compress s1 a2).2 := by
  unfold State.compress
  extract_lets +onlyGivenNames x0
  extract_lets +onlyGivenNames x1
  extract_lets +onlyGivenNames x2
  have e3 : P x2 := by
    unfold x2
    refine State.countCmp_keep k.sub ?_
    assumption
  clear_value x2
  split
  · extract_lets +onlyGivenNames x4
    dsimp -zeta only
    refine State.issue_keep k.sub ?_
    refine bump_keep k CMP_STAT 0 1 ⟨0, rfl⟩ ?_
    assumption
  · split
    · dsimp -zeta only
      refine bump_keep k CMP_RATIO 0 1 ⟨0, rfl⟩ ?_
      assumption
    · dsimp -zeta only
      refine State.countCompressed_keep k.sub ?_
      assumption

theorem State.dropMore_keep {P : State → Prop} (k : Keeps [.qm, .mend, .log] P) {s1 : State} {a2 : _} (h1 : P s1) : P (State.dropMore s1 a2) := by
  induction a2 generalizing s1 with
  | zero => exact h1
  | succ n ih =>
    unfold State.dropMore
    split
    · assumption
    · split
      · assumption
      · exact ih ((k.at .qm) _ _ (State.dropRec_keep k.sub h1))

theorem State.exhaust_keep {P : State → Prop} (k : Keeps [.qm, .log, .mend] P) {s1 : State} (h1 : P s1) : P (State.exhaust s1) := by
  unfold State.exhaust
  extract_lets +onlyGivenNames x0
  have e1 : P x0 := by
    unfold x0
    split
    · assumption
    · refine (k.at .qm) _ _ ?_
      refine State.issue_keep k.sub ?_
      refine setFld_keep_log k logAddr_drop ?_
      assumption
  clear_value x0
  refine State.retNormal_keep k.sub ?_
  refine State.dropMore_keep k.sub ?_
  assumption

theorem State.storeRec_keep {P : State → Prop} (k : Keeps [.qm, .log, .mend, .arr (MEM_ERR 0) 32 5, .fresh, .arr (MEM_ERR_INFO 0) 32 5, .free, .arr (MEM_ERR_ADDR 0) 32 5, .arr (MEM_ERR_ADDR 0 + 4) 32 5, .mem] P) {s1 : State} {a2 : _} (h1 : P s1) : P (State.storeRec s1 a2) := by
  unfold State.storeRec
  split
  · assumption
  · extract_lets +onlyGivenNames x0
    extract_lets +onlyGivenNames x1
    have e2 : P x1 := by
      unfold x1
      split
      · refine State.exhaust_keep k.sub ?_
        assumption
      · assumption
    clear_value x1
    split
    · assumption
    · extract_lets +onlyGivenNames x3
      extract_lets +onlyGivenNames x4
      have e5 : P x4 := by
        unfold x4
        refine (k.at .qm) _ _ ?_
        assumption
      clear_value x4
      extract_lets +onlyGivenNames x6
      have e7 : P x6 := by
        unfold x6
        refine State.memWriteRange_keep k.sub ?_
        assumption
      clear_value x6
      refine State.pmc_keep k.sub ?_
      refine State.onRec_keep k.sub ?_
      assumption

theorem State.startSpill_keep {P : State → Prop} (k : Keeps [.qm, .log, .mend, .arr (MEM_ERR 0) 32 5, .fresh, .arr (MEM_ERR_INFO 0) 32 5, .free, .arr (MEM_ERR_ADDR 0) 32 5, .arr (MEM_ERR_ADDR 0 + 4) 32 5, .mem] P) {s1 : State} {a2 : _} (h1 : P s1) : P (State.startSpill s1 a2) := by
  unfold State.startSpill
  split
  · assumption
  · extract_lets +onlyGivenNames x0
    have e1 : P x0 := by
      unfold x0
      refine State.onRec_keep k.sub ?_
      assumption
    clear_value x0
    split
    · assumption
    · refine State.storeRec_keep k.sub ?_
      assumption

theorem State.finishSpill_keep {P : State → Prop} (k : Keeps [.qm, .log, .mend, .arr (MEM_ERR 0) 32 5, .fresh, .arr (MEM_ERR_INFO 0) 32 5, .free, .arr (MEM_ERR_ADDR 0) 32 5, .arr (MEM_ERR_ADDR 0 + 4) 32 5, .mem, .cmp, .arr CMP_STAT 0 1, .arr CMP_RATIO 0 1] P) {s1 : State} {a2 : _} (h1 : P s1) : P (State.finishSpill s1 a2) := by
  unfold State.finishSpill
  extract_lets +onlyGivenNames x0
  refine State.storeRec_keep k.sub ?_
  refine State.onRec_keep k.sub ?_
  refine State.compress_keep k.sub ?_
  assumption

theorem State.spill_keep {P : State → Prop} (k : Keeps [.qm, .log, .mend, .arr (MEM_ERR 0) 32 5, .fresh, .arr (MEM_ERR_INFO 0) 32 5, .free, .arr (MEM_ERR_ADDR 0) 32 5, .arr (MEM_ERR_ADDR 0 + 4) 32 5, .mem] P) {s1 : State} {a2 : _} (h1 : P s1) : P (State.spill s1 a2) := by
  unfold State.spill
  split
  · assumption
  · split
    · refine State.startSpill_keep k.sub ?_
      assumption
    · assumption

theorem execSpill_keep {P : State → Prop} (k : Keeps [.mend, .qm, .arr CMP_ERR 0 1, .fresh, .log, .guard, .red, .arr RED_MIRROR 0 1, .time, .free, .arr (MEM_ERR 0) 32 5, .arr (MEM_ERR_INFO 0) 32 5, .arr (MEM_ERR_ADDR 0) 32 5, .arr (MEM_ERR_ADDR 0 + 4) 32 5, .mem] P) {a1 : _} {a2 : _} {s3 : State} (h3 : P s3) : ∀ u, execSpill a1 a2 s3 = .next u → P u := by
  unfold execSpill
  refine event_keep k.sub ?_ ?_
  · assumption
  · intro y0
    intro y1
    refine State.spill_keep k.sub ?_
    assumption

theorem State.decodeError_keep {P : State → Prop} (k : Keeps [.arr CMP_LAST_ERR 0 1, .arr CMP_ERR 0 1, .fresh, .qm, .log, .mend, .arr CMP_LAST_POS 0 1] P) {s1 : State} {a2 : _} {a3 : _} {a4 : _} (h1 : P s1) : P (State.decodeError s1 a2 a3 a4) := by
  unfold State.decodeError
  extract_lets +onlyGivenNames x0
  have e1 : P x0 := by
    unfold x0
    refine setFld_keep k CMP_LAST_ERR 0 1 ⟨0, rfl⟩ ?_
    refine bump_keep k CMP_ERR 0 1 ⟨0, rfl⟩ ?_
    assumption
  clear_value x0
  extract_lets +onlyGivenNames x2
  have e3 : P x2 := by
    unfold x2
    refine setFld_keep k CMP_LAST_ERR 0 1 ⟨0, rfl⟩ ?_
    refine setFld_keep k CMP_LAST_ERR 0 1 ⟨0, rfl⟩ ?_
    assumption
  clear_value x2
  refine State.issue_keep k.sub ?_
  refine setFld_keep k CMP_LAST_POS 0 1 ⟨0, rfl⟩ ?_
  assumption

theorem State.retentionReturn_keep {P : State → Prop} (k : Keeps [.arr (MEM_ERR 0) 32 5, .fresh, .arr (MEM_ERR_INFO 0) 32 5, .free, .arr (MEM_ERR_ADDR 0) 32 5, .arr (MEM_ERR_ADDR 0 + 4) 32 5, .qm, .log, .mend, .mem, .arr CMP_LAST_ERR 0 1, .arr CMP_ERR 0 1, .arr CMP_LAST_POS 0 1] P) {s1 : State} {a2 : _} (h1 : P s1) : P (State.retentionReturn s1 a2) := by
  unfold State.retentionReturn
  split
  · assumption
  · split
    · assumption
    · split
      · assumption
      · extract_lets +onlyGivenNames x0
        extract_lets +onlyGivenNames x1
        extract_lets +onlyGivenNames x2
        have e3 : P x2 := by
          unfold x2
          refine State.memReadRange_keep k.sub ?_
          assumption
        clear_value x2
        extract_lets +onlyGivenNames x4
        split
        · unfold x4
          refine State.dropRec_keep k.sub ?_
          assumption
        · extract_lets +onlyGivenNames x5
          split
          · unfold x4
            refine State.dropRec_keep k.sub ?_
            refine State.decodeError_keep k.sub ?_
            assumption
          · extract_lets +onlyGivenNames x6
            have e7 : P x6 := by
              unfold x6
              refine State.wroteCells_keep k.sub ?_
              assumption
            clear_value x6
            refine State.pmc_keep k.sub ?_
            refine State.onRec_keep k.sub ?_
            assumption

theorem execRetentionReturn_keep {P : State → Prop} (k : Keeps [.mend, .qm, .arr CMP_ERR 0 1, .fresh, .log, .guard, .red, .arr RED_MIRROR 0 1, .time, .free, .arr (MEM_ERR 0) 32 5, .arr (MEM_ERR_INFO 0) 32 5, .arr (MEM_ERR_ADDR 0) 32 5, .arr (MEM_ERR_ADDR 0 + 4) 32 5, .mem, .arr CMP_LAST_ERR 0 1, .arr CMP_LAST_POS 0 1] P) {a1 : _} {a2 : _} {s3 : State} (h3 : P s3) : ∀ u, execRetentionReturn a1 a2 s3 = .next u → P u := by
  unfold execRetentionReturn
  refine event_keep k.sub ?_ ?_
  · assumption
  · intro y0
    intro y1
    refine State.retentionReturn_keep k.sub ?_
    assumption

theorem State.resume_keep {P : State → Prop} (k : Keeps [.qm, .log, .mend] P) {s1 : State} {a2 : _} (h1 : P s1) : P (State.resume s1 a2) := by
  unfold State.resume
  refine foldl_keep (fun t0 x1 e2 => ?_) ?_
  · refine State.pushRec_keep k.sub ?_
    assumption
  · assumption

theorem execPushResumed_keep {P : State → Prop} (k : Keeps [.mend, .qm, .arr CMP_ERR 0 1, .fresh, .log, .guard, .red, .arr RED_MIRROR 0 1, .time, .free] P) {a1 : _} {a2 : _} {s3 : State} (h3 : P s3) : ∀ u, execPushResumed a1 a2 s3 = .next u → P u := by
  unfold execPushResumed
  refine event_keep k.sub ?_ ?_
  · assumption
  · intro y0
    intro y1
    refine State.resume_keep k.sub ?_
    assumption

theorem State.relTimeout_keep {P : State → Prop} (k : Keeps [.qm] P) {s1 : State} {a2 : _} (h1 : P s1) : P (State.relTimeout s1 a2) := by
  unfold State.relTimeout
  extract_lets +onlyGivenNames x0
  split
  · refine State.askRewind_keep k.sub ?_
    assumption
  · assumption

theorem execRewindTimeout_keep {P : State → Prop} (k : Keeps [.mend, .qm, .arr CMP_ERR 0 1, .fresh, .log, .guard, .red, .arr RED_MIRROR 0 1, .time, .free] P) {a1 : _} {a2 : _} {s3 : State} (h3 : P s3) : ∀ u, execRewindTimeout a1 a2 s3 = .next u → P u := by
  unfold execRewindTimeout
  refine event_keep k.sub ?_ ?_
  · assumption
  · intro y0
    intro y1
    refine State.relTimeout_keep k.sub ?_
    assumption

theorem State.rewindNow_keep {P : State → Prop} (k : Keeps [.qm, .arr QM_RET_STAT 0 1, .fresh, .log, .mend] P) {s1 : State} {a2 : _} (h1 : P s1) : P (State.rewindNow s1 a2) := by
  unfold State.rewindNow
  split
  · split
    · assumption
    · refine State.rewind_keep k.sub ?_
      assumption
  · assumption

theorem execRewindApply_keep {P : State → Prop} (k : Keeps [.mend, .qm, .arr CMP_ERR 0 1, .fresh, .log, .guard, .red, .arr RED_MIRROR 0 1, .time, .free, .arr QM_RET_STAT 0 1] P) {a1 : _} {a2 : _} {s3 : State} (h3 : P s3) : ∀ u, execRewindApply a1 a2 s3 = .next u → P u := by
  unfold execRewindApply
  refine event_keep k.sub ?_ ?_
  · assumption
  · intro y0
    intro y1
    refine State.rewindNow_keep k.sub ?_
    assumption

theorem State.releaseEntry_keep {P : State → Prop} (k : Keeps [.arr QM_REL_STAT 0 1, .fresh, .qm, .log, .mend] P) {s1 : State} {a2 : _} (h1 : P s1) : P (State.releaseEntry s1 a2).2.2 := by
  unfold State.releaseEntry
  split
  · assumption
  · extract_lets +onlyGivenNames x0
    split
    · dsimp -zeta only
      refine bump_keep k QM_REL_STAT 0 1 ⟨0, rfl⟩ ?_
      assumption
    · extract_lets +onlyGivenNames x1
      extract_lets +onlyGivenNames x2
      have e3 : P x2 := by
        unfold x2
        refine foldl_keep (fun t4 x5 e6 => ?_) ?_
        · refine State.onQst_keep k.sub ?_
          assumption
        · assumption
      clear_value x2
      extract_lets +onlyGivenNames x7
      have e8 : P x7 := by
        unfold x7
        refine State.pmc_keep k.sub ?_
        refine (k.at .qm) _ _ ?_
        assumption
      clear_value x7
      dsimp -zeta only
      refine (k.at .qm) _ _ ?_
      refine bumpBy_keep k QM_REL_STAT 0 1 ⟨0, rfl⟩ ?_
      assumption

theorem bodyRelease_keep {P : State → Prop} (k : Keeps [.red, .arr RED_MIRROR 0 1, .mend, .qm, .arr RED_LEDGER 0 1, .fresh, .arr (MEM_ERR 0) 32 5, .arr (MEM_ERR_INFO 0) 32 5, .free, .arr (MEM_ERR_ADDR 0) 32 5, .arr (MEM_ERR_ADDR 0 + 4) 32 5, .log, .mem, .arr QM_REL_STAT 0 1] P) {a1 : _} {a2 : _} {s3 : State} (h3 : P s3) : (bodyRelease a1 a2 s3).Holds P := by
  unfold bodyRelease
  extract_lets +onlyGivenNames x0
  extract_lets +onlyGivenNames x1
  refine checked_keep ?_ ?_
  · assumption
  · extract_lets +onlyGivenNames x2
    extract_lets +onlyGivenNames x3
    have e4 : P x3 := by
      unfold x3
      split
      · refine State.ledgerAdd_keep k.sub ?_
        assumption
      · assumption
    clear_value x3
    extract_lets +onlyGivenNames x5
    extract_lets +onlyGivenNames x6
    have e7 : P x6 := by
      unfold x6
      refine State.retNormal_keep k.sub ?_
      unfold x5
      refine foldl_keep_on (fun z : Nat × Nat × State => z.2.2) (fun b8 x9 e10 => ?_) ?_
      · extract_lets +onlyGivenNames x11
        refine State.releaseEntry_keep k.sub ?_
        assumption
      · assumption
    clear_value x6
    split
    · show P _
      assumption
    · show P _
      assumption

theorem State.setWatermark_keep {P : State → Prop} (k : Keeps [.arr (QM_Q_WM 0) 32 64, .qm] P) {s1 : State} {a2 : _} {a3 : _} (h1 : P s1) : P (State.setWatermark s1 a2 a3) := by
  unfold State.setWatermark
  extract_lets +onlyGivenNames x0
  have e1 : P x0 := by
    unfold x0
    refine (k.at (.arr (QM_Q_WM 0) 32 64)) _ _ _ ⟨_, rfl⟩ ?_
    assumption
  clear_value x0
  split
  · assumption
  · refine State.onQst_keep k.sub ?_
    assumption

theorem bodyQueueConfig_keep {P : State → Prop} (k : Keeps [.arr (QM_Q_WM 0) 32 64, .qm, .arr (QM_Q_CFG 0) 32 64] P) {a1 : _} {a2 : _} {s3 : State} (h3 : P s3) : (bodyQueueConfig a1 a2 s3).Holds P := by
  unfold bodyQueueConfig
  extract_lets +onlyGivenNames x0
  extract_lets +onlyGivenNames x1
  extract_lets +onlyGivenNames x2
  refine checked_keep ?_ ?_
  · assumption
  · show P _
    refine State.setWatermark_keep k.sub ?_
    refine (k.at (.arr (QM_Q_CFG 0) 32 64)) _ _ _ ⟨_, rfl⟩ ?_
    assumption

theorem State.clearQueue_keep {P : State → Prop} (k : Keeps [.qm, .log] P) {s1 : State} {a2 : _} (h1 : P s1) : P (State.clearQueue s1 a2).2 := by
  unfold State.clearQueue
  extract_lets +onlyGivenNames x0
  extract_lets +onlyGivenNames x1
  extract_lets +onlyGivenNames x2
  extract_lets +onlyGivenNames x3
  extract_lets +onlyGivenNames x4
  extract_lets +onlyGivenNames x5
  dsimp -zeta only
  refine State.onQst_keep k.sub ?_
  refine setFld_keep_log k (logAddr_flags _) ?_
  refine setFld_keep_log k (logAddr_flags _) ?_
  unfold x1
  unfold State.takeRc
  extract_lets +onlyGivenNames x6
  dsimp -zeta only
  refine setFld_keep_log k (logAddr_flags _) ?_
  assumption

theorem bodyQueueStatus_keep {P : State → Prop} (k : Keeps [.qm, .log] P) {a1 : _} {a2 : _} {s3 : State} (h3 : P s3) : (bodyQueueStatus a1 a2 s3).Holds P := by
  unfold bodyQueueStatus
  extract_lets +onlyGivenNames x0
  extract_lets +onlyGivenNames x1
  extract_lets +onlyGivenNames x2
  refine checked_keep ?_ ?_
  · assumption
  · extract_lets +onlyGivenNames x3
    extract_lets +onlyGivenNames x4
    show P _
    unfold x4
    refine foldl_keep_on (fun z : List Byte × State => z.2) (fun b5 x6 e7 => ?_) ?_
    · extract_lets +onlyGivenNames x8
      unfold x8
      dsimp -zeta only
      unfold x3
      split
      · refine State.clearQueue_keep k.sub ?_
        assumption
      · assumption
    · assumption

theorem bodyRetentionConfig_keep {P : State → Prop} (k : Keeps [.arr QM_CTRL 0 1, .arr QM_RET_CFG 0 1] P) {a1 : _} {a2 : _} {s3 : State} (h3 : P s3) : (bodyRetentionConfig a1 a2 s3).Holds P := by
  unfold bodyRetentionConfig
  extract_lets +onlyGivenNames x0
  extract_lets +onlyGivenNames x1
  refine checked_keep ?_ ?_
  · assumption
  · show P _
    refine (k.at (.arr QM_CTRL 0 1)) _ _ _ ⟨0, rfl⟩ ?_
    refine (k.at (.arr QM_RET_CFG 0 1)) _ _ _ ⟨0, rfl⟩ ?_
    assumption

theorem State.shutEvent_keep {P : State → Prop} (k : Keeps [.qm, .log, .mend] P) {s1 : State} {a2 : _} {a3 : _} (h1 : P s1) : P (State.shutEvent s1 a2 a3) := by
  unfold State.shutEvent
  refine State.issue_keep k.sub ?_
  assumption

theorem State.shutChange_keep {P : State → Prop} (k : Keeps [.qm] P) {s1 : State} {a2 : _} (h1 : P s1) : P (State.shutChange s1 a2) := by
  unfold State.shutChange
  extract_lets +onlyGivenNames x0
  refine (k.at .qm) _ _ ?_
  assumption

theorem State.installShutter_keep {P : State → Prop} (k : Keeps [.qm, .arr (QM_SHUT_CTRL 0) 16 32, .arr (QM_SHUT_HUB 0) 16 32, .arr (QM_SHUT_CHAN 0) 16 32, .arr (QM_SHUT_TYPE 0) 16 32, .log, .mend] P) {s1 : State} {a2 : _} {a3 : _} (h1 : P s1) : P (State.installShutter s1 a2 a3) := by
  unfold State.installShutter
  extract_lets +onlyGivenNames x0
  extract_lets +onlyGivenNames x1
  extract_lets +onlyGivenNames x2
  have e3 : P x2 := by
    unfold x2
    refine State.shutChange_keep k.sub ?_
    assumption
  clear_value x2
  extract_lets +onlyGivenNames x4
  have e5 : P x4 := by
    unfold x4
    refine setFld_keep k (QM_SHUT_CTRL 0) 16 32 ⟨_, rfl⟩ ?_
    refine setFld_keep k (QM_SHUT_CTRL 0) 16 32 ⟨_, rfl⟩ ?_
    refine setFld_keep k (QM_SHUT_CTRL 0) 16 32 ⟨_, rfl⟩ ?_
    refine setFld_keep k (QM_SHUT_CTRL 0) 16 32 ⟨_, rfl⟩ ?_
    refine setFld_keep k (QM_SHUT_CTRL 0) 16 32 ⟨_, rfl⟩ ?_
    assumption
  clear_value x4
  extract_lets +onlyGivenNames x6
  have e7 : P x6 := by
    unfold x6
    refine setFld_keep k (QM_SHUT_HUB 0) 16 32 ⟨_, rfl⟩ ?_
    refine setFld_keep k (QM_SHUT_HUB 0) 16 32 ⟨_, rfl⟩ ?_
    assumption
  clear_value x6
  extract_lets +onlyGivenNames x8
  have e9 : P x8 := by
    unfold x8
    refine setFld_keep k (QM_SHUT_CHAN 0) 16 32 ⟨_, rfl⟩ ?_
    refine setFld_keep k (QM_SHUT_CHAN 0) 16 32 ⟨_, rfl⟩ ?_
    assumption
  clear_value x8
  extract_lets +onlyGivenNames x10
  have e11 : P x10 := by
    unfold x10
    refine setFld_keep k (QM_SHUT_TYPE 0) 16 32 ⟨_, rfl⟩ ?_
    assumption
  clear_value x10
  extract_lets +onlyGivenNames x12
  have e13 : P x12 := by
    unfold x12
    refine (k.at .qm) _ _ ?_
    assumption
  clear_value x12
  refine State.shutEvent_keep k.sub ?_
  assumption

theorem bodyShutter_keep {P : State → Prop} (k : Keeps [.qm, .arr (QM_SHUT_CTRL 0) 16 32, .arr (QM_SHUT_HUB 0) 16 32, .arr (QM_SHUT_CHAN 0) 16 32, .arr (QM_SHUT_TYPE 0) 16 32, .log, .mend] P) {a1 : _} {a2 : _} {s3 : State} (h3 : P s3) : (bodyShutter a1 a2 s3).Holds P := by
  unfold bodyShutter
  extract_lets +onlyGivenNames x0
  extract_lets +onlyGivenNames x1
  refine checked_keep ?_ ?_
  · assumption
  · split
    · show P _
      refine State.installShutter_keep k.sub ?_
      assumption
    · show P _
      assumption

theorem State.openShutter_keep {P : State → Prop} (k : Keeps [.qm, .log, .mend, .arr (QM_SHUT_TYPE 0) 16 32, .arr (QM_SHUT_CHAN 0) 16 32, .arr (QM_SHUT_HUB 0) 16 32, .arr (QM_SHUT_CTRL 0) 16 32] P) {s1 : State} {a2 : _} {a3 : _} (h1 : P s1) : P (State.openShutter s1 a2 a3) := by
  unfold State.openShutter
  extract_lets +onlyGivenNames x0
  have e1 : P x0 := by
    unfold x0
    refine State.shutEvent_keep k.sub ?_
    assumption
  clear_value x0
  refine (k.at .qm) _ _ ?_
  refine (k.at (.arr (QM_SHUT_TYPE 0) 16 32)) _ _ _ ⟨_, rfl⟩ ?_
  refine (k.at (.arr (QM_SHUT_CHAN 0) 16 32)) _ _ _ ⟨_, rfl⟩ ?_
  refine (k.at (.arr (QM_SHUT_HUB 0) 16 32)) _ _ _ ⟨_, rfl⟩ ?_
  refine (k.at (.arr (QM_SHUT_CTRL 0) 16 32)) _ _ _ ⟨_, rfl⟩ ?_
  assumption

theorem bodyShutterOpen_keep {P : State → Prop} (k : Keeps [.qm, .log, .mend, .arr (QM_SHUT_TYPE 0) 16 32, .arr (QM_SHUT_CHAN 0) 16 32, .arr (QM_SHUT_HUB 0) 16 32, .arr (QM_SHUT_CTRL 0) 16 32] P) {a1 : _} {a2 : _} {s3 : State} (h3 : P s3) : (bodyShutterOpen a1 a2 s3).Holds P := by
  unfold bodyShutterOpen
  extract_lets +onlyGivenNames x0
  refine checked_keep ?_ ?_
  · assumption
  · show P _
    refine foldl_keep (fun t1 x2 e3 => ?_) ?_
    · refine State.openShutter_keep k.sub ?_
      assumption
    · assumption

theorem State.shutExpire_keep {P : State → Prop} (k : Keeps [.qm, .log, .mend, .arr (QM_SHUT_TYPE 0) 16 32, .arr (QM_SHUT_CHAN 0) 16 32, .arr (QM_SHUT_HUB 0) 16 32, .arr (QM_SHUT_CTRL 0) 16 32] P) {s1 : State} {a2 : _} (h1 : P s1) : P (State.shutExpire s1 a2) := by
  unfold State.shutExpire
  extract_lets +onlyGivenNames x0
  split
  · refine State.openShutter_keep k.sub ?_
    assumption
  · assumption

theorem execShutterExpiry_keep {P : State → Prop} (k : Keeps [.mend, .qm, .arr CMP_ERR 0 1, .fresh, .log, .guard, .red, .arr RED_MIRROR 0 1, .time, .free, .arr (QM_SHUT_TYPE 0) 16 32, .arr (QM_SHUT_CHAN 0) 16 32, .arr (QM_SHUT_HUB 0) 16 32, .arr (QM_SHUT_CTRL 0) 16 32] P) {a1 : _} {a2 : _} {s3 : State} (h3 : P s3) : ∀ u, execShutterExpiry a1 a2 s3 = .next u → P u := by
  unfold execShutterExpiry
  refine event_keep k.sub ?_ ?_
  · assumption
  · intro y0
    intro y1
    refine State.shutExpire_keep k.sub ?_
    assumption

theorem State.evClose_keep {P : State → Prop} (k : Keeps [.mend, .qm] P) {s1 : State} (h1 : P s1) : P (State.evClose s1) := by
  unfold State.evClose
  split
  · split
    · refine State.closeEvents_keep k.sub ?_
      assumption
    · assumption
  · assumption

theorem execEventRecordClose_keep {P : State → Prop} (k : Keeps [.mend, .qm, .arr CMP_ERR 0 1, .fresh, .log, .guard, .red, .arr RED_MIRROR 0 1, .time, .free] P) {a1 : _} {s2 : State} (h2 : P s2) : ∀ u, execEventRecordClose a1 s2 = .next u → P u := by
  unfold execEventRecordClose
  refine event_keep k.sub ?_ ?_
  · assumption
  · intro y0
    intro y1
    refine State.evClose_keep k.sub ?_
    assumption

theorem State.leaveEngine_keep {P : State → Prop} (k : Keeps [.qm] P) {s1 : State} {a2 : _} {a3 : _} (h1 : P s1) : P (State.leaveEngine s1 a2 a3) := by
  unfold State.leaveEngine
  refine (k.at .qm) _ _ ?_
  assumption

theorem State.recordDone_keep {P : State → Prop} (k : Keeps [.qm, .cmp, .log, .mend, .arr CMP_STAT 0 1, .fresh, .arr CMP_RATIO 0 1, .arr (MEM_ERR 0) 32 5, .arr (MEM_ERR_INFO 0) 32 5, .free, .arr (MEM_ERR_ADDR 0) 32 5, .arr (MEM_ERR_ADDR 0 + 4) 32 5, .mem] P) {s1 : State} {a2 : _} (h1 : P s1) : P (State.recordDone s1 a2) := by
  unfold State.recordDone
  extract_lets +onlyGivenNames x0
  split
  · split
    · assumption
    · extract_lets +onlyGivenNames x1
      split
      · refine State.leaveEngine_keep k.sub ?_
        refine State.compress_keep k.sub ?_
        assumption
      · refine State.leaveEngine_keep k.sub ?_
        refine State.compress_keep k.sub ?_
        assumption
  · split
    · refine State.finishSpill_keep k.sub ?_
      assumption
    · assumption

theorem execCmpRecordDone_keep {P : State → Prop} (k : Keeps [.mend, .qm, .arr CMP_ERR 0 1, .fresh, .log, .guard, .red, .arr RED_MIRROR 0 1, .time, .free, .cmp, .arr CMP_STAT 0 1, .arr CMP_RATIO 0 1, .arr (MEM_ERR 0) 32 5, .arr (MEM_ERR_INFO 0) 32 5, .arr (MEM_ERR_ADDR 0) 32 5, .arr (MEM_ERR_ADDR 0 + 4) 32 5, .mem] P) {a1 : _} {a2 : _} {s3 : State} (h3 : P s3) : ∀ u, execCmpRecordDone a1 a2 s3 = .next u → P u := by
  unfold execCmpRecordDone
  refine event_keep k.sub ?_ ?_
  · assumption
  · intro y0
    intro y1
    refine State.recordDone_keep k.sub ?_
    assumption

theorem bodyCmpConfig_keep {P : State → Prop} (k : Keeps [.arr CMP_CTRL 0 1] P) {a1 : _} {a2 : _} {s3 : State} (h3 : P s3) : (bodyCmpConfig a1 a2 s3).Holds P := by
  unfold bodyCmpConfig
  extract_lets +onlyGivenNames x0
  refine checked_keep ?_ ?_
  · assumption
  · show P _
    refine (k.at (.arr CMP_CTRL 0 1)) _ _ _ ⟨0, rfl⟩ ?_
    assumption

theorem State.setSlot_keep {P : State → Prop} (k : Keeps [.cmp, .arr (CMP_SLOT 0) 16 4, .arr (CMP_SLOT_OUT 0) 16 4] P) {s1 : State} {a2 : _} {a3 : _} {a4 : _} (h1 : P s1) : P (State.setSlot s1 a2 a3 a4) := by
  unfold State.setSlot
  extract_lets +onlyGivenNames x0
  have e1 : P x0 := by
    unfold x0
    refine (k.at .cmp) _ _ ?_
    assumption
  clear_value x0
  extract_lets +onlyGivenNames x2
  have e3 : P x2 := by
    unfold x2
    refine setFld_keep k (CMP_SLOT 0) 16 4 ⟨_, rfl⟩ ?_
    refine setFld_keep k (CMP_SLOT 0) 16 4 ⟨_, rfl⟩ ?_
    refine setFld_keep k (CMP_SLOT 0) 16 4 ⟨_, rfl⟩ ?_
    assumption
  clear_value x2
  refine setFld_keep k (CMP_SLOT_OUT 0) 16 4 ⟨_, rfl⟩ ?_
  refine setFld_keep k (CMP_SLOT 0) 16 4 ⟨_, rfl⟩ ?_
  assumption

theorem State.workRead_keep {P : State → Prop} (k : Keeps [.arr (MEM_ERR 0) 32 5, .fresh, .arr (MEM_ERR_INFO 0) 32 5, .free, .arr (MEM_ERR_ADDR 0) 32 5, .arr (MEM_ERR_ADDR 0 + 4) 32 5, .qm, .log, .mend, .mem] P) {s1 : State} {a2 : _} {a3 : _} (h1 : P s1) : P (State.workRead s1 a2 a3).2.2 := by
  unfold State.workRead
  extract_lets +onlyGivenNames x0
  refine State.memReadRange_keep k.sub ?_
  assumption

theorem State.workWrite_keep {P : State → Prop} (k : Keeps [.work, .mend, .arr (MEM_ERR 0) 32 5, .fresh, .arr (MEM_ERR_INFO 0) 32 5, .free, .arr (MEM_ERR_ADDR 0) 32 5, .arr (MEM_ERR_ADDR 0 + 4) 32 5, .qm, .log, .mem] P) {s1 : State} {a2 : _} {a3 : _} (h1 : P s1) : P (State.workWrite s1 a2 a3) := by
  unfold State.workWrite
  refine (k.at .work) _ _ _ ?_
  refine State.memWriteRange_keep k.sub ?_
  assumption

theorem State.fillChain_keep {P : State → Prop} (k : Keeps [.work, .mend, .arr (MEM_ERR 0) 32 5, .fresh, .arr (MEM_ERR_INFO 0) 32 5, .free, .arr (MEM_ERR_ADDR 0) 32 5, .arr (MEM_ERR_ADDR 0 + 4) 32 5, .qm, .log, .mem] P) {s1 : State} {a2 : _} {a3 : _} (h1 : P s1) : P (State.fillChain s1 a2 a3).2.2 := by
  induction a2 generalizing s1 a3 with
  | nil => cases a3 <;> exact h1
  | cons x l ih =>
    cases a3 with
    | nil => exact h1
    | cons y m =>
      unfold State.fillChain
      split
      · exact State.workWrite_keep k.sub h1
      · exact ih (State.workWrite_keep k.sub h1)

theorem bodyCmpJob_keep {P : State → Prop} (k : Keeps [.cmp, .arr (CMP_SLOT 0) 16 4, .arr (CMP_SLOT_OUT 0) 16 4] P) {a1 : _} {a2 : _} {s3 : State} (h3 : P s3) : (bodyCmpJob a1 a2 s3).Holds P := by
  unfold bodyCmpJob
  extract_lets +onlyGivenNames x0
  extract_lets +onlyGivenNames x1
  extract_lets +onlyGivenNames x2
  extract_lets +onlyGivenNames x3
  extract_lets +onlyGivenNames x4
  extract_lets +onlyGivenNames x5
  extract_lets +onlyGivenNames x6
  extract_lets +onlyGivenNames x7
  extract_lets +onlyGivenNames x8
  extract_lets +onlyGivenNames x9
  refine checked_keep ?_ ?_
  · assumption
  · extract_lets +onlyGivenNames x10
    extract_lets +onlyGivenNames x11
    have e12 : P x11 := by
      unfold x11
      refine (k.at .cmp) _ _ ?_
      assumption
    clear_value x11
    show P _
    split
    · refine State.setSlot_keep k.sub ?_
      assumption
    · assumption

theorem State.compressJob_keep {P : State → Prop} (k : Keeps [.cmp, .log, .qm, .mend, .cmd, .arr CMD_CACHE 0 1, .fresh, .arr (CMP_SLOT 0) 16 4, .arr (CMP_SLOT_OUT 0) 16 4, .arr CMP_STAT 0 1, .work, .arr (MEM_ERR 0) 32 5, .arr (MEM_ERR_INFO 0) 32 5, .free, .arr (MEM_ERR_ADDR 0) 32 5, .arr (MEM_ERR_ADDR 0 + 4) 32 5, .mem] P) {s1 : State} {a2 : _} {a3 : _} (h1 : P s1) : P (State.compressJob s1 a2 a3) := by
  unfold State.compressJob
  extract_lets +onlyGivenNames x0
  extract_lets +onlyGivenNames x1
  extract_lets +onlyGivenNames x2
  extract_lets +onlyGivenNames x3
  have e4 : P x3 := by
    unfold x3
    refine State.countCmp_keep k.sub ?_
    assumption
  clear_value x3
  extract_lets +onlyGivenNames x5
  split
  · refine State.report_keep k.sub ?_
    refine State.setSlot_keep k.sub ?_
    refine bump_keep k CMP_STAT 0 1 ⟨0, rfl⟩ ?_
    assumption
  · extract_lets +onlyGivenNames x6
    refine State.report_keep k.sub ?_
    refine State.setSlot_keep k.sub ?_
    refine State.fillChain_keep k.sub ?_
    assumption

theorem State.decodeJob_keep {P : State → Prop} (k : Keeps [.cmd, .arr CMD_CACHE 0 1, .fresh, .mend, .qm, .work, .arr (MEM_ERR 0) 32 5, .arr (MEM_ERR_INFO 0) 32 5, .free, .arr (MEM_ERR_ADDR 0) 32 5, .arr (MEM_ERR_ADDR 0 + 4) 32 5, .log, .mem, .arr CMP_LAST_ERR 0 1, .arr CMP_ERR 0 1, .arr CMP_LAST_POS 0 1] P) {s1 : State} {a2 : _} {a3 : _} (h1 : P s1) : P (State.decodeJob s1 a2 a3) := by
  unfold State.decodeJob
  extract_lets +onlyGivenNames x0
  extract_lets +onlyGivenNames x1
  extract_lets +onlyGivenNames x2
  extract_lets +onlyGivenNames x3
  extract_lets +onlyGivenNames x4
  split
  · refine State.report_keep k.sub ?_
    unfold x3
    split
    · refine State.fillChain_keep k.sub ?_
      assumption
    · assumption
  · split
    · refine State.report_keep k.sub ?_
      refine State.decodeError_keep k.sub ?_
      unfold x3
      split
      · refine State.fillChain_keep k.sub ?_
        assumption
      · assumption
    · refine State.report_keep k.sub ?_
      unfold x3
      split
      · refine State.fillChain_keep k.sub ?_
        assumption
      · assumption

theorem State.jobDone_keep {P : State → Prop} (k : Keeps [.cmp, .arr (CMP_SLOT 0) 16 4, .arr (CMP_SLOT_OUT 0) 16 4, .arr (MEM_ERR 0) 32 5, .fresh, .arr (MEM_ERR_INFO 0) 32 5, .free, .arr (MEM_ERR_ADDR 0) 32 5, .arr (MEM_ERR_ADDR 0 + 4) 32 5, .qm, .log, .mend, .mem, .cmd, .arr CMD_CACHE 0 1, .arr CMP_STAT 0 1, .work, .arr CMP_LAST_ERR 0 1, .arr CMP_ERR 0 1, .arr CMP_LAST_POS 0 1] P) {s1 : State} {a2 : _} {a3 : _} (h1 : P s1) : P (State.jobDone s1 a2 a3) := by
  unfold State.jobDone
  split
  · assumption
  · extract_lets +onlyGivenNames x0
    have e1 : P x0 := by
      unfold x0
      refine (k.at .cmp) _ _ ?_
      assumption
    clear_value x0
    extract_lets +onlyGivenNames x2
    split
    · extract_lets +onlyGivenNames x3
      have e4 : P x3 := by
        unfold x3
        split
        · refine State.setSlot_keep k.sub ?_
          refine State.workRead_keep k.sub ?_
          assumption
        · refine State.workRead_keep k.sub ?_
          assumption
      clear_value x3
      refine State.report_keep k.sub ?_
      assumption
    · split
      · refine State.compressJob_keep k.sub ?_
        refine State.workRead_keep k.sub ?_
        assumption
      · refine State.decodeJob_keep k.sub ?_
        refine State.workRead_keep k.sub ?_
        assumption

theorem execCmpJobDone_keep {P : State → Prop} (k : Keeps [.mend, .qm, .arr CMP_ERR 0 1, .fresh, .log, .guard, .red, .arr RED_MIRROR 0 1, .time, .free, .cmp, .arr (CMP_SLOT 0) 16 4, .arr (CMP_SLOT_OUT 0) 16 4, .arr (MEM_ERR 0) 32 5, .arr (MEM_ERR_INFO 0) 32 5, .arr (MEM_ERR_ADDR 0) 32 5, .arr (MEM_ERR_ADDR 0 + 4) 32 5, .mem, .cmd, .arr CMD_CACHE 0 1, .arr CMP_STAT 0 1, .work, .arr CMP_LAST_ERR 0 1, .arr CMP_LAST_POS 0 1] P) {a1 : _} {a2 : _} {a3 : _} {s4 : State} (h4 : P s4) : ∀ u, execCmpJobDone a1 a2 a3 s4 = .next u → P u := by
  unfold execCmpJobDone
  refine event_keep k.sub ?_ ?_
  · assumption
  · intro y0
    intro y1
    refine State.jobDone_keep k.sub ?_
    assumption

theorem State.abortJob_keep {P : State → Prop} (k : Keeps [.work, .mend, .arr (MEM_ERR 0) 32 5, .fresh, .arr (MEM_ERR_INFO 0) 32 5, .free, .arr (MEM_ERR_ADDR 0) 32 5, .arr (MEM_ERR_ADDR 0 + 4) 32 5, .qm, .log, .mem, .cmp, .arr (CMP_SLOT 0) 16 4, .arr (CMP_SLOT_OUT 0) 16 4] P) {s1 : State} {a2 : _} (h1 : P s1) : P (State.abortJob s1 a2) := by
  unfold State.abortJob
  extract_lets +onlyGivenNames x0
  extract_lets +onlyGivenNames x1
  extract_lets +onlyGivenNames x2
  extract_lets +onlyGivenNames x3
  extract_lets +onlyGivenNames x4
  have e5 : P x4 := by
    unfold x4
    refine State.fillChain_keep k.sub ?_
    unfold x3
    refine (k.at .free) _ ?_
    assumption
  clear_value x4
  extract_lets +onlyGivenNames x6
  have e7 : P x6 := by
    unfold x6
    refine (k.at .cmp) _ _ ?_
    assumption
  clear_value x6
  split
  · refine State.setSlot_keep k.sub ?_
    assumption
  · assumption

theorem State.closeCmp_keep {P : State → Prop} (k : Keeps [.cmd, .arr CMD_CACHE 0 1, .fresh, .mend, .qm, .work, .arr (MEM_ERR 0) 32 5, .arr (MEM_ERR_INFO 0) 32 5, .free, .arr (MEM_ERR_ADDR 0) 32 5, .arr (MEM_ERR_ADDR 0 + 4) 32 5, .log, .mem, .cmp, .arr (CMP_SLOT 0) 16 4, .arr (CMP_SLOT_OUT 0) 16 4] P) {s1 : State} (h1 : P s1) : P (State.closeCmp s1) := by
  unfold State.closeCmp
  extract_lets +onlyGivenNames x0
  have e1 : P x0 := by
    unfold x0
    refine foldl_keep (fun t2 x3 e4 => ?_) ?_
    · refine State.report_keep k.sub ?_
      refine State.abortJob_keep k.sub ?_
      assumption
    · assumption
  clear_value x0
  refine foldl_keep (fun t5 x6 e7 => ?_) ?_
  · refine State.setSlot_keep k.sub ?_
    assumption
  · assumption

theorem State.flushSlot_keep {P : State → Prop} (k : Keeps [.cmp, .arr (CMP_SLOT 0) 16 4, .arr (CMP_SLOT_OUT 0) 16 4, .work, .mend, .arr (MEM_ERR 0) 32 5, .fresh, .arr (MEM_ERR_INFO 0) 32 5, .free, .arr (MEM_ERR_ADDR 0) 32 5, .arr (MEM_ERR_ADDR 0 + 4) 32 5, .qm, .log, .mem] P) {s1 : State} {a2 : _} (h1 : P s1) : P (State.flushSlot s1 a2).2 := by
  unfold State.flushSlot
  extract_lets +onlyGivenNames x0
  split
  · assumption
  · split
    · dsimp -zeta only
      refine (k.at .cmp) _ _ ?_
      assumption
    · extract_lets +onlyGivenNames x1
      extract_lets +onlyGivenNames x2
      dsimp -zeta only
      refine State.setSlot_keep k.sub ?_
      refine State.fillChain_keep k.sub ?_
      assumption

theorem bodyCmpFlush_keep {P : State → Prop} (k : Keeps [.cmp, .arr (CMP_SLOT 0) 16 4, .arr (CMP_SLOT_OUT 0) 16 4, .work, .mend, .arr (MEM_ERR 0) 32 5, .fresh, .arr (MEM_ERR_INFO 0) 32 5, .free, .arr (MEM_ERR_ADDR 0) 32 5, .arr (MEM_ERR_ADDR 0 + 4) 32 5, .qm, .log, .mem] P) {a1 : _} {a2 : _} {s3 : State} (h3 : P s3) : (bodyCmpFlush a1 a2 s3).Holds P := by
  unfold bodyCmpFlush
  extract_lets +onlyGivenNames x0
  extract_lets +onlyGivenNames x1
  refine checked_keep ?_ ?_
  · assumption
  · extract_lets +onlyGivenNames x2
    split
    · show P _
      refine (k.at .cmp) _ _ ?_
      unfold x2
      refine foldl_keep_on (fun z : Nat × State => z.2) (fun b3 x4 e5 => ?_) ?_
      · extract_lets +onlyGivenNames x6
        refine State.flushSlot_keep k.sub ?_
        assumption
      · assumption
    · show P _
      unfold x2
      refine foldl_keep_on (fun z : Nat × State => z.2) (fun b7 x8 e9 => ?_) ?_
      · extract_lets +onlyGivenNames x10
        refine State.flushSlot_keep k.sub ?_
        assumption
      · assumption

theorem State.flushDrained_keep {P : State → Prop} (k : Keeps [.cmd, .arr CMD_CACHE 0 1, .fresh, .mend, .qm, .cmp] P) {s1 : State} (h1 : P s1) : P (State.flushDrained s1) := by
  unfold State.flushDrained
  extract_lets +onlyGivenNames x0
  extract_lets +onlyGivenNames x1
  refine foldl_keep (fun t2 x3 e4 => ?_) ?_
  · refine State.answer_keep k.sub ?_
    assumption
  · refine (k.at .cmp) _ _ ?_
    assumption

theorem execCmpFlushDrained_keep {P : State → Prop} (k : Keeps [.mend, .qm, .arr CMP_ERR 0 1, .fresh, .log, .guard, .red, .arr RED_MIRROR 0 1, .time, .free, .cmd, .arr CMD_CACHE 0 1, .cmp] P) {a1 : _} {s2 : State} (h2 : P s2) : ∀ u, execCmpFlushDrained a1 s2 = .next u → P u := by
  unfold execCmpFlushDrained
  refine event_keep k.sub ?_ ?_
  · assumption
  · intro y0
    intro y1
    refine State.flushDrained_keep k.sub ?_
    assumption

end Sys2Proof.Machine
end

