-- ==== Sys2Proof/Laws/KeepC.lean ====
section
/-!
SUPPORT. What the operations of Machine/Chan, Panes may touch: one lemma per function (Laws/Keep.lean).
-/

namespace Sys2Proof.Machine

set_option Elab.async false

open Reg Bits

theorem State.setConv_keep {P : State → Prop} (k : Keeps [.acq] P) {s1 : State} {a2 : _} {a3 : _} {a4 : _} (h1 : P s1) : P (State.setConv s1 a2 a3 a4) := by
  unfold State.setConv
  refine State.onBay_keep k.sub ?_
  assumption

theorem State.setScale_keep {P : State → Prop} (k : Keeps [.acq] P) {s1 : State} {a2 : _} {a3 : _} (h1 : P s1) : P (State.setScale s1 a2 a3) := by
  unfold State.setScale
  split
  · assumption
  · refine State.onCh_keep k.sub ?_
    assumption

theorem State.measureRec_keep {P : State → Prop} (k : Keeps [.mend, .qm] P) {s1 : State} {a2 : _} {a3 : _} {a4 : _} {a5 : _} {a6 : _} {a7 : _} {a8 : _} (h1 : P s1) : P (State.measureRec s1 a2 a3 a4 a5 a6 a7 a8) := by
  unfold State.measureRec
  refine State.addSeqRec_keep k.sub ?_
  assumption

theorem State.closeAsm_keep {P : State → Prop} (k : Keeps [.qm, .acq, .mend, .arr CMP_ERR 0 1, .fresh] P) {s1 : State} {a2 : _} (h1 : P s1) : P (State.closeAsm s1 a2) := by
  unfold State.closeAsm
  extract_lets +onlyGivenNames x0
  extract_lets +onlyGivenNames x1
  have e2 : P x1 := by
    unfold x1
    refine (k.at .qm) _ _ ?_
    assumption
  clear_value x1
  extract_lets +onlyGivenNames x3
  extract_lets +onlyGivenNames x4
  have e5 : P x4 := by
    unfold x4
    split
    · refine State.onCh_keep k.sub ?_
      assumption
    · assumption
  clear_value x4
  extract_lets +onlyGivenNames x6
  have e7 : P x6 := by
    unfold x6
    refine State.addClosed_keep k.sub ?_
    assumption
  clear_value x6
  split
  · extract_lets +onlyGivenNames x8
    refine State.measureRec_keep k.sub ?_
    assumption
  · assumption

theorem State.closeKey_keep {P : State → Prop} (k : Keeps [.qm, .acq, .mend, .arr CMP_ERR 0 1, .fresh] P) {s1 : State} {a2 : _} (h1 : P s1) : P (State.closeKey s1 a2) := by
  unfold State.closeKey
  split
  · refine State.closeAsm_keep k.sub ?_
    assumption
  · assumption

theorem State.addSample_keep {P : State → Prop} (k : Keeps [.qm, .acq, .mend, .arr CMP_ERR 0 1, .fresh] P) {s1 : State} {a2 : _} (h1 : P s1) : P (State.addSample s1 a2) := by
  unfold State.addSample
  extract_lets +onlyGivenNames x0
  extract_lets +onlyGivenNames x1
  extract_lets +onlyGivenNames x2
  have e3 : P x2 := by
    unfold x2
    split
    · split
      · assumption
      · refine State.closeAsm_keep k.sub ?_
        assumption
    · assumption
  clear_value x2
  extract_lets +onlyGivenNames x4
  split
  · assumption
  · split
    · extract_lets +onlyGivenNames x5
      have e6 : P x5 := by
        unfold x5
        refine State.closeKey_keep k.sub ?_
        assumption
      clear_value x5
      split
      · refine (k.at .qm) _ _ ?_
        assumption
      · refine (k.at .qm) _ _ ?_
        assumption
    · extract_lets +onlyGivenNames x7
      extract_lets +onlyGivenNames x8
      have e9 : P x8 := by
        unfold x8
        refine (k.at .qm) _ _ ?_
        assumption
      clear_value x8
      split
      · refine State.closeAsm_keep k.sub ?_
        assumption
      · assumption

theorem State.auxSample_keep {P : State → Prop} (k : Keeps [.acq, .qm, .log, .mend, .arr CMP_ERR 0 1, .fresh] P) {s1 : State} {a2 : _} {a3 : _} {a4 : _} (h1 : P s1) : P (State.auxSample s1 a2 a3 a4) := by
  unfold State.auxSample
  extract_lets +onlyGivenNames x0
  extract_lets +onlyGivenNames x1
  extract_lets +onlyGivenNames x2
  extract_lets +onlyGivenNames x3
  have e4 : P x3 := by
    unfold x3
    refine State.onStrm_keep k.sub ?_
    assumption
  clear_value x3
  split
  · assumption
  · extract_lets +onlyGivenNames x5
    have e6 : P x5 := by
      unfold x5
      split
      · assumption
      · refine State.issue_keep k.sub ?_
        assumption
    clear_value x5
    extract_lets +onlyGivenNames x7
    refine State.addSample_keep k.sub ?_
    assumption

theorem State.streamSample_keep {P : State → Prop} (k : Keeps [.acq, .qm, .mend, .arr CMP_ERR 0 1, .fresh] P) {s1 : State} {a2 : _} {a3 : _} {a4 : _} {a5 : _} {a6 : _} {a7 : _} (h1 : P s1) : P (State.streamSample s1 a2 a3 a4 a5 a6 a7) := by
  unfold State.streamSample
  extract_lets +onlyGivenNames x0
  extract_lets +onlyGivenNames x1
  extract_lets +onlyGivenNames x2
  extract_lets +onlyGivenNames x3
  extract_lets +onlyGivenNames x4
  extract_lets +onlyGivenNames x5
  extract_lets +onlyGivenNames x6
  have e7 : P x6 := by
    unfold x6
    refine State.onStrm_keep k.sub ?_
    assumption
  clear_value x6
  refine State.addSample_keep k.sub ?_
  assumption

theorem State.awaitStream_keep {P : State → Prop} (k : Keeps [.log, .qm, .mend, .arr (DEC_CH_STAT 0) 16 512, .fresh, .acq] P) {s1 : State} {a2 : _} {a3 : _} {a4 : _} {a5 : _} (h1 : P s1) : P (State.awaitStream s1 a2 a3 a4 a5) := by
  unfold State.awaitStream
  extract_lets +onlyGivenNames x0
  extract_lets +onlyGivenNames x1
  have e2 : P x1 := by
    unfold x1
    split
    · refine State.pmc_keep k.sub ?_
      refine bump_keep k (DEC_CH_STAT 0) 16 512 ⟨_, rfl⟩ ?_
      assumption
    · assumption
  clear_value x1
  extract_lets +onlyGivenNames x3
  have e4 : P x3 := by
    unfold x3
    refine State.setScale_keep k.sub ?_
    assumption
  clear_value x3
  refine State.onStrm_keep k.sub ?_
  refine setFld_keep k (DEC_CH_STAT 0) 16 512 ⟨_, rfl⟩ ?_
  refine setFld_keep k (DEC_CH_STAT 0) 16 512 ⟨_, rfl⟩ ?_
  refine setFld_keep k (DEC_CH_STAT 0) 16 512 ⟨_, rfl⟩ ?_
  assumption

theorem State.endStream_keep {P : State → Prop} (k : Keeps [.qm, .log, .mend, .acq, .arr CMP_ERR 0 1, .fresh, .arr (DEC_CH_STAT 0) 16 512] P) {s1 : State} {a2 : _} {a3 : _} (h1 : P s1) : P (State.endStream s1 a2 a3) := by
  unfold State.endStream
  split
  · split
    · refine State.issue_keep k.sub ?_
      refine State.closeKey_keep k.sub ?_
      assumption
    · assumption
  · split
    · assumption
    · extract_lets +onlyGivenNames x0
      extract_lets +onlyGivenNames x1
      extract_lets +onlyGivenNames x2
      extract_lets +onlyGivenNames x3
      extract_lets +onlyGivenNames x4
      have e5 : P x4 := by
        unfold x4
        split
        · assumption
        · refine State.closeKey_keep k.sub ?_
          assumption
      clear_value x4
      extract_lets +onlyGivenNames x6
      have e7 : P x6 := by
        unfold x6
        refine setFld_keep k (DEC_CH_STAT 0) 16 512 ⟨_, rfl⟩ ?_
        refine setFld_keep k (DEC_CH_STAT 0) 16 512 ⟨_, rfl⟩ ?_
        assumption
      clear_value x6
      extract_lets +onlyGivenNames x8
      have e9 : P x8 := by
        unfold x8
        refine State.onStrm_keep k.sub ?_
        assumption
      clear_value x8
      refine State.issue_keep k.sub ?_
      assumption

theorem State.restartStream_keep {P : State → Prop} (k : Keeps [.log, .qm, .mend, .arr (DEC_CH_STAT 0) 16 512, .fresh, .acq] P) {s1 : State} {a2 : _} {a3 : _} {a4 : _} (h1 : P s1) : P (State.restartStream s1 a2 a3 a4) := by
  unfold State.restartStream
  split
  · assumption
  · split
    · refine State.awaitStream_keep k.sub ?_
      assumption
    · refine setFld_keep k (DEC_CH_STAT 0) 16 512 ⟨_, rfl⟩ ?_
      assumption

theorem State.dropTail_keep {P : State → Prop} (k : Keeps [.acq, .qm, .mend, .arr CMP_ERR 0 1, .fresh] P) {s1 : State} {a2 : _} (h1 : P s1) : P (State.dropTail s1 a2) := by
  unfold State.dropTail
  split
  · refine State.onStrm_keep k.sub ?_
    refine State.closeKey_keep k.sub ?_
    assumption
  · assumption

theorem State.readKept_keep {P : State → Prop} (k : Keeps [.arr (MEM_ERR 0) 32 5, .fresh, .arr (MEM_ERR_INFO 0) 32 5, .free, .arr (MEM_ERR_ADDR 0) 32 5, .arr (MEM_ERR_ADDR 0 + 4) 32 5, .qm, .log, .mend, .mem] P) {s1 : State} {a2 : _} (h1 : P s1) : P (State.readKept s1 a2).2 := by
  unfold State.readKept
  split
  · assumption
  · refine State.memRead_keep k.sub ?_
    assumption

theorem State.keepHistory_keep {P : State → Prop} (k : Keeps [.mend, .acq, .cap] P) {s1 : State} {a2 : _} {a3 : _} {a4 : _} (h1 : P s1) : P (State.keepHistory s1 a2 a3 a4) := by
  unfold State.keepHistory
  extract_lets +onlyGivenNames x0
  extract_lets +onlyGivenNames x1
  extract_lets +onlyGivenNames x2
  extract_lets +onlyGivenNames x3
  split
  · assumption
  · extract_lets +onlyGivenNames x4
    extract_lets +onlyGivenNames x5
    extract_lets +onlyGivenNames x6
    extract_lets +onlyGivenNames x7
    extract_lets +onlyGivenNames x8
    extract_lets +onlyGivenNames x9
    have e10 : P x9 := by
      unfold x9
      refine (k.at .mend) _ _ _ _ ?_
      refine State.onCh_keep k.sub ?_
      assumption
    clear_value x9
    refine (k.at .cap) _ _ ?_
    assumption

theorem State.onPane_keep {P : State → Prop} (k : Keeps [.cap] P) {s1 : State} {a2 : _} {a3 : _} (h1 : P s1) : P (State.onPane s1 a2 a3) := by
  unfold State.onPane
  refine State.onEng_keep k.sub ?_
  assumption

theorem State.showSlots_keep {P : State → Prop} (k : Keeps [.arr (CAP_ENG_STAT 0) 64 16] P) {s1 : State} {a2 : _} (h1 : P s1) : P (State.showSlots s1 a2) := by
  unfold State.showSlots
  refine setFld_keep k (CAP_ENG_STAT 0) 64 16 ⟨_, rfl⟩ ?_
  assumption

theorem State.paneSample_keep {P : State → Prop} (k : Keeps [.cap, .qm, .acq, .mend, .arr CMP_ERR 0 1, .fresh] P) {s1 : State} {a2 : _} {a3 : _} {a4 : _} {a5 : _} (h1 : P s1) : P (State.paneSample s1 a2 a3 a4 a5) := by
  unfold State.paneSample
  extract_lets +onlyGivenNames x0
  extract_lets +onlyGivenNames x1
  extract_lets +onlyGivenNames x2
  extract_lets +onlyGivenNames x3
  extract_lets +onlyGivenNames x4
  extract_lets +onlyGivenNames x5
  extract_lets +onlyGivenNames x6
  have e7 : P x6 := by
    unfold x6
    refine State.onPane_keep k.sub ?_
    assumption
  clear_value x6
  refine State.addSample_keep k.sub ?_
  assumption

theorem State.measurePane_keep {P : State → Prop} (k : Keeps [.mend, .qm] P) {s1 : State} {a2 : _} (h1 : P s1) : P (State.measurePane s1 a2) := by
  unfold State.measurePane
  extract_lets +onlyGivenNames x0
  extract_lets +onlyGivenNames x1
  extract_lets +onlyGivenNames x2
  extract_lets +onlyGivenNames x3
  extract_lets +onlyGivenNames x4
  clear_value x3
  split
  · assumption
  · extract_lets +onlyGivenNames x5
    extract_lets +onlyGivenNames x6
    refine State.measureRec_keep k.sub ?_
    assumption

theorem State.closePane_keep {P : State → Prop} (k : Keeps [.qm, .acq, .mend, .arr CMP_ERR 0 1, .fresh, .cap, .log, .arr (CAP_ENG_STAT 0) 64 16] P) {s1 : State} {a2 : _} {a3 : _} (h1 : P s1) : P (State.closePane s1 a2 a3) := by
  unfold State.closePane
  split
  · assumption
  · extract_lets +onlyGivenNames x0
    have e1 : P x0 := by
      unfold x0
      refine foldl_keep (fun t2 x3 e4 => ?_) ?_
      · refine State.closeAsm_keep k.sub ?_
        assumption
      · assumption
    clear_value x0
    extract_lets +onlyGivenNames x5
    have e6 : P x5 := by
      unfold x5
      refine State.measurePane_keep k.sub ?_
      assumption
    clear_value x5
    extract_lets +onlyGivenNames x7
    extract_lets +onlyGivenNames x8
    have e9 : P x8 := by
      unfold x8
      refine State.onEng_keep k.sub ?_
      assumption
    clear_value x8
    refine State.issue_keep k.sub ?_
    refine State.showSlots_keep k.sub ?_
    assumption

theorem State.finishTap_keep {P : State → Prop} (k : Keeps [.qm, .acq, .mend, .arr CMP_ERR 0 1, .fresh, .cap, .log, .arr (CAP_ENG_STAT 0) 64 16] P) {s1 : State} {a2 : _} (h1 : P s1) : P (State.finishTap s1 a2) := by
  unfold State.finishTap
  split
  · assumption
  · split
    · refine State.closePane_keep k.sub ?_
      assumption
    · assumption

theorem State.feedPanes_keep {P : State → Prop} (k : Keeps [.qm, .acq, .mend, .arr CMP_ERR 0 1, .fresh, .cap, .log, .arr (CAP_ENG_STAT 0) 64 16] P) {s1 : State} {a2 : _} {a3 : _} (h1 : P s1) : P (State.feedPanes s1 a2 a3) := by
  unfold State.feedPanes
  refine foldl_keep (fun t0 x1 e2 => ?_) ?_
  · split
    · assumption
    · refine foldl_keep (fun t3 x4 e5 => ?_) ?_
      · extract_lets +onlyGivenNames x6
        split
        · refine State.finishTap_keep k.sub ?_
          refine State.paneSample_keep k.sub ?_
          assumption
        · assumption
      · assumption
  · assumption

theorem State.startPane_keep {P : State → Prop} (k : Keeps [.cap, .qm, .log, .mend, .arr (CAP_ENG_STAT 0) 64 16, .acq, .arr CMP_ERR 0 1, .fresh] P) {s1 : State} {a2 : _} {a3 : _} {a4 : _} {a5 : _} {a6 : _} (h1 : P s1) : P (State.startPane s1 a2 a3 a4 a5 a6) := by
  unfold State.startPane
  extract_lets +onlyGivenNames x0
  extract_lets +onlyGivenNames x1
  extract_lets +onlyGivenNames x2
  extract_lets +onlyGivenNames x3
  extract_lets +onlyGivenNames x4
  extract_lets +onlyGivenNames x5
  extract_lets +onlyGivenNames x6
  extract_lets +onlyGivenNames x7
  extract_lets +onlyGivenNames x8
  have e9 : P x8 := by
    unfold x8
    refine State.onEng_keep k.sub ?_
    assumption
  clear_value x8
  extract_lets +onlyGivenNames x10
  have e11 : P x10 := by
    unfold x10
    refine State.issue_keep k.sub ?_
    refine State.pmc_keep k.sub ?_
    refine State.showSlots_keep k.sub ?_
    assumption
  clear_value x10
  split
  · assumption
  · extract_lets +onlyGivenNames x12
    extract_lets +onlyGivenNames x13
    have e14 : P x13 := by
      unfold x13
      refine foldl_keep (fun t15 x16 e17 => ?_) ?_
      · split
        · assumption
        · extract_lets +onlyGivenNames x18
          split
          · refine State.paneSample_keep k.sub ?_
            assumption
          · assumption
      · assumption
    clear_value x13
    refine State.finishTap_keep k.sub ?_
    assumption

theorem State.takeSlot_keep {P : State → Prop} (k : Keeps [.cap, .arr (CAP_ENG_STAT 0) 64 16] P) {s1 : State} {a2 : _} {a3 : _} (h1 : P s1) : P (State.takeSlot s1 a2 a3).2 := by
  unfold State.takeSlot
  extract_lets +onlyGivenNames x0
  extract_lets +onlyGivenNames x1
  have e2 : P x1 := by
    unfold x1
    refine State.onEng_keep k.sub ?_
    assumption
  clear_value x1
  dsimp -zeta only
  refine State.showSlots_keep k.sub ?_
  assumption

theorem State.judge_keep {P : State → Prop} (k : Keeps [.arr (CAP_ENG_CNT 0) 64 16, .fresh, .cap, .qm, .log, .mend, .arr (CAP_ENG_STAT 0) 64 16, .acq, .arr CMP_ERR 0 1] P) {s1 : State} {a2 : _} {a3 : _} {a4 : _} {a5 : _} {a6 : _} {a7 : _} (h1 : P s1) : P (State.judge s1 a2 a3 a4 a5 a6 a7).2 := by
  unfold State.judge
  split
  · dsimp -zeta only
    refine bump_keep k (CAP_ENG_CNT 0) 64 16 ⟨_, rfl⟩ ?_
    assumption
  · extract_lets +onlyGivenNames x0
    extract_lets +onlyGivenNames x1
    extract_lets +onlyGivenNames x2
    extract_lets +onlyGivenNames x3
    extract_lets +onlyGivenNames x4
    have e5 : P x4 := by
      unfold x4
      refine State.onEng_keep k.sub ?_
      assumption
    clear_value x4
    split
    · dsimp -zeta only
      refine bump_keep k (CAP_ENG_CNT 0) 64 16 ⟨_, rfl⟩ ?_
      assumption
    · extract_lets +onlyGivenNames x6
      extract_lets +onlyGivenNames x7
      extract_lets +onlyGivenNames x8
      extract_lets +onlyGivenNames x9
      extract_lets +onlyGivenNames x10
      clear_value x6
      split
      · split
        · dsimp -zeta only
          refine bump_keep k (CAP_ENG_CNT 0) 64 16 ⟨_, rfl⟩ ?_
          assumption
        · split
          · extract_lets +onlyGivenNames x11
            have e12 : P x11 := by
              unfold x11
              refine bump_keep k (CAP_ENG_CNT 0) 64 16 ⟨_, rfl⟩ ?_
              assumption
            clear_value x11
            split
            · dsimp -zeta only
              refine State.onPane_keep k.sub ?_
              assumption
            · unfold x10
              split
              · dsimp -zeta only
                refine State.startPane_keep k.sub ?_
                refine State.onPane_keep k.sub ?_
                assumption
              · split
                · extract_lets +onlyGivenNames x13
                  dsimp -zeta only
                  refine State.startPane_keep k.sub ?_
                  refine State.takeSlot_keep k.sub ?_
                  refine State.onPane_keep k.sub ?_
                  assumption
                · split
                  · dsimp -zeta only
                    refine State.onPane_keep k.sub ?_
                    assumption
                  · dsimp -zeta only
                    refine State.issueLim_keep k.sub ?_
                    refine State.pmc_keep k.sub ?_
                    refine bump_keep k (CAP_ENG_STAT 0) 64 16 ⟨_, rfl⟩ ?_
                    refine State.onPane_keep k.sub ?_
                    assumption
          · unfold x10
            split
            · dsimp -zeta only
              refine State.startPane_keep k.sub ?_
              assumption
            · split
              · extract_lets +onlyGivenNames x14
                dsimp -zeta only
                refine State.startPane_keep k.sub ?_
                refine State.takeSlot_keep k.sub ?_
                assumption
              · split
                · assumption
                · dsimp -zeta only
                  refine State.issueLim_keep k.sub ?_
                  refine State.pmc_keep k.sub ?_
                  refine bump_keep k (CAP_ENG_STAT 0) 64 16 ⟨_, rfl⟩ ?_
                  assumption
      · unfold x10
        split
        · dsimp -zeta only
          refine State.startPane_keep k.sub ?_
          assumption
        · split
          · extract_lets +onlyGivenNames x15
            dsimp -zeta only
            refine State.startPane_keep k.sub ?_
            refine State.takeSlot_keep k.sub ?_
            assumption
          · split
            · assumption
            · dsimp -zeta only
              refine State.issueLim_keep k.sub ?_
              refine State.pmc_keep k.sub ?_
              refine bump_keep k (CAP_ENG_STAT 0) 64 16 ⟨_, rfl⟩ ?_
              assumption

theorem State.announce_keep {P : State → Prop} (k : Keeps [.arr (CAP_TRIG_STAT 0) 32 32, .fresh, .cmd, .mend, .qm, .cap] P) {s1 : State} {a2 : _} {a3 : _} {a4 : _} (h1 : P s1) : P (State.announce s1 a2 a3 a4) := by
  unfold State.announce
  extract_lets +onlyGivenNames x0
  split
  · refine bump_keep k (CAP_TRIG_STAT 0) 32 32 ⟨_, rfl⟩ ?_
    assumption
  · extract_lets +onlyGivenNames x1
    refine State.originateBy_keep k.sub ?_ ?_
    · intro y2
      intro y3
      intro y4
      intro y5
      refine State.enqueue_keep k.sub ?_
      assumption
    · refine State.onUnit_keep k.sub ?_
      assumption

theorem State.fire_keep {P : State → Prop} (k : Keeps [.log, .qm, .mend, .arr (CAP_TRIG_STAT 0) 32 32, .fresh, .arr (CAP_ENG_CNT 0) 64 16, .cap, .arr (CAP_ENG_STAT 0) 64 16, .acq, .arr CMP_ERR 0 1, .cmd] P) {s1 : State} {a2 : _} {a3 : _} {a4 : _} {a5 : _} (h1 : P s1) : P (State.fire s1 a2 a3 a4 a5).2.2 := by
  unfold State.fire
  extract_lets +onlyGivenNames x0
  have e1 : P x0 := by
    unfold x0
    refine State.pmc_keep k.sub ?_
    refine bump_keep k (CAP_TRIG_STAT 0) 32 32 ⟨_, rfl⟩ ?_
    assumption
  clear_value x0
  extract_lets +onlyGivenNames x2
  extract_lets +onlyGivenNames x3
  extract_lets +onlyGivenNames x4
  have e5 : P x4 := by
    unfold x4
    unfold x3
    refine foldl_keep_on (fun z : Nat × Nat × Nat × State => z.2.2.2) (fun b6 x7 e8 => ?_) ?_
    · extract_lets +onlyGivenNames x9
      split
      · refine State.judge_keep k.sub ?_
        assumption
      · refine State.judge_keep k.sub ?_
        assumption
      · refine State.judge_keep k.sub ?_
        assumption
    · assumption
  clear_value x4
  dsimp -zeta only
  split
  · refine State.announce_keep k.sub ?_
    assumption
  · assumption

theorem State.fireOwn_keep {P : State → Prop} (k : Keeps [.log, .qm, .mend, .arr (CAP_TRIG_STAT 0) 32 32, .fresh, .arr (CAP_ENG_CNT 0) 64 16, .cap, .arr (CAP_ENG_STAT 0) 64 16, .acq, .arr CMP_ERR 0 1, .cmd] P) {s1 : State} {a2 : _} {a3 : _} (h1 : P s1) : P (State.fireOwn s1 a2 a3) := by
  unfold State.fireOwn
  refine State.fire_keep k.sub ?_
  assumption

theorem State.threshold_keep {P : State → Prop} (k : Keeps [.log, .qm, .mend, .arr (CAP_TRIG_STAT 0) 32 32, .fresh, .arr (CAP_ENG_CNT 0) 64 16, .cap, .arr (CAP_ENG_STAT 0) 64 16, .acq, .arr CMP_ERR 0 1, .cmd] P) {s1 : State} {a2 : _} {a3 : _} {a4 : _} (h1 : P s1) : P (State.threshold s1 a2 a3 a4) := by
  unfold State.threshold
  extract_lets +onlyGivenNames x0
  extract_lets +onlyGivenNames x1
  extract_lets +onlyGivenNames x2
  extract_lets +onlyGivenNames x3
  extract_lets +onlyGivenNames x4
  split
  · split
    · refine State.fireOwn_keep k.sub ?_
      refine setFld_keep k (CAP_TRIG_STAT 0) 32 32 ⟨_, rfl⟩ ?_
      assumption
    · assumption
  · split
    · refine setFld_keep k (CAP_TRIG_STAT 0) 32 32 ⟨_, rfl⟩ ?_
      assumption
    · assumption

theorem State.feedLevel_keep {P : State → Prop} (k : Keeps [.cap, .log, .qm, .mend, .arr (CAP_TRIG_STAT 0) 32 32, .fresh, .arr (CAP_ENG_CNT 0) 64 16, .arr (CAP_ENG_STAT 0) 64 16, .acq, .arr CMP_ERR 0 1, .cmd] P) {s1 : State} {a2 : _} {a3 : _} {a4 : _} (h1 : P s1) : P (State.feedLevel s1 a2 a3 a4) := by
  unfold State.feedLevel
  extract_lets +onlyGivenNames x0
  extract_lets +onlyGivenNames x1
  have e2 : P x1 := by
    unfold x1
    refine State.onUnit_keep k.sub ?_
    assumption
  clear_value x1
  refine State.threshold_keep k.sub ?_
  assumption

theorem State.feedSlope_keep {P : State → Prop} (k : Keeps [.cap, .log, .qm, .mend, .arr (CAP_TRIG_STAT 0) 32 32, .fresh, .arr (CAP_ENG_CNT 0) 64 16, .arr (CAP_ENG_STAT 0) 64 16, .acq, .arr CMP_ERR 0 1, .cmd] P) {s1 : State} {a2 : _} {a3 : _} {a4 : _} (h1 : P s1) : P (State.feedSlope s1 a2 a3 a4) := by
  unfold State.feedSlope
  extract_lets +onlyGivenNames x0
  extract_lets +onlyGivenNames x1
  extract_lets +onlyGivenNames x2
  have e3 : P x2 := by
    unfold x2
    refine State.onUnit_keep k.sub ?_
    assumption
  clear_value x2
  split
  · assumption
  · extract_lets +onlyGivenNames x4
    refine State.threshold_keep k.sub ?_
    assumption

theorem State.feedUnits_keep {P : State → Prop} (k : Keeps [.cap, .log, .qm, .mend, .arr (CAP_TRIG_STAT 0) 32 32, .fresh, .arr (CAP_ENG_CNT 0) 64 16, .arr (CAP_ENG_STAT 0) 64 16, .acq, .arr CMP_ERR 0 1, .cmd] P) {s1 : State} {a2 : _} {a3 : _} {a4 : _} {a5 : _} {a6 : _} (h1 : P s1) : P (State.feedUnits s1 a2 a3 a4 a5 a6) := by
  unfold State.feedUnits
  split
  · assumption
  · refine foldl_keep (fun t0 x1 e2 => ?_) ?_
    · split
      · assumption
      · extract_lets +onlyGivenNames x3
        split
        · split
          · refine State.feedLevel_keep k.sub ?_
            assumption
          · assumption
        · split
          · refine State.feedSlope_keep k.sub ?_
            assumption
          · assumption
        · refine State.threshold_keep k.sub ?_
          assumption
        · assumption
    · assumption

theorem State.timeFire_keep {P : State → Prop} (k : Keeps [.log, .qm, .mend, .arr (CAP_TRIG_STAT 0) 32 32, .fresh, .arr (CAP_ENG_CNT 0) 64 16, .cap, .arr (CAP_ENG_STAT 0) 64 16, .acq, .arr CMP_ERR 0 1, .cmd] P) {s1 : State} {a2 : _} (h1 : P s1) : P (State.timeFire s1 a2) := by
  unfold State.timeFire
  extract_lets +onlyGivenNames x0
  extract_lets +onlyGivenNames x1
  split
  · refine State.fireOwn_keep k.sub ?_
    refine State.onUnit_keep k.sub ?_
    assumption
  · assumption

theorem execTimeTrigger_keep {P : State → Prop} (k : Keeps [.mend, .qm, .arr CMP_ERR 0 1, .fresh, .log, .guard, .red, .arr RED_MIRROR 0 1, .time, .free, .arr (CAP_TRIG_STAT 0) 32 32, .arr (CAP_ENG_CNT 0) 64 16, .cap, .arr (CAP_ENG_STAT 0) 64 16, .acq, .cmd] P) {a1 : _} {a2 : _} {s3 : State} (h3 : P s3) : ∀ u, execTimeTrigger a1 a2 s3 = .next u → P u := by
  unfold execTimeTrigger
  refine event_keep k.sub ?_ ?_
  · assumption
  · intro y0
    intro y1
    refine State.timeFire_keep k.sub ?_
    assumption

theorem State.openHeld_keep {P : State → Prop} (k : Keeps [.arr (CAP_ENG_CNT 0) 64 16, .fresh, .cap, .qm, .log, .mend, .arr (CAP_ENG_STAT 0) 64 16, .acq, .arr CMP_ERR 0 1] P) {s1 : State} {a2 : _} {a3 : _} {a4 : _} (h1 : P s1) : P (State.openHeld s1 a2 a3 a4) := by
  unfold State.openHeld
  split
  · refine State.judge_keep k.sub ?_
    refine State.onPane_keep k.sub ?_
    assumption
  · assumption

theorem State.heldTime_keep {P : State → Prop} (k : Keeps [.arr (CAP_ENG_CNT 0) 64 16, .fresh, .cap, .qm, .log, .mend, .arr (CAP_ENG_STAT 0) 64 16, .acq, .arr CMP_ERR 0 1] P) {s1 : State} {a2 : _} (h1 : P s1) : P (State.heldTime s1 a2) := by
  unfold State.heldTime
  split
  · split
    · split
      · refine State.openHeld_keep k.sub ?_
        assumption
      · assumption
    · assumption
  · assumption

theorem execPaneHeldTime_keep {P : State → Prop} (k : Keeps [.mend, .qm, .arr CMP_ERR 0 1, .fresh, .log, .guard, .red, .arr RED_MIRROR 0 1, .time, .free, .arr (CAP_ENG_CNT 0) 64 16, .cap, .arr (CAP_ENG_STAT 0) 64 16, .acq] P) {a1 : _} {a2 : _} {s3 : State} (h3 : P s3) : ∀ u, execPaneHeldTime a1 a2 s3 = .next u → P u := by
  unfold execPaneHeldTime
  refine event_keep k.sub ?_ ?_
  · assumption
  · intro y0
    intro y1
    refine State.heldTime_keep k.sub ?_
    assumption

theorem State.deliver_keep {P : State → Prop} (k : Keeps [.qm, .acq, .mend, .arr CMP_ERR 0 1, .fresh, .arr (MEM_ERR 0) 32 5, .arr (MEM_ERR_INFO 0) 32 5, .free, .arr (MEM_ERR_ADDR 0) 32 5, .arr (MEM_ERR_ADDR 0 + 4) 32 5, .log, .mem] P) {s1 : State} {a2 : _} {a3 : _} {a4 : _} {a5 : _} {a6 : _} {a7 : _} {a8 : State → Kept → State} (h1 : P s1) (h8 : ∀ s b0, P s → P (a8 s b0)) : P (State.deliver s1 a2 a3 a4 a5 a6 a7 a8).1 := by
  unfold State.deliver
  extract_lets +onlyGivenNames x0
  unfold x0
  dsimp -zeta only
  refine foldl_keep_on (fun z : State × Option Kept × Bool × List Kept => z.1) (fun b1 x2 e3 => ?_) ?_
  · extract_lets +onlyGivenNames x4
    have e5 : P x4 := by
      unfold x4
      assumption
    clear_value x4
    extract_lets +onlyGivenNames x6
    extract_lets +onlyGivenNames x7
    extract_lets +onlyGivenNames x8
    have e9 : P x8 := by
      unfold x8
      split
      · refine State.closeKey_keep k.sub ?_
        assumption
      · assumption
    clear_value x8
    extract_lets +onlyGivenNames x10
    split
    · dsimp -zeta only
      refine h8 _ _ ?_
      refine State.readKept_keep k.sub ?_
      assumption
    · dsimp -zeta only
      refine State.addGap_keep k.sub ?_
      refine State.closeKey_keep k.sub ?_
      refine State.readKept_keep k.sub ?_
      assumption
  · assumption

theorem State.cutPane_keep {P : State → Prop} (k : Keeps [.cap, .qm, .acq, .mend, .arr CMP_ERR 0 1, .fresh, .arr (MEM_ERR 0) 32 5, .arr (MEM_ERR_INFO 0) 32 5, .free, .arr (MEM_ERR_ADDR 0) 32 5, .arr (MEM_ERR_ADDR 0 + 4) 32 5, .log, .mem, .arr (CAP_ENG_STAT 0) 64 16] P) {s1 : State} {a2 : _} {a3 : _} (h1 : P s1) : P (State.cutPane s1 a2 a3) := by
  unfold State.cutPane
  extract_lets +onlyGivenNames x0
  extract_lets +onlyGivenNames x1
  extract_lets +onlyGivenNames x2
  have e3 : P x2 := by
    unfold x2
    refine State.onPane_keep k.sub ?_
    unfold x1
    refine foldl_keep_on (fun z : State × Bool × Option Nat => z.1) (fun b4 x5 e6 => ?_) ?_
    · extract_lets +onlyGivenNames x7
      have e8 : P x7 := by
        unfold x7
        assumption
      clear_value x7
      extract_lets +onlyGivenNames x9
      extract_lets +onlyGivenNames x10
      extract_lets +onlyGivenNames x11
      extract_lets +onlyGivenNames x12
      have e13 : P x12 := by
        unfold x12
        refine State.deliver_keep k.sub ?_ ?_
        · assumption
        · intro y14
          intro y15
          intro y16
          split
          · refine State.paneSample_keep k.sub ?_
            assumption
          · assumption
      clear_value x12
      dsimp -zeta only
      refine State.closeKey_keep k.sub ?_
      assumption
    · assumption
  clear_value x2
  split
  · refine State.closePane_keep k.sub ?_
    assumption
  · assumption

theorem State.paneCut_keep {P : State → Prop} (k : Keeps [.cap, .qm, .acq, .mend, .arr CMP_ERR 0 1, .fresh, .arr (MEM_ERR 0) 32 5, .arr (MEM_ERR_INFO 0) 32 5, .free, .arr (MEM_ERR_ADDR 0) 32 5, .arr (MEM_ERR_ADDR 0 + 4) 32 5, .log, .mem, .arr (CAP_ENG_STAT 0) 64 16] P) {s1 : State} {a2 : _} (h1 : P s1) : P (State.paneCut s1 a2) := by
  unfold State.paneCut
  split
  · split
    · refine State.cutPane_keep k.sub ?_
      assumption
    · assumption
  · assumption

theorem execPaneCut_keep {P : State → Prop} (k : Keeps [.mend, .qm, .arr CMP_ERR 0 1, .fresh, .log, .guard, .red, .arr RED_MIRROR 0 1, .time, .free, .cap, .acq, .arr (MEM_ERR 0) 32 5, .arr (MEM_ERR_INFO 0) 32 5, .arr (MEM_ERR_ADDR 0) 32 5, .arr (MEM_ERR_ADDR 0 + 4) 32 5, .mem, .arr (CAP_ENG_STAT 0) 64 16] P) {a1 : _} {a2 : _} {s3 : State} (h3 : P s3) : ∀ u, execPaneCut a1 a2 s3 = .next u → P u := by
  unfold execPaneCut
  refine event_keep k.sub ?_ ?_
  · assumption
  · intro y0
    intro y1
    refine State.paneCut_keep k.sub ?_
    assumption

theorem State.endPane_keep {P : State → Prop} (k : Keeps [.cap, .qm, .acq, .mend, .arr CMP_ERR 0 1, .fresh, .arr (MEM_ERR 0) 32 5, .arr (MEM_ERR_INFO 0) 32 5, .free, .arr (MEM_ERR_ADDR 0) 32 5, .arr (MEM_ERR_ADDR 0 + 4) 32 5, .log, .mem, .arr (CAP_ENG_STAT 0) 64 16] P) {s1 : State} {a2 : _} (h1 : P s1) : P (State.endPane s1 a2) := by
  unfold State.endPane
  split
  · refine State.cutPane_keep k.sub ?_
    assumption
  · refine State.closePane_keep k.sub ?_
    assumption

theorem State.showTaps_keep {P : State → Prop} (k : Keeps [.arr (DEC_BAY_STAT 0) 16 64] P) {s1 : State} {a2 : _} (h1 : P s1) : P (State.showTaps s1 a2) := by
  unfold State.showTaps
  refine setFld_keep k (DEC_BAY_STAT 0) 16 64 ⟨_, rfl⟩ ?_
  assumption

theorem State.disarm_keep {P : State → Prop} (k : Keeps [.cap, .qm, .acq, .mend, .arr CMP_ERR 0 1, .fresh, .arr (MEM_ERR 0) 32 5, .arr (MEM_ERR_INFO 0) 32 5, .free, .arr (MEM_ERR_ADDR 0) 32 5, .arr (MEM_ERR_ADDR 0 + 4) 32 5, .log, .mem, .arr (CAP_ENG_STAT 0) 64 16, .arr DEC_LOAD 0 1, .arr (CAP_ENG_CFG 0) 64 16, .arr (DEC_BAY_STAT 0) 16 64] P) {s1 : State} {a2 : _} {a3 : _} (h1 : P s1) : P (State.disarm s1 a2 a3) := by
  unfold State.disarm
  extract_lets +onlyGivenNames x0
  have e1 : P x0 := by
    unfold x0
    refine foldl_keep (fun t2 x3 e4 => ?_) ?_
    · split
      · refine State.endPane_keep k.sub ?_
        assumption
      · refine State.closePane_keep k.sub ?_
        assumption
    · assumption
  clear_value x0
  extract_lets +onlyGivenNames x5
  extract_lets +onlyGivenNames x6
  have e7 : P x6 := by
    unfold x6
    refine (k.at .acq) _ _ ?_
    assumption
  clear_value x6
  extract_lets +onlyGivenNames x8
  extract_lets +onlyGivenNames x9
  have e10 : P x9 := by
    unfold x9
    refine (k.at .cap) _ _ ?_
    assumption
  clear_value x9
  extract_lets +onlyGivenNames x11
  have e12 : P x11 := by
    unfold x11
    refine setFld_keep k DEC_LOAD 0 1 ⟨0, rfl⟩ ?_
    refine setFld_keep k (CAP_ENG_CFG 0) 64 16 ⟨_, rfl⟩ ?_
    assumption
  clear_value x11
  refine foldl_keep (fun t13 x14 e15 => ?_) ?_
  · refine State.showTaps_keep k.sub ?_
    assumption
  · assumption

theorem State.bayLeaves_keep {P : State → Prop} (k : Keeps [.cap, .qm, .acq, .mend, .arr CMP_ERR 0 1, .fresh, .arr (MEM_ERR 0) 32 5, .arr (MEM_ERR_INFO 0) 32 5, .free, .arr (MEM_ERR_ADDR 0) 32 5, .arr (MEM_ERR_ADDR 0 + 4) 32 5, .log, .mem, .arr (CAP_ENG_STAT 0) 64 16, .arr DEC_LOAD 0 1, .arr (CAP_ENG_CFG 0) 64 16, .arr (DEC_BAY_STAT 0) 16 64] P) {s1 : State} {a2 : _} (h1 : P s1) : P (State.bayLeaves s1 a2) := by
  unfold State.bayLeaves
  refine foldl_keep (fun t0 x1 e2 => ?_) ?_
  · refine State.disarm_keep k.sub ?_
    assumption
  · assumption

theorem State.breakChans_keep {P : State → Prop} (k : Keeps [.qm, .log, .mend, .cap, .acq, .arr CMP_ERR 0 1, .fresh, .arr (MEM_ERR 0) 32 5, .arr (MEM_ERR_INFO 0) 32 5, .free, .arr (MEM_ERR_ADDR 0) 32 5, .arr (MEM_ERR_ADDR 0 + 4) 32 5, .mem, .arr (CAP_ENG_STAT 0) 64 16] P) {s1 : State} {a2 : _} {a3 : _} {a4 : _} (h1 : P s1) : P (State.breakChans s1 a2 a3 a4) := by
  unfold State.breakChans
  extract_lets +onlyGivenNames x0
  extract_lets +onlyGivenNames x1
  extract_lets +onlyGivenNames x2
  have e3 : P x2 := by
    unfold x2
    refine foldl_keep (fun t4 x5 e6 => ?_) ?_
    · refine State.issue_keep k.sub ?_
      assumption
    · assumption
  clear_value x2
  extract_lets +onlyGivenNames x7
  extract_lets +onlyGivenNames x8
  have e9 : P x8 := by
    unfold x8
    refine foldl_keep (fun t10 x11 e12 => ?_) ?_
    · refine State.endPane_keep k.sub ?_
      assumption
    · assumption
  clear_value x8
  refine foldl_keep (fun t13 x14 e15 => ?_) ?_
  · refine State.onCh_keep k.sub ?_
    assumption
  · assumption

theorem State.breakHistory_keep {P : State → Prop} (k : Keeps [.qm, .log, .mend, .cap, .acq, .arr CMP_ERR 0 1, .fresh, .arr (MEM_ERR 0) 32 5, .arr (MEM_ERR_INFO 0) 32 5, .free, .arr (MEM_ERR_ADDR 0) 32 5, .arr (MEM_ERR_ADDR 0 + 4) 32 5, .mem, .arr (CAP_ENG_STAT 0) 64 16] P) {s1 : State} {a2 : _} {a3 : _} (h1 : P s1) : P (State.breakHistory s1 a2 a3) := by
  unfold State.breakHistory
  refine State.breakChans_keep k.sub ?_
  assumption

theorem State.showHist_keep {P : State → Prop} (k : Keeps [.arr (DEC_BAY_STAT 0) 16 64, .acq, .arr CAP_HIST_STAT 0 1] P) {s1 : State} {a2 : _} (h1 : P s1) : P (State.showHist s1 a2) := by
  unfold State.showHist
  extract_lets +onlyGivenNames x0
  extract_lets +onlyGivenNames x1
  extract_lets +onlyGivenNames x2
  have e3 : P x2 := by
    unfold x2
    refine setFld_keep k (DEC_BAY_STAT 0) 16 64 ⟨_, rfl⟩ ?_
    assumption
  clear_value x2
  extract_lets +onlyGivenNames x4
  have e5 : P x4 := by
    unfold x4
    split
    · refine foldl_keep (fun t6 x7 e8 => ?_) ?_
      · refine State.onCh_keep k.sub ?_
        assumption
      · assumption
    · assumption
  clear_value x4
  refine setFld_keep k CAP_HIST_STAT 0 1 ⟨0, rfl⟩ ?_
  assumption

theorem State.askRepart_keep {P : State → Prop} (k : Keeps [.cap] P) {s1 : State} (h1 : P s1) : P (State.askRepart s1) := by
  unfold State.askRepart
  refine (k.at .cap) _ _ ?_
  assumption

theorem State.repartition_keep {P : State → Prop} (k : Keeps [.cap, .qm, .log, .mend, .acq, .arr CMP_ERR 0 1, .fresh, .arr (MEM_ERR 0) 32 5, .arr (MEM_ERR_INFO 0) 32 5, .free, .arr (MEM_ERR_ADDR 0) 32 5, .arr (MEM_ERR_ADDR 0 + 4) 32 5, .mem, .arr (CAP_ENG_STAT 0) 64 16, .arr CAP_HIST_STAT 0 1] P) {s1 : State} (h1 : P s1) : P (State.repartition s1) := by
  unfold State.repartition
  split
  · assumption
  · split
    · assumption
    · extract_lets +onlyGivenNames x0
      have e1 : P x0 := by
        unfold x0
        refine (k.at .cap) _ _ ?_
        assumption
      clear_value x0
      extract_lets +onlyGivenNames x2
      have e3 : P x2 := by
        unfold x2
        refine foldl_keep (fun t4 x5 e6 => ?_) ?_
        · refine State.breakHistory_keep k.sub ?_
          assumption
        · assumption
      clear_value x2
      refine setFld_keep k CAP_HIST_STAT 0 1 ⟨0, rfl⟩ ?_
      refine (k.at .cap) _ _ ?_
      assumption

theorem execHistoryRepartition_keep {P : State → Prop} (k : Keeps [.mend, .qm, .arr CMP_ERR 0 1, .fresh, .log, .guard, .red, .arr RED_MIRROR 0 1, .time, .free, .cap, .acq, .arr (MEM_ERR 0) 32 5, .arr (MEM_ERR_INFO 0) 32 5, .arr (MEM_ERR_ADDR 0) 32 5, .arr (MEM_ERR_ADDR 0 + 4) 32 5, .mem, .arr (CAP_ENG_STAT 0) 64 16, .arr CAP_HIST_STAT 0 1] P) {a1 : _} {s2 : State} (h2 : P s2) : ∀ u, execHistoryRepartition a1 s2 = .next u → P u := by
  unfold execHistoryRepartition
  refine event_keep k.sub ?_ ?_
  · assumption
  · intro y0
    intro y1
    refine State.repartition_keep k.sub ?_
    assumption

theorem State.arm_keep {P : State → Prop} (k : Keeps [.arr (CAP_ENG_TRIG 0) 64 16, .arr (CAP_ENG_MAXLEN 0) 64 16, .arr (CAP_ENG_POST 0) 64 16, .arr (CAP_ENG_PRE 0) 64 16, .arr (CAP_ENG_CHAN 0) 64 16, .arr (CAP_ENG_CFG 0) 64 16, .acq, .arr DEC_LOAD 0 1, .arr (DEC_BAY_STAT 0) 16 64] P) {s1 : State} {a2 : _} {a3 : _} (h1 : P s1) : P (State.arm s1 a2 a3) := by
  unfold State.arm
  extract_lets +onlyGivenNames x0
  have e1 : P x0 := by
    unfold x0
    refine (k.at (.arr (CAP_ENG_TRIG 0) 64 16)) _ _ _ ⟨_, rfl⟩ ?_
    refine setFld_keep k (CAP_ENG_MAXLEN 0) 64 16 ⟨_, rfl⟩ ?_
    refine setFld_keep k (CAP_ENG_POST 0) 64 16 ⟨_, rfl⟩ ?_
    refine setFld_keep k (CAP_ENG_PRE 0) 64 16 ⟨_, rfl⟩ ?_
    refine (k.at (.arr (CAP_ENG_CHAN 0) 64 16)) _ _ _ ⟨_, rfl⟩ ?_
    refine (k.at (.arr (CAP_ENG_CFG 0) 64 16)) _ _ _ ⟨_, rfl⟩ ?_
    assumption
  clear_value x0
  extract_lets +onlyGivenNames x2
  extract_lets +onlyGivenNames x3
  have e4 : P x3 := by
    unfold x3
    refine (k.at .acq) _ _ ?_
    assumption
  clear_value x3
  extract_lets +onlyGivenNames x5
  have e6 : P x5 := by
    unfold x5
    refine setFld_keep k DEC_LOAD 0 1 ⟨0, rfl⟩ ?_
    assumption
  clear_value x5
  refine foldl_keep (fun t7 x8 e9 => ?_) ?_
  · refine State.showTaps_keep k.sub ?_
    assumption
  · assumption

theorem bodyPaneOpen_keep {P : State → Prop} (k : Keeps [.arr (CAP_ENG_TRIG 0) 64 16, .arr (CAP_ENG_MAXLEN 0) 64 16, .arr (CAP_ENG_POST 0) 64 16, .arr (CAP_ENG_PRE 0) 64 16, .arr (CAP_ENG_CHAN 0) 64 16, .arr (CAP_ENG_CFG 0) 64 16, .acq, .arr DEC_LOAD 0 1, .arr (DEC_BAY_STAT 0) 16 64, .cap, .arr (CAP_ENG_STAT 0) 64 16, .arr (CAP_ENG_CNT 0) 64 16, .fresh, .qm, .log, .mend, .arr CMP_ERR 0 1] P) {a1 : _} {a2 : _} {s3 : State} (h3 : P s3) : (bodyPaneOpen a1 a2 s3).Holds P := by
  unfold bodyPaneOpen
  extract_lets +onlyGivenNames x0
  extract_lets +onlyGivenNames x1
  extract_lets +onlyGivenNames x2
  extract_lets +onlyGivenNames x3
  extract_lets +onlyGivenNames x4
  extract_lets +onlyGivenNames x5
  split
  · refine checked_keep ?_ ?_
    · assumption
    · show P _
      refine State.arm_keep k.sub ?_
      assumption
  · split
    · extract_lets +onlyGivenNames x6
      extract_lets +onlyGivenNames x7
      refine checked_keep ?_ ?_
      · assumption
      · split
        · extract_lets +onlyGivenNames x8
          show P _
          refine State.takeSlot_keep k.sub ?_
          assumption
        · extract_lets +onlyGivenNames x9
          split
          · show P _
            assumption
          · show P _
            refine State.judge_keep k.sub ?_
            assumption
          · show P _
            refine State.judge_keep k.sub ?_
            assumption
    · refine checked_keep ?_ ?_
      · assumption
      · extract_lets +onlyGivenNames x10
        show P _
        refine State.takeSlot_keep k.sub ?_
        assumption

theorem bodyPaneClose_keep {P : State → Prop} (k : Keeps [.qm, .acq, .mend, .arr CMP_ERR 0 1, .fresh, .cap, .log, .arr (CAP_ENG_STAT 0) 64 16, .arr (MEM_ERR 0) 32 5, .arr (MEM_ERR_INFO 0) 32 5, .free, .arr (MEM_ERR_ADDR 0) 32 5, .arr (MEM_ERR_ADDR 0 + 4) 32 5, .mem, .arr DEC_LOAD 0 1, .arr (CAP_ENG_CFG 0) 64 16, .arr (DEC_BAY_STAT 0) 16 64] P) {a1 : _} {a2 : _} {s3 : State} (h3 : P s3) : (bodyPaneClose a1 a2 s3).Holds P := by
  unfold bodyPaneClose
  extract_lets +onlyGivenNames x0
  extract_lets +onlyGivenNames x1
  extract_lets +onlyGivenNames x2
  extract_lets +onlyGivenNames x3
  refine checked_keep ?_ ?_
  · assumption
  · split
    · clear_value x3
      split
      · show P _
        refine State.closePane_keep k.sub ?_
        assumption
      · show P _
        assumption
    · split
      · show P _
        refine foldl_keep (fun t4 x5 e6 => ?_) ?_
        · refine State.closePane_keep k.sub ?_
          assumption
        · assumption
      · show P _
        refine State.disarm_keep k.sub ?_
        assumption

theorem State.armWrite_keep {P : State → Prop} (k : Keeps [.arr (CAP_ENG_TRIG 0) 64 16, .arr (CAP_ENG_MAXLEN 0) 64 16, .arr (CAP_ENG_POST 0) 64 16, .arr (CAP_ENG_PRE 0) 64 16, .arr (CAP_ENG_CHAN 0) 64 16, .arr (CAP_ENG_CFG 0) 64 16, .acq, .arr DEC_LOAD 0 1, .arr (DEC_BAY_STAT 0) 16 64, .cap, .qm, .mend, .arr CMP_ERR 0 1, .fresh, .arr (MEM_ERR 0) 32 5, .arr (MEM_ERR_INFO 0) 32 5, .free, .arr (MEM_ERR_ADDR 0) 32 5, .arr (MEM_ERR_ADDR 0 + 4) 32 5, .log, .mem, .arr (CAP_ENG_STAT 0) 64 16] P) {s1 : State} {a2 : _} {a3 : _} (h1 : P s1) : P (State.armWrite s1 a2 a3) := by
  unfold State.armWrite
  split
  · extract_lets +onlyGivenNames x0
    split
    · assumption
    · refine State.arm_keep k.sub ?_
      assumption
  · split
    · refine State.disarm_keep k.sub ?_
      assumption
    · assumption

theorem execEngineArmWrite_keep {P : State → Prop} (k : Keeps ([.mend, .qm, .arr CMP_ERR 0 1, .fresh, .log, .guard, .red, .arr RED_MIRROR 0 1, .time, .free, .arr (CAP_ENG_TRIG 0) 64 16, .arr (CAP_ENG_MAXLEN 0) 64 16, .arr (CAP_ENG_POST 0) 64 16, .arr (CAP_ENG_PRE 0) 64 16, .arr (CAP_ENG_CHAN 0) 64 16, .arr (CAP_ENG_CFG 0) 64 16, .acq, .arr DEC_LOAD 0 1, .arr (DEC_BAY_STAT 0) 16 64, .cap, .arr (MEM_ERR 0) 32 5, .arr (MEM_ERR_INFO 0) 32 5, .arr (MEM_ERR_ADDR 0) 32 5, .arr (MEM_ERR_ADDR 0 + 4) 32 5, .mem] ++ [.arr (CAP_ENG_STAT 0) 64 16]) P) {a1 : _} {a2 : _} {a3 : _} {s4 : State} (h4 : P s4) : ∀ u, execEngineArmWrite a1 a2 a3 s4 = .next u → P u := by
  unfold execEngineArmWrite
  refine event_keep k.sub ?_ ?_
  · assumption
  · intro y0
    intro y1
    refine State.armWrite_keep k.sub ?_
    assumption

theorem bodyTriggerAnnounce_keep {P : State → Prop} (k : Keeps [.cap, .log, .qm, .mend, .arr (CAP_TRIG_STAT 0) 32 32, .fresh, .arr (CAP_ENG_CNT 0) 64 16, .arr (CAP_ENG_STAT 0) 64 16, .acq, .arr CMP_ERR 0 1, .cmd] P) {a1 : _} {a2 : _} {s3 : State} (h3 : P s3) : (bodyTriggerAnnounce a1 a2 s3).Holds P := by
  unfold bodyTriggerAnnounce
  extract_lets +onlyGivenNames x0
  extract_lets +onlyGivenNames x1
  extract_lets +onlyGivenNames x2
  extract_lets +onlyGivenNames x3
  refine checked_keep ?_ ?_
  · assumption
  · extract_lets +onlyGivenNames x4
    extract_lets +onlyGivenNames x5
    extract_lets +onlyGivenNames x6
    have e7 : P x6 := by
      unfold x6
      refine (k.at .cap) _ _ ?_
      assumption
    clear_value x6
    extract_lets +onlyGivenNames x8
    split
    · show P _
      unfold x8
      split
      · assumption
      · refine foldl_keep_on (fun z : Nat × Nat × State => z.2.2) (fun b9 x10 e11 => ?_) ?_
        · extract_lets +onlyGivenNames x12
          refine State.fire_keep k.sub ?_
          assumption
        · assumption
    · show P _
      unfold x8
      split
      · assumption
      · refine foldl_keep_on (fun z : Nat × Nat × State => z.2.2) (fun b13 x14 e15 => ?_) ?_
        · extract_lets +onlyGivenNames x16
          refine State.fire_keep k.sub ?_
          assumption
        · assumption

theorem bodyHistoryExtract_keep {P : State → Prop} (k : Keeps [.cap] P) {a1 : _} {a2 : _} {s3 : State} (h3 : P s3) : (bodyHistoryExtract a1 a2 s3).Holds P := by
  unfold bodyHistoryExtract
  extract_lets +onlyGivenNames x0
  extract_lets +onlyGivenNames x1
  extract_lets +onlyGivenNames x2
  extract_lets +onlyGivenNames x3
  refine checked_keep ?_ ?_
  · assumption
  · show P _
    refine (k.at .cap) _ _ ?_
    assumption

theorem State.formExtract_keep {P : State → Prop} (k : Keeps [.qm, .acq, .mend, .arr CMP_ERR 0 1, .fresh, .arr (MEM_ERR 0) 32 5, .arr (MEM_ERR_INFO 0) 32 5, .free, .arr (MEM_ERR_ADDR 0) 32 5, .arr (MEM_ERR_ADDR 0 + 4) 32 5, .log, .mem] P) {s1 : State} {a2 : _} (h1 : P s1) : P (State.formExtract s1 a2).1 := by
  unfold State.formExtract
  extract_lets +onlyGivenNames x0
  extract_lets +onlyGivenNames x1
  extract_lets +onlyGivenNames x2
  extract_lets +onlyGivenNames x3
  extract_lets +onlyGivenNames x4
  extract_lets +onlyGivenNames x5
  unfold x2
  dsimp -zeta only
  refine foldl_keep_on (fun z : State × List Kept × Nat => z.1) (fun b6 x7 e8 => ?_) ?_
  · extract_lets +onlyGivenNames x9
    have e10 : P x9 := by
      unfold x9
      assumption
    clear_value x9
    extract_lets +onlyGivenNames x11
    extract_lets +onlyGivenNames x12
    extract_lets +onlyGivenNames x13
    extract_lets +onlyGivenNames x14
    extract_lets +onlyGivenNames x15
    extract_lets +onlyGivenNames x16
    dsimp -zeta only
    refine State.closeKey_keep k.sub ?_
    refine State.deliver_keep k.sub ?_ ?_
    · assumption
    · intro y17
      intro y18
      intro y19
      refine State.addSample_keep k.sub ?_
      assumption
  · assumption

theorem State.serveExtract_keep {P : State → Prop} (k : Keeps [.qm, .log, .mend, .acq, .arr CMP_ERR 0 1, .fresh, .arr (MEM_ERR 0) 32 5, .arr (MEM_ERR_INFO 0) 32 5, .free, .arr (MEM_ERR_ADDR 0) 32 5, .arr (MEM_ERR_ADDR 0 + 4) 32 5, .mem, .cmd, .arr CMD_CACHE 0 1, .cap] P) {s1 : State} {a2 : _} {a3 : _} (h1 : P s1) : P (State.serveExtract s1 a2 a3) := by
  unfold State.serveExtract
  extract_lets +onlyGivenNames x0
  split
  · assumption
  · split
    · assumption
    · extract_lets +onlyGivenNames x1
      extract_lets +onlyGivenNames x2
      have e3 : P x2 := by
        unfold x2
        refine foldl_keep (fun t4 x5 e6 => ?_) ?_
        · refine State.pushRec_keep k.sub ?_
          assumption
        · unfold x1
          split
          · assumption
          · refine State.formExtract_keep k.sub ?_
            assumption
      clear_value x2
      split
      · refine State.report_keep k.sub ?_
        refine (k.at .cap) _ _ ?_
        assumption
      · refine (k.at .cap) _ _ ?_
        assumption

theorem execExtractServe_keep {P : State → Prop} (k : Keeps [.mend, .qm, .arr CMP_ERR 0 1, .fresh, .log, .guard, .red, .arr RED_MIRROR 0 1, .time, .free, .acq, .arr (MEM_ERR 0) 32 5, .arr (MEM_ERR_INFO 0) 32 5, .arr (MEM_ERR_ADDR 0) 32 5, .arr (MEM_ERR_ADDR 0 + 4) 32 5, .mem, .cmd, .arr CMD_CACHE 0 1, .cap] P) {a1 : _} {a2 : _} {a3 : _} {s4 : State} (h4 : P s4) : ∀ u, execExtractServe a1 a2 a3 s4 = .next u → P u := by
  unfold execExtractServe
  refine event_keep k.sub ?_ ?_
  · assumption
  · intro y0
    intro y1
    refine State.serveExtract_keep k.sub ?_
    assumption

theorem bodyMeasureConfig_keep {P : State → Prop} (k : Keeps [.arr (CAP_MEAS_CFG 0) 4 512] P) {a1 : _} {a2 : _} {s3 : State} (h3 : P s3) : (bodyMeasureConfig a1 a2 s3).Holds P := by
  unfold bodyMeasureConfig
  extract_lets +onlyGivenNames x0
  extract_lets +onlyGivenNames x1
  extract_lets +onlyGivenNames x2
  refine checked_keep ?_ ?_
  · assumption
  · show P _
    refine foldl_keep (fun t3 x4 e5 => ?_) ?_
    · refine (k.at (.arr (CAP_MEAS_CFG 0) 4 512)) _ _ _ ⟨_, rfl⟩ ?_
      assumption
    · assumption

end Sys2Proof.Machine
end

