-- ==== Sys2Proof/Laws/KeepD.lean ====
section
/-!
SUPPORT. What the operations of Machine/Tiu, Front, Freq may touch: one lemma per function (Laws/Keep.lean).
-/

namespace Sys2Proof.Machine

set_option Elab.async false

open Reg Bits

theorem State.queueCal_keep {P : State → Prop} (k : Keeps [.arr (CAL_GRP_STAT 0) 16 29, .cal] P) {s1 : State} {a2 : _} (h1 : P s1) : P (State.queueCal s1 a2) := by
  unfold State.queueCal
  split
  · assumption
  · refine setFld_keep k (CAL_GRP_STAT 0) 16 29 ⟨_, rfl⟩ ?_
    refine (k.at .cal) _ _ ?_
    assumption

theorem State.setSource_keep {P : State → Prop} (k : Keeps [.arr (TIU_SRC_CFG 0) 4 64] P) {s1 : State} {a2 : _} {a3 : _} {a4 : _} {a5 : _} {a6 : _} {a7 : _} {a8 : _} (h1 : P s1) : P (State.setSource s1 a2 a3 a4 a5 a6 a7 a8) := by
  unfold State.setSource
  refine (k.at (.arr (TIU_SRC_CFG 0) 4 64)) _ _ _ ⟨_, rfl⟩ ?_
  assumption

theorem State.freeSource_keep {P : State → Prop} (k : Keeps [.arr (TIU_SRC_CFG 0) 4 64] P) {s1 : State} {a2 : _} (h1 : P s1) : P (State.freeSource s1 a2) := by
  unfold State.freeSource
  refine setFld_keep k (TIU_SRC_CFG 0) 4 64 ⟨_, rfl⟩ ?_
  refine setFld_keep k (TIU_SRC_CFG 0) 4 64 ⟨_, rfl⟩ ?_
  assumption

theorem State.releaseChan_keep {P : State → Prop} (k : Keeps [.cap, .tiu, .qm, .log, .mend, .arr (TIU_SRC_CFG 0) 4 64] P) {s1 : State} {a2 : _} (h1 : P s1) : P (State.releaseChan s1 a2) := by
  unfold State.releaseChan
  refine foldl_keep (fun t0 x1 e2 => ?_) ?_
  · extract_lets +onlyGivenNames x3
    extract_lets +onlyGivenNames x4
    have e5 : P x4 := by
      unfold x4
      refine foldl_keep (fun t6 x7 e8 => ?_) ?_
      · split
        · refine State.onUnit_keep k.sub ?_
          assumption
        · assumption
      · assumption
    clear_value x4
    extract_lets +onlyGivenNames x9
    have e10 : P x9 := by
      unfold x9
      refine (k.at .tiu) _ _ ?_
      assumption
    clear_value x9
    refine State.issue_keep k.sub ?_
    refine State.freeSource_keep k.sub ?_
    assumption
  · assumption

theorem State.drainCore_keep {P : State → Prop} (k : Keeps [.arr (TIU_CORE_STAT 0) 16 8, .tiu] P) {s1 : State} {a2 : _} (h1 : P s1) : P (State.drainCore s1 a2) := by
  unfold State.drainCore
  extract_lets +onlyGivenNames x0
  extract_lets +onlyGivenNames x1
  refine setFld_keep k (TIU_CORE_STAT 0) 16 8 ⟨_, rfl⟩ ?_
  refine State.onCore_keep k.sub ?_
  assumption

theorem State.hostStamp_keep {P : State → Prop} (k : Keeps [.arr TIU_HOST_STAT 0 1, .fresh, .tiu] P) {s1 : State} {a2 : _} (h1 : P s1) : P (State.hostStamp s1 a2) := by
  unfold State.hostStamp
  split
  · refine bump_keep k TIU_HOST_STAT 0 1 ⟨0, rfl⟩ ?_
    assumption
  · refine setFld_keep k TIU_HOST_STAT 0 1 ⟨0, rfl⟩ ?_
    refine (k.at .tiu) _ _ ?_
    assumption

theorem State.capStamp_keep {P : State → Prop} (k : Keeps [.fblk, .log, .qm, .mend, .arr (CAP_TRIG_STAT 0) 32 32, .fresh, .arr (CAP_ENG_CNT 0) 64 16, .cap, .arr (CAP_ENG_STAT 0) 64 16, .acq, .arr CMP_ERR 0 1, .cmd] P) {s1 : State} {a2 : _} (h1 : P s1) : P (State.capStamp s1 a2) := by
  unfold State.capStamp
  split
  · assumption
  · split
    · refine State.onFport_keep k.sub ?_
      assumption
    · refine foldl_keep (fun t0 x1 e2 => ?_) ?_
      · refine State.fireOwn_keep k.sub ?_
        assumption
      · assumption

theorem State.gateEdge_keep {P : State → Prop} (k : Keeps [.tiu] P) {s1 : State} {a2 : _} {a3 : _} (h1 : P s1) : P (State.gateEdge s1 a2 a3).2 := by
  unfold State.gateEdge
  extract_lets +onlyGivenNames x0
  split
  · assumption
  · dsimp -zeta only
    refine (k.at .tiu) _ _ ?_
    assumption

theorem State.gateStamp_keep {P : State → Prop} (k : Keeps [.tiu] P) {s1 : State} {a2 : _} (h1 : P s1) : P (State.gateStamp s1 a2) := by
  unfold State.gateStamp
  refine (k.at .tiu) _ _ ?_
  assumption

theorem State.missEdge_keep {P : State → Prop} (k : Keeps [.tiu, .log, .qm, .mend, .arr (TIU_CORE_STAT 0) 16 8, .fresh] P) {s1 : State} {a2 : _} (h1 : P s1) : P (State.missEdge s1 a2) := by
  unfold State.missEdge
  refine State.onCore_keep k.sub ?_
  refine State.pmc_keep k.sub ?_
  refine bump_keep k (TIU_CORE_STAT 0) 16 8 ⟨_, rfl⟩ ?_
  assumption

theorem State.revokeStamp_keep {P : State → Prop} (k : Keeps [.tiu, .log, .qm, .mend, .arr (TIU_CORE_STAT 0) 16 8, .fresh, .tb] P) {s1 : State} {a2 : _} {a3 : _} (h1 : P s1) : P (State.revokeStamp s1 a2 a3) := by
  unfold State.revokeStamp
  extract_lets +onlyGivenNames x0
  have e1 : P x0 := by
    unfold x0
    refine State.onCore_keep k.sub ?_
    refine State.missEdge_keep k.sub ?_
    assumption
  clear_value x0
  split
  · extract_lets +onlyGivenNames x2
    extract_lets +onlyGivenNames x3
    extract_lets +onlyGivenNames x4
    refine (k.at .qm) _ _ ?_
    refine State.onPtime_keep k.sub ?_
    assumption
  · split
    · refine State.onPtime_keep k.sub ?_
      assumption
    · assumption

theorem State.stampEdge_keep {P : State → Prop} (k : Keeps [.tiu, .log, .qm, .mend, .arr (TIU_CORE_STAT 0) 16 8, .fresh, .tb, .arr (TIU_CORE_ERR 0) 16 8] P) {s1 : State} {a2 : _} {a3 : _} {a4 : _} (h1 : P s1) : P (State.stampEdge s1 a2 a3 a4).2 := by
  unfold State.stampEdge
  extract_lets +onlyGivenNames x0
  split
  · dsimp -zeta only
    refine State.missEdge_keep k.sub ?_
    assumption
  · extract_lets +onlyGivenNames x1
    split
    · dsimp -zeta only
      refine State.missEdge_keep k.sub ?_
      assumption
    · extract_lets +onlyGivenNames x2
      have e3 : P x2 := by
        unfold x2
        refine State.drainCore_keep k.sub ?_
        refine foldl_keep (fun t4 x5 e6 => ?_) ?_
        · refine State.revokeStamp_keep k.sub ?_
          assumption
        · assumption
      clear_value x2
      extract_lets +onlyGivenNames x7
      extract_lets +onlyGivenNames x8
      have e9 : P x8 := by
        unfold x8
        refine State.onCore_keep k.sub ?_
        assumption
      clear_value x8
      split
      · dsimp -zeta only
        refine State.issueLim_keep k.sub ?_
        refine State.onCore_keep k.sub ?_
        refine bump_keep k (TIU_CORE_ERR 0) 16 8 ⟨_, rfl⟩ ?_
        assumption
      · extract_lets +onlyGivenNames x10
        extract_lets +onlyGivenNames x11
        extract_lets +onlyGivenNames x12
        have e13 : P x12 := by
          unfold x12
          refine bumpBy_keep k (TIU_CORE_ERR 0) 16 8 ⟨_, rfl⟩ ?_
          assumption
        clear_value x12
        extract_lets +onlyGivenNames x14
        have e15 : P x14 := by
          unfold x14
          refine setFld_keep k (TIU_CORE_STAT 0) 16 8 ⟨_, rfl⟩ ?_
          refine State.onCore_keep k.sub ?_
          assumption
        clear_value x14
        dsimp -zeta only
        refine State.pmc_keep k.sub ?_
        assumption

theorem State.deliverStamp_keep {P : State → Prop} (k : Keeps [.arr TIU_HOST_STAT 0 1, .fresh, .tiu, .fblk, .log, .qm, .mend, .arr (CAP_TRIG_STAT 0) 32 32, .arr (CAP_ENG_CNT 0) 64 16, .cap, .arr (CAP_ENG_STAT 0) 64 16, .acq, .arr CMP_ERR 0 1, .cmd] P) {s1 : State} {a2 : _} (h1 : P s1) : P (State.deliverStamp s1 a2) := by
  unfold State.deliverStamp
  split
  · refine State.hostStamp_keep k.sub ?_
    assumption
  · refine State.capStamp_keep k.sub ?_
    assumption
  · refine State.gateStamp_keep k.sub ?_
    assumption
  · assumption

theorem State.offerEdge_keep {P : State → Prop} (k : Keeps [.tiu] P) {s1 : State} {a2 : _} {a3 : _} (h1 : P s1) : P (State.offerEdge s1 a2 a3).2 := by
  unfold State.offerEdge
  split
  · assumption
  · split
    · refine State.gateEdge_keep k.sub ?_
      assumption
    · assumption

theorem State.edgeStamp_keep {P : State → Prop} (k : Keeps [.tiu, .log, .qm, .mend, .arr (TIU_CORE_STAT 0) 16 8, .fresh, .tb, .arr (TIU_CORE_ERR 0) 16 8, .arr TIU_HOST_STAT 0 1, .fblk, .arr (CAP_TRIG_STAT 0) 32 32, .arr (CAP_ENG_CNT 0) 64 16, .cap, .arr (CAP_ENG_STAT 0) 64 16, .acq, .arr CMP_ERR 0 1, .cmd] P) {s1 : State} {a2 : _} {a3 : _} {a4 : _} (h1 : P s1) : P (State.edgeStamp s1 a2 a3 a4) := by
  unfold State.edgeStamp
  extract_lets +onlyGivenNames x0
  extract_lets +onlyGivenNames x1
  extract_lets +onlyGivenNames x2
  refine foldl_keep (fun t3 x4 e5 => ?_) ?_
  · extract_lets +onlyGivenNames x6
    split
    · split
      · refine State.missEdge_keep k.sub ?_
        assumption
      · extract_lets +onlyGivenNames x7
        split
        · refine State.stampEdge_keep k.sub ?_
          assumption
        · refine State.deliverStamp_keep k.sub ?_
          refine State.stampEdge_keep k.sub ?_
          assumption
    · refine State.missEdge_keep k.sub ?_
      assumption
  · unfold x1
    refine foldl_keep_on (fun z : State × List (Nat × Bool × Nat) => z.1) (fun b8 x9 e10 => ?_) ?_
    · extract_lets +onlyGivenNames x11
      refine State.offerEdge_keep k.sub ?_
      assumption
    · assumption

theorem execEdgeStamp_keep {P : State → Prop} (k : Keeps [.mend, .qm, .arr CMP_ERR 0 1, .fresh, .log, .guard, .red, .arr RED_MIRROR 0 1, .time, .free, .tiu, .arr (TIU_CORE_STAT 0) 16 8, .tb, .arr (TIU_CORE_ERR 0) 16 8, .arr TIU_HOST_STAT 0 1, .fblk, .arr (CAP_TRIG_STAT 0) 32 32, .arr (CAP_ENG_CNT 0) 64 16, .cap, .arr (CAP_ENG_STAT 0) 64 16, .acq, .cmd] P) {a1 : _} {a2 : _} {a3 : _} {a4 : _} {s5 : State} (h5 : P s5) : ∀ u, execEdgeStamp a1 a2 a3 a4 s5 = .next u → P u := by
  unfold execEdgeStamp
  refine event_keep k.sub ?_ ?_
  · assumption
  · intro y0
    intro y1
    refine State.edgeStamp_keep k.sub ?_
    assumption

theorem State.loopUnlock_keep {P : State → Prop} (k : Keeps [.arr (TIU_CORE_STAT 0) 16 8, .tiu, .qm, .log, .mend] P) {s1 : State} {a2 : _} {a3 : _} (h1 : P s1) : P (State.loopUnlock s1 a2 a3) := by
  unfold State.loopUnlock
  extract_lets +onlyGivenNames x0
  have e1 : P x0 := by
    unfold x0
    split
    · refine setFld_keep k (TIU_CORE_STAT 0) 16 8 ⟨_, rfl⟩ ?_
      assumption
    · refine setFld_keep k (TIU_CORE_STAT 0) 16 8 ⟨_, rfl⟩ ?_
      assumption
  clear_value x0
  extract_lets +onlyGivenNames x2
  have e3 : P x2 := by
    unfold x2
    refine State.onCore_keep k.sub ?_
    assumption
  clear_value x2
  refine State.issue_keep k.sub ?_
  refine setFld_keep k (TIU_CORE_STAT 0) 16 8 ⟨_, rfl⟩ ?_
  assumption

theorem execLoopUnlock_keep {P : State → Prop} (k : Keeps [.mend, .qm, .arr CMP_ERR 0 1, .fresh, .log, .guard, .red, .arr RED_MIRROR 0 1, .time, .free, .arr (TIU_CORE_STAT 0) 16 8, .tiu] P) {a1 : _} {a2 : _} {a3 : _} {s4 : State} (h4 : P s4) : ∀ u, execLoopUnlock a1 a2 a3 s4 = .next u → P u := by
  unfold execLoopUnlock
  refine event_keep k.sub ?_ ?_
  · assumption
  · intro y0
    intro y1
    refine State.loopUnlock_keep k.sub ?_
    assumption

theorem State.loopRelock_keep {P : State → Prop} (k : Keeps [.arr (TIU_CORE_STAT 0) 16 8, .arr (CAL_GRP_STAT 0) 16 29, .cal] P) {s1 : State} {a2 : _} (h1 : P s1) : P (State.loopRelock s1 a2) := by
  unfold State.loopRelock
  extract_lets +onlyGivenNames x0
  have e1 : P x0 := by
    unfold x0
    refine setFld_keep k (TIU_CORE_STAT 0) 16 8 ⟨_, rfl⟩ ?_
    refine setFld_keep k (TIU_CORE_STAT 0) 16 8 ⟨_, rfl⟩ ?_
    assumption
  clear_value x0
  split
  · refine State.queueCal_keep k.sub ?_
    assumption
  · assumption

theorem execLoopRelock_keep {P : State → Prop} (k : Keeps [.mend, .qm, .arr CMP_ERR 0 1, .fresh, .log, .guard, .red, .arr RED_MIRROR 0 1, .time, .free, .arr (TIU_CORE_STAT 0) 16 8, .arr (CAL_GRP_STAT 0) 16 29, .cal] P) {a1 : _} {a2 : _} {s3 : State} (h3 : P s3) : ∀ u, execLoopRelock a1 a2 s3 = .next u → P u := by
  unfold execLoopRelock
  refine event_keep k.sub ?_ ?_
  · assumption
  · intro y0
    intro y1
    refine State.loopRelock_keep k.sub ?_
    assumption

theorem State.coreOut_keep {P : State → Prop} (k : Keeps [.arr (TIU_CORE_STAT 0) 16 8, .tiu] P) {s1 : State} {a2 : _} (h1 : P s1) : P (State.coreOut s1 a2) := by
  unfold State.coreOut
  extract_lets +onlyGivenNames x0
  have e1 : P x0 := by
    unfold x0
    refine setFld_keep k (TIU_CORE_STAT 0) 16 8 ⟨_, rfl⟩ ?_
    refine setFld_keep k (TIU_CORE_STAT 0) 16 8 ⟨_, rfl⟩ ?_
    assumption
  clear_value x0
  refine (k.at .tiu) _ _ ?_
  assumption

theorem State.coreBack_keep {P : State → Prop} (k : Keeps [.arr (TIU_CORE_STAT 0) 16 8, .tiu, .arr (CAL_GRP_STAT 0) 16 29, .cal] P) {s1 : State} {a2 : _} {a3 : _} (h1 : P s1) : P (State.coreBack s1 a2 a3) := by
  unfold State.coreBack
  extract_lets +onlyGivenNames x0
  have e1 : P x0 := by
    unfold x0
    refine setFld_keep k (TIU_CORE_STAT 0) 16 8 ⟨_, rfl⟩ ?_
    assumption
  clear_value x0
  extract_lets +onlyGivenNames x2
  have e3 : P x2 := by
    unfold x2
    refine (k.at .tiu) _ _ ?_
    assumption
  clear_value x2
  extract_lets +onlyGivenNames x4
  extract_lets +onlyGivenNames x5
  split
  · split
    · refine State.queueCal_keep k.sub ?_
      assumption
    · assumption
  · refine setFld_keep k (TIU_CORE_STAT 0) 16 8 ⟨_, rfl⟩ ?_
    refine State.onCore_keep k.sub ?_
    assumption

theorem bodyTiuRoute_keep {P : State → Prop} (k : Keeps [.arr (TIU_SRC_CFG 0) 4 64] P) {a1 : _} {a2 : _} {s3 : State} (h3 : P s3) : (bodyTiuRoute a1 a2 s3).Holds P := by
  unfold bodyTiuRoute
  extract_lets +onlyGivenNames x0
  extract_lets +onlyGivenNames x1
  extract_lets +onlyGivenNames x2
  extract_lets +onlyGivenNames x3
  extract_lets +onlyGivenNames x4
  refine checked_keep ?_ ?_
  · assumption
  · split
    · show P _
      refine State.freeSource_keep k.sub ?_
      assumption
    · show P _
      refine State.setSource_keep k.sub ?_
      assumption

theorem State.dropGate_keep {P : State → Prop} (k : Keeps [.tiu, .arr (TIU_SRC_CFG 0) 4 64] P) {s1 : State} {a2 : _} (h1 : P s1) : P (State.dropGate s1 a2) := by
  unfold State.dropGate
  extract_lets +onlyGivenNames x0
  refine (k.at .tiu) _ _ ?_
  refine foldl_keep (fun t1 x2 e3 => ?_) ?_
  · refine State.freeSource_keep k.sub ?_
    assumption
  · assumption

theorem bodyStampRead_keep {P : State → Prop} (k : Keeps [.arr TIU_HOST_STAT 0 1, .tiu] P) {a1 : _} {a2 : _} {s3 : State} (h3 : P s3) : (bodyStampRead a1 a2 s3).Holds P := by
  unfold bodyStampRead
  extract_lets +onlyGivenNames x0
  refine checked_keep ?_ ?_
  · assumption
  · extract_lets +onlyGivenNames x1
    extract_lets +onlyGivenNames x2
    extract_lets +onlyGivenNames x3
    show P _
    refine setFld_keep k TIU_HOST_STAT 0 1 ⟨0, rfl⟩ ?_
    refine (k.at .tiu) _ _ ?_
    assumption

theorem State.unclaimUnit_keep {P : State → Prop} (k : Keeps [.cap, .arr (TIU_SRC_CFG 0) 4 64] P) {s1 : State} {a2 : _} (h1 : P s1) : P (State.unclaimUnit s1 a2) := by
  unfold State.unclaimUnit
  split
  · assumption
  · extract_lets +onlyGivenNames x0
    have e1 : P x0 := by
      unfold x0
      refine State.onUnit_keep k.sub ?_
      assumption
    clear_value x0
    split
    · assumption
    · refine State.freeSource_keep k.sub ?_
      assumption

theorem State.setTrigger_keep {P : State → Prop} (k : Keeps [.cap, .arr (TIU_SRC_CFG 0) 4 64, .arr (CAP_TRIG_PARAM 0) 32 32, .arr (CAP_TRIG_SILL 0) 32 32, .arr (CAP_TRIG_LINTEL 0) 32 32, .arr (CAP_TRIG_CFG 0) 32 32, .arr (CAP_TRIG_STAT 0) 32 32] P) {s1 : State} {a2 : _} {a3 : _} {a4 : _} {a5 : _} {a6 : _} (h1 : P s1) : P (State.setTrigger s1 a2 a3 a4 a5 a6) := by
  unfold State.setTrigger
  extract_lets +onlyGivenNames x0
  extract_lets +onlyGivenNames x1
  extract_lets +onlyGivenNames x2
  extract_lets +onlyGivenNames x3
  have e4 : P x3 := by
    unfold x3
    refine State.unclaimUnit_keep k.sub ?_
    assumption
  clear_value x3
  extract_lets +onlyGivenNames x5
  have e6 : P x5 := by
    unfold x5
    refine (k.at (.arr (CAP_TRIG_PARAM 0) 32 32)) _ _ _ ⟨_, rfl⟩ ?_
    refine (k.at (.arr (CAP_TRIG_SILL 0) 32 32)) _ _ _ ⟨_, rfl⟩ ?_
    refine (k.at (.arr (CAP_TRIG_LINTEL 0) 32 32)) _ _ _ ⟨_, rfl⟩ ?_
    refine (k.at (.arr (CAP_TRIG_CFG 0) 32 32)) _ _ _ ⟨_, rfl⟩ ?_
    assumption
  clear_value x5
  extract_lets +onlyGivenNames x7
  have e8 : P x7 := by
    unfold x7
    refine State.onUnit_keep k.sub ?_
    refine setFld_keep k (CAP_TRIG_STAT 0) 32 32 ⟨_, rfl⟩ ?_
    assumption
  clear_value x7
  split
  · assumption
  · split
    · split
      · refine State.onUnit_keep k.sub ?_
        refine State.setSource_keep k.sub ?_
        assumption
      · assumption
    · split
      · extract_lets +onlyGivenNames x9
        extract_lets +onlyGivenNames x10
        extract_lets +onlyGivenNames x11
        have e12 : P x11 := by
          unfold x11
          split
          · split
            · refine setFld_keep k (TIU_SRC_CFG 0) 4 64 ⟨_, rfl⟩ ?_
              assumption
            · assumption
          · refine State.setSource_keep k.sub ?_
            assumption
        clear_value x11
        refine State.onUnit_keep k.sub ?_
        assumption
      · assumption

theorem bodyTriggerConfig_keep {P : State → Prop} (k : Keeps [.cap, .arr (TIU_SRC_CFG 0) 4 64, .arr (CAP_TRIG_PARAM 0) 32 32, .arr (CAP_TRIG_SILL 0) 32 32, .arr (CAP_TRIG_LINTEL 0) 32 32, .arr (CAP_TRIG_CFG 0) 32 32, .arr (CAP_TRIG_STAT 0) 32 32] P) {a1 : _} {a2 : _} {s3 : State} (h3 : P s3) : (bodyTriggerConfig a1 a2 s3).Holds P := by
  unfold bodyTriggerConfig
  extract_lets +onlyGivenNames x0
  extract_lets +onlyGivenNames x1
  extract_lets +onlyGivenNames x2
  extract_lets +onlyGivenNames x3
  extract_lets +onlyGivenNames x4
  refine checked_keep ?_ ?_
  · assumption
  · show P _
    refine State.setTrigger_keep k.sub ?_
    assumption

theorem State.amend_keep {P : State → Prop} (k : Keeps [.mend, .qm] P) {s1 : State} {a2 : _} {a3 : _} {a4 : _} {a5 : _} {a6 : _} (h1 : P s1) : P (State.amend s1 a2 a3 a4 a5 a6) := by
  unfold State.amend
  extract_lets +onlyGivenNames x0
  extract_lets +onlyGivenNames x1
  extract_lets +onlyGivenNames x2
  split
  · assumption
  · refine State.addSeqRec_keep k.sub ?_
    assumption

theorem State.suspectFrom_keep {P : State → Prop} (k : Keeps [.acq, .qm, .mend, .arr CMP_ERR 0 1, .fresh, .cap] P) {s1 : State} {a2 : _} {a3 : _} {a4 : _} (h1 : P s1) : P (State.suspectFrom s1 a2 a3 a4) := by
  unfold State.suspectFrom
  extract_lets +onlyGivenNames x0
  extract_lets +onlyGivenNames x1
  have e2 : P x1 := by
    unfold x1
    unfold State.openSpan
    refine State.onCh_keep k.sub ?_
    assumption
  clear_value x1
  extract_lets +onlyGivenNames x3
  have e4 : P x3 := by
    unfold x3
    refine foldl_keep (fun t5 x6 e7 => ?_) ?_
    · split
      · refine (k.at .qm) _ _ ?_
        assumption
      · refine State.closeAsm_keep k.sub ?_
        assumption
    · assumption
  clear_value x3
  extract_lets +onlyGivenNames x8
  have e9 : P x8 := by
    unfold x8
    refine foldl_keep (fun t10 x11 e12 => ?_) ?_
    · refine State.amend_keep k.sub ?_
      assumption
    · assumption
  clear_value x8
  extract_lets +onlyGivenNames x13
  refine (k.at .cap) _ _ ?_
  assumption

theorem State.wireBreak_keep {P : State → Prop} (k : Keeps [.arr (AFE_CH_STAT 0) 16 512, .acq, .qm, .mend, .arr CMP_ERR 0 1, .fresh, .cap, .arr (AFE_WIRE_BREAK 0) 4 16, .log] P) {s1 : State} {a2 : _} {a3 : _} (h1 : P s1) : P (State.wireBreak s1 a2 a3) := by
  unfold State.wireBreak
  split
  · refine setFld_keep k (AFE_CH_STAT 0) 16 512 ⟨_, rfl⟩ ?_
    assumption
  · extract_lets +onlyGivenNames x0
    extract_lets +onlyGivenNames x1
    have e2 : P x1 := by
      unfold x1
      clear_value x0
      split
      · assumption
      · refine State.suspectFrom_keep k.sub ?_
        assumption
    clear_value x1
    extract_lets +onlyGivenNames x3
    have e4 : P x3 := by
      unfold x3
      refine setBit_keep k (AFE_WIRE_BREAK 0) 4 16 ⟨_, rfl⟩ ?_
      refine setFld_keep k (AFE_CH_STAT 0) 16 512 ⟨_, rfl⟩ ?_
      refine setFld_keep k (AFE_CH_STAT 0) 16 512 ⟨_, rfl⟩ ?_
      assumption
    clear_value x3
    refine State.issue_keep k.sub ?_
    assumption

theorem State.wirePass_keep {P : State → Prop} (k : Keeps [.acq, .qm, .log, .mend, .arr (AFE_CH_STAT 0) 16 512] P) {s1 : State} {a2 : _} {a3 : _} {a4 : _} (h1 : P s1) : P (State.wirePass s1 a2 a3 a4) := by
  unfold State.wirePass
  extract_lets +onlyGivenNames x0
  extract_lets +onlyGivenNames x1
  extract_lets +onlyGivenNames x2
  have e3 : P x2 := by
    unfold x2
    refine State.onCh_keep k.sub ?_
    assumption
  clear_value x2
  split
  · assumption
  · refine State.issue_keep k.sub ?_
    refine setFld_keep k (AFE_CH_STAT 0) 16 512 ⟨_, rfl⟩ ?_
    refine setFld_keep k (AFE_CH_STAT 0) 16 512 ⟨_, rfl⟩ ?_
    unfold State.closeSpan
    refine State.onCh_keep k.sub ?_
    assumption

theorem State.wireClear_keep {P : State → Prop} (k : Keeps [.arr (AFE_CH_STAT 0) 16 512, .acq] P) {s1 : State} {a2 : _} (h1 : P s1) : P (State.wireClear s1 a2) := by
  unfold State.wireClear
  refine setFld_keep k (AFE_CH_STAT 0) 16 512 ⟨_, rfl⟩ ?_
  refine setFld_keep k (AFE_CH_STAT 0) 16 512 ⟨_, rfl⟩ ?_
  refine State.onCh_keep k.sub ?_
  unfold State.closeSpan
  refine State.onCh_keep k.sub ?_
  assumption

theorem State.pilotWindow_keep {P : State → Prop} (k : Keeps [.acq, .qm, .log, .mend, .arr (AFE_CH_STAT 0) 16 512, .arr CMP_ERR 0 1, .fresh, .cap, .arr (AFE_WIRE_BREAK 0) 4 16] P) {s1 : State} {a2 : _} {a3 : _} (h1 : P s1) : P (State.pilotWindow s1 a2 a3) := by
  unfold State.pilotWindow
  extract_lets +onlyGivenNames x0
  split
  · assumption
  · split
    · refine State.wirePass_keep k.sub ?_
      assumption
    · refine State.wireBreak_keep k.sub ?_
      assumption
    · refine State.wireBreak_keep k.sub ?_
      assumption

theorem execPilotWindow_keep {P : State → Prop} (k : Keeps [.mend, .qm, .arr CMP_ERR 0 1, .fresh, .log, .guard, .red, .arr RED_MIRROR 0 1, .time, .free, .acq, .arr (AFE_CH_STAT 0) 16 512, .cap, .arr (AFE_WIRE_BREAK 0) 4 16] P) {a1 : _} {a2 : _} {a3 : _} {s4 : State} (h4 : P s4) : ∀ u, execPilotWindow a1 a2 a3 s4 = .next u → P u := by
  unfold execPilotWindow
  refine event_keep k.sub ?_ ?_
  · assumption
  · intro y0
    intro y1
    refine State.pilotWindow_keep k.sub ?_
    assumption

theorem State.testTick_keep {P : State → Prop} (k : Keeps [.acq, .arr (AFE_CH_STAT 0) 16 512, .qm, .mend, .arr CMP_ERR 0 1, .fresh, .cap, .arr (AFE_WIRE_BREAK 0) 4 16, .log] P) {s1 : State} {a2 : _} (h1 : P s1) : P (State.testTick s1 a2) := by
  unfold State.testTick
  extract_lets +onlyGivenNames x0
  split
  · assumption
  · extract_lets +onlyGivenNames x1
    extract_lets +onlyGivenNames x2
    have e3 : P x2 := by
      unfold x2
      refine (k.at .acq) _ _ ?_
      assumption
    clear_value x2
    refine foldl_keep (fun t4 x5 e6 => ?_) ?_
    · extract_lets +onlyGivenNames x7
      split
      · assumption
      · extract_lets +onlyGivenNames x8
        have e9 : P x8 := by
          unfold x8
          refine State.onCh_keep k.sub ?_
          assumption
        clear_value x8
        split
        · assumption
        · split
          · refine State.wireBreak_keep k.sub ?_
            assumption
          · split
            · refine State.wireBreak_keep k.sub ?_
              assumption
            · refine State.wirePass_keep k.sub ?_
              assumption
    · assumption

theorem execTestTick_keep {P : State → Prop} (k : Keeps [.mend, .qm, .arr CMP_ERR 0 1, .fresh, .log, .guard, .red, .arr RED_MIRROR 0 1, .time, .free, .acq, .arr (AFE_CH_STAT 0) 16 512, .cap, .arr (AFE_WIRE_BREAK 0) 4 16] P) {a1 : _} {a2 : _} {s3 : State} (h3 : P s3) : ∀ u, execTestTick a1 a2 s3 = .next u → P u := by
  unfold execTestTick
  refine event_keep k.sub ?_ ?_
  · assumption
  · intro y0
    intro y1
    refine State.testTick_keep k.sub ?_
    assumption

theorem State.clampOnset_keep {P : State → Prop} (k : Keeps [.arr (AFE_CLAMP_SEEN 0) 4 16, .fresh, .arr (AFE_CH_STAT 0) 16 512, .acq, .qm, .log, .mend] P) {s1 : State} {a2 : _} {a3 : _} (h1 : P s1) : P (State.clampOnset s1 a2 a3) := by
  unfold State.clampOnset
  split
  · assumption
  · extract_lets +onlyGivenNames x0
    have e1 : P x0 := by
      unfold x0
      refine setBit_keep k (AFE_CLAMP_SEEN 0) 4 16 ⟨_, rfl⟩ ?_
      refine bump_keep k (AFE_CH_STAT 0) 16 512 ⟨_, rfl⟩ ?_
      assumption
    clear_value x0
    extract_lets +onlyGivenNames x2
    have e3 : P x2 := by
      unfold x2
      unfold State.addSpan
      refine State.onCh_keep k.sub ?_
      refine State.onCh_keep k.sub ?_
      assumption
    clear_value x2
    refine State.issueLim_keep k.sub ?_
    refine State.onCh_keep k.sub ?_
    assumption

theorem execClampOnset_keep {P : State → Prop} (k : Keeps [.mend, .qm, .arr CMP_ERR 0 1, .fresh, .log, .guard, .red, .arr RED_MIRROR 0 1, .time, .free, .arr (AFE_CLAMP_SEEN 0) 4 16, .arr (AFE_CH_STAT 0) 16 512, .acq] P) {a1 : _} {a2 : _} {a3 : _} {s4 : State} (h4 : P s4) : ∀ u, execClampOnset a1 a2 a3 s4 = .next u → P u := by
  unfold execClampOnset
  refine event_keep k.sub ?_ ?_
  · assumption
  · intro y0
    intro y1
    refine State.clampOnset_keep k.sub ?_
    assumption

theorem State.excLimit_keep {P : State → Prop} (k : Keeps [.qm, .log, .mend, .arr (AFE_BAY_MON 0) 16 64, .arr (AFE_CH_STAT 0) 16 512, .acq, .arr CMP_ERR 0 1, .fresh, .cap, .arr (AFE_WIRE_BREAK 0) 4 16] P) {s1 : State} {a2 : _} (h1 : P s1) : P (State.excLimit s1 a2) := by
  unfold State.excLimit
  split
  · assumption
  · extract_lets +onlyGivenNames x0
    have e1 : P x0 := by
      unfold x0
      refine State.issue_keep k.sub ?_
      refine setFld_keep k (AFE_BAY_MON 0) 16 64 ⟨_, rfl⟩ ?_
      assumption
    clear_value x0
    refine foldl_keep (fun t2 x3 e4 => ?_) ?_
    · split
      · refine State.wireBreak_keep k.sub ?_
        assumption
      · assumption
    · assumption

theorem execExcLimit_keep {P : State → Prop} (k : Keeps [.mend, .qm, .arr CMP_ERR 0 1, .fresh, .log, .guard, .red, .arr RED_MIRROR 0 1, .time, .free, .arr (AFE_BAY_MON 0) 16 64, .arr (AFE_CH_STAT 0) 16 512, .acq, .cap, .arr (AFE_WIRE_BREAK 0) 4 16] P) {a1 : _} {a2 : _} {s3 : State} (h3 : P s3) : ∀ u, execExcLimit a1 a2 s3 = .next u → P u := by
  unfold execExcLimit
  refine event_keep k.sub ?_ ?_
  · assumption
  · intro y0
    intro y1
    refine State.excLimit_keep k.sub ?_
    assumption

theorem State.excLatch_keep {P : State → Prop} (k : Keeps [.acq] P) {s1 : State} {a2 : _} (h1 : P s1) : P (State.excLatch s1 a2) := by
  unfold State.excLatch
  extract_lets +onlyGivenNames x0
  refine State.onBay_keep k.sub ?_
  assumption

theorem State.excSense_keep {P : State → Prop} (k : Keeps [.cal] P) {s1 : State} {a2 : _} {a3 : _} (h1 : P s1) : P (State.excSense s1 a2 a3).2 := by
  unfold State.excSense
  extract_lets +onlyGivenNames x0
  extract_lets +onlyGivenNames x1
  split
  · dsimp -zeta only
    refine (k.at .cal) _ _ ?_
    assumption
  · assumption

theorem State.excStart_keep {P : State → Prop} (k : Keeps [.arr (AFE_BAY_MON 0) 16 64, .acq] P) {s1 : State} {a2 : _} {a3 : _} (h1 : P s1) : P (State.excStart s1 a2 a3) := by
  unfold State.excStart
  extract_lets +onlyGivenNames x0
  extract_lets +onlyGivenNames x1
  have e2 : P x1 := by
    unfold x1
    split
    · assumption
    · refine (k.at (.arr (AFE_BAY_MON 0) 16 64)) _ _ _ ⟨_, rfl⟩ ?_
      assumption
  clear_value x1
  refine State.onBay_keep k.sub ?_
  refine State.excLatch_keep k.sub ?_
  assumption

theorem State.excMeasured_keep {P : State → Prop} (k : Keeps [.acq, .arr (AFE_BAY_MON 0) 16 64, .qm, .log, .mend, .arr (AFE_CH_STAT 0) 16 512, .arr CMP_ERR 0 1, .fresh, .cap, .arr (AFE_WIRE_BREAK 0) 4 16] P) {s1 : State} {a2 : _} {a3 : _} {a4 : _} {a5 : _} (h1 : P s1) : P (State.excMeasured s1 a2 a3 a4 a5) := by
  unfold State.excMeasured
  extract_lets +onlyGivenNames x0
  extract_lets +onlyGivenNames x1
  extract_lets +onlyGivenNames x2
  extract_lets +onlyGivenNames x3
  have e4 : P x3 := by
    unfold x3
    refine State.onBay_keep k.sub ?_
    assumption
  clear_value x3
  extract_lets +onlyGivenNames x5
  have e6 : P x5 := by
    unfold x5
    refine setFld_keep k (AFE_BAY_MON 0) 16 64 ⟨_, rfl⟩ ?_
    refine setFld_keep k (AFE_BAY_MON 0) 16 64 ⟨_, rfl⟩ ?_
    refine setFld_keep k (AFE_BAY_MON 0) 16 64 ⟨_, rfl⟩ ?_
    assumption
  clear_value x5
  extract_lets +onlyGivenNames x7
  extract_lets +onlyGivenNames x8
  have e9 : P x8 := by
    unfold x8
    refine foldl_keep (fun t10 x11 e12 => ?_) ?_
    · extract_lets +onlyGivenNames x13
      split
      · assumption
      · split
        · refine State.wirePass_keep k.sub ?_
          assumption
        · refine State.wireBreak_keep k.sub ?_
          assumption
    · assumption
  clear_value x8
  split
  · refine foldl_keep (fun t14 x15 e16 => ?_) ?_
    · unfold State.addSpan
      refine State.onCh_keep k.sub ?_
      assumption
    · assumption
  · assumption

theorem State.excPeriodEnd_keep {P : State → Prop} (k : Keeps [.qm, .log, .mend, .arr (AFE_BAY_MON 0) 16 64, .arr (AFE_CH_STAT 0) 16 512, .acq, .arr CMP_ERR 0 1, .fresh, .cap, .arr (AFE_WIRE_BREAK 0) 4 16, .cal] P) {s1 : State} {a2 : _} {a3 : _} (h1 : P s1) : P (State.excPeriodEnd s1 a2 a3) := by
  unfold State.excPeriodEnd
  extract_lets +onlyGivenNames x0
  extract_lets +onlyGivenNames x1
  split
  · assumption
  · split
    · unfold x0
      split
      · refine State.excLimit_keep k.sub ?_
        assumption
      · refine setFld_keep k (AFE_BAY_MON 0) 16 64 ⟨_, rfl⟩ ?_
        assumption
    · split
      · refine State.excStart_keep k.sub ?_
        assumption
      · extract_lets +onlyGivenNames x2
        split
        · assumption
        · extract_lets +onlyGivenNames x3
          extract_lets +onlyGivenNames x4
          have e5 : P x4 := by
            unfold x4
            refine State.excMeasured_keep k.sub ?_
            unfold x0
            split
            · refine State.excLimit_keep k.sub ?_
              refine State.excSense_keep k.sub ?_
              assumption
            · refine setFld_keep k (AFE_BAY_MON 0) 16 64 ⟨_, rfl⟩ ?_
              refine State.excSense_keep k.sub ?_
              assumption
          clear_value x4
          split
          · refine State.onBay_keep k.sub ?_
            refine State.excLatch_keep k.sub ?_
            assumption
          · extract_lets +onlyGivenNames x6
            have e7 : P x6 := by
              unfold x6
              refine foldl_keep (fun t8 x9 e10 => ?_) ?_
              · unfold State.addSpan
                refine State.onCh_keep k.sub ?_
                assumption
              · assumption
            clear_value x6
            refine State.excStart_keep k.sub ?_
            assumption

theorem execExcitationPeriod_keep {P : State → Prop} (k : Keeps [.mend, .qm, .arr CMP_ERR 0 1, .fresh, .log, .guard, .red, .arr RED_MIRROR 0 1, .time, .free, .arr (AFE_BAY_MON 0) 16 64, .arr (AFE_CH_STAT 0) 16 512, .acq, .cap, .arr (AFE_WIRE_BREAK 0) 4 16, .cal] P) {a1 : _} {a2 : _} {a3 : _} {s4 : State} (h4 : P s4) : ∀ u, execExcitationPeriod a1 a2 a3 s4 = .next u → P u := by
  unfold execExcitationPeriod
  refine event_keep k.sub ?_ ?_
  · assumption
  · intro y0
    intro y1
    refine State.excPeriodEnd_keep k.sub ?_
    assumption

theorem State.switchRange_keep {P : State → Prop} (k : Keeps [.acq, .arr (AFE_CH_STAT 0) 16 512] P) {s1 : State} {a2 : _} {a3 : _} {a4 : _} (h1 : P s1) : P (State.switchRange s1 a2 a3 a4) := by
  unfold State.switchRange
  extract_lets +onlyGivenNames x0
  extract_lets +onlyGivenNames x1
  extract_lets +onlyGivenNames x2
  have e3 : P x2 := by
    unfold x2
    refine State.onCh_keep k.sub ?_
    refine setFld_keep k (AFE_CH_STAT 0) 16 512 ⟨_, rfl⟩ ?_
    assumption
  clear_value x2
  split
  · assumption
  · unfold State.addSpan
    refine State.onCh_keep k.sub ?_
    refine State.onCh_keep k.sub ?_
    assumption

theorem State.restartDet_keep {P : State → Prop} (k : Keeps [.acq, .arr (DEC_DET_VAL 0) 8 512] P) {s1 : State} {a2 : _} (h1 : P s1) : P (State.restartDet s1 a2) := by
  unfold State.restartDet
  extract_lets +onlyGivenNames x0
  have e1 : P x0 := by
    unfold x0
    refine State.onDet_keep k.sub ?_
    assumption
  clear_value x0
  refine setFld_keep k (DEC_DET_VAL 0) 8 512 ⟨_, rfl⟩ ?_
  refine setFld_keep k (DEC_DET_VAL 0) 8 512 ⟨_, rfl⟩ ?_
  assumption

theorem State.chargeReset_keep {P : State → Prop} (k : Keeps [.acq, .arr (AFE_CH_STAT 0) 16 512, .fresh] P) {s1 : State} {a2 : _} (h1 : P s1) : P (State.chargeReset s1 a2) := by
  unfold State.chargeReset
  extract_lets +onlyGivenNames x0
  extract_lets +onlyGivenNames x1
  extract_lets +onlyGivenNames x2
  extract_lets +onlyGivenNames x3
  extract_lets +onlyGivenNames x4
  split
  · assumption
  · extract_lets +onlyGivenNames x5
    have e6 : P x5 := by
      unfold x5
      refine State.onCh_keep k.sub ?_
      assumption
    clear_value x5
    refine bump_keep k (AFE_CH_STAT 0) 16 512 ⟨_, rfl⟩ ?_
    unfold State.addSpan
    refine State.onCh_keep k.sub ?_
    assumption

theorem execChargeReset_keep {P : State → Prop} (k : Keeps [.mend, .qm, .arr CMP_ERR 0 1, .fresh, .log, .guard, .red, .arr RED_MIRROR 0 1, .time, .free, .acq, .arr (AFE_CH_STAT 0) 16 512] P) {a1 : _} {a2 : _} {s3 : State} (h3 : P s3) : ∀ u, execChargeReset a1 a2 s3 = .next u → P u := by
  unfold execChargeReset
  refine event_keep k.sub ?_ ?_
  · assumption
  · intro y0
    intro y1
    refine State.chargeReset_keep k.sub ?_
    assumption

theorem State.chargeEdge_keep {P : State → Prop} (k : Keeps [.acq] P) {s1 : State} {a2 : _} {a3 : _} (h1 : P s1) : P (State.chargeEdge s1 a2 a3) := by
  unfold State.chargeEdge
  extract_lets +onlyGivenNames x0
  have e1 : P x0 := by
    unfold x0
    split
    · unfold State.addSpan
      refine State.onCh_keep k.sub ?_
      assumption
    · assumption
  clear_value x0
  refine State.onCh_keep k.sub ?_
  assumption

theorem State.doInject_keep {P : State → Prop} (k : Keeps [.acq] P) {s1 : State} {a2 : _} {a3 : _} {a4 : _} {a5 : _} {a6 : _} {a7 : _} (h1 : P s1) : P (State.doInject s1 a2 a3 a4 a5 a6 a7) := by
  unfold State.doInject
  extract_lets +onlyGivenNames x0
  extract_lets +onlyGivenNames x1
  extract_lets +onlyGivenNames x2
  extract_lets +onlyGivenNames x3
  extract_lets +onlyGivenNames x4
  extract_lets +onlyGivenNames x5
  have e6 : P x5 := by
    unfold x5
    refine (k.at .acq) _ _ ?_
    assumption
  clear_value x5
  refine foldl_keep (fun t7 x8 e9 => ?_) ?_
  · refine State.onCh_keep k.sub ?_
    refine State.chargeEdge_keep k.sub ?_
    assumption
  · assumption

theorem State.oppositeEdge_keep {P : State → Prop} (k : Keeps [.acq, .qm, .log, .mend] P) {s1 : State} {a2 : _} (h1 : P s1) : P (State.oppositeEdge s1 a2) := by
  unfold State.oppositeEdge
  split
  · assumption
  · split
    · assumption
    · extract_lets +onlyGivenNames x0
      have e1 : P x0 := by
        unfold x0
        refine State.onCh_keep k.sub ?_
        refine State.chargeEdge_keep k.sub ?_
        assumption
      clear_value x0
      split
      · refine State.issue_keep k.sub ?_
        assumption
      · assumption

theorem execInjectOppositeEdge_keep {P : State → Prop} (k : Keeps [.mend, .qm, .arr CMP_ERR 0 1, .fresh, .log, .guard, .red, .arr RED_MIRROR 0 1, .time, .free, .acq] P) {a1 : _} {a2 : _} {s3 : State} (h3 : P s3) : ∀ u, execInjectOppositeEdge a1 a2 s3 = .next u → P u := by
  unfold execInjectOppositeEdge
  refine event_keep k.sub ?_ ?_
  · assumption
  · intro y0
    intro y1
    refine State.oppositeEdge_keep k.sub ?_
    assumption

theorem State.applyChannel_keep {P : State → Prop} (k : Keeps [.qm, .log, .mend, .cap, .acq, .arr CMP_ERR 0 1, .fresh, .arr (MEM_ERR 0) 32 5, .arr (MEM_ERR_INFO 0) 32 5, .free, .arr (MEM_ERR_ADDR 0) 32 5, .arr (MEM_ERR_ADDR 0 + 4) 32 5, .mem, .arr (CAP_ENG_STAT 0) 64 16, .arr (DEC_CH_STAT 0) 16 512, .tiu, .arr (TIU_SRC_CFG 0) 4 64, .arr (AFE_CH_THR 0) 16 512, .arr (AFE_CH_CFG 0) 16 512, .arr (AFE_CH_STAT 0) 16 512, .arr (DEC_DET_VAL 0) 8 512] P) {s1 : State} {a2 : _} {a3 : _} {a4 : _} (h1 : P s1) : P (State.applyChannel s1 a2 a3 a4) := by
  unfold State.applyChannel
  extract_lets +onlyGivenNames x0
  extract_lets +onlyGivenNames x1
  extract_lets +onlyGivenNames x2
  extract_lets +onlyGivenNames x3
  have e4 : P x3 := by
    unfold x3
    refine State.breakChans_keep k.sub ?_
    refine State.endStream_keep k.sub ?_
    assumption
  clear_value x3
  extract_lets +onlyGivenNames x5
  have e6 : P x5 := by
    unfold x5
    split
    · split
      · refine State.releaseChan_keep k.sub ?_
        assumption
      · assumption
    · assumption
  clear_value x5
  extract_lets +onlyGivenNames x7
  have e8 : P x7 := by
    unfold x7
    refine State.onCh_keep k.sub ?_
    refine (k.at (.arr (AFE_CH_THR 0) 16 512)) _ _ _ ⟨_, rfl⟩ ?_
    refine (k.at (.arr (AFE_CH_CFG 0) 16 512)) _ _ _ ⟨_, rfl⟩ ?_
    assumption
  clear_value x7
  extract_lets +onlyGivenNames x9
  have e10 : P x9 := by
    unfold x9
    split
    · refine State.wireClear_keep k.sub ?_
      assumption
    · assumption
  clear_value x9
  extract_lets +onlyGivenNames x11
  extract_lets +onlyGivenNames x12
  have e13 : P x12 := by
    unfold x12
    split
    · assumption
    · split
      · refine State.onCh_keep k.sub ?_
        refine setFld_keep k (AFE_CH_STAT 0) 16 512 ⟨_, rfl⟩ ?_
        assumption
      · refine State.switchRange_keep k.sub ?_
        assumption
  clear_value x12
  extract_lets +onlyGivenNames x14
  have e15 : P x14 := by
    unfold x14
    split
    · assumption
    · refine State.setScale_keep k.sub ?_
      assumption
  clear_value x14
  extract_lets +onlyGivenNames x16
  have e17 : P x16 := by
    unfold x16
    split
    · refine State.restartDet_keep k.sub ?_
      assumption
    · assumption
  clear_value x16
  split
  · refine State.restartStream_keep k.sub ?_
    assumption
  · assumption

theorem bodyChConfig_keep {P : State → Prop} (k : Keeps [.qm, .log, .mend, .cap, .acq, .arr CMP_ERR 0 1, .fresh, .arr (MEM_ERR 0) 32 5, .arr (MEM_ERR_INFO 0) 32 5, .free, .arr (MEM_ERR_ADDR 0) 32 5, .arr (MEM_ERR_ADDR 0 + 4) 32 5, .mem, .arr (CAP_ENG_STAT 0) 64 16, .arr (DEC_CH_STAT 0) 16 512, .tiu, .arr (TIU_SRC_CFG 0) 4 64, .arr (AFE_CH_THR 0) 16 512, .arr (AFE_CH_CFG 0) 16 512, .arr (AFE_CH_STAT 0) 16 512, .arr (DEC_DET_VAL 0) 8 512] P) {a1 : _} {a2 : _} {s3 : State} (h3 : P s3) : (bodyChConfig a1 a2 s3).Holds P := by
  unfold bodyChConfig
  extract_lets +onlyGivenNames x0
  extract_lets +onlyGivenNames x1
  extract_lets +onlyGivenNames x2
  extract_lets +onlyGivenNames x3
  refine checked_keep ?_ ?_
  · assumption
  · show P _
    refine foldl_keep (fun t4 x5 e6 => ?_) ?_
    · refine State.applyChannel_keep k.sub ?_
      assumption
    · assumption

theorem bodyChQuery_keep {P : State → Prop} (k : Keeps [] P) {a1 : _} {a2 : _} {s3 : State} (h3 : P s3) : (bodyChQuery a1 a2 s3).Holds P := by
  unfold bodyChQuery
  extract_lets +onlyGivenNames x0
  extract_lets +onlyGivenNames x1
  refine checked_keep ?_ ?_
  · assumption
  · show P _
    assumption

theorem State.setExc_keep {P : State → Prop} (k : Keeps [.arr (AFE_BAY_SWEEP 0) 16 64, .arr (AFE_BAY_EXC 0) 16 64, .arr (AFE_BAY_MON 0) 16 64, .acq] P) {s1 : State} {a2 : _} {a3 : _} {a4 : _} (h1 : P s1) : P (State.setExc s1 a2 a3 a4) := by
  unfold State.setExc
  extract_lets +onlyGivenNames x0
  extract_lets +onlyGivenNames x1
  extract_lets +onlyGivenNames x2
  extract_lets +onlyGivenNames x3
  have e4 : P x3 := by
    unfold x3
    refine (k.at (.arr (AFE_BAY_SWEEP 0) 16 64)) _ _ _ ⟨_, rfl⟩ ?_
    refine (k.at (.arr (AFE_BAY_EXC 0) 16 64)) _ _ _ ⟨_, rfl⟩ ?_
    assumption
  clear_value x3
  extract_lets +onlyGivenNames x5
  have e6 : P x5 := by
    unfold x5
    split
    · refine setFld_keep k (AFE_BAY_MON 0) 16 64 ⟨_, rfl⟩ ?_
      refine setFld_keep k (AFE_BAY_MON 0) 16 64 ⟨_, rfl⟩ ?_
      assumption
    · assumption
  clear_value x5
  split
  · refine State.onBay_keep k.sub ?_
    assumption
  · split
    · refine State.onBay_keep k.sub ?_
      assumption
    · refine State.excStart_keep k.sub ?_
      assumption

theorem bodyBayExcitation_keep {P : State → Prop} (k : Keeps [.arr (AFE_BAY_SWEEP 0) 16 64, .arr (AFE_BAY_EXC 0) 16 64, .arr (AFE_BAY_MON 0) 16 64, .acq] P) {a1 : _} {a2 : _} {s3 : State} (h3 : P s3) : (bodyBayExcitation a1 a2 s3).Holds P := by
  unfold bodyBayExcitation
  extract_lets +onlyGivenNames x0
  extract_lets +onlyGivenNames x1
  extract_lets +onlyGivenNames x2
  refine checked_keep ?_ ?_
  · assumption
  · show P _
    refine State.setExc_keep k.sub ?_
    assumption

theorem State.armEntry_keep {P : State → Prop} (k : Keeps [.arr (TB_ACT_TIME 0) 32 32, .arr (TB_ACT_TIME 0 + 4) 32 32, .arr (TB_ACT_ARG 0) 32 32, .arr (TB_ACT_CTRL 0) 32 32, .tb] P) {s1 : State} {a2 : _} {a3 : _} {a4 : _} {a5 : _} (h1 : P s1) : P (State.armEntry s1 a2 a3 a4 a5) := by
  unfold State.armEntry
  extract_lets +onlyGivenNames x0
  have e1 : P x0 := by
    unfold x0
    refine wr64_keep k (TB_ACT_TIME 0) 32 32 ⟨_, rfl⟩ ?_
    refine (k.at (.arr (TB_ACT_ARG 0) 32 32)) _ _ _ ⟨_, rfl⟩ ?_
    refine (k.at (.arr (TB_ACT_CTRL 0) 32 32)) _ _ _ ⟨_, rfl⟩ ?_
    assumption
  clear_value x0
  refine State.onAct_keep k.sub ?_
  assumption

theorem bodyChTestInject_keep {P : State → Prop} (k : Keeps [.acq, .arr (TB_ACT_TIME 0) 32 32, .arr (TB_ACT_TIME 0 + 4) 32 32, .arr (TB_ACT_ARG 0) 32 32, .arr (TB_ACT_CTRL 0) 32 32, .tb] P) {a1 : _} {a2 : _} {s3 : State} (h3 : P s3) : (bodyChTestInject a1 a2 s3).Holds P := by
  unfold bodyChTestInject
  extract_lets +onlyGivenNames x0
  extract_lets +onlyGivenNames x1
  extract_lets +onlyGivenNames x2
  extract_lets +onlyGivenNames x3
  extract_lets +onlyGivenNames x4
  extract_lets +onlyGivenNames x5
  extract_lets +onlyGivenNames x6
  refine checked_keep ?_ ?_
  · assumption
  · split
    · show P _
      refine State.doInject_keep k.sub ?_
      assumption
    · extract_lets +onlyGivenNames x7
      show P _
      refine State.armEntry_keep k.sub ?_
      assumption

theorem State.clampRead_keep {P : State → Prop} (k : Keeps [.arr (AFE_CLAMP_SEEN 0) 4 16, .arr (AFE_CH_STAT 0) 16 512] P) {s1 : State} {a2 : _} {a3 : _} (h1 : P s1) : P (State.clampRead s1 a2 a3).1 := by
  unfold State.clampRead
  extract_lets +onlyGivenNames x0
  extract_lets +onlyGivenNames x1
  extract_lets +onlyGivenNames x2
  extract_lets +onlyGivenNames x3
  extract_lets +onlyGivenNames x4
  extract_lets +onlyGivenNames x5
  dsimp -zeta only
  split
  · refine setFld_keep k (AFE_CLAMP_SEEN 0) 4 16 ⟨_, rfl⟩ ?_
    unfold x2
    unfold State.takeRc
    extract_lets +onlyGivenNames x6
    dsimp -zeta only
    refine setFld_keep k (AFE_CH_STAT 0) 16 512 ⟨_, rfl⟩ ?_
    assumption
  · assumption

theorem bodyClampStatus_keep {P : State → Prop} (k : Keeps [.arr (AFE_CLAMP_SEEN 0) 4 16, .arr (AFE_CH_STAT 0) 16 512] P) {a1 : _} {a2 : _} {s3 : State} (h3 : P s3) : (bodyClampStatus a1 a2 s3).Holds P := by
  unfold bodyClampStatus
  extract_lets +onlyGivenNames x0
  extract_lets +onlyGivenNames x1
  extract_lets +onlyGivenNames x2
  refine checked_keep ?_ ?_
  · assumption
  · extract_lets +onlyGivenNames x3
    show P _
    unfold x3
    refine foldl_keep_on (fun z : State × List Byte => z.1) (fun b4 x5 e6 => ?_) ?_
    · extract_lets +onlyGivenNames x7
      refine State.clampRead_keep k.sub ?_
      assumption
    · assumption

theorem State.loopCheck_keep {P : State → Prop} (k : Keeps [.acq, .qm, .log, .mend, .arr (AFE_CH_STAT 0) 16 512, .arr CMP_ERR 0 1, .fresh, .cap, .arr (AFE_WIRE_BREAK 0) 4 16] P) {s1 : State} {a2 : _} {a3 : _} (h1 : P s1) : P (State.loopCheck s1 a2 a3).2 := by
  unfold State.loopCheck
  extract_lets +onlyGivenNames x0
  extract_lets +onlyGivenNames x1
  extract_lets +onlyGivenNames x2
  have e3 : P x2 := by
    unfold x2
    refine State.onCh_keep k.sub ?_
    assumption
  clear_value x2
  extract_lets +onlyGivenNames x4
  dsimp -zeta only
  split
  · assumption
  · split
    · refine State.wirePass_keep k.sub ?_
      assumption
    · refine State.wireBreak_keep k.sub ?_
      assumption

theorem State.loopChecks_keep {P : State → Prop} (k : Keeps [.acq, .qm, .log, .mend, .arr (AFE_CH_STAT 0) 16 512, .arr CMP_ERR 0 1, .fresh, .cap, .arr (AFE_WIRE_BREAK 0) 4 16] P) {s1 : State} {a2 : _} {a3 : _} (h1 : P s1) : P (State.loopChecks s1 a2 a3).2 := by
  unfold State.loopChecks
  refine foldl_keep_on (fun z : Tab Nat × State => z.2) (fun b0 x1 e2 => ?_) ?_
  · split
    · assumption
    · extract_lets +onlyGivenNames x3
      refine State.loopCheck_keep k.sub ?_
      assumption
  · assumption

theorem bodyFreqMeasure_keep {P : State → Prop} (k : Keeps [.tiu, .arr (TIU_SRC_CFG 0) 4 64, .acq, .qm, .log, .mend, .arr (AFE_CH_STAT 0) 16 512, .arr CMP_ERR 0 1, .fresh, .cap, .arr (AFE_WIRE_BREAK 0) 4 16] P) {a1 : _} {a2 : _} {a3 : _} {s4 : State} (h4 : P s4) : (bodyFreqMeasure a1 a2 a3 s4).Holds P := by
  unfold bodyFreqMeasure
  extract_lets +onlyGivenNames x0
  extract_lets +onlyGivenNames x1
  extract_lets +onlyGivenNames x2
  extract_lets +onlyGivenNames x3
  extract_lets +onlyGivenNames x4
  extract_lets +onlyGivenNames x5
  extract_lets +onlyGivenNames x6
  extract_lets +onlyGivenNames x7
  extract_lets +onlyGivenNames x8
  refine checked_keep ?_ ?_
  · assumption
  · extract_lets +onlyGivenNames x9
    extract_lets +onlyGivenNames x10
    extract_lets +onlyGivenNames x11
    show P _
    refine (k.at .tiu) _ _ ?_
    unfold x10
    refine foldl_keep_on (fun z : State × List GateCh => z.1) (fun b12 x13 e14 => ?_) ?_
    · extract_lets +onlyGivenNames x15
      dsimp -zeta only
      refine State.setSource_keep k.sub ?_
      assumption
    · unfold x9
      dsimp -zeta only
      split
      · refine State.loopChecks_keep k.sub ?_
        assumption
      · assumption

theorem State.gateClose_keep {P : State → Prop} (k : Keeps [.tiu, .arr (TIU_SRC_CFG 0) 4 64, .mend, .qm, .cmd, .arr CMD_CACHE 0 1, .fresh] P) {s1 : State} {a2 : _} (h1 : P s1) : P (State.gateClose s1 a2) := by
  unfold State.gateClose
  split
  · assumption
  · split
    · assumption
    · split
      · assumption
      · extract_lets +onlyGivenNames x0
        extract_lets +onlyGivenNames x1
        extract_lets +onlyGivenNames x2
        have e3 : P x2 := by
          unfold x2
          refine State.dropGate_keep k.sub ?_
          assumption
        clear_value x2
        extract_lets +onlyGivenNames x4
        extract_lets +onlyGivenNames x5
        have e6 : P x5 := by
          unfold x5
          split
          · refine foldl_keep (fun t7 x8 e9 => ?_) ?_
            · refine State.addSeqRec_keep k.sub ?_
              assumption
            · assumption
          · assumption
        clear_value x5
        refine State.report_keep k.sub ?_
        assumption

theorem execFreqGateClose_keep {P : State → Prop} (k : Keeps [.mend, .qm, .arr CMP_ERR 0 1, .fresh, .log, .guard, .red, .arr RED_MIRROR 0 1, .time, .free, .tiu, .arr (TIU_SRC_CFG 0) 4 64, .cmd, .arr CMD_CACHE 0 1] P) {a1 : _} {a2 : _} {s3 : State} (h3 : P s3) : ∀ u, execFreqGateClose a1 a2 s3 = .next u → P u := by
  unfold execFreqGateClose
  refine event_keep k.sub ?_ ?_
  · assumption
  · intro y0
    intro y1
    refine State.gateClose_keep k.sub ?_
    assumption

theorem State.gateOpen_keep {P : State → Prop} (k : Keeps [.arr (TIU_SRC_CFG 0) 4 64, .arr (AFE_BAY_MON 0) 16 64, .tiu] P) {s1 : State} {a2 : _} (h1 : P s1) : P (State.gateOpen s1 a2) := by
  unfold State.gateOpen
  split
  · assumption
  · split
    · assumption
    · extract_lets +onlyGivenNames x0
      extract_lets +onlyGivenNames x1
      have e2 : P x1 := by
        unfold x1
        refine foldl_keep (fun t3 x4 e5 => ?_) ?_
        · refine setFld_keep k (TIU_SRC_CFG 0) 4 64 ⟨_, rfl⟩ ?_
          refine setFld_keep k (TIU_SRC_CFG 0) 4 64 ⟨_, rfl⟩ ?_
          assumption
        · assumption
      clear_value x1
      extract_lets +onlyGivenNames x6
      have e7 : P x6 := by
        unfold x6
        split
        · refine setFld_keep k (AFE_BAY_MON 0) 16 64 ⟨_, rfl⟩ ?_
          assumption
        · assumption
      clear_value x6
      extract_lets +onlyGivenNames x8
      extract_lets +onlyGivenNames x9
      refine (k.at .tiu) _ _ ?_
      assumption

theorem execFreqGateOpen_keep {P : State → Prop} (k : Keeps [.mend, .qm, .arr CMP_ERR 0 1, .fresh, .log, .guard, .red, .arr RED_MIRROR 0 1, .time, .free, .arr (TIU_SRC_CFG 0) 4 64, .arr (AFE_BAY_MON 0) 16 64, .tiu] P) {a1 : _} {a2 : _} {s3 : State} (h3 : P s3) : ∀ u, execFreqGateOpen a1 a2 s3 = .next u → P u := by
  unfold execFreqGateOpen
  refine event_keep k.sub ?_ ?_
  · assumption
  · intro y0
    intro y1
    refine State.gateOpen_keep k.sub ?_
    assumption

end Sys2Proof.Machine
end

