-- ==== Sys2Proof/Laws/KeepE.lean ====
section
/-!
SUPPORT. What the operations of Machine/Fld, Decim, Trim may touch: one lemma per function (Laws/Keep.lean).
-/

namespace Sys2Proof.Machine

set_option Elab.async false

open Reg Bits

theorem State.frameError_keep {P : State → Prop} (k : Keeps [.qm, .log, .mend, .arr (FLD_PORT_STAT 0) 64 4, .fresh] P) {s1 : State} {a2 : _} {a3 : _} (h1 : P s1) : P (State.frameError s1 a2 a3) := by
  unfold State.frameError
  refine State.issueLim_keep k.sub ?_
  refine bump_keep k (FLD_PORT_STAT 0) 64 4 ⟨_, rfl⟩ ?_
  assumption

theorem State.evalTrip_keep {P : State → Prop} (k : Keeps [.arr (FLD_TRIP_STAT 0) 32 16, .fblk, .fresh, .qm, .log, .mend] P) {s1 : State} {a2 : _} {a3 : _} (h1 : P s1) : P (State.evalTrip s1 a2 a3) := by
  unfold State.evalTrip
  extract_lets +onlyGivenNames x0
  split
  · assumption
  · extract_lets +onlyGivenNames x1
    have e2 : P x1 := by
      unfold x1
      refine setFld_keep k (FLD_TRIP_STAT 0) 32 16 ⟨_, rfl⟩ ?_
      refine setFld_keep k (FLD_TRIP_STAT 0) 32 16 ⟨_, rfl⟩ ?_
      assumption
    clear_value x1
    extract_lets +onlyGivenNames x3
    have e4 : P x3 := by
      unfold x3
      refine State.onTrip_keep k.sub ?_
      refine bump_keep k (FLD_TRIP_STAT 0) 32 16 ⟨_, rfl⟩ ?_
      assumption
    clear_value x3
    extract_lets +onlyGivenNames x5
    have e6 : P x5 := by
      unfold x5
      split
      · assumption
      · split
        · refine setFld_keep k (FLD_TRIP_STAT 0) 32 16 ⟨_, rfl⟩ ?_
          assumption
        · assumption
    clear_value x5
    refine State.issueLim_keep k.sub ?_
    assumption

theorem State.tripValue_keep {P : State → Prop} (k : Keeps [.fblk, .arr (FLD_TRIP_STAT 0) 32 16, .fresh, .qm, .log, .mend] P) {s1 : State} {a2 : _} {a3 : _} {a4 : _} (h1 : P s1) : P (State.tripValue s1 a2 a3 a4) := by
  unfold State.tripValue
  extract_lets +onlyGivenNames x0
  extract_lets +onlyGivenNames x1
  extract_lets +onlyGivenNames x2
  extract_lets +onlyGivenNames x3
  extract_lets +onlyGivenNames x4
  extract_lets +onlyGivenNames x5
  extract_lets +onlyGivenNames x6
  have e7 : P x6 := by
    unfold x6
    refine State.onTrip_keep k.sub ?_
    assumption
  clear_value x6
  extract_lets +onlyGivenNames x8
  have e9 : P x8 := by
    unfold x8
    split
    · refine setFld_keep k (FLD_TRIP_STAT 0) 32 16 ⟨_, rfl⟩ ?_
      assumption
    · assumption
  clear_value x8
  split
  · refine State.evalTrip_keep k.sub ?_
    refine setFld_keep k (FLD_TRIP_STAT 0) 32 16 ⟨_, rfl⟩ ?_
    assumption
  · refine State.evalTrip_keep k.sub ?_
    assumption

theorem State.runFout_keep {P : State → Prop} (k : Keeps [.fblk] P) {s1 : State} {a2 : _} (h1 : P s1) : P (State.runFout s1 a2) := by
  unfold State.runFout
  refine State.onFout_keep k.sub ?_
  assumption

theorem State.foutValue_keep {P : State → Prop} (k : Keeps [.fblk] P) {s1 : State} {a2 : _} {a3 : _} (h1 : P s1) : P (State.foutValue s1 a2 a3) := by
  unfold State.foutValue
  refine State.runFout_keep k.sub ?_
  refine State.onFout_keep k.sub ?_
  refine State.runFout_keep k.sub ?_
  assumption

theorem State.setupFout_keep {P : State → Prop} (k : Keeps [.fblk] P) {s1 : State} {a2 : _} {a3 : _} (h1 : P s1) : P (State.setupFout s1 a2 a3) := by
  unfold State.setupFout
  refine State.runFout_keep k.sub ?_
  refine State.onFout_keep k.sub ?_
  assumption

theorem State.feedOutputs_keep {P : State → Prop} (k : Keeps [.fblk, .arr (FLD_TRIP_STAT 0) 32 16, .fresh, .qm, .log, .mend] P) {s1 : State} {a2 : _} {a3 : _} {a4 : _} {a5 : _} (h1 : P s1) : P (State.feedOutputs s1 a2 a3 a4 a5) := by
  unfold State.feedOutputs
  split
  · assumption
  · extract_lets +onlyGivenNames x0
    have e1 : P x0 := by
      unfold x0
      refine foldl_keep (fun t2 x3 e4 => ?_) ?_
      · split
        · refine State.onTrip_keep k.sub ?_
          assumption
        · refine State.tripValue_keep k.sub ?_
          assumption
      · assumption
    clear_value x0
    refine foldl_keep (fun t5 x6 e7 => ?_) ?_
    · refine State.foutValue_keep k.sub ?_
      assumption
    · assumption

theorem State.feedDetOutputs_keep {P : State → Prop} (k : Keeps [.fblk, .arr (FLD_TRIP_STAT 0) 32 16, .fresh, .qm, .log, .mend] P) {s1 : State} {a2 : _} {a3 : _} {a4 : _} {a5 : _} (h1 : P s1) : P (State.feedDetOutputs s1 a2 a3 a4 a5) := by
  unfold State.feedDetOutputs
  split
  · refine foldl_keep (fun t0 x1 e2 => ?_) ?_
    · refine State.onTrip_keep k.sub ?_
      assumption
    · assumption
  · refine State.feedOutputs_keep k.sub ?_
    assumption

theorem State.setupTrip_keep {P : State → Prop} (k : Keeps [.fblk, .arr (FLD_TRIP_STAT 0) 32 16, .fresh, .qm, .log, .mend] P) {s1 : State} {a2 : _} {a3 : _} (h1 : P s1) : P (State.setupTrip s1 a2 a3) := by
  unfold State.setupTrip
  extract_lets +onlyGivenNames x0
  have e1 : P x0 := by
    unfold x0
    refine State.onTrip_keep k.sub ?_
    refine setFld_keep k (FLD_TRIP_STAT 0) 32 16 ⟨_, rfl⟩ ?_
    assumption
  clear_value x0
  refine State.evalTrip_keep k.sub ?_
  assumption

theorem State.tripsPower_keep {P : State → Prop} (k : Keeps [.fblk, .arr (FLD_TRIP_STAT 0) 32 16, .fresh, .qm, .log, .mend] P) {s1 : State} (h1 : P s1) : P (State.tripsPower s1) := by
  unfold State.tripsPower
  refine foldl_keep (fun t0 x1 e2 => ?_) ?_
  · refine State.setupFout_keep k.sub ?_
    assumption
  · refine foldl_keep (fun t3 x4 e5 => ?_) ?_
    · refine State.setupTrip_keep k.sub ?_
      assumption
    · assumption

theorem State.tripStale_keep {P : State → Prop} (k : Keeps [.arr (FLD_TRIP_STAT 0) 32 16, .fblk, .fresh, .qm, .log, .mend] P) {s1 : State} {a2 : _} (h1 : P s1) : P (State.tripStale s1 a2) := by
  unfold State.tripStale
  extract_lets +onlyGivenNames x0
  split
  · assumption
  · refine State.evalTrip_keep k.sub ?_
    refine State.onTrip_keep k.sub ?_
    assumption

theorem execTripStale_keep {P : State → Prop} (k : Keeps [.mend, .qm, .arr CMP_ERR 0 1, .fresh, .log, .guard, .red, .arr RED_MIRROR 0 1, .time, .free, .arr (FLD_TRIP_STAT 0) 32 16, .fblk] P) {a1 : _} {a2 : _} {s3 : State} (h3 : P s3) : ∀ u, execTripStale a1 a2 s3 = .next u → P u := by
  unfold execTripStale
  refine event_keep k.sub ?_ ?_
  · assumption
  · intro y0
    intro y1
    refine State.tripStale_keep k.sub ?_
    assumption

theorem State.tripMinOn_keep {P : State → Prop} (k : Keeps [.fblk, .arr (FLD_TRIP_STAT 0) 32 16, .fresh, .qm, .log, .mend] P) {s1 : State} {a2 : _} (h1 : P s1) : P (State.tripMinOn s1 a2) := by
  unfold State.tripMinOn
  extract_lets +onlyGivenNames x0
  split
  · assumption
  · split
    · extract_lets +onlyGivenNames x1
      have e2 : P x1 := by
        unfold x1
        refine State.onTrip_keep k.sub ?_
        assumption
      clear_value x1
      split
      · refine State.evalTrip_keep k.sub ?_
        refine setFld_keep k (FLD_TRIP_STAT 0) 32 16 ⟨_, rfl⟩ ?_
        assumption
      · assumption
    · refine State.evalTrip_keep k.sub ?_
      assumption

theorem execTripMinOnExpiry_keep {P : State → Prop} (k : Keeps [.mend, .qm, .arr CMP_ERR 0 1, .fresh, .log, .guard, .red, .arr RED_MIRROR 0 1, .time, .free, .fblk, .arr (FLD_TRIP_STAT 0) 32 16] P) {a1 : _} {a2 : _} {s3 : State} (h3 : P s3) : ∀ u, execTripMinOnExpiry a1 a2 s3 = .next u → P u := by
  unfold execTripMinOnExpiry
  refine event_keep k.sub ?_ ?_
  · assumption
  · intro y0
    intro y1
    refine State.tripMinOn_keep k.sub ?_
    assumption

theorem bodyTripConfig_keep {P : State → Prop} (k : Keeps [.fblk, .arr (FLD_TRIP_STAT 0) 32 16, .fresh, .qm, .log, .mend, .arr (FLD_TRIP_TIME 0) 32 16, .arr (FLD_TRIP_SILL 0) 32 16, .arr (FLD_TRIP_LINTEL 0) 32 16, .arr (FLD_TRIP_CFG 0) 32 16] P) {a1 : _} {a2 : _} {s3 : State} (h3 : P s3) : (bodyTripConfig a1 a2 s3).Holds P := by
  unfold bodyTripConfig
  extract_lets +onlyGivenNames x0
  extract_lets +onlyGivenNames x1
  refine checked_keep ?_ ?_
  · assumption
  · show P _
    refine State.setupTrip_keep k.sub ?_
    refine (k.at (.arr (FLD_TRIP_TIME 0) 32 16)) _ _ _ ⟨_, rfl⟩ ?_
    refine (k.at (.arr (FLD_TRIP_SILL 0) 32 16)) _ _ _ ⟨_, rfl⟩ ?_
    refine (k.at (.arr (FLD_TRIP_LINTEL 0) 32 16)) _ _ _ ⟨_, rfl⟩ ?_
    refine (k.at (.arr (FLD_TRIP_CFG 0) 32 16)) _ _ _ ⟨_, rfl⟩ ?_
    assumption

theorem State.resetTrip_keep {P : State → Prop} (k : Keeps [.fblk, .arr (FLD_TRIP_STAT 0) 32 16, .fresh, .qm, .log, .mend] P) {s1 : State} {a2 : _} (h1 : P s1) : P (State.resetTrip s1 a2).2 := by
  unfold State.resetTrip
  split
  · assumption
  · split
    · dsimp -zeta only
      refine State.onTrip_keep k.sub ?_
      assumption
    · split
      · dsimp -zeta only
        refine State.evalTrip_keep k.sub ?_
        refine setFld_keep k (FLD_TRIP_STAT 0) 32 16 ⟨_, rfl⟩ ?_
        assumption
      · dsimp -zeta only
        refine State.onTrip_keep k.sub ?_
        assumption

theorem bodyTripReset_keep {P : State → Prop} (k : Keeps [.fblk, .arr (FLD_TRIP_STAT 0) 32 16, .fresh, .qm, .log, .mend] P) {a1 : _} {a2 : _} {s3 : State} (h3 : P s3) : (bodyTripReset a1 a2 s3).Holds P := by
  unfold bodyTripReset
  extract_lets +onlyGivenNames x0
  refine checked_keep ?_ ?_
  · assumption
  · extract_lets +onlyGivenNames x1
    extract_lets +onlyGivenNames x2
    extract_lets +onlyGivenNames x3
    show P _
    unfold x2
    refine foldl_keep_on (fun z : Nat × State => z.2) (fun b4 x5 e6 => ?_) ?_
    · extract_lets +onlyGivenNames x7
      refine State.resetTrip_keep k.sub ?_
      assumption
    · assumption

theorem State.lockTrips_keep {P : State → Prop} (k : Keeps [.arr FLD_CTRL 0 1] P) {s1 : State} (h1 : P s1) : P (State.lockTrips s1) := by
  unfold State.lockTrips
  refine setFld_keep k FLD_CTRL 0 1 ⟨0, rfl⟩ ?_
  assumption

theorem execTripLock_keep {P : State → Prop} (k : Keeps [.mend, .qm, .arr CMP_ERR 0 1, .fresh, .log, .guard, .red, .arr RED_MIRROR 0 1, .time, .free, .arr FLD_CTRL 0 1] P) {a1 : _} {s2 : State} (h2 : P s2) : ∀ u, execTripLock a1 s2 = .next u → P u := by
  unfold execTripLock
  refine event_keep k.sub ?_ ?_
  · assumption
  · intro y0
    intro y1
    refine State.lockTrips_keep k.sub ?_
    assumption

theorem bodyFoutConfig_keep {P : State → Prop} (k : Keeps [.fblk, .arr (FLD_FOUT_RANGE 0) 32 8, .arr (FLD_FOUT_VHI 0) 32 8, .arr (FLD_FOUT_VLO 0) 32 8, .arr (FLD_FOUT_CFG 0) 32 8] P) {a1 : _} {a2 : _} {s3 : State} (h3 : P s3) : (bodyFoutConfig a1 a2 s3).Holds P := by
  unfold bodyFoutConfig
  extract_lets +onlyGivenNames x0
  extract_lets +onlyGivenNames x1
  refine checked_keep ?_ ?_
  · assumption
  · show P _
    refine State.setupFout_keep k.sub ?_
    refine (k.at (.arr (FLD_FOUT_RANGE 0) 32 8)) _ _ _ ⟨_, rfl⟩ ?_
    refine (k.at (.arr (FLD_FOUT_VHI 0) 32 8)) _ _ _ ⟨_, rfl⟩ ?_
    refine (k.at (.arr (FLD_FOUT_VLO 0) 32 8)) _ _ _ ⟨_, rfl⟩ ?_
    refine (k.at (.arr (FLD_FOUT_CFG 0) 32 8)) _ _ _ ⟨_, rfl⟩ ?_
    assumption

theorem State.fieldPoll_keep {P : State → Prop} (k : Keeps [.fblk, .qm, .log, .mend, .arr (FLD_PORT_STAT 0) 64 4, .fresh] P) {s1 : State} {a2 : _} (h1 : P s1) : P (State.fieldPoll s1 a2) := by
  unfold State.fieldPoll
  extract_lets +onlyGivenNames x0
  extract_lets +onlyGivenNames x1
  extract_lets +onlyGivenNames x2
  extract_lets +onlyGivenNames x3
  split
  · assumption
  · extract_lets +onlyGivenNames x4
    extract_lets +onlyGivenNames x5
    have e6 : P x5 := by
      unfold x5
      refine State.onFport_keep k.sub ?_
      assumption
    clear_value x5
    split
    · refine State.frameError_keep k.sub ?_
      assumption
    · extract_lets +onlyGivenNames x7
      refine State.onFport_keep k.sub ?_
      assumption

theorem execFieldPortPoll_keep {P : State → Prop} (k : Keeps [.mend, .qm, .arr CMP_ERR 0 1, .fresh, .log, .guard, .red, .arr RED_MIRROR 0 1, .time, .free, .fblk, .arr (FLD_PORT_STAT 0) 64 4] P) {a1 : _} {a2 : _} {s3 : State} (h3 : P s3) : ∀ u, execFieldPortPoll a1 a2 s3 = .next u → P u := by
  unfold execFieldPortPoll
  refine event_keep k.sub ?_ ?_
  · assumption
  · intro y0
    intro y1
    refine State.fieldPoll_keep k.sub ?_
    assumption

theorem State.setDecoder_keep {P : State → Prop} (k : Keeps [.fblk] P) {s1 : State} {a2 : _} {a3 : State → State} (h1 : P s1) (h3 : ∀ s, P s → P (a3 s)) : P (State.setDecoder s1 a2 a3) := by
  unfold State.setDecoder
  extract_lets +onlyGivenNames x0
  refine State.onDec_keep k.sub ?_
  refine h3 _ ?_
  assumption

theorem State.decodeFrame_keep {P : State → Prop} (k : Keeps [.acq, .qm, .log, .mend, .arr CMP_ERR 0 1, .fresh, .fblk, .arr (CAP_TRIG_STAT 0) 32 32, .arr (CAP_ENG_CNT 0) 64 16, .cap, .arr (CAP_ENG_STAT 0) 64 16, .cmd, .arr (FLD_TRIP_STAT 0) 32 16] P) {s1 : State} {a2 : _} {a3 : _} {a4 : _} (h1 : P s1) : P (State.decodeFrame s1 a2 a3 a4) := by
  unfold State.decodeFrame
  extract_lets +onlyGivenNames x0
  extract_lets +onlyGivenNames x1
  split
  · assumption
  · extract_lets +onlyGivenNames x2
    extract_lets +onlyGivenNames x3
    have e4 : P x3 := by
      unfold x3
      refine State.auxSample_keep k.sub ?_
      refine State.onDec_keep k.sub ?_
      assumption
    clear_value x3
    extract_lets +onlyGivenNames x5
    have e6 : P x5 := by
      unfold x5
      split
      · refine foldl_keep (fun t7 x8 e9 => ?_) ?_
        · refine State.fireOwn_keep k.sub ?_
          assumption
        · assumption
      · assumption
    clear_value x5
    refine State.feedOutputs_keep k.sub ?_
    assumption

theorem State.frameIn_keep {P : State → Prop} (k : Keeps [.fblk, .qm, .log, .mend, .arr (FLD_PORT_STAT 0) 64 4, .fresh, .acq, .arr CMP_ERR 0 1, .arr (CAP_TRIG_STAT 0) 32 32, .arr (CAP_ENG_CNT 0) 64 16, .cap, .arr (CAP_ENG_STAT 0) 64 16, .cmd, .arr (FLD_TRIP_STAT 0) 32 16] P) {s1 : State} {a2 : _} {a3 : _} {a4 : _} (h1 : P s1) : P (State.frameIn s1 a2 a3 a4) := by
  unfold State.frameIn
  split
  · assumption
  · split
    · assumption
    · extract_lets +onlyGivenNames x0
      have e1 : P x0 := by
        unfold x0
        refine State.onFport_keep k.sub ?_
        assumption
      clear_value x0
      split
      · assumption
      · split
        · refine State.frameError_keep k.sub ?_
          assumption
        · split
          · refine State.frameError_keep k.sub ?_
            assumption
          · extract_lets +onlyGivenNames x2
            split
            · refine State.frameError_keep k.sub ?_
              assumption
            · extract_lets +onlyGivenNames x3
              extract_lets +onlyGivenNames x4
              have e5 : P x4 := by
                unfold x4
                refine State.pmc_keep k.sub ?_
                refine bump_keep k (FLD_PORT_STAT 0) 64 4 ⟨_, rfl⟩ ?_
                assumption
              clear_value x4
              refine foldl_keep (fun t6 x7 e8 => ?_) ?_
              · refine State.decodeFrame_keep k.sub ?_
                assumption
              · assumption

theorem execFrameReceived_keep {P : State → Prop} (k : Keeps [.mend, .qm, .arr CMP_ERR 0 1, .fresh, .log, .guard, .red, .arr RED_MIRROR 0 1, .time, .free, .fblk, .arr (FLD_PORT_STAT 0) 64 4, .acq, .arr (CAP_TRIG_STAT 0) 32 32, .arr (CAP_ENG_CNT 0) 64 16, .cap, .arr (CAP_ENG_STAT 0) 64 16, .cmd, .arr (FLD_TRIP_STAT 0) 32 16] P) {a1 : _} {a2 : _} {a3 : _} {a4 : _} {s5 : State} (h5 : P s5) : ∀ u, execFrameReceived a1 a2 a3 a4 s5 = .next u → P u := by
  unfold execFrameReceived
  refine event_keep k.sub ?_ ?_
  · assumption
  · intro y0
    intro y1
    refine State.frameIn_keep k.sub ?_
    assumption

theorem State.setupPort_keep {P : State → Prop} (k : Keeps [.fblk, .arr (TIU_SRC_CFG 0) 4 64] P) {s1 : State} {a2 : _} (h1 : P s1) : P (State.setupPort s1 a2) := by
  unfold State.setupPort
  extract_lets +onlyGivenNames x0
  extract_lets +onlyGivenNames x1
  have e2 : P x1 := by
    unfold x1
    refine State.onFport_keep k.sub ?_
    assumption
  clear_value x1
  extract_lets +onlyGivenNames x3
  split
  · refine State.setSource_keep k.sub ?_
    assumption
  · split
    · refine State.freeSource_keep k.sub ?_
      assumption
    · assumption

theorem bodyFieldPortConfig_keep {P : State → Prop} (k : Keeps [.fblk, .arr (TIU_SRC_CFG 0) 4 64, .arr (FLD_PORT_TX 0) 64 4, .arr (FLD_PORT_TIMING 0) 64 4, .arr (FLD_PORT_CFG 0) 64 4] P) {a1 : _} {a2 : _} {s3 : State} (h3 : P s3) : (bodyFieldPortConfig a1 a2 s3).Holds P := by
  unfold bodyFieldPortConfig
  extract_lets +onlyGivenNames x0
  extract_lets +onlyGivenNames x1
  extract_lets +onlyGivenNames x2
  refine checked_keep ?_ ?_
  · assumption
  · show P _
    refine State.setupPort_keep k.sub ?_
    refine (k.at (.arr (FLD_PORT_TX 0) 64 4)) _ _ _ ⟨_, rfl⟩ ?_
    refine (k.at (.arr (FLD_PORT_TIMING 0) 64 4)) _ _ _ ⟨_, rfl⟩ ?_
    refine (k.at (.arr (FLD_PORT_CFG 0) 64 4)) _ _ _ ⟨_, rfl⟩ ?_
    assumption

theorem bodyFieldDecoderConfig_keep {P : State → Prop} (k : Keeps [.fblk, .arr (FLD_DEC_SILL 0) 32 64, .arr (FLD_DEC_LINTEL 0) 32 64, .arr (FLD_DEC_MASK 0) 32 64, .arr (FLD_DEC_MATCH 0) 32 64, .arr (FLD_DEC_CFG 0) 32 64] P) {a1 : _} {a2 : _} {s3 : State} (h3 : P s3) : (bodyFieldDecoderConfig a1 a2 s3).Holds P := by
  unfold bodyFieldDecoderConfig
  extract_lets +onlyGivenNames x0
  extract_lets +onlyGivenNames x1
  extract_lets +onlyGivenNames x2
  refine checked_keep ?_ ?_
  · assumption
  · show P _
    refine State.setDecoder_keep k.sub ?_ ?_
    · assumption
    · intro y3
      intro y4
      refine (k.at (.arr (FLD_DEC_SILL 0) 32 64)) _ _ _ ⟨_, rfl⟩ ?_
      refine (k.at (.arr (FLD_DEC_LINTEL 0) 32 64)) _ _ _ ⟨_, rfl⟩ ?_
      refine (k.at (.arr (FLD_DEC_MASK 0) 32 64)) _ _ _ ⟨_, rfl⟩ ?_
      refine (k.at (.arr (FLD_DEC_MATCH 0) 32 64)) _ _ _ ⟨_, rfl⟩ ?_
      refine (k.at (.arr (FLD_DEC_CFG 0) 32 64)) _ _ _ ⟨_, rfl⟩ ?_
      assumption

theorem State.detSample_keep {P : State → Prop} (k : Keeps [.acq, .arr (DEC_DET_VAL 0) 8 512, .fblk, .arr (FLD_TRIP_STAT 0) 32 16, .fresh, .qm, .log, .mend] P) {s1 : State} {a2 : _} {a3 : _} {a4 : _} {a5 : _} (h1 : P s1) : P (State.detSample s1 a2 a3 a4 a5).2 := by
  unfold State.detSample
  extract_lets +onlyGivenNames x0
  extract_lets +onlyGivenNames x1
  extract_lets +onlyGivenNames x2
  extract_lets +onlyGivenNames x3
  extract_lets +onlyGivenNames x4
  extract_lets +onlyGivenNames x5
  extract_lets +onlyGivenNames x6
  extract_lets +onlyGivenNames x7
  extract_lets +onlyGivenNames x8
  extract_lets +onlyGivenNames x9
  extract_lets +onlyGivenNames x10
  extract_lets +onlyGivenNames x11
  extract_lets +onlyGivenNames x12
  extract_lets +onlyGivenNames x13
  extract_lets +onlyGivenNames x14
  extract_lets +onlyGivenNames x15
  extract_lets +onlyGivenNames x16
  extract_lets +onlyGivenNames x17
  have e18 : P x17 := by
    unfold x17
    refine State.onDet_keep k.sub ?_
    assumption
  clear_value x17
  extract_lets +onlyGivenNames x19
  have e20 : P x19 := by
    unfold x19
    refine setFld_keep k (DEC_DET_VAL 0) 8 512 ⟨_, rfl⟩ ?_
    refine setFld_keep k (DEC_DET_VAL 0) 8 512 ⟨_, rfl⟩ ?_
    assumption
  clear_value x19
  dsimp -zeta only
  refine State.feedDetOutputs_keep k.sub ?_
  assumption

theorem State.feedSignal_keep {P : State → Prop} (k : Keeps [.cap, .log, .qm, .mend, .arr (CAP_TRIG_STAT 0) 32 32, .fresh, .arr (CAP_ENG_CNT 0) 64 16, .arr (CAP_ENG_STAT 0) 64 16, .acq, .arr CMP_ERR 0 1, .cmd, .arr (DEC_DET_VAL 0) 8 512, .fblk, .arr (FLD_TRIP_STAT 0) 32 16] P) {s1 : State} {a2 : _} {a3 : _} {a4 : _} {a5 : _} {a6 : _} (h1 : P s1) : P (State.feedSignal s1 a2 a3 a4 a5 a6) := by
  unfold State.feedSignal
  extract_lets +onlyGivenNames x0
  extract_lets +onlyGivenNames x1
  extract_lets +onlyGivenNames x2
  extract_lets +onlyGivenNames x3
  have e4 : P x3 := by
    unfold x3
    refine State.feedUnits_keep k.sub ?_
    unfold x1
    split
    · refine State.detSample_keep k.sub ?_
      assumption
    · assumption
  clear_value x3
  split
  · assumption
  · refine State.feedOutputs_keep k.sub ?_
    assumption

theorem State.overloadAt_keep {P : State → Prop} (k : Keeps [.acq] P) {s1 : State} {a2 : _} {a3 : _} {a4 : _} (h1 : P s1) : P (State.overloadAt s1 a2 a3 a4) := by
  unfold State.overloadAt
  refine State.onCh_keep k.sub ?_
  assumption

theorem State.autoRange_keep {P : State → Prop} (k : Keeps [.acq, .arr (AFE_CH_STAT 0) 16 512, .qm, .log, .mend] P) {s1 : State} {a2 : _} {a3 : _} {a4 : _} {a5 : _} {a6 : _} (h1 : P s1) : P (State.autoRange s1 a2 a3 a4 a5 a6) := by
  unfold State.autoRange
  extract_lets +onlyGivenNames x0
  extract_lets +onlyGivenNames x1
  extract_lets +onlyGivenNames x2
  extract_lets +onlyGivenNames x3
  extract_lets +onlyGivenNames x4
  extract_lets +onlyGivenNames x5
  extract_lets +onlyGivenNames x6
  extract_lets +onlyGivenNames x7
  extract_lets +onlyGivenNames x8
  extract_lets +onlyGivenNames x9
  extract_lets +onlyGivenNames x10
  extract_lets +onlyGivenNames x11
  extract_lets +onlyGivenNames x12
  have e13 : P x12 := by
    unfold x12
    refine State.onCh_keep k.sub ?_
    assumption
  clear_value x12
  split
  · assumption
  · split
    · extract_lets +onlyGivenNames x14
      extract_lets +onlyGivenNames x15
      have e16 : P x15 := by
        unfold x15
        split
        · refine State.switchRange_keep k.sub ?_
          assumption
        · split
          · assumption
          · refine State.issue_keep k.sub ?_
            refine State.onCh_keep k.sub ?_
            assumption
      clear_value x15
      refine State.onCh_keep k.sub ?_
      assumption
    · split
      · extract_lets +onlyGivenNames x17
        split
        · refine State.switchRange_keep k.sub ?_
          assumption
        · refine State.onCh_keep k.sub ?_
          assumption
      · refine State.onCh_keep k.sub ?_
        assumption

theorem State.repaired_keep {P : State → Prop} (k : Keeps [.acq, .free] P) {s1 : State} {a2 : _} {a3 : _} {a4 : _} {a5 : _} {a6 : _} (h1 : P s1) : P (State.repaired s1 a2 a3 a4 a5 a6).2 := by
  unfold State.repaired
  split
  · assumption
  · extract_lets +onlyGivenNames x0
    extract_lets +onlyGivenNames x1
    extract_lets +onlyGivenNames x2
    have e3 : P x2 := by
      unfold x2
      split
      · refine State.overloadAt_keep k.sub ?_
        assumption
      · assumption
    clear_value x2
    split
    · assumption
    · extract_lets +onlyGivenNames x4
      unfold x4
      dsimp -zeta only
      refine (k.at .free) _ ?_
      assumption

theorem State.correction_keep {P : State → Prop} (k : Keeps [.acq, .arr (AFE_CH_STAT 0) 16 512, .qm, .log, .mend, .free] P) {s1 : State} {a2 : _} {a3 : _} {a4 : _} {a5 : _} {a6 : _} (h1 : P s1) : P (State.correction s1 a2 a3 a4 a5 a6).2 := by
  unfold State.correction
  split
  · assumption
  · split
    · assumption
    · extract_lets +onlyGivenNames x0
      extract_lets +onlyGivenNames x1
      extract_lets +onlyGivenNames x2
      extract_lets +onlyGivenNames x3
      extract_lets +onlyGivenNames x4
      extract_lets +onlyGivenNames x5
      extract_lets +onlyGivenNames x6
      have e7 : P x6 := by
        unfold x6
        split
        · refine State.overloadAt_keep k.sub ?_
          assumption
        · assumption
      clear_value x6
      extract_lets +onlyGivenNames x8
      extract_lets +onlyGivenNames x9
      have e10 : P x9 := by
        unfold x9
        refine State.autoRange_keep k.sub ?_
        refine State.repaired_keep k.sub ?_
        assumption
      clear_value x9
      extract_lets +onlyGivenNames x11
      extract_lets +onlyGivenNames x12
      extract_lets +onlyGivenNames x13
      dsimp -zeta only
      refine State.onCh_keep k.sub ?_
      assumption

theorem State.chainStart_keep {P : State → Prop} (k : Keeps [.acq] P) {s1 : State} {a2 : _} {a3 : _} {a4 : _} {a5 : _} (h1 : P s1) : P (State.chainStart s1 a2 a3 a4 a5) := by
  unfold State.chainStart
  split
  · assumption
  · split
    · refine State.onCh_keep k.sub ?_
      assumption
    · split
      · refine State.onCh_keep k.sub ?_
        assumption
      · assumption

theorem State.rawCode_keep {P : State → Prop} (k : Keeps [.acq, .arr (AFE_CH_STAT 0) 16 512, .qm, .log, .mend, .free, .cap, .arr (CAP_TRIG_STAT 0) 32 32, .fresh, .arr (CAP_ENG_CNT 0) 64 16, .arr (CAP_ENG_STAT 0) 64 16, .arr CMP_ERR 0 1, .cmd, .arr (DEC_DET_VAL 0) 8 512, .fblk, .arr (FLD_TRIP_STAT 0) 32 16] P) {s1 : State} {a2 : _} {a3 : _} (h1 : P s1) : P (State.rawCode s1 a2 a3) := by
  unfold State.rawCode
  extract_lets +onlyGivenNames x0
  extract_lets +onlyGivenNames x1
  extract_lets +onlyGivenNames x2
  extract_lets +onlyGivenNames x3
  extract_lets +onlyGivenNames x4
  extract_lets +onlyGivenNames x5
  split
  · assumption
  · extract_lets +onlyGivenNames x6
    have e7 : P x6 := by
      unfold x6
      refine State.chainStart_keep k.sub ?_
      assumption
    clear_value x6
    extract_lets +onlyGivenNames x8
    extract_lets +onlyGivenNames x9
    have e10 : P x9 := by
      unfold x9
      refine State.onCh_keep k.sub ?_
      refine State.correction_keep k.sub ?_
      assumption
    clear_value x9
    refine State.feedSignal_keep k.sub ?_
    assumption

theorem execRawCodeArrival_keep {P : State → Prop} (k : Keeps [.mend, .qm, .arr CMP_ERR 0 1, .fresh, .log, .guard, .red, .arr RED_MIRROR 0 1, .time, .free, .acq, .arr (AFE_CH_STAT 0) 16 512, .cap, .arr (CAP_TRIG_STAT 0) 32 32, .arr (CAP_ENG_CNT 0) 64 16, .arr (CAP_ENG_STAT 0) 64 16, .cmd, .arr (DEC_DET_VAL 0) 8 512, .fblk, .arr (FLD_TRIP_STAT 0) 32 16] P) {a1 : _} {a2 : _} {a3 : _} {s4 : State} (h4 : P s4) : ∀ u, execRawCodeArrival a1 a2 a3 s4 = .next u → P u := by
  unfold execRawCodeArrival
  refine event_keep k.sub ?_ ?_
  · assumption
  · intro y0
    intro y1
    refine State.rawCode_keep k.sub ?_
    assumption

theorem State.tailOut_keep {P : State → Prop} (k : Keeps [.acq, .qm, .mend, .arr CMP_ERR 0 1, .fresh] P) {s1 : State} {a2 : _} {a3 : _} {a4 : _} (h1 : P s1) : P (State.tailOut s1 a2 a3 a4) := by
  unfold State.tailOut
  extract_lets +onlyGivenNames x0
  extract_lets +onlyGivenNames x1
  extract_lets +onlyGivenNames x2
  have e3 : P x2 := by
    unfold x2
    refine State.streamSample_keep k.sub ?_
    assumption
  clear_value x2
  refine State.onStrm_keep k.sub ?_
  assumption

theorem State.streamOut_keep {P : State → Prop} (k : Keeps [.acq, .qm, .mend, .arr CMP_ERR 0 1, .fresh, .log, .cap, .arr (CAP_TRIG_STAT 0) 32 32, .arr (CAP_ENG_CNT 0) 64 16, .arr (CAP_ENG_STAT 0) 64 16, .cmd, .arr (DEC_DET_VAL 0) 8 512, .fblk, .arr (FLD_TRIP_STAT 0) 32 16] P) {s1 : State} {a2 : _} {a3 : _} (h1 : P s1) : P (State.streamOut s1 a2 a3) := by
  unfold State.streamOut
  extract_lets +onlyGivenNames x0
  extract_lets +onlyGivenNames x1
  split
  · refine State.tailOut_keep k.sub ?_
    assumption
  · extract_lets +onlyGivenNames x2
    extract_lets +onlyGivenNames x3
    extract_lets +onlyGivenNames x4
    split
    · assumption
    · extract_lets +onlyGivenNames x5
      extract_lets +onlyGivenNames x6
      extract_lets +onlyGivenNames x7
      have e8 : P x7 := by
        unfold x7
        split
        · refine State.pmc_keep k.sub ?_
          refine State.onStrm_keep k.sub ?_
          refine State.streamSample_keep k.sub ?_
          assumption
        · assumption
      clear_value x7
      refine State.feedSignal_keep k.sub ?_
      refine State.onStrm_keep k.sub ?_
      assumption

theorem State.historyOut_keep {P : State → Prop} (k : Keeps [.cap, .log, .qm, .mend, .arr (CAP_TRIG_STAT 0) 32 32, .fresh, .arr (CAP_ENG_CNT 0) 64 16, .arr (CAP_ENG_STAT 0) 64 16, .acq, .arr CMP_ERR 0 1, .cmd, .arr (DEC_DET_VAL 0) 8 512, .fblk, .arr (FLD_TRIP_STAT 0) 32 16] P) {s1 : State} {a2 : _} {a3 : _} (h1 : P s1) : P (State.historyOut s1 a2 a3) := by
  unfold State.historyOut
  extract_lets +onlyGivenNames x0
  extract_lets +onlyGivenNames x1
  extract_lets +onlyGivenNames x2
  extract_lets +onlyGivenNames x3
  split
  · assumption
  · extract_lets +onlyGivenNames x4
    refine State.feedSignal_keep k.sub ?_
    refine State.keepHistory_keep k.sub ?_
    assumption

theorem State.tapOut_keep {P : State → Prop} (k : Keeps [.acq, .cap, .qm, .mend, .arr CMP_ERR 0 1, .fresh, .log, .arr (CAP_ENG_STAT 0) 64 16] P) {s1 : State} {a2 : _} {a3 : _} {a4 : _} (h1 : P s1) : P (State.tapOut s1 a2 a3 a4) := by
  unfold State.tapOut
  extract_lets +onlyGivenNames x0
  split
  · assumption
  · extract_lets +onlyGivenNames x1
    extract_lets +onlyGivenNames x2
    extract_lets +onlyGivenNames x3
    extract_lets +onlyGivenNames x4
    split
    · assumption
    · extract_lets +onlyGivenNames x5
      extract_lets +onlyGivenNames x6
      have e7 : P x6 := by
        unfold x6
        refine (k.at .acq) _ _ ?_
        assumption
      clear_value x6
      extract_lets +onlyGivenNames x8
      have e9 : P x8 := by
        unfold x8
        refine (k.at .cap) _ _ ?_
        assumption
      clear_value x8
      refine State.feedPanes_keep k.sub ?_
      refine State.pmc_keep k.sub ?_
      assumption

theorem State.outputSample_keep {P : State → Prop} (k : Keeps [.acq, .qm, .mend, .arr CMP_ERR 0 1, .fresh, .log, .cap, .arr (CAP_TRIG_STAT 0) 32 32, .arr (CAP_ENG_CNT 0) 64 16, .arr (CAP_ENG_STAT 0) 64 16, .cmd, .arr (DEC_DET_VAL 0) 8 512, .fblk, .arr (FLD_TRIP_STAT 0) 32 16] P) {s1 : State} {a2 : _} {a3 : _} {a4 : _} (h1 : P s1) : P (State.outputSample s1 a2 a3 a4) := by
  unfold State.outputSample
  split
  · assumption
  · split
    · refine State.streamOut_keep k.sub ?_
      assumption
    · refine State.historyOut_keep k.sub ?_
      assumption
    · refine State.tapOut_keep k.sub ?_
      assumption
    · refine State.tapOut_keep k.sub ?_
      assumption

theorem execOutputSampleDelivered_keep {P : State → Prop} (k : Keeps [.mend, .qm, .arr CMP_ERR 0 1, .fresh, .log, .guard, .red, .arr RED_MIRROR 0 1, .time, .free, .acq, .cap, .arr (CAP_TRIG_STAT 0) 32 32, .arr (CAP_ENG_CNT 0) 64 16, .arr (CAP_ENG_STAT 0) 64 16, .cmd, .arr (DEC_DET_VAL 0) 8 512, .fblk, .arr (FLD_TRIP_STAT 0) 32 16] P) {a1 : _} {a2 : _} {a3 : _} {a4 : _} {s5 : State} (h5 : P s5) : ∀ u, execOutputSampleDelivered a1 a2 a3 a4 s5 = .next u → P u := by
  unfold execOutputSampleDelivered
  refine event_keep k.sub ?_ ?_
  · assumption
  · intro y0
    intro y1
    refine State.outputSample_keep k.sub ?_
    assumption

theorem State.streamStart_keep {P : State → Prop} (k : Keeps [.acq, .qm, .mend, .arr CMP_ERR 0 1, .fresh, .arr (DEC_CH_STAT 0) 16 512, .log, .arr (DEC_DET_VAL 0) 8 512] P) {s1 : State} {a2 : _} (h1 : P s1) : P (State.streamStart s1 a2) := by
  unfold State.streamStart
  extract_lets +onlyGivenNames x0
  extract_lets +onlyGivenNames x1
  extract_lets +onlyGivenNames x2
  extract_lets +onlyGivenNames x3
  extract_lets +onlyGivenNames x4
  extract_lets +onlyGivenNames x5
  split
  · assumption
  · extract_lets +onlyGivenNames x6
    have e7 : P x6 := by
      unfold x6
      refine State.dropTail_keep k.sub ?_
      assumption
    clear_value x6
    extract_lets +onlyGivenNames x8
    have e9 : P x8 := by
      unfold x8
      refine State.onStrm_keep k.sub ?_
      refine setFld_keep k (DEC_CH_STAT 0) 16 512 ⟨_, rfl⟩ ?_
      refine setFld_keep k (DEC_CH_STAT 0) 16 512 ⟨_, rfl⟩ ?_
      assumption
    clear_value x8
    extract_lets +onlyGivenNames x10
    have e11 : P x10 := by
      unfold x10
      refine State.issue_keep k.sub ?_
      assumption
    clear_value x10
    split
    · refine State.restartDet_keep k.sub ?_
      assumption
    · assumption

theorem execStreamStart_keep {P : State → Prop} (k : Keeps [.mend, .qm, .arr CMP_ERR 0 1, .fresh, .log, .guard, .red, .arr RED_MIRROR 0 1, .time, .free, .acq, .arr (DEC_CH_STAT 0) 16 512, .arr (DEC_DET_VAL 0) 8 512] P) {a1 : _} {a2 : _} {s3 : State} (h3 : P s3) : ∀ u, execStreamStart a1 a2 s3 = .next u → P u := by
  unfold execStreamStart
  refine event_keep k.sub ?_ ?_
  · assumption
  · intro y0
    intro y1
    refine State.streamStart_keep k.sub ?_
    assumption

theorem State.setChain_keep {P : State → Prop} (k : Keeps [.qm, .log, .mend, .acq, .arr CMP_ERR 0 1, .fresh, .arr (DEC_CH_STAT 0) 16 512, .arr (DEC_CH_CFG 0) 16 512, .arr (DEC_DET_VAL 0) 8 512] P) {s1 : State} {a2 : _} {a3 : _} (h1 : P s1) : P (State.setChain s1 a2 a3) := by
  unfold State.setChain
  split
  · assumption
  · extract_lets +onlyGivenNames x0
    extract_lets +onlyGivenNames x1
    have e2 : P x1 := by
      unfold x1
      split
      · refine State.endStream_keep k.sub ?_
        assumption
      · assumption
    clear_value x1
    extract_lets +onlyGivenNames x3
    have e4 : P x3 := by
      unfold x3
      refine State.onStrm_keep k.sub ?_
      refine (k.at (.arr (DEC_CH_CFG 0) 16 512)) _ _ _ ⟨_, rfl⟩ ?_
      assumption
    clear_value x3
    extract_lets +onlyGivenNames x5
    have e6 : P x5 := by
      unfold x5
      split
      · refine State.restartDet_keep k.sub ?_
        assumption
      · assumption
    clear_value x5
    split
    · refine State.restartStream_keep k.sub ?_
      assumption
    · assumption

theorem State.setHist_keep {P : State → Prop} (k : Keeps [.qm, .log, .mend, .cap, .acq, .arr CMP_ERR 0 1, .fresh, .arr (MEM_ERR 0) 32 5, .arr (MEM_ERR_INFO 0) 32 5, .free, .arr (MEM_ERR_ADDR 0) 32 5, .arr (MEM_ERR_ADDR 0 + 4) 32 5, .mem, .arr (CAP_ENG_STAT 0) 64 16, .arr (DEC_BAY_CFG 0) 16 64, .arr (DEC_DET_VAL 0) 8 512, .arr (DEC_BAY_STAT 0) 16 64, .arr CAP_HIST_STAT 0 1] P) {s1 : State} {a2 : _} {a3 : _} {a4 : _} (h1 : P s1) : P (State.setHist s1 a2 a3 a4) := by
  unfold State.setHist
  split
  · assumption
  · extract_lets +onlyGivenNames x0
    have e1 : P x0 := by
      unfold x0
      refine State.breakHistory_keep k.sub ?_
      assumption
    clear_value x0
    extract_lets +onlyGivenNames x2
    have e3 : P x2 := by
      unfold x2
      refine setFld_keep k (DEC_BAY_CFG 0) 16 64 ⟨_, rfl⟩ ?_
      refine setFld_keep k (DEC_BAY_CFG 0) 16 64 ⟨_, rfl⟩ ?_
      assumption
    clear_value x2
    extract_lets +onlyGivenNames x4
    have e5 : P x4 := by
      unfold x4
      refine foldl_keep (fun t6 x7 e8 => ?_) ?_
      · refine State.onCh_keep k.sub ?_
        assumption
      · assumption
    clear_value x4
    extract_lets +onlyGivenNames x9
    have e10 : P x9 := by
      unfold x9
      refine foldl_keep (fun t11 x12 e13 => ?_) ?_
      · split
        · refine State.restartDet_keep k.sub ?_
          assumption
        · assumption
      · assumption
    clear_value x9
    refine State.askRepart_keep k.sub ?_
    refine State.showHist_keep k.sub ?_
    assumption

theorem State.showLoad_keep {P : State → Prop} (k : Keeps [.arr DEC_LOAD 0 1] P) {s1 : State} (h1 : P s1) : P (State.showLoad s1) := by
  unfold State.showLoad
  refine setFld_keep k DEC_LOAD 0 1 ⟨0, rfl⟩ ?_
  assumption

theorem bodyChainConfig_keep {P : State → Prop} (k : Keeps [.qm, .log, .mend, .cap, .acq, .arr CMP_ERR 0 1, .fresh, .arr (MEM_ERR 0) 32 5, .arr (MEM_ERR_INFO 0) 32 5, .free, .arr (MEM_ERR_ADDR 0) 32 5, .arr (MEM_ERR_ADDR 0 + 4) 32 5, .mem, .arr (CAP_ENG_STAT 0) 64 16, .arr (DEC_BAY_CFG 0) 16 64, .arr (DEC_DET_VAL 0) 8 512, .arr (DEC_BAY_STAT 0) 16 64, .arr CAP_HIST_STAT 0 1, .arr DEC_LOAD 0 1, .arr (DEC_CH_STAT 0) 16 512, .arr (DEC_CH_CFG 0) 16 512] P) {a1 : _} {a2 : _} {s3 : State} (h3 : P s3) : (bodyChainConfig a1 a2 s3).Holds P := by
  unfold bodyChainConfig
  extract_lets +onlyGivenNames x0
  extract_lets +onlyGivenNames x1
  extract_lets +onlyGivenNames x2
  extract_lets +onlyGivenNames x3
  extract_lets +onlyGivenNames x4
  extract_lets +onlyGivenNames x5
  extract_lets +onlyGivenNames x6
  extract_lets +onlyGivenNames x7
  extract_lets +onlyGivenNames x8
  refine checked_keep ?_ ?_
  · assumption
  · extract_lets +onlyGivenNames x9
    have e10 : P x9 := by
      unfold x9
      refine foldl_keep (fun t11 x12 e13 => ?_) ?_
      · refine State.setHist_keep k.sub ?_
        assumption
      · assumption
    clear_value x9
    show P _
    refine State.showLoad_keep k.sub ?_
    refine foldl_keep (fun t14 x15 e16 => ?_) ?_
    · refine State.setChain_keep k.sub ?_
      assumption
    · assumption

theorem bodyDetectorConfig_keep {P : State → Prop} (k : Keeps [.acq, .arr (DEC_DET_VAL 0) 8 512, .arr (DEC_DET_CFG 0) 8 512] P) {a1 : _} {a2 : _} {s3 : State} (h3 : P s3) : (bodyDetectorConfig a1 a2 s3).Holds P := by
  unfold bodyDetectorConfig
  extract_lets +onlyGivenNames x0
  extract_lets +onlyGivenNames x1
  extract_lets +onlyGivenNames x2
  extract_lets +onlyGivenNames x3
  refine checked_keep ?_ ?_
  · assumption
  · show P _
    refine foldl_keep (fun t4 x5 e6 => ?_) ?_
    · refine State.restartDet_keep k.sub ?_
      refine (k.at (.arr (DEC_DET_CFG 0) 8 512)) _ _ _ ⟨_, rfl⟩ ?_
      assumption
    · assumption

theorem State.enableStream_keep {P : State → Prop} (k : Keeps [.acq, .arr (DEC_STREAM 0) 4 592, .log, .qm, .mend, .arr (DEC_CH_STAT 0) 16 512, .fresh] P) {s1 : State} {a2 : _} {a3 : _} (h1 : P s1) : P (State.enableStream s1 a2 a3) := by
  unfold State.enableStream
  extract_lets +onlyGivenNames x0
  extract_lets +onlyGivenNames x1
  have e2 : P x1 := by
    unfold x1
    refine State.onStrm_keep k.sub ?_
    refine (k.at (.arr (DEC_STREAM 0) 4 592)) _ _ _ ⟨_, rfl⟩ ?_
    assumption
  clear_value x1
  split
  · assumption
  · split
    · refine State.awaitStream_keep k.sub ?_
      assumption
    · refine setFld_keep k (DEC_CH_STAT 0) 16 512 ⟨_, rfl⟩ ?_
      assumption

theorem State.disableStream_keep {P : State → Prop} (k : Keeps [.arr (DEC_STREAM 0) 4 592, .qm, .log, .mend, .acq, .arr CMP_ERR 0 1, .fresh, .arr (DEC_CH_STAT 0) 16 512] P) {s1 : State} {a2 : _} (h1 : P s1) : P (State.disableStream s1 a2) := by
  unfold State.disableStream
  extract_lets +onlyGivenNames x0
  have e1 : P x0 := by
    unfold x0
    refine setFld_keep k (DEC_STREAM 0) 4 592 ⟨_, rfl⟩ ?_
    refine State.endStream_keep k.sub ?_
    assumption
  clear_value x0
  split
  · refine setFld_keep k (DEC_CH_STAT 0) 16 512 ⟨_, rfl⟩ ?_
    assumption
  · assumption

theorem bodyStreamEnable_keep {P : State → Prop} (k : Keeps [.arr DEC_LOAD 0 1, .acq, .arr (DEC_STREAM 0) 4 592, .log, .qm, .mend, .arr (DEC_CH_STAT 0) 16 512, .fresh, .arr CMP_ERR 0 1] P) {a1 : _} {a2 : _} {s3 : State} (h3 : P s3) : (bodyStreamEnable a1 a2 s3).Holds P := by
  unfold bodyStreamEnable
  extract_lets +onlyGivenNames x0
  extract_lets +onlyGivenNames x1
  extract_lets +onlyGivenNames x2
  extract_lets +onlyGivenNames x3
  extract_lets +onlyGivenNames x4
  refine checked_keep ?_ ?_
  · assumption
  · extract_lets +onlyGivenNames x5
    have e6 : P x5 := by
      unfold x5
      refine State.showLoad_keep k.sub ?_
      split
      · refine foldl_keep (fun t7 x8 e9 => ?_) ?_
        · refine State.enableStream_keep k.sub ?_
          assumption
        · assumption
      · refine foldl_keep (fun t10 x11 e12 => ?_) ?_
        · refine State.disableStream_keep k.sub ?_
          assumption
        · assumption
    clear_value x5
    show P _
    assumption

theorem State.calPut_keep {P : State → Prop} (k : Keeps [.cal] P) {s1 : State} {a2 : _} {a3 : _} {a4 : _} (h1 : P s1) : P (State.calPut s1 a2 a3 a4) := by
  unfold State.calPut
  extract_lets +onlyGivenNames x0
  refine (k.at .cal) _ _ ?_
  assumption

theorem State.onRun_keep {P : State → Prop} (k : Keeps [.cal] P) {s1 : State} {a2 : _} {a3 : _} (h1 : P s1) : P (State.onRun s1 a2 a3) := by
  unfold State.onRun
  refine (k.at .cal) _ _ ?_
  assumption

theorem State.calReject_keep {P : State → Prop} (k : Keeps [.arr CAL_COUNT 0 1, .fresh, .arr CAL_STAT 0 1, .qm, .log, .mend, .cal] P) {s1 : State} {a2 : _} {a3 : _} {a4 : _} {a5 : _} (h1 : P s1) : P (State.calReject s1 a2 a3 a4 a5) := by
  unfold State.calReject
  extract_lets +onlyGivenNames x0
  extract_lets +onlyGivenNames x1
  have e2 : P x1 := by
    unfold x1
    refine bump_keep k CAL_COUNT 0 1 ⟨0, rfl⟩ ?_
    refine setBit_keep k CAL_STAT 0 1 ⟨0, rfl⟩ ?_
    assumption
  clear_value x1
  refine State.issue_keep k.sub ?_
  refine State.onRun_keep k.sub ?_
  assumption

theorem State.calValue_keep {P : State → Prop} (k : Keeps [.arr CAL_COUNT 0 1, .fresh, .arr CAL_STAT 0 1, .qm, .log, .mend, .cal] P) {s1 : State} {a2 : _} {a3 : _} (h1 : P s1) : P (State.calValue s1 a2 a3) := by
  unfold State.calValue
  extract_lets +onlyGivenNames x0
  split
  · assumption
  · split
    · assumption
    · extract_lets +onlyGivenNames x1
      extract_lets +onlyGivenNames x2
      extract_lets +onlyGivenNames x3
      split
      · refine State.calReject_keep k.sub ?_
        assumption
      · split
        · refine State.calReject_keep k.sub ?_
          assumption
        · extract_lets +onlyGivenNames x4
          extract_lets +onlyGivenNames x5
          split
          · extract_lets +onlyGivenNames x6
            extract_lets +onlyGivenNames x7
            extract_lets +onlyGivenNames x8
            have e9 : P x8 := by
              unfold x8
              refine (k.at .cal) _ _ ?_
              assumption
            clear_value x8
            refine State.calPut_keep k.sub ?_
            assumption
          · refine State.calPut_keep k.sub ?_
            assumption

theorem State.setTrim_keep {P : State → Prop} (k : Keeps [.acq, .arr (CONV_TRIM 0) 4 512] P) {s1 : State} {a2 : _} {a3 : _} (h1 : P s1) : P (State.setTrim s1 a2 a3) := by
  unfold State.setTrim
  extract_lets +onlyGivenNames x0
  refine State.onCh_keep k.sub ?_
  refine setFld_keep k (CONV_TRIM 0) 4 512 ⟨_, rfl⟩ ?_
  assumption

theorem State.loadTrims_keep {P : State → Prop} (k : Keeps [.acq, .arr (CONV_TRIM 0) 4 512, .arr (DEC_BAY_CFG 0) 16 64] P) {s1 : State} {a2 : _} (h1 : P s1) : P (State.loadTrims s1 a2) := by
  unfold State.loadTrims
  split
  · refine foldl_keep (fun t0 x1 e2 => ?_) ?_
    · refine State.setTrim_keep k.sub ?_
      assumption
    · assumption
  · split
    · refine foldl_keep (fun t3 x4 e5 => ?_) ?_
      · refine setFld_keep k (DEC_BAY_CFG 0) 16 64 ⟨_, rfl⟩ ?_
        assumption
      · assumption
    · assumption

theorem State.showRunning_keep {P : State → Prop} (k : Keeps [.arr CAL_STAT 0 1] P) {s1 : State} (h1 : P s1) : P (State.showRunning s1) := by
  unfold State.showRunning
  refine setFld_keep k CAL_STAT 0 1 ⟨0, rfl⟩ ?_
  assumption

theorem State.calBegin_keep {P : State → Prop} (k : Keeps [.arr CAL_STAT 0 1, .arr (CAL_GRP_STAT 0) 16 29, .cal] P) {s1 : State} {a2 : _} (h1 : P s1) : P (State.calBegin s1 a2) := by
  unfold State.calBegin
  extract_lets +onlyGivenNames x0
  refine State.showRunning_keep k.sub ?_
  refine setFld_keep k (CAL_GRP_STAT 0) 16 29 ⟨_, rfl⟩ ?_
  refine (k.at .cal) _ _ ?_
  assumption

theorem State.calOpDone_keep {P : State → Prop} (k : Keeps [.cmd, .arr CMD_CACHE 0 1, .fresh, .mend, .qm, .cal] P) {s1 : State} {a2 : _} {a3 : _} {a4 : _} (h1 : P s1) : P (State.calOpDone s1 a2 a3 a4) := by
  unfold State.calOpDone
  refine foldl_keep (fun t0 x1 e2 => ?_) ?_
  · extract_lets +onlyGivenNames x3
    split
    · refine State.report_keep k.sub ?_
      refine (k.at .cal) _ _ ?_
      assumption
    · refine (k.at .cal) _ _ ?_
      assumption
  · assumption

theorem State.calFinish_keep {P : State → Prop} (k : Keeps [.arr CAL_STAT 0 1, .cal, .nvm, .arr (CAL_GRP_STAT 0) 16 29, .arr (CAL_GRP_QUAL 0) 16 29, .arr CAL_COUNT 0 1, .fresh, .acq, .arr (CONV_TRIM 0) 4 512, .arr (DEC_BAY_CFG 0) 16 64, .cmd, .arr CMD_CACHE 0 1, .mend, .qm, .log] P) {s1 : State} {a2 : _} {a3 : _} (h1 : P s1) : P (State.calFinish s1 a2 a3) := by
  unfold State.calFinish
  split
  · assumption
  · extract_lets +onlyGivenNames x0
    extract_lets +onlyGivenNames x1
    extract_lets +onlyGivenNames x2
    extract_lets +onlyGivenNames x3
    extract_lets +onlyGivenNames x4
    extract_lets +onlyGivenNames x5
    have e6 : P x5 := by
      unfold x5
      refine State.showRunning_keep k.sub ?_
      refine (k.at .cal) _ _ ?_
      assumption
    clear_value x5
    extract_lets +onlyGivenNames x7
    have e8 : P x7 := by
      unfold x7
      split
      · assumption
      · refine (k.at .nvm) _ _ ?_
        assumption
    clear_value x7
    extract_lets +onlyGivenNames x9
    extract_lets +onlyGivenNames x10
    have e11 : P x10 := by
      unfold x10
      refine setFld_keep k (CAL_GRP_STAT 0) 16 29 ⟨_, rfl⟩ ?_
      refine setFld_keep k (CAL_GRP_STAT 0) 16 29 ⟨_, rfl⟩ ?_
      refine setFld_keep k (CAL_GRP_STAT 0) 16 29 ⟨_, rfl⟩ ?_
      refine setFld_keep k (CAL_GRP_STAT 0) 16 29 ⟨_, rfl⟩ ?_
      assumption
    clear_value x10
    extract_lets +onlyGivenNames x12
    have e13 : P x12 := by
      unfold x12
      refine setFld_keep k (CAL_GRP_QUAL 0) 16 29 ⟨_, rfl⟩ ?_
      refine setFld_keep k (CAL_GRP_QUAL 0) 16 29 ⟨_, rfl⟩ ?_
      assumption
    clear_value x12
    extract_lets +onlyGivenNames x14
    have e15 : P x14 := by
      unfold x14
      refine bump_keep k CAL_COUNT 0 1 ⟨0, rfl⟩ ?_
      refine State.loadTrims_keep k.sub ?_
      assumption
    clear_value x14
    refine State.calOpDone_keep k.sub ?_
    refine State.issue_keep k.sub ?_
    assumption

theorem State.nextTakeover_keep {P : State → Prop} (k : Keeps [.acq, .arr (CONV_RELIEF 0) 4 4] P) {s1 : State} {a2 : _} (h1 : P s1) : P (State.nextTakeover s1 a2) := by
  unfold State.nextTakeover
  extract_lets +onlyGivenNames x0
  split
  · assumption
  · split
    · assumption
    · extract_lets +onlyGivenNames x1
      have e2 : P x1 := by
        unfold x1
        refine State.onTakeover_keep k.sub ?_
        assumption
      clear_value x1
      refine setFld_keep k (CONV_RELIEF 0) 4 4 ⟨_, rfl⟩ ?_
      refine setFld_keep k (CONV_RELIEF 0) 4 4 ⟨_, rfl⟩ ?_
      assumption

theorem State.endTakeover_keep {P : State → Prop} (k : Keeps [.acq, .arr (CONV_BAY_STAT 0) 16 64, .arr (CONV_RELIEF 0) 4 4] P) {s1 : State} {a2 : _} (h1 : P s1) : P (State.endTakeover s1 a2) := by
  unfold State.endTakeover
  split
  · assumption
  · extract_lets +onlyGivenNames x0
    extract_lets +onlyGivenNames x1
    have e2 : P x1 := by
      unfold x1
      refine foldl_keep (fun t3 x4 e5 => ?_) ?_
      · unfold State.closeSpan
        refine State.onCh_keep k.sub ?_
        assumption
      · assumption
    clear_value x1
    extract_lets +onlyGivenNames x6
    have e7 : P x6 := by
      unfold x6
      refine setFld_keep k (CONV_BAY_STAT 0) 16 64 ⟨_, rfl⟩ ?_
      refine setFld_keep k (CONV_BAY_STAT 0) 16 64 ⟨_, rfl⟩ ?_
      refine setFld_keep k (CONV_RELIEF 0) 4 4 ⟨_, rfl⟩ ?_
      assumption
    clear_value x6
    refine State.onTakeover_keep k.sub ?_
    assumption

theorem State.restoreBay_keep {P : State → Prop} (k : Keeps [.cal] P) {s1 : State} {a2 : _} (h1 : P s1) : P (State.restoreBay s1 a2) := by
  unfold State.restoreBay
  extract_lets +onlyGivenNames x0
  split
  · split
    · assumption
    · refine State.calPut_keep k.sub ?_
      assumption
  · assumption

theorem State.breakTakeover_keep {P : State → Prop} (k : Keeps [.acq, .arr (CONV_BAY_STAT 0) 16 64, .arr (CONV_RELIEF 0) 4 4, .cal] P) {s1 : State} {a2 : _} (h1 : P s1) : P (State.breakTakeover s1 a2) := by
  unfold State.breakTakeover
  split
  · refine State.endTakeover_keep k.sub ?_
    refine State.restoreBay_keep k.sub ?_
    assumption
  · assumption

theorem State.reliefCompare_keep {P : State → Prop} (k : Keeps [.arr (CONV_RELIEF 0) 4 4, .arr CAL_COUNT 0 1, .fresh, .arr CAL_STAT 0 1, .qm, .log, .mend, .cal, .acq, .arr (CONV_BAY_STAT 0) 16 64] P) {s1 : State} {a2 : _} {a3 : _} (h1 : P s1) : P (State.reliefCompare s1 a2 a3) := by
  unfold State.reliefCompare
  extract_lets +onlyGivenNames x0
  split
  · assumption
  · extract_lets +onlyGivenNames x1
    split
    · assumption
    · extract_lets +onlyGivenNames x2
      extract_lets +onlyGivenNames x3
      have e4 : P x3 := by
        unfold x3
        refine setFld_keep k (CONV_RELIEF 0) 4 4 ⟨_, rfl⟩ ?_
        assumption
      clear_value x3
      extract_lets +onlyGivenNames x5
      extract_lets +onlyGivenNames x6
      have e7 : P x6 := by
        unfold x6
        split
        · refine State.calReject_keep k.sub ?_
          refine State.issue_keep k.sub ?_
          refine bump_keep k (CONV_RELIEF 0) 4 4 ⟨_, rfl⟩ ?_
          assumption
        · assumption
      clear_value x6
      extract_lets +onlyGivenNames x8
      split
      · split
        · refine State.nextTakeover_keep k.sub ?_
          refine State.onTakeover_keep k.sub ?_
          refine State.endTakeover_keep k.sub ?_
          assumption
        · extract_lets +onlyGivenNames x9
          have e10 : P x9 := by
            unfold x9
            refine foldl_keep (fun t11 x12 e13 => ?_) ?_
            · unfold State.openSpan
              refine State.onCh_keep k.sub ?_
              assumption
            · assumption
          clear_value x9
          extract_lets +onlyGivenNames x14
          have e15 : P x14 := by
            unfold x14
            refine setFld_keep k (CONV_BAY_STAT 0) 16 64 ⟨_, rfl⟩ ?_
            refine setFld_keep k (CONV_BAY_STAT 0) 16 64 ⟨_, rfl⟩ ?_
            assumption
          clear_value x14
          refine State.onTakeover_keep k.sub ?_
          refine State.pmc_keep k.sub ?_
          assumption
      · extract_lets +onlyGivenNames x16
        have e17 : P x16 := by
          unfold x16
          split
          · refine State.restoreBay_keep k.sub ?_
            assumption
          · assumption
        clear_value x16
        refine State.nextTakeover_keep k.sub ?_
        refine State.onTakeover_keep k.sub ?_
        refine State.endTakeover_keep k.sub ?_
        assumption

theorem execReliefCompareEnd_keep {P : State → Prop} (k : Keeps [.mend, .qm, .arr CMP_ERR 0 1, .fresh, .log, .guard, .red, .arr RED_MIRROR 0 1, .time, .free, .arr (CONV_RELIEF 0) 4 4, .arr CAL_COUNT 0 1, .arr CAL_STAT 0 1, .cal, .acq, .arr (CONV_BAY_STAT 0) 16 64] P) {a1 : _} {a2 : _} {a3 : _} {s4 : State} (h4 : P s4) : ∀ u, execReliefCompareEnd a1 a2 a3 s4 = .next u → P u := by
  unfold execReliefCompareEnd
  refine event_keep k.sub ?_ ?_
  · assumption
  · intro y0
    intro y1
    refine State.reliefCompare_keep k.sub ?_
    assumption

theorem State.bayCalibrated_keep {P : State → Prop} (k : Keeps [.arr CAL_COUNT 0 1, .fresh, .arr CAL_STAT 0 1, .qm, .log, .mend, .cal, .acq, .arr (CONV_BAY_STAT 0) 16 64, .arr (CONV_RELIEF 0) 4 4] P) {s1 : State} {a2 : _} {a3 : _} (h1 : P s1) : P (State.bayCalibrated s1 a2 a3) := by
  unfold State.bayCalibrated
  split
  · assumption
  · extract_lets +onlyGivenNames x0
    extract_lets +onlyGivenNames x1
    extract_lets +onlyGivenNames x2
    extract_lets +onlyGivenNames x3
    extract_lets +onlyGivenNames x4
    extract_lets +onlyGivenNames x5
    extract_lets +onlyGivenNames x6
    extract_lets +onlyGivenNames x7
    have e8 : P x7 := by
      unfold x7
      refine foldl_keep (fun t9 x10 e11 => ?_) ?_
      · refine State.calValue_keep k.sub ?_
        assumption
      · assumption
    clear_value x7
    extract_lets +onlyGivenNames x12
    extract_lets +onlyGivenNames x13
    have e14 : P x13 := by
      unfold x13
      split
      · refine State.onTakeover_keep k.sub ?_
        refine setFld_keep k (CONV_BAY_STAT 0) 16 64 ⟨_, rfl⟩ ?_
        assumption
      · assumption
    clear_value x13
    extract_lets +onlyGivenNames x15
    have e16 : P x15 := by
      unfold x15
      refine foldl_keep (fun t17 x18 e19 => ?_) ?_
      · refine setFld_keep k (CONV_BAY_STAT 0) 16 64 ⟨_, rfl⟩ ?_
        assumption
      · assumption
    clear_value x15
    refine State.nextTakeover_keep k.sub ?_
    refine State.onTakeover_keep k.sub ?_
    assumption

theorem execBayCalibrationDone_keep {P : State → Prop} (k : Keeps [.mend, .qm, .arr CMP_ERR 0 1, .fresh, .log, .guard, .red, .arr RED_MIRROR 0 1, .time, .free, .arr CAL_COUNT 0 1, .arr CAL_STAT 0 1, .cal, .acq, .arr (CONV_BAY_STAT 0) 16 64, .arr (CONV_RELIEF 0) 4 4] P) {a1 : _} {a2 : _} {a3 : _} {s4 : State} (h4 : P s4) : ∀ u, execBayCalibrationDone a1 a2 a3 s4 = .next u → P u := by
  unfold execBayCalibrationDone
  refine event_keep k.sub ?_ ?_
  · assumption
  · intro y0
    intro y1
    refine State.bayCalibrated_keep k.sub ?_
    assumption

theorem State.calStop_keep {P : State → Prop} (k : Keeps [.cal, .acq, .arr (CONV_BAY_STAT 0) 16 64, .arr (CONV_RELIEF 0) 4 4, .arr (TIU_CORE_STAT 0) 16 8, .tiu, .arr (CAL_GRP_STAT 0) 16 29, .arr CAL_STAT 0 1, .cmd, .arr CMD_CACHE 0 1, .fresh, .mend, .qm] P) {s1 : State} {a2 : _} (h1 : P s1) : P (State.calStop s1 a2) := by
  unfold State.calStop
  split
  · assumption
  · extract_lets +onlyGivenNames x0
    extract_lets +onlyGivenNames x1
    have e2 : P x1 := by
      unfold x1
      refine (k.at .cal) _ _ ?_
      assumption
    clear_value x1
    extract_lets +onlyGivenNames x3
    have e4 : P x3 := by
      unfold x3
      refine State.endTakeover_keep k.sub ?_
      assumption
    clear_value x3
    extract_lets +onlyGivenNames x5
    have e6 : P x5 := by
      unfold x5
      split
      · refine State.onTakeover_keep k.sub ?_
        refine foldl_keep (fun t7 x8 e9 => ?_) ?_
        · refine setFld_keep k (CONV_BAY_STAT 0) 16 64 ⟨_, rfl⟩ ?_
          assumption
        · assumption
      · split
        · refine State.coreBack_keep k.sub ?_
          assumption
        · assumption
    clear_value x5
    extract_lets +onlyGivenNames x10
    have e11 : P x10 := by
      unfold x10
      refine State.showRunning_keep k.sub ?_
      refine (k.at .cal) _ _ ?_
      assumption
    clear_value x10
    refine State.calOpDone_keep k.sub ?_
    refine setFld_keep k (CAL_GRP_STAT 0) 16 29 ⟨_, rfl⟩ ?_
    assumption

theorem State.calStopAll_keep {P : State → Prop} (k : Keeps [.cal, .acq, .arr (CONV_BAY_STAT 0) 16 64, .arr (CONV_RELIEF 0) 4 4, .arr (TIU_CORE_STAT 0) 16 8, .tiu, .arr (CAL_GRP_STAT 0) 16 29, .arr CAL_STAT 0 1, .cmd, .arr CMD_CACHE 0 1, .fresh, .mend, .qm] P) {s1 : State} (h1 : P s1) : P (State.calStopAll s1) := by
  unfold State.calStopAll
  refine foldl_keep (fun t0 x1 e2 => ?_) ?_
  · refine State.calStop_keep k.sub ?_
    assumption
  · assumption

end Sys2Proof.Machine
end

