-- ==== Sys2Proof/Laws/KeepF.lean ====
section
/-!
SUPPORT. What the operations of Machine/Conv may touch: one lemma per function (Laws/Keep.lean).
-/

namespace Sys2Proof.Machine

set_option Elab.async false

open Reg Bits

theorem State.toneEvent_keep {P : State → Prop} (k : Keeps [.qm, .log, .mend] P) {s1 : State} {a2 : _} {a3 : _} (h1 : P s1) : P (State.toneEvent s1 a2 a3) := by
  unfold State.toneEvent
  extract_lets +onlyGivenNames x0
  refine State.issue_keep k.sub ?_
  assumption

theorem State.stopBay_keep {P : State → Prop} (k : Keeps [.qm, .log, .mend, .acq, .arr CMP_ERR 0 1, .fresh, .arr (DEC_CH_STAT 0) 16 512, .arr (CONV_BAY_STAT 0) 16 64, .arr (CONV_RELIEF 0) 4 4, .cal, .cap, .arr (MEM_ERR 0) 32 5, .arr (MEM_ERR_INFO 0) 32 5, .free, .arr (MEM_ERR_ADDR 0) 32 5, .arr (MEM_ERR_ADDR 0 + 4) 32 5, .mem, .arr (CAP_ENG_STAT 0) 64 16, .arr DEC_LOAD 0 1, .arr (CAP_ENG_CFG 0) 64 16, .arr (DEC_BAY_STAT 0) 16 64] P) {s1 : State} {a2 : _} {a3 : _} (h1 : P s1) : P (State.stopBay s1 a2 a3) := by
  unfold State.stopBay
  extract_lets +onlyGivenNames x0
  have e1 : P x0 := by
    unfold x0
    refine foldl_keep (fun t2 x3 e4 => ?_) ?_
    · refine State.endStream_keep k.sub ?_
      assumption
    · assumption
  clear_value x0
  extract_lets +onlyGivenNames x5
  have e6 : P x5 := by
    unfold x5
    refine State.breakTakeover_keep k.sub ?_
    refine State.breakHistory_keep k.sub ?_
    refine State.bayLeaves_keep k.sub ?_
    assumption
  clear_value x5
  extract_lets +onlyGivenNames x7
  have e8 : P x7 := by
    unfold x7
    split
    · refine State.toneEvent_keep k.sub ?_
      assumption
    · assumption
  clear_value x7
  refine State.onBay_keep k.sub ?_
  refine State.setConv_keep k.sub ?_
  refine setFld_keep k (DEC_BAY_STAT 0) 16 64 ⟨_, rfl⟩ ?_
  refine setFld_keep k (CONV_BAY_STAT 0) 16 64 ⟨_, rfl⟩ ?_
  assumption

theorem State.startBay_keep {P : State → Prop} (k : Keeps [.acq, .arr (CONV_BAY_STAT 0) 16 64, .arr (DEC_DET_VAL 0) 8 512, .log, .qm, .mend, .arr (DEC_CH_STAT 0) 16 512, .fresh, .arr (CONV_RELIEF 0) 4 4, .arr (DEC_BAY_STAT 0) 16 64, .arr CAP_HIST_STAT 0 1] P) {s1 : State} {a2 : _} {a3 : _} (h1 : P s1) : P (State.startBay s1 a2 a3) := by
  unfold State.startBay
  split
  · assumption
  · extract_lets +onlyGivenNames x0
    have e1 : P x0 := by
      unfold x0
      split
      · refine State.setConv_keep k.sub ?_
        refine setFld_keep k (CONV_BAY_STAT 0) 16 64 ⟨_, rfl⟩ ?_
        assumption
      · assumption
    clear_value x0
    extract_lets +onlyGivenNames x2
    have e3 : P x2 := by
      unfold x2
      refine foldl_keep (fun t4 x5 e6 => ?_) ?_
      · refine State.restartDet_keep k.sub ?_
        assumption
      · assumption
    clear_value x2
    extract_lets +onlyGivenNames x7
    have e8 : P x7 := by
      unfold x7
      refine foldl_keep (fun t9 x10 e11 => ?_) ?_
      · split
        · assumption
        · refine State.restartStream_keep k.sub ?_
          assumption
      · assumption
    clear_value x7
    extract_lets +onlyGivenNames x12
    have e13 : P x12 := by
      unfold x12
      split
      · refine State.toneEvent_keep k.sub ?_
        assumption
      · assumption
    clear_value x12
    refine State.nextTakeover_keep k.sub ?_
    refine State.showHist_keep k.sub ?_
    assumption

theorem State.swapBay_keep {P : State → Prop} (k : Keeps [.acq, .arr (CONV_BAY_STAT 0) 16 64, .qm, .mend, .arr CMP_ERR 0 1, .fresh, .arr (DEC_BAY_STAT 0) 16 64, .arr CAP_HIST_STAT 0 1] P) {s1 : State} {a2 : _} {a3 : _} {a4 : _} (h1 : P s1) : P (State.swapBay s1 a2 a3 a4) := by
  unfold State.swapBay
  split
  · extract_lets +onlyGivenNames x0
    extract_lets +onlyGivenNames x1
    have e2 : P x1 := by
      unfold x1
      refine State.setConv_keep k.sub ?_
      refine setFld_keep k (CONV_BAY_STAT 0) 16 64 ⟨_, rfl⟩ ?_
      assumption
    clear_value x1
    extract_lets +onlyGivenNames x3
    have e4 : P x3 := by
      unfold x3
      refine State.onBay_keep k.sub ?_
      assumption
    clear_value x3
    extract_lets +onlyGivenNames x5
    have e6 : P x5 := by
      unfold x5
      split
      · refine foldl_keep (fun t7 x8 e9 => ?_) ?_
        · refine State.onStrm_keep k.sub ?_
          refine State.closeKey_keep k.sub ?_
          assumption
        · assumption
      · assumption
    clear_value x5
    refine State.showHist_keep k.sub ?_
    assumption
  · refine State.setConv_keep k.sub ?_
    refine setFld_keep k (CONV_BAY_STAT 0) 16 64 ⟨_, rfl⟩ ?_
    assumption

theorem State.setBay_keep {P : State → Prop} (k : Keeps [.acq, .arr (CONV_BAY_STAT 0) 16 64, .arr (CONV_RELIEF 0) 4 4, .cal, .qm, .log, .mend, .cap, .arr CMP_ERR 0 1, .fresh, .arr (MEM_ERR 0) 32 5, .arr (MEM_ERR_INFO 0) 32 5, .free, .arr (MEM_ERR_ADDR 0) 32 5, .arr (MEM_ERR_ADDR 0 + 4) 32 5, .mem, .arr (CAP_ENG_STAT 0) 64 16, .arr (DEC_CH_STAT 0) 16 512, .arr DEC_LOAD 0 1, .arr (CAP_ENG_CFG 0) 64 16, .arr (DEC_BAY_STAT 0) 16 64, .arr (CONV_BAY_BURST 0) 16 64, .arr (CONV_BAY_MODE 0) 16 64, .arr CAP_HIST_STAT 0 1, .arr (DEC_DET_VAL 0) 8 512] P) {s1 : State} {a2 : _} {a3 : _} {a4 : _} (h1 : P s1) : P (State.setBay s1 a2 a3 a4) := by
  unfold State.setBay
  extract_lets +onlyGivenNames x0
  extract_lets +onlyGivenNames x1
  extract_lets +onlyGivenNames x2
  extract_lets +onlyGivenNames x3
  extract_lets +onlyGivenNames x4
  extract_lets +onlyGivenNames x5
  extract_lets +onlyGivenNames x6
  extract_lets +onlyGivenNames x7
  extract_lets +onlyGivenNames x8
  have e9 : P x8 := by
    unfold x8
    split
    · refine State.breakTakeover_keep k.sub ?_
      assumption
    · assumption
  clear_value x8
  extract_lets +onlyGivenNames x10
  have e11 : P x10 := by
    unfold x10
    split
    · refine State.breakHistory_keep k.sub ?_
      refine foldl_keep (fun t12 x13 e14 => ?_) ?_
      · refine State.endStream_keep k.sub ?_
        assumption
      · assumption
    · assumption
  clear_value x10
  extract_lets +onlyGivenNames x15
  have e16 : P x15 := by
    unfold x15
    split
    · refine State.stopBay_keep k.sub ?_
      assumption
    · split
      · refine setFld_keep k (DEC_BAY_STAT 0) 16 64 ⟨_, rfl⟩ ?_
        refine State.breakHistory_keep k.sub ?_
        refine State.bayLeaves_keep k.sub ?_
        assumption
      · assumption
  clear_value x15
  extract_lets +onlyGivenNames x17
  have e18 : P x17 := by
    unfold x17
    refine (k.at (.arr (CONV_BAY_BURST 0) 16 64)) _ _ _ ⟨_, rfl⟩ ?_
    refine (k.at (.arr (CONV_BAY_MODE 0) 16 64)) _ _ _ ⟨_, rfl⟩ ?_
    assumption
  clear_value x17
  extract_lets +onlyGivenNames x19
  have e20 : P x19 := by
    unfold x19
    split
    · assumption
    · refine State.onBay_keep k.sub ?_
      assumption
  clear_value x19
  extract_lets +onlyGivenNames x21
  extract_lets +onlyGivenNames x22
  have e23 : P x22 := by
    unfold x22
    split
    · refine State.onBay_keep k.sub ?_
      assumption
    · assumption
  clear_value x22
  extract_lets +onlyGivenNames x24
  have e25 : P x24 := by
    unfold x24
    split
    · refine State.swapBay_keep k.sub ?_
      assumption
    · split
      · refine State.startBay_keep k.sub ?_
        assumption
      · assumption
  clear_value x24
  refine State.nextTakeover_keep k.sub ?_
  assumption

theorem bodyBayMode_keep {P : State → Prop} (k : Keeps [.arr DEC_LOAD 0 1, .acq, .arr (CONV_BAY_STAT 0) 16 64, .arr (CONV_RELIEF 0) 4 4, .cal, .qm, .log, .mend, .cap, .arr CMP_ERR 0 1, .fresh, .arr (MEM_ERR 0) 32 5, .arr (MEM_ERR_INFO 0) 32 5, .free, .arr (MEM_ERR_ADDR 0) 32 5, .arr (MEM_ERR_ADDR 0 + 4) 32 5, .mem, .arr (CAP_ENG_STAT 0) 64 16, .arr (DEC_CH_STAT 0) 16 512, .arr (CAP_ENG_CFG 0) 64 16, .arr (DEC_BAY_STAT 0) 16 64, .arr (CONV_BAY_BURST 0) 16 64, .arr (CONV_BAY_MODE 0) 16 64, .arr CAP_HIST_STAT 0 1, .arr (DEC_DET_VAL 0) 8 512] P) {a1 : _} {a2 : _} {s3 : State} (h3 : P s3) : (bodyBayMode a1 a2 s3).Holds P := by
  unfold bodyBayMode
  extract_lets +onlyGivenNames x0
  extract_lets +onlyGivenNames x1
  extract_lets +onlyGivenNames x2
  extract_lets +onlyGivenNames x3
  extract_lets +onlyGivenNames x4
  refine checked_keep ?_ ?_
  · assumption
  · show P _
    refine State.showLoad_keep k.sub ?_
    refine foldl_keep (fun t5 x6 e7 => ?_) ?_
    · refine State.setBay_keep k.sub ?_
      assumption
    · assumption

theorem State.newScan_keep {P : State → Prop} (k : Keeps [.acq, .qm, .mend, .arr CMP_ERR 0 1, .fresh, .arr (CONV_BAY_STAT 0) 16 64, .arr DEC_LOAD 0 1, .arr (DEC_DET_VAL 0) 8 512, .log, .arr (DEC_CH_STAT 0) 16 512, .arr (CONV_RELIEF 0) 4 4, .arr (DEC_BAY_STAT 0) 16 64, .arr CAP_HIST_STAT 0 1] P) {s1 : State} {a2 : _} (h1 : P s1) : P (State.newScan s1 a2) := by
  unfold State.newScan
  split
  · assumption
  · split
    · assumption
    · extract_lets +onlyGivenNames x0
      have e1 : P x0 := by
        unfold x0
        refine foldl_keep (fun t2 x3 e4 => ?_) ?_
        · refine State.dropTail_keep k.sub ?_
          assumption
        · assumption
      clear_value x0
      extract_lets +onlyGivenNames x5
      extract_lets +onlyGivenNames x6
      have e7 : P x6 := by
        unfold x6
        refine State.onBay_keep k.sub ?_
        refine setFld_keep k (CONV_BAY_STAT 0) 16 64 ⟨_, rfl⟩ ?_
        assumption
      clear_value x6
      extract_lets +onlyGivenNames x8
      have e9 : P x8 := by
        unfold x8
        refine foldl_keep (fun t10 x11 e12 => ?_) ?_
        · refine State.onStrm_keep k.sub ?_
          refine State.onCh_keep k.sub ?_
          assumption
        · assumption
      clear_value x8
      refine State.showLoad_keep k.sub ?_
      refine State.startBay_keep k.sub ?_
      assumption

theorem execNewScanSetting_keep {P : State → Prop} (k : Keeps [.mend, .qm, .arr CMP_ERR 0 1, .fresh, .log, .guard, .red, .arr RED_MIRROR 0 1, .time, .free, .acq, .arr (CONV_BAY_STAT 0) 16 64, .arr DEC_LOAD 0 1, .arr (DEC_DET_VAL 0) 8 512, .arr (DEC_CH_STAT 0) 16 512, .arr (CONV_RELIEF 0) 4 4, .arr (DEC_BAY_STAT 0) 16 64, .arr CAP_HIST_STAT 0 1] P) {a1 : _} {a2 : _} {s3 : State} (h3 : P s3) : ∀ u, execNewScanSetting a1 a2 s3 = .next u → P u := by
  unfold execNewScanSetting
  refine event_keep k.sub ?_ ?_
  · assumption
  · intro y0
    intro y1
    refine State.newScan_keep k.sub ?_
    assumption

theorem State.burstWake_keep {P : State → Prop} (k : Keeps [.acq, .arr (CONV_BAY_STAT 0) 16 64, .arr (DEC_DET_VAL 0) 8 512] P) {s1 : State} {a2 : _} (h1 : P s1) : P (State.burstWake s1 a2) := by
  unfold State.burstWake
  split
  · assumption
  · split
    · assumption
    · extract_lets +onlyGivenNames x0
      extract_lets +onlyGivenNames x1
      have e2 : P x1 := by
        unfold x1
        refine State.onBay_keep k.sub ?_
        refine State.setConv_keep k.sub ?_
        refine setFld_keep k (CONV_BAY_STAT 0) 16 64 ⟨_, rfl⟩ ?_
        assumption
      clear_value x1
      refine foldl_keep (fun t3 x4 e5 => ?_) ?_
      · refine State.restartDet_keep k.sub ?_
        assumption
      · assumption

theorem execBurstWindowWake_keep {P : State → Prop} (k : Keeps [.mend, .qm, .arr CMP_ERR 0 1, .fresh, .log, .guard, .red, .arr RED_MIRROR 0 1, .time, .free, .acq, .arr (CONV_BAY_STAT 0) 16 64, .arr (DEC_DET_VAL 0) 8 512] P) {a1 : _} {a2 : _} {s3 : State} (h3 : P s3) : ∀ u, execBurstWindowWake a1 a2 s3 = .next u → P u := by
  unfold execBurstWindowWake
  refine event_keep k.sub ?_ ?_
  · assumption
  · intro y0
    intro y1
    refine State.burstWake_keep k.sub ?_
    assumption

theorem State.burstEnd_keep {P : State → Prop} (k : Keeps [.acq, .arr (CONV_BAY_STAT 0) 16 64, .fresh] P) {s1 : State} {a2 : _} (h1 : P s1) : P (State.burstEnd s1 a2) := by
  unfold State.burstEnd
  split
  · assumption
  · extract_lets +onlyGivenNames x0
    extract_lets +onlyGivenNames x1
    split
    · assumption
    · refine State.onBay_keep k.sub ?_
      refine bump_keep k (CONV_BAY_STAT 0) 16 64 ⟨_, rfl⟩ ?_
      refine setFld_keep k (CONV_BAY_STAT 0) 16 64 ⟨_, rfl⟩ ?_
      assumption

theorem execBurstWindowEnd_keep {P : State → Prop} (k : Keeps [.mend, .qm, .arr CMP_ERR 0 1, .fresh, .log, .guard, .red, .arr RED_MIRROR 0 1, .time, .free, .acq, .arr (CONV_BAY_STAT 0) 16 64] P) {a1 : _} {a2 : _} {s3 : State} (h3 : P s3) : ∀ u, execBurstWindowEnd a1 a2 s3 = .next u → P u := by
  unfold execBurstWindowEnd
  refine event_keep k.sub ?_ ?_
  · assumption
  · intro y0
    intro y1
    refine State.burstEnd_keep k.sub ?_
    assumption

theorem State.showTransom_keep {P : State → Prop} (k : Keeps [.arr CONV_TSEQ_STAT 0 1] P) {s1 : State} (h1 : P s1) : P (State.showTransom s1) := by
  unfold State.showTransom
  extract_lets +onlyGivenNames x0
  extract_lets +onlyGivenNames x1
  have e2 : P x1 := by
    unfold x1
    refine setFld_keep k CONV_TSEQ_STAT 0 1 ⟨0, rfl⟩ ?_
    refine setFld_keep k CONV_TSEQ_STAT 0 1 ⟨0, rfl⟩ ?_
    refine setFld_keep k CONV_TSEQ_STAT 0 1 ⟨0, rfl⟩ ?_
    assumption
  clear_value x1
  extract_lets +onlyGivenNames x3
  have e4 : P x3 := by
    unfold x3
    refine setFld_keep k CONV_TSEQ_STAT 0 1 ⟨0, rfl⟩ ?_
    assumption
  clear_value x3
  split
  · refine setFld_keep k CONV_TSEQ_STAT 0 1 ⟨0, rfl⟩ ?_
    assumption
  · assumption

theorem State.startSequence_keep {P : State → Prop} (k : Keeps [.arr CONV_TSEQ_CTRL 0 1, .acq] P) {s1 : State} (h1 : P s1) : P (State.startSequence s1) := by
  unfold State.startSequence
  extract_lets +onlyGivenNames x0
  have e1 : P x0 := by
    unfold x0
    split
    · refine setFld_keep k CONV_TSEQ_CTRL 0 1 ⟨0, rfl⟩ ?_
      refine State.onTransom_keep k.sub ?_
      assumption
    · assumption
  clear_value x0
  extract_lets +onlyGivenNames x2
  refine State.onTransom_keep k.sub ?_
  assumption

theorem State.transomTrigger_keep {P : State → Prop} (k : Keeps [.qm, .log, .mend, .arr CONV_TSEQ_STAT 0 1, .fresh, .arr CONV_TSEQ_CTRL 0 1, .acq] P) {s1 : State} (h1 : P s1) : P (State.transomTrigger s1) := by
  unfold State.transomTrigger
  extract_lets +onlyGivenNames x0
  extract_lets +onlyGivenNames x1
  split
  · assumption
  · split
    · unfold x1
      refine State.issueLim_keep k.sub ?_
      refine bump_keep k CONV_TSEQ_STAT 0 1 ⟨0, rfl⟩ ?_
      assumption
    · split
      · refine State.showTransom_keep k.sub ?_
        refine State.startSequence_keep k.sub ?_
        assumption
      · split
        · unfold x1
          refine State.issueLim_keep k.sub ?_
          refine bump_keep k CONV_TSEQ_STAT 0 1 ⟨0, rfl⟩ ?_
          assumption
        · refine State.showTransom_keep k.sub ?_
          refine State.onTransom_keep k.sub ?_
          assumption

theorem State.transomNext_keep {P : State → Prop} (k : Keeps [.arr CONV_TSEQ_STAT 0 1, .acq, .arr CONV_TSEQ_CTRL 0 1] P) {s1 : State} (h1 : P s1) : P (State.transomNext s1) := by
  unfold State.transomNext
  extract_lets +onlyGivenNames x0
  split
  · refine State.showTransom_keep k.sub ?_
    assumption
  · split
    · refine State.showTransom_keep k.sub ?_
      refine State.onTransom_keep k.sub ?_
      assumption
    · split
      · refine State.showTransom_keep k.sub ?_
        refine State.onTransom_keep k.sub ?_
        assumption
      · split
        · refine State.showTransom_keep k.sub ?_
          refine State.startSequence_keep k.sub ?_
          refine State.onTransom_keep k.sub ?_
          assumption
        · refine State.showTransom_keep k.sub ?_
          assumption

theorem State.urgentRequest_keep {P : State → Prop} (k : Keeps [.arr CONV_TSEQ_STAT 0 1, .acq] P) {s1 : State} {a2 : _} (h1 : P s1) : P (State.urgentRequest s1 a2) := by
  unfold State.urgentRequest
  extract_lets +onlyGivenNames x0
  split
  · refine State.showTransom_keep k.sub ?_
    refine State.onTransom_keep k.sub ?_
    assumption
  · split
    · refine State.showTransom_keep k.sub ?_
      refine State.onTransom_keep k.sub ?_
      assumption
    · extract_lets +onlyGivenNames x1
      extract_lets +onlyGivenNames x2
      extract_lets +onlyGivenNames x3
      split
      · refine State.showTransom_keep k.sub ?_
        refine State.onTransom_keep k.sub ?_
        assumption
      · split
        · refine State.showTransom_keep k.sub ?_
          refine State.onTransom_keep k.sub ?_
          assumption
        · refine State.showTransom_keep k.sub ?_
          refine State.onTransom_keep k.sub ?_
          assumption

theorem State.transomResult_keep {P : State → Prop} (k : Keeps [.log, .qm, .mend, .arr (CONV_TRESULT 0) 4 64, .acq, .arr CMP_ERR 0 1, .fresh] P) {s1 : State} {a2 : _} {a3 : _} (h1 : P s1) : P (State.transomResult s1 a2 a3).2.2 := by
  unfold State.transomResult
  extract_lets +onlyGivenNames x0
  extract_lets +onlyGivenNames x1
  extract_lets +onlyGivenNames x2
  extract_lets +onlyGivenNames x3
  extract_lets +onlyGivenNames x4
  have e5 : P x4 := by
    unfold x4
    refine State.pmc_keep k.sub ?_
    refine setFld_keep k (CONV_TRESULT 0) 4 64 ⟨_, rfl⟩ ?_
    refine setFld_keep k (CONV_TRESULT 0) 4 64 ⟨_, rfl⟩ ?_
    assumption
  clear_value x4
  dsimp -zeta only
  split
  · refine State.auxSample_keep k.sub ?_
    assumption
  · assumption

theorem State.transomPeriod_keep {P : State → Prop} (k : Keeps [.qm, .log, .mend, .arr CONV_TSEQ_STAT 0 1, .fresh, .arr CONV_TSEQ_CTRL 0 1, .acq] P) {s1 : State} (h1 : P s1) : P (State.transomPeriod s1) := by
  unfold State.transomPeriod
  extract_lets +onlyGivenNames x0
  extract_lets +onlyGivenNames x1
  split
  · assumption
  · refine State.transomTrigger_keep k.sub ?_
    refine State.onTransom_keep k.sub ?_
    assumption

theorem execTransomPeriodTrigger_keep {P : State → Prop} (k : Keeps [.mend, .qm, .arr CMP_ERR 0 1, .fresh, .log, .guard, .red, .arr RED_MIRROR 0 1, .time, .free, .arr CONV_TSEQ_STAT 0 1, .arr CONV_TSEQ_CTRL 0 1, .acq] P) {a1 : _} {s2 : State} (h2 : P s2) : ∀ u, execTransomPeriodTrigger a1 s2 = .next u → P u := by
  unfold execTransomPeriodTrigger
  refine event_keep k.sub ?_ ?_
  · assumption
  · intro y0
    intro y1
    refine State.transomPeriod_keep k.sub ?_
    assumption

theorem State.trigInEdge_keep {P : State → Prop} (k : Keeps [.tiu, .log, .qm, .mend, .arr (TIU_CORE_STAT 0) 16 8, .fresh, .tb, .arr (TIU_CORE_ERR 0) 16 8, .arr TIU_HOST_STAT 0 1, .fblk, .arr (CAP_TRIG_STAT 0) 32 32, .arr (CAP_ENG_CNT 0) 64 16, .cap, .arr (CAP_ENG_STAT 0) 64 16, .acq, .arr CMP_ERR 0 1, .cmd, .arr CONV_TSEQ_STAT 0 1, .arr CONV_TSEQ_CTRL 0 1] P) {s1 : State} {a2 : _} {a3 : _} (h1 : P s1) : P (State.trigInEdge s1 a2 a3) := by
  unfold State.trigInEdge
  extract_lets +onlyGivenNames x0
  have e1 : P x0 := by
    unfold x0
    refine State.edgeStamp_keep k.sub ?_
    assumption
  clear_value x0
  split
  · refine State.transomTrigger_keep k.sub ?_
    assumption
  · assumption

theorem execTrigInEdge_keep {P : State → Prop} (k : Keeps [.mend, .qm, .arr CMP_ERR 0 1, .fresh, .log, .guard, .red, .arr RED_MIRROR 0 1, .time, .free, .tiu, .arr (TIU_CORE_STAT 0) 16 8, .tb, .arr (TIU_CORE_ERR 0) 16 8, .arr TIU_HOST_STAT 0 1, .fblk, .arr (CAP_TRIG_STAT 0) 32 32, .arr (CAP_ENG_CNT 0) 64 16, .cap, .arr (CAP_ENG_STAT 0) 64 16, .acq, .cmd, .arr CONV_TSEQ_STAT 0 1, .arr CONV_TSEQ_CTRL 0 1] P) {a1 : _} {a2 : _} {a3 : _} {s4 : State} (h4 : P s4) : ∀ u, execTrigInEdge a1 a2 a3 s4 = .next u → P u := by
  unfold execTrigInEdge
  refine event_keep k.sub ?_ ?_
  · assumption
  · intro y0
    intro y1
    refine State.trigInEdge_keep k.sub ?_
    assumption

theorem execTransomStart_keep {P : State → Prop} (k : Keeps [.mend, .qm, .arr CMP_ERR 0 1, .fresh, .log, .guard, .red, .arr RED_MIRROR 0 1, .time, .free, .arr CONV_TSEQ_STAT 0 1, .arr CONV_TSEQ_CTRL 0 1, .acq] P) {a1 : _} {s2 : State} (h2 : P s2) : ∀ u, execTransomStart a1 s2 = .next u → P u := by
  unfold execTransomStart
  refine event_keep k.sub ?_ ?_
  · assumption
  · intro y0
    intro y1
    refine State.transomTrigger_keep k.sub ?_
    assumption

theorem State.transomCommit_keep {P : State → Prop} (k : Keeps [.arr CONV_TSEQ_CTRL 0 1] P) {s1 : State} (h1 : P s1) : P (State.transomCommit s1) := by
  unfold State.transomCommit
  refine setFld_keep k CONV_TSEQ_CTRL 0 1 ⟨0, rfl⟩ ?_
  assumption

theorem execTransomCommit_keep {P : State → Prop} (k : Keeps [.mend, .qm, .arr CMP_ERR 0 1, .fresh, .log, .guard, .red, .arr RED_MIRROR 0 1, .time, .free, .arr CONV_TSEQ_CTRL 0 1] P) {a1 : _} {s2 : State} (h2 : P s2) : ∀ u, execTransomCommit a1 s2 = .next u → P u := by
  unfold execTransomCommit
  refine event_keep k.sub ?_ ?_
  · assumption
  · intro y0
    intro y1
    refine State.transomCommit_keep k.sub ?_
    assumption

theorem State.setTseqCtrl_keep {P : State → Prop} (k : Keeps [.acq, .arr CONV_TSEQ_CTRL 0 1] P) {s1 : State} {a2 : _} (h1 : P s1) : P (State.setTseqCtrl s1 a2) := by
  unfold State.setTseqCtrl
  refine State.onTransom_keep k.sub ?_
  refine (k.at (.arr CONV_TSEQ_CTRL 0 1)) _ _ _ ⟨0, rfl⟩ ?_
  assumption

theorem bodyTransomSequence_keep {P : State → Prop} (k : Keeps [.arr (CONV_TSEQ 0) 4 64, .acq, .arr CONV_TSEQ_CTRL 0 1, .qm, .log, .mend, .arr CONV_TSEQ_STAT 0 1, .fresh] P) {a1 : _} {a2 : _} {s3 : State} (h3 : P s3) : (bodyTransomSequence a1 a2 s3).Holds P := by
  unfold bodyTransomSequence
  extract_lets +onlyGivenNames x0
  extract_lets +onlyGivenNames x1
  extract_lets +onlyGivenNames x2
  extract_lets +onlyGivenNames x3
  extract_lets +onlyGivenNames x4
  refine checked_keep ?_ ?_
  · assumption
  · extract_lets +onlyGivenNames x5
    have e6 : P x5 := by
      unfold x5
      refine foldl_keep (fun t7 x8 e9 => ?_) ?_
      · refine (k.at (.arr (CONV_TSEQ 0) 4 64)) _ _ _ ⟨_, rfl⟩ ?_
        assumption
      · assumption
    clear_value x5
    extract_lets +onlyGivenNames x10
    have e11 : P x10 := by
      unfold x10
      refine State.setTseqCtrl_keep k.sub ?_
      assumption
    clear_value x10
    extract_lets +onlyGivenNames x12
    have e13 : P x12 := by
      unfold x12
      split
      · refine State.transomCommit_keep k.sub ?_
        assumption
      · assumption
    clear_value x12
    show P _
    split
    · refine State.transomTrigger_keep k.sub ?_
      assumption
    · assumption

theorem bodyTransomUrgent_keep {P : State → Prop} (k : Keeps [.arr CONV_TSEQ_STAT 0 1, .acq] P) {a1 : _} {a2 : _} {s3 : State} (h3 : P s3) : (bodyTransomUrgent a1 a2 s3).Holds P := by
  unfold bodyTransomUrgent
  extract_lets +onlyGivenNames x0
  refine checked_keep ?_ ?_
  · assumption
  · show P _
    refine State.urgentRequest_keep k.sub ?_
    assumption

theorem State.stopTransom_keep {P : State → Prop} (k : Keeps [.arr CONV_TSEQ_STAT 0 1, .acq] P) {s1 : State} (h1 : P s1) : P (State.stopTransom s1) := by
  unfold State.stopTransom
  refine State.showTransom_keep k.sub ?_
  refine State.onTransom_keep k.sub ?_
  assumption

theorem State.toneWrite_keep {P : State → Prop} (k : Keeps [.arr (PMC_TONE 0) 4 64, .qm, .log, .mend] P) {s1 : State} {a2 : _} {a3 : _} (h1 : P s1) : P (State.toneWrite s1 a2 a3) := by
  unfold State.toneWrite
  extract_lets +onlyGivenNames x0
  extract_lets +onlyGivenNames x1
  extract_lets +onlyGivenNames x2
  split
  · assumption
  · extract_lets +onlyGivenNames x3
    have e4 : P x3 := by
      unfold x3
      refine setFld_keep k (PMC_TONE 0) 4 64 ⟨_, rfl⟩ ?_
      refine setFld_keep k (PMC_TONE 0) 4 64 ⟨_, rfl⟩ ?_
      assumption
    clear_value x3
    split
    · assumption
    · refine State.toneEvent_keep k.sub ?_
      assumption

theorem execPmcToneWrite_keep {P : State → Prop} (k : Keeps [.mend, .qm, .arr CMP_ERR 0 1, .fresh, .log, .guard, .red, .arr RED_MIRROR 0 1, .time, .free, .arr (PMC_TONE 0) 4 64] P) {a1 : _} {a2 : _} {a3 : _} {s4 : State} (h4 : P s4) : ∀ u, execPmcToneWrite a1 a2 a3 s4 = .next u → P u := by
  unfold execPmcToneWrite
  refine event_keep k.sub ?_ ?_
  · assumption
  · intro y0
    intro y1
    refine State.toneWrite_keep k.sub ?_
    assumption

end Sys2Proof.Machine
end

