-- ==== Sys2Proof/Laws/KeepG.lean ====
section
/-!
SUPPORT. What the operations of Machine/Ports, LinkCmds may touch: one lemma per function (Laws/Keep.lean).
-/

namespace Sys2Proof.Machine

set_option Elab.async false

open Reg Bits

theorem State.tidyLine_keep {P : State → Prop} (k : Keeps [.lnk] P) {s1 : State} {a2 : _} (h1 : P s1) : P (State.tidyLine s1 a2) := by
  unfold State.tidyLine
  extract_lets +onlyGivenNames x0
  refine State.onPort_keep k.sub ?_
  assumption

theorem State.insertLine_keep {P : State → Prop} (k : Keeps [.lnk] P) {s1 : State} {a2 : _} {a3 : _} (h1 : P s1) : P (State.insertLine s1 a2 a3) := by
  unfold State.insertLine
  extract_lets +onlyGivenNames x0
  refine State.onPort_keep k.sub ?_
  assumption

theorem State.useLanes_keep {P : State → Prop} (k : Keeps [.arr (LNK_PORT_STAT 0) 64 8, .lnk, .tb, .arr (LNK_LANE_STAT 0) 16 32] P) {s1 : State} {a2 : _} {a3 : _} (h1 : P s1) : P (State.useLanes s1 a2 a3) := by
  unfold State.useLanes
  extract_lets +onlyGivenNames x0
  extract_lets +onlyGivenNames x1
  have e2 : P x1 := by
    unfold x1
    refine setFld_keep k (LNK_PORT_STAT 0) 64 8 ⟨_, rfl⟩ ?_
    refine setFld_keep k (LNK_PORT_STAT 0) 64 8 ⟨_, rfl⟩ ?_
    refine setFld_keep k (LNK_PORT_STAT 0) 64 8 ⟨_, rfl⟩ ?_
    assumption
  clear_value x1
  extract_lets +onlyGivenNames x3
  have e4 : P x3 := by
    unfold x3
    refine State.onPort_keep k.sub ?_
    assumption
  clear_value x3
  extract_lets +onlyGivenNames x5
  have e6 : P x5 := by
    unfold x5
    refine State.onPtime_keep k.sub ?_
    assumption
  clear_value x5
  refine foldl_keep (fun t7 x8 e9 => ?_) ?_
  · refine setFld_keep k (LNK_LANE_STAT 0) 16 32 ⟨_, rfl⟩ ?_
    assumption
  · assumption

theorem State.sendRestripe_keep {P : State → Prop} (k : Keeps [.lnk] P) {s1 : State} {a2 : _} {a3 : _} {a4 : _} (h1 : P s1) : P (State.sendRestripe s1 a2 a3 a4) := by
  unfold State.sendRestripe
  refine State.onPort_keep k.sub ?_
  assumption

theorem State.dropLink_keep {P : State → Prop} (k : Keeps [.qm, .lnk] P) {s1 : State} {a2 : _} (h1 : P s1) : P (State.dropLink s1 a2) := by
  unfold State.dropLink
  extract_lets +onlyGivenNames x0
  extract_lets +onlyGivenNames x1
  have e2 : P x1 := by
    unfold x1
    refine (k.at .qm) _ _ ?_
    assumption
  clear_value x1
  extract_lets +onlyGivenNames x3
  have e4 : P x3 := by
    unfold x3
    refine State.onRecs_keep k.sub ?_
    assumption
  clear_value x3
  extract_lets +onlyGivenNames x5
  have e6 : P x5 := by
    unfold x5
    refine State.onQst_keep k.sub ?_
    refine State.onQst_keep k.sub ?_
    assumption
  clear_value x5
  extract_lets +onlyGivenNames x7
  have e8 : P x7 := by
    unfold x7
    refine State.onPort_keep k.sub ?_
    assumption
  clear_value x7
  refine State.failPort_keep k.sub ?_
  assumption

theorem State.startTraining_keep {P : State → Prop} (k : Keeps [.qm, .lnk, .arr (LNK_PORT_CNT 0) 64 8, .fresh, .arr (LNK_PORT_STAT 0) 64 8, .tb, .arr (LNK_LANE_STAT 0) 16 32, .log, .mend, .arr LNK_ROUTE_STAT 0 1, .arr LNK_ROUTE_CFG 0 1] P) {s1 : State} {a2 : _} {a3 : _} {a4 : _} (h1 : P s1) : P (State.startTraining s1 a2 a3 a4) := by
  unfold State.startTraining
  extract_lets +onlyGivenNames x0
  have e1 : P x0 := by
    unfold x0
    split
    · assumption
    · refine State.dropLink_keep k.sub ?_
      assumption
  clear_value x0
  extract_lets +onlyGivenNames x2
  have e3 : P x2 := by
    unfold x2
    refine bump_keep k (LNK_PORT_CNT 0) 64 8 ⟨_, rfl⟩ ?_
    assumption
  clear_value x2
  extract_lets +onlyGivenNames x4
  have e5 : P x4 := by
    unfold x4
    refine (k.at .qm) _ _ ?_
    assumption
  clear_value x4
  extract_lets +onlyGivenNames x6
  have e7 : P x6 := by
    unfold x6
    refine setFld_keep k (LNK_PORT_STAT 0) 64 8 ⟨_, rfl⟩ ?_
    refine State.useLanes_keep k.sub ?_
    assumption
  clear_value x6
  extract_lets +onlyGivenNames x8
  extract_lets +onlyGivenNames x9
  extract_lets +onlyGivenNames x10
  have e11 : P x10 := by
    unfold x10
    refine State.onPort_keep k.sub ?_
    assumption
  clear_value x10
  extract_lets +onlyGivenNames x12
  have e13 : P x12 := by
    unfold x12
    refine State.onPtime_keep k.sub ?_
    assumption
  clear_value x12
  refine State.setPort_keep k.sub ?_
  assumption

theorem State.trainingStart_keep {P : State → Prop} (k : Keeps [.qm, .lnk, .arr (LNK_PORT_CNT 0) 64 8, .fresh, .arr (LNK_PORT_STAT 0) 64 8, .tb, .arr (LNK_LANE_STAT 0) 16 32, .log, .mend, .arr LNK_ROUTE_STAT 0 1, .arr LNK_ROUTE_CFG 0 1] P) {s1 : State} {a2 : _} (h1 : P s1) : P (State.trainingStart s1 a2) := by
  unfold State.trainingStart
  split
  · refine State.startTraining_keep k.sub ?_
    assumption
  · assumption

theorem execPortTrainingStart_keep {P : State → Prop} (k : Keeps [.mend, .qm, .arr CMP_ERR 0 1, .fresh, .log, .guard, .red, .arr RED_MIRROR 0 1, .time, .free, .lnk, .arr (LNK_PORT_CNT 0) 64 8, .arr (LNK_PORT_STAT 0) 64 8, .tb, .arr (LNK_LANE_STAT 0) 16 32, .arr LNK_ROUTE_STAT 0 1, .arr LNK_ROUTE_CFG 0 1] P) {a1 : _} {a2 : _} {s3 : State} (h3 : P s3) : ∀ u, execPortTrainingStart a1 a2 s3 = .next u → P u := by
  unfold execPortTrainingStart
  refine event_keep k.sub ?_ ?_
  · assumption
  · intro y0
    intro y1
    refine State.trainingStart_keep k.sub ?_
    assumption

theorem State.violation_keep {P : State → Prop} (k : Keeps [.arr (LNK_PORT_ERR 0) 64 8, .fresh, .qm, .log, .mend] P) {s1 : State} {a2 : _} {a3 : _} (h1 : P s1) : P (State.violation s1 a2 a3) := by
  unfold State.violation
  extract_lets +onlyGivenNames x0
  have e1 : P x0 := by
    unfold x0
    split
    · assumption
    · refine bump_keep k (LNK_PORT_ERR 0) 64 8 ⟨_, rfl⟩ ?_
      assumption
  clear_value x0
  refine State.issueLim_keep k.sub ?_
  assumption

theorem State.trainIdent_keep {P : State → Prop} (k : Keeps [.arr (LNK_PORT_STAT 0) 64 8, .qm, .log, .mend, .arr LNK_ROUTE_STAT 0 1, .arr LNK_ROUTE_CFG 0 1, .lnk, .arr (LNK_PORT_ERR 0) 64 8, .fresh, .arr (LNK_LANE_STAT 0) 16 32] P) {s1 : State} {a2 : _} {a3 : _} (h1 : P s1) : P (State.trainIdent s1 a2 a3) := by
  unfold State.trainIdent
  extract_lets +onlyGivenNames x0
  split
  · assumption
  · extract_lets +onlyGivenNames x1
    have e2 : P x1 := by
      unfold x1
      refine setFld_keep k (LNK_PORT_STAT 0) 64 8 ⟨_, rfl⟩ ?_
      refine setFld_keep k (LNK_PORT_STAT 0) 64 8 ⟨_, rfl⟩ ?_
      refine setFld_keep k (LNK_PORT_STAT 0) 64 8 ⟨_, rfl⟩ ?_
      assumption
    clear_value x1
    split
    · refine State.setPort_keep k.sub ?_
      refine State.violation_keep k.sub ?_
      refine State.onPort_keep k.sub ?_
      assumption
    · split
      · assumption
      · extract_lets +onlyGivenNames x3
        have e4 : P x3 := by
          unfold x3
          refine foldl_keep (fun t5 x6 e7 => ?_) ?_
          · refine setFld_keep k (LNK_LANE_STAT 0) 16 32 ⟨_, rfl⟩ ?_
            assumption
          · assumption
        clear_value x3
        extract_lets +onlyGivenNames x8
        have e9 : P x8 := by
          unfold x8
          refine setFld_keep k (LNK_PORT_STAT 0) 64 8 ⟨_, rfl⟩ ?_
          assumption
        clear_value x8
        refine State.setPort_keep k.sub ?_
        refine State.onPort_keep k.sub ?_
        assumption

theorem execTrainIdentReceived_keep {P : State → Prop} (k : Keeps [.mend, .qm, .arr CMP_ERR 0 1, .fresh, .log, .guard, .red, .arr RED_MIRROR 0 1, .time, .free, .arr (LNK_PORT_STAT 0) 64 8, .arr LNK_ROUTE_STAT 0 1, .arr LNK_ROUTE_CFG 0 1, .lnk, .arr (LNK_PORT_ERR 0) 64 8, .arr (LNK_LANE_STAT 0) 16 32] P) {a1 : _} {a2 : _} {a3 : _} {s4 : State} (h4 : P s4) : ∀ u, execTrainIdentReceived a1 a2 a3 s4 = .next u → P u := by
  unfold execTrainIdentReceived
  refine event_keep k.sub ?_ ?_
  · assumption
  · intro y0
    intro y1
    refine State.trainIdent_keep k.sub ?_
    assumption

theorem State.tellMinimal_keep {P : State → Prop} (k : Keeps [.qm, .log, .mend, .sys] P) {s1 : State} (h1 : P s1) : P (State.tellMinimal s1) := by
  unfold State.tellMinimal
  split
  · refine State.issue_keep k.sub ?_
    refine (k.at .sys) _ _ ?_
    assumption
  · assumption

theorem State.trainReady_keep {P : State → Prop} (k : Keeps [.arr (LNK_PORT_ERR 0) 64 8, .fresh, .qm, .log, .mend, .lnk, .arr (LNK_PORT_STAT 0) 64 8, .tb, .arr (LNK_LANE_STAT 0) 16 32, .sys, .arr LNK_ROUTE_STAT 0 1, .arr LNK_ROUTE_CFG 0 1] P) {s1 : State} {a2 : _} {a3 : _} (h1 : P s1) : P (State.trainReady s1 a2 a3) := by
  unfold State.trainReady
  extract_lets +onlyGivenNames x0
  extract_lets +onlyGivenNames x1
  extract_lets +onlyGivenNames x2
  extract_lets +onlyGivenNames x3
  extract_lets +onlyGivenNames x4
  extract_lets +onlyGivenNames x5
  split
  · assumption
  · extract_lets +onlyGivenNames x6
    have e7 : P x6 := by
      unfold x6
      split
      · refine State.violation_keep k.sub ?_
        assumption
      · assumption
    clear_value x6
    extract_lets +onlyGivenNames x8
    have e9 : P x8 := by
      unfold x8
      refine State.onPort_keep k.sub ?_
      refine State.useLanes_keep k.sub ?_
      assumption
    clear_value x8
    extract_lets +onlyGivenNames x10
    have e11 : P x10 := by
      unfold x10
      refine foldl_keep (fun t12 x13 e14 => ?_) ?_
      · refine State.onLane_keep k.sub ?_
        refine setFld_keep k (LNK_LANE_STAT 0) 16 32 ⟨_, rfl⟩ ?_
        refine setFld_keep k (LNK_LANE_STAT 0) 16 32 ⟨_, rfl⟩ ?_
        assumption
      · assumption
    clear_value x10
    refine State.tellMinimal_keep k.sub ?_
    refine State.setPort_keep k.sub ?_
    assumption

theorem execTrainReadyReceived_keep {P : State → Prop} (k : Keeps [.mend, .qm, .arr CMP_ERR 0 1, .fresh, .log, .guard, .red, .arr RED_MIRROR 0 1, .time, .free, .arr (LNK_PORT_ERR 0) 64 8, .lnk, .arr (LNK_PORT_STAT 0) 64 8, .tb, .arr (LNK_LANE_STAT 0) 16 32, .sys, .arr LNK_ROUTE_STAT 0 1, .arr LNK_ROUTE_CFG 0 1] P) {a1 : _} {a2 : _} {a3 : _} {s4 : State} (h4 : P s4) : ∀ u, execTrainReadyReceived a1 a2 a3 s4 = .next u → P u := by
  unfold execTrainReadyReceived
  refine event_keep k.sub ?_ ?_
  · assumption
  · intro y0
    intro y1
    refine State.trainReady_keep k.sub ?_
    assumption

theorem State.trainTimeout_keep {P : State → Prop} (k : Keeps [.lnk] P) {s1 : State} {a2 : _} (h1 : P s1) : P (State.trainTimeout s1 a2) := by
  unfold State.trainTimeout
  extract_lets +onlyGivenNames x0
  split
  · refine State.onPort_keep k.sub ?_
    assumption
  · assumption

theorem execTrainingTimeout_keep {P : State → Prop} (k : Keeps [.mend, .qm, .arr CMP_ERR 0 1, .fresh, .log, .guard, .red, .arr RED_MIRROR 0 1, .time, .free, .lnk] P) {a1 : _} {a2 : _} {s3 : State} (h3 : P s3) : ∀ u, execTrainingTimeout a1 a2 s3 = .next u → P u := by
  unfold execTrainingTimeout
  refine event_keep k.sub ?_ ?_
  · assumption
  · intro y0
    intro y1
    refine State.trainTimeout_keep k.sub ?_
    assumption

theorem State.trainRestart_keep {P : State → Prop} (k : Keeps [.qm, .lnk, .arr (LNK_PORT_CNT 0) 64 8, .fresh, .arr (LNK_PORT_STAT 0) 64 8, .tb, .arr (LNK_LANE_STAT 0) 16 32, .log, .mend, .arr LNK_ROUTE_STAT 0 1, .arr LNK_ROUTE_CFG 0 1] P) {s1 : State} {a2 : _} (h1 : P s1) : P (State.trainRestart s1 a2) := by
  unfold State.trainRestart
  extract_lets +onlyGivenNames x0
  split
  · refine State.startTraining_keep k.sub ?_
    assumption
  · assumption

theorem execTrainingRestart_keep {P : State → Prop} (k : Keeps [.mend, .qm, .arr CMP_ERR 0 1, .fresh, .log, .guard, .red, .arr RED_MIRROR 0 1, .time, .free, .lnk, .arr (LNK_PORT_CNT 0) 64 8, .arr (LNK_PORT_STAT 0) 64 8, .tb, .arr (LNK_LANE_STAT 0) 16 32, .arr LNK_ROUTE_STAT 0 1, .arr LNK_ROUTE_CFG 0 1] P) {a1 : _} {a2 : _} {s3 : State} (h3 : P s3) : ∀ u, execTrainingRestart a1 a2 s3 = .next u → P u := by
  unfold execTrainingRestart
  refine event_keep k.sub ?_ ?_
  · assumption
  · intro y0
    intro y1
    refine State.trainRestart_keep k.sub ?_
    assumption

theorem State.mismatchAgain_keep {P : State → Prop} (k : Keeps [.lnk, .arr (LNK_PORT_CNT 0) 64 8, .fresh] P) {s1 : State} {a2 : _} (h1 : P s1) : P (State.mismatchAgain s1 a2) := by
  unfold State.mismatchAgain
  split
  · refine State.onPort_keep k.sub ?_
    refine bump_keep k (LNK_PORT_CNT 0) 64 8 ⟨_, rfl⟩ ?_
    assumption
  · assumption

theorem execMismatchRetry_keep {P : State → Prop} (k : Keeps [.mend, .qm, .arr CMP_ERR 0 1, .fresh, .log, .guard, .red, .arr RED_MIRROR 0 1, .time, .free, .lnk, .arr (LNK_PORT_CNT 0) 64 8] P) {a1 : _} {a2 : _} {s3 : State} (h3 : P s3) : ∀ u, execMismatchRetry a1 a2 s3 = .next u → P u := by
  unfold execMismatchRetry
  refine event_keep k.sub ?_ ?_
  · assumption
  · intro y0
    intro y1
    refine State.mismatchAgain_keep k.sub ?_
    assumption

theorem State.countSync_keep {P : State → Prop} (k : Keeps [.arr (LNK_PORT_ERR 0) 64 8, .fresh, .qm, .log, .mend, .lnk, .arr (LNK_LANE_STAT 0) 16 32] P) {s1 : State} {a2 : _} {a3 : _} (h1 : P s1) : P (State.countSync s1 a2 a3) := by
  unfold State.countSync
  extract_lets +onlyGivenNames x0
  refine State.violation_keep k.sub ?_
  refine State.onLane_keep k.sub ?_
  refine bumpBy_keep k (LNK_LANE_STAT 0) 16 32 ⟨_, rfl⟩ ?_
  assumption

theorem State.loseLane_keep {P : State → Prop} (k : Keeps [.arr (LNK_PORT_CNT 0) 64 8, .fresh, .lnk, .arr (LNK_LANE_STAT 0) 16 32, .arr (LNK_PORT_ERR 0) 64 8, .qm, .log, .mend, .arr (LNK_PORT_STAT 0) 64 8, .arr LNK_ROUTE_STAT 0 1, .arr LNK_ROUTE_CFG 0 1, .tb] P) {s1 : State} {a2 : _} {a3 : _} (h1 : P s1) : P (State.loseLane s1 a2 a3) := by
  unfold State.loseLane
  extract_lets +onlyGivenNames x0
  extract_lets +onlyGivenNames x1
  extract_lets +onlyGivenNames x2
  split
  · assumption
  · extract_lets +onlyGivenNames x3
    have e4 : P x3 := by
      unfold x3
      refine bump_keep k (LNK_PORT_CNT 0) 64 8 ⟨_, rfl⟩ ?_
      assumption
    extract_lets +onlyGivenNames x5
    have e6 : P x5 := by
      unfold x5
      refine State.onLane_keep k.sub ?_
      refine setFld_keep k (LNK_LANE_STAT 0) 16 32 ⟨_, rfl⟩ ?_
      assumption
    extract_lets +onlyGivenNames x7
    have e8 : P x7 := by
      unfold x7
      split
      · refine State.countSync_keep k.sub ?_
        refine setFld_keep k (LNK_LANE_STAT 0) 16 32 ⟨_, rfl⟩ ?_
        assumption
      · refine setFld_keep k (LNK_LANE_STAT 0) 16 32 ⟨_, rfl⟩ ?_
        assumption
      · assumption
    extract_lets +onlyGivenNames x9
    extract_lets +onlyGivenNames x10
    have e11 : P x10 := by
      unfold x10
      refine State.onPort_keep k.sub ?_
      assumption
    extract_lets +onlyGivenNames x12
    extract_lets +onlyGivenNames x13
    have e14 : P x13 := by
      unfold x13
      refine State.issue_keep k.sub ?_
      assumption
    clear_value x13
    split
    · refine State.setPort_keep k.sub ?_
      refine State.dropLink_keep k.sub ?_
      refine State.useLanes_keep k.sub ?_
      assumption
    · split
      · refine State.startTraining_keep k.sub ?_
        assumption
      · extract_lets +onlyGivenNames x15
        have e16 : P x15 := by
          unfold x15
          refine State.onPort_keep k.sub ?_
          refine State.sendRestripe_keep k.sub ?_
          refine State.useLanes_keep k.sub ?_
          assumption
        clear_value x15
        refine State.setPort_keep k.sub ?_
        assumption

theorem execLaneLost_keep {P : State → Prop} (k : Keeps [.mend, .qm, .arr CMP_ERR 0 1, .fresh, .log, .guard, .red, .arr RED_MIRROR 0 1, .time, .free, .arr (LNK_PORT_CNT 0) 64 8, .lnk, .arr (LNK_LANE_STAT 0) 16 32, .arr (LNK_PORT_ERR 0) 64 8, .arr (LNK_PORT_STAT 0) 64 8, .arr LNK_ROUTE_STAT 0 1, .arr LNK_ROUTE_CFG 0 1, .tb] P) {a1 : _} {a2 : _} {a3 : _} {s4 : State} (h4 : P s4) : ∀ u, execLaneLost a1 a2 a3 s4 = .next u → P u := by
  unfold execLaneLost
  refine event_keep k.sub ?_ ?_
  · assumption
  · intro y0
    intro y1
    refine State.loseLane_keep k.sub ?_
    assumption

theorem State.restripe_keep {P : State → Prop} (k : Keeps [.lnk, .arr (LNK_PORT_STAT 0) 64 8, .tb, .arr (LNK_LANE_STAT 0) 16 32, .qm, .log, .mend, .arr LNK_ROUTE_STAT 0 1, .arr LNK_ROUTE_CFG 0 1] P) {s1 : State} {a2 : _} {a3 : _} {a4 : _} (h1 : P s1) : P (State.restripe s1 a2 a3 a4) := by
  unfold State.restripe
  split
  · assumption
  · extract_lets +onlyGivenNames x0
    have e1 : P x0 := by
      unfold x0
      refine State.sendRestripe_keep k.sub ?_
      refine State.useLanes_keep k.sub ?_
      assumption
    clear_value x0
    refine State.setPort_keep k.sub ?_
    assumption

theorem execRestripeReceived_keep {P : State → Prop} (k : Keeps [.mend, .qm, .arr CMP_ERR 0 1, .fresh, .log, .guard, .red, .arr RED_MIRROR 0 1, .time, .free, .lnk, .arr (LNK_PORT_STAT 0) 64 8, .tb, .arr (LNK_LANE_STAT 0) 16 32, .arr LNK_ROUTE_STAT 0 1, .arr LNK_ROUTE_CFG 0 1] P) {a1 : _} {a2 : _} {a3 : _} {a4 : _} {s5 : State} (h5 : P s5) : ∀ u, execRestripeReceived a1 a2 a3 a4 s5 = .next u → P u := by
  unfold execRestripeReceived
  refine event_keep k.sub ?_ ?_
  · assumption
  · intro y0
    intro y1
    refine State.restripe_keep k.sub ?_
    assumption

theorem State.readmit_keep {P : State → Prop} (k : Keeps [.lnk, .arr (LNK_LANE_STAT 0) 16 32, .qm, .log, .mend, .arr (LNK_PORT_STAT 0) 64 8, .tb, .arr LNK_ROUTE_STAT 0 1, .arr LNK_ROUTE_CFG 0 1] P) {s1 : State} {a2 : _} {a3 : _} {a4 : _} (h1 : P s1) : P (State.readmit s1 a2 a3 a4) := by
  unfold State.readmit
  extract_lets +onlyGivenNames x0
  extract_lets +onlyGivenNames x1
  extract_lets +onlyGivenNames x2
  split
  · assumption
  · extract_lets +onlyGivenNames x3
    have e4 : P x3 := by
      unfold x3
      refine State.onLane_keep k.sub ?_
      assumption
    clear_value x3
    extract_lets +onlyGivenNames x5
    extract_lets +onlyGivenNames x6
    have e7 : P x6 := by
      unfold x6
      refine State.onPort_keep k.sub ?_
      refine setFld_keep k (LNK_LANE_STAT 0) 16 32 ⟨_, rfl⟩ ?_
      refine setFld_keep k (LNK_LANE_STAT 0) 16 32 ⟨_, rfl⟩ ?_
      assumption
    clear_value x6
    extract_lets +onlyGivenNames x8
    split
    · assumption
    · extract_lets +onlyGivenNames x9
      have e10 : P x9 := by
        unfold x9
        refine State.issue_keep k.sub ?_
        refine State.sendRestripe_keep k.sub ?_
        refine State.useLanes_keep k.sub ?_
        assumption
      clear_value x9
      refine State.setPort_keep k.sub ?_
      assumption

theorem execLaneReadmitted_keep {P : State → Prop} (k : Keeps [.mend, .qm, .arr CMP_ERR 0 1, .fresh, .log, .guard, .red, .arr RED_MIRROR 0 1, .time, .free, .lnk, .arr (LNK_LANE_STAT 0) 16 32, .arr (LNK_PORT_STAT 0) 64 8, .tb, .arr LNK_ROUTE_STAT 0 1, .arr LNK_ROUTE_CFG 0 1] P) {a1 : _} {a2 : _} {a3 : _} {a4 : _} {s5 : State} (h5 : P s5) : ∀ u, execLaneReadmitted a1 a2 a3 a4 s5 = .next u → P u := by
  unfold execLaneReadmitted
  refine event_keep k.sub ?_ ?_
  · assumption
  · intro y0
    intro y1
    refine State.readmit_keep k.sub ?_
    assumption

theorem State.freeze_keep {P : State → Prop} (k : Keeps [.arr (LNK_LANE_STAT 0) 16 32] P) {s1 : State} {a2 : _} (h1 : P s1) : P (State.freeze s1 a2) := by
  unfold State.freeze
  extract_lets +onlyGivenNames x0
  extract_lets +onlyGivenNames x1
  split
  · refine setFld_keep k (LNK_LANE_STAT 0) 16 32 ⟨_, rfl⟩ ?_
    assumption
  · assumption

theorem execIdleFreeze_keep {P : State → Prop} (k : Keeps [.mend, .qm, .arr CMP_ERR 0 1, .fresh, .log, .guard, .red, .arr RED_MIRROR 0 1, .time, .free, .arr (LNK_LANE_STAT 0) 16 32] P) {a1 : _} {a2 : _} {s3 : State} (h3 : P s3) : ∀ u, execIdleFreeze a1 a2 s3 = .next u → P u := by
  unfold execIdleFreeze
  refine event_keep k.sub ?_ ?_
  · assumption
  · intro y0
    intro y1
    refine State.freeze_keep k.sub ?_
    assumption

theorem State.sendRefresh_keep {P : State → Prop} (k : Keeps [.lnk] P) {s1 : State} {a2 : _} (h1 : P s1) : P (State.sendRefresh s1 a2) := by
  unfold State.sendRefresh
  extract_lets +onlyGivenNames x0
  split
  · refine State.onPort_keep k.sub ?_
    refine State.onLane_keep k.sub ?_
    assumption
  · assumption

theorem execIdleRefresh_keep {P : State → Prop} (k : Keeps [.mend, .qm, .arr CMP_ERR 0 1, .fresh, .log, .guard, .red, .arr RED_MIRROR 0 1, .time, .free, .lnk] P) {a1 : _} {a2 : _} {s3 : State} (h3 : P s3) : ∀ u, execIdleRefresh a1 a2 s3 = .next u → P u := by
  unfold execIdleRefresh
  refine event_keep k.sub ?_ ?_
  · assumption
  · intro y0
    intro y1
    refine State.sendRefresh_keep k.sub ?_
    assumption

theorem State.endIdle_keep {P : State → Prop} (k : Keeps [.lnk, .arr (LNK_LANE_STAT 0) 16 32] P) {s1 : State} {a2 : _} (h1 : P s1) : P (State.endIdle s1 a2) := by
  unfold State.endIdle
  refine foldl_keep (fun t0 x1 e2 => ?_) ?_
  · refine State.onLane_keep k.sub ?_
    refine setFld_keep k (LNK_LANE_STAT 0) 16 32 ⟨_, rfl⟩ ?_
    assumption
  · assumption

theorem State.endTxIdle_keep {P : State → Prop} (k : Keeps [.lnk] P) {s1 : State} {a2 : _} (h1 : P s1) : P (State.endTxIdle s1 a2) := by
  unfold State.endTxIdle
  refine foldl_keep (fun t0 x1 e2 => ?_) ?_
  · refine State.onLane_keep k.sub ?_
    assumption
  · assumption

theorem State.startReplay_keep {P : State → Prop} (k : Keeps [.qm, .lnk, .arr (LNK_PORT_CNT 0) 64 8, .fresh, .arr (LNK_PORT_STAT 0) 64 8, .tb, .arr (LNK_LANE_STAT 0) 16 32, .log, .mend, .arr LNK_ROUTE_STAT 0 1, .arr LNK_ROUTE_CFG 0 1, .arr (LNK_PORT_ERR 0) 64 8] P) {s1 : State} {a2 : _} {a3 : _} (h1 : P s1) : P (State.startReplay s1 a2 a3) := by
  unfold State.startReplay
  split
  · refine State.startTraining_keep k.sub ?_
    assumption
  · refine State.onPort_keep k.sub ?_
    refine State.pmc_keep k.sub ?_
    refine bump_keep k (LNK_PORT_ERR 0) 64 8 ⟨_, rfl⟩ ?_
    assumption

theorem State.sendCell_keep {P : State → Prop} (k : Keeps [.log, .qm, .mend, .lnk, .arr (LNK_PORT_RTT 0) 64 8] P) {s1 : State} {a2 : _} {a3 : _} {a4 : _} {a5 : _} {a6 : _} {a7 : _} {a8 : _} (h1 : P s1) : P (State.sendCell s1 a2 a3 a4 a5 a6 a7 a8) := by
  unfold State.sendCell
  extract_lets +onlyGivenNames x0
  extract_lets +onlyGivenNames x1
  extract_lets +onlyGivenNames x2
  have e3 : P x2 := by
    unfold x2
    refine State.pmc_keep k.sub ?_
    refine State.pmc_keep k.sub ?_
    refine State.pmc_keep k.sub ?_
    assumption
  clear_value x2
  extract_lets +onlyGivenNames x4
  have e5 : P x4 := by
    unfold x4
    refine State.onQst_keep k.sub ?_
    assumption
  clear_value x4
  extract_lets +onlyGivenNames x6
  extract_lets +onlyGivenNames x7
  extract_lets +onlyGivenNames x8
  have e9 : P x8 := by
    unfold x8
    refine State.onPort_keep k.sub ?_
    assumption
  clear_value x8
  extract_lets +onlyGivenNames x10
  extract_lets +onlyGivenNames x11
  have e12 : P x11 := by
    unfold x11
    split
    · refine State.insertLine_keep k.sub ?_
      assumption
    · refine State.onPort_keep k.sub ?_
      assumption
  clear_value x11
  extract_lets +onlyGivenNames x13
  have e14 : P x13 := by
    unfold x13
    split
    · refine State.onPort_keep k.sub ?_
      assumption
    · assumption
  clear_value x13
  extract_lets +onlyGivenNames x15
  extract_lets +onlyGivenNames x16
  have e17 : P x16 := by
    unfold x16
    split
    · refine setFld_keep k (LNK_PORT_RTT 0) 64 8 ⟨_, rfl⟩ ?_
      assumption
    · assumption
  clear_value x16
  refine State.endTxIdle_keep k.sub ?_
  assumption

theorem State.replyLeft_keep {P : State → Prop} (k : Keeps [.cmd, .sys] P) {s1 : State} {a2 : _} (h1 : P s1) : P (State.replyLeft s1 a2) := by
  unfold State.replyLeft
  split
  · split
    · refine (k.at .cmd) _ _ ?_
      refine (k.at .sys) _ _ ?_
      assumption
    · assumption
  · assumption

theorem State.startCell_keep {P : State → Prop} (k : Keeps [.qm, .fresh, .log, .mend, .arr (MEM_ERR 0) 32 5, .arr (MEM_ERR_INFO 0) 32 5, .free, .arr (MEM_ERR_ADDR 0) 32 5, .arr (MEM_ERR_ADDR 0 + 4) 32 5, .mem, .lnk, .arr (LNK_PORT_RTT 0) 64 8, .cmd, .sys] P) {s1 : State} {a2 : _} {a3 : _} (h1 : P s1) : P (State.startCell s1 a2 a3) := by
  unfold State.startCell
  extract_lets +onlyGivenNames x0
  split
  · refine State.underrun_keep k.sub ?_
    assumption
  · split
    · assumption
    · extract_lets +onlyGivenNames x1
      have e2 : P x1 := by
        unfold x1
        refine State.onQst_keep k.sub ?_
        assumption
      clear_value x1
      extract_lets +onlyGivenNames x3
      split
      · split
        · refine State.dropRec_keep k.sub ?_
          refine State.memReadRange_keep k.sub ?_
          assumption
        · refine State.memReadRange_keep k.sub ?_
          assumption
      · extract_lets +onlyGivenNames x4
        have e5 : P x4 := by
          unfold x4
          refine State.sendCell_keep k.sub ?_
          refine State.memReadRange_keep k.sub ?_
          assumption
        clear_value x4
        refine State.onRec_keep k.sub ?_
        assumption
    · extract_lets +onlyGivenNames x6
      extract_lets +onlyGivenNames x7
      extract_lets +onlyGivenNames x8
      split
      · unfold x6
        refine (k.at .qm) _ _ ?_
        assumption
      · split
        · unfold x6
          refine (k.at .qm) _ _ ?_
          refine State.memReadRange_keep k.sub ?_
          assumption
        · extract_lets +onlyGivenNames x9
          extract_lets +onlyGivenNames x10
          have e11 : P x10 := by
            unfold x10
            refine State.sendCell_keep k.sub ?_
            refine State.memReadRange_keep k.sub ?_
            assumption
          clear_value x10
          extract_lets +onlyGivenNames x12
          have e13 : P x12 := by
            unfold x12
            refine (k.at .qm) _ _ ?_
            assumption
          clear_value x12
          extract_lets +onlyGivenNames x14
          have e15 : P x14 := by
            unfold x14
            split
            · refine State.onQst_keep k.sub ?_
              assumption
            · assumption
          clear_value x14
          split
          · refine State.replyLeft_keep k.sub ?_
            assumption
          · assumption

theorem State.replayCell_keep {P : State → Prop} (k : Keeps [.lnk, .log, .qm, .mend] P) {s1 : State} {a2 : _} {a3 : _} (h1 : P s1) : P (State.replayCell s1 a2 a3) := by
  unfold State.replayCell
  extract_lets +onlyGivenNames x0
  extract_lets +onlyGivenNames x1
  have e2 : P x1 := by
    unfold x1
    refine State.onPort_keep k.sub ?_
    assumption
  clear_value x1
  refine State.endTxIdle_keep k.sub ?_
  refine State.pmc_keep k.sub ?_
  assumption

theorem State.replayNext_keep {P : State → Prop} (k : Keeps [.lnk, .log, .qm, .mend] P) {s1 : State} {a2 : _} {a3 : _} (h1 : P s1) : P (State.replayNext s1 a2 a3) := by
  unfold State.replayNext
  split
  · refine State.replayCell_keep k.sub ?_
    assumption
  · refine State.onPort_keep k.sub ?_
    assumption

theorem State.egress_keep {P : State → Prop} (k : Keeps [.lnk, .qm, .fresh, .log, .mend, .arr (MEM_ERR 0) 32 5, .arr (MEM_ERR_INFO 0) 32 5, .free, .arr (MEM_ERR_ADDR 0) 32 5, .arr (MEM_ERR_ADDR 0 + 4) 32 5, .mem, .arr (LNK_PORT_RTT 0) 64 8, .cmd, .sys] P) {s1 : State} {a2 : _} (h1 : P s1) : P (State.egress s1 a2) := by
  unfold State.egress
  split
  · assumption
  · extract_lets +onlyGivenNames x0
    have e1 : P x0 := by
      unfold x0
      refine State.tidyLine_keep k.sub ?_
      assumption
    clear_value x0
    extract_lets +onlyGivenNames x2
    extract_lets +onlyGivenNames x3
    split
    · split
      · refine State.startCell_keep k.sub ?_
        assumption
      · assumption
    · split
      · refine State.replayNext_keep k.sub ?_
        assumption
      · split
        · assumption
        · split
          · refine State.startCell_keep k.sub ?_
            assumption
          · assumption

theorem execEgressCellStart_keep {P : State → Prop} (k : Keeps [.mend, .qm, .arr CMP_ERR 0 1, .fresh, .log, .guard, .red, .arr RED_MIRROR 0 1, .time, .free, .lnk, .arr (MEM_ERR 0) 32 5, .arr (MEM_ERR_INFO 0) 32 5, .arr (MEM_ERR_ADDR 0) 32 5, .arr (MEM_ERR_ADDR 0 + 4) 32 5, .mem, .arr (LNK_PORT_RTT 0) 64 8, .cmd, .sys] P) {a1 : _} {a2 : _} {s3 : State} (h3 : P s3) : ∀ u, execEgressCellStart a1 a2 s3 = .next u → P u := by
  unfold execEgressCellStart
  refine event_keep k.sub ?_ ?_
  · assumption
  · intro y0
    intro y1
    refine State.egress_keep k.sub ?_
    assumption

theorem State.nak_keep {P : State → Prop} (k : Keeps [.lnk] P) {s1 : State} {a2 : _} (h1 : P s1) : P (State.nak s1 a2) := by
  unfold State.nak
  refine State.onPort_keep k.sub ?_
  assumption

theorem State.routeCell_keep {P : State → Prop} (k : Keeps [.red, .qm, .mend] P) {s1 : State} {a2 : _} {a3 : _} (h1 : P s1) : P (State.routeCell s1 a2 a3) := by
  unfold State.routeCell
  split
  · extract_lets +onlyGivenNames x0
    extract_lets +onlyGivenNames x1
    refine (k.at .red) _ _ ?_
    assumption
  · split
    · assumption
    · split
      · split
        · refine State.holdItem_keep k.sub ?_
          assumption
        · refine State.enqueue_keep k.sub ?_
          assumption
      · refine State.holdItem_keep k.sub ?_
        assumption

theorem State.stompOn_keep {P : State → Prop} (k : Keeps [.lnk, .log, .qm, .mend, .arr (LNK_PORT_RTT 0) 64 8] P) {s1 : State} {a2 : _} {a3 : _} (h1 : P s1) : P (State.stompOn s1 a2 a3) := by
  unfold State.stompOn
  extract_lets +onlyGivenNames x0
  have e1 : P x0 := by
    unfold x0
    refine State.tidyLine_keep k.sub ?_
    assumption
  clear_value x0
  extract_lets +onlyGivenNames x2
  split
  · refine State.sendCell_keep k.sub ?_
    assumption
  · assumption

theorem State.cellEnd_keep {P : State → Prop} (k : Keeps [.lnk, .arr (LNK_PORT_ERR 0) 64 8, .fresh, .qm, .log, .mend, .arr (LNK_PORT_RTT 0) 64 8, .arr (LNK_PORT_CNT 0) 64 8, .arr (LNK_PORT_STAT 0) 64 8, .tb, .arr (LNK_LANE_STAT 0) 16 32, .arr LNK_ROUTE_STAT 0 1, .arr LNK_ROUTE_CFG 0 1, .red] P) {s1 : State} {a2 : _} {a3 : _} {a4 : _} {a5 : _} {a6 : _} {a7 : _} (h1 : P s1) : P (State.cellEnd s1 a2 a3 a4 a5 a6 a7) := by
  unfold State.cellEnd
  extract_lets +onlyGivenNames x0
  extract_lets +onlyGivenNames x1
  extract_lets +onlyGivenNames x2
  extract_lets +onlyGivenNames x3
  have e4 : P x3 := by
    unfold x3
    split
    · assumption
    · refine State.onPort_keep k.sub ?_
      assumption
  clear_value x3
  split
  · refine State.nak_keep k.sub ?_
    refine State.violation_keep k.sub ?_
    assumption
  · split
    · split
      · refine foldl_keep (fun t5 x6 e7 => ?_) ?_
        · refine State.stompOn_keep k.sub ?_
          assumption
        · refine State.nak_keep k.sub ?_
          refine State.violation_keep k.sub ?_
          refine bump_keep k (LNK_PORT_ERR 0) 64 8 ⟨_, rfl⟩ ?_
          assumption
      · split
        · split
          · refine State.onPort_keep k.sub ?_
            split
            · assumption
            · refine State.violation_keep k.sub ?_
              assumption
          · split
            · assumption
            · refine State.nak_keep k.sub ?_
              refine State.violation_keep k.sub ?_
              assumption
        · split
          · extract_lets +onlyGivenNames x8
            have e9 : P x8 := by
              unfold x8
              refine State.onPort_keep k.sub ?_
              refine State.violation_keep k.sub ?_
              assumption
            clear_value x8
            split
            · refine State.startTraining_keep k.sub ?_
              assumption
            · refine State.nak_keep k.sub ?_
              assumption
          · extract_lets +onlyGivenNames x10
            have e11 : P x10 := by
              unfold x10
              refine State.onPort_keep k.sub ?_
              assumption
            clear_value x10
            refine foldl_keep (fun t12 x13 e14 => ?_) ?_
            · refine State.stompOn_keep k.sub ?_
              assumption
            · assumption
    · split
      · refine foldl_keep (fun t15 x16 e17 => ?_) ?_
        · refine State.stompOn_keep k.sub ?_
          assumption
        · refine State.nak_keep k.sub ?_
          refine State.violation_keep k.sub ?_
          refine bump_keep k (LNK_PORT_ERR 0) 64 8 ⟨_, rfl⟩ ?_
          assumption
      · split
        · split
          · refine State.onPort_keep k.sub ?_
            split
            · assumption
            · refine State.violation_keep k.sub ?_
              assumption
          · split
            · assumption
            · refine State.nak_keep k.sub ?_
              refine State.violation_keep k.sub ?_
              assumption
        · split
          · extract_lets +onlyGivenNames x18
            have e19 : P x18 := by
              unfold x18
              refine State.onPort_keep k.sub ?_
              refine State.violation_keep k.sub ?_
              assumption
            clear_value x18
            split
            · refine State.startTraining_keep k.sub ?_
              assumption
            · refine State.nak_keep k.sub ?_
              assumption
          · extract_lets +onlyGivenNames x20
            have e21 : P x20 := by
              unfold x20
              refine State.onPort_keep k.sub ?_
              assumption
            clear_value x20
            extract_lets +onlyGivenNames x22
            have e23 : P x22 := by
              unfold x22
              refine State.pmc_keep k.sub ?_
              assumption
            clear_value x22
            split
            · refine State.violation_keep k.sub ?_
              assumption
            · split
              · assumption
              · refine State.routeCell_keep k.sub ?_
                assumption

theorem State.cellStart_keep {P : State → Prop} (k : Keeps [.lnk, .arr (LNK_LANE_STAT 0) 16 32, .arr (LNK_PORT_ERR 0) 64 8, .fresh, .qm, .log, .mend] P) {s1 : State} {a2 : _} {a3 : _} {a4 : _} (h1 : P s1) : P (State.cellStart s1 a2 a3 a4) := by
  unfold State.cellStart
  extract_lets +onlyGivenNames x0
  have e1 : P x0 := by
    unfold x0
    refine State.endIdle_keep k.sub ?_
    assumption
  clear_value x0
  extract_lets +onlyGivenNames x2
  extract_lets +onlyGivenNames x3
  split
  · refine State.onPort_keep k.sub ?_
    assumption
  · refine State.onPort_keep k.sub ?_
    refine State.nak_keep k.sub ?_
    refine State.violation_keep k.sub ?_
    assumption

theorem State.alignIn_keep {P : State → Prop} (k : Keeps [.lnk, .arr (LNK_PORT_ERR 0) 64 8, .fresh, .qm, .log, .mend, .arr (LNK_LANE_STAT 0) 16 32] P) {s1 : State} {a2 : _} {a3 : _} {a4 : _} {a5 : _} {a6 : _} {a7 : _} (h1 : P s1) : P (State.alignIn s1 a2 a3 a4 a5 a6 a7) := by
  unfold State.alignIn
  split
  · refine State.onLane_keep k.sub ?_
    assumption
  · extract_lets +onlyGivenNames x0
    have e1 : P x0 := by
      unfold x0
      refine State.onLane_keep k.sub ?_
      assumption
    clear_value x0
    split
    · refine State.onLane_keep k.sub ?_
      assumption
    · refine State.violation_keep k.sub ?_
      refine State.onLane_keep k.sub ?_
      refine bump_keep k (LNK_LANE_STAT 0) 16 32 ⟨_, rfl⟩ ?_
      assumption

theorem State.blockIn_keep {P : State → Prop} (k : Keeps [.arr (LNK_PORT_ERR 0) 64 8, .fresh, .qm, .log, .mend, .lnk, .arr (LNK_LANE_STAT 0) 16 32, .arr (LNK_PORT_RTT 0) 64 8, .arr (LNK_PORT_CNT 0) 64 8, .arr (LNK_PORT_STAT 0) 64 8, .tb, .arr LNK_ROUTE_STAT 0 1, .arr LNK_ROUTE_CFG 0 1, .red] P) {a1 : _} {s2 : State} {a3 : _} (h2 : P s2) : P (State.blockIn a1 s2 a3) := by
  unfold State.blockIn
  extract_lets +onlyGivenNames x0
  split
  · assumption
  · split
    · refine State.countSync_keep k.sub ?_
      assumption
    · refine State.violation_keep k.sub ?_
      assumption
    · assumption
    · refine State.alignIn_keep k.sub ?_
      assumption
    · refine State.cellStart_keep k.sub ?_
      assumption
    · assumption
    · split
      · assumption
      · refine State.onPort_keep k.sub ?_
        refine State.nak_keep k.sub ?_
        refine State.violation_keep k.sub ?_
        assumption
    · refine State.nak_keep k.sub ?_
      refine State.violation_keep k.sub ?_
      assumption
    · refine State.onPort_keep k.sub ?_
      assumption
    · refine State.nak_keep k.sub ?_
      refine State.violation_keep k.sub ?_
      assumption
    · extract_lets +onlyGivenNames x1
      have e2 : P x1 := by
        unfold x1
        refine State.onPort_keep k.sub ?_
        assumption
      clear_value x1
      split
      · assumption
      · refine State.cellEnd_keep k.sub ?_
        assumption

theorem State.cellIn_keep {P : State → Prop} (k : Keeps [.arr (LNK_PORT_ERR 0) 64 8, .fresh, .qm, .log, .mend, .lnk, .arr (LNK_LANE_STAT 0) 16 32, .arr (LNK_PORT_RTT 0) 64 8, .arr (LNK_PORT_CNT 0) 64 8, .arr (LNK_PORT_STAT 0) 64 8, .tb, .arr LNK_ROUTE_STAT 0 1, .arr LNK_ROUTE_CFG 0 1, .red] P) {s1 : State} {a2 : _} {a3 : _} (h1 : P s1) : P (State.cellIn s1 a2 a3) := by
  unfold State.cellIn
  refine foldl_keep (fun t0 x1 e2 => ?_) ?_
  · refine State.blockIn_keep k.sub ?_
    assumption
  · assumption

theorem execCellReceived_keep {P : State → Prop} (k : Keeps [.mend, .qm, .arr CMP_ERR 0 1, .fresh, .log, .guard, .red, .arr RED_MIRROR 0 1, .time, .free, .arr (LNK_PORT_ERR 0) 64 8, .lnk, .arr (LNK_LANE_STAT 0) 16 32, .arr (LNK_PORT_RTT 0) 64 8, .arr (LNK_PORT_CNT 0) 64 8, .arr (LNK_PORT_STAT 0) 64 8, .tb, .arr LNK_ROUTE_STAT 0 1, .arr LNK_ROUTE_CFG 0 1] P) {a1 : _} {a2 : _} {a3 : _} {s4 : State} (h4 : P s4) : ∀ u, execCellReceived a1 a2 a3 s4 = .next u → P u := by
  unfold execCellReceived
  refine event_keep k.sub ?_ ?_
  · assumption
  · intro y0
    intro y1
    refine State.cellIn_keep k.sub ?_
    assumption

theorem State.acked_keep {P : State → Prop} (k : Keeps [.qm] P) {s1 : State} {a2 : _} (h1 : P s1) : P (State.acked s1 a2) := by
  unfold State.acked
  split
  · assumption
  · split
    · split
      · split
        · refine State.freeRec_keep k.sub ?_
          assumption
        · refine State.onRec_keep k.sub ?_
          assumption
      · assumption
    · refine (k.at .qm) _ _ ?_
      assumption
    · assumption

theorem State.linkIn_keep {P : State → Prop} (k : Keeps [.lnk, .arr (LNK_PORT_ERR 0) 64 8, .fresh, .qm, .log, .mend, .arr (LNK_PORT_CNT 0) 64 8, .arr (LNK_PORT_STAT 0) 64 8, .tb, .arr (LNK_LANE_STAT 0) 16 32, .arr LNK_ROUTE_STAT 0 1, .arr LNK_ROUTE_CFG 0 1, .arr (LNK_PORT_RTT 0) 64 8] P) {s1 : State} {a2 : _} {a3 : _} (h1 : P s1) : P (State.linkIn s1 a2 a3) := by
  unfold State.linkIn
  extract_lets +onlyGivenNames x0
  split
  · assumption
  · extract_lets +onlyGivenNames x1
    have e2 : P x1 := by
      unfold x1
      refine State.onLane_keep k.sub ?_
      assumption
    clear_value x1
    extract_lets +onlyGivenNames x3
    extract_lets +onlyGivenNames x4
    extract_lets +onlyGivenNames x5
    extract_lets +onlyGivenNames x6
    split
    · extract_lets +onlyGivenNames x7
      have e8 : P x7 := by
        unfold x7
        refine State.onPort_keep k.sub ?_
        refine State.violation_keep k.sub ?_
        assumption
      clear_value x7
      split
      · refine State.startTraining_keep k.sub ?_
        assumption
      · assumption
    · split
      · refine State.violation_keep k.sub ?_
        assumption
      · extract_lets +onlyGivenNames x9
        extract_lets +onlyGivenNames x10
        have e11 : P x10 := by
          unfold x10
          refine foldl_keep (fun t12 x13 e14 => ?_) ?_
          · refine State.acked_keep k.sub ?_
            assumption
          · assumption
        clear_value x10
        extract_lets +onlyGivenNames x15
        have e16 : P x15 := by
          unfold x15
          split
          · refine setFld_keep k (LNK_PORT_RTT 0) 64 8 ⟨_, rfl⟩ ?_
            assumption
          · assumption
        clear_value x15
        extract_lets +onlyGivenNames x17
        extract_lets +onlyGivenNames x18
        have e19 : P x18 := by
          unfold x18
          refine State.onPort_keep k.sub ?_
          assumption
        clear_value x18
        split
        · refine State.startReplay_keep k.sub ?_
          assumption
        · assumption

theorem execLinkBlockReceived_keep {P : State → Prop} (k : Keeps [.mend, .qm, .arr CMP_ERR 0 1, .fresh, .log, .guard, .red, .arr RED_MIRROR 0 1, .time, .free, .lnk, .arr (LNK_PORT_ERR 0) 64 8, .arr (LNK_PORT_CNT 0) 64 8, .arr (LNK_PORT_STAT 0) 64 8, .tb, .arr (LNK_LANE_STAT 0) 16 32, .arr LNK_ROUTE_STAT 0 1, .arr LNK_ROUTE_CFG 0 1, .arr (LNK_PORT_RTT 0) 64 8] P) {a1 : _} {a2 : _} {a3 : _} {s4 : State} (h4 : P s4) : ∀ u, execLinkBlockReceived a1 a2 a3 s4 = .next u → P u := by
  unfold execLinkBlockReceived
  refine event_keep k.sub ?_ ?_
  · assumption
  · intro y0
    intro y1
    refine State.linkIn_keep k.sub ?_
    assumption

theorem State.linkOut_keep {P : State → Prop} (k : Keeps [.lnk] P) {s1 : State} {a2 : _} (h1 : P s1) : P (State.linkOut s1 a2) := by
  unfold State.linkOut
  extract_lets +onlyGivenNames x0
  extract_lets +onlyGivenNames x1
  split
  · assumption
  · extract_lets +onlyGivenNames x2
    have e3 : P x2 := by
      unfold x2
      refine State.tidyLine_keep k.sub ?_
      assumption
    clear_value x2
    extract_lets +onlyGivenNames x4
    extract_lets +onlyGivenNames x5
    extract_lets +onlyGivenNames x6
    extract_lets +onlyGivenNames x7
    have e8 : P x7 := by
      unfold x7
      refine State.onLane_keep k.sub ?_
      refine State.insertLine_keep k.sub ?_
      assumption
    clear_value x7
    refine State.onPort_keep k.sub ?_
    assumption

theorem execLinkBlockSend_keep {P : State → Prop} (k : Keeps [.mend, .qm, .arr CMP_ERR 0 1, .fresh, .log, .guard, .red, .arr RED_MIRROR 0 1, .time, .free, .lnk] P) {a1 : _} {a2 : _} {s3 : State} (h3 : P s3) : ∀ u, execLinkBlockSend a1 a2 s3 = .next u → P u := by
  unfold execLinkBlockSend
  refine event_keep k.sub ?_ ?_
  · assumption
  · intro y0
    intro y1
    refine State.linkOut_keep k.sub ?_
    assumption

theorem State.replayLate_keep {P : State → Prop} (k : Keeps [.qm, .lnk, .arr (LNK_PORT_CNT 0) 64 8, .fresh, .arr (LNK_PORT_STAT 0) 64 8, .tb, .arr (LNK_LANE_STAT 0) 16 32, .log, .mend, .arr LNK_ROUTE_STAT 0 1, .arr LNK_ROUTE_CFG 0 1, .arr (LNK_PORT_ERR 0) 64 8] P) {s1 : State} {a2 : _} (h1 : P s1) : P (State.replayLate s1 a2) := by
  unfold State.replayLate
  extract_lets +onlyGivenNames x0
  split
  · extract_lets +onlyGivenNames x1
    split
    · refine State.startReplay_keep k.sub ?_
      assumption
    · assumption
  · assumption

theorem execReplayTimeout_keep {P : State → Prop} (k : Keeps [.mend, .qm, .arr CMP_ERR 0 1, .fresh, .log, .guard, .red, .arr RED_MIRROR 0 1, .time, .free, .lnk, .arr (LNK_PORT_CNT 0) 64 8, .arr (LNK_PORT_STAT 0) 64 8, .tb, .arr (LNK_LANE_STAT 0) 16 32, .arr LNK_ROUTE_STAT 0 1, .arr LNK_ROUTE_CFG 0 1, .arr (LNK_PORT_ERR 0) 64 8] P) {a1 : _} {a2 : _} {s3 : State} (h3 : P s3) : ∀ u, execReplayTimeout a1 a2 s3 = .next u → P u := by
  unfold execReplayTimeout
  refine event_keep k.sub ?_ ?_
  · assumption
  · intro y0
    intro y1
    refine State.replayLate_keep k.sub ?_
    assumption

theorem State.linkRefresh_keep {P : State → Prop} (k : Keeps [.arr LNK_ROUTE_CFG 0 1, .lnk, .mend, .qm] P) {s1 : State} (h1 : P s1) : P (State.linkRefresh s1) := by
  unfold State.linkRefresh
  split
  · refine State.sendLinkState_keep k.sub ?_
    assumption
  · assumption

theorem execLinkStateRefresh_keep {P : State → Prop} (k : Keeps [.mend, .qm, .arr CMP_ERR 0 1, .fresh, .log, .guard, .red, .arr RED_MIRROR 0 1, .time, .free, .arr LNK_ROUTE_CFG 0 1, .lnk] P) {a1 : _} {s2 : State} (h2 : P s2) : ∀ u, execLinkStateRefresh a1 s2 = .next u → P u := by
  unfold execLinkStateRefresh
  refine event_keep k.sub ?_ ?_
  · assumption
  · intro y0
    intro y1
    refine State.linkRefresh_keep k.sub ?_
    assumption

theorem State.retryHeld_keep {P : State → Prop} (k : Keeps [.qm, .mend] P) {s1 : State} (h1 : P s1) : P (State.retryHeld s1) := by
  unfold State.retryHeld
  extract_lets +onlyGivenNames x0
  refine foldl_keep (fun t1 x2 e3 => ?_) ?_
  · split
    · extract_lets +onlyGivenNames x4
      split
      · refine (k.at .qm) _ _ ?_
        assumption
      · refine foldl_keep (fun t5 x6 e7 => ?_) ?_
        · refine State.pushC_keep k.sub ?_
          assumption
        · assumption
    · split
      · split
        · refine (k.at .qm) _ _ ?_
          assumption
        · refine State.enqueue_keep k.sub ?_
          assumption
      · refine (k.at .qm) _ _ ?_
        assumption
    · assumption
  · refine (k.at .qm) _ _ ?_
    assumption

theorem State.linkStateIn_keep {P : State → Prop} (k : Keeps [.lnk, .qm, .mend, .arr LNK_ROUTE_STAT 0 1, .arr LNK_ROUTE_CFG 0 1, .log] P) {s1 : State} {a2 : _} {a3 : _} (h1 : P s1) : P (State.linkStateIn s1 a2 a3) := by
  unfold State.linkStateIn
  extract_lets +onlyGivenNames x0
  split
  · assumption
  · split
    · split
      · unfold State.linkStateIn.flood
        extract_lets +onlyGivenNames x1
        have e2 : P x1 := by
          unfold x1
          refine (k.at .lnk) _ _ ?_
          assumption
        clear_value x1
        refine State.retryHeld_keep k.sub ?_
        refine State.reroute_keep k.sub ?_
        refine foldl_keep (fun t3 x4 e5 => ?_) ?_
        · refine State.pushT_keep k.sub ?_
          assumption
        · assumption
      · split
        · refine (k.at .lnk) _ _ ?_
          assumption
        · assumption
    · unfold State.linkStateIn.flood
      extract_lets +onlyGivenNames x6
      have e7 : P x6 := by
        unfold x6
        refine (k.at .lnk) _ _ ?_
        assumption
      clear_value x6
      refine State.retryHeld_keep k.sub ?_
      refine State.reroute_keep k.sub ?_
      refine foldl_keep (fun t8 x9 e10 => ?_) ?_
      · refine State.pushT_keep k.sub ?_
        assumption
      · assumption

theorem execLinkStateReceived_keep {P : State → Prop} (k : Keeps [.mend, .qm, .arr CMP_ERR 0 1, .fresh, .log, .guard, .red, .arr RED_MIRROR 0 1, .time, .free, .lnk, .arr LNK_ROUTE_STAT 0 1, .arr LNK_ROUTE_CFG 0 1] P) {a1 : _} {a2 : _} {a3 : _} {s4 : State} (h4 : P s4) : ∀ u, execLinkStateReceived a1 a2 a3 s4 = .next u → P u := by
  unfold execLinkStateReceived
  refine event_keep k.sub ?_ ?_
  · assumption
  · intro y0
    intro y1
    refine State.linkStateIn_keep k.sub ?_
    assumption

theorem State.linkExpire_keep {P : State → Prop} (k : Keeps [.qm, .mend, .arr LNK_ROUTE_STAT 0 1, .arr LNK_ROUTE_CFG 0 1, .lnk, .log] P) {s1 : State} {a2 : _} (h1 : P s1) : P (State.linkExpire s1 a2) := by
  unfold State.linkExpire
  split
  · refine State.retryHeld_keep k.sub ?_
    refine State.reroute_keep k.sub ?_
    refine (k.at .lnk) _ _ ?_
    assumption
  · assumption

theorem execLinkStateExpiry_keep {P : State → Prop} (k : Keeps [.mend, .qm, .arr CMP_ERR 0 1, .fresh, .log, .guard, .red, .arr RED_MIRROR 0 1, .time, .free, .arr LNK_ROUTE_STAT 0 1, .arr LNK_ROUTE_CFG 0 1, .lnk] P) {a1 : _} {a2 : _} {s3 : State} (h3 : P s3) : ∀ u, execLinkStateExpiry a1 a2 s3 = .next u → P u := by
  unfold execLinkStateExpiry
  refine event_keep k.sub ?_ ?_
  · assumption
  · intro y0
    intro y1
    refine State.linkExpire_keep k.sub ?_
    assumption

theorem State.holdExpire_keep {P : State → Prop} (k : Keeps [.qm, .mend, .arr LNK_ROUTE_STAT 0 1, .fresh] P) {s1 : State} (h1 : P s1) : P (State.holdExpire s1) := by
  unfold State.holdExpire
  extract_lets +onlyGivenNames x0
  have e1 : P x0 := by
    unfold x0
    refine State.retryHeld_keep k.sub ?_
    assumption
  clear_value x0
  extract_lets +onlyGivenNames x2
  extract_lets +onlyGivenNames x3
  extract_lets +onlyGivenNames x4
  refine bumpBy_keep k LNK_ROUTE_STAT 0 1 ⟨0, rfl⟩ ?_
  refine (k.at .qm) _ _ ?_
  assumption

theorem execTransitHoldExpiry_keep {P : State → Prop} (k : Keeps [.mend, .qm, .arr CMP_ERR 0 1, .fresh, .log, .guard, .red, .arr RED_MIRROR 0 1, .time, .free, .arr LNK_ROUTE_STAT 0 1] P) {a1 : _} {s2 : State} (h2 : P s2) : ∀ u, execTransitHoldExpiry a1 s2 = .next u → P u := by
  unfold execTransitHoldExpiry
  refine event_keep k.sub ?_ ?_
  · assumption
  · intro y0
    intro y1
    refine State.holdExpire_keep k.sub ?_
    assumption

theorem State.moduleRead_keep {P : State → Prop} (k : Keeps [.lnk, .arr (LNK_MOD_STAT 0) 16 8, .arr (LNK_LANE_STAT 0) 16 32, .qm, .log, .mend, .arr (LNK_PORT_CNT 0) 64 8, .fresh, .arr (LNK_PORT_ERR 0) 64 8, .arr (LNK_PORT_STAT 0) 64 8, .arr LNK_ROUTE_STAT 0 1, .arr LNK_ROUTE_CFG 0 1, .tb] P) {s1 : State} {a2 : _} {a3 : _} (h1 : P s1) : P (State.moduleRead s1 a2 a3) := by
  unfold State.moduleRead
  extract_lets +onlyGivenNames x0
  split
  · assumption
  · extract_lets +onlyGivenNames x1
    extract_lets +onlyGivenNames x2
    extract_lets +onlyGivenNames x3
    extract_lets +onlyGivenNames x4
    have e5 : P x4 := by
      unfold x4
      refine (k.at .lnk) _ _ ?_
      assumption
    clear_value x4
    extract_lets +onlyGivenNames x6
    have e7 : P x6 := by
      unfold x6
      refine setFld_keep k (LNK_MOD_STAT 0) 16 8 ⟨_, rfl⟩ ?_
      refine setFld_keep k (LNK_MOD_STAT 0) 16 8 ⟨_, rfl⟩ ?_
      refine setFld_keep k (LNK_MOD_STAT 0) 16 8 ⟨_, rfl⟩ ?_
      refine setFld_keep k (LNK_MOD_STAT 0) 16 8 ⟨_, rfl⟩ ?_
      refine setFld_keep k (LNK_MOD_STAT 0) 16 8 ⟨_, rfl⟩ ?_
      assumption
    clear_value x6
    extract_lets +onlyGivenNames x8
    have e9 : P x8 := by
      unfold x8
      refine foldl_keep (fun t10 x11 e12 => ?_) ?_
      · refine setFld_keep k (LNK_LANE_STAT 0) 16 32 ⟨_, rfl⟩ ?_
        assumption
      · assumption
    clear_value x8
    extract_lets +onlyGivenNames x13
    extract_lets +onlyGivenNames x14
    extract_lets +onlyGivenNames x15
    have e16 : P x15 := by
      unfold x15
      split
      · refine State.issue_keep k.sub ?_
        assumption
      · assumption
    clear_value x15
    refine foldl_keep (fun t17 x18 e19 => ?_) ?_
    · refine State.loseLane_keep k.sub ?_
      assumption
    · assumption

theorem execModulePoll_keep {P : State → Prop} (k : Keeps [.mend, .qm, .arr CMP_ERR 0 1, .fresh, .log, .guard, .red, .arr RED_MIRROR 0 1, .time, .free, .lnk, .arr (LNK_MOD_STAT 0) 16 8, .arr (LNK_LANE_STAT 0) 16 32, .arr (LNK_PORT_CNT 0) 64 8, .arr (LNK_PORT_ERR 0) 64 8, .arr (LNK_PORT_STAT 0) 64 8, .arr LNK_ROUTE_STAT 0 1, .arr LNK_ROUTE_CFG 0 1, .tb] P) {a1 : _} {a2 : _} {a3 : _} {s4 : State} (h4 : P s4) : ∀ u, execModulePoll a1 a2 a3 s4 = .next u → P u := by
  unfold execModulePoll
  refine event_keep k.sub ?_ ?_
  · assumption
  · intro y0
    intro y1
    refine State.moduleRead_keep k.sub ?_
    assumption

theorem State.configurePort_keep {P : State → Prop} (k : Keeps [.qm, .arr (LNK_PORT_CREDIT 0) 64 8, .arr (LNK_PORT_CFG 0) 64 8, .lnk, .arr (LNK_PORT_STAT 0) 64 8, .log, .mend, .arr LNK_ROUTE_STAT 0 1, .arr LNK_ROUTE_CFG 0 1, .tb, .arr (LNK_LANE_STAT 0) 16 32, .arr (LNK_PORT_CNT 0) 64 8, .fresh] P) {s1 : State} {a2 : _} {a3 : _} {a4 : _} (h1 : P s1) : P (State.configurePort s1 a2 a3 a4) := by
  unfold State.configurePort
  extract_lets +onlyGivenNames x0
  extract_lets +onlyGivenNames x1
  extract_lets +onlyGivenNames x2
  have e3 : P x2 := by
    unfold x2
    refine (k.at .qm) _ _ ?_
    refine (k.at (.arr (LNK_PORT_CREDIT 0) 64 8)) _ _ _ ⟨_, rfl⟩ ?_
    refine (k.at (.arr (LNK_PORT_CFG 0) 64 8)) _ _ _ ⟨_, rfl⟩ ?_
    assumption
  clear_value x2
  extract_lets +onlyGivenNames x4
  have e5 : P x4 := by
    unfold x4
    refine State.onPort_keep k.sub ?_
    assumption
  clear_value x4
  extract_lets +onlyGivenNames x6
  split
  · split
    · assumption
    · refine State.setPort_keep k.sub ?_
      refine State.dropLink_keep k.sub ?_
      refine State.useLanes_keep k.sub ?_
      assumption
  · split
    · split
      · assumption
      · refine State.setPort_keep k.sub ?_
        refine State.dropLink_keep k.sub ?_
        refine State.useLanes_keep k.sub ?_
        assumption
    · split
      · refine State.startTraining_keep k.sub ?_
        assumption
      · split
        · refine State.startTraining_keep k.sub ?_
          assumption
        · assumption

theorem bodyPortConfig_keep {P : State → Prop} (k : Keeps [.qm, .arr (LNK_PORT_CREDIT 0) 64 8, .arr (LNK_PORT_CFG 0) 64 8, .lnk, .arr (LNK_PORT_STAT 0) 64 8, .log, .mend, .arr LNK_ROUTE_STAT 0 1, .arr LNK_ROUTE_CFG 0 1, .tb, .arr (LNK_LANE_STAT 0) 16 32, .arr (LNK_PORT_CNT 0) 64 8, .fresh] P) {a1 : _} {a2 : _} {s3 : State} (h3 : P s3) : (bodyPortConfig a1 a2 s3).Holds P := by
  unfold bodyPortConfig
  extract_lets +onlyGivenNames x0
  extract_lets +onlyGivenNames x1
  extract_lets +onlyGivenNames x2
  refine checked_keep ?_ ?_
  · assumption
  · show P _
    refine State.configurePort_keep k.sub ?_
    assumption

theorem bodyPortStatus_keep {P : State → Prop} (k : Keeps [] P) {a1 : _} {a2 : _} {s3 : State} (h3 : P s3) : (bodyPortStatus a1 a2 s3).Holds P := by
  unfold bodyPortStatus
  extract_lets +onlyGivenNames x0
  extract_lets +onlyGivenNames x1
  refine checked_keep ?_ ?_
  · assumption
  · show P _
    assumption

theorem bodyLaneEyeScan_keep {P : State → Prop} (k : Keeps [.lnk] P) {a1 : _} {a2 : _} {s3 : State} (h3 : P s3) : (bodyLaneEyeScan a1 a2 s3).Holds P := by
  unfold bodyLaneEyeScan
  extract_lets +onlyGivenNames x0
  extract_lets +onlyGivenNames x1
  extract_lets +onlyGivenNames x2
  extract_lets +onlyGivenNames x3
  extract_lets +onlyGivenNames x4
  extract_lets +onlyGivenNames x5
  extract_lets +onlyGivenNames x6
  extract_lets +onlyGivenNames x7
  refine checked_keep ?_ ?_
  · assumption
  · show P _
    refine (k.at .lnk) _ _ ?_
    assumption

theorem State.scanReport_keep {P : State → Prop} (k : Keeps [.lnk, .cmd, .arr CMD_CACHE 0 1, .fresh, .mend, .qm] P) {s1 : State} {a2 : _} {a3 : _} (h1 : P s1) : P (State.scanReport s1 a2 a3) := by
  unfold State.scanReport
  split
  · assumption
  · extract_lets +onlyGivenNames x0
    extract_lets +onlyGivenNames x1
    split
    · assumption
    · extract_lets +onlyGivenNames x2
      have e3 : P x2 := by
        unfold x2
        refine (k.at .lnk) _ _ ?_
        assumption
      clear_value x2
      refine State.report_keep k.sub ?_
      assumption

theorem execEyeScanDone_keep {P : State → Prop} (k : Keeps [.mend, .qm, .arr CMP_ERR 0 1, .fresh, .log, .guard, .red, .arr RED_MIRROR 0 1, .time, .free, .lnk, .cmd, .arr CMD_CACHE 0 1] P) {a1 : _} {a2 : _} {a3 : _} {s4 : State} (h4 : P s4) : ∀ u, execEyeScanDone a1 a2 a3 s4 = .next u → P u := by
  unfold execEyeScanDone
  refine event_keep k.sub ?_ ?_
  · assumption
  · intro y0
    intro y1
    refine State.scanReport_keep k.sub ?_
    assumption

theorem bodyLanePattern_keep {P : State → Prop} (k : Keeps [.lnk] P) {a1 : _} {a2 : _} {s3 : State} (h3 : P s3) : (bodyLanePattern a1 a2 s3).Holds P := by
  unfold bodyLanePattern
  extract_lets +onlyGivenNames x0
  extract_lets +onlyGivenNames x1
  extract_lets +onlyGivenNames x2
  refine checked_keep ?_ ?_
  · assumption
  · extract_lets +onlyGivenNames x3
    have e4 : P x3 := by
      unfold x3
      split
      · refine State.onLane_keep k.sub ?_
        assumption
      · assumption
    clear_value x3
    extract_lets +onlyGivenNames x5
    extract_lets +onlyGivenNames x6
    extract_lets +onlyGivenNames x7
    show P _
    split
    · refine State.onLane_keep k.sub ?_
      assumption
    · assumption

theorem State.checkerLock_keep {P : State → Prop} (k : Keeps [.lnk, .fresh] P) {s1 : State} {a2 : _} {a3 : _} (h1 : P s1) : P (State.checkerLock s1 a2 a3) := by
  unfold State.checkerLock
  extract_lets +onlyGivenNames x0
  split
  · assumption
  · extract_lets +onlyGivenNames x1
    extract_lets +onlyGivenNames x2
    extract_lets +onlyGivenNames x3
    extract_lets +onlyGivenNames x4
    have e5 : P x4 := by
      unfold x4
      refine State.onLane_keep k.sub ?_
      assumption
    clear_value x4
    refine (k.at .fresh) _ _ _ _ ?_
    refine (k.at .fresh) _ _ _ _ ?_
    refine (k.at .fresh) _ _ _ _ ?_
    assumption

theorem execCheckerLockChange_keep {P : State → Prop} (k : Keeps [.mend, .qm, .arr CMP_ERR 0 1, .fresh, .log, .guard, .red, .arr RED_MIRROR 0 1, .time, .free, .lnk] P) {a1 : _} {a2 : _} {a3 : _} {s4 : State} (h4 : P s4) : ∀ u, execCheckerLockChange a1 a2 a3 s4 = .next u → P u := by
  unfold execCheckerLockChange
  refine event_keep k.sub ?_ ?_
  · assumption
  · intro y0
    intro y1
    refine State.checkerLock_keep k.sub ?_
    assumption

theorem bodyLaneLoopback_keep {P : State → Prop} (k : Keeps [.lnk] P) {a1 : _} {a2 : _} {s3 : State} (h3 : P s3) : (bodyLaneLoopback a1 a2 s3).Holds P := by
  unfold bodyLaneLoopback
  extract_lets +onlyGivenNames x0
  extract_lets +onlyGivenNames x1
  refine checked_keep ?_ ?_
  · assumption
  · show P _
    refine State.onLane_keep k.sub ?_
    assumption

theorem bodyPortRetrain_keep {P : State → Prop} (k : Keeps [.qm, .lnk, .arr (LNK_PORT_CNT 0) 64 8, .fresh, .arr (LNK_PORT_STAT 0) 64 8, .tb, .arr (LNK_LANE_STAT 0) 16 32, .log, .mend, .arr LNK_ROUTE_STAT 0 1, .arr LNK_ROUTE_CFG 0 1] P) {a1 : _} {a2 : _} {s3 : State} (h3 : P s3) : (bodyPortRetrain a1 a2 s3).Holds P := by
  unfold bodyPortRetrain
  extract_lets +onlyGivenNames x0
  extract_lets +onlyGivenNames x1
  refine checked_keep ?_ ?_
  · assumption
  · show P _
    refine State.startTraining_keep k.sub ?_
    assumption

end Sys2Proof.Machine
end

