-- ==== Sys2Proof/Laws/KeepH.lean ====
section
/-!
SUPPORT. What the operations of Machine/Heads, Cal, Transom, Counters may touch: one lemma per function (Laws/Keep.lean).
-/

namespace Sys2Proof.Machine

set_option Elab.async false

open Reg Bits

theorem State.onPath_keep {P : State → Prop} (k : Keeps [.red] P) {s1 : State} {a2 : _} {a3 : _} (h1 : P s1) : P (State.onPath s1 a2 a3) := by
  unfold State.onPath
  refine (k.at .red) _ _ ?_
  assumption

theorem State.beat_keep {P : State → Prop} (k : Keeps [.red, .mend, .qm] P) {s1 : State} {a2 : _} (h1 : P s1) : P (State.beat s1 a2) := by
  unfold State.beat
  split
  · refine State.onPath_keep k.sub ?_
    refine State.pushT_keep k.sub ?_
    assumption
  · assumption

theorem State.heartbeats_keep {P : State → Prop} (k : Keeps [.red, .mend, .qm] P) {s1 : State} (h1 : P s1) : P (State.heartbeats s1) := by
  unfold State.heartbeats
  split
  · refine (k.at .red) _ _ ?_
    refine State.beat_keep k.sub ?_
    refine State.beat_keep k.sub ?_
    assumption
  · assumption

theorem execHeartbeatSend_keep {P : State → Prop} (k : Keeps [.mend, .qm, .arr CMP_ERR 0 1, .fresh, .log, .guard, .red, .arr RED_MIRROR 0 1, .time, .free] P) {a1 : _} {s2 : State} (h2 : P s2) : ∀ u, execHeartbeatSend a1 s2 = .next u → P u := by
  unfold execHeartbeatSend
  refine event_keep k.sub ?_ ?_
  · assumption
  · intro y0
    intro y1
    refine State.heartbeats_keep k.sub ?_
    assumption

theorem State.toStandby_keep {P : State → Prop} (k : Keeps [.red, .arr RED_STAT 0 1, .arr RED_COUNT 0 1, .fresh, .qm, .log, .mend, .arr LNK_ROUTE_STAT 0 1, .arr LNK_ROUTE_CFG 0 1, .lnk] P) {s1 : State} (h1 : P s1) : P (State.toStandby s1) := by
  unfold State.toStandby
  extract_lets +onlyGivenNames x0
  have e1 : P x0 := by
    unfold x0
    refine (k.at .red) _ _ ?_
    refine State.setHead_keep k.sub ?_
    assumption
  clear_value x0
  refine setFld_keep k RED_STAT 0 1 ⟨0, rfl⟩ ?_
  assumption

theorem State.resend_keep {P : State → Prop} (k : Keeps [.red, .arr RED_MIRROR 0 1, .mend, .qm] P) {s1 : State} (h1 : P s1) : P (State.resend s1) := by
  unfold State.resend
  extract_lets +onlyGivenNames x0
  extract_lets +onlyGivenNames x1
  extract_lets +onlyGivenNames x2
  have e3 : P x2 := by
    unfold x2
    refine (k.at .red) _ _ ?_
    assumption
  clear_value x2
  extract_lets +onlyGivenNames x4
  have e5 : P x4 := by
    unfold x4
    refine foldl_keep (fun t6 x7 e8 => ?_) ?_
    · refine State.mirrorItem_keep k.sub ?_
      assumption
    · assumption
  clear_value x4
  extract_lets +onlyGivenNames x9
  have e10 : P x9 := by
    unfold x9
    refine foldl_keep (fun t11 x12 e13 => ?_) ?_
    · refine State.mirrorItem_keep k.sub ?_
      assumption
    · assumption
  clear_value x9
  refine foldl_keep (fun t14 x15 e16 => ?_) ?_
  · refine State.mirrorState_keep k.sub ?_
    assumption
  · assumption

theorem State.commitSwitch_keep {P : State → Prop} (k : Keeps [.red, .cmd, .mend, .qm, .arr RED_COUNT 0 1, .fresh, .arr RED_STAT 0 1, .log, .arr LNK_ROUTE_STAT 0 1, .arr LNK_ROUTE_CFG 0 1, .lnk] P) {s1 : State} (h1 : P s1) : P (State.commitSwitch s1) := by
  unfold State.commitSwitch
  extract_lets +onlyGivenNames x0
  have e1 : P x0 := by
    unfold x0
    refine (k.at .red) _ _ ?_
    assumption
  clear_value x0
  extract_lets +onlyGivenNames x2
  refine State.sendLatch_keep k.sub ?_
  refine State.fence_keep k.sub ?_
  assumption

theorem State.trySwitch_keep {P : State → Prop} (k : Keeps [.red, .cmd, .mend, .qm, .arr RED_COUNT 0 1, .fresh, .arr RED_STAT 0 1, .log, .arr LNK_ROUTE_STAT 0 1, .arr LNK_ROUTE_CFG 0 1, .lnk] P) {s1 : State} (h1 : P s1) : P (State.trySwitch s1) := by
  unfold State.trySwitch
  split
  · split
    · refine State.commitSwitch_keep k.sub ?_
      assumption
    · assumption
  · assumption

theorem State.endDrill_keep {P : State → Prop} (k : Keeps [.cmd, .arr CMD_CACHE 0 1, .fresh, .mend, .qm, .red] P) {s1 : State} {a2 : _} {a3 : _} {a4 : _} {a5 : _} (h1 : P s1) : P (State.endDrill s1 a2 a3 a4 a5) := by
  unfold State.endDrill
  refine State.report_keep k.sub ?_
  refine (k.at .red) _ _ ?_
  assumption

theorem State.passHead_keep {P : State → Prop} (k : Keeps [.mend, .qm] P) {s1 : State} {a2 : _} {a3 : _} {a4 : _} (h1 : P s1) : P (State.passHead s1 a2 a3 a4) := by
  unfold State.passHead
  split
  · refine State.pushT_keep k.sub ?_
    assumption
  · assumption

theorem State.heartbeatIn_keep {P : State → Prop} (k : Keeps [.mend, .qm, .red, .arr RED_STAT 0 1, .arr RED_COUNT 0 1, .fresh, .log, .arr LNK_ROUTE_STAT 0 1, .arr LNK_ROUTE_CFG 0 1, .lnk, .cmd, .arr RED_MIRROR 0 1, .arr CMD_CACHE 0 1] P) {s1 : State} {a2 : _} {a3 : _} (h1 : P s1) : P (State.heartbeatIn s1 a2 a3) := by
  unfold State.heartbeatIn
  split
  · refine State.passHead_keep k.sub ?_
    assumption
  · split
    · assumption
    · extract_lets +onlyGivenNames x0
      extract_lets +onlyGivenNames x1
      extract_lets +onlyGivenNames x2
      have e3 : P x2 := by
        unfold x2
        refine State.onPath_keep k.sub ?_
        assumption
      clear_value x2
      extract_lets +onlyGivenNames x4
      have e5 : P x4 := by
        unfold x4
        refine (k.at .red) _ _ ?_
        assumption
      clear_value x4
      extract_lets +onlyGivenNames x6
      have e7 : P x6 := by
        unfold x6
        split
        · refine State.toStandby_keep k.sub ?_
          assumption
        · split
          · refine State.toStandby_keep k.sub ?_
            assumption
          · assumption
      clear_value x6
      extract_lets +onlyGivenNames x8
      have e9 : P x8 := by
        unfold x8
        split
        · refine (k.at .red) _ _ ?_
          assumption
        · assumption
      clear_value x8
      extract_lets +onlyGivenNames x10
      extract_lets +onlyGivenNames x11
      extract_lets +onlyGivenNames x12
      have e13 : P x12 := by
        unfold x12
        refine (k.at .red) _ _ ?_
        assumption
      clear_value x12
      extract_lets +onlyGivenNames x14
      have e15 : P x14 := by
        unfold x14
        split
        · refine State.trySwitch_keep k.sub ?_
          split
          · refine State.resend_keep k.sub ?_
            assumption
          · assumption
        · assumption
      clear_value x14
      split
      · split
        · refine State.endDrill_keep k.sub ?_
          assumption
        · assumption
      · assumption

theorem execHeartbeatReceived_keep {P : State → Prop} (k : Keeps [.mend, .qm, .arr CMP_ERR 0 1, .fresh, .log, .guard, .red, .arr RED_MIRROR 0 1, .time, .free, .arr RED_STAT 0 1, .arr RED_COUNT 0 1, .arr LNK_ROUTE_STAT 0 1, .arr LNK_ROUTE_CFG 0 1, .lnk, .cmd, .arr CMD_CACHE 0 1] P) {a1 : _} {a2 : _} {a3 : _} {s4 : State} (h4 : P s4) : ∀ u, execHeartbeatReceived a1 a2 a3 s4 = .next u → P u := by
  unfold execHeartbeatReceived
  refine event_keep k.sub ?_ ?_
  · assumption
  · intro y0
    intro y1
    refine State.heartbeatIn_keep k.sub ?_
    assumption

theorem State.setPath_keep {P : State → Prop} (k : Keeps [.red, .arr RED_STAT 0 1, .arr (RED_STAT + 4) 0 1, .qm, .log, .mend] P) {s1 : State} {a2 : _} {a3 : _} (h1 : P s1) : P (State.setPath s1 a2 a3) := by
  unfold State.setPath
  extract_lets +onlyGivenNames x0
  extract_lets +onlyGivenNames x1
  have e2 : P x1 := by
    unfold x1
    refine State.onPath_keep k.sub ?_
    assumption
  clear_value x1
  extract_lets +onlyGivenNames x3
  have e4 : P x3 := by
    unfold x3
    refine setFld_keep_wide k RED_STAT 0 1 ⟨0, rfl⟩ ?_
    assumption
  clear_value x3
  split
  · refine State.issue_keep k.sub ?_
    assumption
  · assumption

theorem State.pathFail_keep {P : State → Prop} (k : Keeps [.red, .arr RED_STAT 0 1, .arr (RED_STAT + 4) 0 1, .qm, .log, .mend] P) {s1 : State} {a2 : _} (h1 : P s1) : P (State.pathFail s1 a2) := by
  unfold State.pathFail
  extract_lets +onlyGivenNames x0
  split
  · split
    · refine State.setPath_keep k.sub ?_
      assumption
    · assumption
  · assumption

theorem execPathFailed_keep {P : State → Prop} (k : Keeps [.mend, .qm, .arr CMP_ERR 0 1, .fresh, .log, .guard, .red, .arr RED_MIRROR 0 1, .time, .free, .arr RED_STAT 0 1, .arr (RED_STAT + 4) 0 1] P) {a1 : _} {a2 : _} {s3 : State} (h3 : P s3) : ∀ u, execPathFailed a1 a2 s3 = .next u → P u := by
  unfold execPathFailed
  refine event_keep k.sub ?_ ?_
  · assumption
  · intro y0
    intro y1
    refine State.pathFail_keep k.sub ?_
    assumption

theorem State.pathRestore_keep {P : State → Prop} (k : Keeps [.red, .arr RED_STAT 0 1, .arr (RED_STAT + 4) 0 1, .qm, .log, .mend] P) {s1 : State} {a2 : _} (h1 : P s1) : P (State.pathRestore s1 a2) := by
  unfold State.pathRestore
  extract_lets +onlyGivenNames x0
  split
  · refine State.setPath_keep k.sub ?_
    assumption
  · assumption

theorem execPathRestored_keep {P : State → Prop} (k : Keeps [.mend, .qm, .arr CMP_ERR 0 1, .fresh, .log, .guard, .red, .arr RED_MIRROR 0 1, .time, .free, .arr RED_STAT 0 1, .arr (RED_STAT + 4) 0 1] P) {a1 : _} {a2 : _} {s3 : State} (h3 : P s3) : ∀ u, execPathRestored a1 a2 s3 = .next u → P u := by
  unfold execPathRestored
  refine event_keep k.sub ?_ ?_
  · assumption
  · intro y0
    intro y1
    refine State.pathRestore_keep k.sub ?_
    assumption

theorem State.renew_keep {P : State → Prop} (k : Keeps [.cmd, .mend, .qm, .red] P) {s1 : State} (h1 : P s1) : P (State.renew s1) := by
  unfold State.renew
  extract_lets +onlyGivenNames x0
  split
  · assumption
  · split
    · split
      · unfold x0
        refine State.sendLatch_keep k.sub ?_
        refine (k.at .red) _ _ ?_
        assumption
      · assumption
    · split
      · unfold x0
        refine State.sendLatch_keep k.sub ?_
        refine (k.at .red) _ _ ?_
        refine (k.at .red) _ _ ?_
        assumption
      · assumption

theorem execLatchRenewSend_keep {P : State → Prop} (k : Keeps [.mend, .qm, .arr CMP_ERR 0 1, .fresh, .log, .guard, .red, .arr RED_MIRROR 0 1, .time, .free, .cmd] P) {a1 : _} {s2 : State} (h2 : P s2) : ∀ u, execLatchRenewSend a1 s2 = .next u → P u := by
  unfold execLatchRenewSend
  refine event_keep k.sub ?_ ?_
  · assumption
  · intro y0
    intro y1
    refine State.renew_keep k.sub ?_
    assumption

theorem State.leaseOut_keep {P : State → Prop} (k : Keeps [.qm, .arr RED_COUNT 0 1, .fresh, .red, .arr RED_STAT 0 1, .log, .mend, .arr LNK_ROUTE_STAT 0 1, .arr LNK_ROUTE_CFG 0 1, .lnk] P) {s1 : State} (h1 : P s1) : P (State.leaseOut s1) := by
  unfold State.leaseOut
  split
  · refine State.fence_keep k.sub ?_
    assumption
  · assumption

theorem execLeaseExpiry_keep {P : State → Prop} (k : Keeps [.mend, .qm, .arr CMP_ERR 0 1, .fresh, .log, .guard, .red, .arr RED_MIRROR 0 1, .time, .free, .arr RED_COUNT 0 1, .arr RED_STAT 0 1, .arr LNK_ROUTE_STAT 0 1, .arr LNK_ROUTE_CFG 0 1, .lnk] P) {a1 : _} {s2 : State} (h2 : P s2) : ∀ u, execLeaseExpiry a1 s2 = .next u → P u := by
  unfold execLeaseExpiry
  refine event_keep k.sub ?_ ?_
  · assumption
  · intro y0
    intro y1
    refine State.leaseOut_keep k.sub ?_
    assumption

theorem State.askLatch_keep {P : State → Prop} (k : Keeps [.red, .cmd, .mend, .qm] P) {s1 : State} (h1 : P s1) : P (State.askLatch s1) := by
  unfold State.askLatch
  extract_lets +onlyGivenNames x0
  extract_lets +onlyGivenNames x1
  extract_lets +onlyGivenNames x2
  have e3 : P x2 := by
    unfold x2
    refine (k.at .red) _ _ ?_
    assumption
  clear_value x2
  refine State.sendLatch_keep k.sub ?_
  assumption

theorem State.requestLatch_keep {P : State → Prop} (k : Keeps [.red, .cmd, .mend, .qm] P) {s1 : State} (h1 : P s1) : P (State.requestLatch s1) := by
  unfold State.requestLatch
  split
  · refine (k.at .red) _ _ ?_
    assumption
  · split
    · refine State.askLatch_keep k.sub ?_
      assumption
    · assumption

theorem execLatchRequestSend_keep {P : State → Prop} (k : Keeps [.mend, .qm, .arr CMP_ERR 0 1, .fresh, .log, .guard, .red, .arr RED_MIRROR 0 1, .time, .free, .cmd] P) {a1 : _} {s2 : State} (h2 : P s2) : ∀ u, execLatchRequestSend a1 s2 = .next u → P u := by
  unfold execLatchRequestSend
  refine event_keep k.sub ?_ ?_
  · assumption
  · intro y0
    intro y1
    refine State.requestLatch_keep k.sub ?_
    assumption

theorem State.holdoffEnd_keep {P : State → Prop} (k : Keeps [.red, .cmd, .mend, .qm] P) {s1 : State} (h1 : P s1) : P (State.holdoffEnd s1) := by
  unfold State.holdoffEnd
  extract_lets +onlyGivenNames x0
  split
  · refine State.requestLatch_keep k.sub ?_
    refine (k.at .red) _ _ ?_
    assumption
  · assumption

theorem execStartHoldoffExpiry_keep {P : State → Prop} (k : Keeps [.mend, .qm, .arr CMP_ERR 0 1, .fresh, .log, .guard, .red, .arr RED_MIRROR 0 1, .time, .free, .cmd] P) {a1 : _} {s2 : State} (h2 : P s2) : ∀ u, execStartHoldoffExpiry a1 s2 = .next u → P u := by
  unfold execStartHoldoffExpiry
  refine event_keep k.sub ?_ ?_
  · assumption
  · intro y0
    intro y1
    refine State.holdoffEnd_keep k.sub ?_
    assumption

theorem State.latchEvent_keep {P : State → Prop} (k : Keeps [.qm, .log, .mend] P) {s1 : State} {a2 : _} {a3 : _} (h1 : P s1) : P (State.latchEvent s1 a2 a3) := by
  unfold State.latchEvent
  refine State.issue_keep k.sub ?_
  assumption

theorem State.witGrant_keep {P : State → Prop} (k : Keeps [.red, .arr (RED_WIT_EPOCH 0) 16 4, .arr (RED_WIT_STAT 0) 16 4] P) {s1 : State} {a2 : _} {a3 : _} {a4 : _} (h1 : P s1) : P (State.witGrant s1 a2 a3 a4) := by
  unfold State.witGrant
  refine State.onWit_keep k.sub ?_
  refine setFld_keep k (RED_WIT_EPOCH 0) 16 4 ⟨_, rfl⟩ ?_
  refine setFld_keep k (RED_WIT_STAT 0) 16 4 ⟨_, rfl⟩ ?_
  refine setFld_keep k (RED_WIT_STAT 0) 16 4 ⟨_, rfl⟩ ?_
  assumption

theorem State.witness_keep {P : State → Prop} (k : Keeps [.red, .arr (RED_WIT_EPOCH 0) 16 4, .arr (RED_WIT_STAT 0) 16 4, .qm, .log, .mend] P) {s1 : State} {a2 : _} {a3 : _} {a4 : _} (h1 : P s1) : (State.witness s1 a2 a3 a4).Holds P := by
  unfold State.witness
  extract_lets +onlyGivenNames x0
  extract_lets +onlyGivenNames x1
  extract_lets +onlyGivenNames x2
  extract_lets +onlyGivenNames x3
  split
  · show P _
    assumption
  · split
    · show P _
      assumption
    · extract_lets +onlyGivenNames x4
      extract_lets +onlyGivenNames x5
      extract_lets +onlyGivenNames x6
      extract_lets +onlyGivenNames x7
      split
      · show P _
        assumption
      · split
        · extract_lets +onlyGivenNames x8
          unfold x4
          show P _
          refine State.onWit_keep k.sub ?_
          assumption
        · split
          · unfold x4
            show P _
            assumption
          · split
            · unfold x4
              show P _
              refine State.witGrant_keep k.sub ?_
              assumption
            · split
              · split
                · unfold x4
                  show P _
                  assumption
                · unfold x4
                  show P _
                  refine State.latchEvent_keep k.sub ?_
                  refine State.witGrant_keep k.sub ?_
                  assumption
              · split
                · unfold x4
                  show P _
                  assumption
                · split
                  · extract_lets +onlyGivenNames x9
                    have e10 : P x9 := by
                      unfold x9
                      refine State.latchEvent_keep k.sub ?_
                      assumption
                    clear_value x9
                    unfold x4
                    show P _
                    refine State.onWit_keep k.sub ?_
                    refine setFld_keep k (RED_WIT_STAT 0) 16 4 ⟨_, rfl⟩ ?_
                    assumption
                  · unfold x4
                    show P _
                    assumption

theorem bodyLatchRequest_keep {P : State → Prop} (k : Keeps [.red, .arr (RED_WIT_EPOCH 0) 16 4, .arr (RED_WIT_STAT 0) 16 4, .qm, .log, .mend] P) {a1 : _} {a2 : _} {s3 : State} (h3 : P s3) : (bodyLatchRequest a1 a2 s3).Holds P := by
  unfold bodyLatchRequest
  refine State.witness_keep k.sub ?_
  assumption

theorem bodyLatchRenew_keep {P : State → Prop} (k : Keeps [.red, .arr (RED_WIT_EPOCH 0) 16 4, .arr (RED_WIT_STAT 0) 16 4, .qm, .log, .mend] P) {a1 : _} {a2 : _} {s3 : State} (h3 : P s3) : (bodyLatchRenew a1 a2 s3).Holds P := by
  unfold bodyLatchRenew
  refine State.witness_keep k.sub ?_
  assumption

theorem bodyLatchRelease_keep {P : State → Prop} (k : Keeps [.red, .arr (RED_WIT_EPOCH 0) 16 4, .arr (RED_WIT_STAT 0) 16 4, .qm, .log, .mend] P) {a1 : _} {a2 : _} {s3 : State} (h3 : P s3) : (bodyLatchRelease a1 a2 s3).Holds P := by
  unfold bodyLatchRelease
  refine State.witness_keep k.sub ?_
  assumption

theorem execLatchRenew_keep {P : State → Prop} (k : Keeps ([.mend, .qm, .arr CMP_ERR 0 1, .fresh, .log, .guard, .red, .arr RED_MIRROR 0 1, .time, .free, .arr CMD_SPI_CTRL 0 1, .arr CMD_ERR 0 1, .arr CMD_CACHE 0 1, .cmd, .arr CMD_STAT 0 1, .arr RED_STAT 0 1, .arr RED_EPOCH 0 1, .arr RED_COUNT 0 1, .arr LNK_ROUTE_STAT 0 1, .arr LNK_ROUTE_CFG 0 1, .lnk, .arr (RED_WIT_STAT 0) 16 4, .arr (MEM_ERR 0) 32 5, .arr (MEM_ERR_INFO 0) 32 5, .arr (MEM_ERR_ADDR 0) 32 5] ++ [.arr (MEM_ERR_ADDR 0 + 4) 32 5, .mem, .arr TB_CTRL 0 1, .arr (RED_WIT_CFG 0) 16 4, .arr (RED_WIT_EPOCH 0) 16 4, .arr RED_LEDGER 0 1, .arr (CMD_SLOT_CTR 0) 16 16, .nvm]) P) {a1 : _} {a2 : _} {s3 : State} (h3 : P s3) : ∀ u, execLatchRenew a1 a2 s3 = .next u → P u := by
  unfold execLatchRenew
  refine command_keep k.sub ?_ ?_
  · assumption
  · intro y0
    intro y1
    intro y2
    intro y3
    refine bodyLatchRenew_keep k.sub ?_
    assumption

theorem State.witExpire_keep {P : State → Prop} (k : Keeps [.arr (RED_WIT_STAT 0) 16 4, .qm, .log, .mend] P) {s1 : State} {a2 : _} (h1 : P s1) : P (State.witExpire s1 a2) := by
  unfold State.witExpire
  split
  · split
    · refine setFld_keep k (RED_WIT_STAT 0) 16 4 ⟨_, rfl⟩ ?_
      refine State.latchEvent_keep k.sub ?_
      assumption
    · assumption
  · assumption

theorem execWitnessLeaseExpiry_keep {P : State → Prop} (k : Keeps [.mend, .qm, .arr CMP_ERR 0 1, .fresh, .log, .guard, .red, .arr RED_MIRROR 0 1, .time, .free, .arr (RED_WIT_STAT 0) 16 4] P) {a1 : _} {a2 : _} {s3 : State} (h3 : P s3) : ∀ u, execWitnessLeaseExpiry a1 a2 s3 = .next u → P u := by
  unfold execWitnessLeaseExpiry
  refine event_keep k.sub ?_ ?_
  · assumption
  · intro y0
    intro y1
    refine State.witExpire_keep k.sub ?_
    assumption

theorem State.quietEnd_keep {P : State → Prop} (k : Keeps [.arr (RED_WIT_STAT 0) 16 4, .red, .arr (RED_WIT_EPOCH 0) 16 4, .qm, .log, .mend] P) {s1 : State} {a2 : _} (h1 : P s1) : P (State.quietEnd s1 a2) := by
  unfold State.quietEnd
  split
  · split
    · assumption
    · extract_lets +onlyGivenNames x0
      extract_lets +onlyGivenNames x1
      have e2 : P x1 := by
        unfold x1
        refine setFld_keep k (RED_WIT_STAT 0) 16 4 ⟨_, rfl⟩ ?_
        refine State.onWit_keep k.sub ?_
        assumption
      clear_value x1
      extract_lets +onlyGivenNames x3
      have e4 : P x3 := by
        unfold x3
        clear_value x0
        split
        · refine State.witGrant_keep k.sub ?_
          assumption
        · refine setFld_keep k (RED_WIT_STAT 0) 16 4 ⟨_, rfl⟩ ?_
          assumption
      clear_value x3
      refine State.latchEvent_keep k.sub ?_
      assumption
  · assumption

theorem execQuietPeriodEnd_keep {P : State → Prop} (k : Keeps [.mend, .qm, .arr CMP_ERR 0 1, .fresh, .log, .guard, .red, .arr RED_MIRROR 0 1, .time, .free, .arr (RED_WIT_STAT 0) 16 4, .arr (RED_WIT_EPOCH 0) 16 4] P) {a1 : _} {a2 : _} {s3 : State} (h3 : P s3) : ∀ u, execQuietPeriodEnd a1 a2 s3 = .next u → P u := by
  unfold execQuietPeriodEnd
  refine event_keep k.sub ?_ ?_
  · assumption
  · intro y0
    intro y1
    refine State.quietEnd_keep k.sub ?_
    assumption

theorem State.compareDigest_keep {P : State → Prop} (k : Keeps [.red, .arr RED_STAT 0 1, .arr RED_COUNT 0 1, .fresh, .qm, .log, .mend] P) {s1 : State} {a2 : _} (h1 : P s1) : P (State.compareDigest s1 a2) := by
  unfold State.compareDigest
  extract_lets +onlyGivenNames x0
  extract_lets +onlyGivenNames x1
  extract_lets +onlyGivenNames x2
  have e3 : P x2 := by
    unfold x2
    refine (k.at .red) _ _ ?_
    assumption
  clear_value x2
  split
  · refine (k.at .red) _ _ ?_
    refine setFld_keep k RED_STAT 0 1 ⟨0, rfl⟩ ?_
    assumption
  · extract_lets +onlyGivenNames x4
    have e5 : P x4 := by
      unfold x4
      refine bump_keep k RED_COUNT 0 1 ⟨0, rfl⟩ ?_
      refine setFld_keep k RED_STAT 0 1 ⟨0, rfl⟩ ?_
      assumption
    clear_value x4
    extract_lets +onlyGivenNames x6
    have e7 : P x6 := by
      unfold x6
      refine State.issue_keep k.sub ?_
      assumption
    clear_value x6
    split
    · assumption
    · refine (k.at .red) _ _ ?_
      assumption

theorem State.mirrorIn_keep {P : State → Prop} (k : Keeps [.mend, .qm, .red, .arr RED_MIRROR 0 1, .arr RED_STAT 0 1, .arr RED_COUNT 0 1, .fresh, .log] P) {s1 : State} {a2 : _} {a3 : _} (h1 : P s1) : P (State.mirrorIn s1 a2 a3) := by
  unfold State.mirrorIn
  split
  · refine State.passHead_keep k.sub ?_
    assumption
  · split
    · assumption
    · extract_lets +onlyGivenNames x0
      have e1 : P x0 := by
        unfold x0
        refine foldl_keep (fun t2 x3 e4 => ?_) ?_
        · split
          · refine (k.at .red) _ _ ?_
            assumption
          · assumption
        · assumption
      clear_value x0
      extract_lets +onlyGivenNames x5
      have e6 : P x5 := by
        unfold x5
        refine setFld_keep k RED_MIRROR 0 1 ⟨0, rfl⟩ ?_
        assumption
      clear_value x5
      split
      · split
        · refine State.compareDigest_keep k.sub ?_
          assumption
        · assumption
      · assumption

theorem execMirrorReceived_keep {P : State → Prop} (k : Keeps [.mend, .qm, .arr CMP_ERR 0 1, .fresh, .log, .guard, .red, .arr RED_MIRROR 0 1, .time, .free, .arr RED_STAT 0 1, .arr RED_COUNT 0 1] P) {a1 : _} {a2 : _} {a3 : _} {s4 : State} (h4 : P s4) : ∀ u, execMirrorReceived a1 a2 a3 s4 = .next u → P u := by
  unfold execMirrorReceived
  refine event_keep k.sub ?_ ?_
  · assumption
  · intro y0
    intro y1
    refine State.mirrorIn_keep k.sub ?_
    assumption

theorem State.mirrorAgain_keep {P : State → Prop} (k : Keeps [.mend, .qm, .red] P) {s1 : State} (h1 : P s1) : P (State.mirrorAgain s1) := by
  unfold State.mirrorAgain
  split
  · refine foldl_keep (fun t0 x1 e2 => ?_) ?_
    · refine State.sendHead_keep k.sub ?_
      assumption
    · refine (k.at .red) _ _ ?_
      assumption
  · assumption

theorem execMirrorResend_keep {P : State → Prop} (k : Keeps [.mend, .qm, .arr CMP_ERR 0 1, .fresh, .log, .guard, .red, .arr RED_MIRROR 0 1, .time, .free] P) {a1 : _} {s2 : State} (h2 : P s2) : ∀ u, execMirrorResend a1 s2 = .next u → P u := by
  unfold execMirrorResend
  refine event_keep k.sub ?_ ?_
  · assumption
  · intro y0
    intro y1
    refine State.mirrorAgain_keep k.sub ?_
    assumption

theorem State.stateRefresh_keep {P : State → Prop} (k : Keeps [.red, .arr RED_MIRROR 0 1, .mend, .qm] P) {s1 : State} (h1 : P s1) : P (State.stateRefresh s1) := by
  unfold State.stateRefresh
  split
  · refine foldl_keep (fun t0 x1 e2 => ?_) ?_
    · refine State.mirrorState_keep k.sub ?_
      assumption
    · refine (k.at .red) _ _ ?_
      assumption
  · assumption

theorem execMirrorStateRefresh_keep {P : State → Prop} (k : Keeps [.mend, .qm, .arr CMP_ERR 0 1, .fresh, .log, .guard, .red, .arr RED_MIRROR 0 1, .time, .free] P) {a1 : _} {s2 : State} (h2 : P s2) : ∀ u, execMirrorStateRefresh a1 s2 = .next u → P u := by
  unfold execMirrorStateRefresh
  refine event_keep k.sub ?_ ?_
  · assumption
  · intro y0
    intro y1
    refine State.stateRefresh_keep k.sub ?_
    assumption

theorem State.sendDigest_keep {P : State → Prop} (k : Keeps [.mend, .qm, .red] P) {s1 : State} (h1 : P s1) : P (State.sendDigest s1) := by
  unfold State.sendDigest
  extract_lets +onlyGivenNames x0
  split
  · assumption
  · extract_lets +onlyGivenNames x1
    extract_lets +onlyGivenNames x2
    refine State.sendHead_keep k.sub ?_
    refine (k.at .red) _ _ ?_
    assumption

theorem execDigestSend_keep {P : State → Prop} (k : Keeps [.mend, .qm, .arr CMP_ERR 0 1, .fresh, .log, .guard, .red, .arr RED_MIRROR 0 1, .time, .free] P) {a1 : _} {s2 : State} (h2 : P s2) : ∀ u, execDigestSend a1 s2 = .next u → P u := by
  unfold execDigestSend
  refine event_keep k.sub ?_ ?_
  · assumption
  · intro y0
    intro y1
    refine State.sendDigest_keep k.sub ?_
    assumption

theorem State.digestIn_keep {P : State → Prop} (k : Keeps [.mend, .qm, .red, .arr RED_STAT 0 1, .arr RED_COUNT 0 1, .fresh, .log] P) {s1 : State} {a2 : _} {a3 : _} (h1 : P s1) : P (State.digestIn s1 a2 a3) := by
  unfold State.digestIn
  split
  · refine State.passHead_keep k.sub ?_
    assumption
  · split
    · assumption
    · split
      · refine State.compareDigest_keep k.sub ?_
        assumption
      · refine (k.at .red) _ _ ?_
        assumption

theorem execDigestReceived_keep {P : State → Prop} (k : Keeps [.mend, .qm, .arr CMP_ERR 0 1, .fresh, .log, .guard, .red, .arr RED_MIRROR 0 1, .time, .free, .arr RED_STAT 0 1, .arr RED_COUNT 0 1] P) {a1 : _} {a2 : _} {a3 : _} {s4 : State} (h4 : P s4) : ∀ u, execDigestReceived a1 a2 a3 s4 = .next u → P u := by
  unfold execDigestReceived
  refine event_keep k.sub ?_ ?_
  · assumption
  · intro y0
    intro y1
    refine State.digestIn_keep k.sub ?_
    assumption

theorem State.digestLate_keep {P : State → Prop} (k : Keeps [.qm, .log, .mend, .arr RED_COUNT 0 1, .fresh, .arr RED_STAT 0 1, .red] P) {s1 : State} (h1 : P s1) : P (State.digestLate s1) := by
  unfold State.digestLate
  split
  · split
    · extract_lets +onlyGivenNames x0
      extract_lets +onlyGivenNames x1
      have e2 : P x1 := by
        unfold x1
        refine State.issue_keep k.sub ?_
        refine bump_keep k RED_COUNT 0 1 ⟨0, rfl⟩ ?_
        refine setFld_keep k RED_STAT 0 1 ⟨0, rfl⟩ ?_
        assumption
      clear_value x1
      refine (k.at .red) _ _ ?_
      assumption
    · assumption
  · assumption

theorem execDigestTimeout_keep {P : State → Prop} (k : Keeps [.mend, .qm, .arr CMP_ERR 0 1, .fresh, .log, .guard, .red, .arr RED_MIRROR 0 1, .time, .free, .arr RED_COUNT 0 1, .arr RED_STAT 0 1] P) {a1 : _} {s2 : State} (h2 : P s2) : ∀ u, execDigestTimeout a1 s2 = .next u → P u := by
  unfold execDigestTimeout
  refine event_keep k.sub ?_ ?_
  · assumption
  · intro y0
    intro y1
    refine State.digestLate_keep k.sub ?_
    assumption

theorem State.readLedger_keep {P : State → Prop} (k : Keeps [.arr (MEM_ERR 0) 32 5, .fresh, .arr (MEM_ERR_INFO 0) 32 5, .free, .arr (MEM_ERR_ADDR 0) 32 5, .arr (MEM_ERR_ADDR 0 + 4) 32 5, .qm, .log, .mend, .mem] P) {s1 : State} {a2 : _} (h1 : P s1) : P (State.readLedger s1 a2).2.2 := by
  unfold State.readLedger
  refine foldl_keep_on (fun z : List Ledger × Bool × State => z.2.2) (fun b0 x1 e2 => ?_) ?_
  · extract_lets +onlyGivenNames x3
    split
    · refine State.memReadRange_keep k.sub ?_
      assumption
    · refine State.memReadRange_keep k.sub ?_
      assumption
  · assumption

theorem State.replayLedger_keep {P : State → Prop} (k : Keeps [.red, .qm, .log, .mend, .arr (MEM_ERR 0) 32 5, .fresh, .arr (MEM_ERR_INFO 0) 32 5, .free, .arr (MEM_ERR_ADDR 0) 32 5, .arr (MEM_ERR_ADDR 0 + 4) 32 5, .mem, .cmd] P) {s1 : State} (h1 : P s1) : P (State.replayLedger s1) := by
  unfold State.replayLedger
  split
  · assumption
  · split
    · assumption
    · extract_lets +onlyGivenNames x0
      split
      · refine (k.at .red) _ _ ?_
        refine State.issue_keep k.sub ?_
        assumption
      · extract_lets +onlyGivenNames x1
        extract_lets +onlyGivenNames x2
        have e3 : P x2 := by
          unfold x2
          refine (k.at .red) _ _ ?_
          refine State.readLedger_keep k.sub ?_
          assumption
        clear_value x2
        split
        · assumption
        · refine State.originate_keep k.sub ?_
          assumption

theorem execLedgerReplaySend_keep {P : State → Prop} (k : Keeps [.mend, .qm, .arr CMP_ERR 0 1, .fresh, .log, .guard, .red, .arr RED_MIRROR 0 1, .time, .free, .arr (MEM_ERR 0) 32 5, .arr (MEM_ERR_INFO 0) 32 5, .arr (MEM_ERR_ADDR 0) 32 5, .arr (MEM_ERR_ADDR 0 + 4) 32 5, .mem, .cmd] P) {a1 : _} {s2 : State} (h2 : P s2) : ∀ u, execLedgerReplaySend a1 s2 = .next u → P u := by
  unfold execLedgerReplaySend
  refine event_keep k.sub ?_ ?_
  · assumption
  · intro y0
    intro y1
    refine State.replayLedger_keep k.sub ?_
    assumption

theorem State.switchLate_keep {P : State → Prop} (k : Keeps [.cmd, .arr CMD_CACHE 0 1, .fresh, .mend, .qm, .red] P) {s1 : State} (h1 : P s1) : P (State.switchLate s1) := by
  unfold State.switchLate
  split
  · split
    · split
      · refine State.endDrill_keep k.sub ?_
        assumption
      · assumption
    · assumption
  · assumption

theorem execSwitchoverTimeout_keep {P : State → Prop} (k : Keeps [.mend, .qm, .arr CMP_ERR 0 1, .fresh, .log, .guard, .red, .arr RED_MIRROR 0 1, .time, .free, .cmd, .arr CMD_CACHE 0 1] P) {a1 : _} {s2 : State} (h2 : P s2) : ∀ u, execSwitchoverTimeout a1 s2 = .next u → P u := by
  unfold execSwitchoverTimeout
  refine event_keep k.sub ?_ ?_
  · assumption
  · intro y0
    intro y1
    refine State.switchLate_keep k.sub ?_
    assumption

theorem State.drillOver_keep {P : State → Prop} (k : Keeps [.cmd, .arr CMD_CACHE 0 1, .fresh, .mend, .qm, .red, .arr (MEM_ERR 0) 32 5, .arr (MEM_ERR_INFO 0) 32 5, .free, .arr (MEM_ERR_ADDR 0) 32 5, .arr (MEM_ERR_ADDR 0 + 4) 32 5, .log, .mem] P) {s1 : State} (h1 : P s1) : P (State.drillOver s1) := by
  unfold State.drillOver
  split
  · assumption
  · split
    · split
      · refine State.endDrill_keep k.sub ?_
        assumption
      · assumption
    · split
      · split
        · assumption
        · extract_lets +onlyGivenNames x0
          extract_lets +onlyGivenNames x1
          refine State.endDrill_keep k.sub ?_
          refine State.readLedger_keep k.sub ?_
          assumption
      · split
        · refine State.endDrill_keep k.sub ?_
          assumption
        · assumption

theorem execDrillDone_keep {P : State → Prop} (k : Keeps [.mend, .qm, .arr CMP_ERR 0 1, .fresh, .log, .guard, .red, .arr RED_MIRROR 0 1, .time, .free, .cmd, .arr CMD_CACHE 0 1, .arr (MEM_ERR 0) 32 5, .arr (MEM_ERR_INFO 0) 32 5, .arr (MEM_ERR_ADDR 0) 32 5, .arr (MEM_ERR_ADDR 0 + 4) 32 5, .mem] P) {a1 : _} {s2 : State} (h2 : P s2) : ∀ u, execDrillDone a1 s2 = .next u → P u := by
  unfold execDrillDone
  refine event_keep k.sub ?_ ?_
  · assumption
  · intro y0
    intro y1
    refine State.drillOver_keep k.sub ?_
    assumption

theorem bodyHeadDrill_keep {P : State → Prop} (k : Keeps [.red, .cmd, .mend, .qm, .arr RED_COUNT 0 1, .fresh, .arr RED_STAT 0 1, .log, .arr LNK_ROUTE_STAT 0 1, .arr LNK_ROUTE_CFG 0 1, .lnk] P) {a1 : _} {a2 : _} {s3 : State} (h3 : P s3) : (bodyHeadDrill a1 a2 s3).Holds P := by
  unfold bodyHeadDrill
  extract_lets +onlyGivenNames x0
  refine checked_keep ?_ ?_
  · assumption
  · extract_lets +onlyGivenNames x1
    have e2 : P x1 := by
      unfold x1
      refine (k.at .red) _ _ ?_
      assumption
    clear_value x1
    show P _
    split
    · refine State.sendLatch_keep k.sub ?_
      assumption
    · split
      · refine State.trySwitch_keep k.sub ?_
        assumption
      · assumption

theorem State.storeNvm_keep {P : State → Prop} (k : Keeps [.nvm] P) {s1 : State} {a2 : _} {a3 : _} (h1 : P s1) : P (State.storeNvm s1 a2 a3) := by
  unfold State.storeNvm
  refine (k.at .nvm) _ _ ?_
  assumption

theorem State.configureHead_keep {P : State → Prop} (k : Keeps [.nvm, .arr RED_WITNESS 0 1, .arr RED_PARTNER 0 1, .arr RED_CFG 0 1, .red, .arr RED_STAT 0 1, .arr RED_COUNT 0 1, .fresh, .qm, .log, .mend, .arr LNK_ROUTE_STAT 0 1, .arr LNK_ROUTE_CFG 0 1, .lnk] P) {s1 : State} {a2 : _} {a3 : _} {a4 : _} (h1 : P s1) : P (State.configureHead s1 a2 a3 a4) := by
  unfold State.configureHead
  extract_lets +onlyGivenNames x0
  have e1 : P x0 := by
    unfold x0
    unfold State.wrNvm
    refine State.storeNvm_keep k.sub ?_
    refine (k.at (.arr RED_WITNESS 0 1)) _ _ _ ⟨0, rfl⟩ ?_
    refine State.storeNvm_keep k.sub ?_
    refine (k.at (.arr RED_PARTNER 0 1)) _ _ _ ⟨0, rfl⟩ ?_
    refine State.storeNvm_keep k.sub ?_
    refine (k.at (.arr RED_CFG 0 1)) _ _ _ ⟨0, rfl⟩ ?_
    assumption
  clear_value x0
  split
  · split
    · refine State.setHead_keep k.sub ?_
      assumption
    · assumption
  · split
    · refine State.setHead_keep k.sub ?_
      assumption
    · assumption

theorem State.configureWitness_keep {P : State → Prop} (k : Keeps [.nvm, .arr (RED_WIT_CFG 0) 16 4, .arr (RED_WIT_STAT 0) 16 4, .red] P) {s1 : State} {a2 : _} {a3 : _} (h1 : P s1) : P (State.configureWitness s1 a2 a3) := by
  unfold State.configureWitness
  extract_lets +onlyGivenNames x0
  extract_lets +onlyGivenNames x1
  have e2 : P x1 := by
    unfold x1
    unfold State.wrNvm
    refine State.storeNvm_keep k.sub ?_
    refine (k.at (.arr (RED_WIT_CFG 0) 16 4)) _ _ _ ⟨_, rfl⟩ ?_
    assumption
  clear_value x1
  split
  · split
    · assumption
    · refine State.startQuiet_keep k.sub ?_
      assumption
  · refine setFld_keep k (RED_WIT_STAT 0) 16 4 ⟨_, rfl⟩ ?_
    refine setFld_keep k (RED_WIT_STAT 0) 16 4 ⟨_, rfl⟩ ?_
    refine State.onWit_keep k.sub ?_
    assumption

theorem bodyHeadConfig_keep {P : State → Prop} (k : Keeps [.nvm, .arr RED_WITNESS 0 1, .arr RED_PARTNER 0 1, .arr RED_CFG 0 1, .red, .arr RED_STAT 0 1, .arr RED_COUNT 0 1, .fresh, .qm, .log, .mend, .arr LNK_ROUTE_STAT 0 1, .arr LNK_ROUTE_CFG 0 1, .lnk, .arr (RED_WIT_CFG 0) 16 4, .arr (RED_WIT_STAT 0) 16 4] P) {a1 : _} {a2 : _} {s3 : State} (h3 : P s3) : (bodyHeadConfig a1 a2 s3).Holds P := by
  unfold bodyHeadConfig
  extract_lets +onlyGivenNames x0
  extract_lets +onlyGivenNames x1
  extract_lets +onlyGivenNames x2
  split
  · extract_lets +onlyGivenNames x3
    extract_lets +onlyGivenNames x4
    extract_lets +onlyGivenNames x5
    extract_lets +onlyGivenNames x6
    refine checked_keep ?_ ?_
    · assumption
    · show P _
      refine State.configureHead_keep k.sub ?_
      assumption
  · split
    · refine checked_keep ?_ ?_
      · assumption
      · show P _
        refine State.configureWitness_keep k.sub ?_
        assumption
    · show P _
      assumption

theorem bodyHeadStatus_keep {P : State → Prop} (k : Keeps [] P) {a1 : _} {a2 : _} {s3 : State} (h3 : P s3) : (bodyHeadStatus a1 a2 s3).Holds P := by
  unfold bodyHeadStatus
  extract_lets +onlyGivenNames x0
  extract_lets +onlyGivenNames x1
  split
  · refine checked_keep ?_ ?_
    · assumption
    · show P _
      assumption
  · split
    · refine checked_keep ?_ ?_
      · assumption
      · show P _
        assumption
    · split
      · extract_lets +onlyGivenNames x2
        extract_lets +onlyGivenNames x3
        extract_lets +onlyGivenNames x4
        refine checked_keep ?_ ?_
        · assumption
        · show P _
          assumption
      · show P _
        assumption

theorem State.calPeriodDue_keep {P : State → Prop} (k : Keeps [.arr (CAL_GRP_STAT 0) 16 29, .cal] P) {s1 : State} {a2 : _} (h1 : P s1) : P (State.calPeriodDue s1 a2) := by
  unfold State.calPeriodDue
  extract_lets +onlyGivenNames x0
  split
  · assumption
  · refine State.queueCal_keep k.sub ?_
    assumption

theorem execCalPeriodExpiry_keep {P : State → Prop} (k : Keeps [.mend, .qm, .arr CMP_ERR 0 1, .fresh, .log, .guard, .red, .arr RED_MIRROR 0 1, .time, .free, .arr (CAL_GRP_STAT 0) 16 29, .cal] P) {a1 : _} {a2 : _} {s3 : State} (h3 : P s3) : ∀ u, execCalPeriodExpiry a1 a2 s3 = .next u → P u := by
  unfold execCalPeriodExpiry
  refine event_keep k.sub ?_ ?_
  · assumption
  · intro y0
    intro y1
    refine State.calPeriodDue_keep k.sub ?_
    assumption

theorem State.calTempMoves_keep {P : State → Prop} (k : Keeps [.arr (CAL_GRP_STAT 0) 16 29, .cal] P) {s1 : State} (h1 : P s1) : P (State.calTempMoves s1) := by
  unfold State.calTempMoves
  refine foldl_keep (fun t0 x1 e2 => ?_) ?_
  · extract_lets +onlyGivenNames x3
    split
    · refine State.queueCal_keep k.sub ?_
      assumption
    · assumption
  · assumption

theorem State.calStart_keep {P : State → Prop} (k : Keeps [.arr CAL_STAT 0 1, .arr (CAL_GRP_STAT 0) 16 29, .cal, .arr (CONV_BAY_STAT 0) 16 64, .acq, .arr (CONV_RELIEF 0) 4 4, .arr (TIU_CORE_STAT 0) 16 8, .tiu, .arr CONV_TSEQ_STAT 0 1] P) {s1 : State} {a2 : _} (h1 : P s1) : P (State.calStart s1 a2) := by
  unfold State.calStart
  extract_lets +onlyGivenNames x0
  split
  · assumption
  · extract_lets +onlyGivenNames x1
    have e2 : P x1 := by
      unfold x1
      refine State.calBegin_keep k.sub ?_
      assumption
    clear_value x1
    split
    · extract_lets +onlyGivenNames x3
      extract_lets +onlyGivenNames x4
      have e5 : P x4 := by
        unfold x4
        refine foldl_keep (fun t6 x7 e8 => ?_) ?_
        · split
          · refine setFld_keep k (CONV_BAY_STAT 0) 16 64 ⟨_, rfl⟩ ?_
            assumption
          · assumption
        · assumption
      clear_value x4
      refine State.nextTakeover_keep k.sub ?_
      refine State.onTakeover_keep k.sub ?_
      assumption
    · refine State.coreOut_keep k.sub ?_
      assumption
    · refine State.showTransom_keep k.sub ?_
      refine State.onTransom_keep k.sub ?_
      assumption
    · assumption

theorem execCalGroupStart_keep {P : State → Prop} (k : Keeps [.mend, .qm, .arr CMP_ERR 0 1, .fresh, .log, .guard, .red, .arr RED_MIRROR 0 1, .time, .free, .arr CAL_STAT 0 1, .arr (CAL_GRP_STAT 0) 16 29, .cal, .arr (CONV_BAY_STAT 0) 16 64, .acq, .arr (CONV_RELIEF 0) 4 4, .arr (TIU_CORE_STAT 0) 16 8, .tiu, .arr CONV_TSEQ_STAT 0 1] P) {a1 : _} {a2 : _} {s3 : State} (h3 : P s3) : ∀ u, execCalGroupStart a1 a2 s3 = .next u → P u := by
  unfold execCalGroupStart
  refine event_keep k.sub ?_ ?_
  · assumption
  · intro y0
    intro y1
    refine State.calStart_keep k.sub ?_
    assumption

theorem State.calDone_keep {P : State → Prop} (k : Keeps [.arr CAL_STAT 0 1, .cal, .nvm, .arr (CAL_GRP_STAT 0) 16 29, .arr (CAL_GRP_QUAL 0) 16 29, .arr CAL_COUNT 0 1, .fresh, .acq, .arr (CONV_TRIM 0) 4 512, .arr (DEC_BAY_CFG 0) 16 64, .cmd, .arr CMD_CACHE 0 1, .mend, .qm, .log] P) {s1 : State} {a2 : _} {a3 : _} {a4 : _} (h1 : P s1) : P (State.calDone s1 a2 a3 a4) := by
  unfold State.calDone
  extract_lets +onlyGivenNames x0
  extract_lets +onlyGivenNames x1
  split
  · assumption
  · extract_lets +onlyGivenNames x2
    refine State.calFinish_keep k.sub ?_
    split
    · assumption
    · refine foldl_keep (fun t3 x4 e5 => ?_) ?_
      · refine State.calValue_keep k.sub ?_
        assumption
      · assumption

theorem execCalGroupDone_keep {P : State → Prop} (k : Keeps [.mend, .qm, .arr CMP_ERR 0 1, .fresh, .log, .guard, .red, .arr RED_MIRROR 0 1, .time, .free, .arr CAL_STAT 0 1, .cal, .nvm, .arr (CAL_GRP_STAT 0) 16 29, .arr (CAL_GRP_QUAL 0) 16 29, .arr CAL_COUNT 0 1, .acq, .arr (CONV_TRIM 0) 4 512, .arr (DEC_BAY_CFG 0) 16 64, .cmd, .arr CMD_CACHE 0 1] P) {a1 : _} {a2 : _} {a3 : _} {a4 : _} {s5 : State} (h5 : P s5) : ∀ u, execCalGroupDone a1 a2 a3 a4 s5 = .next u → P u := by
  unfold execCalGroupDone
  refine event_keep k.sub ?_ ?_
  · assumption
  · intro y0
    intro y1
    refine State.calDone_keep k.sub ?_
    assumption

theorem State.vernierDone_keep {P : State → Prop} (k : Keeps [.arr (TIU_CORE_STAT 0) 16 8, .tiu, .arr (CAL_GRP_STAT 0) 16 29, .cal, .arr CAL_STAT 0 1, .nvm, .arr (CAL_GRP_QUAL 0) 16 29, .arr CAL_COUNT 0 1, .fresh, .acq, .arr (CONV_TRIM 0) 4 512, .arr (DEC_BAY_CFG 0) 16 64, .cmd, .arr CMD_CACHE 0 1, .mend, .qm, .log] P) {s1 : State} {a2 : _} {a3 : _} {a4 : _} (h1 : P s1) : P (State.vernierDone s1 a2 a3 a4) := by
  unfold State.vernierDone
  extract_lets +onlyGivenNames x0
  split
  · assumption
  · refine State.coreBack_keep k.sub ?_
    refine State.calFinish_keep k.sub ?_
    refine foldl_keep (fun t1 x2 e3 => ?_) ?_
    · refine State.calValue_keep k.sub ?_
      assumption
    · assumption

theorem execVernierCalDone_keep {P : State → Prop} (k : Keeps [.mend, .qm, .arr CMP_ERR 0 1, .fresh, .log, .guard, .red, .arr RED_MIRROR 0 1, .time, .free, .arr (TIU_CORE_STAT 0) 16 8, .tiu, .arr (CAL_GRP_STAT 0) 16 29, .cal, .arr CAL_STAT 0 1, .nvm, .arr (CAL_GRP_QUAL 0) 16 29, .arr CAL_COUNT 0 1, .acq, .arr (CONV_TRIM 0) 4 512, .arr (DEC_BAY_CFG 0) 16 64, .cmd, .arr CMD_CACHE 0 1] P) {a1 : _} {a2 : _} {a3 : _} {a4 : _} {s5 : State} (h5 : P s5) : ∀ u, execVernierCalDone a1 a2 a3 a4 s5 = .next u → P u := by
  unfold execVernierCalDone
  refine event_keep k.sub ?_ ?_
  · assumption
  · intro y0
    intro y1
    refine State.vernierDone_keep k.sub ?_
    assumption

theorem State.calRetry_keep {P : State → Prop} (k : Keeps [.arr (CAL_GRP_STAT 0) 16 29, .cal] P) {s1 : State} {a2 : _} (h1 : P s1) : P (State.calRetry s1 a2) := by
  unfold State.calRetry
  extract_lets +onlyGivenNames x0
  split
  · assumption
  · refine State.queueCal_keep k.sub ?_
    refine (k.at .cal) _ _ ?_
    assumption

theorem execCalRetry_keep {P : State → Prop} (k : Keeps [.mend, .qm, .arr CMP_ERR 0 1, .fresh, .log, .guard, .red, .arr RED_MIRROR 0 1, .time, .free, .arr (CAL_GRP_STAT 0) 16 29, .cal] P) {a1 : _} {a2 : _} {s3 : State} (h3 : P s3) : ∀ u, execCalRetry a1 a2 s3 = .next u → P u := by
  unfold execCalRetry
  refine event_keep k.sub ?_ ?_
  · assumption
  · intro y0
    intro y1
    refine State.calRetry_keep k.sub ?_
    assumption

theorem bodyCalRun_keep {P : State → Prop} (k : Keeps [.cal, .arr (CAL_GRP_STAT 0) 16 29] P) {a1 : _} {a2 : _} {s3 : State} (h3 : P s3) : (bodyCalRun a1 a2 s3).Holds P := by
  unfold bodyCalRun
  extract_lets +onlyGivenNames x0
  extract_lets +onlyGivenNames x1
  extract_lets +onlyGivenNames x2
  extract_lets +onlyGivenNames x3
  extract_lets +onlyGivenNames x4
  refine checked_keep ?_ ?_
  · assumption
  · extract_lets +onlyGivenNames x5
    have e6 : P x5 := by
      unfold x5
      refine (k.at .cal) _ _ ?_
      assumption
    clear_value x5
    show P _
    refine foldl_keep (fun t7 x8 e9 => ?_) ?_
    · refine State.queueCal_keep k.sub ?_
      assumption
    · assumption

theorem bodyCalStatus_keep {P : State → Prop} (k : Keeps [] P) {a1 : _} {a2 : _} {s3 : State} (h3 : P s3) : (bodyCalStatus a1 a2 s3).Holds P := by
  unfold bodyCalStatus
  show P _
  assumption

theorem bodyCalCoeffRead_keep {P : State → Prop} (k : Keeps [] P) {a1 : _} {a2 : _} {s3 : State} (h3 : P s3) : (bodyCalCoeffRead a1 a2 s3).Holds P := by
  unfold bodyCalCoeffRead
  extract_lets +onlyGivenNames x0
  extract_lets +onlyGivenNames x1
  extract_lets +onlyGivenNames x2
  extract_lets +onlyGivenNames x3
  extract_lets +onlyGivenNames x4
  refine checked_keep ?_ ?_
  · assumption
  · show P _
    assumption

theorem bodyCalPolicy_keep {P : State → Prop} (k : Keeps [.nvm, .arr CAL_PERIOD 0 1, .arr CAL_POLICY 0 1] P) {a1 : _} {a2 : _} {s3 : State} (h3 : P s3) : (bodyCalPolicy a1 a2 s3).Holds P := by
  unfold bodyCalPolicy
  extract_lets +onlyGivenNames x0
  refine checked_keep ?_ ?_
  · assumption
  · show P _
    unfold State.wrNvm
    refine State.storeNvm_keep k.sub ?_
    refine (k.at (.arr CAL_PERIOD 0 1)) _ _ _ ⟨0, rfl⟩ ?_
    refine State.storeNvm_keep k.sub ?_
    refine (k.at (.arr CAL_POLICY 0 1)) _ _ _ ⟨0, rfl⟩ ?_
    assumption

theorem State.sensorRead_keep {P : State → Prop} (k : Keeps [.sys, .qm, .log, .mend, .arr SYS_SENSOR_ALM 0 1, .fresh, .arr (CAL_GRP_STAT 0) 16 29, .cal] P) {s1 : State} {a2 : _} {a3 : _} (h1 : P s1) : P (State.sensorRead s1 a2 a3) := by
  unfold State.sensorRead
  extract_lets +onlyGivenNames x0
  extract_lets +onlyGivenNames x1
  extract_lets +onlyGivenNames x2
  extract_lets +onlyGivenNames x3
  have e4 : P x3 := by
    unfold x3
    refine (k.at .sys) _ _ ?_
    assumption
  clear_value x3
  extract_lets +onlyGivenNames x5
  have e6 : P x5 := by
    unfold x5
    refine (k.at .sys) _ _ ?_
    assumption
  clear_value x5
  extract_lets +onlyGivenNames x7
  have e8 : P x7 := by
    unfold x7
    split
    · assumption
    · refine State.issue_keep k.sub ?_
      refine setBit_keep k SYS_SENSOR_ALM 0 1 ⟨0, rfl⟩ ?_
      assumption
  clear_value x7
  extract_lets +onlyGivenNames x9
  split
  · assumption
  · refine State.calTempMoves_keep k.sub ?_
    assumption

theorem State.pollFill_keep {P : State → Prop} (k : Keeps [.arr CONV_TSEQ_STAT 0 1, .acq] P) {s1 : State} (h1 : P s1) : P (State.pollFill s1) := by
  unfold State.pollFill
  refine foldl_keep (fun t0 x1 e2 => ?_) ?_
  · split
    · assumption
    · refine State.urgentRequest_keep k.sub ?_
      refine State.onTransom_keep k.sub ?_
      assumption
  · assumption

theorem State.sensorPoll_keep {P : State → Prop} (k : Keeps [.arr CONV_TSEQ_STAT 0 1, .acq, .sys] P) {s1 : State} (h1 : P s1) : P (State.sensorPoll s1) := by
  unfold State.sensorPoll
  extract_lets +onlyGivenNames x0
  split
  · assumption
  · refine State.pollFill_keep k.sub ?_
    refine State.onTransom_keep k.sub ?_
    refine (k.at .sys) _ _ ?_
    assumption

theorem execSensorPoll_keep {P : State → Prop} (k : Keeps [.mend, .qm, .arr CMP_ERR 0 1, .fresh, .log, .guard, .red, .arr RED_MIRROR 0 1, .time, .free, .arr CONV_TSEQ_STAT 0 1, .acq, .sys] P) {a1 : _} {s2 : State} (h2 : P s2) : ∀ u, execSensorPoll a1 s2 = .next u → P u := by
  unfold execSensorPoll
  refine event_keep k.sub ?_ ?_
  · assumption
  · intro y0
    intro y1
    refine State.sensorPoll_keep k.sub ?_
    assumption

theorem State.transomDone_keep {P : State → Prop} (k : Keeps [.acq, .log, .qm, .mend, .arr (CONV_TRESULT 0) 4 64, .arr CMP_ERR 0 1, .fresh, .cmd, .arr CMD_CACHE 0 1, .sys, .arr SYS_SENSOR_ALM 0 1, .arr (CAL_GRP_STAT 0) 16 29, .cal, .arr CONV_TSEQ_STAT 0 1, .arr CONV_TSEQ_CTRL 0 1, .arr CAL_STAT 0 1] P) {s1 : State} {a2 : _} (h1 : P s1) : P (State.transomDone s1 a2) := by
  unfold State.transomDone
  extract_lets +onlyGivenNames x0
  split
  · split
    · assumption
    · extract_lets +onlyGivenNames x1
      extract_lets +onlyGivenNames x2
      have e3 : P x2 := by
        unfold x2
        refine State.onTransom_keep k.sub ?_
        refine State.transomResult_keep k.sub ?_
        assumption
      clear_value x2
      extract_lets +onlyGivenNames x4
      have e5 : P x4 := by
        unfold x4
        split
        · refine State.answer_keep k.sub ?_
          assumption
        · refine State.sensorRead_keep k.sub ?_
          assumption
      clear_value x4
      refine State.pollFill_keep k.sub ?_
      refine State.transomNext_keep k.sub ?_
      assumption
  · split
    · assumption
    · extract_lets +onlyGivenNames x6
      split
      · assumption
      · extract_lets +onlyGivenNames x7
        have e8 : P x7 := by
          unfold x7
          refine State.transomResult_keep k.sub ?_
          assumption
        clear_value x7
        split
        · extract_lets +onlyGivenNames x9
          extract_lets +onlyGivenNames x10
          extract_lets +onlyGivenNames x11
          have e12 : P x11 := by
            unfold x11
            split
            · refine State.calBegin_keep k.sub ?_
              assumption
            · assumption
          clear_value x11
          extract_lets +onlyGivenNames x13
          extract_lets +onlyGivenNames x14
          refine State.pollFill_keep k.sub ?_
          refine State.transomNext_keep k.sub ?_
          refine State.onTransom_keep k.sub ?_
          assumption
        · refine State.transomNext_keep k.sub ?_
          refine State.onTransom_keep k.sub ?_
          assumption

theorem execTransomEntryDone_keep {P : State → Prop} (k : Keeps [.mend, .qm, .arr CMP_ERR 0 1, .fresh, .log, .guard, .red, .arr RED_MIRROR 0 1, .time, .free, .acq, .arr (CONV_TRESULT 0) 4 64, .cmd, .arr CMD_CACHE 0 1, .sys, .arr SYS_SENSOR_ALM 0 1, .arr (CAL_GRP_STAT 0) 16 29, .cal, .arr CONV_TSEQ_STAT 0 1, .arr CONV_TSEQ_CTRL 0 1, .arr CAL_STAT 0 1] P) {a1 : _} {a2 : _} {s3 : State} (h3 : P s3) : ∀ u, execTransomEntryDone a1 a2 s3 = .next u → P u := by
  unfold execTransomEntryDone
  refine event_keep k.sub ?_ ?_
  · assumption
  · intro y0
    intro y1
    refine State.transomDone_keep k.sub ?_
    assumption

theorem State.transomCalibrated_keep {P : State → Prop} (k : Keeps [.arr CONV_TSEQ_STAT 0 1, .acq, .arr CONV_TSEQ_CTRL 0 1] P) {s1 : State} (h1 : P s1) : P (State.transomCalibrated s1) := by
  unfold State.transomCalibrated
  extract_lets +onlyGivenNames x0
  split
  · assumption
  · refine State.pollFill_keep k.sub ?_
    refine State.transomNext_keep k.sub ?_
    refine State.onTransom_keep k.sub ?_
    assumption

theorem execTransomCalibrationDone_keep {P : State → Prop} (k : Keeps [.mend, .qm, .arr CMP_ERR 0 1, .fresh, .log, .guard, .red, .arr RED_MIRROR 0 1, .time, .free, .arr CONV_TSEQ_STAT 0 1, .acq, .arr CONV_TSEQ_CTRL 0 1] P) {a1 : _} {s2 : State} (h2 : P s2) : ∀ u, execTransomCalibrationDone a1 s2 = .next u → P u := by
  unfold execTransomCalibrationDone
  refine event_keep k.sub ?_ ?_
  · assumption
  · intro y0
    intro y1
    refine State.transomCalibrated_keep k.sub ?_
    assumption

theorem State.pmcClear_keep {P : State → Prop} (k : Keeps [.log] P) {s1 : State} (h1 : P s1) : P (State.pmcClear s1) := by
  unfold State.pmcClear
  refine foldl_keep (fun t0 x1 e2 => ?_) ?_
  · extract_lets +onlyGivenNames x3
    refine setFld_keep_log k (logAddr_cnt _) ?_
    assumption
  · assumption

theorem State.pmcZero_keep {P : State → Prop} (k : Keeps [.log] P) {s1 : State} (h1 : P s1) : P (State.pmcZero s1) := by
  unfold State.pmcZero
  refine setFld_keep_log k logAddr_ovf ?_
  refine State.pmcClear_keep k.sub ?_
  assumption

theorem State.pmcHold_keep {P : State → Prop} (k : Keeps [.pmc] P) {s1 : State} (h1 : P s1) : P (State.pmcHold s1) := by
  unfold State.pmcHold
  refine (k.at .pmc) _ _ ?_
  assumption

theorem bodyPmcConfig_keep {P : State → Prop} (k : Keeps [.pmc, .log, .arr (PMC_CFG 0) 16 8, .arr PMC_CTRL 0 1] P) {a1 : _} {a2 : _} {s3 : State} (h3 : P s3) : (bodyPmcConfig a1 a2 s3).Holds P := by
  unfold bodyPmcConfig
  extract_lets +onlyGivenNames x0
  extract_lets +onlyGivenNames x1
  extract_lets +onlyGivenNames x2
  extract_lets +onlyGivenNames x3
  extract_lets +onlyGivenNames x4
  refine checked_keep ?_ ?_
  · assumption
  · extract_lets +onlyGivenNames x5
    have e6 : P x5 := by
      unfold x5
      refine State.pmcHold_keep k.sub ?_
      assumption
    clear_value x5
    extract_lets +onlyGivenNames x7
    have e8 : P x7 := by
      unfold x7
      split
      · refine State.pmcZero_keep k.sub ?_
        assumption
      · assumption
    clear_value x7
    extract_lets +onlyGivenNames x9
    have e10 : P x9 := by
      unfold x9
      refine foldl_keep (fun t11 x12 e13 => ?_) ?_
      · refine (k.at (.arr (PMC_CFG 0) 16 8)) _ _ _ ⟨_, rfl⟩ ?_
        assumption
      · assumption
    clear_value x9
    extract_lets +onlyGivenNames x14
    have e15 : P x14 := by
      unfold x14
      split
      · refine setFld_keep k PMC_CTRL 0 1 ⟨0, rfl⟩ ?_
        assumption
      · split
        · refine setFld_keep k PMC_CTRL 0 1 ⟨0, rfl⟩ ?_
          assumption
        · assumption
    clear_value x14
    show P _
    assumption

theorem bodyPmcRead_keep {P : State → Prop} (k : Keeps [.log] P) {a1 : _} {a2 : _} {s3 : State} (h3 : P s3) : (bodyPmcRead a1 a2 s3).Holds P := by
  unfold bodyPmcRead
  refine checked_keep ?_ ?_
  · assumption
  · extract_lets +onlyGivenNames x0
    extract_lets +onlyGivenNames x1
    show P _
    split
    · refine State.pmcZero_keep k.sub ?_
      assumption
    · assumption

theorem State.setDump_keep {P : State → Prop} (k : Keeps [.arr PMC_DUMP 0 1, .pmc] P) {s1 : State} {a2 : _} (h1 : P s1) : P (State.setDump s1 a2) := by
  unfold State.setDump
  extract_lets +onlyGivenNames x0
  extract_lets +onlyGivenNames x1
  have e2 : P x1 := by
    unfold x1
    refine setFld_keep k PMC_DUMP 0 1 ⟨0, rfl⟩ ?_
    refine setFld_keep k PMC_DUMP 0 1 ⟨0, rfl⟩ ?_
    refine setFld_keep k PMC_DUMP 0 1 ⟨0, rfl⟩ ?_
    assumption
  clear_value x1
  split
  · refine (k.at .pmc) _ _ ?_
    assumption
  · assumption

theorem bodyPmcDumpConfig_keep {P : State → Prop} (k : Keeps [.arr PMC_DUMP 0 1, .pmc] P) {a1 : _} {a2 : _} {s3 : State} (h3 : P s3) : (bodyPmcDumpConfig a1 a2 s3).Holds P := by
  unfold bodyPmcDumpConfig
  extract_lets +onlyGivenNames x0
  refine checked_keep ?_ ?_
  · assumption
  · show P _
    refine State.setDump_keep k.sub ?_
    assumption

theorem State.pmcDump_keep {P : State → Prop} (k : Keeps [.pmc, .arr PMC_DUMP 0 1, .fresh, .mend, .qm, .log] P) {s1 : State} (h1 : P s1) : P (State.pmcDump s1) := by
  unfold State.pmcDump
  split
  · assumption
  · extract_lets +onlyGivenNames x0
    have e1 : P x0 := by
      unfold x0
      refine (k.at .pmc) _ _ ?_
      assumption
    clear_value x0
    split
    · assumption
    · split
      · refine (k.at .pmc) _ _ ?_
        refine bump_keep k PMC_DUMP 0 1 ⟨0, rfl⟩ ?_
        assumption
      · extract_lets +onlyGivenNames x2
        extract_lets +onlyGivenNames x3
        extract_lets +onlyGivenNames x4
        have e5 : P x4 := by
          unfold x4
          refine (k.at .pmc) _ _ ?_
          refine State.addSeqRec_keep k.sub ?_
          assumption
        clear_value x4
        split
        · refine State.pmcClear_keep k.sub ?_
          assumption
        · assumption

theorem execPmcDump_keep {P : State → Prop} (k : Keeps [.mend, .qm, .arr CMP_ERR 0 1, .fresh, .log, .guard, .red, .arr RED_MIRROR 0 1, .time, .free, .pmc, .arr PMC_DUMP 0 1] P) {a1 : _} {s2 : State} (h2 : P s2) : ∀ u, execPmcDump a1 s2 = .next u → P u := by
  unfold execPmcDump
  refine event_keep k.sub ?_ ?_
  · assumption
  · intro y0
    intro y1
    refine State.pmcDump_keep k.sub ?_
    assumption

theorem execPmcClear_keep {P : State → Prop} (k : Keeps [.mend, .qm, .arr CMP_ERR 0 1, .fresh, .log, .guard, .red, .arr RED_MIRROR 0 1, .time, .free] P) {a1 : _} {s2 : State} (h2 : P s2) : ∀ u, execPmcClear a1 s2 = .next u → P u := by
  unfold execPmcClear
  refine event_keep k.sub ?_ ?_
  · assumption
  · intro y0
    intro y1
    refine State.pmcZero_keep k.sub ?_
    assumption

theorem execJtagInstruction_keep {P : State → Prop} (k : Keeps [.mend, .qm, .arr CMP_ERR 0 1, .fresh, .log, .guard, .red, .arr RED_MIRROR 0 1, .time, .free, .sys] P) {a1 : _} {a2 : _} {s3 : State} (h3 : P s3) : ∀ u, execJtagInstruction a1 a2 s3 = .next u → P u := by
  unfold execJtagInstruction
  refine event_keep k.sub ?_ ?_
  · assumption
  · intro y0
    intro y1
    refine (k.at .sys) _ _ ?_
    assumption

end Sys2Proof.Machine
end

