-- ==== Sys2Proof/Laws/KeepI.lean ====
section
/-!
SUPPORT. What the operations of Machine/TimeBase, TimeCmds may touch: one lemma per function (Laws/Keep.lean).
-/

namespace Sys2Proof.Machine

set_option Elab.async false

open Reg Bits

theorem State.commitIncr_keep {P : State → Prop} (k : Keeps [.arr (TB_DOM_STAT 0) 256 2, .tb] P) {s1 : State} {a2 : _} {a3 : _} (h1 : P s1) : P (State.commitIncr s1 a2 a3) := by
  unfold State.commitIncr
  split
  · refine setFld_keep k (TB_DOM_STAT 0) 256 2 ⟨_, rfl⟩ ?_
    refine State.onDom_keep k.sub ?_
    assumption
  · assumption

theorem State.setMap_keep {P : State → Prop} (k : Keeps [.arr (TB_INCR 0) 256 2, .arr (TB_INCR 0 + 4) 256 2, .tb] P) {s1 : State} {a2 : _} {a3 : _} {a4 : _} {a5 : _} (h1 : P s1) : P (State.setMap s1 a2 a3 a4 a5) := by
  unfold State.setMap
  extract_lets +onlyGivenNames x0
  refine wr64_keep k (TB_INCR 0) 256 2 ⟨_, rfl⟩ ?_
  refine State.onDom_keep k.sub ?_
  assumption

theorem State.applyIncr_keep {P : State → Prop} (k : Keeps [.arr (TB_INCR 0) 256 2, .arr (TB_INCR 0 + 4) 256 2, .tb, .arr (TB_DOM_STAT 0) 256 2] P) {s1 : State} {a2 : _} {a3 : _} (h1 : P s1) : P (State.applyIncr s1 a2 a3) := by
  unfold State.applyIncr
  extract_lets +onlyGivenNames x0
  split
  · assumption
  · extract_lets +onlyGivenNames x1
    have e2 : P x1 := by
      unfold x1
      refine State.setMap_keep k.sub ?_
      assumption
    clear_value x1
    extract_lets +onlyGivenNames x3
    refine setFld_keep k (TB_DOM_STAT 0) 256 2 ⟨_, rfl⟩ ?_
    refine State.onDom_keep k.sub ?_
    assumption

theorem State.rebase_keep {P : State → Prop} (k : Keeps [.cap, .acq, .fblk, .pmc] P) {s1 : State} (h1 : P s1) : P (State.rebase s1) := by
  unfold State.rebase
  extract_lets +onlyGivenNames x0
  extract_lets +onlyGivenNames x1
  have e2 : P x1 := by
    unfold x1
    refine foldl_keep (fun t3 x4 e5 => ?_) ?_
    · split
      · refine State.onUnit_keep k.sub ?_
        assumption
      · assumption
    · assumption
  clear_value x1
  extract_lets +onlyGivenNames x6
  have e7 : P x6 := by
    unfold x6
    refine (k.at .acq) _ _ ?_
    assumption
  clear_value x6
  extract_lets +onlyGivenNames x8
  have e9 : P x8 := by
    unfold x8
    refine foldl_keep (fun t10 x11 e12 => ?_) ?_
    · refine State.onFport_keep k.sub ?_
      assumption
    · assumption
  clear_value x8
  refine (k.at .pmc) _ _ ?_
  assumption

theorem State.stepStream_keep {P : State → Prop} (k : Keeps [.qm, .acq, .mend, .arr CMP_ERR 0 1, .fresh, .log, .arr (DEC_CH_STAT 0) 16 512] P) {s1 : State} {a2 : _} (h1 : P s1) : P (State.stepStream s1 a2) := by
  unfold State.stepStream
  extract_lets +onlyGivenNames x0
  extract_lets +onlyGivenNames x1
  extract_lets +onlyGivenNames x2
  extract_lets +onlyGivenNames x3
  have e4 : P x3 := by
    unfold x3
    split
    · assumption
    · refine State.closeKey_keep k.sub ?_
      assumption
  clear_value x3
  refine State.onStrm_keep k.sub ?_
  refine State.awaitStream_keep k.sub ?_
  assumption

theorem State.servedStep_keep {P : State → Prop} (k : Keeps [.qm, .acq, .mend, .arr CMP_ERR 0 1, .fresh, .log, .arr (DEC_CH_STAT 0) 16 512, .cap, .arr (MEM_ERR 0) 32 5, .arr (MEM_ERR_INFO 0) 32 5, .free, .arr (MEM_ERR_ADDR 0) 32 5, .arr (MEM_ERR_ADDR 0 + 4) 32 5, .mem, .arr (CAP_ENG_STAT 0) 64 16, .tb, .fblk, .pmc] P) {s1 : State} {a2 : _} (h1 : P s1) : P (State.servedStep s1 a2) := by
  unfold State.servedStep
  extract_lets +onlyGivenNames x0
  extract_lets +onlyGivenNames x1
  extract_lets +onlyGivenNames x2
  extract_lets +onlyGivenNames x3
  extract_lets +onlyGivenNames x4
  extract_lets +onlyGivenNames x5
  have e6 : P x5 := by
    unfold x5
    refine foldl_keep (fun t7 x8 e9 => ?_) ?_
    · refine State.stepStream_keep k.sub ?_
      assumption
    · assumption
  clear_value x5
  extract_lets +onlyGivenNames x10
  have e11 : P x10 := by
    unfold x10
    refine foldl_keep (fun t12 x13 e14 => ?_) ?_
    · refine State.onStrm_keep k.sub ?_
      assumption
    · assumption
  clear_value x10
  extract_lets +onlyGivenNames x15
  have e16 : P x15 := by
    unfold x15
    refine foldl_keep (fun t17 x18 e19 => ?_) ?_
    · refine State.onStrm_keep k.sub ?_
      refine State.closeKey_keep k.sub ?_
      assumption
    · assumption
  clear_value x15
  extract_lets +onlyGivenNames x20
  have e21 : P x20 := by
    unfold x20
    split
    · assumption
    · refine State.issue_keep k.sub ?_
      assumption
  clear_value x20
  extract_lets +onlyGivenNames x22
  have e23 : P x22 := by
    unfold x22
    refine foldl_keep (fun t24 x25 e26 => ?_) ?_
    · refine State.breakHistory_keep k.sub ?_
      assumption
    · assumption
  clear_value x22
  extract_lets +onlyGivenNames x27
  have e28 : P x27 := by
    unfold x27
    refine foldl_keep (fun t29 x30 e31 => ?_) ?_
    · refine foldl_keep (fun t32 x33 e34 => ?_) ?_
      · refine State.endPane_keep k.sub ?_
        assumption
      · assumption
    · assumption
  clear_value x27
  extract_lets +onlyGivenNames x35
  extract_lets +onlyGivenNames x36
  have e37 : P x36 := by
    unfold x36
    refine (k.at .cap) _ _ ?_
    assumption
  clear_value x36
  extract_lets +onlyGivenNames x38
  have e39 : P x38 := by
    unfold x38
    refine (k.at .acq) _ _ ?_
    assumption
  clear_value x38
  extract_lets +onlyGivenNames x40
  have e41 : P x40 := by
    unfold x40
    refine foldl_keep (fun t42 x43 e44 => ?_) ?_
    · extract_lets +onlyGivenNames x45
      split
      · refine State.onAct_keep k.sub ?_
        assumption
      · assumption
    · assumption
  clear_value x40
  refine State.rebase_keep k.sub ?_
  assumption

theorem State.domStep_keep {P : State → Prop} (k : Keeps [.arr (TB_INCR 0) 256 2, .arr (TB_INCR 0 + 4) 256 2, .tb, .qm, .log, .mend, .arr (TB_DOM_STAT 0) 256 2, .fresh, .acq, .arr CMP_ERR 0 1, .arr (DEC_CH_STAT 0) 16 512, .cap, .arr (MEM_ERR 0) 32 5, .arr (MEM_ERR_INFO 0) 32 5, .free, .arr (MEM_ERR_ADDR 0) 32 5, .arr (MEM_ERR_ADDR 0 + 4) 32 5, .mem, .arr (CAP_ENG_STAT 0) 64 16, .fblk, .pmc] P) {s1 : State} {a2 : _} {a3 : _} {a4 : _} {a5 : _} (h1 : P s1) : P (State.domStep s1 a2 a3 a4 a5) := by
  unfold State.domStep
  extract_lets +onlyGivenNames x0
  extract_lets +onlyGivenNames x1
  extract_lets +onlyGivenNames x2
  have e3 : P x2 := by
    unfold x2
    refine State.setMap_keep k.sub ?_
    assumption
  clear_value x2
  extract_lets +onlyGivenNames x4
  have e5 : P x4 := by
    unfold x4
    refine State.issue_keep k.sub ?_
    refine bump_keep k (TB_DOM_STAT 0) 256 2 ⟨_, rfl⟩ ?_
    assumption
  clear_value x4
  split
  · refine State.servedStep_keep k.sub ?_
    assumption
  · assumption

theorem State.applyStep_keep {P : State → Prop} (k : Keeps [.tb, .arr (TB_INCR 0) 256 2, .arr (TB_INCR 0 + 4) 256 2, .qm, .log, .mend, .arr (TB_DOM_STAT 0) 256 2, .fresh, .acq, .arr CMP_ERR 0 1, .arr (DEC_CH_STAT 0) 16 512, .cap, .arr (MEM_ERR 0) 32 5, .arr (MEM_ERR_INFO 0) 32 5, .free, .arr (MEM_ERR_ADDR 0) 32 5, .arr (MEM_ERR_ADDR 0 + 4) 32 5, .mem, .arr (CAP_ENG_STAT 0) 64 16, .fblk, .pmc, .arr (TB_ANCHOR_CTRL 0) 256 2] P) {s1 : State} {a2 : _} {a3 : _} (h1 : P s1) : P (State.applyStep s1 a2 a3) := by
  unfold State.applyStep
  extract_lets +onlyGivenNames x0
  extract_lets +onlyGivenNames x1
  have e2 : P x1 := by
    unfold x1
    refine State.onDom_keep k.sub ?_
    assumption
  clear_value x1
  split
  · refine State.domStep_keep k.sub ?_
    refine setFld_keep k (TB_ANCHOR_CTRL 0) 256 2 ⟨_, rfl⟩ ?_
    assumption
  · clear_value x0
    split
    · refine State.domStep_keep k.sub ?_
      assumption
    · assumption

theorem State.setServed_keep {P : State → Prop} (k : Keeps [.tb] P) {s1 : State} {a2 : _} {a3 : _} {a4 : _} (h1 : P s1) : P (State.setServed s1 a2 a3 a4) := by
  unfold State.setServed
  refine (k.at .tb) _ _ ?_
  assumption

theorem State.applyServed_keep {P : State → Prop} (k : Keeps [.tb, .qm, .log, .mend, .acq, .arr CMP_ERR 0 1, .fresh, .arr (DEC_CH_STAT 0) 16 512, .cap, .arr (MEM_ERR 0) 32 5, .arr (MEM_ERR_INFO 0) 32 5, .free, .arr (MEM_ERR_ADDR 0) 32 5, .arr (MEM_ERR_ADDR 0 + 4) 32 5, .mem, .arr (CAP_ENG_STAT 0) 64 16, .fblk, .pmc] P) {s1 : State} {a2 : _} (h1 : P s1) : P (State.applyServed s1 a2) := by
  unfold State.applyServed
  extract_lets +onlyGivenNames x0
  extract_lets +onlyGivenNames x1
  extract_lets +onlyGivenNames x2
  extract_lets +onlyGivenNames x3
  extract_lets +onlyGivenNames x4
  extract_lets +onlyGivenNames x5
  extract_lets +onlyGivenNames x6
  extract_lets +onlyGivenNames x7
  have e8 : P x7 := by
    unfold x7
    refine State.setServed_keep k.sub ?_
    assumption
  clear_value x7
  extract_lets +onlyGivenNames x9
  have e10 : P x9 := by
    unfold x9
    refine State.issue_keep k.sub ?_
    assumption
  clear_value x9
  extract_lets +onlyGivenNames x11
  have e12 : P x11 := by
    unfold x11
    split
    · split
      · assumption
      · refine State.setServed_keep k.sub ?_
        assumption
    · split
      · refine State.servedStep_keep k.sub ?_
        refine State.issue_keep k.sub ?_
        assumption
      · assumption
  clear_value x11
  split
  · refine (k.at .tb) _ _ ?_
    assumption
  · assumption

theorem State.setDom_keep {P : State → Prop} (k : Keeps [.arr (TB_DOM_STAT 0) 256 2, .qm, .log, .mend] P) {s1 : State} {a2 : _} {a3 : _} {a4 : _} (h1 : P s1) : P (State.setDom s1 a2 a3 a4) := by
  unfold State.setDom
  extract_lets +onlyGivenNames x0
  extract_lets +onlyGivenNames x1
  extract_lets +onlyGivenNames x2
  have e3 : P x2 := by
    unfold x2
    refine setFld_keep k (TB_DOM_STAT 0) 256 2 ⟨_, rfl⟩ ?_
    refine setFld_keep k (TB_DOM_STAT 0) 256 2 ⟨_, rfl⟩ ?_
    assumption
  clear_value x2
  split
  · assumption
  · refine State.issue_keep k.sub ?_
    assumption

theorem State.setFreeze_keep {P : State → Prop} (k : Keeps [.arr (TB_DOM_STAT 0) 256 2, .tb] P) {s1 : State} {a2 : _} {a3 : _} (h1 : P s1) : P (State.setFreeze s1 a2 a3) := by
  unfold State.setFreeze
  refine setFld_keep k (TB_DOM_STAT 0) 256 2 ⟨_, rfl⟩ ?_
  refine State.onDom_keep k.sub ?_
  assumption

theorem State.refreshDom_keep {P : State → Prop} (k : Keeps [.arr (TB_DOM_STAT 0) 256 2, .qm, .log, .mend] P) {s1 : State} {a2 : _} (h1 : P s1) : P (State.refreshDom s1 a2) := by
  unfold State.refreshDom
  extract_lets +onlyGivenNames x0
  extract_lets +onlyGivenNames x1
  have e2 : P x1 := by
    unfold x1
    refine setFld_keep k (TB_DOM_STAT 0) 256 2 ⟨_, rfl⟩ ?_
    refine setFld_keep k (TB_DOM_STAT 0) 256 2 ⟨_, rfl⟩ ?_
    assumption
  clear_value x1
  split
  · refine State.setDom_keep k.sub ?_
    assumption
  · assumption

theorem State.acquire_keep {P : State → Prop} (k : Keeps [.tb, .arr (TB_DOM_STAT 0) 256 2, .qm, .log, .mend] P) {s1 : State} {a2 : _} (h1 : P s1) : P (State.acquire s1 a2) := by
  unfold State.acquire
  extract_lets +onlyGivenNames x0
  have e1 : P x0 := by
    unfold x0
    refine State.onDom_keep k.sub ?_
    assumption
  clear_value x0
  refine State.refreshDom_keep k.sub ?_
  refine State.setDom_keep k.sub ?_
  refine State.setFreeze_keep k.sub ?_
  assumption

theorem State.track_keep {P : State → Prop} (k : Keeps [.tb, .arr (TB_DOM_STAT 0) 256 2, .qm, .log, .mend] P) {s1 : State} {a2 : _} (h1 : P s1) : P (State.track s1 a2) := by
  unfold State.track
  extract_lets +onlyGivenNames x0
  have e1 : P x0 := by
    unfold x0
    refine State.onDom_keep k.sub ?_
    assumption
  clear_value x0
  extract_lets +onlyGivenNames x2
  have e3 : P x2 := by
    unfold x2
    split
    · refine setFld_keep k (TB_DOM_STAT 0) 256 2 ⟨_, rfl⟩ ?_
      assumption
    · assumption
  clear_value x2
  extract_lets +onlyGivenNames x4
  have e5 : P x4 := by
    unfold x4
    refine setFld_keep k (TB_DOM_STAT 0) 256 2 ⟨_, rfl⟩ ?_
    assumption
  clear_value x4
  refine State.refreshDom_keep k.sub ?_
  refine State.setDom_keep k.sub ?_
  assumption

theorem State.domOff_keep {P : State → Prop} (k : Keeps [.arr (TB_DOM_STAT 0) 256 2, .tb, .qm, .log, .mend] P) {s1 : State} {a2 : _} (h1 : P s1) : P (State.domOff s1 a2) := by
  unfold State.domOff
  extract_lets +onlyGivenNames x0
  have e1 : P x0 := by
    unfold x0
    refine setFld_keep k (TB_DOM_STAT 0) 256 2 ⟨_, rfl⟩ ?_
    refine State.onDom_keep k.sub ?_
    assumption
  clear_value x0
  refine State.refreshDom_keep k.sub ?_
  refine State.setDom_keep k.sub ?_
  refine State.setFreeze_keep k.sub ?_
  assumption

theorem State.refreshUp_keep {P : State → Prop} (k : Keeps [.arr (TB_DOM_STAT 0) 256 2, .tb, .qm, .log, .mend] P) {s1 : State} {a2 : _} (h1 : P s1) : P (State.refreshUp s1 a2) := by
  unfold State.refreshUp
  split
  · assumption
  · split
    · extract_lets +onlyGivenNames x0
      split
      · refine State.domOff_keep k.sub ?_
        assumption
      · split
        · refine State.refreshDom_keep k.sub ?_
          refine setFld_keep k (TB_DOM_STAT 0) 256 2 ⟨_, rfl⟩ ?_
          assumption
        · refine State.refreshDom_keep k.sub ?_
          assumption
    · extract_lets +onlyGivenNames x1
      have e2 : P x1 := by
        unfold x1
        split
        · assumption
        · refine State.onDom_keep k.sub ?_
          refine setFld_keep k (TB_DOM_STAT 0) 256 2 ⟨_, rfl⟩ ?_
          assumption
      clear_value x1
      split
      · refine State.acquire_keep k.sub ?_
        assumption
      · refine State.refreshDom_keep k.sub ?_
        assumption

theorem State.servoStep_keep {P : State → Prop} (k : Keeps [.free, .arr (TB_DOM_STAT 0) 256 2, .tb] P) {s1 : State} {a2 : _} (h1 : P s1) : P (State.servoStep s1 a2) := by
  unfold State.servoStep
  extract_lets +onlyGivenNames x0
  extract_lets +onlyGivenNames x1
  extract_lets +onlyGivenNames x2
  split
  · assumption
  · split
    · split
      · extract_lets +onlyGivenNames x3
        extract_lets +onlyGivenNames x4
        split
        · unfold x3
          refine (k.at .free) _ ?_
          assumption
        · refine State.commitIncr_keep k.sub ?_
          unfold x3
          refine (k.at .free) _ ?_
          assumption
      · assumption
    · extract_lets +onlyGivenNames x5
      extract_lets +onlyGivenNames x6
      extract_lets +onlyGivenNames x7
      split
      · unfold x5
        refine (k.at .free) _ ?_
        assumption
      · refine State.commitIncr_keep k.sub ?_
        unfold x5
        refine (k.at .free) _ ?_
        assumption
    · split
      · refine State.commitIncr_keep k.sub ?_
        assumption
      · extract_lets +onlyGivenNames x8
        refine State.commitIncr_keep k.sub ?_
        unfold x8
        refine (k.at .free) _ ?_
        assumption
    · assumption

theorem State.holdBound_keep {P : State → Prop} (k : Keeps [.tb, .free, .arr (TB_DOM_STAT 0) 256 2, .qm, .log, .mend] P) {s1 : State} {a2 : _} {a3 : _} (h1 : P s1) : P (State.holdBound s1 a2 a3) := by
  unfold State.holdBound
  split
  · assumption
  · extract_lets +onlyGivenNames x0
    extract_lets +onlyGivenNames x1
    extract_lets +onlyGivenNames x2
    extract_lets +onlyGivenNames x3
    extract_lets +onlyGivenNames x4
    extract_lets +onlyGivenNames x5
    extract_lets +onlyGivenNames x6
    extract_lets +onlyGivenNames x7
    extract_lets +onlyGivenNames x8
    have e9 : P x8 := by
      unfold x8
      refine State.onDom_keep k.sub ?_
      split
      · unfold x2
        refine (k.at .free) _ ?_
        assumption
      · assumption
    clear_value x8
    refine State.setDom_keep k.sub ?_
    assumption

theorem State.sendTime_keep {P : State → Prop} (k : Keeps [.tb, .tiu, .log, .qm, .mend, .arr (TIU_CORE_STAT 0) 16 8, .fresh, .arr (TIU_CORE_ERR 0) 16 8, .free, .lnk] P) {s1 : State} {a2 : _} {a3 : _} (h1 : P s1) : P (State.sendTime s1 a2 a3) := by
  unfold State.sendTime
  extract_lets +onlyGivenNames x0
  extract_lets +onlyGivenNames x1
  extract_lets +onlyGivenNames x2
  extract_lets +onlyGivenNames x3
  extract_lets +onlyGivenNames x4
  extract_lets +onlyGivenNames x5
  have e6 : P x5 := by
    unfold x5
    refine State.onPtime_keep k.sub ?_
    refine State.stampEdge_keep k.sub ?_
    unfold x1
    refine (k.at .free) _ ?_
    assumption
  clear_value x5
  extract_lets +onlyGivenNames x7
  have e8 : P x7 := by
    unfold x7
    refine State.onLane_keep k.sub ?_
    refine State.onPort_keep k.sub ?_
    assumption
  clear_value x7
  split
  · assumption
  · extract_lets +onlyGivenNames x9
    extract_lets +onlyGivenNames x10
    have e11 : P x10 := by
      unfold x10
      refine State.onPtime_keep k.sub ?_
      assumption
    clear_value x10
    refine State.pushT_keep k.sub ?_
    assumption

theorem State.clearTime_keep {P : State → Prop} (k : Keeps [.arr (TB_PORT_FLAGS 0) 32 8, .tb] P) {s1 : State} {a2 : _} (h1 : P s1) : P (State.clearTime s1 a2) := by
  unfold State.clearTime
  refine setFld_keep k (TB_PORT_FLAGS 0) 32 8 ⟨_, rfl⟩ ?_
  refine State.onPtime_keep k.sub ?_
  assumption

theorem State.boundary_keep {P : State → Prop} (k : Keeps ([.tb, .arr (TB_INCR 0) 256 2, .arr (TB_INCR 0 + 4) 256 2, .arr (TB_DOM_STAT 0) 256 2, .qm, .log, .mend, .acq, .arr CMP_ERR 0 1, .fresh, .arr (DEC_CH_STAT 0) 16 512, .cap, .arr (MEM_ERR 0) 32 5, .arr (MEM_ERR_INFO 0) 32 5, .free, .arr (MEM_ERR_ADDR 0) 32 5, .arr (MEM_ERR_ADDR 0 + 4) 32 5, .mem, .arr (CAP_ENG_STAT 0) 64 16, .fblk, .pmc, .arr (TB_ANCHOR_CTRL 0) 256 2, .tiu, .arr (TIU_CORE_STAT 0) 16 8, .arr (TIU_CORE_ERR 0) 16 8] ++ [.lnk, .arr (TB_PORT_FLAGS 0) 32 8]) P) {s1 : State} (h1 : P s1) : P (State.boundary s1) := by
  unfold State.boundary
  extract_lets +onlyGivenNames x0
  split
  · assumption
  · extract_lets +onlyGivenNames x1
    extract_lets +onlyGivenNames x2
    have e3 : P x2 := by
      unfold x2
      refine (k.at .tb) _ _ ?_
      assumption
    clear_value x2
    extract_lets +onlyGivenNames x4
    have e5 : P x4 := by
      unfold x4
      refine State.applyIncr_keep k.sub ?_
      refine State.applyIncr_keep k.sub ?_
      assumption
    clear_value x4
    extract_lets +onlyGivenNames x6
    have e7 : P x6 := by
      unfold x6
      refine State.applyServed_keep k.sub ?_
      refine State.applyStep_keep k.sub ?_
      refine State.applyStep_keep k.sub ?_
      assumption
    clear_value x6
    extract_lets +onlyGivenNames x8
    extract_lets +onlyGivenNames x9
    extract_lets +onlyGivenNames x10
    have e11 : P x10 := by
      unfold x10
      split
      · refine foldl_keep (fun t12 x13 e14 => ?_) ?_
        · refine State.holdBound_keep k.sub ?_
          refine State.servoStep_keep k.sub ?_
          refine State.refreshUp_keep k.sub ?_
          unfold x9
          split
          · refine State.onDom_keep k.sub ?_
            unfold x8
            split
            · split
              · refine State.setFreeze_keep k.sub ?_
                assumption
              · assumption
            · assumption
          · unfold x8
            split
            · split
              · refine State.setFreeze_keep k.sub ?_
                assumption
              · assumption
            · assumption
        · assumption
      · assumption
    clear_value x10
    refine foldl_keep (fun t15 x16 e17 => ?_) ?_
    · split
      · refine State.sendTime_keep k.sub ?_
        assumption
      · split
        · assumption
        · refine State.clearTime_keep k.sub ?_
          assumption
    · assumption

theorem execIncrementBoundary_keep {P : State → Prop} (k : Keeps ([.mend, .qm, .arr CMP_ERR 0 1, .fresh, .log, .guard, .red, .arr RED_MIRROR 0 1, .time, .free, .tb, .arr (TB_INCR 0) 256 2, .arr (TB_INCR 0 + 4) 256 2, .arr (TB_DOM_STAT 0) 256 2, .acq, .arr (DEC_CH_STAT 0) 16 512, .cap, .arr (MEM_ERR 0) 32 5, .arr (MEM_ERR_INFO 0) 32 5, .arr (MEM_ERR_ADDR 0) 32 5, .arr (MEM_ERR_ADDR 0 + 4) 32 5, .mem, .arr (CAP_ENG_STAT 0) 64 16, .fblk, .pmc] ++ [.arr (TB_ANCHOR_CTRL 0) 256 2, .tiu, .arr (TIU_CORE_STAT 0) 16 8, .arr (TIU_CORE_ERR 0) 16 8, .lnk, .arr (TB_PORT_FLAGS 0) 32 8]) P) {a1 : _} {s2 : State} (h2 : P s2) : ∀ u, execIncrementBoundary a1 s2 = .next u → P u := by
  unfold execIncrementBoundary
  refine event_keep k.sub ?_ ?_
  · assumption
  · intro y0
    intro y1
    refine State.boundary_keep k.sub ?_
    assumption

theorem State.timeBlock_keep {P : State → Prop} (k : Keeps [.lnk, .arr (TB_PORT_FLAGS 0) 32 8, .tiu, .log, .qm, .mend, .arr (TIU_CORE_STAT 0) 16 8, .fresh, .tb, .arr (TIU_CORE_ERR 0) 16 8] P) {s1 : State} {a2 : _} {a3 : _} (h1 : P s1) : P (State.timeBlock s1 a2 a3) := by
  unfold State.timeBlock
  split
  · assumption
  · extract_lets +onlyGivenNames x0
    extract_lets +onlyGivenNames x1
    have e2 : P x1 := by
      unfold x1
      refine State.onLane_keep k.sub ?_
      refine setFld_keep k (TB_PORT_FLAGS 0) 32 8 ⟨_, rfl⟩ ?_
      refine State.stampEdge_keep k.sub ?_
      assumption
    clear_value x1
    split
    · assumption
    · extract_lets +onlyGivenNames x3
      refine State.onPtime_keep k.sub ?_
      assumption

theorem execTimeBlockReceived_keep {P : State → Prop} (k : Keeps [.mend, .qm, .arr CMP_ERR 0 1, .fresh, .log, .guard, .red, .arr RED_MIRROR 0 1, .time, .free, .lnk, .arr (TB_PORT_FLAGS 0) 32 8, .tiu, .arr (TIU_CORE_STAT 0) 16 8, .tb, .arr (TIU_CORE_ERR 0) 16 8] P) {a1 : _} {a2 : _} {a3 : _} {s4 : State} (h4 : P s4) : ∀ u, execTimeBlockReceived a1 a2 a3 s4 = .next u → P u := by
  unfold execTimeBlockReceived
  refine event_keep k.sub ?_ ?_
  · assumption
  · intro y0
    intro y1
    refine State.timeBlock_keep k.sub ?_
    assumption

theorem State.exchange_keep {P : State → Prop} (k : Keeps [.tb] P) {s1 : State} {a2 : _} {a3 : _} {a4 : _} {a5 : _} (h1 : P s1) : P (State.exchange s1 a2 a3 a4 a5) := by
  unfold State.exchange
  extract_lets +onlyGivenNames x0
  split
  · extract_lets +onlyGivenNames x1
    extract_lets +onlyGivenNames x2
    refine State.onPtime_keep k.sub ?_
    assumption
  · assumption

theorem State.timeCell_keep {P : State → Prop} (k : Keeps [.tb, .arr (TB_DOM_STAT 0) 256 2, .qm, .log, .mend] P) {s1 : State} {a2 : _} {a3 : _} (h1 : P s1) : P (State.timeCell s1 a2 a3) := by
  unfold State.timeCell
  split
  · assumption
  · extract_lets +onlyGivenNames x0
    extract_lets +onlyGivenNames x1
    have e2 : P x1 := by
      unfold x1
      refine State.onPtime_keep k.sub ?_
      assumption
    clear_value x1
    extract_lets +onlyGivenNames x3
    have e4 : P x3 := by
      unfold x3
      refine State.exchange_keep k.sub ?_
      refine State.exchange_keep k.sub ?_
      assumption
    clear_value x3
    refine foldl_keep (fun t5 x6 e7 => ?_) ?_
    · extract_lets +onlyGivenNames x8
      extract_lets +onlyGivenNames x9
      have e10 : P x9 := by
        unfold x9
        refine State.refreshUp_keep k.sub ?_
        assumption
      clear_value x9
      split
      · refine State.refreshDom_keep k.sub ?_
        refine State.onDom_keep k.sub ?_
        assumption
      · assumption
    · assumption

theorem execTimeCellReceived_keep {P : State → Prop} (k : Keeps [.mend, .qm, .arr CMP_ERR 0 1, .fresh, .log, .guard, .red, .arr RED_MIRROR 0 1, .time, .free, .tb, .arr (TB_DOM_STAT 0) 256 2] P) {a1 : _} {a2 : _} {a3 : _} {s4 : State} (h4 : P s4) : ∀ u, execTimeCellReceived a1 a2 a3 s4 = .next u → P u := by
  unfold execTimeCellReceived
  refine event_keep k.sub ?_ ?_
  · assumption
  · intro y0
    intro y1
    refine State.timeCell_keep k.sub ?_
    assumption

theorem State.holdover_keep {P : State → Prop} (k : Keeps [.tb, .arr (TB_DOM_STAT 0) 256 2, .qm, .log, .mend] P) {s1 : State} {a2 : _} (h1 : P s1) : P (State.holdover s1 a2) := by
  unfold State.holdover
  extract_lets +onlyGivenNames x0
  extract_lets +onlyGivenNames x1
  split
  · assumption
  · extract_lets +onlyGivenNames x2
    extract_lets +onlyGivenNames x3
    have e4 : P x3 := by
      unfold x3
      refine State.onDom_keep k.sub ?_
      assumption
    clear_value x3
    extract_lets +onlyGivenNames x5
    have e6 : P x5 := by
      unfold x5
      refine setFld_keep k (TB_DOM_STAT 0) 256 2 ⟨_, rfl⟩ ?_
      refine State.setFreeze_keep k.sub ?_
      assumption
    clear_value x5
    refine State.refreshDom_keep k.sub ?_
    refine State.setDom_keep k.sub ?_
    assumption

theorem execHoldoverEntry_keep {P : State → Prop} (k : Keeps [.mend, .qm, .arr CMP_ERR 0 1, .fresh, .log, .guard, .red, .arr RED_MIRROR 0 1, .time, .free, .tb, .arr (TB_DOM_STAT 0) 256 2] P) {a1 : _} {a2 : _} {s3 : State} (h3 : P s3) : ∀ u, execHoldoverEntry a1 a2 s3 = .next u → P u := by
  unfold execHoldoverEntry
  refine event_keep k.sub ?_ ?_
  · assumption
  · intro y0
    intro y1
    refine State.holdover_keep k.sub ?_
    assumption

theorem State.markAsym_keep {P : State → Prop} (k : Keeps [.qm, .log, .mend, .arr (TB_PORT_FLAGS 0) 32 8, .tb, .arr (TB_DOM_STAT 0) 256 2] P) {s1 : State} {a2 : _} {a3 : _} (h1 : P s1) : P (State.markAsym s1 a2 a3) := by
  unfold State.markAsym
  split
  · assumption
  · extract_lets +onlyGivenNames x0
    have e1 : P x0 := by
      unfold x0
      refine State.issue_keep k.sub ?_
      refine setFld_keep k (TB_PORT_FLAGS 0) 32 8 ⟨_, rfl⟩ ?_
      assumption
    clear_value x0
    extract_lets +onlyGivenNames x2
    have e3 : P x2 := by
      unfold x2
      split
      · refine foldl_keep (fun t4 x5 e6 => ?_) ?_
        · refine State.onDom_keep k.sub ?_
          assumption
        · assumption
      · assumption
    clear_value x2
    refine foldl_keep (fun t7 x8 e9 => ?_) ?_
    · split
      · refine State.refreshDom_keep k.sub ?_
        assumption
      · assumption
    · assumption

theorem State.pathStep_keep {P : State → Prop} (k : Keeps [.qm, .log, .mend, .arr (TB_PORT_FLAGS 0) 32 8, .fresh, .tb, .arr (TB_DOM_STAT 0) 256 2] P) {s1 : State} {a2 : _} {a3 : _} (h1 : P s1) : P (State.pathStep s1 a2 a3) := by
  unfold State.pathStep
  extract_lets +onlyGivenNames x0
  have e1 : P x0 := by
    unfold x0
    refine State.issue_keep k.sub ?_
    refine bump_keep k (TB_PORT_FLAGS 0) 32 8 ⟨_, rfl⟩ ?_
    refine setBit_keep k (TB_PORT_FLAGS 0) 32 8 ⟨_, rfl⟩ ?_
    assumption
  clear_value x0
  extract_lets +onlyGivenNames x2
  have e3 : P x2 := by
    unfold x2
    refine State.onPtime_keep k.sub ?_
    assumption
  clear_value x2
  refine foldl_keep (fun t4 x5 e6 => ?_) ?_
  · split
    · assumption
    · extract_lets +onlyGivenNames x7
      extract_lets +onlyGivenNames x8
      extract_lets +onlyGivenNames x9
      have e10 : P x9 := by
        unfold x9
        split
        · refine State.refreshUp_keep k.sub ?_
          refine State.onDom_keep k.sub ?_
          refine State.setFreeze_keep k.sub ?_
          assumption
        · refine State.setFreeze_keep k.sub ?_
          assumption
      clear_value x9
      refine State.markAsym_keep k.sub ?_
      assumption
  · assumption

theorem State.returnTrack_keep {P : State → Prop} (k : Keeps [.tb, .arr (TB_DOM_STAT 0) 256 2, .qm, .log, .mend] P) {s1 : State} {a2 : _} {a3 : _} (h1 : P s1) : P (State.returnTrack s1 a2 a3) := by
  unfold State.returnTrack
  split
  · extract_lets +onlyGivenNames x0
    have e1 : P x0 := by
      unfold x0
      refine State.acquire_keep k.sub ?_
      assumption
    clear_value x0
    split
    · refine setFld_keep k (TB_DOM_STAT 0) 256 2 ⟨_, rfl⟩ ?_
      assumption
    · assumption
  · refine State.track_keep k.sub ?_
    refine State.onDom_keep k.sub ?_
    assumption

theorem State.servoSecond_keep {P : State → Prop} (k : Keeps [.tb, .arr (TB_DOM_STAT 0) 256 2, .qm, .log, .mend] P) {s1 : State} {a2 : _} {a3 : _} {a4 : _} (h1 : P s1) : P (State.servoSecond s1 a2 a3 a4) := by
  unfold State.servoSecond
  extract_lets +onlyGivenNames x0
  extract_lets +onlyGivenNames x1
  have e2 : P x1 := by
    unfold x1
    refine State.onDom_keep k.sub ?_
    assumption
  clear_value x1
  extract_lets +onlyGivenNames x3
  extract_lets +onlyGivenNames x4
  extract_lets +onlyGivenNames x5
  have e6 : P x5 := by
    unfold x5
    split
    · refine State.setFreeze_keep k.sub ?_
      assumption
    · assumption
  clear_value x5
  split
  · split
    · refine State.onDom_keep k.sub ?_
      assumption
    · refine State.onDom_keep k.sub ?_
      assumption
    · extract_lets +onlyGivenNames x7
      split
      · assumption
      · refine State.onDom_keep k.sub ?_
        refine State.commitIncr_keep k.sub ?_
        assumption
    · extract_lets +onlyGivenNames x8
      extract_lets +onlyGivenNames x9
      have e10 : P x9 := by
        unfold x9
        refine State.onDom_keep k.sub ?_
        assumption
      clear_value x9
      split
      · refine State.track_keep k.sub ?_
        assumption
      · assumption
  · refine State.returnTrack_keep k.sub ?_
    assumption
  · refine State.refreshDom_keep k.sub ?_
    assumption
  · assumption

theorem State.reestimate_keep {P : State → Prop} (k : Keeps [.qm, .log, .mend, .arr (TB_PORT_FLAGS 0) 32 8, .tb, .arr (TB_DOM_STAT 0) 256 2, .arr (TB_PORT_ASYM 0) 32 8] P) {s1 : State} {a2 : _} (h1 : P s1) : P (State.reestimate s1 a2) := by
  unfold State.reestimate
  extract_lets +onlyGivenNames x0
  clear_value x0
  split
  · assumption
  · extract_lets +onlyGivenNames x1
    extract_lets +onlyGivenNames x2
    extract_lets +onlyGivenNames x3
    extract_lets +onlyGivenNames x4
    extract_lets +onlyGivenNames x5
    split
    · assumption
    · extract_lets +onlyGivenNames x6
      refine State.markAsym_keep k.sub ?_
      refine (k.at (.arr (TB_PORT_ASYM 0) 32 8)) _ _ _ ⟨_, rfl⟩ ?_
      assumption

theorem State.portSecond_keep {P : State → Prop} (k : Keeps [.tb, .arr (TB_PORT_FLAGS 0) 32 8, .arr (TB_PORT_DELAY 0) 32 8, .arr (TB_PORT_OFFSET 0 0) 32 8, .arr (TB_PORT_OFFSET 0 1) 32 8, .qm, .log, .mend, .fresh, .arr (TB_DOM_STAT 0) 256 2] P) {s1 : State} {a2 : _} {a3 : _} (h1 : P s1) : P (State.portSecond s1 a2 a3) := by
  unfold State.portSecond
  extract_lets +onlyGivenNames x0
  extract_lets +onlyGivenNames x1
  split
  · refine State.onPtime_keep k.sub ?_
    refine setFld_keep k (TB_PORT_FLAGS 0) 32 8 ⟨_, rfl⟩ ?_
    assumption
  · extract_lets +onlyGivenNames x2
    extract_lets +onlyGivenNames x3
    extract_lets +onlyGivenNames x4
    extract_lets +onlyGivenNames x5
    extract_lets +onlyGivenNames x6
    have e7 : P x6 := by
      unfold x6
      split
      · assumption
      · refine (k.at (.arr (TB_PORT_DELAY 0) 32 8)) _ _ _ ⟨_, rfl⟩ ?_
        assumption
    clear_value x6
    extract_lets +onlyGivenNames x8
    have e9 : P x8 := by
      unfold x8
      split
      · assumption
      · refine (k.at (.arr (TB_PORT_OFFSET 0 0) 32 8)) _ _ _ ⟨a3, by unfold TB_PORT_OFFSET; omega⟩ ?_
        assumption
    clear_value x8
    extract_lets +onlyGivenNames x10
    have e11 : P x10 := by
      unfold x10
      split
      · assumption
      · refine (k.at (.arr (TB_PORT_OFFSET 0 1) 32 8)) _ _ _ ⟨a3, by unfold TB_PORT_OFFSET; omega⟩ ?_
        assumption
    clear_value x10
    extract_lets +onlyGivenNames x12
    extract_lets +onlyGivenNames x13
    have e14 : P x13 := by
      unfold x13
      refine State.onPtime_keep k.sub ?_
      assumption
    clear_value x13
    extract_lets +onlyGivenNames x15
    have e16 : P x15 := by
      unfold x15
      split
      · split
        · refine State.pathStep_keep k.sub ?_
          assumption
        · assumption
      · assumption
    clear_value x15
    refine foldl_keep (fun t17 x18 e19 => ?_) ?_
    · extract_lets +onlyGivenNames x20
      split
      · refine State.servoSecond_keep k.sub ?_
        assumption
      · assumption
    · assumption

theorem State.refSecond_keep {P : State → Prop} (k : Keeps [.tb, .arr TB_REF 0 1, .arr TB_STATUS 0 1, .qm, .log, .mend] P) {s1 : State} {a2 : _} (h1 : P s1) : P (State.refSecond s1 a2) := by
  unfold State.refSecond
  extract_lets +onlyGivenNames x0
  extract_lets +onlyGivenNames x1
  extract_lets +onlyGivenNames x2
  extract_lets +onlyGivenNames x3
  extract_lets +onlyGivenNames x4
  have e5 : P x4 := by
    unfold x4
    refine (k.at .tb) _ _ ?_
    assumption
  clear_value x4
  extract_lets +onlyGivenNames x6
  have e7 : P x6 := by
    unfold x6
    refine foldl_keep (fun t8 x9 e10 => ?_) ?_
    · split
      · split
        · refine State.onDom_keep k.sub ?_
          assumption
        · assumption
      · assumption
    · assumption
  clear_value x6
  extract_lets +onlyGivenNames x11
  have e12 : P x11 := by
    unfold x11
    split
    · refine setFld_keep k TB_REF 0 1 ⟨0, rfl⟩ ?_
      assumption
    · assumption
  clear_value x11
  extract_lets +onlyGivenNames x13
  have e14 : P x13 := by
    unfold x13
    refine setFld_keep k TB_STATUS 0 1 ⟨0, rfl⟩ ?_
    assumption
  clear_value x13
  split
  · assumption
  · refine State.issue_keep k.sub ?_
    assumption

theorem State.learn_keep {P : State → Prop} (k : Keeps [.tb] P) {s1 : State} (h1 : P s1) : P (State.learn s1) := by
  unfold State.learn
  split
  · extract_lets +onlyGivenNames x0
    refine (k.at .tb) _ _ ?_
    assumption
  · assumption

theorem State.ratioSecond_keep {P : State → Prop} (k : Keeps [.arr CMP_RATIO 0 1, .cmp] P) {s1 : State} (h1 : P s1) : P (State.ratioSecond s1) := by
  unfold State.ratioSecond
  extract_lets +onlyGivenNames x0
  extract_lets +onlyGivenNames x1
  have e2 : P x1 := by
    unfold x1
    split
    · assumption
    · refine setFld_keep k CMP_RATIO 0 1 ⟨0, rfl⟩ ?_
      assumption
  clear_value x1
  refine (k.at .cmp) _ _ ?_
  assumption

theorem State.crystalSecond_keep {P : State → Prop} (k : Keeps [.tb, .arr TB_REF 0 1, .arr TB_STATUS 0 1, .qm, .log, .mend, .arr CMP_RATIO 0 1, .cmp, .arr (TB_PORT_FLAGS 0) 32 8, .arr (TB_PORT_DELAY 0) 32 8, .arr (TB_PORT_OFFSET 0 0) 32 8, .arr (TB_PORT_OFFSET 0 1) 32 8, .fresh, .arr (TB_DOM_STAT 0) 256 2, .arr (TB_PORT_ASYM 0) 32 8] P) {s1 : State} {a2 : _} (h1 : P s1) : P (State.crystalSecond s1 a2) := by
  unfold State.crystalSecond
  extract_lets +onlyGivenNames x0
  split
  · assumption
  · extract_lets +onlyGivenNames x1
    have e2 : P x1 := by
      unfold x1
      refine State.refSecond_keep k.sub ?_
      refine State.ratioSecond_keep k.sub ?_
      refine State.flushLimits_keep k.sub ?_
      refine (k.at .tb) _ _ ?_
      assumption
    clear_value x1
    extract_lets +onlyGivenNames x3
    have e4 : P x3 := by
      unfold x3
      refine foldl_keep (fun t5 x6 e7 => ?_) ?_
      · split
        · refine State.portSecond_keep k.sub ?_
          assumption
        · assumption
      · assumption
    clear_value x3
    refine State.learn_keep k.sub ?_
    refine foldl_keep (fun t8 x9 e10 => ?_) ?_
    · refine State.reestimate_keep k.sub ?_
      assumption
    · assumption

theorem execCrystalSecond_keep {P : State → Prop} (k : Keeps [.mend, .qm, .arr CMP_ERR 0 1, .fresh, .log, .guard, .red, .arr RED_MIRROR 0 1, .time, .free, .tb, .arr TB_REF 0 1, .arr TB_STATUS 0 1, .arr CMP_RATIO 0 1, .cmp, .arr (TB_PORT_FLAGS 0) 32 8, .arr (TB_PORT_DELAY 0) 32 8, .arr (TB_PORT_OFFSET 0 0) 32 8, .arr (TB_PORT_OFFSET 0 1) 32 8, .arr (TB_DOM_STAT 0) 256 2, .arr (TB_PORT_ASYM 0) 32 8] P) {a1 : _} {a2 : _} {s3 : State} (h3 : P s3) : ∀ u, execCrystalSecond a1 a2 s3 = .next u → P u := by
  unfold execCrystalSecond
  refine event_keep k.sub ?_ ?_
  · assumption
  · intro y0
    intro y1
    refine State.crystalSecond_keep k.sub ?_
    assumption

theorem State.onGm_keep {P : State → Prop} (k : Keeps [.tb] P) {s1 : State} {a2 : _} {a3 : _} (h1 : P s1) : P (State.onGm s1 a2 a3) := by
  unfold State.onGm
  refine State.onDom_keep k.sub ?_
  assumption

theorem State.ppsFault_keep {P : State → Prop} (k : Keeps [.qm, .log, .mend, .tb] P) {s1 : State} {a2 : _} {a3 : _} (h1 : P s1) : P (State.ppsFault s1 a2 a3) := by
  unfold State.ppsFault
  extract_lets +onlyGivenNames x0
  have e1 : P x0 := by
    unfold x0
    refine State.issue_keep k.sub ?_
    assumption
  clear_value x0
  split
  · assumption
  · refine State.onGm_keep k.sub ?_
    assumption

theorem State.ppsEdge_keep {P : State → Prop} (k : Keeps [.tiu, .log, .qm, .mend, .arr (TIU_CORE_STAT 0) 16 8, .fresh, .tb, .arr (TIU_CORE_ERR 0) 16 8, .arr (TB_DOM_STAT 0) 256 2] P) {s1 : State} {a2 : _} {a3 : _} (h1 : P s1) : P (State.ppsEdge s1 a2 a3) := by
  unfold State.ppsEdge
  split
  · assumption
  · extract_lets +onlyGivenNames x0
    split
    · refine State.stampEdge_keep k.sub ?_
      assumption
    · extract_lets +onlyGivenNames x1
      have e2 : P x1 := by
        unfold x1
        refine State.stampEdge_keep k.sub ?_
        assumption
      clear_value x1
      split
      · assumption
      · extract_lets +onlyGivenNames x3
        extract_lets +onlyGivenNames x4
        have e5 : P x4 := by
          unfold x4
          refine State.onGm_keep k.sub ?_
          assumption
        clear_value x4
        extract_lets +onlyGivenNames x6
        have e7 : P x6 := by
          unfold x6
          split
          · refine State.setDom_keep k.sub ?_
            refine setFld_keep k (TB_DOM_STAT 0) 256 2 ⟨_, rfl⟩ ?_
            assumption
          · assumption
        clear_value x6
        extract_lets +onlyGivenNames x8
        extract_lets +onlyGivenNames x9
        extract_lets +onlyGivenNames x10
        have e11 : P x10 := by
          unfold x10
          split
          · refine State.onGm_keep k.sub ?_
            refine State.ppsFault_keep k.sub ?_
            assumption
          · assumption
        clear_value x10
        split
        · refine State.ppsFault_keep k.sub ?_
          assumption
        · assumption

theorem execPpsEdge_keep {P : State → Prop} (k : Keeps [.mend, .qm, .arr CMP_ERR 0 1, .fresh, .log, .guard, .red, .arr RED_MIRROR 0 1, .time, .free, .tiu, .arr (TIU_CORE_STAT 0) 16 8, .tb, .arr (TIU_CORE_ERR 0) 16 8, .arr (TB_DOM_STAT 0) 256 2] P) {a1 : _} {a2 : _} {a3 : _} {s4 : State} (h4 : P s4) : ∀ u, execPpsEdge a1 a2 a3 s4 = .next u → P u := by
  unfold execPpsEdge
  refine event_keep k.sub ?_ ?_
  · assumption
  · intro y0
    intro y1
    refine State.ppsEdge_keep k.sub ?_
    assumption

theorem State.anchorEdge_keep {P : State → Prop} (k : Keeps [.arr (TB_ANCHOR_XC 0) 256 2, .arr (TB_ANCHOR_XC 0 + 4) 256 2, .arr (TB_DOM_STAT 0) 256 2, .tb, .arr (TB_ANCHOR_FRAC 0) 256 2, .arr (TB_ANCHOR_FRAC 0 + 4) 256 2, .arr (TB_ANCHOR_SEC 0) 256 2, .arr (TB_ANCHOR_SEC 0 + 4) 256 2, .arr (TB_ANCHOR_CTRL 0) 256 2] P) {s1 : State} {a2 : _} {a3 : _} {a4 : _} {a5 : _} (h1 : P s1) : P (State.anchorEdge s1 a2 a3 a4 a5) := by
  unfold State.anchorEdge
  extract_lets +onlyGivenNames x0
  extract_lets +onlyGivenNames x1
  extract_lets +onlyGivenNames x2
  extract_lets +onlyGivenNames x3
  have e4 : P x3 := by
    unfold x3
    refine wr64_keep k (TB_ANCHOR_XC 0) 256 2 ⟨_, rfl⟩ ?_
    refine State.commitIncr_keep k.sub ?_
    assumption
  clear_value x3
  extract_lets +onlyGivenNames x5
  have e6 : P x5 := by
    unfold x5
    refine wr64_keep k (TB_ANCHOR_FRAC 0) 256 2 ⟨_, rfl⟩ ?_
    refine wr64_keep k (TB_ANCHOR_SEC 0) 256 2 ⟨_, rfl⟩ ?_
    assumption
  clear_value x5
  refine State.onGm_keep k.sub ?_
  refine setFld_keep k (TB_ANCHOR_CTRL 0) 256 2 ⟨_, rfl⟩ ?_
  assumption

theorem State.labelled_keep {P : State → Prop} (k : Keeps [.tb, .arr (TB_DOM_STAT 0) 256 2, .qm, .log, .mend, .arr (TB_ANCHOR_XC 0) 256 2, .arr (TB_ANCHOR_XC 0 + 4) 256 2, .arr (TB_ANCHOR_FRAC 0) 256 2, .arr (TB_ANCHOR_FRAC 0 + 4) 256 2, .arr (TB_ANCHOR_SEC 0) 256 2, .arr (TB_ANCHOR_SEC 0 + 4) 256 2, .arr (TB_ANCHOR_CTRL 0) 256 2] P) {s1 : State} {a2 : _} {a3 : _} {a4 : _} {a5 : _} (h1 : P s1) : P (State.labelled s1 a2 a3 a4 a5) := by
  unfold State.labelled
  extract_lets +onlyGivenNames x0
  split
  · split
    · extract_lets +onlyGivenNames x1
      extract_lets +onlyGivenNames x2
      have e3 : P x2 := by
        unfold x2
        refine State.onDom_keep k.sub ?_
        refine State.onGm_keep k.sub ?_
        assumption
      clear_value x2
      split
      · refine State.track_keep k.sub ?_
        assumption
      · assumption
    · split
      · split
        · refine State.anchorEdge_keep k.sub ?_
          assumption
        · assumption
      · assumption
  · refine State.refreshDom_keep k.sub ?_
    refine State.onDom_keep k.sub ?_
    assumption
  · refine State.returnTrack_keep k.sub ?_
    assumption
  · assumption

theorem State.todFor_keep {P : State → Prop} (k : Keeps [.qm, .log, .mend, .tb, .arr (TB_DOM_STAT 0) 256 2, .arr (TB_ANCHOR_XC 0) 256 2, .arr (TB_ANCHOR_XC 0 + 4) 256 2, .arr (TB_ANCHOR_FRAC 0) 256 2, .arr (TB_ANCHOR_FRAC 0 + 4) 256 2, .arr (TB_ANCHOR_SEC 0) 256 2, .arr (TB_ANCHOR_SEC 0 + 4) 256 2, .arr (TB_ANCHOR_CTRL 0) 256 2] P) {s1 : State} {a2 : _} {a3 : _} {a4 : _} (h1 : P s1) : P (State.todFor s1 a2 a3 a4) := by
  unfold State.todFor
  extract_lets +onlyGivenNames x0
  extract_lets +onlyGivenNames x1
  split
  · split
    · assumption
    · refine State.ppsFault_keep k.sub ?_
      assumption
  · extract_lets +onlyGivenNames x2
    extract_lets +onlyGivenNames x3
    split
    · assumption
    · split
      · split
        · assumption
        · unfold x3
          refine State.onGm_keep k.sub ?_
          refine State.ppsFault_keep k.sub ?_
          assumption
      · extract_lets +onlyGivenNames x4
        split
        · unfold x3
          refine State.onGm_keep k.sub ?_
          refine State.ppsFault_keep k.sub ?_
          assumption
        · extract_lets +onlyGivenNames x5
          have e6 : P x5 := by
            unfold x5
            refine State.onDom_keep k.sub ?_
            refine State.onGm_keep k.sub ?_
            assumption
          clear_value x5
          refine State.labelled_keep k.sub ?_
          assumption

theorem State.todMessage_keep {P : State → Prop} (k : Keeps [.qm, .log, .mend, .tb, .arr (TB_DOM_STAT 0) 256 2, .arr (TB_ANCHOR_XC 0) 256 2, .arr (TB_ANCHOR_XC 0 + 4) 256 2, .arr (TB_ANCHOR_FRAC 0) 256 2, .arr (TB_ANCHOR_FRAC 0 + 4) 256 2, .arr (TB_ANCHOR_SEC 0) 256 2, .arr (TB_ANCHOR_SEC 0 + 4) 256 2, .arr (TB_ANCHOR_CTRL 0) 256 2] P) {s1 : State} {a2 : _} {a3 : _} {a4 : _} (h1 : P s1) : P (State.todMessage s1 a2 a3 a4) := by
  unfold State.todMessage
  split
  · assumption
  · refine foldl_keep (fun t0 x1 e2 => ?_) ?_
    · split
      · assumption
      · extract_lets +onlyGivenNames x3
        clear_value x3
        split
        · refine State.todFor_keep k.sub ?_
          assumption
        · assumption
    · assumption

theorem execTodMessage_keep {P : State → Prop} (k : Keeps [.mend, .qm, .arr CMP_ERR 0 1, .fresh, .log, .guard, .red, .arr RED_MIRROR 0 1, .time, .free, .tb, .arr (TB_DOM_STAT 0) 256 2, .arr (TB_ANCHOR_XC 0) 256 2, .arr (TB_ANCHOR_XC 0 + 4) 256 2, .arr (TB_ANCHOR_FRAC 0) 256 2, .arr (TB_ANCHOR_FRAC 0 + 4) 256 2, .arr (TB_ANCHOR_SEC 0) 256 2, .arr (TB_ANCHOR_SEC 0 + 4) 256 2, .arr (TB_ANCHOR_CTRL 0) 256 2] P) {a1 : _} {a2 : _} {a3 : _} {a4 : _} {s5 : State} (h5 : P s5) : ∀ u, execTodMessage a1 a2 a3 a4 s5 = .next u → P u := by
  unfold execTodMessage
  refine event_keep k.sub ?_ ?_
  · assumption
  · intro y0
    intro y1
    refine State.todMessage_keep k.sub ?_
    assumption

theorem State.doAction_keep {P : State → Prop} (k : Keeps ([.arr DEC_LOAD 0 1, .acq, .arr (DEC_STREAM 0) 4 592, .log, .qm, .mend, .arr (DEC_CH_STAT 0) 16 512, .fresh, .arr CMP_ERR 0 1, .arr (CAP_ENG_CNT 0) 64 16, .cap, .arr (CAP_ENG_STAT 0) 64 16, .arr (DEC_CH_CFG 0) 16 512, .arr (DEC_DET_VAL 0) 8 512, .arr (CONV_BAY_STAT 0) 16 64, .arr (CONV_RELIEF 0) 4 4, .cal, .arr (MEM_ERR 0) 32 5, .arr (MEM_ERR_INFO 0) 32 5, .free, .arr (MEM_ERR_ADDR 0) 32 5, .arr (MEM_ERR_ADDR 0 + 4) 32 5, .mem, .arr (CAP_ENG_CFG 0) 64 16, .arr (DEC_BAY_STAT 0) 16 64] ++ [.arr (CONV_BAY_BURST 0) 16 64, .arr (CONV_BAY_MODE 0) 16 64, .arr CAP_HIST_STAT 0 1, .arr TB_CTRL 0 1]) P) {s1 : State} {a2 : _} (h1 : P s1) : P (State.doAction s1 a2) := by
  unfold State.doAction
  split
  · refine State.showLoad_keep k.sub ?_
    refine foldl_keep (fun t0 x1 e2 => ?_) ?_
    · refine State.enableStream_keep k.sub ?_
      assumption
    · assumption
  · refine State.showLoad_keep k.sub ?_
    refine foldl_keep (fun t3 x4 e5 => ?_) ?_
    · refine State.disableStream_keep k.sub ?_
      assumption
    · assumption
  · refine State.openHeld_keep k.sub ?_
    assumption
  · refine State.showLoad_keep k.sub ?_
    refine foldl_keep (fun t6 x7 e8 => ?_) ?_
    · refine State.setChain_keep k.sub ?_
      assumption
    · assumption
  · refine State.doInject_keep k.sub ?_
    assumption
  · refine foldl_keep (fun t9 x10 e11 => ?_) ?_
    · refine State.setBay_keep k.sub ?_
      assumption
    · assumption
  · refine setFld_keep k TB_CTRL 0 1 ⟨0, rfl⟩ ?_
    assumption
  · assumption

theorem State.launchOne_keep {P : State → Prop} (k : Keeps ([.qm, .log, .mend, .tb, .arr (TB_ACT_CTRL 0) 32 32, .arr DEC_LOAD 0 1, .acq, .arr (DEC_STREAM 0) 4 592, .arr (DEC_CH_STAT 0) 16 512, .fresh, .arr CMP_ERR 0 1, .arr (CAP_ENG_CNT 0) 64 16, .cap, .arr (CAP_ENG_STAT 0) 64 16, .arr (DEC_CH_CFG 0) 16 512, .arr (DEC_DET_VAL 0) 8 512, .arr (CONV_BAY_STAT 0) 16 64, .arr (CONV_RELIEF 0) 4 4, .cal, .arr (MEM_ERR 0) 32 5, .arr (MEM_ERR_INFO 0) 32 5, .free, .arr (MEM_ERR_ADDR 0) 32 5, .arr (MEM_ERR_ADDR 0 + 4) 32 5, .mem] ++ [.arr (CAP_ENG_CFG 0) 64 16, .arr (DEC_BAY_STAT 0) 16 64, .arr (CONV_BAY_BURST 0) 16 64, .arr (CONV_BAY_MODE 0) 16 64, .arr CAP_HIST_STAT 0 1, .arr TB_CTRL 0 1]) P) {s1 : State} {a2 : _} (h1 : P s1) : P (State.launchOne s1 a2) := by
  unfold State.launchOne
  extract_lets +onlyGivenNames x0
  split
  · assumption
  · extract_lets +onlyGivenNames x1
    extract_lets +onlyGivenNames x2
    extract_lets +onlyGivenNames x3
    split
    · refine State.issue_keep k.sub ?_
      unfold x3
      refine State.onAct_keep k.sub ?_
      refine setFld_keep k (TB_ACT_CTRL 0) 32 32 ⟨_, rfl⟩ ?_
      assumption
    · split
      · refine State.issue_keep k.sub ?_
        unfold x3
        refine State.onAct_keep k.sub ?_
        refine setFld_keep k (TB_ACT_CTRL 0) 32 32 ⟨_, rfl⟩ ?_
        assumption
      · refine State.issue_keep k.sub ?_
        unfold x3
        refine State.onAct_keep k.sub ?_
        refine setFld_keep k (TB_ACT_CTRL 0) 32 32 ⟨_, rfl⟩ ?_
        refine State.doAction_keep k.sub ?_
        assumption

theorem State.launch_keep {P : State → Prop} (k : Keeps ([.qm, .log, .mend, .tb, .arr (TB_ACT_CTRL 0) 32 32, .arr DEC_LOAD 0 1, .acq, .arr (DEC_STREAM 0) 4 592, .arr (DEC_CH_STAT 0) 16 512, .fresh, .arr CMP_ERR 0 1, .arr (CAP_ENG_CNT 0) 64 16, .cap, .arr (CAP_ENG_STAT 0) 64 16, .arr (DEC_CH_CFG 0) 16 512, .arr (DEC_DET_VAL 0) 8 512, .arr (CONV_BAY_STAT 0) 16 64, .arr (CONV_RELIEF 0) 4 4, .cal, .arr (MEM_ERR 0) 32 5, .arr (MEM_ERR_INFO 0) 32 5, .free, .arr (MEM_ERR_ADDR 0) 32 5, .arr (MEM_ERR_ADDR 0 + 4) 32 5, .mem] ++ [.arr (CAP_ENG_CFG 0) 64 16, .arr (DEC_BAY_STAT 0) 16 64, .arr (CONV_BAY_BURST 0) 16 64, .arr (CONV_BAY_MODE 0) 16 64, .arr CAP_HIST_STAT 0 1, .arr TB_CTRL 0 1]) P) {s1 : State} {a2 : _} (h1 : P s1) : P (State.launch s1 a2) := by
  unfold State.launch
  split
  · refine foldl_keep (fun t0 x1 e2 => ?_) ?_
    · refine State.launchOne_keep k.sub ?_
      assumption
    · assumption
  · assumption

theorem execTimedActionLaunch_keep {P : State → Prop} (k : Keeps ([.mend, .qm, .arr CMP_ERR 0 1, .fresh, .log, .guard, .red, .arr RED_MIRROR 0 1, .time, .free, .tb, .arr (TB_ACT_CTRL 0) 32 32, .arr DEC_LOAD 0 1, .acq, .arr (DEC_STREAM 0) 4 592, .arr (DEC_CH_STAT 0) 16 512, .arr (CAP_ENG_CNT 0) 64 16, .cap, .arr (CAP_ENG_STAT 0) 64 16, .arr (DEC_CH_CFG 0) 16 512, .arr (DEC_DET_VAL 0) 8 512, .arr (CONV_BAY_STAT 0) 16 64, .arr (CONV_RELIEF 0) 4 4, .cal, .arr (MEM_ERR 0) 32 5] ++ [.arr (MEM_ERR_INFO 0) 32 5, .arr (MEM_ERR_ADDR 0) 32 5, .arr (MEM_ERR_ADDR 0 + 4) 32 5, .mem, .arr (CAP_ENG_CFG 0) 64 16, .arr (DEC_BAY_STAT 0) 16 64, .arr (CONV_BAY_BURST 0) 16 64, .arr (CONV_BAY_MODE 0) 16 64, .arr CAP_HIST_STAT 0 1, .arr TB_CTRL 0 1]) P) {a1 : _} {a2 : _} {s3 : State} (h3 : P s3) : ∀ u, execTimedActionLaunch a1 a2 s3 = .next u → P u := by
  unfold execTimedActionLaunch
  refine event_keep k.sub ?_ ?_
  · assumption
  · intro y0
    intro y1
    refine State.launch_keep k.sub ?_
    assumption

theorem State.launchDue_keep {P : State → Prop} (k : Keeps ([.qm, .log, .mend, .tb, .arr (TB_ACT_CTRL 0) 32 32, .arr DEC_LOAD 0 1, .acq, .arr (DEC_STREAM 0) 4 592, .arr (DEC_CH_STAT 0) 16 512, .fresh, .arr CMP_ERR 0 1, .arr (CAP_ENG_CNT 0) 64 16, .cap, .arr (CAP_ENG_STAT 0) 64 16, .arr (DEC_CH_CFG 0) 16 512, .arr (DEC_DET_VAL 0) 8 512, .arr (CONV_BAY_STAT 0) 16 64, .arr (CONV_RELIEF 0) 4 4, .cal, .arr (MEM_ERR 0) 32 5, .arr (MEM_ERR_INFO 0) 32 5, .free, .arr (MEM_ERR_ADDR 0) 32 5, .arr (MEM_ERR_ADDR 0 + 4) 32 5, .mem] ++ [.arr (CAP_ENG_CFG 0) 64 16, .arr (DEC_BAY_STAT 0) 16 64, .arr (CONV_BAY_BURST 0) 16 64, .arr (CONV_BAY_MODE 0) 16 64, .arr CAP_HIST_STAT 0 1, .arr TB_CTRL 0 1]) P) {s1 : State} (h1 : P s1) : P (State.launchDue s1) := by
  unfold State.launchDue
  refine foldl_keep (fun t0 x1 e2 => ?_) ?_
  · refine State.launchOne_keep k.sub ?_
    assumption
  · assumption

theorem State.cancelEntry_keep {P : State → Prop} (k : Keeps [.tb, .arr (TB_ACT_CTRL 0) 32 32] P) {s1 : State} {a2 : _} (h1 : P s1) : P (State.cancelEntry s1 a2) := by
  unfold State.cancelEntry
  split
  · refine State.onAct_keep k.sub ?_
    refine setFld_keep k (TB_ACT_CTRL 0) 32 32 ⟨_, rfl⟩ ?_
    assumption
  · assumption

theorem State.cancelWrite_keep {P : State → Prop} (k : Keeps [.tb, .arr (TB_ACT_CTRL 0) 32 32] P) {s1 : State} {a2 : _} (h1 : P s1) : P (State.cancelWrite s1 a2) := by
  unfold State.cancelWrite
  split
  · assumption
  · refine State.cancelEntry_keep k.sub ?_
    assumption

theorem execTimedActionCancel_keep {P : State → Prop} (k : Keeps [.mend, .qm, .arr CMP_ERR 0 1, .fresh, .log, .guard, .red, .arr RED_MIRROR 0 1, .time, .free, .tb, .arr (TB_ACT_CTRL 0) 32 32] P) {a1 : _} {a2 : _} {s3 : State} (h3 : P s3) : ∀ u, execTimedActionCancel a1 a2 s3 = .next u → P u := by
  unfold execTimedActionCancel
  refine event_keep k.sub ?_ ?_
  · assumption
  · intro y0
    intro y1
    refine State.cancelWrite_keep k.sub ?_
    assumption

theorem State.armWriteEntry_keep {P : State → Prop} (k : Keeps [.arr (TB_ACT_TIME 0) 32 32, .arr (TB_ACT_TIME 0 + 4) 32 32, .arr (TB_ACT_ARG 0) 32 32, .arr (TB_ACT_CTRL 0) 32 32, .tb] P) {s1 : State} {a2 : _} {a3 : _} (h1 : P s1) : P (State.armWriteEntry s1 a2 a3) := by
  unfold State.armWriteEntry
  split
  · assumption
  · extract_lets +onlyGivenNames x0
    extract_lets +onlyGivenNames x1
    extract_lets +onlyGivenNames x2
    extract_lets +onlyGivenNames x3
    extract_lets +onlyGivenNames x4
    split
    · refine State.armEntry_keep k.sub ?_
      assumption
    · refine (k.at (.arr (TB_ACT_CTRL 0) 32 32)) _ _ _ ⟨_, rfl⟩ ?_
      assumption

theorem execTimedActionArm_keep {P : State → Prop} (k : Keeps [.mend, .qm, .arr CMP_ERR 0 1, .fresh, .log, .guard, .red, .arr RED_MIRROR 0 1, .time, .free, .arr (TB_ACT_TIME 0) 32 32, .arr (TB_ACT_TIME 0 + 4) 32 32, .arr (TB_ACT_ARG 0) 32 32, .arr (TB_ACT_CTRL 0) 32 32, .tb] P) {a1 : _} {a2 : _} {a3 : _} {s4 : State} (h4 : P s4) : ∀ u, execTimedActionArm a1 a2 a3 s4 = .next u → P u := by
  unfold execTimedActionArm
  refine event_keep k.sub ?_ ?_
  · assumption
  · intro y0
    intro y1
    refine State.armWriteEntry_keep k.sub ?_
    assumption

theorem State.onShadow_keep {P : State → Prop} (k : Keeps [.cmd] P) {s1 : State} {a2 : _} {a3 : _} (h1 : P s1) : P (State.onShadow s1 a2 a3) := by
  unfold State.onShadow
  refine (k.at .cmd) _ _ ?_
  assumption

theorem State.takeLow_keep {P : State → Prop} (k : Keeps [.cmd] P) {s1 : State} {a2 : _} {a3 : _} (h1 : P s1) : P (State.takeLow s1 a2 a3).2 := by
  unfold State.takeLow
  split
  · split
    · dsimp -zeta only
      refine State.onShadow_keep k.sub ?_
      assumption
    · assumption
  · assumption

theorem State.incrWrite_keep {P : State → Prop} (k : Keeps [.arr (TB_DOM_STAT 0) 256 2, .tb, .cmd] P) {s1 : State} {a2 : _} {a3 : _} {a4 : _} (h1 : P s1) : P (State.incrWrite s1 a2 a3 a4) := by
  unfold State.incrWrite
  extract_lets +onlyGivenNames x0
  refine State.commitIncr_keep k.sub ?_
  refine State.takeLow_keep k.sub ?_
  assumption

theorem execTbIncrCommit_keep {P : State → Prop} (k : Keeps [.mend, .qm, .arr CMP_ERR 0 1, .fresh, .log, .guard, .red, .arr RED_MIRROR 0 1, .time, .free, .arr (TB_DOM_STAT 0) 256 2, .tb, .cmd] P) {a1 : _} {a2 : _} {a3 : _} {a4 : _} {s5 : State} (h5 : P s5) : ∀ u, execTbIncrCommit a1 a2 a3 a4 s5 = .next u → P u := by
  unfold execTbIncrCommit
  refine event_keep k.sub ?_ ?_
  · assumption
  · intro y0
    intro y1
    refine State.incrWrite_keep k.sub ?_
    assumption

theorem State.anchorGo_keep {P : State → Prop} (k : Keeps [.arr (TB_ANCHOR_CTRL 0) 256 2, .fresh] P) {s1 : State} {a2 : _} (h1 : P s1) : P (State.anchorGo s1 a2) := by
  unfold State.anchorGo
  split
  · refine setFld_keep k (TB_ANCHOR_CTRL 0) 256 2 ⟨_, rfl⟩ ?_
    assumption
  · refine bump_keep k (TB_ANCHOR_CTRL 0) 256 2 ⟨_, rfl⟩ ?_
    assumption

theorem execAnchorGo_keep {P : State → Prop} (k : Keeps [.mend, .qm, .arr CMP_ERR 0 1, .fresh, .log, .guard, .red, .arr RED_MIRROR 0 1, .time, .free, .arr (TB_ANCHOR_CTRL 0) 256 2] P) {a1 : _} {a2 : _} {s3 : State} (h3 : P s3) : ∀ u, execAnchorGo a1 a2 s3 = .next u → P u := by
  unfold execAnchorGo
  refine event_keep k.sub ?_ ?_
  · assumption
  · intro y0
    intro y1
    refine State.anchorGo_keep k.sub ?_
    assumption

theorem bodyTimeRead_keep {P : State → Prop} (k : Keeps [] P) {a1 : _} {a2 : _} {s3 : State} (h3 : P s3) : (bodyTimeRead a1 a2 s3).Holds P := by
  unfold bodyTimeRead
  extract_lets +onlyGivenNames x0
  show P _
  assumption

theorem State.setDomCfg_keep {P : State → Prop} (k : Keeps [.arr (TB_DOM_CFG 0) 256 2, .tb, .arr (TB_DOM_STAT 0) 256 2, .qm, .log, .mend] P) {s1 : State} {a2 : _} {a3 : _} (h1 : P s1) : P (State.setDomCfg s1 a2 a3) := by
  unfold State.setDomCfg
  extract_lets +onlyGivenNames x0
  extract_lets +onlyGivenNames x1
  have e2 : P x1 := by
    unfold x1
    refine (k.at (.arr (TB_DOM_CFG 0) 256 2)) _ _ _ ⟨_, rfl⟩ ?_
    assumption
  clear_value x1
  split
  · assumption
  · extract_lets +onlyGivenNames x3
    have e4 : P x3 := by
      unfold x3
      refine State.onGm_keep k.sub ?_
      assumption
    clear_value x3
    split
    · split
      · assumption
      · refine State.acquire_keep k.sub ?_
        refine setFld_keep k (TB_DOM_STAT 0) 256 2 ⟨_, rfl⟩ ?_
        assumption
    · split
      · refine State.refreshUp_keep k.sub ?_
        assumption
      · refine State.refreshUp_keep k.sub ?_
        refine State.domOff_keep k.sub ?_
        assumption

theorem bodyTimeDomainConfig_keep {P : State → Prop} (k : Keeps [.arr (TB_PPS_DELAY 0) 256 2, .arr (TB_DOM_CFG 0) 256 2, .tb, .arr (TB_DOM_STAT 0) 256 2, .qm, .log, .mend] P) {a1 : _} {a2 : _} {s3 : State} (h3 : P s3) : (bodyTimeDomainConfig a1 a2 s3).Holds P := by
  unfold bodyTimeDomainConfig
  extract_lets +onlyGivenNames x0
  extract_lets +onlyGivenNames x1
  extract_lets +onlyGivenNames x2
  extract_lets +onlyGivenNames x3
  refine checked_keep ?_ ?_
  · assumption
  · extract_lets +onlyGivenNames x4
    have e5 : P x4 := by
      unfold x4
      refine (k.at (.arr (TB_PPS_DELAY 0) 256 2)) _ _ _ ⟨_, rfl⟩ ?_
      refine State.setDomCfg_keep k.sub ?_
      assumption
    clear_value x4
    extract_lets +onlyGivenNames x6
    have e7 : P x6 := by
      unfold x6
      split
      · refine State.onDom_keep k.sub ?_
        assumption
      · assumption
    clear_value x6
    extract_lets +onlyGivenNames x8
    have e9 : P x8 := by
      unfold x8
      split
      · assumption
      · split
        · refine State.acquire_keep k.sub ?_
          refine setFld_keep k (TB_DOM_STAT 0) 256 2 ⟨_, rfl⟩ ?_
          assumption
        · refine State.acquire_keep k.sub ?_
          assumption
    clear_value x8
    show P _
    assumption

theorem bodyTimeSelectDomain_keep {P : State → Prop} (k : Keeps [.arr TB_CTRL 0 1] P) {a1 : _} {a2 : _} {s3 : State} (h3 : P s3) : (bodyTimeSelectDomain a1 a2 s3).Holds P := by
  unfold bodyTimeSelectDomain
  extract_lets +onlyGivenNames x0
  refine checked_keep ?_ ?_
  · assumption
  · show P _
    refine setFld_keep k TB_CTRL 0 1 ⟨0, rfl⟩ ?_
    refine setFld_keep k TB_CTRL 0 1 ⟨0, rfl⟩ ?_
    assumption

theorem bodyTimeSchedule_keep {P : State → Prop} (k : Keeps [.arr (TB_ACT_TIME 0) 32 32, .arr (TB_ACT_TIME 0 + 4) 32 32, .arr (TB_ACT_ARG 0) 32 32, .arr (TB_ACT_CTRL 0) 32 32, .tb] P) {a1 : _} {a2 : _} {s3 : State} (h3 : P s3) : (bodyTimeSchedule a1 a2 s3).Holds P := by
  unfold bodyTimeSchedule
  extract_lets +onlyGivenNames x0
  extract_lets +onlyGivenNames x1
  extract_lets +onlyGivenNames x2
  extract_lets +onlyGivenNames x3
  extract_lets +onlyGivenNames x4
  extract_lets +onlyGivenNames x5
  extract_lets +onlyGivenNames x6
  clear_value x0
  split
  · extract_lets +onlyGivenNames x7
    refine checked_keep ?_ ?_
    · assumption
    · show P _
      refine State.armEntry_keep k.sub ?_
      assumption
  · refine checked_keep ?_ ?_
    · assumption
    · split
      · show P _
        assumption
      · show P _
        refine State.cancelEntry_keep k.sub ?_
        assumption
  · refine checked_keep ?_ ?_
    · assumption
    · show P _
      refine foldl_keep (fun t8 x9 e10 => ?_) ?_
      · refine State.cancelWrite_keep k.sub ?_
        assumption
      · assumption

theorem bodyTimeAsymmetrySet_keep {P : State → Prop} (k : Keeps [.qm, .log, .mend, .arr (TB_PORT_FLAGS 0) 32 8, .tb, .arr (TB_DOM_STAT 0) 256 2, .nvm, .arr (TB_PORT_ASYM 0) 32 8] P) {a1 : _} {a2 : _} {s3 : State} (h3 : P s3) : (bodyTimeAsymmetrySet a1 a2 s3).Holds P := by
  unfold bodyTimeAsymmetrySet
  extract_lets +onlyGivenNames x0
  extract_lets +onlyGivenNames x1
  refine checked_keep ?_ ?_
  · assumption
  · show P _
    refine State.markAsym_keep k.sub ?_
    unfold State.wrNvm
    refine State.storeNvm_keep k.sub ?_
    refine (k.at (.arr (TB_PORT_ASYM 0) 32 8)) _ _ _ ⟨_, rfl⟩ ?_
    assumption

theorem bodyTimeStatus_keep {P : State → Prop} (k : Keeps [] P) {a1 : _} {a2 : _} {s3 : State} (h3 : P s3) : (bodyTimeStatus a1 a2 s3).Holds P := by
  unfold bodyTimeStatus
  extract_lets +onlyGivenNames x0
  show P _
  assumption

end Sys2Proof.Machine
end

