-- ==== Sys2Proof/Laws/KeepJ.lean ====
section
/-!
SUPPORT. What the operations of Machine/Store, Boot, Power, Sys may touch: one lemma per function (Laws/Keep.lean).
-/

namespace Sys2Proof.Machine

set_option Elab.async false

open Reg Bits

theorem State.putConfig_keep {P : State → Prop} (k : Keeps [.anyReg] P) {s1 : State} {a2 : _} (h1 : P s1) : P (State.putConfig s1 a2) := by
  unfold State.putConfig
  extract_lets +onlyGivenNames x0
  refine (k.at .anyReg) _ _ _ ?_
  assumption

theorem State.loadPorts_keep {P : State → Prop} (k : Keeps [.anyReg, .qm] P) {s1 : State} {a2 : _} (h1 : P s1) : P (State.loadPorts s1 a2) := by
  unfold State.loadPorts
  refine foldl_keep (fun t0 x1 e2 => ?_) ?_
  · extract_lets +onlyGivenNames x3
    have e4 : P x3 := by
      unfold x3
      refine (k.at (.arr (LNK_PORT_CFG 0) 64 8)) _ _ _ ⟨_, rfl⟩ ?_
      assumption
    clear_value x3
    extract_lets +onlyGivenNames x5
    have e6 : P x5 := by
      unfold x5
      refine foldl_keep (fun t7 x8 e9 => ?_) ?_
      · refine State.putConfig_keep k.sub ?_
        assumption
      · assumption
    clear_value x5
    refine (k.at .qm) _ _ ?_
    assumption
  · assumption

theorem State.applyWords_keep {P : State → Prop} (k : Keeps [.arr (CONV_BAY_STAT 0) 16 64, .arr (AFE_BAY_MON 0) 16 64, .acq, .arr (AFE_CH_STAT 0) 16 512, .cap, .arr (TIU_SRC_CFG 0) 4 64, .arr (CAP_TRIG_PARAM 0) 32 32, .arr (CAP_TRIG_SILL 0) 32 32, .arr (CAP_TRIG_LINTEL 0) 32 32, .arr (CAP_TRIG_CFG 0) 32 32, .arr (CAP_TRIG_STAT 0) 32 32, .fblk, .arr PMC_DUMP 0 1, .pmc, .arr DEC_LOAD 0 1] P) {s1 : State} (h1 : P s1) : P (State.applyWords s1) := by
  unfold State.applyWords
  extract_lets +onlyGivenNames x0
  have e1 : P x0 := by
    unfold x0
    refine foldl_keep (fun t2 x3 e4 => ?_) ?_
    · extract_lets +onlyGivenNames x5
      have e6 : P x5 := by
        unfold x5
        refine setFld_keep k (CONV_BAY_STAT 0) 16 64 ⟨_, rfl⟩ ?_
        assumption
      split
      · assumption
      · refine State.excStart_keep k.sub ?_
        assumption
    · assumption
  clear_value x0
  extract_lets +onlyGivenNames x7
  have e8 : P x7 := by
    unfold x7
    refine foldl_keep (fun t9 x10 e11 => ?_) ?_
    · split
      · assumption
      · refine State.onCh_keep k.sub ?_
        refine setFld_keep k (AFE_CH_STAT 0) 16 512 ⟨_, rfl⟩ ?_
        assumption
    · assumption
  clear_value x7
  extract_lets +onlyGivenNames x12
  have e13 : P x12 := by
    unfold x12
    refine foldl_keep (fun t14 x15 e16 => ?_) ?_
    · split
      · refine State.setTrigger_keep k.sub ?_
        assumption
      · assumption
    · assumption
  clear_value x12
  extract_lets +onlyGivenNames x17
  have e18 : P x17 := by
    unfold x17
    refine foldl_keep (fun t19 x20 e21 => ?_) ?_
    · split
      · assumption
      · refine State.setupPort_keep k.sub ?_
        assumption
    · assumption
  clear_value x17
  extract_lets +onlyGivenNames x22
  have e23 : P x22 := by
    unfold x22
    refine State.setDump_keep k.sub ?_
    assumption
  clear_value x22
  extract_lets +onlyGivenNames x24
  have e25 : P x24 := by
    unfold x24
    split
    · refine State.askRepart_keep k.sub ?_
      assumption
    · assumption
  clear_value x24
  refine State.showLoad_keep k.sub ?_
  refine State.onTransom_keep k.sub ?_
  assumption

theorem State.loadConfig_keep {P : State → Prop} (k : Keeps [.acq, .cap, .fblk, .pmc, .anyReg, .qm] P) {s1 : State} (h1 : P s1) : P (State.loadConfig s1) := by
  unfold State.loadConfig
  extract_lets +onlyGivenNames x0
  refine State.applyWords_keep k.sub ?_
  refine State.loadPorts_keep k.sub ?_
  refine foldl_keep (fun t1 x2 e3 => ?_) ?_
  · refine State.putConfig_keep k.sub ?_
    assumption
  · assumption

theorem State.startApplied_keep {P : State → Prop} (k : Keeps ([.acq, .arr (CONV_BAY_STAT 0) 16 64, .arr (DEC_DET_VAL 0) 8 512, .log, .qm, .mend, .arr (DEC_CH_STAT 0) 16 512, .fresh, .arr (CONV_RELIEF 0) 4 4, .arr (DEC_BAY_STAT 0) 16 64, .arr CAP_HIST_STAT 0 1, .arr (CAP_ENG_TRIG 0) 64 16, .arr (CAP_ENG_MAXLEN 0) 64 16, .arr (CAP_ENG_POST 0) 64 16, .arr (CAP_ENG_PRE 0) 64 16, .arr (CAP_ENG_CHAN 0) 64 16, .arr (CAP_ENG_CFG 0) 64 16, .arr DEC_LOAD 0 1, .cap, .arr CMP_ERR 0 1, .arr (MEM_ERR 0) 32 5, .arr (MEM_ERR_INFO 0) 32 5, .free, .arr (MEM_ERR_ADDR 0) 32 5, .arr (MEM_ERR_ADDR 0 + 4) 32 5] ++ [.mem, .arr (CAP_ENG_STAT 0) 64 16, .fblk, .arr (FLD_TRIP_STAT 0) 32 16]) P) {s1 : State} (h1 : P s1) : P (State.startApplied s1) := by
  unfold State.startApplied
  extract_lets +onlyGivenNames x0
  have e1 : P x0 := by
    unfold x0
    refine foldl_keep (fun t2 x3 e4 => ?_) ?_
    · refine State.startBay_keep k.sub ?_
      assumption
    · assumption
  clear_value x0
  extract_lets +onlyGivenNames x5
  have e6 : P x5 := by
    unfold x5
    refine foldl_keep (fun t7 x8 e9 => ?_) ?_
    · split
      · refine State.armWrite_keep k.sub ?_
        refine setFld_keep k (CAP_ENG_CFG 0) 64 16 ⟨_, rfl⟩ ?_
        assumption
      · assumption
    · assumption
  clear_value x5
  refine foldl_keep (fun t10 x11 e12 => ?_) ?_
  · split
    · refine State.setupTrip_keep k.sub ?_
      assumption
    · assumption
  · assumption

theorem State.storeConfig_keep {P : State → Prop} (k : Keeps [.nvm] P) {s1 : State} (h1 : P s1) : P (State.storeConfig s1) := by
  unfold State.storeConfig
  extract_lets +onlyGivenNames x0
  extract_lets +onlyGivenNames x1
  extract_lets +onlyGivenNames x2
  split
  · assumption
  · extract_lets +onlyGivenNames x3
    extract_lets +onlyGivenNames x4
    split
    · refine (k.at .nvm) _ _ ?_
      assumption
    · refine (k.at .nvm) _ _ ?_
      assumption

theorem execConfigStoreWrite_keep {P : State → Prop} (k : Keeps [.mend, .qm, .arr CMP_ERR 0 1, .fresh, .log, .guard, .red, .arr RED_MIRROR 0 1, .time, .free, .nvm] P) {a1 : _} {s2 : State} (h2 : P s2) : ∀ u, execConfigStoreWrite a1 s2 = .next u → P u := by
  unfold execConfigStoreWrite
  refine event_keep k.sub ?_ ?_
  · assumption
  · intro y0
    intro y1
    refine State.storeConfig_keep k.sub ?_
    assumption

theorem State.loadCal_keep {P : State → Prop} (k : Keeps [.cal, .arr (CAL_GRP_STAT 0) 16 29, .acq, .arr (CONV_TRIM 0) 4 512, .arr (DEC_BAY_CFG 0) 16 64, .arr (CAL_GRP_QUAL 0) 16 29, .qm, .log, .mend, .arr CAL_STAT 0 1, .fresh] P) {s1 : State} (h1 : P s1) : P (State.loadCal s1) := by
  unfold State.loadCal
  refine foldl_keep (fun t0 x1 e2 => ?_) ?_
  · extract_lets +onlyGivenNames x3
    split
    · extract_lets +onlyGivenNames x4
      have e5 : P x4 := by
        unfold x4
        refine (k.at .cal) _ _ ?_
        assumption
      clear_value x4
      extract_lets +onlyGivenNames x6
      have e7 : P x6 := by
        unfold x6
        refine setFld_keep k (CAL_GRP_STAT 0) 16 29 ⟨_, rfl⟩ ?_
        refine setFld_keep k (CAL_GRP_STAT 0) 16 29 ⟨_, rfl⟩ ?_
        assumption
      clear_value x6
      refine State.loadTrims_keep k.sub ?_
      refine setFld_keep k (CAL_GRP_QUAL 0) 16 29 ⟨_, rfl⟩ ?_
      refine setFld_keep k (CAL_GRP_QUAL 0) 16 29 ⟨_, rfl⟩ ?_
      assumption
    · refine State.loadTrims_keep k.sub ?_
      refine State.issue_keep k.sub ?_
      refine setBit_keep k CAL_STAT 0 1 ⟨0, rfl⟩ ?_
      assumption
  · assumption

theorem State.queueBadCal_keep {P : State → Prop} (k : Keeps [.arr (CAL_GRP_STAT 0) 16 29, .cal] P) {s1 : State} (h1 : P s1) : P (State.queueBadCal s1) := by
  unfold State.queueBadCal
  refine foldl_keep (fun t0 x1 e2 => ?_) ?_
  · split
    · refine State.queueCal_keep k.sub ?_
      assumption
    · assumption
  · assumption

theorem State.powerOn_keep {P : State → Prop} (k : Keeps [.sys, .reset] P) {s1 : State} (h1 : P s1) : P (State.powerOn s1) := by
  unfold State.powerOn
  refine (k.at .sys) _ _ ?_
  refine (k.at .reset) _ _ ?_
  assumption

theorem execPowerOn_keep {P : State → Prop} (k : Keeps [.mend, .qm, .arr CMP_ERR 0 1, .fresh, .log, .guard, .red, .arr RED_MIRROR 0 1, .time, .free, .sys, .reset] P) {a1 : _} {s2 : State} (h2 : P s2) : ∀ u, execPowerOn a1 s2 = .next u → P u := by
  unfold execPowerOn
  refine event_keep k.sub ?_ ?_
  · assumption
  · intro y0
    intro y1
    refine State.powerOn_keep k.sub ?_
    assumption

theorem State.resetPulse_keep {P : State → Prop} (k : Keeps [.reset] P) {s1 : State} {a2 : _} (h1 : P s1) : P (State.resetPulse s1 a2) := by
  unfold State.resetPulse
  split
  · assumption
  · refine (k.at .reset) _ _ ?_
    assumption

theorem execResetNPulse_keep {P : State → Prop} (k : Keeps [.mend, .qm, .arr CMP_ERR 0 1, .fresh, .log, .guard, .red, .arr RED_MIRROR 0 1, .time, .free, .reset] P) {a1 : _} {a2 : _} {s3 : State} (h3 : P s3) : ∀ u, execResetNPulse a1 a2 s3 = .next u → P u := by
  unfold execResetNPulse
  refine event_keep k.sub ?_ ?_
  · assumption
  · intro y0
    intro y1
    refine State.resetPulse_keep k.sub ?_
    assumption

theorem State.brownout_keep {P : State → Prop} (k : Keeps [.reset] P) {s1 : State} {a2 : _} (h1 : P s1) : P (State.brownout s1 a2) := by
  unfold State.brownout
  split
  · assumption
  · refine (k.at .reset) _ _ ?_
    assumption

theorem execSupplyBrownout_keep {P : State → Prop} (k : Keeps [.mend, .qm, .arr CMP_ERR 0 1, .fresh, .log, .guard, .red, .arr RED_MIRROR 0 1, .time, .free, .reset] P) {a1 : _} {a2 : _} {s3 : State} (h3 : P s3) : ∀ u, execSupplyBrownout a1 a2 s3 = .next u → P u := by
  unfold execSupplyBrownout
  refine event_keep k.sub ?_ ?_
  · assumption
  · intro y0
    intro y1
    refine State.brownout_keep k.sub ?_
    assumption

theorem State.powerFail_keep {P : State → Prop} (k : Keeps [.nvm, .sys, .log, .qm, .mend] P) {s1 : State} (h1 : P s1) : P (State.powerFail s1) := by
  unfold State.powerFail
  split
  · assumption
  · extract_lets +onlyGivenNames x0
    extract_lets +onlyGivenNames x1
    extract_lets +onlyGivenNames x2
    extract_lets +onlyGivenNames x3
    have e4 : P x3 := by
      unfold x3
      refine (k.at .nvm) _ _ ?_
      assumption
    clear_value x3
    extract_lets +onlyGivenNames x5
    have e6 : P x5 := by
      unfold x5
      refine (k.at .sys) _ _ ?_
      assumption
    clear_value x5
    refine (k.at .sys) _ _ ?_
    refine State.bbCommit_keep k.sub ?_
    assumption

theorem execPfwNFall_keep {P : State → Prop} (k : Keeps [.mend, .qm, .arr CMP_ERR 0 1, .fresh, .log, .guard, .red, .arr RED_MIRROR 0 1, .time, .free, .nvm, .sys] P) {a1 : _} {s2 : State} (h2 : P s2) : ∀ u, execPfwNFall a1 s2 = .next u → P u := by
  unfold execPfwNFall
  refine event_keep k.sub ?_ ?_
  · assumption
  · intro y0
    intro y1
    refine State.powerFail_keep k.sub ?_
    assumption

theorem State.powerBack_keep {P : State → Prop} (k : Keeps [.sys] P) {s1 : State} (h1 : P s1) : P (State.powerBack s1) := by
  unfold State.powerBack
  split
  · assumption
  · split
    · refine (k.at .sys) _ _ ?_
      assumption
    · refine (k.at .sys) _ _ ?_
      assumption

theorem execPfwNRise_keep {P : State → Prop} (k : Keeps [.mend, .qm, .arr CMP_ERR 0 1, .fresh, .log, .guard, .red, .arr RED_MIRROR 0 1, .time, .free, .sys] P) {a1 : _} {s2 : State} (h2 : P s2) : ∀ u, execPfwNRise a1 s2 = .next u → P u := by
  unfold execPfwNRise
  refine event_keep k.sub ?_ ?_
  · assumption
  · intro y0
    intro y1
    refine State.powerBack_keep k.sub ?_
    assumption

theorem State.recoveryReset_keep {P : State → Prop} (k : Keeps [.reset] P) {s1 : State} (h1 : P s1) : P (State.recoveryReset s1) := by
  unfold State.recoveryReset
  split
  · split
    · refine (k.at .reset) _ _ ?_
      assumption
    · assumption
  · assumption

theorem execPfwRecoveryReset_keep {P : State → Prop} (k : Keeps [.mend, .qm, .arr CMP_ERR 0 1, .fresh, .log, .guard, .red, .arr RED_MIRROR 0 1, .time, .free, .reset] P) {a1 : _} {s2 : State} (h2 : P s2) : ∀ u, execPfwRecoveryReset a1 s2 = .next u → P u := by
  unfold execPfwRecoveryReset
  refine event_keep k.sub ?_ ?_
  · assumption
  · intro y0
    intro y1
    refine State.recoveryReset_keep k.sub ?_
    assumption

theorem State.enterPower_keep {P : State → Prop} (k : Keeps [.qm, .log, .mend, .arr SYS_PWR_STATE 0 1] P) {s1 : State} {a2 : _} {a3 : _} (h1 : P s1) : P (State.enterPower s1 a2 a3) := by
  unfold State.enterPower
  extract_lets +onlyGivenNames x0
  refine State.issue_keep k.sub ?_
  refine (k.at (.arr SYS_PWR_STATE 0 1)) _ _ _ ⟨0, rfl⟩ ?_
  assumption

theorem State.conLine_keep {P : State → Prop} (k : Keeps [.sys] P) {s1 : State} {a2 : _} (h1 : P s1) : P (State.conLine s1 a2) := by
  unfold State.conLine
  refine (k.at .sys) _ _ ?_
  assumption

theorem State.enterMinimal_keep {P : State → Prop} (k : Keeps [.sys, .anyReg, .qm, .log, .mend] P) {s1 : State} {a2 : _} (h1 : P s1) : P (State.enterMinimal s1 a2) := by
  unfold State.enterMinimal
  extract_lets +onlyGivenNames x0
  extract_lets +onlyGivenNames x1
  have e2 : P x1 := by
    unfold x1
    refine (k.at .sys) _ _ ?_
    refine State.loadPorts_keep k.sub ?_
    assumption
  clear_value x1
  refine State.conLine_keep k.sub ?_
  refine State.enterPower_keep k.sub ?_
  assumption

theorem State.layOut_keep {P : State → Prop} (k : Keeps [.arr MEM_DRAM_CFG 0 1, .qm, .log, .mend] P) {s1 : State} {a2 : _} (h1 : P s1) : P (State.layOut s1 a2) := by
  unfold State.layOut
  extract_lets +onlyGivenNames x0
  extract_lets +onlyGivenNames x1
  extract_lets +onlyGivenNames x2
  extract_lets +onlyGivenNames x3
  extract_lets +onlyGivenNames x4
  extract_lets +onlyGivenNames x5
  extract_lets +onlyGivenNames x6
  extract_lets +onlyGivenNames x7
  extract_lets +onlyGivenNames x8
  have e9 : P x8 := by
    unfold x8
    refine setFld_keep k MEM_DRAM_CFG 0 1 ⟨0, rfl⟩ ?_
    refine setFld_keep k MEM_DRAM_CFG 0 1 ⟨0, rfl⟩ ?_
    refine setFld_keep k MEM_DRAM_CFG 0 1 ⟨0, rfl⟩ ?_
    refine setFld_keep k MEM_DRAM_CFG 0 1 ⟨0, rfl⟩ ?_
    assumption
  clear_value x8
  split
  · assumption
  · refine State.issue_keep k.sub ?_
    assumption

theorem State.withoutNvm_keep {P : State → Prop} (k : Keeps [.anyReg] P) {s1 : State} (h1 : P s1) : P (State.withoutNvm s1) := by
  unfold State.withoutNvm
  extract_lets +onlyGivenNames x0
  have e1 : P x0 := by
    unfold x0
    refine (k.at (.arr SYS_HUB_ADDR 0 1)) _ _ _ ⟨0, rfl⟩ ?_
    refine foldl_keep (fun t2 x3 e4 => ?_) ?_
    · refine (k.at .anyReg) _ _ _ ?_
      assumption
    · assumption
  clear_value x0
  refine foldl_keep (fun t5 x6 e7 => ?_) ?_
  · refine (k.at (.arr (CMD_SLOT_CTR 0) 16 16)) _ _ _ ⟨_, rfl⟩ ?_
    assumption
  · assumption

theorem State.chooseSlot_keep {P : State → Prop} (k : Keeps [.sys, .nvm, .anyReg, .qm, .log, .mend] P) {s1 : State} (h1 : P s1) : P (State.chooseSlot s1) := by
  unfold State.chooseSlot
  extract_lets +onlyGivenNames x0
  have e1 : P x0 := by
    unfold x0
    refine State.conLine_keep k.sub ?_
    refine (k.at .nvm) _ _ ?_
    assumption
  clear_value x0
  split
  · refine State.enterMinimal_keep k.sub ?_
    assumption
  · extract_lets +onlyGivenNames x2
    have e3 : P x2 := by
      unfold x2
      refine (k.at .nvm) _ _ ?_
      assumption
    clear_value x2
    refine (k.at .sys) _ _ ?_
    assumption

theorem State.fillDone_keep {P : State → Prop} (k : Keeps [.sys, .nvm, .anyReg, .qm, .log, .mend] P) {s1 : State} {a2 : _} (h1 : P s1) : P (State.fillDone s1 a2) := by
  unfold State.fillDone
  split
  · assumption
  · extract_lets +onlyGivenNames x0
    extract_lets +onlyGivenNames x1
    extract_lets +onlyGivenNames x2
    extract_lets +onlyGivenNames x3
    have e4 : P x3 := by
      unfold x3
      refine foldl_keep (fun t5 x6 e7 => ?_) ?_
      · refine setFld_keep k (TIU_CORE_STAT 0) 16 8 ⟨_, rfl⟩ ?_
        refine setFld_keep k (TIU_CORE_STAT 0) 16 8 ⟨_, rfl⟩ ?_
        assumption
      · assumption
    clear_value x3
    extract_lets +onlyGivenNames x8
    have e9 : P x8 := by
      unfold x8
      refine setFld_keep k MEM_BOOT_STAT 0 1 ⟨0, rfl⟩ ?_
      refine (k.at (.arr MEM_BOOT_STAT 0 1)) _ _ _ ⟨0, rfl⟩ ?_
      assumption
    clear_value x8
    extract_lets +onlyGivenNames x10
    have e11 : P x10 := by
      unfold x10
      refine State.conLine_keep k.sub ?_
      refine setFld_keep k MEM_BOOT_STAT 0 1 ⟨0, rfl⟩ ?_
      refine setFld_keep k MEM_BOOT_STAT 0 1 ⟨0, rfl⟩ ?_
      assumption
    clear_value x10
    split
    · refine State.chooseSlot_keep k.sub ?_
      refine State.layOut_keep k.sub ?_
      assumption
    · extract_lets +onlyGivenNames x12
      have e13 : P x12 := by
        unfold x12
        refine (k.at .nvm) _ _ ?_
        refine setFld_keep k MEM_BOOT_STAT 0 1 ⟨0, rfl⟩ ?_
        refine setFld_keep k MEM_BOOT_STAT 0 1 ⟨0, rfl⟩ ?_
        assumption
      clear_value x12
      extract_lets +onlyGivenNames x14
      have e15 : P x14 := by
        unfold x14
        refine (k.at .sys) _ _ ?_
        assumption
      clear_value x14
      extract_lets +onlyGivenNames x16
      have e17 : P x16 := by
        unfold x16
        split
        · refine State.withoutNvm_keep k.sub ?_
          assumption
        · assumption
      clear_value x16
      split
      · refine (k.at .sys) _ _ ?_
        assumption
      · extract_lets +onlyGivenNames x18
        have e19 : P x18 := by
          unfold x18
          split
          · assumption
          · refine State.layOut_keep k.sub ?_
            assumption
        clear_value x18
        refine State.enterMinimal_keep k.sub ?_
        refine (k.at .nvm) _ _ ?_
        assumption

theorem execMemoryFillDone_keep {P : State → Prop} (k : Keeps [.mend, .qm, .fresh, .log, .guard, .red, .time, .free, .sys, .nvm, .anyReg] P) {a1 : _} {a2 : _} {s3 : State} (h3 : P s3) : ∀ u, execMemoryFillDone a1 a2 s3 = .next u → P u := by
  unfold execMemoryFillDone
  refine event_keep k.sub ?_ ?_
  · assumption
  · intro y0
    intro y1
    refine State.fillDone_keep k.sub ?_
    assumption

theorem State.failedStart_keep {P : State → Prop} (k : Keeps [.nvm, .sys, .log, .qm, .mend, .reset] P) {s1 : State} {a2 : _} (h1 : P s1) : P (State.failedStart s1 a2) := by
  unfold State.failedStart
  split
  · assumption
  · extract_lets +onlyGivenNames x0
    have e1 : P x0 := by
      unfold x0
      refine (k.at .nvm) _ _ ?_
      assumption
    clear_value x0
    extract_lets +onlyGivenNames x2
    have e3 : P x2 := by
      unfold x2
      refine State.conLine_keep k.sub ?_
      refine State.bbCommit_keep k.sub ?_
      assumption
    clear_value x2
    extract_lets +onlyGivenNames x4
    refine (k.at .sys) _ _ ?_
    refine (k.at .reset) _ _ ?_
    assumption

theorem State.imageLoaded_keep {P : State → Prop} (k : Keeps [.sys, .nvm, .log, .qm, .mend, .reset] P) {s1 : State} (h1 : P s1) : P (State.imageLoaded s1) := by
  unfold State.imageLoaded
  split
  · assumption
  · extract_lets +onlyGivenNames x0
    have e1 : P x0 := by
      unfold x0
      refine State.conLine_keep k.sub ?_
      assumption
    clear_value x0
    split
    · refine State.failedStart_keep k.sub ?_
      assumption
    · refine State.conLine_keep k.sub ?_
      refine (k.at .sys) _ _ ?_
      assumption

theorem execImageLoadDone_keep {P : State → Prop} (k : Keeps [.mend, .qm, .arr CMP_ERR 0 1, .fresh, .log, .guard, .red, .arr RED_MIRROR 0 1, .time, .free, .sys, .nvm, .reset] P) {a1 : _} {s2 : State} (h2 : P s2) : ∀ u, execImageLoadDone a1 s2 = .next u → P u := by
  unfold execImageLoadDone
  refine event_keep k.sub ?_ ?_
  · assumption
  · intro y0
    intro y1
    refine State.imageLoaded_keep k.sub ?_
    assumption

theorem State.bootTimeout_keep {P : State → Prop} (k : Keeps [.nvm, .sys, .log, .qm, .mend, .reset] P) {s1 : State} (h1 : P s1) : P (State.bootTimeout s1) := by
  unfold State.bootTimeout
  split
  · refine State.failedStart_keep k.sub ?_
    assumption
  · assumption

theorem execBootTimeout_keep {P : State → Prop} (k : Keeps [.mend, .qm, .arr CMP_ERR 0 1, .fresh, .log, .guard, .red, .arr RED_MIRROR 0 1, .time, .free, .nvm, .sys, .reset] P) {a1 : _} {s2 : State} (h2 : P s2) : ∀ u, execBootTimeout a1 s2 = .next u → P u := by
  unfold execBootTimeout
  refine event_keep k.sub ?_ ?_
  · assumption
  · intro y0
    intro y1
    refine State.bootTimeout_keep k.sub ?_
    assumption

theorem State.confirmSlot_keep {P : State → Prop} (k : Keeps [.nvm, .qm, .log, .mend] P) {s1 : State} (h1 : P s1) : P (State.confirmSlot s1) := by
  unfold State.confirmSlot
  extract_lets +onlyGivenNames x0
  extract_lets +onlyGivenNames x1
  extract_lets +onlyGivenNames x2
  extract_lets +onlyGivenNames x3
  have e4 : P x3 := by
    unfold x3
    refine (k.at .nvm) _ _ ?_
    assumption
  clear_value x3
  split
  · assumption
  · refine State.issue_keep k.sub ?_
    assumption

theorem State.bootOk_keep {P : State → Prop} (k : Keeps [.nvm, .sys, .log, .qm, .mend, .reset, .acq, .cap, .fblk, .pmc, .anyReg, .cal, .fresh, .red, .free, .mem, .lnk] P) {s1 : State} {a2 : _} (h1 : P s1) : P (State.bootOk s1 a2) := by
  unfold State.bootOk
  split
  · assumption
  · split
    · refine State.failedStart_keep k.sub ?_
      refine State.conLine_keep k.sub ?_
      assumption
    · extract_lets +onlyGivenNames x0
      have e1 : P x0 := by
        unfold x0
        refine State.conLine_keep k.sub ?_
        assumption
      clear_value x0
      extract_lets +onlyGivenNames x2
      extract_lets +onlyGivenNames x3
      have e4 : P x3 := by
        unfold x3
        refine State.loadConfig_keep k.sub ?_
        refine State.loadCal_keep k.sub ?_
        assumption
      clear_value x3
      extract_lets +onlyGivenNames x5
      have e6 : P x5 := by
        unfold x5
        refine setFld_keep k SYS_BOOT_STAT 0 1 ⟨0, rfl⟩ ?_
        refine setFld_keep k SYS_BOOT_STAT 0 1 ⟨0, rfl⟩ ?_
        refine setFld_keep k SYS_BOOT_STAT 0 1 ⟨0, rfl⟩ ?_
        assumption
      clear_value x5
      extract_lets +onlyGivenNames x7
      have e8 : P x7 := by
        unfold x7
        refine State.enterPower_keep k.sub ?_
        refine (k.at .sys) _ _ ?_
        assumption
      clear_value x7
      extract_lets +onlyGivenNames x9
      have e10 : P x9 := by
        unfold x9
        refine State.issue_keep k.sub ?_
        assumption
      clear_value x9
      extract_lets +onlyGivenNames x11
      have e12 : P x11 := by
        unfold x11
        refine State.conLine_keep k.sub ?_
        refine State.confirmSlot_keep k.sub ?_
        assumption
      clear_value x11
      extract_lets +onlyGivenNames x13
      have e14 : P x13 := by
        unfold x13
        split
        · assumption
        · refine State.issue_keep k.sub ?_
          assumption
      clear_value x13
      extract_lets +onlyGivenNames x15
      have e16 : P x15 := by
        unfold x15
        refine (k.at .nvm) _ _ ?_
        assumption
      clear_value x15
      extract_lets +onlyGivenNames x17
      have e18 : P x17 := by
        unfold x17
        refine State.quietAll_keep k.sub ?_
        refine State.startApplied_keep k.sub ?_
        refine State.queueBadCal_keep k.sub ?_
        assumption
      clear_value x17
      split
      · refine State.setHead_keep k.sub ?_
        assumption
      · assumption

theorem execBootOk_keep {P : State → Prop} (k : Keeps [.mend, .qm, .fresh, .log, .guard, .red, .time, .free, .nvm, .sys, .reset, .acq, .cap, .fblk, .pmc, .anyReg, .cal, .mem, .lnk] P) {a1 : _} {a2 : _} {s3 : State} (h3 : P s3) : ∀ u, execBootOk a1 a2 s3 = .next u → P u := by
  unfold execBootOk
  refine event_keep k.sub ?_ ?_
  · assumption
  · intro y0
    intro y1
    refine State.bootOk_keep k.sub ?_
    assumption

theorem State.stopOp_keep {P : State → Prop} (k : Keeps ([.sys, .tiu, .arr (TIU_SRC_CFG 0) 4 64, .qm, .cap, .work, .mend, .arr (MEM_ERR 0) 32 5, .fresh, .arr (MEM_ERR_INFO 0) 32 5, .free, .arr (MEM_ERR_ADDR 0) 32 5, .arr (MEM_ERR_ADDR 0 + 4) 32 5, .log, .mem, .cmp, .arr (CMP_SLOT 0) 16 4, .arr (CMP_SLOT_OUT 0) 16 4, .lnk, .red, .arr MEM_SCRUB_STAT 0 1, .cal, .acq, .arr (CONV_BAY_STAT 0) 16 64, .arr (CONV_RELIEF 0) 4 4] ++ [.arr (TIU_CORE_STAT 0) 16 8, .arr (CAL_GRP_STAT 0) 16 29, .arr CAL_STAT 0 1, .cmd, .arr CMD_CACHE 0 1]) P) {s1 : State} {a2 : _} (h1 : P s1) : P (State.stopOp s1 a2) := by
  unfold State.stopOp
  split
  · refine (k.at .sys) _ _ ?_
    assumption
  · refine foldl_keep (fun t0 x1 e2 => ?_) ?_
    · refine State.dropGate_keep k.sub ?_
      assumption
    · assumption
  · extract_lets +onlyGivenNames x3
    extract_lets +onlyGivenNames x4
    extract_lets +onlyGivenNames x5
    have e6 : P x5 := by
      unfold x5
      refine foldl_keep (fun t7 x8 e9 => ?_) ?_
      · refine State.freeRec_keep k.sub ?_
        assumption
      · assumption
    clear_value x5
    refine (k.at .cap) _ _ ?_
    assumption
  · refine foldl_keep (fun t10 x11 e12 => ?_) ?_
    · refine State.abortJob_keep k.sub ?_
      assumption
    · assumption
  · refine (k.at .lnk) _ _ ?_
    assumption
  · refine (k.at .red) _ _ ?_
    assumption
  · refine State.scrubStop_keep k.sub ?_
    assumption
  · extract_lets +onlyGivenNames x13
    extract_lets +onlyGivenNames x14
    have e15 : P x14 := by
      unfold x14
      refine (k.at .cal) _ _ ?_
      assumption
    clear_value x14
    refine foldl_keep (fun t16 x17 e18 => ?_) ?_
    · refine State.calStop_keep k.sub ?_
      refine setFld_keep k (CAL_GRP_STAT 0) 16 29 ⟨_, rfl⟩ ?_
      assumption
    · assumption
  · assumption

theorem State.timeOut_keep {P : State → Prop} (k : Keeps [.arr CMD_ERR 0 1, .fresh, .cmd, .qm, .log, .mend, .arr CMD_CACHE 0 1] P) {s1 : State} {a2 : _} {a3 : _} (h1 : P s1) : P (State.timeOut s1 a2 a3) := by
  unfold State.timeOut
  extract_lets +onlyGivenNames x0
  have e1 : P x0 := by
    unfold x0
    refine bump_keep k CMD_ERR 0 1 ⟨0, rfl⟩ ?_
    refine (k.at .cmd) _ _ ?_
    assumption
  clear_value x0
  refine State.issue_keep k.sub ?_
  refine State.reply_keep k.sub ?_
  assumption

theorem State.porterRestart_keep {P : State → Prop} (k : Keeps ([.arr SYS_PORTER_STAT 0 1, .fresh, .sys, .mem, .qm, .log, .mend, .reset, .arr CMD_ERR 0 1, .cmd, .arr CMD_CACHE 0 1, .tiu, .arr (TIU_SRC_CFG 0) 4 64, .cap, .work, .arr (MEM_ERR 0) 32 5, .arr (MEM_ERR_INFO 0) 32 5, .free, .arr (MEM_ERR_ADDR 0) 32 5, .arr (MEM_ERR_ADDR 0 + 4) 32 5, .cmp, .arr (CMP_SLOT 0) 16 4, .arr (CMP_SLOT_OUT 0) 16 4, .lnk, .red] ++ [.arr MEM_SCRUB_STAT 0 1, .cal, .acq, .arr (CONV_BAY_STAT 0) 16 64, .arr (CONV_RELIEF 0) 4 4, .arr (TIU_CORE_STAT 0) 16 8, .arr (CAL_GRP_STAT 0) 16 29, .arr CAL_STAT 0 1]) P) {s1 : State} {a2 : _} (h1 : P s1) : P (State.porterRestart s1 a2) := by
  unfold State.porterRestart
  extract_lets +onlyGivenNames x0
  extract_lets +onlyGivenNames x1
  have e2 : P x1 := by
    unfold x1
    refine setFld_keep k SYS_PORTER_STAT 0 1 ⟨0, rfl⟩ ?_
    refine bump_keep k SYS_PORTER_STAT 0 1 ⟨0, rfl⟩ ?_
    assumption
  clear_value x1
  extract_lets +onlyGivenNames x3
  have e4 : P x3 := by
    unfold x3
    refine (k.at .sys) _ _ ?_
    assumption
  clear_value x3
  extract_lets +onlyGivenNames x5
  have e6 : P x5 := by
    unfold x5
    refine (k.at .mem) _ _ ?_
    refine State.issue_keep k.sub ?_
    assumption
  clear_value x5
  split
  · refine (k.at .reset) _ _ ?_
    assumption
  · extract_lets +onlyGivenNames x7
    have e8 : P x7 := by
      unfold x7
      refine foldl_keep (fun t9 x10 e11 => ?_) ?_
      · refine State.timeOut_keep k.sub ?_
        assumption
      · assumption
    clear_value x7
    refine foldl_keep (fun t12 x13 e14 => ?_) ?_
    · refine State.report_keep k.sub ?_
      refine State.stopOp_keep k.sub ?_
      assumption
    · assumption

theorem State.watchdog_keep {P : State → Prop} (k : Keeps ([.arr SYS_PORTER_STAT 0 1, .fresh, .sys, .mem, .qm, .log, .mend, .reset, .arr CMD_ERR 0 1, .cmd, .arr CMD_CACHE 0 1, .tiu, .arr (TIU_SRC_CFG 0) 4 64, .cap, .work, .arr (MEM_ERR 0) 32 5, .arr (MEM_ERR_INFO 0) 32 5, .free, .arr (MEM_ERR_ADDR 0) 32 5, .arr (MEM_ERR_ADDR 0 + 4) 32 5, .cmp, .arr (CMP_SLOT 0) 16 4, .arr (CMP_SLOT_OUT 0) 16 4, .lnk, .red] ++ [.arr MEM_SCRUB_STAT 0 1, .cal, .acq, .arr (CONV_BAY_STAT 0) 16 64, .arr (CONV_RELIEF 0) 4 4, .arr (TIU_CORE_STAT 0) 16 8, .arr (CAL_GRP_STAT 0) 16 29, .arr CAL_STAT 0 1, .nvm]) P) {s1 : State} (h1 : P s1) : P (State.watchdog s1) := by
  unfold State.watchdog
  split
  · split
    · assumption
    · refine State.porterRestart_keep k.sub ?_
      assumption
  · split
    · refine State.failedStart_keep k.sub ?_
      assumption
    · assumption

theorem execWatchdogExpiry_keep {P : State → Prop} (k : Keeps ([.mend, .qm, .arr CMP_ERR 0 1, .fresh, .log, .guard, .red, .arr RED_MIRROR 0 1, .time, .free, .arr SYS_PORTER_STAT 0 1, .sys, .mem, .reset, .arr CMD_ERR 0 1, .cmd, .arr CMD_CACHE 0 1, .tiu, .arr (TIU_SRC_CFG 0) 4 64, .cap, .work, .arr (MEM_ERR 0) 32 5, .arr (MEM_ERR_INFO 0) 32 5, .arr (MEM_ERR_ADDR 0) 32 5, .arr (MEM_ERR_ADDR 0 + 4) 32 5] ++ [.cmp, .arr (CMP_SLOT 0) 16 4, .arr (CMP_SLOT_OUT 0) 16 4, .lnk, .arr MEM_SCRUB_STAT 0 1, .cal, .acq, .arr (CONV_BAY_STAT 0) 16 64, .arr (CONV_RELIEF 0) 4 4, .arr (TIU_CORE_STAT 0) 16 8, .arr (CAL_GRP_STAT 0) 16 29, .arr CAL_STAT 0 1, .nvm]) P) {a1 : _} {s2 : State} (h2 : P s2) : ∀ u, execWatchdogExpiry a1 s2 = .next u → P u := by
  unfold execWatchdogExpiry
  refine event_keep k.sub ?_ ?_
  · assumption
  · intro y0
    intro y1
    refine State.watchdog_keep k.sub ?_
    assumption

theorem State.lockstep_keep {P : State → Prop} (k : Keeps ([.arr SYS_PORTER_STAT 0 1, .fresh, .sys, .mem, .qm, .log, .mend, .reset, .arr CMD_ERR 0 1, .cmd, .arr CMD_CACHE 0 1, .tiu, .arr (TIU_SRC_CFG 0) 4 64, .cap, .work, .arr (MEM_ERR 0) 32 5, .arr (MEM_ERR_INFO 0) 32 5, .free, .arr (MEM_ERR_ADDR 0) 32 5, .arr (MEM_ERR_ADDR 0 + 4) 32 5, .cmp, .arr (CMP_SLOT 0) 16 4, .arr (CMP_SLOT_OUT 0) 16 4, .lnk, .red] ++ [.arr MEM_SCRUB_STAT 0 1, .cal, .acq, .arr (CONV_BAY_STAT 0) 16 64, .arr (CONV_RELIEF 0) 4 4, .arr (TIU_CORE_STAT 0) 16 8, .arr (CAL_GRP_STAT 0) 16 29, .arr CAL_STAT 0 1, .nvm]) P) {s1 : State} (h1 : P s1) : P (State.lockstep s1) := by
  unfold State.lockstep
  split
  · split
    · assumption
    · refine State.porterRestart_keep k.sub ?_
      assumption
  · refine State.failedStart_keep k.sub ?_
    assumption

theorem execLockstepMismatch_keep {P : State → Prop} (k : Keeps ([.mend, .qm, .arr CMP_ERR 0 1, .fresh, .log, .guard, .red, .arr RED_MIRROR 0 1, .time, .free, .arr SYS_PORTER_STAT 0 1, .sys, .mem, .reset, .arr CMD_ERR 0 1, .cmd, .arr CMD_CACHE 0 1, .tiu, .arr (TIU_SRC_CFG 0) 4 64, .cap, .work, .arr (MEM_ERR 0) 32 5, .arr (MEM_ERR_INFO 0) 32 5, .arr (MEM_ERR_ADDR 0) 32 5, .arr (MEM_ERR_ADDR 0 + 4) 32 5] ++ [.cmp, .arr (CMP_SLOT 0) 16 4, .arr (CMP_SLOT_OUT 0) 16 4, .lnk, .arr MEM_SCRUB_STAT 0 1, .cal, .acq, .arr (CONV_BAY_STAT 0) 16 64, .arr (CONV_RELIEF 0) 4 4, .arr (TIU_CORE_STAT 0) 16 8, .arr (CAL_GRP_STAT 0) 16 29, .arr CAL_STAT 0 1, .nvm]) P) {a1 : _} {s2 : State} (h2 : P s2) : ∀ u, execLockstepMismatch a1 s2 = .next u → P u := by
  unfold execLockstepMismatch
  refine event_keep k.sub ?_ ?_
  · assumption
  · intro y0
    intro y1
    refine State.lockstep_keep k.sub ?_
    assumption

theorem bodySetPowerState_keep {P : State → Prop} (k : Keeps [.nvm, .arr SYS_PWR_STATE 0 1, .sys] P) {a1 : _} {a2 : _} {s3 : State} (h3 : P s3) : (bodySetPowerState a1 a2 s3).Holds P := by
  unfold bodySetPowerState
  extract_lets +onlyGivenNames x0
  extract_lets +onlyGivenNames x1
  extract_lets +onlyGivenNames x2
  split
  · show P _
    assumption
  · refine checked_keep ?_ ?_
    · assumption
    · split
      · show P _
        split
        · refine (k.at .nvm) _ _ ?_
          assumption
        · assumption
      · extract_lets +onlyGivenNames x3
        have e4 : P x3 := by
          unfold x3
          refine setFld_keep k SYS_PWR_STATE 0 1 ⟨0, rfl⟩ ?_
          refine setFld_keep k SYS_PWR_STATE 0 1 ⟨0, rfl⟩ ?_
          assumption
        clear_value x3
        show P _
        refine (k.at .sys) _ _ ?_
        assumption

theorem State.stow_keep {P : State → Prop} (k : Keeps [.cmp, .log, .qm, .mend, .arr CMP_STAT 0 1, .fresh, .arr CMP_RATIO 0 1, .arr (MEM_ERR 0) 32 5, .arr (MEM_ERR_INFO 0) 32 5, .free, .arr (MEM_ERR_ADDR 0) 32 5, .arr (MEM_ERR_ADDR 0 + 4) 32 5, .mem] P) {a1 : Option State} {a2 : _} (h1 : ∀ x, a1 = some x → P x) : ∀ x, State.stow a1 a2 = some x → P x := by
  intro y hy
  unfold State.stow at hy
  split at hy
  · cases hy
  · rename_i s
    have hs := h1 s rfl
    split at hy
    · cases hy
      exact hs
    · rename_i r _
      extract_lets c r' at hy
      have hc : P c.2 := by
        unfold c
        split
        · exact State.compress_keep k.sub hs
        · exact hs
      clear_value c
      split at hy
      · cases hy
      · rw [Option.some.injEq] at hy
        rw [← hy]
        exact State.storeRec_keep k.sub (State.onRec_keep k.sub hc)

theorem State.endSampling_keep {P : State → Prop} (k : Keeps ([.arr CONV_TSEQ_STAT 0 1, .acq, .cal, .arr (CONV_BAY_STAT 0) 16 64, .arr (CONV_RELIEF 0) 4 4, .arr (TIU_CORE_STAT 0) 16 8, .tiu, .arr (CAL_GRP_STAT 0) 16 29, .arr CAL_STAT 0 1, .cmd, .arr CMD_CACHE 0 1, .fresh, .mend, .qm, .arr CMP_ERR 0 1, .cap, .log, .arr (CAP_ENG_STAT 0) 64 16, .arr (DEC_CH_STAT 0) 16 512, .arr (MEM_ERR 0) 32 5, .arr (MEM_ERR_INFO 0) 32 5, .free, .arr (MEM_ERR_ADDR 0) 32 5, .arr (MEM_ERR_ADDR 0 + 4) 32 5, .mem] ++ [.arr DEC_LOAD 0 1, .arr (CAP_ENG_CFG 0) 64 16, .arr (DEC_BAY_STAT 0) 16 64]) P) {s1 : State} (h1 : P s1) : P (State.endSampling s1) := by
  unfold State.endSampling
  extract_lets +onlyGivenNames x0
  have e1 : P x0 := by
    unfold x0
    refine State.stopTransom_keep k.sub ?_
    refine State.calStopAll_keep k.sub ?_
    assumption
  clear_value x0
  extract_lets +onlyGivenNames x2
  have e3 : P x2 := by
    unfold x2
    refine foldl_keep (fun t4 x5 e6 => ?_) ?_
    · refine foldl_keep (fun t7 x8 e9 => ?_) ?_
      · refine State.closePane_keep k.sub ?_
        assumption
      · assumption
    · assumption
  clear_value x2
  extract_lets +onlyGivenNames x10
  have e11 : P x10 := by
    unfold x10
    refine foldl_keep (fun t12 x13 e14 => ?_) ?_
    · refine State.stopBay_keep k.sub ?_
      assumption
    · assumption
  clear_value x10
  refine foldl_keep (fun t15 x16 e17 => ?_) ?_
  · refine State.onStrm_keep k.sub ?_
    refine State.endStream_keep k.sub ?_
    assumption
  · assumption

theorem State.stowAll_keep {P : State → Prop} (k : Keeps [.cmp, .log, .qm, .mend, .arr CMP_STAT 0 1, .fresh, .arr CMP_RATIO 0 1, .arr (MEM_ERR 0) 32 5, .arr (MEM_ERR_INFO 0) 32 5, .free, .arr (MEM_ERR_ADDR 0) 32 5, .arr (MEM_ERR_ADDR 0 + 4) 32 5, .mem, .cmd, .arr CMD_CACHE 0 1, .work, .arr (CMP_SLOT 0) 16 4, .arr (CMP_SLOT_OUT 0) 16 4] P) {s1 : State} {a2 : List Nat} (h1 : P s1) : ∀ x, State.stowAll s1 a2 = some x → P x := by
  unfold State.stowAll
  extract_lets +onlyGivenNames x0 x1 x2 x3
  have e3 : P x3 := State.onRecs_keep k.sub (foldl_keep (fun _ _ h => State.recordDone_keep k.sub h)
    (State.onRecs_keep k.sub (State.closeCmp_keep k.sub (State.closeEvents_keep k.sub h1))))
  clear_value x3
  have e : ∀ (l : List Nat) (o : Option State), (∀ x, o = some x → P x) → ∀ x, l.foldl State.stow o = some x → P x := by
    intro l
    induction l with
    | nil => exact fun o h => h
    | cons i l ih => exact fun o h => ih _ (State.stow_keep k.sub h)
  exact e _ _ fun x h => by cases h; exact e3

theorem State.portFollows_keep {P : State → Prop} (k : Keeps [.arr (LNK_PORT_STAT 0) 64 8, .qm, .log, .mend, .arr LNK_ROUTE_STAT 0 1, .arr LNK_ROUTE_CFG 0 1, .lnk, .tb, .arr (LNK_LANE_STAT 0) 16 32, .arr (LNK_PORT_CNT 0) 64 8, .fresh] P) {s1 : State} {s2 : State} {a3 : _} (h1 : P s1) (h2 : P s2) : P (State.portFollows s1 s2 a3) := by
  unfold State.portFollows
  extract_lets +onlyGivenNames x0
  split
  · split
    · assumption
    · refine State.setPort_keep k.sub ?_
      refine State.dropLink_keep k.sub ?_
      refine State.useLanes_keep k.sub ?_
      assumption
  · split
    · refine State.startTraining_keep k.sub ?_
      assumption
    · split
      · assumption
      · split
        · refine State.startTraining_keep k.sub ?_
          assumption
        · split
          · refine State.startTraining_keep k.sub ?_
            assumption
          · assumption

theorem State.arrive_keep {P : State → Prop} (k : Keeps [.qm, .log, .mend, .arr SYS_PWR_STATE 0 1, .arr (LNK_PORT_STAT 0) 64 8, .arr LNK_ROUTE_STAT 0 1, .arr LNK_ROUTE_CFG 0 1, .lnk, .tb, .arr (LNK_LANE_STAT 0) 16 32, .arr (LNK_PORT_CNT 0) 64 8, .fresh, .fblk, .arr (FLD_TRIP_STAT 0) 32 16, .acq, .arr (CONV_BAY_STAT 0) 16 64, .arr (DEC_DET_VAL 0) 8 512, .arr (DEC_CH_STAT 0) 16 512, .arr (CONV_RELIEF 0) 4 4, .arr (DEC_BAY_STAT 0) 16 64, .arr CAP_HIST_STAT 0 1] P) {s1 : State} {a2 : _} (h1 : P s1) : P (State.arrive s1 a2) := by
  unfold State.arrive
  extract_lets +onlyGivenNames x0
  extract_lets +onlyGivenNames x1
  extract_lets +onlyGivenNames x2
  have e3 : P x2 := by
    unfold x2
    refine State.enterPower_keep k.sub ?_
    assumption
  clear_value x2
  extract_lets +onlyGivenNames x4
  have e5 : P x4 := by
    unfold x4
    refine foldl_keep (fun t6 x7 e8 => ?_) ?_
    · refine State.portFollows_keep k.sub ?_ ?_
      · assumption
      · assumption
    · assumption
  clear_value x4
  extract_lets +onlyGivenNames x9
  have e10 : P x9 := by
    unfold x9
    split
    · refine State.tripsPower_keep k.sub ?_
      refine State.reroute_keep k.sub ?_
      refine State.sendLinkState_keep k.sub ?_
      assumption
    · assumption
  clear_value x9
  refine foldl_keep (fun t11 x12 e13 => ?_) ?_
  · refine State.startBay_keep k.sub ?_
    assumption
  · assumption

theorem State.transit_keep {P : State → Prop} (k : Keeps ([.qm, .log, .mend, .arr SYS_PWR_STATE 0 1, .arr (LNK_PORT_STAT 0) 64 8, .arr LNK_ROUTE_STAT 0 1, .arr LNK_ROUTE_CFG 0 1, .lnk, .tb, .arr (LNK_LANE_STAT 0) 16 32, .arr (LNK_PORT_CNT 0) 64 8, .fresh, .fblk, .arr (FLD_TRIP_STAT 0) 32 16, .acq, .arr (CONV_BAY_STAT 0) 16 64, .arr (DEC_DET_VAL 0) 8 512, .arr (DEC_CH_STAT 0) 16 512, .arr (CONV_RELIEF 0) 4 4, .arr (DEC_BAY_STAT 0) 16 64, .arr CAP_HIST_STAT 0 1, .cmp, .arr CMP_STAT 0 1, .arr CMP_RATIO 0 1, .arr (MEM_ERR 0) 32 5] ++ [.arr (MEM_ERR_INFO 0) 32 5, .free, .arr (MEM_ERR_ADDR 0) 32 5, .arr (MEM_ERR_ADDR 0 + 4) 32 5, .mem, .cmd, .arr CMD_CACHE 0 1, .work, .arr (CMP_SLOT 0) 16 4, .arr (CMP_SLOT_OUT 0) 16 4, .arr CONV_TSEQ_STAT 0 1, .cal, .arr (TIU_CORE_STAT 0) 16 8, .tiu, .arr (CAL_GRP_STAT 0) 16 29, .arr CAL_STAT 0 1, .arr CMP_ERR 0 1, .cap, .arr (CAP_ENG_STAT 0) 64 16, .arr DEC_LOAD 0 1, .arr (CAP_ENG_CFG 0) 64 16]) P) {s1 : State} {a2 : _} (h1 : P s1) : ∀ x, State.transit s1 a2 = some x → P x := by
  intro y hy
  unfold State.transit at hy
  extract_lets x0 at hy
  clear_value x0
  split at hy
  · rw [Option.map_eq_some_iff] at hy
    obtain ⟨x, hx, rfl⟩ := hy
    exact State.arrive_keep k.sub (State.stowAll_keep k.sub (State.endSampling_keep k.sub h1) x hx)
  · cases hy
    exact State.arrive_keep k.sub (foldl_keep (fun _ _ h => State.stopBay_keep k.sub h) h1)

theorem State.transitionDone_keep {P : State → Prop} (k : Keeps ([.sys, .qm, .log, .mend, .arr SYS_PWR_STATE 0 1, .arr (LNK_PORT_STAT 0) 64 8, .arr LNK_ROUTE_STAT 0 1, .arr LNK_ROUTE_CFG 0 1, .lnk, .tb, .arr (LNK_LANE_STAT 0) 16 32, .arr (LNK_PORT_CNT 0) 64 8, .fresh, .fblk, .arr (FLD_TRIP_STAT 0) 32 16, .acq, .arr (CONV_BAY_STAT 0) 16 64, .arr (DEC_DET_VAL 0) 8 512, .arr (DEC_CH_STAT 0) 16 512, .arr (CONV_RELIEF 0) 4 4, .arr (DEC_BAY_STAT 0) 16 64, .arr CAP_HIST_STAT 0 1, .cmp, .arr CMP_STAT 0 1, .arr CMP_RATIO 0 1] ++ [.arr (MEM_ERR 0) 32 5, .arr (MEM_ERR_INFO 0) 32 5, .free, .arr (MEM_ERR_ADDR 0) 32 5, .arr (MEM_ERR_ADDR 0 + 4) 32 5, .mem, .cmd, .arr CMD_CACHE 0 1, .work, .arr (CMP_SLOT 0) 16 4, .arr (CMP_SLOT_OUT 0) 16 4, .arr CONV_TSEQ_STAT 0 1, .cal, .arr (TIU_CORE_STAT 0) 16 8, .tiu, .arr (CAL_GRP_STAT 0) 16 29, .arr CAL_STAT 0 1, .arr CMP_ERR 0 1, .cap, .arr (CAP_ENG_STAT 0) 64 16, .arr DEC_LOAD 0 1, .arr (CAP_ENG_CFG 0) 64 16, .nvm, .arr (TB_ACT_CTRL 0) 32 32, .arr (DEC_STREAM 0) 4 592] ++ [.arr (CAP_ENG_CNT 0) 64 16, .arr (DEC_CH_CFG 0) 16 512, .arr (CONV_BAY_BURST 0) 16 64, .arr (CONV_BAY_MODE 0) 16 64, .arr TB_CTRL 0 1]) P) {s1 : State} (h1 : P s1) : P (State.transitionDone s1) := by
  unfold State.transitionDone
  split
  · assumption
  · split
    · extract_lets +onlyGivenNames x0
      have e1 : P x0 := by
        unfold x0
        refine (k.at .sys) _ _ ?_
        refine State.transit_keep k.sub ?_ _ (by assumption)
        assumption
      clear_value x0
      extract_lets +onlyGivenNames x2
      have e3 : P x2 := by
        unfold x2
        split
        · refine (k.at .nvm) _ _ ?_
          assumption
        · assumption
      clear_value x2
      refine State.answer_keep k.sub ?_
      refine State.launchDue_keep k.sub ?_
      assumption
    · extract_lets +onlyGivenNames x4
      have e5 : P x4 := by
        unfold x4
        refine setFld_keep k SYS_PWR_STATE 0 1 ⟨0, rfl⟩ ?_
        refine setFld_keep k SYS_PWR_STATE 0 1 ⟨0, rfl⟩ ?_
        assumption
      clear_value x4
      refine State.answer_keep k.sub ?_
      refine State.launchDue_keep k.sub ?_
      refine (k.at .sys) _ _ ?_
      assumption

theorem execPowerTransitionDone_keep {P : State → Prop} (k : Keeps ([.mend, .qm, .arr CMP_ERR 0 1, .fresh, .log, .guard, .red, .arr RED_MIRROR 0 1, .time, .free, .sys, .arr SYS_PWR_STATE 0 1, .arr (LNK_PORT_STAT 0) 64 8, .arr LNK_ROUTE_STAT 0 1, .arr LNK_ROUTE_CFG 0 1, .lnk, .tb, .arr (LNK_LANE_STAT 0) 16 32, .arr (LNK_PORT_CNT 0) 64 8, .fblk, .arr (FLD_TRIP_STAT 0) 32 16, .acq, .arr (CONV_BAY_STAT 0) 16 64, .arr (DEC_DET_VAL 0) 8 512, .arr (DEC_CH_STAT 0) 16 512] ++ [.arr (CONV_RELIEF 0) 4 4, .arr (DEC_BAY_STAT 0) 16 64, .arr CAP_HIST_STAT 0 1, .cmp, .arr CMP_STAT 0 1, .arr CMP_RATIO 0 1, .arr (MEM_ERR 0) 32 5, .arr (MEM_ERR_INFO 0) 32 5, .arr (MEM_ERR_ADDR 0) 32 5, .arr (MEM_ERR_ADDR 0 + 4) 32 5, .mem, .cmd, .arr CMD_CACHE 0 1, .work, .arr (CMP_SLOT 0) 16 4, .arr (CMP_SLOT_OUT 0) 16 4, .arr CONV_TSEQ_STAT 0 1, .cal, .arr (TIU_CORE_STAT 0) 16 8, .tiu, .arr (CAL_GRP_STAT 0) 16 29, .arr CAL_STAT 0 1, .cap, .arr (CAP_ENG_STAT 0) 64 16, .arr DEC_LOAD 0 1] ++ [.arr (CAP_ENG_CFG 0) 64 16, .nvm, .arr (TB_ACT_CTRL 0) 32 32, .arr (DEC_STREAM 0) 4 592, .arr (CAP_ENG_CNT 0) 64 16, .arr (DEC_CH_CFG 0) 16 512, .arr (CONV_BAY_BURST 0) 16 64, .arr (CONV_BAY_MODE 0) 16 64, .arr TB_CTRL 0 1]) P) {a1 : _} {s2 : State} (h2 : P s2) : ∀ u, execPowerTransitionDone a1 s2 = .next u → P u := by
  unfold execPowerTransitionDone
  refine event_keep k.sub ?_ ?_
  · assumption
  · intro y0
    intro y1
    refine State.transitionDone_keep k.sub ?_
    assumption

theorem bodySensorRead_keep {P : State → Prop} (k : Keeps [] P) {a1 : _} {a2 : _} {s3 : State} (h3 : P s3) : (bodySensorRead a1 a2 s3).Holds P := by
  unfold bodySensorRead
  extract_lets +onlyGivenNames x0
  show P _
  assumption

theorem State.bbRefill_keep {P : State → Prop} (k : Keeps [.sys, .log, .qm, .mend] P) {s1 : State} (h1 : P s1) : P (State.bbRefill s1) := by
  unfold State.bbRefill
  extract_lets +onlyGivenNames x0
  split
  · assumption
  · extract_lets +onlyGivenNames x1
    have e2 : P x1 := by
      unfold x1
      refine (k.at .sys) _ _ ?_
      refine setFld_keep_log k logAddr_bb ?_
      assumption
    clear_value x1
    split
    · assumption
    · extract_lets +onlyGivenNames x3
      refine State.recordEvent_keep k.sub ?_
      refine State.bbCommit_keep k.sub ?_
      refine (k.at .sys) _ _ ?_
      assumption

theorem execBbAllowanceRefill_keep {P : State → Prop} (k : Keeps [.mend, .qm, .arr CMP_ERR 0 1, .fresh, .log, .guard, .red, .arr RED_MIRROR 0 1, .time, .free, .sys] P) {a1 : _} {s2 : State} (h2 : P s2) : ∀ u, execBbAllowanceRefill a1 s2 = .next u → P u := by
  unfold execBbAllowanceRefill
  refine event_keep k.sub ?_ ?_
  · assumption
  · intro y0
    intro y1
    refine State.bbRefill_keep k.sub ?_
    assumption

theorem State.consoleQuery_keep {P : State → Prop} (k : Keeps [.sys] P) {s1 : State} {a2 : _} (h1 : P s1) : P (State.consoleQuery s1 a2) := by
  unfold State.consoleQuery
  split
  · refine State.conLine_keep k.sub ?_
    assumption
  · assumption

theorem execConsoleStatusQuery_keep {P : State → Prop} (k : Keeps [.mend, .qm, .arr CMP_ERR 0 1, .fresh, .log, .guard, .red, .arr RED_MIRROR 0 1, .time, .free, .sys] P) {a1 : _} {a2 : _} {s3 : State} (h3 : P s3) : ∀ u, execConsoleStatusQuery a1 a2 s3 = .next u → P u := by
  unfold execConsoleStatusQuery
  refine event_keep k.sub ?_ ?_
  · assumption
  · intro y0
    intro y1
    refine State.consoleQuery_keep k.sub ?_
    assumption

theorem State.consoleLock_keep {P : State → Prop} (k : Keeps [.arr SYS_CON_CFG 0 1] P) {s1 : State} (h1 : P s1) : P (State.consoleLock s1) := by
  unfold State.consoleLock
  refine setFld_keep k SYS_CON_CFG 0 1 ⟨0, rfl⟩ ?_
  assumption

theorem execConsoleLock_keep {P : State → Prop} (k : Keeps [.mend, .qm, .arr CMP_ERR 0 1, .fresh, .log, .guard, .red, .arr RED_MIRROR 0 1, .time, .free, .arr SYS_CON_CFG 0 1] P) {a1 : _} {s2 : State} (h2 : P s2) : ∀ u, execConsoleLock a1 s2 = .next u → P u := by
  unfold execConsoleLock
  refine event_keep k.sub ?_ ?_
  · assumption
  · intro y0
    intro y1
    refine State.consoleLock_keep k.sub ?_
    assumption

theorem State.writeNextAddr_keep {P : State → Prop} (k : Keeps [.arr SYS_HUB_ADDR 0 1, .nvm] P) {s1 : State} {a2 : _} (h1 : P s1) : P (State.writeNextAddr s1 a2) := by
  unfold State.writeNextAddr
  extract_lets +onlyGivenNames x0
  extract_lets +onlyGivenNames x1
  have e2 : P x1 := by
    unfold x1
    refine setFld_keep k SYS_HUB_ADDR 0 1 ⟨0, rfl⟩ ?_
    assumption
  clear_value x1
  split
  · assumption
  · refine (k.at .nvm) _ _ ?_
    assumption

theorem execNextAddrWrite_keep {P : State → Prop} (k : Keeps [.mend, .qm, .arr CMP_ERR 0 1, .fresh, .log, .guard, .red, .arr RED_MIRROR 0 1, .time, .free, .arr SYS_HUB_ADDR 0 1, .nvm] P) {a1 : _} {a2 : _} {s3 : State} (h3 : P s3) : ∀ u, execNextAddrWrite a1 a2 s3 = .next u → P u := by
  unfold execNextAddrWrite
  refine event_keep k.sub ?_ ?_
  · assumption
  · intro y0
    intro y1
    refine State.writeNextAddr_keep k.sub ?_
    assumption

theorem bodyPing_keep {P : State → Prop} (k : Keeps [] P) {a1 : _} {a2 : _} {s3 : State} (h3 : P s3) : (bodyPing a1 a2 s3).Holds P := by
  unfold bodyPing
  show P _
  assumption

theorem bodyIdentify_keep {P : State → Prop} (k : Keeps [] P) {a1 : _} {a2 : _} {s3 : State} (h3 : P s3) : (bodyIdentify a1 a2 s3).Holds P := by
  unfold bodyIdentify
  extract_lets +onlyGivenNames x0
  show P _
  assumption

theorem State.resetAfter_keep {P : State → Prop} (k : Keeps [.sys, .cmd] P) {s1 : State} {a2 : _} {a3 : _} (h1 : P s1) : P (State.resetAfter s1 a2 a3) := by
  unfold State.resetAfter
  split
  · refine (k.at .sys) _ _ ?_
    assumption
  · refine (k.at .cmd) _ _ ?_
    assumption

theorem bodySoftReset_keep {P : State → Prop} (k : Keeps [.sys, .cmd] P) {a1 : _} {a2 : _} {s3 : State} (h3 : P s3) : (bodySoftReset a1 a2 s3).Holds P := by
  unfold bodySoftReset
  show P _
  refine State.resetAfter_keep k.sub ?_
  assumption

theorem State.resetNow_keep {P : State → Prop} (k : Keeps [.reset, .nvm] P) {s1 : State} (h1 : P s1) : P (State.resetNow s1) := by
  unfold State.resetNow
  split
  · split
    · refine (k.at .reset) _ _ ?_
      refine (k.at .nvm) _ _ ?_
      assumption
    · assumption
  · assumption

theorem execResetAfterReply_keep {P : State → Prop} (k : Keeps [.mend, .qm, .arr CMP_ERR 0 1, .fresh, .log, .guard, .red, .arr RED_MIRROR 0 1, .time, .free, .reset, .nvm] P) {a1 : _} {s2 : State} (h2 : P s2) : ∀ u, execResetAfterReply a1 s2 = .next u → P u := by
  unfold execResetAfterReply
  refine event_keep k.sub ?_ ?_
  · assumption
  · intro y0
    intro y1
    refine State.resetNow_keep k.sub ?_
    assumption

theorem bodyUpdateBegin_keep {P : State → Prop} (k : Keeps [.nvm, .sys, .qm, .log, .mend] P) {a1 : _} {a2 : _} {s3 : State} (h3 : P s3) : (bodyUpdateBegin a1 a2 s3).Holds P := by
  unfold bodyUpdateBegin
  extract_lets +onlyGivenNames x0
  extract_lets +onlyGivenNames x1
  refine checked_keep ?_ ?_
  · assumption
  · extract_lets +onlyGivenNames x2
    have e3 : P x2 := by
      unfold x2
      refine (k.at .nvm) _ _ ?_
      assumption
    clear_value x2
    extract_lets +onlyGivenNames x4
    have e5 : P x4 := by
      unfold x4
      refine (k.at .sys) _ _ ?_
      assumption
    clear_value x4
    show P _
    refine State.issue_keep k.sub ?_
    assumption

theorem bodyUpdateData_keep {P : State → Prop} (k : Keeps [.flash, .sys] P) {a1 : _} {a2 : _} {s3 : State} (h3 : P s3) : (bodyUpdateData a1 a2 s3).Holds P := by
  unfold bodyUpdateData
  extract_lets +onlyGivenNames x0
  extract_lets +onlyGivenNames x1
  split
  · show P _
    assumption
  · refine checked_keep ?_ ?_
    · assumption
    · extract_lets +onlyGivenNames x2
      have e3 : P x2 := by
        unfold x2
        refine (k.at .flash) _ _ _ _ ?_
        assumption
      clear_value x2
      extract_lets +onlyGivenNames x4
      show P _
      refine (k.at .sys) _ _ ?_
      assumption

theorem bodyUpdateCommit_keep {P : State → Prop} (k : Keeps [.sys] P) {a1 : _} {a2 : _} {s3 : State} (h3 : P s3) : (bodyUpdateCommit a1 a2 s3).Holds P := by
  unfold bodyUpdateCommit
  split
  · split
    · show P _
      refine (k.at .sys) _ _ ?_
      assumption
    · show P _
      assumption
  · show P _
    assumption

theorem State.commitDone_keep {P : State → Prop} (k : Keeps [.sys, .nvm, .cmd, .arr CMD_CACHE 0 1, .fresh, .mend, .qm, .log] P) {s1 : State} (h1 : P s1) : P (State.commitDone s1) := by
  unfold State.commitDone
  split
  · assumption
  · extract_lets +onlyGivenNames x0
    have e1 : P x0 := by
      unfold x0
      refine (k.at .sys) _ _ ?_
      assumption
    clear_value x0
    extract_lets +onlyGivenNames x2
    extract_lets +onlyGivenNames x3
    extract_lets +onlyGivenNames x4
    extract_lets +onlyGivenNames x5
    split
    · extract_lets +onlyGivenNames x6
      have e7 : P x6 := by
        unfold x6
        refine (k.at .nvm) _ _ ?_
        assumption
      clear_value x6
      refine State.report_keep k.sub ?_
      refine State.issue_keep k.sub ?_
      assumption
    · refine State.report_keep k.sub ?_
      refine State.issue_keep k.sub ?_
      assumption

theorem execUpdateCommitDone_keep {P : State → Prop} (k : Keeps [.mend, .qm, .arr CMP_ERR 0 1, .fresh, .log, .guard, .red, .arr RED_MIRROR 0 1, .time, .free, .sys, .nvm, .cmd, .arr CMD_CACHE 0 1] P) {a1 : _} {s2 : State} (h2 : P s2) : ∀ u, execUpdateCommitDone a1 s2 = .next u → P u := by
  unfold execUpdateCommitDone
  refine event_keep k.sub ?_ ?_
  · assumption
  · intro y0
    intro y1
    refine State.commitDone_keep k.sub ?_
    assumption

theorem bodyUpdateActivate_keep {P : State → Prop} (k : Keeps [.nvm, .sys, .cmd, .qm, .log, .mend] P) {a1 : _} {a2 : _} {s3 : State} (h3 : P s3) : (bodyUpdateActivate a1 a2 s3).Holds P := by
  unfold bodyUpdateActivate
  extract_lets +onlyGivenNames x0
  refine checked_keep ?_ ?_
  · assumption
  · extract_lets +onlyGivenNames x1
    have e2 : P x1 := by
      unfold x1
      split
      · assumption
      · refine (k.at .nvm) _ _ ?_
        assumption
    clear_value x1
    show P _
    refine State.resetAfter_keep k.sub ?_
    refine State.issue_keep k.sub ?_
    assumption

theorem bodyLogRead_keep {P : State → Prop} (k : Keeps [] P) {a1 : _} {a2 : _} {s3 : State} (h3 : P s3) : (bodyLogRead a1 a2 s3).Holds P := by
  unfold bodyLogRead
  extract_lets +onlyGivenNames x0
  extract_lets +onlyGivenNames x1
  extract_lets +onlyGivenNames x2
  extract_lets +onlyGivenNames x3
  extract_lets +onlyGivenNames x4
  extract_lets +onlyGivenNames x5
  extract_lets +onlyGivenNames x6
  extract_lets +onlyGivenNames x7
  refine checked_keep ?_ ?_
  · assumption
  · show P _
    assumption

theorem bodyLogMark_keep {P : State → Prop} (k : Keeps [.qm, .log, .mend] P) {a1 : _} {a2 : _} {s3 : State} (h3 : P s3) : (bodyLogMark a1 a2 s3).Holds P := by
  unfold bodyLogMark
  extract_lets +onlyGivenNames x0
  refine checked_keep ?_ ?_
  · assumption
  · show P _
    refine State.recordEvent_keep k.sub ?_
    refine State.bbCommit_keep k.sub ?_
    refine setFld_keep_log k logAddr_bb ?_
    assumption

end Sys2Proof.Machine
end

