-- ==== Sys2Proof/Laws/KeepK.lean ====
section
/-!
SUPPORT. What the operations of Machine/RegAccess, CmdBlock, Idle may touch: one lemma per function (Laws/Keep.lean).
-/

namespace Sys2Proof.Machine

set_option Elab.async false

open Reg Bits

theorem State.clearRc_keep {P : State → Prop} (k : Keeps [.anyReg] P) {s1 : State} {a2 : _} {a3 : _} {a4 : _} (h1 : P s1) : P (State.clearRc s1 a2 a3 a4).2 := by
  unfold State.clearRc
  refine foldl_keep_on (fun z : Word × State => z.2) (fun b0 x1 e2 => ?_) ?_
  · split
    · extract_lets +onlyGivenNames x3
      unfold x3
      dsimp -zeta only
      unfold State.takeRc
      extract_lets +onlyGivenNames x4
      dsimp -zeta only
      refine setFld_keep_any k ?_
      assumption
    · assumption
  · assumption

theorem State.readReg_keep {P : State → Prop} (k : Keeps [.cmd, .tiu, .anyReg] P) {s1 : State} {a2 : _} {a3 : _} (h1 : P s1) : P (State.readReg s1 a2 a3).2 := by
  unfold State.readReg
  split
  · assumption
  · split
    · extract_lets +onlyGivenNames x0
      extract_lets +onlyGivenNames x1
      extract_lets +onlyGivenNames x2
      split
      · dsimp -zeta only
        refine State.onShadow_keep k.sub ?_
        assumption
      · split
        · split
          · dsimp -zeta only
            refine State.onShadow_keep k.sub ?_
            assumption
          · assumption
        · assumption
    · extract_lets +onlyGivenNames x3
      have e4 : P x3 := by
        unfold x3
        split
        · refine State.drainCore_keep k.sub ?_
          assumption
        · assumption
      clear_value x3
      refine State.clearRc_keep k.sub ?_
      assumption

theorem State.readRegs_keep {P : State → Prop} (k : Keeps [.now, .cmd, .tiu, .anyReg] P) {s1 : State} {a2 : _} {a3 : _} {a4 : _} {a5 : _} (h1 : P s1) : P (State.readRegs s1 a2 a3 a4 a5).2 := by
  unfold State.readRegs
  extract_lets +onlyGivenNames x0
  dsimp -zeta only
  refine (k.at .now) _ _ ?_
  unfold x0
  refine foldl_keep_on (fun z : List Word × State => z.2) (fun b1 x2 e3 => ?_) ?_
  · extract_lets +onlyGivenNames x4
    refine State.readReg_keep k.sub ?_
    refine (k.at .now) _ _ ?_
    assumption
  · assumption

theorem State.writeSys_keep {P : State → Prop} (k : Keeps [.nvm, .anyReg] P) {s1 : State} {a2 : _} {a3 : _} {a4 : _} (h1 : P s1) : P (State.writeSys s1 a2 a3 a4) := by
  unfold State.writeSys
  extract_lets +onlyGivenNames x0
  split
  · refine State.writeNextAddr_keep k.sub ?_
    assumption
  · split
    · unfold State.wrNvm
      refine State.storeNvm_keep k.sub ?_
      refine (k.at .anyReg) _ _ _ ?_
      assumption
    · split
      · split
        · refine (k.at .nvm) _ _ ?_
          assumption
        · assumption
      · refine (k.at .anyReg) _ _ _ ?_
        assumption

theorem State.writeAfe_keep {P : State → Prop} (k : Keeps [.qm, .log, .mend, .cap, .acq, .fresh, .free, .mem, .tiu, .anyReg] P) {s1 : State} {a2 : _} {a3 : _} {a4 : _} {a5 : _} (h1 : P s1) : P (State.writeAfe s1 a2 a3 a4 a5) := by
  unfold State.writeAfe
  extract_lets +onlyGivenNames x0
  extract_lets +onlyGivenNames x1
  split
  · unfold x0
    split
    · refine State.applyChannel_keep k.sub ?_
      assumption
    · assumption
  · split
    · unfold x0
      split
      · refine State.applyChannel_keep k.sub ?_
        assumption
      · assumption
    · split
      · unfold x1
        split
        · refine State.setExc_keep k.sub ?_
          assumption
        · assumption
      · split
        · unfold x1
          split
          · refine State.setExc_keep k.sub ?_
            assumption
          · assumption
        · extract_lets +onlyGivenNames x2
          have e3 : P x2 := by
            unfold x2
            refine (k.at .anyReg) _ _ _ ?_
            assumption
          clear_value x2
          split
          · refine (k.at .acq) _ _ ?_
            assumption
          · assumption

theorem State.writeConv_keep {P : State → Prop} (k : Keeps [.acq, .cal, .qm, .log, .mend, .cap, .fresh, .free, .mem, .anyReg] P) {s1 : State} {a2 : _} {a3 : _} {a4 : _} {a5 : _} (h1 : P s1) : P (State.writeConv s1 a2 a3 a4 a5) := by
  unfold State.writeConv
  extract_lets +onlyGivenNames x0
  split
  · split
    · refine State.showLoad_keep k.sub ?_
      refine State.setBay_keep k.sub ?_
      assumption
    · assumption
  · split
    · split
      · refine State.showLoad_keep k.sub ?_
        refine State.setBay_keep k.sub ?_
        assumption
      · assumption
    · split
      · refine State.setTrim_keep k.sub ?_
        assumption
      · split
        · extract_lets +onlyGivenNames x1
          extract_lets +onlyGivenNames x2
          refine (k.at .anyReg) _ _ _ ?_
          assumption
        · split
          · extract_lets +onlyGivenNames x3
            have e4 : P x3 := by
              unfold x3
              refine State.setTseqCtrl_keep k.sub ?_
              assumption
            clear_value x3
            extract_lets +onlyGivenNames x5
            have e6 : P x5 := by
              unfold x5
              split
              · refine State.transomCommit_keep k.sub ?_
                assumption
              · assumption
            clear_value x5
            split
            · refine State.transomTrigger_keep k.sub ?_
              assumption
            · assumption
          · refine (k.at .anyReg) _ _ _ ?_
            assumption

theorem State.writeDec_keep {P : State → Prop} (k : Keeps [.qm, .log, .mend, .acq, .fresh, .cap, .free, .mem, .anyReg] P) {s1 : State} {a2 : _} {a3 : _} {a4 : _} {a5 : _} (h1 : P s1) : P (State.writeDec s1 a2 a3 a4 a5) := by
  unfold State.writeDec
  extract_lets +onlyGivenNames x0
  split
  · extract_lets +onlyGivenNames x1
    split
    · refine State.showLoad_keep k.sub ?_
      refine State.setChain_keep k.sub ?_
      assumption
    · assumption
  · split
    · extract_lets +onlyGivenNames x2
      refine State.showLoad_keep k.sub ?_
      refine State.setHist_keep k.sub ?_
      refine setFld_keep_any k ?_
      assumption
    · split
      · refine State.restartDet_keep k.sub ?_
        refine (k.at .anyReg) _ _ _ ?_
        assumption
      · split
        · refine (k.at .anyReg) _ _ _ ?_
          assumption
        · refine (k.at .anyReg) _ _ _ ?_
          assumption

theorem State.writeTb_keep {P : State → Prop} (k : Keeps [.anyReg, .tb, .qm, .log, .mend, .fresh, .nvm] P) {s1 : State} {a2 : _} {a3 : _} {a4 : _} {a5 : _} (h1 : P s1) : P (State.writeTb s1 a2 a3 a4 a5) := by
  unfold State.writeTb
  extract_lets +onlyGivenNames x0
  split
  · refine (k.at .anyReg) _ _ _ ?_
    assumption
  · split
    · refine State.setDomCfg_keep k.sub ?_
      assumption
    · split
      · split
        · refine State.anchorGo_keep k.sub ?_
          assumption
        · assumption
      · split
        · split
          · refine State.markAsym_keep k.sub ?_
            unfold State.wrNvm
            refine State.storeNvm_keep k.sub ?_
            refine (k.at .anyReg) _ _ _ ?_
            assumption
          · assumption
        · split
          · split
            · split
              · refine State.cancelWrite_keep k.sub ?_
                assumption
              · assumption
            · refine State.armWriteEntry_keep k.sub ?_
              assumption
          · split
            · split
              · assumption
              · refine (k.at .anyReg) _ _ _ ?_
                assumption
            · refine (k.at .anyReg) _ _ _ ?_
              assumption

theorem State.writeTiu_keep {P : State → Prop} (k : Keeps [.anyReg] P) {s1 : State} {a2 : _} {a3 : _} {a4 : _} {a5 : _} (h1 : P s1) : P (State.writeTiu s1 a2 a3 a4 a5) := by
  unfold State.writeTiu
  extract_lets +onlyGivenNames x0
  split
  · refine (k.at .anyReg) _ _ _ ?_
    assumption
  · split
    · refine (k.at .anyReg) _ _ _ ?_
      assumption
    · extract_lets +onlyGivenNames x1
      extract_lets +onlyGivenNames x2
      extract_lets +onlyGivenNames x3
      extract_lets +onlyGivenNames x4
      extract_lets +onlyGivenNames x5
      extract_lets +onlyGivenNames x6
      refine (k.at .anyReg) _ _ _ ?_
      assumption

theorem State.writeTrig_keep {P : State → Prop} (k : Keeps [.anyReg, .cap] P) {s1 : State} {a2 : _} {a3 : _} {a4 : _} {a5 : _} (h1 : P s1) : P (State.writeTrig s1 a2 a3 a4 a5) := by
  unfold State.writeTrig
  extract_lets +onlyGivenNames x0
  extract_lets +onlyGivenNames x1
  extract_lets +onlyGivenNames x2
  extract_lets +onlyGivenNames x3
  extract_lets +onlyGivenNames x4
  extract_lets +onlyGivenNames x5
  have e6 : P x5 := by
    unfold x5
    refine (k.at .anyReg) _ _ _ ?_
    assumption
  clear_value x5
  refine State.setTrigger_keep k.sub ?_
  assumption

theorem State.writeCap_keep {P : State → Prop} (k : Keeps [.anyReg, .cap, .acq, .qm, .mend, .fresh, .free, .log, .mem] P) {s1 : State} {a2 : _} {a3 : _} {a4 : _} {a5 : _} (h1 : P s1) : P (State.writeCap s1 a2 a3 a4 a5) := by
  unfold State.writeCap
  extract_lets +onlyGivenNames x0
  extract_lets +onlyGivenNames x1
  split
  · refine State.writeTrig_keep k.sub ?_
    assumption
  · split
    · split
      · split
        · refine State.armWrite_keep k.sub ?_
          assumption
        · assumption
      · extract_lets +onlyGivenNames x2
        extract_lets +onlyGivenNames x3
        extract_lets +onlyGivenNames x4
        have e5 : P x4 := by
          unfold x4
          refine (k.at .anyReg) _ _ _ ?_
          assumption
        clear_value x4
        split
        · refine State.armWrite_keep k.sub ?_
          assumption
        · assumption
    · split
      · extract_lets +onlyGivenNames x6
        split
        · assumption
        · refine (k.at .anyReg) _ _ _ ?_
          assumption
      · split
        · refine (k.at .anyReg) _ _ _ ?_
          assumption
        · refine (k.at .anyReg) _ _ _ ?_
          assumption

theorem State.writeTrip_keep {P : State → Prop} (k : Keeps [.anyReg, .fblk, .fresh, .qm, .log, .mend] P) {s1 : State} {a2 : _} {a3 : _} {a4 : _} {a5 : _} (h1 : P s1) : P (State.writeTrip s1 a2 a3 a4 a5) := by
  unfold State.writeTrip
  split
  · assumption
  · extract_lets +onlyGivenNames x0
    have e1 : P x0 := by
      unfold x0
      refine (k.at .anyReg) _ _ _ ?_
      assumption
    clear_value x0
    extract_lets +onlyGivenNames x2
    extract_lets +onlyGivenNames x3
    refine State.setupTrip_keep k.sub ?_
    split
    · assumption
    · refine setFld_keep k (FLD_TRIP_CFG 0) 32 16 ⟨_, rfl⟩ ?_
      assumption

theorem State.writeFld_keep {P : State → Prop} (k : Keeps [.fblk, .anyReg, .fresh, .qm, .log, .mend] P) {s1 : State} {a2 : _} {a3 : _} {a4 : _} {a5 : _} (h1 : P s1) : P (State.writeFld s1 a2 a3 a4 a5) := by
  unfold State.writeFld
  extract_lets +onlyGivenNames x0
  extract_lets +onlyGivenNames x1
  split
  · refine State.setupPort_keep k.sub ?_
    refine (k.at .anyReg) _ _ _ ?_
    assumption
  · split
    · refine State.setupPort_keep k.sub ?_
      refine (k.at .anyReg) _ _ _ ?_
      assumption
    · split
      · extract_lets +onlyGivenNames x2
        refine State.setDecoder_keep k.sub ?_ ?_
        · assumption
        · intro y3
          intro y4
          refine (k.at .anyReg) _ _ _ ?_
          assumption
      · split
        · refine State.setDecoder_keep k.sub ?_ ?_
          · assumption
          · intro y5
            intro y6
            refine (k.at .anyReg) _ _ _ ?_
            assumption
        · split
          · refine State.writeTrip_keep k.sub ?_
            assumption
          · split
            · extract_lets +onlyGivenNames x7
              extract_lets +onlyGivenNames x8
              extract_lets +onlyGivenNames x9
              extract_lets +onlyGivenNames x10
              have e11 : P x10 := by
                unfold x10
                refine (k.at .anyReg) _ _ _ ?_
                assumption
              clear_value x10
              refine State.setupFout_keep k.sub ?_
              assumption
            · split
              · refine State.runFout_keep k.sub ?_
                refine (k.at .anyReg) _ _ _ ?_
                refine State.runFout_keep k.sub ?_
                assumption
              · split
                · split
                  · refine State.lockTrips_keep k.sub ?_
                    assumption
                  · assumption
                · refine (k.at .anyReg) _ _ _ ?_
                  assumption

theorem State.writeQm_keep {P : State → Prop} (k : Keeps [.anyReg, .qm] P) {s1 : State} {a2 : _} {a3 : _} {a4 : _} {a5 : _} (h1 : P s1) : P (State.writeQm s1 a2 a3 a4 a5) := by
  unfold State.writeQm
  extract_lets +onlyGivenNames x0
  split
  · split
    · refine (k.at .anyReg) _ _ _ ?_
      assumption
    · assumption
  · split
    · split
      · refine State.setWatermark_keep k.sub ?_
        assumption
      · assumption
    · split
      · split
        · refine (k.at .anyReg) _ _ _ ?_
          assumption
        · assumption
      · split
        · split
          · refine (k.at .anyReg) _ _ _ ?_
            assumption
          · assumption
        · refine (k.at .anyReg) _ _ _ ?_
          assumption

theorem State.writeLnk_keep {P : State → Prop} (k : Keeps [.qm, .lnk, .log, .mend, .tb, .fresh, .anyReg] P) {s1 : State} {a2 : _} {a3 : _} {a4 : _} {a5 : _} (h1 : P s1) : P (State.writeLnk s1 a2 a3 a4 a5) := by
  unfold State.writeLnk
  extract_lets +onlyGivenNames x0
  split
  · unfold x0
    split
    · refine State.configurePort_keep k.sub ?_
      assumption
    · assumption
  · split
    · unfold x0
      split
      · refine State.configurePort_keep k.sub ?_
        assumption
      · assumption
    · extract_lets +onlyGivenNames x1
      have e2 : P x1 := by
        unfold x1
        refine (k.at .anyReg) _ _ _ ?_
        assumption
      clear_value x1
      split
      · refine State.reroute_keep k.sub ?_
        assumption
      · assumption

theorem State.writeCmd_keep {P : State → Prop} (k : Keeps [.anyReg] P) {s1 : State} {a2 : _} {a3 : _} {a4 : _} {a5 : _} (h1 : P s1) : P (State.writeCmd s1 a2 a3 a4 a5) := by
  unfold State.writeCmd
  extract_lets +onlyGivenNames x0
  refine (k.at .anyReg) _ _ _ ?_
  assumption

theorem State.writeRed_keep {P : State → Prop} (k : Keeps [.nvm, .red, .fresh, .qm, .log, .mend, .lnk, .anyReg] P) {s1 : State} {a2 : _} {a3 : _} {a4 : _} {a5 : _} (h1 : P s1) : P (State.writeRed s1 a2 a3 a4 a5) := by
  unfold State.writeRed
  extract_lets +onlyGivenNames x0
  split
  · unfold x0
    extract_lets +onlyGivenNames x1
    split
    · refine State.configureHead_keep k.sub ?_
      assumption
    · assumption
  · split
    · unfold x0
      extract_lets +onlyGivenNames x2
      split
      · refine State.configureHead_keep k.sub ?_
        assumption
      · assumption
    · split
      · unfold x0
        extract_lets +onlyGivenNames x3
        split
        · refine State.configureHead_keep k.sub ?_
          assumption
        · assumption
      · split
        · split
          · refine State.configureWitness_keep k.sub ?_
            assumption
          · assumption
        · refine (k.at .anyReg) _ _ _ ?_
          assumption

theorem State.writeMem_keep {P : State → Prop} (k : Keeps [.nvm, .anyReg] P) {s1 : State} {a2 : _} {a3 : _} {a4 : _} (h1 : P s1) : P (State.writeMem s1 a2 a3 a4) := by
  unfold State.writeMem
  extract_lets +onlyGivenNames x0
  split
  · unfold State.wrNvm
    refine State.storeNvm_keep k.sub ?_
    refine (k.at .anyReg) _ _ _ ?_
    assumption
  · split
    · refine State.storeNvm_keep k.sub ?_
      refine (k.at .anyReg) _ _ _ ?_
      assumption
    · refine (k.at .anyReg) _ _ _ ?_
      assumption

theorem State.writePmc_keep {P : State → Prop} (k : Keeps [.anyReg, .log, .pmc, .qm, .mend] P) {s1 : State} {a2 : _} {a3 : _} {a4 : _} {a5 : _} (h1 : P s1) : P (State.writePmc s1 a2 a3 a4 a5) := by
  unfold State.writePmc
  extract_lets +onlyGivenNames x0
  split
  · extract_lets +onlyGivenNames x1
    have e2 : P x1 := by
      unfold x1
      refine setFld_keep_any k ?_
      assumption
    clear_value x1
    split
    · refine State.pmcZero_keep k.sub ?_
      assumption
    · assumption
  · split
    · refine State.setDump_keep k.sub ?_
      assumption
    · split
      · extract_lets +onlyGivenNames x3
        refine (k.at .anyReg) _ _ _ ?_
        assumption
      · split
        · refine State.toneWrite_keep k.sub ?_
          assumption
        · refine (k.at .anyReg) _ _ _ ?_
          assumption

theorem State.writeCal_keep {P : State → Prop} (k : Keeps [.nvm, .anyReg] P) {s1 : State} {a2 : _} {a3 : _} {a4 : _} (h1 : P s1) : P (State.writeCal s1 a2 a3 a4) := by
  unfold State.writeCal
  extract_lets +onlyGivenNames x0
  split
  · unfold State.wrNvm
    refine State.storeNvm_keep k.sub ?_
    refine (k.at .anyReg) _ _ _ ?_
    assumption
  · refine (k.at .anyReg) _ _ _ ?_
    assumption

theorem State.write64_keep {P : State → Prop} (k : Keeps [.cmd, .tb, .anyReg] P) {s1 : State} {a2 : _} {a3 : _} {a4 : _} {a5 : _} {a6 : _} (h1 : P s1) : P (State.write64 s1 a2 a3 a4 a5 a6) := by
  unfold State.write64
  extract_lets +onlyGivenNames x0
  split
  · assumption
  · split
    · assumption
    · split
      · refine State.onShadow_keep k.sub ?_
        assumption
      · split
        · refine State.incrWrite_keep k.sub ?_
          assumption
        · extract_lets +onlyGivenNames x1
          refine wr64_keep_any k ?_
          refine State.takeLow_keep k.sub ?_
          assumption

theorem State.writeReg_keep {P : State → Prop} (k : Keeps [.cmd, .tb, .anyReg, .nvm, .qm, .log, .mend, .cap, .acq, .fresh, .free, .mem, .tiu, .cal, .fblk, .lnk, .red, .pmc] P) {s1 : State} {a2 : _} {a3 : _} {a4 : _} (h1 : P s1) : P (State.writeReg s1 a2 a3 a4) := by
  unfold State.writeReg
  split
  · assumption
  · split
    · refine State.write64_keep k.sub ?_
      assumption
    · extract_lets +onlyGivenNames x0
      split
      · refine State.writeSys_keep k.sub ?_
        assumption
      · refine State.writeAfe_keep k.sub ?_
        assumption
      · refine State.writeConv_keep k.sub ?_
        assumption
      · refine State.writeDec_keep k.sub ?_
        assumption
      · refine State.writeTb_keep k.sub ?_
        assumption
      · refine State.writeTiu_keep k.sub ?_
        assumption
      · refine State.writeCap_keep k.sub ?_
        assumption
      · refine State.writeFld_keep k.sub ?_
        assumption
      · refine State.writeQm_keep k.sub ?_
        assumption
      · refine State.writeLnk_keep k.sub ?_
        assumption
      · refine State.writeCmd_keep k.sub ?_
        assumption
      · refine State.writeRed_keep k.sub ?_
        assumption
      · refine State.writeMem_keep k.sub ?_
        assumption
      · refine State.writePmc_keep k.sub ?_
        assumption
      · refine State.writeCal_keep k.sub ?_
        assumption
      · refine (k.at .anyReg) _ _ _ ?_
        assumption

theorem State.writeRegs_keep {P : State → Prop} (k : Keeps [.now, .cmd, .tb, .anyReg, .nvm, .qm, .log, .mend, .cap, .acq, .fresh, .free, .mem, .tiu, .cal, .fblk, .lnk, .red, .pmc] P) {s1 : State} {a2 : _} {a3 : _} {a4 : _} (h1 : P s1) : P (State.writeRegs s1 a2 a3 a4) := by
  unfold State.writeRegs
  refine (k.at .now) _ _ ?_
  refine foldl_keep (fun t0 x1 e2 => ?_) ?_
  · refine State.writeReg_keep k.sub ?_
    refine (k.at .now) _ _ ?_
    assumption
  · assumption

theorem bodyRegRead_keep {P : State → Prop} (k : Keeps [.now, .cmd, .tiu, .anyReg] P) {a1 : _} {a2 : _} {s3 : State} (h3 : P s3) : (bodyRegRead a1 a2 s3).Holds P := by
  unfold bodyRegRead
  extract_lets +onlyGivenNames x0
  extract_lets +onlyGivenNames x1
  refine checked_keep ?_ ?_
  · assumption
  · extract_lets +onlyGivenNames x2
    show P _
    refine State.readRegs_keep k.sub ?_
    assumption

theorem bodyRegWrite_keep {P : State → Prop} (k : Keeps [.now, .cmd, .tb, .anyReg, .nvm, .qm, .log, .mend, .cap, .acq, .fresh, .free, .mem, .tiu, .cal, .fblk, .lnk, .red, .pmc] P) {a1 : _} {a2 : _} {s3 : State} (h3 : P s3) : (bodyRegWrite a1 a2 s3).Holds P := by
  unfold bodyRegWrite
  extract_lets +onlyGivenNames x0
  extract_lets +onlyGivenNames x1
  refine checked_keep ?_ ?_
  · assumption
  · show P _
    refine State.writeRegs_keep k.sub ?_
    assumption

theorem bodyRegRead64_keep {P : State → Prop} (k : Keeps [.now, .cmd, .tiu, .anyReg] P) {a1 : _} {a2 : _} {s3 : State} (h3 : P s3) : (bodyRegRead64 a1 a2 s3).Holds P := by
  unfold bodyRegRead64
  extract_lets +onlyGivenNames x0
  refine checked_keep ?_ ?_
  · assumption
  · extract_lets +onlyGivenNames x1
    show P _
    refine State.readRegs_keep k.sub ?_
    assumption

theorem State.registerWrite_keep {P : State → Prop} (k : Keeps [.cmd, .tb, .anyReg, .nvm, .qm, .log, .mend, .cap, .acq, .fresh, .free, .mem, .tiu, .cal, .fblk, .lnk, .red, .pmc] P) {s1 : State} {a2 : _} {a3 : _} {a4 : _} (h1 : P s1) : P (State.registerWrite s1 a2 a3 a4) := by
  unfold State.registerWrite
  split
  · refine State.writeReg_keep k.sub ?_
    assumption
  · assumption

theorem execRegisterWrite_keep {P : State → Prop} (k : Keeps [.mend, .qm, .fresh, .log, .guard, .red, .time, .free, .cmd, .tb, .anyReg, .nvm, .cap, .acq, .mem, .tiu, .cal, .fblk, .lnk, .pmc] P) {a1 : _} {a2 : _} {a3 : _} {a4 : _} {s5 : State} (h5 : P s5) : ∀ u, execRegisterWrite a1 a2 a3 a4 s5 = .next u → P u := by
  unfold execRegisterWrite
  refine event_keep k.sub ?_ ?_
  · assumption
  · intro y0
    intro y1
    refine State.registerWrite_keep k.sub ?_
    assumption

theorem bodyAbort_keep {P : State → Prop} (k : Keeps ([.sys, .tiu, .arr (TIU_SRC_CFG 0) 4 64, .qm, .cap, .work, .mend, .arr (MEM_ERR 0) 32 5, .fresh, .arr (MEM_ERR_INFO 0) 32 5, .free, .arr (MEM_ERR_ADDR 0) 32 5, .arr (MEM_ERR_ADDR 0 + 4) 32 5, .log, .mem, .cmp, .arr (CMP_SLOT 0) 16 4, .arr (CMP_SLOT_OUT 0) 16 4, .lnk, .red, .arr MEM_SCRUB_STAT 0 1, .cal, .acq, .arr (CONV_BAY_STAT 0) 16 64, .arr (CONV_RELIEF 0) 4 4] ++ [.arr (TIU_CORE_STAT 0) 16 8, .arr (CAL_GRP_STAT 0) 16 29, .arr CAL_STAT 0 1, .cmd, .arr CMD_CACHE 0 1]) P) {a1 : _} {a2 : _} {s3 : State} (h3 : P s3) : (bodyAbort a1 a2 s3).Holds P := by
  unfold bodyAbort
  extract_lets +onlyGivenNames x0
  extract_lets +onlyGivenNames x1
  split
  · split
    · show P _
      assumption
    · extract_lets +onlyGivenNames x2
      have e3 : P x2 := by
        unfold x2
        refine State.stopOp_keep k.sub ?_
        assumption
      clear_value x2
      extract_lets +onlyGivenNames x4
      have e5 : P x4 := by
        unfold x4
        split
        · refine (k.at .cmd) _ _ ?_
          assumption
        · refine State.report_keep k.sub ?_
          assumption
      clear_value x4
      show P _
      assumption
  · extract_lets +onlyGivenNames x6
    split
    · show P _
      assumption
    · split
      · show P _
        assumption
      · show P _
        assumption

theorem State.putCred_keep {P : State → Prop} (k : Keeps [.arr (CMD_SLOT_CTR 0) 16 16, .nvm] P) {s1 : State} {a2 : _} {a3 : _} (h1 : P s1) : P (State.putCred s1 a2 a3) := by
  unfold State.putCred
  refine setFld_keep k (CMD_SLOT_CTR 0) 16 16 ⟨_, rfl⟩ ?_
  refine (k.at .nvm) _ _ ?_
  assumption

theorem bodyCredInstall_keep {P : State → Prop} (k : Keeps [.qm, .log, .mend, .arr (CMD_SLOT_CTR 0) 16 16, .nvm] P) {a1 : _} {a2 : _} {s3 : State} (h3 : P s3) : (bodyCredInstall a1 a2 s3).Holds P := by
  unfold bodyCredInstall
  extract_lets +onlyGivenNames x0
  extract_lets +onlyGivenNames x1
  split
  · show P _
    assumption
  · show P _
    refine State.issue_keep k.sub ?_
    refine State.putCred_keep k.sub ?_
    assumption

theorem bodyCredRevoke_keep {P : State → Prop} (k : Keeps [.qm, .log, .mend, .arr (CMD_SLOT_CTR 0) 16 16, .nvm] P) {a1 : _} {a2 : _} {s3 : State} (h3 : P s3) : (bodyCredRevoke a1 a2 s3).Holds P := by
  unfold bodyCredRevoke
  extract_lets +onlyGivenNames x0
  refine checked_keep ?_ ?_
  · assumption
  · split
    · show P _
      refine State.issue_keep k.sub ?_
      refine State.putCred_keep k.sub ?_
      assumption
    · show P _
      assumption

theorem bodyCredStatus_keep {P : State → Prop} (k : Keeps [] P) {a1 : _} {a2 : _} {s3 : State} (h3 : P s3) : (bodyCredStatus a1 a2 s3).Holds P := by
  unfold bodyCredStatus
  show P _
  assumption

theorem bodyFreqRelayed_keep {P : State → Prop} (k : Keeps [.tiu, .arr (TIU_SRC_CFG 0) 4 64, .acq, .qm, .log, .mend, .arr (AFE_CH_STAT 0) 16 512, .arr CMP_ERR 0 1, .fresh, .cap, .arr (AFE_WIRE_BREAK 0) 4 16, .free] P) {a1 : _} {a2 : _} {s3 : State} (h3 : P s3) : (bodyFreqRelayed a1 a2 s3).Holds P := by
  have e := foldl_keep_on (fun z : List Nat × State => z.2) (f := fun (a : List Nat × State) (_ : Nat) => let k := a.2.draw; (a.1 ++ [(Config.loopRead k.1).toNat], k.2))
    (l := List.range 8) (b := ([], s3)) (fun b x h => (k.at .free) _ h) h3
  unfold bodyFreqRelayed
  exact bodyFreqMeasure_keep k.sub e

theorem bodyLow_keep {P : State → Prop} (k : Keeps [.nvm, .sys, .now, .cmd, .tiu, .anyReg, .tb, .qm, .log, .mend, .cap, .acq, .fresh, .free, .mem, .cal, .fblk, .lnk, .red, .pmc, .flash, .work, .cmp] P) {op : Nat} {b : Body} (hb : bodyLow op = some b) {c : _} {ps : _} {s : State} (h : P s) : (b c ps s).Holds P := by
  unfold bodyLow at hb
  split at hb <;> first | cases hb | skip
  · exact bodyPing_keep k.sub h
  · exact bodyIdentify_keep k.sub h
  · exact bodySetPowerState_keep k.sub h
  · exact bodyRegRead_keep k.sub h
  · exact bodyRegWrite_keep k.sub h
  · exact bodyRegRead64_keep k.sub h
  · exact bodySoftReset_keep k.sub h
  · exact bodyUpdateBegin_keep k.sub h
  · exact bodyUpdateData_keep k.sub h
  · exact bodyUpdateCommit_keep k.sub h
  · exact bodyUpdateActivate_keep k.sub h
  · exact bodyLogRead_keep k.sub h
  · exact bodyLogMark_keep k.sub h
  · exact bodySensorRead_keep k.sub h
  · exact bodyAbort_keep k.sub h
  · exact bodyChConfig_keep k.sub h
  · exact bodyChQuery_keep k.sub h
  · exact bodyBayExcitation_keep k.sub h
  · exact bodyChTestInject_keep k.sub h
  · exact bodyClampStatus_keep k.sub h
  · exact bodyBayMode_keep k.sub h
  · exact bodyTransomSequence_keep k.sub h
  · exact bodyTransomUrgent_keep k.sub h
  · exact bodyChainConfig_keep k.sub h
  · exact bodyDetectorConfig_keep k.sub h
  · exact bodyStreamEnable_keep k.sub h
  · exact bodyTimeRead_keep k.sub h
  · exact bodyTimeDomainConfig_keep k.sub h
  · exact bodyTimeSelectDomain_keep k.sub h
  · exact bodyTimeSchedule_keep k.sub h
  · exact bodyTimeAsymmetrySet_keep k.sub h
  · exact bodyTimeStatus_keep k.sub h
  · exact bodyTiuRoute_keep k.sub h
  · exact bodyFreqRelayed_keep k.sub h
  · exact bodyStampRead_keep k.sub h
  · exact bodyTriggerConfig_keep k.sub h
  · exact bodyPaneOpen_keep k.sub h
  · exact bodyPaneClose_keep k.sub h
  · exact bodyTriggerAnnounce_keep k.sub h
  · exact bodyHistoryExtract_keep k.sub h
  · exact bodyMeasureConfig_keep k.sub h

theorem bodyHigh_keep {P : State → Prop} (k : Keeps Prim.every P) {op : Nat} {b : Body} (hb : bodyHigh op = some b) {c : _} {ps : _} {s : State} (h : P s) : (b c ps s).Holds P := by
  unfold bodyHigh at hb
  split at hb <;> first | cases hb | skip
  · exact bodyFieldPortConfig_keep k.sub h
  · exact bodyFieldDecoderConfig_keep k.sub h
  · exact bodyTripConfig_keep k.sub h
  · exact bodyFoutConfig_keep k.sub h
  · exact bodyTripReset_keep k.sub h
  · exact bodyQueueConfig_keep k.sub h
  · exact bodyQueueStatus_keep k.sub h
  · exact bodyRelease_keep k.sub h
  · exact bodyRetentionConfig_keep k.sub h
  · exact bodyShutter_keep k.sub h
  · exact bodyShutterOpen_keep k.sub h
  · exact bodyCmpConfig_keep k.sub h
  · exact bodyCmpJob_keep k.sub h
  · exact bodyCmpFlush_keep k.sub h
  · exact bodyPortConfig_keep k.sub h
  · exact bodyPortStatus_keep k.sub h
  · exact bodyLaneEyeScan_keep k.sub h
  · exact bodyLanePattern_keep k.sub h
  · exact bodyLaneLoopback_keep k.sub h
  · exact bodyPortRetrain_keep k.sub h
  · exact bodyCredInstall_keep k.sub h
  · exact bodyCredRevoke_keep k.sub h
  · exact bodyCredStatus_keep k.sub h
  · exact bodyHeadConfig_keep k.sub h
  · exact bodyHeadStatus_keep k.sub h
  · exact bodyLatchRequest_keep k.sub h
  · exact bodyLatchRenew_keep k.sub h
  · exact bodyLatchRelease_keep k.sub h
  · exact bodyHeadDrill_keep k.sub h
  · exact bodyScrub_keep k.sub h
  · exact bodyMemStatus_keep k.sub h
  · exact bodyMemInject_keep k.sub h
  · exact bodyPmcConfig_keep k.sub h
  · exact bodyPmcRead_keep k.sub h
  · exact bodyPmcDumpConfig_keep k.sub h
  · exact bodyCalRun_keep k.sub h
  · exact bodyCalStatus_keep k.sub h
  · exact bodyCalCoeffRead_keep k.sub h
  · exact bodyCalPolicy_keep k.sub h

theorem bodyOf_keep {P : State → Prop} (k : Keeps Prim.every P) {a1 : _} {a2 : _} {a3 : _} {s4 : State} (h4 : P s4) : (bodyOf a1 a2 a3 s4).Holds P := by
  rcases q : bodyLow a1 with _ | b
  · rcases q' : bodyHigh a1 with _ | b
    · rw [bodyOf, q, q']
      exact h4
    · rw [bodyOf, q, q']
      exact bodyHigh_keep k.sub q' h4
  · rw [bodyOf, q]
    exact bodyLow_keep k.sub q h4

theorem State.commandTimeout_keep {P : State → Prop} (k : Keeps [.arr CMD_ERR 0 1, .fresh, .cmd, .qm, .log, .mend, .arr CMD_CACHE 0 1] P) {s1 : State} {a2 : _} {a3 : _} (h1 : P s1) : P (State.commandTimeout s1 a2 a3) := by
  unfold State.commandTimeout
  extract_lets +onlyGivenNames x0
  split
  · refine State.timeOut_keep k.sub ?_
    assumption
  · assumption

theorem execCommandTimeout_keep {P : State → Prop} (k : Keeps [.mend, .qm, .arr CMP_ERR 0 1, .fresh, .log, .guard, .red, .arr RED_MIRROR 0 1, .time, .free, .arr CMD_ERR 0 1, .cmd, .arr CMD_CACHE 0 1] P) {a1 : _} {a2 : _} {a3 : _} {s4 : State} (h4 : P s4) : ∀ u, execCommandTimeout a1 a2 a3 s4 = .next u → P u := by
  unfold execCommandTimeout
  refine event_keep k.sub ?_ ?_
  · assumption
  · intro y0
    intro y1
    refine State.commandTimeout_keep k.sub ?_
    assumption

theorem State.expireSeen_keep {P : State → Prop} (k : Keeps [.cmd] P) {s1 : State} (h1 : P s1) : P (State.expireSeen s1) := by
  unfold State.expireSeen
  refine (k.at .cmd) _ _ ?_
  assumption

theorem execSeenCacheExpiry_keep {P : State → Prop} (k : Keeps [.mend, .qm, .arr CMP_ERR 0 1, .fresh, .log, .guard, .red, .arr RED_MIRROR 0 1, .time, .free, .cmd] P) {a1 : _} {s2 : State} (h2 : P s2) : ∀ u, execSeenCacheExpiry a1 s2 = .next u → P u := by
  unfold execSeenCacheExpiry
  refine event_keep k.sub ?_ ?_
  · assumption
  · intro y0
    intro y1
    refine State.expireSeen_keep k.sub ?_
    assumption

theorem State.expireReplies_keep {P : State → Prop} (k : Keeps [.cmd] P) {s1 : State} (h1 : P s1) : P (State.expireReplies s1) := by
  unfold State.expireReplies
  refine (k.at .cmd) _ _ ?_
  assumption

theorem execReplyCacheExpiry_keep {P : State → Prop} (k : Keeps [.mend, .qm, .arr CMP_ERR 0 1, .fresh, .log, .guard, .red, .arr RED_MIRROR 0 1, .time, .free, .cmd] P) {a1 : _} {s2 : State} (h2 : P s2) : ∀ u, execReplyCacheExpiry a1 s2 = .next u → P u := by
  unfold execReplyCacheExpiry
  refine event_keep k.sub ?_ ?_
  · assumption
  · intro y0
    intro y1
    refine State.expireReplies_keep k.sub ?_
    assumption

theorem State.carryQueued_keep {P : State → Prop} (k : Keeps Prim.every P) {s1 : State} {a2 : _} {a3 : _} (h1 : P s1) : P (State.carryQueued s1 a2 a3) := by
  unfold State.carryQueued
  extract_lets +onlyGivenNames x0
  clear_value x0
  split
  · exact h1
  · rename_i e _
    have h := bodyOf_keep k.sub (a1 := a2) (a2 := e.1) (a3 := a3.params) (State.pmc_keep k.sub (a2 := 0x002) (a3 := 0) (a4 := 1) h1)
    split
    · rename_i q
      rw [q] at h
      exact State.answer_keep k.sub h
    · rename_i q
      rw [q] at h
      exact State.answer_keep k.sub ((k.at .cmd) _ _ h)
    · rename_i q
      rw [q] at h
      exact h

theorem State.reloadDone_keep {P : State → Prop} (k : Keeps Prim.every P) {s1 : State} {a2 : _} (h1 : P s1) : P (State.reloadDone s1 a2) := by
  unfold State.reloadDone
  split
  · assumption
  · split
    · refine (k.at .reset) _ _ ?_
      assumption
    · extract_lets +onlyGivenNames x0
      extract_lets +onlyGivenNames x1
      have e2 : P x1 := by
        unfold x1
        refine (k.at .qm) _ _ ?_
        refine (k.at .sys) _ _ ?_
        assumption
      clear_value x1
      refine foldl_keep (fun t3 x4 e5 => ?_) ?_
      · refine State.carryQueued_keep k.sub ?_
        assumption
      · assumption

theorem execPorterReloadDone_keep {P : State → Prop} (k : Keeps Prim.every P) {a1 : _} {a2 : _} {s3 : State} (h3 : P s3) : ∀ u, execPorterReloadDone a1 a2 s3 = .next u → P u := by
  unfold execPorterReloadDone
  refine event_keep k.sub ?_ ?_
  · assumption
  · intro y0
    intro y1
    refine State.reloadDone_keep k.sub ?_
    assumption

theorem State.spiFrame_keep {P : State → Prop} (k : Keeps [.cmd, .arr CMD_SPI_CTRL 0 1, .fresh] P) {s1 : State} {a2 : _} (h1 : P s1) : P (State.spiFrame s1 a2) := by
  unfold State.spiFrame
  refine (k.at .cmd) _ _ ?_
  refine bump_keep k CMD_SPI_CTRL 0 1 ⟨0, rfl⟩ ?_
  assumption

theorem State.spiBad_keep {P : State → Prop} (k : Keeps [.arr CMD_SPI_CTRL 0 1, .fresh, .cmd] P) {s1 : State} (h1 : P s1) : P (State.spiBad s1) := by
  unfold State.spiBad
  refine setBit_keep k CMD_SPI_CTRL 0 1 ⟨0, rfl⟩ ?_
  refine State.spiFrame_keep k.sub ?_
  assumption

theorem execSpiStatus_keep {P : State → Prop} (k : Keeps [.mend, .qm, .arr CMP_ERR 0 1, .fresh, .log, .guard, .red, .arr RED_MIRROR 0 1, .time, .free, .cmd, .arr CMD_SPI_CTRL 0 1] P) {a1 : _} {s2 : State} (h2 : P s2) : ∀ u, execSpiStatus a1 s2 = .next u → P u := by
  unfold execSpiStatus
  refine event_keep k.sub ?_ ?_
  · assumption
  · intro y0
    intro y1
    refine State.spiFrame_keep k.sub ?_
    assumption

theorem State.spiRead_keep {P : State → Prop} (k : Keeps [.fresh, .cmd, .now, .tiu, .anyReg] P) {s1 : State} {a2 : _} {a3 : _} (h1 : P s1) : P (State.spiRead s1 a2 a3) := by
  unfold State.spiRead
  split
  · refine State.spiBad_keep k.sub ?_
    assumption
  · extract_lets +onlyGivenNames x0
    refine (k.at .cmd) _ _ ?_
    refine State.readRegs_keep k.sub ?_
    refine State.spiFrame_keep k.sub ?_
    assumption

theorem execSpiRegRead_keep {P : State → Prop} (k : Keeps [.mend, .qm, .fresh, .log, .guard, .red, .time, .free, .cmd, .now, .tiu, .anyReg] P) {a1 : _} {a2 : _} {a3 : _} {s4 : State} (h4 : P s4) : ∀ u, execSpiRegRead a1 a2 a3 s4 = .next u → P u := by
  unfold execSpiRegRead
  refine event_keep k.sub ?_ ?_
  · assumption
  · intro y0
    intro y1
    refine State.spiRead_keep k.sub ?_
    assumption

theorem State.spiWrite_keep {P : State → Prop} (k : Keeps [.fresh, .cmd, .now, .tb, .anyReg, .nvm, .qm, .log, .mend, .cap, .acq, .free, .mem, .tiu, .cal, .fblk, .lnk, .red, .pmc] P) {s1 : State} {a2 : _} {a3 : _} (h1 : P s1) : P (State.spiWrite s1 a2 a3) := by
  unfold State.spiWrite
  extract_lets +onlyGivenNames x0
  split
  · refine State.spiBad_keep k.sub ?_
    assumption
  · refine State.writeRegs_keep k.sub ?_
    refine State.spiFrame_keep k.sub ?_
    assumption

theorem execSpiRegWrite_keep {P : State → Prop} (k : Keeps [.mend, .qm, .fresh, .log, .guard, .red, .time, .free, .cmd, .now, .tb, .anyReg, .nvm, .cap, .acq, .mem, .tiu, .cal, .fblk, .lnk, .pmc] P) {a1 : _} {a2 : _} {a3 : _} {s4 : State} (h4 : P s4) : ∀ u, execSpiRegWrite a1 a2 a3 s4 = .next u → P u := by
  unfold execSpiRegWrite
  refine event_keep k.sub ?_ ?_
  · assumption
  · intro y0
    intro y1
    refine State.spiWrite_keep k.sub ?_
    assumption

theorem State.spiPacket_keep {P : State → Prop} (k : Keeps Prim.every P) {s1 : State} {a2 : _} {a3 : _} {a4 : _} (h1 : P s1) : P (State.spiPacket s1 a2 a3 a4) := by
  unfold State.spiPacket
  extract_lets +onlyGivenNames x0
  split
  · refine State.spiBad_keep k.sub ?_
    assumption
  · extract_lets +onlyGivenNames x1
    refine State.receive_keep k.sub ?_ ?_
    · refine State.spiFrame_keep k.sub ?_
      assumption
    · intro y2
      intro y3
      intro y4
      intro y5
      refine bodyOf_keep k.sub ?_
      assumption

theorem execSpiPktWrite_keep {P : State → Prop} (k : Keeps Prim.every P) {a1 : _} {a2 : _} {a3 : _} {a4 : _} {s5 : State} (h5 : P s5) : ∀ u, execSpiPktWrite a1 a2 a3 a4 s5 = .next u → P u := by
  unfold execSpiPktWrite
  refine event_keep k.sub ?_ ?_
  · assumption
  · intro y0
    intro y1
    refine State.spiPacket_keep k.sub ?_
    assumption

theorem State.spiFetch_keep {P : State → Prop} (k : Keeps [.cmd, .arr CMD_SPI_CTRL 0 1, .fresh, .sys, .qm] P) {s1 : State} {a2 : _} (h1 : P s1) : P (State.spiFetch s1 a2) := by
  unfold State.spiFetch
  split
  · refine State.spiFrame_keep k.sub ?_
    assumption
  · extract_lets +onlyGivenNames x0
    extract_lets +onlyGivenNames x1
    have e2 : P x1 := by
      unfold x1
      refine State.spiFrame_keep k.sub ?_
      assumption
    clear_value x1
    split
    · refine State.replyLeft_keep k.sub ?_
      refine (k.at .qm) _ _ ?_
      assumption
    · assumption

theorem execSpiPktRead_keep {P : State → Prop} (k : Keeps [.mend, .qm, .arr CMP_ERR 0 1, .fresh, .log, .guard, .red, .arr RED_MIRROR 0 1, .time, .free, .cmd, .arr CMD_SPI_CTRL 0 1, .sys] P) {a1 : _} {a2 : _} {s3 : State} (h3 : P s3) : ∀ u, execSpiPktRead a1 a2 s3 = .next u → P u := by
  unfold execSpiPktRead
  refine event_keep k.sub ?_ ?_
  · assumption
  · intro y0
    intro y1
    refine State.spiFetch_keep k.sub ?_
    assumption

theorem State.spiIgnored_keep {P : State → Prop} (k : Keeps [.arr CMD_SPI_CTRL 0 1, .fresh, .cmd] P) {s1 : State} {a2 : _} (h1 : P s1) : P (State.spiIgnored s1 a2) := by
  unfold State.spiIgnored
  split
  · assumption
  · refine State.spiBad_keep k.sub ?_
    assumption

theorem execSpiFrameIgnored_keep {P : State → Prop} (k : Keeps [.mend, .qm, .arr CMP_ERR 0 1, .fresh, .log, .guard, .red, .arr RED_MIRROR 0 1, .time, .free, .arr CMD_SPI_CTRL 0 1, .cmd] P) {a1 : _} {a2 : _} {s3 : State} (h3 : P s3) : ∀ u, execSpiFrameIgnored a1 a2 s3 = .next u → P u := by
  unfold execSpiFrameIgnored
  refine event_keep k.sub ?_ ?_
  · assumption
  · intro y0
    intro y1
    refine State.spiIgnored_keep k.sub ?_
    assumption

theorem idle_keep {P : State → Prop} (k : Keeps [.time, .qm, .log, .mend, .free] P) {s1 : State} (h1 : P s1) : P (idle s1) := by
  unfold idle
  refine State.begin__keep k.sub ?_
  assumption

end Sys2Proof.Machine
end

