-- ==== Sys2Proof/Laws/Frame.lean ====
section
/-!
SUPPORT. Which parts of the state and which registers outlast which kinds of change: the frames of the rows follow from the
footprints of Laws/KeepA and on.
-/

namespace Sys2Proof.Machine

set_option Elab.async false

open Reg

/-- May a kind of change touch a part of the state? -/
def Prim.touches : Prim → Part → Bool
  | .reset, p => p != .waiting
  | .sys, .sys | .acq, .acq | .tb, .tb | .tiu, .tiu | .cap, .cap | .fblk, .fblk | .cmp, .cmp | .lnk, .lnk | .cmd, .cmd
  | .red, .red | .mem, .mem | .cal, .cal | .pmc, .pmc | .nvm, .nvm | .free, .free | .work, .work | .flash, .flash => true
  | _, _ => false

/-- May a kind of change touch registers outside the arrays `rs` and `logRegs`? -/
def Prim.strays (rs : List (Nat × Nat × Nat)) : Prim → Bool
  | .anyReg | .reset => true
  | .arr b st n => !(rs ++ logRegs).contains (b, st, n)
  | _ => false

theorem logAddr_inArray {a : Nat} (h : logAddr a) : ∃ r ∈ logRegs, InArray r.1 r.2.1 r.2.2 a := by
  rcases h with rfl | rfl | rfl | ⟨q, rfl⟩ | ⟨i, rfl⟩
  · exact ⟨(SYS_BB_STAT, 0, 1), by decide, 0, rfl⟩
  · exact ⟨(QM_DROP_STAT, 0, 1), by decide, 0, rfl⟩
  · exact ⟨(PMC_STAT, 0, 1), by decide, 0, rfl⟩
  · exact ⟨(QM_Q_FLAGS 0, 32, 64), by decide, q, rfl⟩
  · exact ⟨(PMC_CNT 0, 16, 8), by decide, i, rfl⟩

/-- The guard of NVM answers the state after with NVM of the state before or after, but for the black box. -/
theorem guardNvm_cases (s u : State) :
    State.guardNvm s u = u ∨ State.guardNvm s u = { u with nvm := { s.nvm with bb := u.nvm.bb, bbNext := u.nvm.bbNext } } := by
  unfold State.guardNvm
  split
  · exact Or.inr rfl
  · exact Or.inl rfl

theorem part_closed (s : State) (q : Prim) (p : Part) (h : q.touches p = false) : q.Closed fun u => p.Same s u := by
  cases q with
  | reset => cases p <;> first | exact fun u c hu => hu | exact absurd h (by decide)
  | log =>
    refine ⟨?_, ?_, ?_, ?_, ?_, ?_⟩
    · cases p <;> exact fun u a w _ hu => hu
    · cases p <;> first | exact fun u l hu => hu | skip
      intro u l hu
      show { u.sys with limits := l } = { s.sys with limits := l, bbDropped := u.sys.bbDropped }
      rw [hu]
    · cases p <;> first | exact fun u hu => hu | skip
      intro u hu
      show { u.sys with bbDropped := u.sys.bbDropped + 1 } = { s.sys with limits := u.sys.limits, bbDropped := u.sys.bbDropped + 1 }
      rw [hu]
    · cases p <;> first | exact fun u b g hu => hu | skip
      intro u b g hu
      show { u.nvm with bb := b, bbNext := g u.nvm } = { s.nvm with bb := b, bbNext := g u.nvm }
      have e : ∀ n : Nvm, u.nvm = { s.nvm with bb := n.bb, bbNext := n.bbNext } →
          ∀ m, { u.nvm with bb := b, bbNext := m } = { s.nvm with bb := b, bbNext := m } := by
        intro n hn m
        rw [hn]
      exact e _ hu _
    · cases p <;> exact fun u a lo n hu => hu
    · cases p <;> first | exact fun u g hu => hu | skip
      intro u g hu
      show { u.pmcBlk with ovfWas := g u.pmcBlk } = { s.pmcBlk with cycle := u.pmcBlk.cycle, ovfWas := g u.pmcBlk }
      generalize g u.pmcBlk = w
      rw [hu]
  | mend =>
    intro u m off len hu
    have e : ∀ r : Part, r ≠ .mem → r.Same s u → r.Same s (u.wroteWhole m off len) := by
      intro r hr h
      unfold State.wroteWhole
      split
      · exact h
      · cases r <;> first | exact h | exact absurd rfl hr
    by_cases hp : p = .mem
    · subst hp
      unfold State.wroteWhole
      split
      · exact hu
      · obtain ⟨h1, h2⟩ := hu
        have e : ∀ x y : MemS, x = { y with damage := x.damage } → ∀ d, { x with damage := d } = { y with damage := d } := by
          intro x y h d
          rw [h]
        refine ⟨e _ _ h1 _, fun d hd => ?_⟩
        obtain ⟨x, hx, rfl⟩ := List.mem_map.mp hd
        obtain ⟨y, hy, hxy⟩ := h2 x (List.mem_filter.mp hx).1
        refine ⟨y, hy, ?_⟩
        split
        · rw [hxy]
        · exact hxy
    · exact e p hp hu
  | fresh => cases p <;> exact fun u a lo n hu => hu
  | guard =>
    intro u v hu hv
    rcases guardNvm_cases u v with e | e <;> rw [e]
    · exact hv
    · cases p <;> first | exact hv | skip
      show { u.nvm with bb := v.nvm.bb, bbNext := v.nvm.bbNext } = { s.nvm with bb := v.nvm.bb, bbNext := v.nvm.bbNext }
      rw [hu]
  | time =>
    cases p <;> first | exact fun u t hu => hu | skip
    intro u t hu
    show { u.pmcBlk with cycle := (u.advance t).pmcBlk.cycle } = { s.pmcBlk with cycle := (u.advance t).pmcBlk.cycle, ovfWas := u.pmcBlk.ovfWas }
    generalize (u.advance t).pmcBlk.cycle = c
    rw [hu]
  | arr b st n => cases p <;> exact fun u a w _ hu => hu
  | anyReg => cases p <;> exact fun u a w hu => hu
  | free => cases p <;> first | exact fun u hu => hu | exact absurd h (by decide)
  | work => cases p <;> first | exact fun u o b hu => hu | exact absurd h (by decide)
  | flash => cases p <;> first | exact fun u k o b hu => hu | exact absurd h (by decide)
  | now => cases p <;> exact fun u t hu => hu
  | _ => cases p <;> first | exact fun u f hu => hu | exact absurd h (by decide)

theorem regs_closed (s : State) (rs : List (Nat × Nat × Nat)) (q : Prim) (h : q.strays rs = false) :
    q.Closed fun u => ∀ a, (∀ r ∈ rs ++ logRegs, ¬ InArray r.1 r.2.1 r.2.2 a) → u.rd a = s.rd a := by
  cases q with
  | log =>
    refine ⟨?_, fun _ _ h => h, fun _ h => h, fun _ _ _ h => h, fun _ _ _ _ h => h, fun _ _ h => h⟩
    intro u a w ha hu b hb
    rw [State.rd_wr_ne, hu b hb]
    rintro rfl
    obtain ⟨r, hr, hi⟩ := logAddr_inArray ha
    exact hb r (List.mem_append_right _ hr) hi
  | arr b st n =>
    intro u a w ha hu c hc
    rw [State.rd_wr_ne, hu c hc]
    rintro rfl
    simp only [Prim.strays, Bool.not_eq_false', List.contains_iff_mem] at h
    exact hc _ h ha
  | guard =>
    intro u v hu hv
    rcases guardNvm_cases u v with e | e <;> rw [e] <;> exact hv
  | anyReg => exact Bool.noConfusion h
  | reset => exact Bool.noConfusion h
  | free => exact fun u hu => hu
  | work => exact fun u o b hu => hu
  | flash => exact fun u k o b hu => hu
  | fresh => exact fun u a lo n hu => hu
  | mend =>
    intro u m off len hu a ha
    rw [← hu a ha]
    unfold State.wroteWhole
    split <;> rfl
  | _ => exact fun u f hu => hu

/-- A part that none of the kinds `l` touches outlasts them. -/
theorem keeps_part (s : State) (p : Part) {l : List Prim} (h : (l.all fun q => !q.touches p) = true := by decide) : Keeps l fun u => p.Same s u :=
  fun q hq => part_closed s q p (by simpa using List.all_eq_true.mp h q hq)

/-- The frame of whatever makes only changes of the kinds `l`. -/
theorem keeps_leaves (s : State) {l : List Prim} (ps : List Part) (rs : List (Nat × Nat × Nat))
    (h1 : (l.all fun q => ps.all fun p => !q.touches p) = true) (h2 : (l.all fun q => !q.strays rs) = true) : Keeps l (Leaves ps rs s) := by
  intro q hq
  have t : ∀ p ∈ ps, q.touches p = false := by
    intro p hp
    simpa using List.all_eq_true.mp (List.all_eq_true.mp h1 q hq) p hp
  have r : q.strays rs = false := by simpa using List.all_eq_true.mp h2 q hq
  have c := fun p hp => part_closed s q p (t p hp)
  have d := regs_closed s rs q r
  cases q with
  | log =>
    exact ⟨fun u a w ha h => ⟨fun p hp => (c p hp).wr u a w ha (h.1 p hp), d.wr u a w ha h.2⟩,
      fun u l h => ⟨fun p hp => (c p hp).limits u l (h.1 p hp), d.limits u l h.2⟩,
      fun u h => ⟨fun p hp => (c p hp).dropped u (h.1 p hp), d.dropped u h.2⟩,
      fun u b g h => ⟨fun p hp => (c p hp).bb u b g (h.1 p hp), d.bb u b g h.2⟩,
      fun u a lo n h => ⟨fun p hp => (c p hp).mark u a lo n (h.1 p hp), d.mark u a lo n h.2⟩,
      fun u g h => ⟨fun p hp => (c p hp).ovf u g (h.1 p hp), d.ovf u g h.2⟩⟩
  | arr b st n => exact fun u a w ha h => ⟨fun p hp => c p hp u a w ha (h.1 p hp), d u a w ha h.2⟩
  | anyReg => exact fun u a w h => ⟨fun p hp => c p hp u a w (h.1 p hp), d u a w h.2⟩
  | guard => exact fun u v h h' => ⟨fun p hp => c p hp u v (h.1 p hp) (h'.1 p hp), d u v h.2 h'.2⟩
  | free => exact fun u h => ⟨fun p hp => c p hp u (h.1 p hp), d u h.2⟩
  | work => exact fun u o b h => ⟨fun p hp => c p hp u o b (h.1 p hp), d u o b h.2⟩
  | flash => exact fun u k o b h => ⟨fun p hp => c p hp u k o b (h.1 p hp), d u k o b h.2⟩
  | fresh => exact fun u a lo n h => ⟨fun p hp => c p hp u a lo n (h.1 p hp), d u a lo n h.2⟩
  | mend => exact fun u m off len h => ⟨fun p hp => c p hp u m off len (h.1 p hp), d u m off len h.2⟩
  | _ => exact fun u f h => ⟨fun p hp => c p hp u f (h.1 p hp), d u f h.2⟩

theorem leaves_refl (ps : List Part) (rs : List (Nat × Nat × Nat)) (s : State) : Leaves ps rs s s :=
  ⟨fun p _ => by cases p <;> first | rfl | exact ⟨rfl, fun d hd => ⟨d, hd, rfl⟩⟩, fun _ _ => rfl⟩

end Sys2Proof.Machine
end

