-- ==== Sys2Proof/Laws/Exec.lean ====
section
/-!
SUPPORT. What every command and every step does: it answers a next state, and keeps whatever outlasts every kind of change.
-/

namespace Sys2Proof.Machine

set_option Elab.async false

open Reg

/-- Every command answers a next state. -/
theorem exec_next (c : Instr) (s : State) : ∃ u, exec c s = .next u := by
  cases c <;> exact ⟨_, rfl⟩

/-- A packet's row keeps what outlasts every kind of change, where its body does. -/
theorem packet_keep {P : State → Prop} (k : Keeps Prim.every P) {op t : Nat} {b : Body} {p : Packet} {s : State} (h : P s)
    (hb : ∀ c ps s, P s → (b c ps s).Holds P) : ∀ u, command op b t p s = .next u → P u := command_keep k.sub h hb

/-- Whatever outlasts every kind of change outlasts every command. -/
theorem exec_keep {P : State → Prop} (k : Keeps Prim.every P) {c : Instr} {s : State} (h : P s) : ∀ u, exec c s = .next u → P u := by
  cases c with
  | powerOn => exact execPowerOn_keep k.sub h
  | resetNPulse => exact execResetNPulse_keep k.sub h
  | supplyBrownout => exact execSupplyBrownout_keep k.sub h
  | pfwNFall => exact execPfwNFall_keep k.sub h
  | pfwRecoveryReset => exact execPfwRecoveryReset_keep k.sub h
  | memoryFillDone => exact execMemoryFillDone_keep k.sub h
  | bootOk => exact execBootOk_keep k.sub h
  | bootTimeout => exact execBootTimeout_keep k.sub h
  | watchdogExpiry => exact execWatchdogExpiry_keep k.sub h
  | lockstepMismatch => exact execLockstepMismatch_keep k.sub h
  | powerTransitionDone => exact execPowerTransitionDone_keep k.sub h
  | sensorPoll => exact execSensorPoll_keep k.sub h
  | bbAllowanceRefill => exact execBbAllowanceRefill_keep k.sub h
  | configStoreWrite => exact execConfigStoreWrite_keep k.sub h
  | consoleStatusQuery => exact execConsoleStatusQuery_keep k.sub h
  | crystalSecond => exact execCrystalSecond_keep k.sub h
  | incrementBoundary => exact execIncrementBoundary_keep k.sub h
  | timeBlockReceived => exact execTimeBlockReceived_keep k.sub h
  | timeCellReceived => exact execTimeCellReceived_keep k.sub h
  | holdoverEntry => exact execHoldoverEntry_keep k.sub h
  | ppsEdge => exact execPpsEdge_keep k.sub h
  | todMessage => exact execTodMessage_keep k.sub h
  | timedActionLaunch => exact execTimedActionLaunch_keep k.sub h
  | edgeStamp => exact execEdgeStamp_keep k.sub h
  | loopUnlock => exact execLoopUnlock_keep k.sub h
  | vernierCalDone => exact execVernierCalDone_keep k.sub h
  | freqGateOpen => exact execFreqGateOpen_keep k.sub h
  | freqGateClose => exact execFreqGateClose_keep k.sub h
  | rawCodeArrival => exact execRawCodeArrival_keep k.sub h
  | chargeReset => exact execChargeReset_keep k.sub h
  | clampOnset => exact execClampOnset_keep k.sub h
  | excLimit => exact execExcLimit_keep k.sub h
  | pilotWindow => exact execPilotWindow_keep k.sub h
  | testTick => exact execTestTick_keep k.sub h
  | injectOppositeEdge => exact execInjectOppositeEdge_keep k.sub h
  | outputSampleDelivered => exact execOutputSampleDelivered_keep k.sub h
  | streamStart => exact execStreamStart_keep k.sub h
  | timeTrigger => exact execTimeTrigger_keep k.sub h
  | tripStale => exact execTripStale_keep k.sub h
  | tripMinOnExpiry => exact execTripMinOnExpiry_keep k.sub h
  | paneHeldTime => exact execPaneHeldTime_keep k.sub h
  | paneCut => exact execPaneCut_keep k.sub h
  | extractServe => exact execExtractServe_keep k.sub h
  | historyRepartition => exact execHistoryRepartition_keep k.sub h
  | burstWindowWake => exact execBurstWindowWake_keep k.sub h
  | burstWindowEnd => exact execBurstWindowEnd_keep k.sub h
  | reliefCompareEnd => exact execReliefCompareEnd_keep k.sub h
  | bayCalibrationDone => exact execBayCalibrationDone_keep k.sub h
  | transomPeriodTrigger => exact execTransomPeriodTrigger_keep k.sub h
  | trigInEdge => exact execTrigInEdge_keep k.sub h
  | transomEntryDone => exact execTransomEntryDone_keep k.sub h
  | transomCalibrationDone => exact execTransomCalibrationDone_keep k.sub h
  | fieldPortPoll => exact execFieldPortPoll_keep k.sub h
  | frameReceived => exact execFrameReceived_keep k.sub h
  | pushResumed => exact execPushResumed_keep k.sub h
  | spill => exact execSpill_keep k.sub h
  | retentionReturn => exact execRetentionReturn_keep k.sub h
  | rewindTimeout => exact execRewindTimeout_keep k.sub h
  | rewindApply => exact execRewindApply_keep k.sub h
  | shutterExpiry => exact execShutterExpiry_keep k.sub h
  | eventRecordClose => exact execEventRecordClose_keep k.sub h
  | cmpRecordDone => exact execCmpRecordDone_keep k.sub h
  | cmpJobDone => exact execCmpJobDone_keep k.sub h
  | cmpFlushDrained => exact execCmpFlushDrained_keep k.sub h
  | portTrainingStart => exact execPortTrainingStart_keep k.sub h
  | trainIdentReceived => exact execTrainIdentReceived_keep k.sub h
  | trainReadyReceived => exact execTrainReadyReceived_keep k.sub h
  | trainingTimeout => exact execTrainingTimeout_keep k.sub h
  | trainingRestart => exact execTrainingRestart_keep k.sub h
  | mismatchRetry => exact execMismatchRetry_keep k.sub h
  | laneLost => exact execLaneLost_keep k.sub h
  | restripeReceived => exact execRestripeReceived_keep k.sub h
  | laneReadmitted => exact execLaneReadmitted_keep k.sub h
  | idleFreeze => exact execIdleFreeze_keep k.sub h
  | idleRefresh => exact execIdleRefresh_keep k.sub h
  | egressCellStart => exact execEgressCellStart_keep k.sub h
  | cellReceived => exact execCellReceived_keep k.sub h
  | linkBlockReceived => exact execLinkBlockReceived_keep k.sub h
  | linkBlockSend => exact execLinkBlockSend_keep k.sub h
  | replayTimeout => exact execReplayTimeout_keep k.sub h
  | linkStateRefresh => exact execLinkStateRefresh_keep k.sub h
  | linkStateReceived => exact execLinkStateReceived_keep k.sub h
  | linkStateExpiry => exact execLinkStateExpiry_keep k.sub h
  | transitHoldExpiry => exact execTransitHoldExpiry_keep k.sub h
  | modulePoll => exact execModulePoll_keep k.sub h
  | eyeScanDone => exact execEyeScanDone_keep k.sub h
  | packetRelay => exact packet_keep k h fun _ _ _ hs => bodyOf_keep k hs
  | replyReceived => exact packet_keep k h fun _ _ _ hs => bodyOf_keep k hs
  | commandTimeout => exact execCommandTimeout_keep k.sub h
  | seenCacheExpiry => exact execSeenCacheExpiry_keep k.sub h
  | replyCacheExpiry => exact execReplyCacheExpiry_keep k.sub h
  | spiStatus => exact execSpiStatus_keep k.sub h
  | spiRegRead => exact execSpiRegRead_keep k.sub h
  | spiRegWrite => exact execSpiRegWrite_keep k.sub h
  | spiPktWrite => exact execSpiPktWrite_keep k.sub h
  | spiPktRead => exact execSpiPktRead_keep k.sub h
  | spiFrameIgnored => exact execSpiFrameIgnored_keep k.sub h
  | heartbeatSend => exact execHeartbeatSend_keep k.sub h
  | heartbeatReceived => exact execHeartbeatReceived_keep k.sub h
  | pathFailed => exact execPathFailed_keep k.sub h
  | pathRestored => exact execPathRestored_keep k.sub h
  | latchRenewSend => exact execLatchRenewSend_keep k.sub h
  | leaseExpiry => exact execLeaseExpiry_keep k.sub h
  | latchRequestSend => exact execLatchRequestSend_keep k.sub h
  | startHoldoffExpiry => exact execStartHoldoffExpiry_keep k.sub h
  | witnessLeaseExpiry => exact execWitnessLeaseExpiry_keep k.sub h
  | quietPeriodEnd => exact execQuietPeriodEnd_keep k.sub h
  | mirrorReceived => exact execMirrorReceived_keep k.sub h
  | mirrorResend => exact execMirrorResend_keep k.sub h
  | mirrorStateRefresh => exact execMirrorStateRefresh_keep k.sub h
  | digestSend => exact execDigestSend_keep k.sub h
  | digestReceived => exact execDigestReceived_keep k.sub h
  | digestTimeout => exact execDigestTimeout_keep k.sub h
  | ledgerReplaySend => exact execLedgerReplaySend_keep k.sub h
  | switchoverTimeout => exact execSwitchoverTimeout_keep k.sub h
  | drillDone => exact execDrillDone_keep k.sub h
  | dramTempPoll => exact execDramTempPoll_keep k.sub h
  | scrubDone => exact execScrubDone_keep k.sub h
  | calPeriodExpiry => exact execCalPeriodExpiry_keep k.sub h
  | calGroupStart => exact execCalGroupStart_keep k.sub h
  | calGroupDone => exact execCalGroupDone_keep k.sub h
  | calRetry => exact execCalRetry_keep k.sub h
  | pmcDump => exact execPmcDump_keep k.sub h
  | jtagInstruction => exact execJtagInstruction_keep k.sub h
  | registerWrite => exact execRegisterWrite_keep k.sub h
  | nextAddrWrite => exact execNextAddrWrite_keep k.sub h
  | tbIncrCommit => exact execTbIncrCommit_keep k.sub h
  | anchorGo => exact execAnchorGo_keep k.sub h
  | timedActionArm => exact execTimedActionArm_keep k.sub h
  | timedActionCancel => exact execTimedActionCancel_keep k.sub h
  | transomStart => exact execTransomStart_keep k.sub h
  | transomCommit => exact execTransomCommit_keep k.sub h
  | engineArmWrite => exact execEngineArmWrite_keep k.sub h
  | tripLock => exact execTripLock_keep k.sub h
  | consoleLock => exact execConsoleLock_keep k.sub h
  | pmcClear => exact execPmcClear_keep k.sub h
  | pmcToneWrite => exact execPmcToneWrite_keep k.sub h
  | ping => exact packet_keep k h fun _ _ _ hs => bodyPing_keep k.sub hs
  | identify => exact packet_keep k h fun _ _ _ hs => bodyIdentify_keep k.sub hs
  | setPowerState => exact packet_keep k h fun _ _ _ hs => bodySetPowerState_keep k.sub hs
  | regRead => exact packet_keep k h fun _ _ _ hs => bodyRegRead_keep k.sub hs
  | regWrite => exact packet_keep k h fun _ _ _ hs => bodyRegWrite_keep k.sub hs
  | regRead64 => exact packet_keep k h fun _ _ _ hs => bodyRegRead64_keep k.sub hs
  | softReset => exact packet_keep k h fun _ _ _ hs => bodySoftReset_keep k.sub hs
  | updateBegin => exact packet_keep k h fun _ _ _ hs => bodyUpdateBegin_keep k.sub hs
  | updateData => exact packet_keep k h fun _ _ _ hs => bodyUpdateData_keep k.sub hs
  | updateCommit => exact packet_keep k h fun _ _ _ hs => bodyUpdateCommit_keep k.sub hs
  | updateCommitDone => exact execUpdateCommitDone_keep k.sub h
  | updateActivate => exact packet_keep k h fun _ _ _ hs => bodyUpdateActivate_keep k.sub hs
  | logRead => exact packet_keep k h fun _ _ _ hs => bodyLogRead_keep k.sub hs
  | logMark => exact packet_keep k h fun _ _ _ hs => bodyLogMark_keep k.sub hs
  | sensorRead => exact packet_keep k h fun _ _ _ hs => bodySensorRead_keep k.sub hs
  | abort => exact packet_keep k h fun _ _ _ hs => bodyAbort_keep k.sub hs
  | chConfig => exact packet_keep k h fun _ _ _ hs => bodyChConfig_keep k.sub hs
  | chQuery => exact packet_keep k h fun _ _ _ hs => bodyChQuery_keep k.sub hs
  | bayExcitation => exact packet_keep k h fun _ _ _ hs => bodyBayExcitation_keep k.sub hs
  | chTestInject => exact packet_keep k h fun _ _ _ hs => bodyChTestInject_keep k.sub hs
  | clampStatus => exact packet_keep k h fun _ _ _ hs => bodyClampStatus_keep k.sub hs
  | bayMode => exact packet_keep k h fun _ _ _ hs => bodyBayMode_keep k.sub hs
  | transomSequence => exact packet_keep k h fun _ _ _ hs => bodyTransomSequence_keep k.sub hs
  | transomUrgent => exact packet_keep k h fun _ _ _ hs => bodyTransomUrgent_keep k.sub hs
  | chainConfig => exact packet_keep k h fun _ _ _ hs => bodyChainConfig_keep k.sub hs
  | detectorConfig => exact packet_keep k h fun _ _ _ hs => bodyDetectorConfig_keep k.sub hs
  | streamEnable => exact packet_keep k h fun _ _ _ hs => bodyStreamEnable_keep k.sub hs
  | timeRead => exact packet_keep k h fun _ _ _ hs => bodyTimeRead_keep k.sub hs
  | timeDomainConfig => exact packet_keep k h fun _ _ _ hs => bodyTimeDomainConfig_keep k.sub hs
  | timeSelectDomain => exact packet_keep k h fun _ _ _ hs => bodyTimeSelectDomain_keep k.sub hs
  | timeSchedule => exact packet_keep k h fun _ _ _ hs => bodyTimeSchedule_keep k.sub hs
  | timeAsymmetrySet => exact packet_keep k h fun _ _ _ hs => bodyTimeAsymmetrySet_keep k.sub hs
  | timeStatus => exact packet_keep k h fun _ _ _ hs => bodyTimeStatus_keep k.sub hs
  | tiuRoute => exact packet_keep k h fun _ _ _ hs => bodyTiuRoute_keep k.sub hs
  | freqMeasure => exact packet_keep k h fun _ _ _ hs => bodyFreqMeasure_keep k.sub hs
  | stampRead => exact packet_keep k h fun _ _ _ hs => bodyStampRead_keep k.sub hs
  | triggerConfig => exact packet_keep k h fun _ _ _ hs => bodyTriggerConfig_keep k.sub hs
  | paneOpen => exact packet_keep k h fun _ _ _ hs => bodyPaneOpen_keep k.sub hs
  | paneClose => exact packet_keep k h fun _ _ _ hs => bodyPaneClose_keep k.sub hs
  | triggerAnnounce => exact packet_keep k h fun _ _ _ hs => bodyTriggerAnnounce_keep k.sub hs
  | historyExtract => exact packet_keep k h fun _ _ _ hs => bodyHistoryExtract_keep k.sub hs
  | measureConfig => exact packet_keep k h fun _ _ _ hs => bodyMeasureConfig_keep k.sub hs
  | fieldPortConfig => exact packet_keep k h fun _ _ _ hs => bodyFieldPortConfig_keep k.sub hs
  | fieldDecoderConfig => exact packet_keep k h fun _ _ _ hs => bodyFieldDecoderConfig_keep k.sub hs
  | tripConfig => exact packet_keep k h fun _ _ _ hs => bodyTripConfig_keep k.sub hs
  | foutConfig => exact packet_keep k h fun _ _ _ hs => bodyFoutConfig_keep k.sub hs
  | tripReset => exact packet_keep k h fun _ _ _ hs => bodyTripReset_keep k.sub hs
  | queueConfig => exact packet_keep k h fun _ _ _ hs => bodyQueueConfig_keep k.sub hs
  | queueStatus => exact packet_keep k h fun _ _ _ hs => bodyQueueStatus_keep k.sub hs
  | release => exact packet_keep k h fun _ _ _ hs => bodyRelease_keep k.sub hs
  | retentionConfig => exact packet_keep k h fun _ _ _ hs => bodyRetentionConfig_keep k.sub hs
  | shutter => exact packet_keep k h fun _ _ _ hs => bodyShutter_keep k.sub hs
  | shutterOpen => exact packet_keep k h fun _ _ _ hs => bodyShutterOpen_keep k.sub hs
  | cmpConfig => exact packet_keep k h fun _ _ _ hs => bodyCmpConfig_keep k.sub hs
  | cmpJob => exact packet_keep k h fun _ _ _ hs => bodyCmpJob_keep k.sub hs
  | cmpFlush => exact packet_keep k h fun _ _ _ hs => bodyCmpFlush_keep k.sub hs
  | portConfig => exact packet_keep k h fun _ _ _ hs => bodyPortConfig_keep k.sub hs
  | portStatus => exact packet_keep k h fun _ _ _ hs => bodyPortStatus_keep k.sub hs
  | laneEyeScan => exact packet_keep k h fun _ _ _ hs => bodyLaneEyeScan_keep k.sub hs
  | lanePattern => exact packet_keep k h fun _ _ _ hs => bodyLanePattern_keep k.sub hs
  | laneLoopback => exact packet_keep k h fun _ _ _ hs => bodyLaneLoopback_keep k.sub hs
  | portRetrain => exact packet_keep k h fun _ _ _ hs => bodyPortRetrain_keep k.sub hs
  | credInstall => exact packet_keep k h fun _ _ _ hs => bodyCredInstall_keep k.sub hs
  | credRevoke => exact packet_keep k h fun _ _ _ hs => bodyCredRevoke_keep k.sub hs
  | credStatus => exact packet_keep k h fun _ _ _ hs => bodyCredStatus_keep k.sub hs
  | headConfig => exact packet_keep k h fun _ _ _ hs => bodyHeadConfig_keep k.sub hs
  | headStatus => exact packet_keep k h fun _ _ _ hs => bodyHeadStatus_keep k.sub hs
  | latchRequest => exact packet_keep k h fun _ _ _ hs => bodyLatchRequest_keep k.sub hs
  | latchRenew => exact packet_keep k h fun _ _ _ hs => bodyLatchRenew_keep k.sub hs
  | latchRelease => exact packet_keep k h fun _ _ _ hs => bodyLatchRelease_keep k.sub hs
  | headDrill => exact packet_keep k h fun _ _ _ hs => bodyHeadDrill_keep k.sub hs
  | scrub => exact packet_keep k h fun _ _ _ hs => bodyScrub_keep k.sub hs
  | memStatus => exact packet_keep k h fun _ _ _ hs => bodyMemStatus_keep k.sub hs
  | memInject => exact packet_keep k h fun _ _ _ hs => bodyMemInject_keep k.sub hs
  | pmcConfig => exact packet_keep k h fun _ _ _ hs => bodyPmcConfig_keep k.sub hs
  | pmcRead => exact packet_keep k h fun _ _ _ hs => bodyPmcRead_keep k.sub hs
  | pmcDumpConfig => exact packet_keep k h fun _ _ _ hs => bodyPmcDumpConfig_keep k.sub hs
  | calRun => exact packet_keep k h fun _ _ _ hs => bodyCalRun_keep k.sub hs
  | calStatus => exact packet_keep k h fun _ _ _ hs => bodyCalStatus_keep k.sub hs
  | calCoeffRead => exact packet_keep k h fun _ _ _ hs => bodyCalCoeffRead_keep k.sub hs
  | calPolicy => exact packet_keep k h fun _ _ _ hs => bodyCalPolicy_keep k.sub hs
  | pfwNRise => exact execPfwNRise_keep k.sub h
  | imageLoadDone => exact execImageLoadDone_keep k.sub h
  | porterReloadDone => exact execPorterReloadDone_keep k.sub h
  | loopRelock => exact execLoopRelock_keep k.sub h
  | excitationPeriod => exact execExcitationPeriod_keep k.sub h
  | checkerLockChange => exact execCheckerLockChange_keep k.sub h
  | resetAfterReply => exact execResetAfterReply_keep k.sub h
  | newScanSetting => exact execNewScanSetting_keep k.sub h

/-- Whatever outlasts every kind of change and does not rest on the queue outlasts every step. -/
theorem step_keep {P : State → Prop} (k : Keeps Prim.every P) (hp : ∀ s l, P s → P { s with pending := l }) {s : State} (h : P s) :
    ∀ u, step s = .next u → P u := by
  unfold step
  split
  · intro u hu
    cases hu
    exact idle_keep k.sub h
  · exact exec_keep k (hp _ _ h)

end Sys2Proof.Machine
end

