-- ==== Sys2Proof/Laws/Safe.lean ====
section
/-!
SUPPORT. Every operation over the register file, flash and the work area keeps its canonical form.
-/

namespace Sys2Proof.Machine

set_option Elab.async false

open Reg

theorem Tab.rising_filter {α : Type} {t : Tab α} {lo : Option Nat} (p : Nat × α → Bool) (h : Tab.rising lo t = true) :
    Tab.rising lo (t.filter p) = true := by
  induction t generalizing lo with
  | nil => exact h
  | cons x t ih =>
    obtain ⟨j, v⟩ := x
    rw [List.filter_cons]
    cases lo with
    | none =>
      simp only [Tab.rising] at h
      split
      · exact ih h
      · exact ih (Tab.rising_none h)
    | some i =>
      simp only [Tab.rising, Bool.and_eq_true, decide_eq_true_eq] at h
      split
      · simp only [Tab.rising, Bool.and_eq_true, decide_eq_true_eq]
        exact ⟨h.1, ih h.2⟩
      · exact ih (Tab.rising_weaken (by omega) h.2)

theorem Mem.wf_filter {d : Byte} {m : Mem} (p : Nat × Byte → Bool) (h : Mem.wf d m = true) : Mem.wf d (m.filter p) = true := by
  simp only [Mem.wf, Tab.wf, Bool.and_eq_true, List.all_eq_true] at h ⊢
  exact ⟨Tab.rising_filter p h.1, fun e he => h.2 e (List.mem_filter.mp he).1⟩

theorem programFlash_wf {m : Mem} (k o : Nat) (bs : List Byte) (h : Mem.wf 0xFF#8 m = true) : Mem.wf 0xFF#8 (programFlash m k o bs) = true :=
  Mem.wf_writeBytes _ _ (Mem.wf_filter _ h)

end Sys2Proof.Machine

namespace Sys2Proof

open Sys2Proof.Machine

theorem RegsWf.set {r : Tab Word} (a : Nat) (w : Word) (h : RegsWf r) : RegsWf (Tab.set (resetWord a) r a w) := by
  refine ⟨Tab.rising_set h.1, fun e he => ?_⟩
  rcases Tab.mem_set he with ⟨rfl, hw⟩ | he
  · exact hw
  · exact h.2 e he

theorem RegsWf.nil : RegsWf [] := ⟨rfl, fun _ h => absurd h (List.not_mem_nil)⟩

theorem RegsWf.foldl {α : Type} {f : Tab Word → α → Tab Word} {l : List α} {r : Tab Word} (hf : ∀ r x, RegsWf r → RegsWf (f r x))
    (h : RegsWf r) : RegsWf (l.foldl f r) := by
  induction l generalizing r with
  | nil => exact h
  | cons x l ih => exact ih (hf r x h)

theorem resetRegs_wf (n : Nvm) (cause : Nat) : RegsWf (resetRegs n cause) := by
  refine RegsWf.foldl (fun r c hr => ?_) (RegsWf.set _ _ (RegsWf.set _ _ (RegsWf.foldl (fun r e hr => RegsWf.set _ _ hr) RegsWf.nil)))
  dsimp only
  split
  · exact RegsWf.set _ _ hr
  · exact hr

theorem Safe.wr {s : State} (h : Safe s) (a : Nat) (w : Word) : Safe (s.wr a w) := ⟨h.regs.set a w, h.flash, h.work⟩

theorem Safe.program {s : State} (h : Safe s) (k o : Nat) (bs : List Byte) : Safe (s.program k o bs) := ⟨h.regs, programFlash_wf k o bs h.flash, h.work⟩

theorem Safe.putWork {s : State} (h : Safe s) (o : Nat) (bs : List Byte) : Safe (s.putWork o bs) := ⟨h.regs, h.flash, Mem.wf_writeBytes _ _ h.work⟩

theorem Safe.hubReset {s : State} (h : Safe s) (c : Nat) : Safe (s.hubReset c) := ⟨resetRegs_wf _ _, h.flash, rfl⟩

theorem Safe.guardNvm {s u : State} (h : Safe u) : Safe (State.guardNvm s u) := by
  rcases guardNvm_cases s u with e | e <;> rw [e]
  · exact h
  · exact ⟨h.regs, h.flash, h.work⟩

end Sys2Proof
end

