-- ==== Sys2Proof/Laws/Packet.lean ====
section
/-!
SUPPORT. What a packet that passes the judging order does, what a reply changes, and what the end of every row changes.
-/

namespace Sys2Proof

set_option Elab.async false

open Sys2Proof.Machine Sys2Proof.Machine.Reg Sys2Proof.Machine.Bits

theorem Part.same_refl (p : Part) (s : State) : p.Same s s := (leaves_refl [p] [] s).1 p List.mem_cons_self

theorem Part.same_trans {p : Part} {s u v : State} (h : p.Same s u) (h' : p.Same u v) : p.Same s v := by
  cases p <;> simp only [Part.Same] at h h' ⊢ <;> first | exact h'.trans h | skip
  · rw [h', h]
  · refine ⟨by rw [h'.1, h.1], fun d hd => ?_⟩
    obtain ⟨e, he, hde⟩ := h'.2 d hd
    obtain ⟨f, hf, hef⟩ := h.2 e he
    exact ⟨f, hf, by rw [hde, hef]⟩
  · rw [h', h]
  · rw [h', h]

theorem InArray.mono {P Q : List (Nat × Nat × Nat)} (h : ∀ r ∈ P, r ∈ Q) {a : Nat} (hq : ∀ r ∈ Q, ¬ InArray r.1 r.2.1 r.2.2 a) :
    ∀ r ∈ P, ¬ InArray r.1 r.2.1 r.2.2 a := fun r hr => hq r (h r hr)

theorem Leaves.trans {ps : List Part} {rs : List (Nat × Nat × Nat)} {s u v : State} (h : Leaves ps rs s u) (h' : Leaves ps rs u v) :
    Leaves ps rs s v := ⟨fun p hp => Part.same_trans (h.1 p hp) (h'.1 p hp), fun a ha => (h'.2 a ha).trans (h.2 a ha)⟩

/-- A frame over fewer parts and more registers follows from one over more parts and fewer registers. -/
theorem Leaves.weaken {ps ps' : List Part} {rs rs' : List (Nat × Nat × Nat)} {s u : State} (h : Leaves ps rs s u)
    (hp : (ps'.all ps.contains) = true) (hr : (rs.all rs'.contains) = true) : Leaves ps' rs' s u := by
  refine ⟨fun p hm => h.1 p (by simpa using List.all_eq_true.mp hp p hm), fun a ha => h.2 a fun r hm => ?_⟩
  rcases List.mem_append.mp hm with hm | hm
  · exact ha r (List.mem_append_left _ (by simpa using List.all_eq_true.mp hr r hm))
  · exact ha r (List.mem_append_right _ hm)

/-- The redundancy block without the five fields that mirroring changed state moves. -/
def redRest (r : Red) : Red := { r with nextMirror := 0, unacked := [], mirror := [], ackedAt := 0, stateItems := [] }

theorem redRest_eq {r r' : Red} (h : redRest r = redRest r') :
    r = { r' with nextMirror := r.nextMirror, unacked := r.unacked, mirror := r.mirror, ackedAt := r.ackedAt, stateItems := r.stateItems } :=
  congrArg (fun m => { m with nextMirror := r.nextMirror, unacked := r.unacked, mirror := r.mirror, ackedAt := r.ackedAt,
                              stateItems := r.stateItems }) h

theorem sendHead_red (s : State) (c : Nat → Nat → Nat → Ctl) : (s.sendHead c).red = s.red :=
  State.sendHead_keep (keeps_part s .red) rfl

theorem mirrorState_red (s : State) (a : Nat) : redRest (s.mirrorState a).red = redRest s.red := by
  unfold State.mirrorState State.mirrorItem
  show redRest (State.sendHead _ _).red = _
  rw [sendHead_red]
  rfl

/-- Mirroring what has changed touches five fields of the redundancy block. -/
theorem mirrorChanges_red (s : State) : redRest s.mirrorChanges.red = redRest s.red := by
  unfold State.mirrorChanges
  split
  · rfl
  · refine foldl_keep (P := fun x => redRest x.red = redRest s.red) (fun x a hx => ?_) rfl
    split
    · exact hx
    · exact (mirrorState_red x a).trans hx

theorem guardNvm_red (s u : State) : (State.guardNvm s u).red = u.red := by
  rcases guardNvm_cases s u with e | e <;> rw [e]

theorem settle_red (s : State) : s.settle.red = s.red :=
  State.settle_keep (keeps_part s .red) rfl

/-- The end of every row of the table. -/
theorem closing_closed (s x : State) : Closed s x (closing s x) := by
  have a : Leaves keptParts [] x x.mirrorChanges :=
    State.mirrorChanges_keep (keeps_leaves x keptParts [] (by decide) (by decide)) (leaves_refl _ _ x)
  have a' : Leaves [.cmd, .nvm] [] x x.mirrorChanges :=
    State.mirrorChanges_keep (keeps_leaves x [.cmd, .nvm] [] (by decide) (by decide)) (leaves_refl _ _ x)
  have b : ∀ y : State, Leaves (keptParts ++ [.cmd]) [] y (State.guardNvm s y) := by
    intro y
    rcases guardNvm_cases s y with e | e <;> rw [e]
    · exact leaves_refl _ _ y
    · refine ⟨fun p hp => ?_, fun _ _ => rfl⟩
      cases p <;> first | rfl | exact Part.same_refl .mem y | exact absurd hp (by decide)
  have c : ∀ y : State, Leaves (keptParts ++ [.cmd, .nvm]) [] y y.settle := fun y =>
    State.settle_keep (keeps_leaves y (keptParts ++ [.cmd, .nvm]) [] (by decide) (by decide)) (leaves_refl _ _ y)
  refine ⟨?_, ?_, ?_, ?_⟩
  · exact a.trans (((b _).weaken (by decide) (by decide)).trans ((c _).weaken (by decide) (by decide)))
  · have := (a'.weaken (ps' := [.cmd]) (rs' := []) (by decide) (by decide)).trans
      (((b _).weaken (by decide) (by decide)).trans ((c _).weaken (by decide) (by decide)))
    exact this.1 .cmd (by decide)
  · refine redRest_eq ?_
    unfold closing
    rw [settle_red, guardNvm_red, mirrorChanges_red]
  · intro hp
    unfold closing
    have e : State.guardNvm s x.mirrorChanges = x.mirrorChanges := by
      unfold State.guardNvm
      rw [hp.1, hp.2]
      rfl
    rw [e]
    exact Part.same_trans (a'.1 .nvm (by decide)) ((c _).1 .nvm (by decide))

/-- The end of a row of the table that is no command packet. -/
theorem event_closes (t : Nat) (f : State → State) (s : State) : event t f s = .next (closing s (f (s.begin_ t))) := rfl

/-- A packet that passes the judging order comes to its body. -/
theorem command_accepts {op t : Nat} {p : Packet} {cr : Cred} {s : State} (b : Body) (h : Accepts op t p cr s) :
    command op b t p s = .next (closing s ((taken op t p s).carryOut b (callerOf op p cr) p.params)) := by
  obtain ⟨hb, hm, hsc, hr, ho, hq, hh, ha, hw, hc, hc', had, hk⟩ := h
  show Host.Outcome.next (closing s (State.receive _ _ _ _)) = _
  congr 2
  unfold State.receive
  rw [hb, hm]
  simp only [Bool.not_true, Bool.false_eq_true, if_false, hsc, Bool.false_or]
  have g1 : (flagOrigin p && (s.begin_ t).cacheFailed) = false := by
    cases e : flagOrigin p
    · rfl
    · exact (ho e).1
  have g2 : (flagOrigin p && (s.begin_ t).seenBefore op p) = false := by
    cases e : flagOrigin p
    · rfl
    · exact (ho e).2
  rw [g1, g2]
  simp only [Bool.false_eq_true, if_false]
  rw [hq, hh]
  simp only [Bool.false_eq_true, if_false, if_true, Bool.false_and]
  unfold State.judgeHere
  simp only
  rw [ha]
  simp only [hr, Bool.false_eq_true, if_false]
  have ex : ∀ y : State, y.admits op p cr.perms = none → (((opRow op).map OpRow.kind) != some .f && y.sys.reloading) = false →
      y.execute b op p cr = (if ((opRow op).map OpRow.kind) != some .f then y.pmc 0x002 0 1 else y).carryOut b (callerOf op p cr) p.params := by
    intro y h1 h2
    unfold State.execute
    simp only [h1, h2, Bool.false_eq_true, if_false]
  cases e : flagOrigin p
  · simp only [e, Bool.false_and, Bool.false_eq_true, if_false] at had hk hc hc' ha ⊢
    have h2 := hc' trivial
    simp only [hsc, Bool.false_eq_true, if_false]
    rw [hc]
    simp only
    rw [if_neg (by omega), ex _ had hk]
    unfold taken
    simp only [e, Bool.false_eq_true, if_false]
  · simp only [e, if_true] at had hk hw hc ha ⊢
    rw [hw trivial]
    simp only [Bool.not_true, Bool.and_false, Bool.false_eq_true, if_false, hsc]
    rw [hc]
    simp only
    rw [ex _ had hk]
    unfold taken
    simp only [e, if_true]

theorem emit_same (s : State) (c : Caller) (p : Packet) : (s.emit c p).cmd = s.cmd ∧ (s.emit c p).regs = s.regs ∧ (s.emit c p).red = s.red :=
  State.emit_keep (P := fun w => w.cmd = s.cmd ∧ w.regs = s.regs ∧ w.red = s.red) (fun q hq => by
    simp only [List.mem_cons, List.not_mem_nil, or_false] at hq
    rcases hq with rfl | rfl
    · intro u m off len h
      unfold State.wroteWhole
      split <;> exact h
    · exact fun _ _ h => h) ⟨rfl, rfl, rfl⟩

/-- What caching a reply changes of the command block. -/
theorem cacheReply_cmd (s : State) (c : Caller) (r : List Byte) (b : Bool) :
    (s.cacheReply c r b).cmd = { s.cmd with cache := (s.cacheReply c r b).cmd.cache } := by
  unfold State.cacheReply
  split
  · rfl
  · split
    · rfl
    · dsimp only
      split <;> rfl

theorem reply_cmd (s : State) (c : Caller) (st : Nat) (d : List Byte) : (s.reply c st d).cmd = { s.cmd with cache := (s.reply c st d).cmd.cache } := by
  have h : ∀ y : State, y.cmd = { s.cmd with cache := y.cmd.cache } → ∀ b : Bool, ∀ p : Packet,
      (if b then y.emit c p else y).cmd = { s.cmd with cache := (if b then y.emit c p else y).cmd.cache } := by
    intro y hy b p
    cases b
    · exact hy
    · rw [if_pos rfl, (emit_same y c p).1]
      exact hy
  unfold State.reply
  dsimp only
  refine h _ ?_ _ _
  split
  · rfl
  · exact cacheReply_cmd s c _ _

theorem reply_leaves (s : State) (c : Caller) (st : Nat) (d : List Byte) :
    Leaves (keptParts ++ [.red, .nvm]) [(CMD_CACHE, 0, 1)] s (s.reply c st d) :=
  State.reply_keep (keeps_leaves s _ _ (by decide) (by decide)) (leaves_refl _ _ s)

theorem mapIf_mem {α : Type} {p : α → Bool} {f : α → α} {l : List α} {x : α} (hx : x ∈ l) (hp : p x = true) : f x ∈ mapIf p f l := by
  unfold mapIf
  exact List.mem_map.mpr ⟨x, hx, by simp [hp]⟩

/-- A reply that is kept stands in the reply cache, but with the caches failed. -/
theorem cacheReply_has (s : State) (c : Caller) (r : List Byte) (b : Bool) (hc : c.isScoped = false) :
    s.cacheFailed = true ∨ ∃ e ∈ (s.cacheReply c r b).cmd.cache, e.isFor c = true ∧ e.reply = r ∧ e.report = b := by
  cases h4 : s.cacheFailed
  · refine Or.inr ?_
    unfold State.cacheReply
    simp only [hc, h4, Bool.or_self, Bool.false_eq_true, if_false]
    split
    · next ha =>
      obtain ⟨e, he, hf⟩ := List.any_eq_true.mp ha
      exact ⟨{ e with reply := r, report := b }, mapIf_mem (List.mem_filter.mp he).1 hf, hf, rfl, rfl⟩
    · refine ⟨⟨c.source, c.slot, c.tag, c.opcode, c.paramCrc, r, b, c.counter, _⟩, List.mem_append_right _ (List.mem_singleton.mpr rfl), ?_, rfl, rfl⟩
      simp [Cached.isFor]
  · exact Or.inl rfl

/-- Does an address lie outside an array by its bounds or its alignment? -/
def apart (r : Nat × Nat × Nat) (a : Nat) : Bool :=
  decide (a < r.1) || decide (r.1 + r.2.1 * (r.2.2 - 1) < a) || (a - r.1) % r.2.1 != 0

theorem not_inArray {r : Nat × Nat × Nat} {a : Nat} (h : apart r a = true) (hn : 0 < r.2.2) : ¬ InArray r.1 r.2.1 r.2.2 a := by
  obtain ⟨b, st, n⟩ := r
  rintro ⟨i, rfl⟩
  simp only [apart, Bool.or_eq_true, decide_eq_true_eq, bne_iff_ne] at h hn
  have h1 : i % n < n := Nat.mod_lt _ hn
  have h2 : st * (i % n) ≤ st * (n - 1) := Nat.mul_le_mul_left _ (by omega)
  have h3 : b + st * (i % n) - b = st * (i % n) := by omega
  rcases h with (h | h) | h
  · omega
  · omega
  · rw [h3, Nat.mul_mod_right] at h
    exact h rfl

/-- A register that lies outside the arrays a frame names is as it was. -/
theorem Leaves.rd {ps : List Part} {rs : List (Nat × Nat × Nat)} {s u : State} (h : Leaves ps rs s u) {a : Nat}
    (ha : ((rs ++ logRegs).all fun r => apart r a && decide (0 < r.2.2)) = true) : u.rd a = s.rd a := by
  refine h.2 a fun r hr => ?_
  have := List.all_eq_true.mp ha r hr
  simp only [Bool.and_eq_true, decide_eq_true_eq] at this
  exact not_inArray this.1 this.2

theorem Leaves.fld {ps : List Part} {rs : List (Nat × Nat × Nat)} {s u : State} (h : Leaves ps rs s u) {a : Nat} {f : Fld}
    (ha : ((rs ++ logRegs).all fun r => apart r a && decide (0 < r.2.2)) = true) (hf : f.lo + f.width ≤ 32) : u.fld a f = s.fld a f := by
  rw [State.fld_eq _ _ _ hf, State.fld_eq _ _ _ hf, h.rd ha]

theorem Leaves.memFailed {ps : List Part} {rs : List (Nat × Nat × Nat)} {s u : State} (h : Leaves ps rs s u) (m : Nat)
    (ha : ((rs ++ logRegs).all fun r => apart r MEM_BOOT_STAT && decide (0 < r.2.2)) = true) : u.memFailed m = s.memFailed m := by
  unfold State.memFailed
  rw [h.fld ha (by decide)]

theorem Leaves.cacheFailed {ps : List Part} {rs : List (Nat × Nat × Nat)} {s u : State} (h : Leaves ps rs s u) (hs : Part.sys ∈ ps)
    (ha : ((rs ++ logRegs).all fun r => apart r MEM_BOOT_STAT && decide (0 < r.2.2)) = true) : u.cacheFailed = s.cacheFailed := by
  unfold State.cacheFailed
  rw [h.memFailed 4 ha, h.1 .sys hs]

/-- A reply, but for one with status BUSY or NO_RESOURCE, stands in the reply cache. -/
theorem reply_answered (s : State) (c : Caller) (st : Nat) (d : List Byte) (hc : c.isScoped = false) (h1 : st ≠ stBUSY) (h2 : st ≠ stNO_RESOURCE) :
    s.cacheFailed = true ∨ ∃ e ∈ (s.reply c st d).cmd.cache, e.isFor c = true ∧ e.reply = replyParams st d ∧ e.report = false := by
  have h : ∀ (y : State) (b : Bool) (p : Packet), (if b then y.emit c p else y).cmd = y.cmd := by
    intro y b p
    cases b
    · rfl
    · exact (emit_same y c p).1
  rcases cacheReply_has s c (replyParams st d) false hc with g | g
  · exact Or.inl g
  · refine Or.inr ?_
    unfold State.reply
    dsimp only
    rw [h, if_neg (by simp [h1, h2])]
    exact g

/-- A command whose body answers is answered, and its effect stands. -/
theorem reply_settled (s x : State) (c : Caller) (st : Nat) (d : List Byte) (hc : c.isScoped = false) (h1 : st ≠ stBUSY) (h2 : st ≠ stNO_RESOURCE) :
    Answered c st d (closing s (x.reply c st d)) ∧ Settled s x (closing s (x.reply c st d)) := by
  have k := closing_closed s (x.reply c st d)
  have l := reply_leaves x c st d
  refine ⟨?_, ?_, ?_, ?_, ?_⟩
  · unfold Answered
    rw [k.cmd, k.rest.cacheFailed (by decide) (by decide), l.cacheFailed (by decide) (by decide)]
    exact reply_answered x c st d hc h1 h2
  · exact (l.weaken (by decide) (by decide)).trans (k.rest.weaken (by decide) (by decide))
  · rw [k.cmd]
    exact reply_cmd x c st d
  · have := k.red
    rw [l.1 .red (by decide)] at this
    exact this
  · exact fun hp => Part.same_trans (l.1 .nvm (by decide)) (k.nvm hp)

theorem callerOf_unicast {op : Nat} {p : Packet} {cr : Cred} (h : flagScoped p = false) : (callerOf op p cr).isScoped = false := h

/-- A packet that passes the judging order and whose body answers is answered, and its effect stands. -/
theorem accepts_reply {op t : Nat} {p : Packet} {cr : Cred} {s x : State} {b : Body} {st : Nat} {d : List Byte} (h : Accepts op t p cr s)
    (hb : b (callerOf op p cr) p.params (taken op t p s) = .reply x st d) (h1 : st ≠ stBUSY) (h2 : st ≠ stNO_RESOURCE) :
    ∃ u, command op b t p s = .next u ∧ Answered (callerOf op p cr) st d u ∧ Settled s x u := by
  refine ⟨_, command_accepts b h, ?_⟩
  unfold State.carryOut
  rw [hb]
  exact reply_settled s x _ st d (callerOf_unicast h.2.2.1) h1 h2

/-- The same for a body that begins a long operation: it is answered with ACCEPTED and runs on. -/
theorem accepts_long {op t : Nat} {p : Packet} {cr : Cred} {s x : State} {b : Body} (h : Accepts op t p cr s)
    (hb : b (callerOf op p cr) p.params (taken op t p s) = .long x) :
    ∃ u, command op b t p s = .next u ∧ Answered (callerOf op p cr) stACCEPTED [] u
      ∧ Settled s (x.onCmd fun m => { m with ops := m.ops ++ [⟨callerOf op p cr⟩] }) u := by
  refine ⟨_, command_accepts b h, ?_⟩
  unfold State.carryOut
  rw [hb]
  exact reply_settled s _ _ _ _ (callerOf_unicast h.2.2.1) (by decide) (by decide)

/-- The same for a body that answers later: the command waits for Porter's reply, but for a HUB_ORIGIN packet. -/
theorem accepts_quiet {op t : Nat} {p : Packet} {cr : Cred} {s x : State} {b : Body} (h : Accepts op t p cr s)
    (hb : b (callerOf op p cr) p.params (taken op t p s) = .quiet x) (hk : (opRow op).map OpRow.kind = some .p) (ho : flagOrigin p = false) :
    ∃ u n, command op b t p s = .next u ∧ Settled s (x.onCmd fun m => { m with inflight := m.inflight ++ [(callerOf op p cr, n)] }) u := by
  have g : ∀ y : State, y.now = x.now → y.cmd = { x.cmd with cache := y.cmd.cache } → Leaves (keptParts ++ [.red, .nvm]) [(CMD_CACHE, 0, 1)] x y →
      Settled s (x.onCmd fun m => { m with inflight := m.inflight ++ [(callerOf op p cr, x.now)] })
        (closing s (y.onCmd fun m => { m with inflight := m.inflight ++ [(callerOf op p cr, y.now)] })) := by
    intro y hn hc hl
    have k := closing_closed s (y.onCmd fun m => { m with inflight := m.inflight ++ [(callerOf op p cr, y.now)] })
    have l2 : Leaves (keptParts ++ [.red, .nvm]) [(CMD_CACHE, 0, 1)] (x.onCmd fun m => { m with inflight := m.inflight ++ [(callerOf op p cr, x.now)] })
        (y.onCmd fun m => { m with inflight := m.inflight ++ [(callerOf op p cr, y.now)] }) := by
      refine ⟨fun q hq => ?_, fun a ha => hl.2 a ha⟩
      have := hl.1 q hq
      cases q <;> first | exact this | exact absurd hq (by decide)
    refine ⟨?_, ?_, ?_, ?_⟩
    · exact (l2.weaken (by decide) (by decide)).trans (k.rest.weaken (by decide) (by decide))
    · rw [k.cmd]
      show ({ y.cmd with inflight := _ } : Cmd) = _
      rw [hc, hn]
      rfl
    · have := k.red
      rw [l2.1 .red (by decide)] at this
      exact this
    · exact fun hp => Part.same_trans (l2.1 .nvm (by decide)) (k.nvm hp)
  refine ⟨_, x.now, command_accepts b h, ?_⟩
  unfold State.carryOut
  rw [hb]
  have hk' : ((opRow (callerOf op p cr).opcode).map OpRow.kind == some Kind.p && !(callerOf op p cr).origin) = true := by
    show ((opRow op).map OpRow.kind == some Kind.p && !flagOrigin p) = true
    rw [hk, ho]
    rfl
  simp only [hk', if_true]
  split
  · exact g x rfl rfl (leaves_refl _ _ x)
  · have nw : ∀ (y : State) (c : Caller) (r : List Byte) (b : Bool), (y.cacheReply c r b).now = y.now := by
      intro y c r b
      unfold State.cacheReply
      split
      · rfl
      · split
        · rfl
        · dsimp only
          split <;> rfl
    exact g _ (nw _ _ _ _) (cacheReply_cmd x _ _ _) (State.cacheReply_keep (keeps_leaves x _ _ (by decide) (by decide)) (leaves_refl _ _ x))

/-- The kinds of change that any command packet without REPLY may make beside those of its body. -/
def packetPrims : List Prim :=
  [.qm, .log, .guard, .time, .free, .fresh, .mend, .cmd, .red, .nvm, .arr RED_MIRROR 0 1, .arr CMP_ERR 0 1, .arr CMD_SPI_CTRL 0 1]
    ++ [.arr CMD_ERR 0 1, .arr CMD_CACHE 0 1, .arr CMD_STAT 0 1, .arr (CMD_SLOT_CTR 0) 16 16]

theorem judge_keep {P : State → Prop} (k : Keeps packetPrims P) {s : State} {b : Body} {op : Nat} {p : Packet} (hr : flagReply p = false) (h : P s)
    (hb : ∀ c ps s, P s → Res.Holds P (b c ps s)) : P (s.judgeHere b op p) := by
  unfold State.judgeHere
  split
  · exact State.authFail_keep k.sub h
  · extract_lets +onlyGivenNames x0
    have e0 : P x0 := State.pmc_keep k.sub h
    clear_value x0
    rw [hr]
    simp only [Bool.false_eq_true, if_false]
    split
    · exact bump_keep k CMD_STAT 0 1 ⟨0, rfl⟩ e0
    · split
      · split
        · exact e0
        · exact State.emit_keep k.sub e0
      · split
        · exact State.execute_keep k.sub e0 hb
        · split
          · have e3 := State.noteReplay_keep (a2 := p) k.sub e0
            split
            · exact State.emit_keep k.sub e3
            · exact e3
          · exact State.execute_keep k.sub (State.acceptCtr_keep k.sub e0) hb

/-- The part a relaying hub takes changes the ledger for RELEASE alone. -/
theorem relayAct_keep {P : State → Prop} (k : Keeps packetPrims P) {s : State} {b : Body} {op : Nat} {p : Packet} (h : P s)
    (hl : op = 0x8003 → ∀ l s, P s → P (State.ledgerAdd s l)) (hb : ∀ c ps s, P s → Res.Holds P (b c ps s)) : P (s.relayAct b op p) := by
  unfold State.relayAct
  split
  · exact h
  · split
    · exact State.noteAuthFail_keep k.sub h
    · extract_lets +onlyGivenNames x0
      have e0 : P x0 := State.pmc_keep k.sub h
      clear_value x0
      split
      · exact bump_keep k CMD_STAT 0 1 ⟨0, rfl⟩ e0
      · split
        · exact State.noteReplay_keep k.sub e0
        · extract_lets +onlyGivenNames x1
          have e1 : P x1 := by
            unfold x1
            split
            · exact e0
            · exact State.acceptCtr_keep k.sub e0
          clear_value x1
          extract_lets +onlyGivenNames x2
          split
          · exact e1
          · split
            · split
              · exact hl ‹_› _ _ e1
              · exact e1
            · split
              · exact e1
              · have e := hb (callerOf op p ‹Cred›) p.params x1 e1
                revert e
                generalize b (callerOf op p ‹Cred›) p.params x1 = r
                intro e
                cases r
                · dsimp only
                  split
                  · exact e
                  · exact State.reply_keep k.sub e
                · exact e
                · exact e

theorem take_keep {P : State → Prop} (k : Keeps packetPrims P) {s : State} {b : Body} {op : Nat} {p : Packet} (hr : flagReply p = false) (h : P s)
    (hl : op = 0x8003 → ∀ l s, P s → P (State.ledgerAdd s l))
    (hb : ∀ c ps s, P s → Res.Holds P (b c ps s)) : P (s.receive b op p) := by
  unfold State.receive
  split
  · split
    · exact setBit_keep k CMD_SPI_CTRL 0 1 ⟨0, rfl⟩ h
    · exact h
  · split
    · exact bump_keep k CMD_ERR 0 1 ⟨0, rfl⟩ h
    · extract_lets +onlyGivenNames x0
      split
      · exact h
      · split
        · exact bump_keep k CMD_CACHE 0 1 ⟨0, rfl⟩ h
        · extract_lets +onlyGivenNames x1
          have e1 : P x1 := by
            unfold x1
            split
            · exact State.see_keep k.sub h
            · exact h
          clear_value x1
          split
          · exact State.toQ61_keep k.sub e1
          · split
            · split
              · exact e1
              · refine judge_keep k hr ?_ hb
                split
                · exact State.relay_keep k.sub e1
                · exact e1
            · refine State.relay_keep k.sub ?_
              split
              · exact relayAct_keep k e1 hl hb
              · exact e1

/-- What a command packet without REPLY may change: what any may, what its body may, and for RELEASE the ledger. -/
theorem packet_frame {P : State → Prop} (k : Keeps packetPrims P) {op t : Nat} {b : Body} {p : Packet} {s : State} (hr : flagReply p = false)
    (h : P s) (hb : ∀ c ps s, P s → Res.Holds P (b c ps s)) (hl : op = 0x8003 → ∀ l s, P s → P (State.ledgerAdd s l)) :
    ∀ u, command op b t p s = .next u → P u := by
  unfold command
  exact done_keep k.sub (State.guardNvm_keep k.sub h (State.mirrorChanges_keep k.sub (take_keep k hr (State.begin__keep k.sub h) hl hb)))

/-- How a row of a command packet is shown to complete: by what its body answers under its conditions. -/
theorem completes_of {op : Nat} {row : Nat → Packet → Instr} {b : Body} {cond : Caller → List Byte → State → Prop} {st : Nat}
    {data : Caller → List Byte → State → List Byte} {eff : Caller → List Byte → State → State}
    (hr : ∀ t p s, exec (row t p) s = command op b t p s) (hb : ∀ c ps x, cond c ps x → b c ps x = .reply (eff c ps x) st (data c ps x))
    (h1 : st ≠ stBUSY) (h2 : st ≠ stNO_RESOURCE) : Completes op row cond st data eff := by
  intro t p cr s h c x hc y u
  have hs : flagScoped p = false := h.2.2.1
  refine ⟨?_, reply_settled s y c st (data c p.params x) hs h1 h2⟩
  rw [hr, command_accepts b h]
  unfold State.carryOut
  rw [hb _ _ _ hc]

/-- How a row that begins a long operation is shown to complete. -/
theorem completes_long {op : Nat} {row : Nat → Packet → Instr} {b : Body} {cond : Caller → List Byte → State → Prop}
    {eff : Caller → List Byte → State → State} (hr : ∀ t p s, exec (row t p) s = command op b t p s)
    (hb : ∀ c ps x, cond c ps x → b c ps x = .long (eff c ps x)) :
    Completes op row cond stACCEPTED (fun _ _ _ => []) fun c ps x => started c (eff c ps x) := by
  intro t p cr s h c x hc y u
  refine ⟨?_, reply_settled s y c stACCEPTED [] h.2.2.1 (by decide) (by decide)⟩
  rw [hr, command_accepts b h]
  unfold State.carryOut
  rw [hb _ _ _ hc]
  rfl

/-- How a row that is answered later is shown to complete. -/
theorem completes_later {op : Nat} {row : Nat → Packet → Instr} {b : Body} {cond : Caller → List Byte → State → Prop}
    {eff : Caller → List Byte → State → State} (hr : ∀ t p s, exec (row t p) s = command op b t p s)
    (hb : ∀ c ps x, cond c ps x → b c ps x = .quiet (eff c ps x)) (hk : (opRow op).map OpRow.kind = some .p) :
    CompletesLater op row cond eff := by
  intro t p cr s h ho c x hc
  rw [hr]
  exact accepts_quiet h (hb _ _ _ hc) hk ho

/-- How any other row is shown to come about: by its function under its condition. -/
theorem occurs_of {row : Nat → Instr} {f : State → State} {due : State → Prop} {eff : State → State}
    (hr : ∀ t s, exec (row t) s = event t f s) (hf : ∀ x, due x → f x = eff x) : Occurs row due eff := by
  intro t s hd y
  refine ⟨?_, closing_closed s y⟩
  rw [hr, event_closes, hf _ hd]

/-- Time that passes leaves supply power as it is. -/
theorem begin_powered (s : State) (t : Nat) (h : Powered (s.begin_ t)) : Powered s := by
  have e := State.begin__keep (a2 := t) (keeps_part s .sys) (Part.same_refl .sys s)
  unfold Powered at h
  rw [e] at h
  exact h

/-- How any other row is shown to yield what its statement says: by what holds of every state that the end of the row makes of its
function's. -/
theorem yields_of {row : Nat → Instr} {f : State → State} {due : State → Prop} {holds : State → State → Prop}
    (hr : ∀ t s, exec (row t) s = event t f s) (hf : ∀ s x u, due x → (Powered x → Powered s) → Closed s (f x) u → holds x u) :
    Yields row due holds := fun t s hd =>
  ⟨_, (hr t s).trans (event_closes t f s), hf s _ _ hd (begin_powered s t) (closing_closed s _)⟩

/-- How a row that has no reply is shown to complete. -/
theorem completes_silent {op : Nat} {row : Nat → Packet → Instr} {b : Body} {cond : Caller → List Byte → State → Prop}
    {eff : Caller → List Byte → State → State} (hr : ∀ t p s, exec (row t p) s = command op b t p s)
    (hb : ∀ c ps x, cond c ps x → b c ps x = .quiet (eff c ps x)) (hk : (opRow op).map OpRow.kind ≠ some .p) : CompletesSilently op row cond eff := by
  intro t p cr s h c x hc
  have g : ∀ y : State, y.cmd = { (eff c p.params x).cmd with cache := y.cmd.cache } →
      Leaves (keptParts ++ [.red, .nvm]) [(CMD_CACHE, 0, 1)] (eff c p.params x) y → Settled s (eff c p.params x) (closing s y) := by
    intro y hy hl
    have k := closing_closed s y
    refine ⟨(hl.weaken (by decide) (by decide)).trans (k.rest.weaken (by decide) (by decide)), ?_, ?_, ?_⟩
    · rw [k.cmd]
      exact hy
    · have := k.red
      rw [hl.1 .red (by decide)] at this
      exact this
    · exact fun hp => Part.same_trans (hl.1 .nvm (by decide)) (k.nvm hp)
  refine ⟨_, (hr t p s).trans (command_accepts b h), ?_⟩
  unfold State.carryOut
  rw [hb _ _ _ hc]
  have hk' : ((opRow (callerOf op p cr).opcode).map OpRow.kind == some Kind.p && !(callerOf op p cr).origin) = false := by
    show ((opRow op).map OpRow.kind == some Kind.p && _) = false
    rw [beq_false_of_ne hk]
    rfl
  simp only [hk', Bool.false_eq_true, if_false]
  split
  · exact g _ rfl (leaves_refl _ _ _)
  · exact g _ (cacheReply_cmd _ _ _ _) (State.cacheReply_keep (keeps_leaves _ _ _ (by decide) (by decide)) (leaves_refl _ _ _))

end Sys2Proof
end

