-- ==== Sys2Proof/Machine/Package.lean ====
section
/-!
DEFINITION. The ball map of the package (18_electrical_and_package.md R531 to R537): what each of its 52 × 52 balls carries. No command
acts on it.
-/

namespace Sys2Proof.Machine

/-- What a ball carries: a channel input, excitation, sense, VCM and auxiliary pins, a lane line, a DRAM signal of a channel, another signal,
or a supply. -/
inductive Ball where
  | ch (c : Nat) (neg : Bool)
  | exc (b : Nat)
  | exs (b : Nat)
  | vcm (k : Nat)
  | aux (n : Nat)
  | tx (lane : Nat) (neg : Bool)
  | rx (lane : Nat) (neg : Bool)
  | dram (channel : Nat) (signal : String)
  | signal (name : String)
  | supply (name : String)
  deriving DecidableEq, Repr

/-- VSS. -/
def vss : Ball := .supply "VSS"

/-- Die `k`'s ball at depth `d` and position `p` (R532). -/
def frontBall (k d p : Nat) : Ball :=
  if d < 8 then .ch (128 * k + 8 * (p / 2) + d) (p % 2 == 1)
  else if d = 8 then if p % 2 = 0 then .exc (16 * k + p / 2) else .exs (16 * k + p / 2)
  else if p = 31 then .vcm k
  else if p % 4 = 1 then .supply "VDD_AFE"
  else if p % 4 = 3 then .supply "VDD_AFEH"
  else vss

/-- A ball of the lane rows, `r` rows below row L and `x` columns right of column 11 (R533). -/
def laneBall (r x : Nat) : Ball :=
  let q := r / 4
  if r % 4 < 2 then if x % 4 = 1 then .tx (8 * q + x / 4) (r % 4 == 1) else vss
  else if x % 4 = 3 then .rx (8 * q + x / 4) (r % 4 == 3) else vss

/-- A ball of rows AH to BD in columns 11 to 42, by row index and column (R534). -/
def coreBall (row col : Nat) : Ball :=
  if row = 26 ∨ row = 28 then if col % 2 = 1 then .supply "VDD_SDA" else vss
  else if row = 27 ∨ row = 29 then if col % 2 = 0 then .supply "VDD_SDT" else vss
  else if (row + col) % 2 = 0 then vss
  else if row = 41 then .supply "VDD_AON"
  else if col ≤ 18 then .supply "VDD_SRAM"
  else .supply "VDD_CORE"

/-- The signals of a row of the top-right corner, from column 43 on (Table 18-11). -/
def cornerRow (row : Nat) : List String :=
  match row with
  | 0 => ["FP0_IO0", "FP0_IO1", "FP0_IO2", "FP0_IO3", "", "FP1_IO0", "FP1_IO1", "FP1_IO2", "FP1_IO3"]
  | 1 => ["FP2_IO0", "FP2_IO1", "FP2_IO2", "FP2_IO3", "", "FP3_IO0", "FP3_IO1", "FP3_IO2", "FP3_IO3"]
  | 2 => ["TRIP0", "TRIP1", "TRIP2", "TRIP3", "TRIP4", "TRIP5", "TRIP6", "TRIP7"]
  | 3 => ["TRIP8", "TRIP9", "TRIP10", "TRIP11", "TRIP12", "TRIP13", "TRIP14", "TRIP15"]
  | 4 => ["FOUT0", "FOUT1", "FOUT2", "FOUT3", "FOUT4", "FOUT5", "FOUT6", "FOUT7"]
  | 5 => ["TRIG_IN0", "TRIG_IN1", "TRIG_IN2", "TRIG_IN3", "PPS_A", "PPS_B", "REFCLK_IN"]
  | 6 => ["SPI_SCLK", "SPI_MOSI", "SPI_MISO", "SPI_CS_N", "IRQ_N", "RESET_N", "PFW_N", "CON_TXD", "CON_RXD"]
  | 7 => ["QSPI_SCLK", "QSPI_CS_N", "QSPI_IO0", "QSPI_IO1", "QSPI_IO2", "QSPI_IO3"]
  | 8 => ["TCK", "TMS", "TDI", "TDO", "TRST_N"]
  | _ => ["MODA_SCL", "MODA_SDA", "MODB_SCL", "MODB_SDA"]

/-- A ball of the top-right corner, `x` columns right of column 43 (R535, Table 18-11). -/
def cornerBall (row x : Nat) : Ball :=
  if x = 9 then .supply (if 6 ≤ row ∧ row ≤ 8 then "VDD_IO18" else "VDD_IO33")
  else match (cornerRow row)[x]? with
    | some n => if n = "" then vss else .signal n
    | none => vss

/-- A ball of the top-left corner (R535). -/
def auxBall (row col : Nat) : Ball :=
  if row = 1 ∧ 2 ≤ col ∧ col ≤ 9 then .aux (col - 2)
  else if row = 3 ∧ 2 ≤ col ∧ col ≤ 9 then .aux (col + 6)
  else if row = 6 ∧ 4 ≤ col ∧ col ≤ 7 then .supply "VDD_XO"
  else vss

/-- The rows of Table 18-12 from row BE down to row BP, column 1 first; "V", "Q" and "2" are VSS, VDD_DDQ and VDD_DD2. -/
def dramRow (r : Nat) : List String :=
  match r with
  | 0 => ["CS_B", "CKE_B", "RESET_N", "ZQ", "V", "2", "V", "Q", "V", "2"]
  | 1 => ["CK_A_T", "CK_A_C", "V", "CS_A", "CKE_A", "2", "CK_B_T", "CK_B_C", "V", "2"]
  | 2 => ["DQS3_T", "DQS3_C", "V", "DMI3", "Q", "CA_B3", "CA_B4", "CA_B5", "V", "2"]
  | 3 => ["DQ24", "DQ25", "DQ26", "DQ27", "V", "DQ28", "DQ29", "DQ30", "DQ31", "Q"]
  | 4 => ["DQS2_T", "DQS2_C", "V", "DMI2", "Q", "CA_B0", "CA_B1", "CA_B2", "V", "2"]
  | 5 => ["DQ16", "DQ17", "DQ18", "DQ19", "V", "DQ20", "DQ21", "DQ22", "DQ23", "Q"]
  | 6 => ["DQS1_T", "DQS1_C", "V", "DMI1", "Q", "CA_A3", "CA_A4", "CA_A5", "V", "2"]
  | 7 => ["DQ8", "DQ9", "DQ10", "DQ11", "V", "DQ12", "DQ13", "DQ14", "DQ15", "Q"]
  | 8 => ["DQS0_T", "DQS0_C", "V", "DMI0", "Q", "CA_A0", "CA_A1", "CA_A2", "V", "2"]
  | _ => ["DQ0", "DQ1", "DQ2", "DQ3", "V", "DQ4", "DQ5", "DQ6", "DQ7", "Q"]

/-- A ball of the DRAM corner of a channel, by row from row BE on and the column of Table 18-12 (R536). -/
def dramBall (channel r col : Nat) : Ball :=
  match (dramRow r).getD (col - 1) "V" with
  | "V" => vss
  | "Q" => .supply "VDD_DDQ"
  | "2" => .supply "VDD_DD2"
  | n => .dram channel n

/-- What the ball at a row index of 0 to 51 and a column of 1 to 52 carries (R531 to R536). -/
def ballAt (row col : Nat) : Ball :=
  if row < 10 then if col ≤ 10 then auxBall row col else if col ≤ 42 then frontBall 0 row (col - 11) else cornerBall row (col - 43)
  else if row < 42 then
    if col ≤ 10 then frontBall 3 (col - 1) (row - 10)
    else if col ≤ 42 then if row < 26 then laneBall (row - 10) (col - 11) else coreBall row col
    else frontBall 1 (52 - col) (row - 10)
  else if col ≤ 10 then dramBall 0 (row - 42) col
  else if col ≤ 42 then frontBall 2 (51 - row) (col - 11)
  else dramBall 1 (row - 42) (53 - col)

/-- The balls that pass a test, of all the package carries. -/
def ballCount (f : Ball → Bool) : Nat :=
  (List.range 52).foldl (fun n r => n + ((List.range 52).filter fun c => f (ballAt r (c + 1))).length) 0

end Sys2Proof.Machine
end

