-- ==== Sys2Proof/WellFormed.lean ====
section
/-!
DEFINITION. Well-formed commands: every operand fits the field of the manual it stands for. The meanings take any
operands; a sender of well-formed commands sends only what the hub's pins and links can carry.
-/

namespace Sys2Proof

/-- Does a number fit `w` bits? -/
def fits (w n : Nat) : Bool := decide (n < 2 ^ w)

/-- A packet as its header fields can hold it (12_command_packets.md Table 12-1). -/
def Packet.wf (p : Packet) : Bool :=
  decide (p.arrival ≤ 8) && fits 8 p.version && fits 8 p.flags && fits 16 p.tag && fits 16 p.source && fits 16 p.dest
    && fits 16 p.length && fits 16 p.slot && fits 16 p.rsvd14 && fits 32 p.counter && fits 8 p.ttl && fits 8 p.b21
    && p.rsvd22.length == 10

/-- One domain of a time cell (05_time_base.md Table 05-3). -/
def TimeCellDom.wf (d : TimeCellDom) : Bool :=
  fits 64 d.txTime && fits 64 d.rxTime && fits 16 d.rxSeq && fits 8 d.flags && fits 8 d.hops && fits 24 d.secHigh
    && decide (-32768 ≤ d.taiUtc) && decide (d.taiUtc < 32768) && fits 16 d.root

/-- A time cell. -/
def TimeCell.wf (c : TimeCell) : Bool := fits 16 c.seq && fits 11 c.sender && c.domA.wf && c.domB.wf

/-- A block (11_serial_lanes_and_syrilink.md R327). -/
def Block.wf (b : Block) : Bool := fits 2 b.lane && fits 2 b.sync

/-- A fault of a lane: at most 64 sync headers of two bits (R336). -/
def LaneFault.wf : LaneFault → Bool
  | .sync hs => decide (hs.length ≤ 64) && hs.all (fits 2)
  | _ => true

/-- What a module answered: four lanes (R359). -/
def ModuleRead.wf (r : ModuleRead) : Bool :=
  fits 8 r.ident && fits 4 r.los && fits 16 r.temp && r.bias.length == 4 && r.tx.length == 4 && r.rx.length == 4

/-- A LINK block (11_serial_lanes_and_syrilink.md Table 11-2). -/
def LinkBlock.wf (b : LinkBlock) : Bool := fits 2 b.lane && fits 16 b.ack && fits 8 b.credC && fits 8 b.credT && fits 8 b.credS && fits 8 b.credB

/-- A link state (Table 11-8): eight ports. -/
def LinkState.wf (l : LinkState) : Bool :=
  fits 11 l.origin && fits 16 l.generation && fits 8 l.head && l.ports.length == 8 && l.ports.all fun p => fits 4 p.role

/-- A heartbeat (13_head_redundancy.md Table 13-4). -/
def Heartbeat.wf (h : Heartbeat) : Bool :=
  fits 11 h.sender && fits 11 h.dest && fits 8 h.path && fits 32 h.seq && fits 8 h.state && fits 8 h.flags && fits 16 h.witness
    && fits 32 h.epoch && fits 16 h.leaseMs && fits 32 h.mirrorSeq && fits 64 h.st64

/-- A mirror cell: one to seven items of 32 bytes. -/
def MirrorCell.wf (m : MirrorCell) : Bool :=
  fits 11 m.sender && fits 11 m.dest && fits 8 m.path && fits 32 m.firstSeq && fits 8 m.itemType && decide (1 ≤ m.items.length)
    && decide (m.items.length ≤ 7) && m.items.all fun i => i.length == 32

/-- A digest cell. -/
def DigestCell.wf (d : DigestCell) : Bool :=
  fits 11 d.sender && fits 11 d.dest && fits 8 d.path && fits 32 d.cutoff && fits 32 d.digest && fits 32 d.entries && fits 64 d.st64

/-- TRAIN IDENT content (11_serial_lanes_and_syrilink.md Table 11-4). -/
def Ident.wf (i : Ident) : Bool := fits 11 i.addr && fits 3 i.port && fits 4 i.role && fits 2 i.rate && fits 2 i.width && fits 4 i.lockMask

/-- The operands of a command fit their fields. (DESIGN CHOICE, log entry 7). -/
def Instr.wf : Instr → Bool
  | .memoryFillDone _ r => fits 5 r.fillFailed && r.answers.length == 6 && fits 16 r.fillMs && fits 8 r.deskewFailed
  | .timeBlockReceived _ _ seq => fits 16 seq
  | .timeCellReceived _ _ cell => cell.wf
  | .cellReceived _ _ blocks => blocks.all Block.wf
  | .linkBlockReceived _ _ b => b.wf
  | .linkStateReceived _ _ ls => ls.wf
  | .trainIdentReceived _ _ i => i.wf
  | .trainReadyReceived _ _ markers => markers.length == 4 && markers.all fun m => m.all fun m => fits 2 m.lane && fits 3 m.port
  | .laneLost _ _ f => f.wf
  | .modulePoll _ _ r => r.wf
  | .restripeReceived _ _ mask _ => fits 4 mask
  | .heartbeatReceived _ _ h => h.wf
  | .mirrorReceived _ _ m => m.wf
  | .digestReceived _ _ d => d.wf
  | .packetRelay _ op p | .replyReceived _ op p | .commandTimeout _ op p => fits 16 op && p.wf
  | .spiRegRead _ addr n => fits 32 addr && fits 8 n
  | .spiRegWrite _ addr ws => fits 32 addr && fits 8 ws.length
  | .spiPktWrite _ bytes crc _ => fits 16 bytes.length && fits 32 crc
  | .nextAddrWrite _ a => fits 11 a
  | .registerWrite _ _ addr _ => fits 32 addr
  | .dramTempPoll _ m => fits 8 m
  | .ping _ p | .identify _ p | .setPowerState _ p | .regRead _ p | .regWrite _ p | .regRead64 _ p | .softReset _ p
  | .updateBegin _ p | .updateData _ p | .updateCommit _ p | .updateActivate _ p | .logRead _ p | .logMark _ p
  | .sensorRead _ p | .abort _ p | .chConfig _ p | .chQuery _ p | .bayExcitation _ p | .chTestInject _ p
  | .clampStatus _ p | .bayMode _ p | .transomSequence _ p | .transomUrgent _ p | .chainConfig _ p | .detectorConfig _ p
  | .streamEnable _ p | .timeRead _ p | .timeDomainConfig _ p | .timeSelectDomain _ p | .timeSchedule _ p
  | .timeAsymmetrySet _ p | .timeStatus _ p | .tiuRoute _ p | .freqMeasure _ p _ | .stampRead _ p | .triggerConfig _ p
  | .paneOpen _ p | .paneClose _ p | .triggerAnnounce _ p | .historyExtract _ p | .measureConfig _ p
  | .fieldPortConfig _ p | .fieldDecoderConfig _ p | .tripConfig _ p | .foutConfig _ p | .tripReset _ p
  | .queueConfig _ p | .queueStatus _ p | .release _ p | .retentionConfig _ p | .shutter _ p | .shutterOpen _ p
  | .cmpConfig _ p | .cmpJob _ p | .cmpFlush _ p | .portConfig _ p | .portStatus _ p | .laneEyeScan _ p | .lanePattern _ p
  | .laneLoopback _ p | .portRetrain _ p | .credInstall _ p | .credRevoke _ p | .credStatus _ p | .headConfig _ p
  | .headStatus _ p | .latchRequest _ p | .latchRenew _ p | .latchRelease _ p | .headDrill _ p | .scrub _ p
  | .memStatus _ p | .memInject _ p | .pmcConfig _ p | .pmcRead _ p | .pmcDumpConfig _ p | .calRun _ p | .calStatus _ p
  | .calCoeffRead _ p | .calPolicy _ p => p.wf
  | .powerOn _ | .resetNPulse _ _ | .supplyBrownout _ _ | .pfwNFall _ | .pfwRecoveryReset _ | .bootOk _ _ | .bootTimeout _ |
    .watchdogExpiry _ | .lockstepMismatch _ | .powerTransitionDone _ | .sensorPoll _ | .bbAllowanceRefill _ |
    .configStoreWrite _ | .consoleStatusQuery _ _ | .crystalSecond _ _ | .incrementBoundary _ | .holdoverEntry _ _ |
    .ppsEdge _ _ _ | .todMessage _ _ _ _ | .timedActionLaunch _ _ | .edgeStamp _ _ _ _ | .loopUnlock _ _ _ |
    .vernierCalDone _ _ _ _ | .freqGateOpen _ _ | .freqGateClose _ _ | .rawCodeArrival _ _ _ | .chargeReset _ _ |
    .clampOnset _ _ _ | .excLimit _ _ | .pilotWindow _ _ _ | .testTick _ _ | .injectOppositeEdge _ _ |
    .outputSampleDelivered _ _ _ _ | .streamStart _ _ | .timeTrigger _ _ | .tripStale _ _ | .tripMinOnExpiry _ _ |
    .paneHeldTime _ _ | .paneCut _ _ | .extractServe _ _ _ | .historyRepartition _ | .burstWindowWake _ _ | .burstWindowEnd _ _ |
    .reliefCompareEnd _ _ _ | .bayCalibrationDone _ _ _ | .transomPeriodTrigger _ | .trigInEdge _ _ _ | .transomEntryDone _ _ |
    .transomCalibrationDone _ | .fieldPortPoll _ _ | .frameReceived _ _ _ _ | .pushResumed _ _ | .spill _ _ |
    .retentionReturn _ _ | .rewindTimeout _ _ | .rewindApply _ _ | .shutterExpiry _ _ | .eventRecordClose _ |
    .cmpRecordDone _ _ | .cmpJobDone _ _ _ | .cmpFlushDrained _ | .portTrainingStart _ _ | .trainingTimeout _ _ |
    .trainingRestart _ _ | .mismatchRetry _ _ | .laneReadmitted _ _ _ _ | .idleFreeze _ _ | .idleRefresh _ _ |
    .egressCellStart _ _ | .linkBlockSend _ _ | .replayTimeout _ _ | .linkStateRefresh _ | .linkStateExpiry _ _ |
    .transitHoldExpiry _ | .eyeScanDone _ _ _ | .seenCacheExpiry _ | .replyCacheExpiry _ | .spiStatus _ | .spiPktRead _ _ |
    .spiFrameIgnored _ _ | .heartbeatSend _ | .pathFailed _ _ | .pathRestored _ _ | .latchRenewSend _ | .leaseExpiry _ |
    .latchRequestSend _ | .startHoldoffExpiry _ | .witnessLeaseExpiry _ _ | .quietPeriodEnd _ _ | .mirrorResend _ |
    .mirrorStateRefresh _ | .digestSend _ | .digestTimeout _ | .ledgerReplaySend _ | .switchoverTimeout _ | .drillDone _ |
    .scrubDone _ | .calPeriodExpiry _ _ | .calGroupStart _ _ | .calGroupDone _ _ _ _ | .calRetry _ _ | .pmcDump _ |
    .jtagInstruction _ _ | .tbIncrCommit _ _ _ _ | .anchorGo _ _ | .timedActionArm _ _ _ | .timedActionCancel _ _ |
    .transomStart _ | .transomCommit _ | .engineArmWrite _ _ _ | .tripLock _ | .consoleLock _ | .pmcClear _ |
    .pmcToneWrite _ _ _ | .updateCommitDone _ | .pfwNRise _ | .imageLoadDone _ | .porterReloadDone _ _ | .loopRelock _ _ |
    .excitationPeriod _ _ _ | .checkerLockChange _ _ _ | .resetAfterReply _ | .newScanSetting _ _ => true

end Sys2Proof
end

