-- ==== Sys2Proof/Tests/Slice0.lean ====
section
/-!
SUPPORT. Tests: one step each against the manual; terms that are not well formed; and for every statement of
Certificates/Slice0/Obligations.lean a state and operands that meet the hypotheses of each of its clauses.
-/

namespace Sys2Proof.Tests

set_option Elab.async false

open Sys2Proof.Machine Sys2Proof.Machine.Reg Sys2Proof.Machine.Bits

/-- A packet that passes the judging order meets `cond`. -/
def Meets (op : Nat) (cond : Caller → List Byte → State → Prop) : Prop :=
  ∃ t p cr s, Accepts op t p cr s ∧ cond (callerOf op p cr) p.params (taken op t p s)

/-- The same of a packet without HUB_ORIGIN. -/
def MeetsHost (op : Nat) (cond : Caller → List Byte → State → Prop) : Prop :=
  ∃ t p cr s, Accepts op t p cr s ∧ flagOrigin p = false ∧ cond (callerOf op p cr) p.params (taken op t p s)

/-- At some instant of some state an event is due. -/
def Comes (due : State → Prop) : Prop := ∃ t, ∃ s : State, due (s.begin_ t)

/-- The key of the bench's credential, bytes 00 to 0F. -/
def benchKey : List Byte := (List.range 16).map byte

/-- The bench's credential in slot 0, with every permission. -/
def benchCred : Cred := ⟨true, benchKey, 0xFFF, 65536⟩

/-- A hub at address 0 that runs in ACTIVE, with the bench's credential. -/
def bench : State :=
  (((State.reset.onNvm fun n => { n with creds := benchCred :: n.creds.drop 1 }).onSys fun y => { y with phase := .running }).setFld SYS_PWR_STATE
    SYS_PWR_STATE_CURRENT 3).setFld SYS_HUB_ADDR SYS_HUB_ADDR_VALID 1

/-- The instant at which the bench's commands arrive and its events fall due: some 2,400 s after reset. -/
def noon : Nat := 1000000000000000

/-- A command from the service SPI with parameters `ps`, less its tag. -/
def blank (ps : List Byte) : Packet := ⟨8, 1, 0, 7, 7 * 2048, 0, ps.length, 0, 0, 1, 64, 0, List.replicate 10 0#8, ps, []⟩

/-- The command authentic under the bench's key. -/
def ask (op : Nat) (ps : List Byte) : Packet := { blank ps with mac := packetMac benchKey op (blank ps) }

/-- What is left of `Accepts` for such a packet. -/
def takes (op : Nat) (ps : List Byte) (s : State) : Bool :=
  let p := ask op ps
  let x := s.begin_ noon
  let y := (x.pmc 0xB01 0 1).acceptCtr 0 1
  x.booted && !x.malformed p && !x.forSpiHost p && x.forHere p && decide (x.cred 0 = some benchCred)
    && ((x.pmc 0xB01 0 1).cached.find? fun e => e.isFor (callerOf op p benchCred)).isNone && decide ((x.pmc 0xB01 0 1).lastCtr (ask op ps).slot < (ask op ps).counter)
    && (y.admits op p 0xFFF).isNone && !(((opRow op).map OpRow.kind) != some .f && y.sys.reloading)

theorem header_alike (op : Nat) (p : Packet) (m : List Byte) : headerBytes op { p with ttl := 0, mac := m } = headerBytes op { p with ttl := 0 } := by
  cases p
  simp only [headerBytes]

theorem ask_mac (op : Nat) (ps : List Byte) : packetMac benchKey op (ask op ps) = (ask op ps).mac := by
  simp only [ask, packetMac, header_alike]

theorem ask_scoped (op : Nat) (ps : List Byte) : flagScoped (ask op ps) = false := by
  have h : (ask op ps).dest = 0 := rfl
  unfold flagScoped
  rw [h]
  rfl

theorem ask_flags (op : Nat) (ps : List Byte) : flagReply (ask op ps) = false ∧ flagOrigin (ask op ps) = false := by
  have h : (ask op ps).flags = 0 := rfl
  unfold flagReply flagOrigin
  rw [h]
  exact ⟨rfl, rfl⟩

theorem accepts_ask {op : Nat} {ps : List Byte} {s : State} (h : takes op ps s = true) : Accepts op noon (ask op ps) benchCred s := by
  unfold takes at h
  simp only [Bool.and_eq_true, Bool.not_eq_true', decide_eq_true_eq, Option.isNone_iff_eq_none] at h
  obtain ⟨⟨⟨⟨⟨⟨⟨⟨h1, h2⟩, h3⟩, h4⟩, h5⟩, h6⟩, h7⟩, h8⟩, h9⟩ := h
  have f1 := ask_scoped op ps
  obtain ⟨f2, f3⟩ := ask_flags op ps
  unfold Accepts
  simp only [f1, f2, f3, Bool.false_eq_true, if_false, false_implies, true_and, true_implies]
  refine ⟨h1, h2, h3, h4, ?_, h6, h7, h8, h9⟩
  show (match (s.begin_ noon).cred 0 with
    | some c => if packetMac c.key op (ask op ps) = (ask op ps).mac ∧ !(flagReply (ask op ps) && (ask op ps).mac == List.replicate 16 0#8)
        then some c else none
    | none => none) = some benchCred
  rw [h5]
  refine if_pos ⟨ask_mac op ps, ?_⟩
  rw [f2]
  rfl

theorem meets {op : Nat} {cond : Caller → List Byte → State → Prop} (ps : List Byte) (s : State) (h : takes op ps s = true := by decide +kernel)
    (hc : cond (callerOf op (ask op ps) benchCred) ps (taken op noon (ask op ps) s) := by decide +kernel) : Meets op cond :=
  ⟨noon, ask op ps, benchCred, s, accepts_ask h, hc⟩

theorem meetsHost {op : Nat} {cond : Caller → List Byte → State → Prop} (ps : List Byte) (s : State) (h : takes op ps s = true := by decide +kernel)
    (hc : cond (callerOf op (ask op ps) benchCred) ps (taken op noon (ask op ps) s) := by decide +kernel) : MeetsHost op cond :=
  ⟨noon, ask op ps, benchCred, s, accepts_ask h, (ask_flags op ps).2, hc⟩

theorem comes {due : State → Prop} (s : State) (h : due (s.begin_ noon) := by decide +kernel) : Comes due := ⟨noon, s, h⟩

/-- A state with fields set. -/
def put (s : State) (l : List (Nat × Fld × Nat)) : State := l.foldl (fun s e => s.setFld e.1 e.2.1 e.2.2) s

/-- A caller on the service SPI, with a tag and an opcode. -/
def asker (tag op : Nat) : Caller := ⟨8, 7 * 2048, 0, tag, 1, op, false, false, false, benchKey, 0xFFF, 0⟩

/-- SHA-256 of no bytes (FIPS 180-4), as bytes. -/
def hashNone : List Byte := (List.range 32).map fun i => byte (0xe3b0c44298fc1c149afbf4c8996fb92427ae41e4649b934ca495991b7852b855 / 256 ^ (31 - i))

/-- A number in 32 bytes, the first most significant. -/
def big32 (n : Nat) : List Byte := (List.range 32).map fun i => byte (n / 256 ^ (31 - i))

/-- An image of two empty sections with its signature, r and s both the hash of bytes 0 to 87 of its header. -/
def sig : Nat := 0xc9e96025c518d8e6c94531180d449693d09fabd81a96a3fe9ebc638442f9a96d
def image : List Byte :=
  le 4 0x57465144 ++ le 4 1 ++ le 4 0 ++ le 4 0 ++ le 4 2 ++ le 4 0 ++ hashNone ++ hashNone ++ le 40 0 ++ big32 sig ++ big32 sig

/-- The bench with that image in slot 0 and the public key under which it verifies: of the point with abscissa r less the base point. -/
def imaged : State :=
  { bench with
    bufs := { bench.bufs with flash := Mem.writeBytes 0xFF#8 [] 0 image },
    nvm := { bench.nvm with firmwareKey := (0x676ed4189f07a6b505415c6d1cf4bc64526752570a4655e1307cf551f9a18fd7,
      0xb6c5fba4746f19b5c439a5c2fb218787cb8c351bb9270d3c00c420156ad48c02) } }

/-- What every decoder answers to its self-test where it works. -/
def soundReads : List (List TestRead) := (List.range 6).map fun d => (testSteps d).map (testAnswer d)

theorem tests_pass (k : Nat) : ((List.range 6).all fun d => decoderMem d != k || testPasses d (soundReads.getD d [])) = true := by
  rw [List.all_eq_true]
  intro d hd
  have h : soundReads.getD d [] = (testSteps d).map (testAnswer d) := by
    simp [soundReads, List.getD, List.mem_range.mp hd]
  unfold testPasses
  rw [h, beq_self_eq_true, Bool.or_true]

theorem mask_sound : bootFailMask 0 soundReads = 0 := by
  unfold bootFailMask
  simp only [tests_pass]
  rfl

theorem mask_dram : bootFailMask 1 soundReads = 1 := by
  unfold bootFailMask
  simp only [tests_pass]
  rfl

/-- A packet to another hub. -/
def passing (flags : Nat) : Packet := { blank [] with flags := flags, dest := 5, mac := List.replicate 16 0#8 }

/-- An authentic REPLY to this hub. -/
def answer : Packet :=
  let p : Packet := { blank [] with flags := 1 }
  { p with mac := packetMac benchKey 0x0001 p }

/-- The vector of RFC 3394, section 4.1, for the bench's key, and the key it wraps. -/
def wrapped : List Byte := [0x1F, 0xA6, 0x8B, 0x0A, 0x81, 0x12, 0xB4, 0x47, 0xAE, 0xF3, 0x4B, 0xD8, 0xFB, 0x5A, 0x7B, 0x82, 0x9D, 0x3E, 0x86, 0x23,
  0x71, 0xD2, 0xCF, 0xE5].map byte
def unwrapped : List Byte := (List.range 16).map fun i => byte (0x11 * i)

/-- The calibration record of a group not yet run. -/
def noRec : CalRec := ⟨false, 0, 0, 0, 0, []⟩

/-- A register's word after reset, as parameter bytes. -/
def held (a : Nat) : List Byte := le 4 (resetWord a).toNat

/-- The bench with served time of quality TQ1. -/
def timed : State := put bench [(TB_DOM_STAT 0, TB_DOM_STAT_STATE, 2), (TB_DOM_STAT 0, TB_DOM_STAT_TQ, 1)]

/-- The bench with channel 0 in CHARGE on a bay that runs. -/
def charge : State := put timed [(AFE_CH_CFG 0, AFE_CH_CFG_MODE, 1), (CONV_BAY_MODE 0, CONV_BAY_MODE_BMODE, 1)]

/-- Bay 0 in burst mode. -/
def bursts : State := put timed [(CONV_BAY_MODE 0, CONV_BAY_MODE_BMODE, 2), (CONV_BAY_BURST 0, CONV_BAY_BURST_PERIOD, 1000), (CONV_BAY_BURST 0, CONV_BAY_BURST_LEN, 9000)]

/-- Channel 0 in VOLTAGE on a bay that runs. -/
def volts : State := put timed [(AFE_CH_CFG 0, AFE_CH_CFG_MODE, 2), (DEC_CH_CFG 0, DEC_CH_CFG_GRID, 0), (CONV_BAY_MODE 0, CONV_BAY_MODE_BMODE, 1)]

/-- Engine 0 armed on channel 0. -/
def engined : State :=
  put volts [(CAP_ENG_CFG 0, CAP_ENG_CFG_ARM, 1), (CAP_ENG_CFG 0, CAP_ENG_CFG_GRID, 1), (CAP_ENG_CFG 0, CAP_ENG_CFG_RATE, 8),
    (CAP_ENG_CFG 0, CAP_ENG_CFG_FORMAT, 1), (CAP_ENG_CHAN 0, CAP_ENG_CHAN_COUNT, 1), (CAP_ENG_POST 0, CAP_ENG_POST_POST, 100),
    (CAP_ENG_MAXLEN 0, CAP_ENG_MAXLEN_MAX_LEN, 1000)]

/-- A pane of engine 0, HELD for an instant or OPEN. -/
def pane0 (opened : Bool) (heldTime : Option Nat) : Pane := ⟨0, 0, opened, heldTime, 0, 0, 0, 0, false, 0, 0, [], [], 0, []⟩

/-- The parameters of PANE_OPEN with a function and a time. -/
def paneAsk (f t : Nat) : List Byte :=
  le 1 0 ++ le 1 f ++ le 2 0 ++ le 4 (2 ^ 23 + 8) ++ le 4 (2 ^ 16) ++ le 4 0 ++ le 4 100 ++ le 4 1000 ++ le 4 0 ++ le 12 t

/-- A command with HUB_ORIGIN from hub 5, with a bench's credential. -/
def told (op : Nat) (ps : List Byte) : Packet :=
  let p : Packet := { blank ps with flags := 4, source := 5, arrival := 0 }
  { p with mac := packetMac benchKey op p }

/-- Entry 0 of the timed actions armed for served time `t`. -/
def entry0 (action t : Nat) : State :=
  (put timed [(TB_ACT_CTRL 0, TB_ACT_CTRL_ARMED, 1), (TB_ACT_CTRL 0, TB_ACT_CTRL_ACTION, action)]).onAct 0 fun y => { y with time := t }

/-- Port 0 up and the first two cores in service. -/
def linked : State :=
  put timed [(LNK_PORT_STAT 0, LNK_PORT_STAT_STATE, 3), (TIU_CORE_STAT 0, TIU_CORE_STAT_LOCK_F, 1), (TIU_CORE_STAT 0, TIU_CORE_STAT_LOCK_S, 1),
    (TIU_CORE_STAT 1, TIU_CORE_STAT_LOCK_F, 1), (TIU_CORE_STAT 1, TIU_CORE_STAT_LOCK_S, 1)]

/-- The stamp of an edge that a core takes. -/
def stampOf (s : State) (n : Nat) : Stamp := ((s.begin_ noon).stampEdge n false noon).1.getD ⟨0, 0, 0, false, false, false, false, 0⟩

/-- A word with fields set, as parameter bytes. -/
def built (l : List (Fld × Nat)) : List Byte := le 4 (l.foldl (fun w e => setBits w e.1 e.2) 0#32).toNat

/-- A gate on bay 0, opened at an instant. -/
def gate0 (openAt : Option Nat) : Gate := ⟨0, [], false, false, false, 10, 2000, 500000000, asker 7 0x5002, 0, openAt, none, 0, false⟩

/-- A record of one cell in a place. -/
def rec0 (place : Place) : Rec :=
  ⟨0, 1, 0, 1, 0, 0, 0, 0, 0, 0, 0, 1, 0, le 4 0, 0, false, false, none, 0, 0, 0, 32, 0, 1, place, 0, false, some 0, [], none, 0#32⟩

/-- A source that is enabled for a consumer, at the comparator input of core 0. -/
def sourced (s : State) (user : Nat) : State := put s [(TIU_SRC_CFG 0x22, TIU_SRC_CFG_EN, 1), (TIU_SRC_CFG 0x22, TIU_SRC_CFG_CORE, 1), (TIU_SRC_CFG 0x22, TIU_SRC_CFG_CONSUMER, user)]

/-- A block on lane 0. -/
def blk (sync payload : Nat) : Block := ⟨0, sync, payload, []⟩

/-- The 256 bytes of a class S cell of another hub's record. -/
def cellS : List Byte := padCell (cellImage ⟨2, true, true, false, false, 0, 0, 1, 0, 0, []⟩)

/-- 31 bytes of zeros of a CRC-32C. -/
def crcZeros (c : Nat) : Nat := (List.replicate 31 0#8).foldl (crcByte 0x82F63B78) c

theorem crc_zeros :
    crcZeros 1893905039 = 32699818 ∧ crcZeros 32699818 = 1483210426 ∧ crcZeros 1483210426 = 3604722682 ∧ crcZeros 3604722682 = 361522313 ∧ crcZeros 361522313 = 2921433943 ∧ crcZeros 2921433943 = 1451051539 ∧ crcZeros 1451051539 = 1152296983 ∧ crcZeros 1152296983 = 3674104808 := by
  decide +kernel

theorem crc_more (l : List Byte) (c : Nat) :
    (l ++ List.replicate 31 0#8).foldl (crcByte 0x82F63B78) c = crcZeros (l.foldl (crcByte 0x82F63B78) c) := by
  unfold crcZeros
  rw [List.foldl_append]

theorem crc_of {l : List Byte} {c : Nat} (h : l.foldl (crcByte 0x82F63B78) 0xFFFFFFFF = c) : crc32c l = c ^^^ 0xFFFFFFFF := by
  rw [← h]
  rfl

/-- The CRC-32C of that cell. -/
theorem crc_cellS : crc32c cellS = 620862487 := by
  have h : cellS = ([0x0E, 0, 0, 0, 0, 0, 0, 1] : List Nat).map byte ++ List.replicate 31 0#8 ++ List.replicate 31 0#8 ++ List.replicate 31 0#8
      ++ List.replicate 31 0#8 ++ List.replicate 31 0#8 ++ List.replicate 31 0#8 ++ List.replicate 31 0#8 ++ List.replicate 31 0#8 := by decide +kernel
  have h0 : (([0x0E, 0, 0, 0, 0, 0, 0, 1] : List Nat).map byte).foldl (crcByte 0x82F63B78) 0xFFFFFFFF = 1893905039 := by decide +kernel
  obtain ⟨h1, h2, h3, h4, h5, h6, h7, h8⟩ := crc_zeros
  exact crc_of (c := 3674104808) (by rw [h, crc_more, crc_more, crc_more, crc_more, crc_more, crc_more, crc_more, crc_more, h0, h1, h2, h3, h4, h5, h6, h7, h8])

/-- A segment of two hubs: this one's RING_E port faces hub 1. -/
def ringed : State :=
  (put linked [(LNK_ROUTE_CFG, LNK_ROUTE_CFG_SEG_LAST, 1), (LNK_PORT_CFG 0, LNK_PORT_CFG_ROLE, 1)]).onLnk fun y =>
    { y with table := [⟨⟨1, 0, 0, [⟨2, true, true⟩]⟩, 0⟩] }

/-- A head in a state. -/
def headed (n : Nat) : State := put bench [(RED_STAT, RED_STAT_STATE, n)]

/-- The active head as the witness of segment 1 for the pair 5 and 6. -/
def witness : State := put (headed 3) [(RED_WIT_CFG 0, RED_WIT_CFG_EN, 1), (RED_WIT_CFG 0, RED_WIT_CFG_SEGMENT, 1), (RED_WIT_CFG 0, RED_WIT_CFG_HEAD_A, 5),
  (RED_WIT_CFG 0, RED_WIT_CFG_HEAD_B, 6)]

/-- The same with its latch held by hub 5. -/
def latched : State := (put witness [(RED_WIT_STAT 0, RED_WIT_STAT_HOLDER, 5)]).onWit 0 fun y => { y with lease := some (2 * noon) }

/-- A heartbeat from hub 5. -/
def beat (dest : Nat) : Heartbeat := ⟨5, dest, 0, 1, 2, 0, 0, 0, 0, 0, 0⟩

/-- A drill that runs. -/
def drill (kind : Nat) (committedAt : Option Nat) (answered : Bool) : Drill := ⟨kind, asker 7 0xC006, 0, committedAt, true, answered, 0, 0⟩

/-- The standby head whose partner is hub 5. -/
def paired (n : Nat) : State := put (headed n) [(RED_PARTNER, RED_PARTNER_PARTNER, 5)]

/-- A hub without an address between two neighbours of its ring. -/
def nameless : State :=
  put linked [(SYS_HUB_ADDR, SYS_HUB_ADDR_VALID, 0), (LNK_PORT_CFG 0, LNK_PORT_CFG_ROLE, 1), (LNK_PORT_CFG 1, LNK_PORT_CFG_ROLE, 2),
    (LNK_PORT_STAT 1, LNK_PORT_STAT_STATE, 3)]

/-- A link state waits for port 0, which has room and credit. -/
def waits : State :=
  (ringed.onQm fun q => { q with items := [⟨0, 0, 1, .linkState ⟨1, 0, 0, []⟩, 8, false, 1, 0, 0⟩] }).onPort 0 fun y =>
    { y with granted := { c := 1 }, replaySize := 8 }

/-! The hypotheses of the general statements are met. -/

/-- The state that an outcome answers. -/
def after : Host.Outcome State Fault Refusal → State
  | .next u => u
  | _ => State.reset

/-- A command from the service SPI whose header `f` changes, authentic under the bench's key. -/
def askAs (op : Nat) (f : Packet → Packet) (ps : List Byte) : Packet := { f (blank ps) with mac := packetMac benchKey op (f (blank ps)) }

/-- The bench with another permission set in slot 0. -/
def weak : State := bench.onNvm fun n => { n with creds := [⟨true, benchKey, 0x400, 65536⟩] }

theorem test_meets_EmptyQueueTicks : ∃ s u, s.pending = [] ∧ step s = .next u := ⟨State.reset, after (step State.reset), rfl, rfl⟩

theorem test_reset_safe : Safe State.reset := ⟨⟨by decide, by decide +kernel⟩, by decide, by decide⟩

theorem test_meets_StepKeepsSafe : ∃ s u, Safe s ∧ step s = .next u := ⟨State.reset, after (step State.reset), test_reset_safe, rfl⟩

theorem test_meets_NvmGuarded :
    (∃ c s u, s.sys.pfwNLow = true ∧ exec c s = .next u) ∧ ∃ c s u, s.sys.pfwRoseAt.isSome = true ∧ exec c s = .next u :=
  ⟨⟨.nextAddrWrite noon 5, bench.onSys fun y => { y with pfwNLow := true }, _, rfl, rfl⟩,
    ⟨.nextAddrWrite noon 5, bench.onSys fun y => { y with pfwRoseAt := some 0 }, _, rfl, rfl⟩⟩

theorem test_meets_ResetPulseResets : ∃ t w s u, 10000 ≤ w ∧ exec (.resetNPulse t w) s = .next u :=
  ⟨noon, 10000, bench, _, Nat.le_refl _, rfl⟩

theorem test_meets_ReplyFrames :
    (∃ e ∈ commandRows [], ∃ t p s u, flagReply p = true ∧ exec (e.2 t p) s = .next u)
    ∧ ∃ t op p s u, flagReply p = true ∧ exec (.replyReceived t op p) s = .next u :=
  ⟨⟨(0x0001, .ping), by simp [commandRows, commandRows0, commandRows1, commandRows2, commandRows3], noon, answer, bench, _, by decide, rfl⟩, ⟨noon, 0x0001, answer, bench, _, by decide, rfl⟩⟩

theorem test_meets_PacketsTurnedAway :
    ∃ e ∈ commandRows [],
      Comes (fun x => x.booted = false ∧ (told e.1 []).arrival ≠ 8)
      ∧ Comes (fun x => x.booted = false ∧ (ask e.1 []).arrival = 8)
      ∧ Comes (fun x => x.booted = true ∧ x.malformed (askAs e.1 (fun p => { p with version := 2 }) []) = true)
      ∧ Comes (fun x =>
          let p := told e.1 []
          x.booted = true ∧ x.malformed p = false ∧ (flagScoped p = true ∨ flagOrigin p = true) ∧ x.cacheFailed = false ∧ x.seenBefore e.1 p = true)
      ∧ Comes (fun x =>
          let p := passing 0
          let q := { p with dest := 0 }
          x.booted = true ∧ x.malformed q = false ∧ flagScoped q = false ∧ flagOrigin q = false ∧ x.forSpiHost q = false
          ∧ x.forHere q = true ∧ x.authentic e.1 q = none)
      ∧ ∃ cr, Comes (fun x =>
          let p := ask e.1 []
          let y := x.pmc 0xB01 0 1
          x.booted = true ∧ x.malformed p = false ∧ flagScoped p = false ∧ flagOrigin p = false ∧ flagReply p = false ∧ x.forSpiHost p = false
          ∧ x.forHere p = true ∧ x.authentic e.1 p = some cr ∧ (y.cached.find? fun a => a.isFor (callerOf e.1 p cr)) = none
          ∧ p.counter ≤ y.lastCtr p.slot ∧ (callerOf e.1 p cr).hears stREPLAYED = true) :=
  ⟨(0x0001, .ping), by simp [commandRows, commandRows0, commandRows1, commandRows2, commandRows3], comes State.reset, comes State.reset, comes bench,
    comes (bench.onCmd fun m => { m with seen := [⟨5, 0, 1, 0x0001, 7, noon⟩] }), comes bench,
    benchCred, comes (put bench [(CMD_SLOT_CTR 0, CMD_SLOT_CTR_LAST, 1)])⟩

theorem test_meets_CommandsRefused :
    let at_ := fun (p : Packet) (x : State) => (x.pmc 0xB01 0 1).acceptCtr p.slot p.counter
    let permitted := fun (op : Nat) (p : Packet) (cr : Cred) (x : State) =>
      permsNeeded (at_ p x) op p.params &&& cr.perms = permsNeeded (at_ p x) op p.params
    (∃ e ∈ commandRows [], ∃ p cr, Comes (fun x => comesToPermissions e.1 p cr x ∧ ¬ permitted e.1 p cr x))
    ∧ (∃ e ∈ commandRows [], ∃ p cr r, opRow e.1 = some r
        ∧ Comes (fun x => comesToPermissions e.1 p cr x ∧ permitted e.1 p cr x ∧ (at_ p x).isMinimal = true ∧ r.minimal = false))
    ∧ (∃ e ∈ commandRows [], ∃ p cr r, opRow e.1 = some r
        ∧ Comes (fun x => comesToPermissions e.1 p cr x ∧ permitted e.1 p cr x ∧ ((at_ p x).isMinimal = true → r.minimal = true)
            ∧ lenOk e.1 p.params = false))
    ∧ ∃ e ∈ commandRows [], ∃ p cr r, opRow e.1 = some r
        ∧ Comes (fun x => comesToPermissions e.1 p cr x ∧ permitted e.1 p cr x ∧ ((at_ p x).isMinimal = true → r.minimal = true)
            ∧ lenOk e.1 p.params = true
            ∧ (p.rsvd14 ≠ 0 ∨ p.rsvd22 ≠ List.replicate 10 0#8 ∨ p.b21 / 2 % 128 ≠ 0 ∨ p.flags / 16 % 16 ≠ 0)) := by
  refine ⟨⟨(0x0001, .ping), by simp [commandRows, commandRows0, commandRows1, commandRows2, commandRows3], ask 0x0001 [], ⟨true, benchKey, 0x400, 65536⟩, comes weak ?_⟩,
    ⟨(0x1002, .chQuery), by simp [commandRows, commandRows0, commandRows1, commandRows2, commandRows3], ask 0x1002 (le 4 0), benchCred, ⟨0x1002, pOBSERVE, .p, false, some 4⟩, by decide,
      comes (bench.onSys fun y => { y with phase := .minimal }) ?_⟩,
    ⟨(0x1002, .chQuery), by simp [commandRows, commandRows0, commandRows1, commandRows2, commandRows3], ask 0x1002 [], benchCred, ⟨0x1002, pOBSERVE, .p, false, some 4⟩, by decide, comes bench ?_⟩,
    ⟨(0x0001, .ping), by simp [commandRows, commandRows0, commandRows1, commandRows2, commandRows3], askAs 0x0001 (fun p => { p with rsvd14 := 1 }) [], benchCred, ⟨0x0001, pOBSERVE, .p, true, some 0⟩, by decide,
      comes bench ?_⟩⟩ <;> dsimp only [comesToPermissions] <;> decide +kernel

theorem test_meets_ScopedPacketsSpread :
    ∃ e ∈ commandRows [], ∃ p cr, Comes (fun x =>
        let y := (((x.see e.1 p).relay e.1 p).pmc 0xB01 0 1)
        x.booted = true ∧ x.malformed p = false ∧ flagScoped p = true ∧ flagOrigin p = false ∧ flagReply p = false ∧ x.cacheFailed = false
        ∧ x.seenBefore e.1 p = false ∧ (x.see e.1 p).forSpiHost p = false ∧ (x.see e.1 p).forHere p = true
        ∧ (p.arrival < 8 → (x.see e.1 p).role p.arrival = rUplink → (x.see e.1 p).isActive = true)
        ∧ ((x.see e.1 p).relay e.1 p).authentic e.1 p = some cr ∧ y.lastCtr p.slot < p.counter
        ∧ (y.acceptCtr p.slot p.counter).admits e.1 p cr.perms = none ∧ (y.acceptCtr p.slot p.counter).sys.reloading = false) :=
  ⟨(0x0001, .ping), by simp [commandRows, commandRows0, commandRows1, commandRows2, commandRows3], askAs 0x0001 (fun p => { p with dest := 2 ^ 14 }) [], benchCred, comes bench⟩

theorem test_meets_UpdateDataStores :
    ∃ t p cr s u, ∃ e : Session, Accepts 0x0011 t p cr s ∧ Mem.wf 0xFF#8 s.bufs.flash = true ∧ (taken 0x0011 t p s).sys.session = some e
      ∧ num p.params 0 4 = e.received ∧ e.received + (p.params.drop 4).length ≤ e.length ∧ (p.params.drop 4).length % 4 = 0
      ∧ exec (.updateData t p) s = .next u :=
  ⟨noon, ask 0x0011 (le 4 0 ++ le 4 7), benchCred, bench.onSys fun y => { y with session := some ⟨1, 192, 0⟩ }, _, ⟨1, 192, 0⟩,
    accepts_ask (by decide +kernel), by decide, by decide +kernel, by decide +kernel, by decide +kernel, by decide +kernel, rfl⟩

theorem test_meets_IncrementRange :
    (∃ i, 200 * nominal < 1000000 * (if i < nominal then nominal - i else i - nominal))
    ∧ (∃ path, ∃ d : Fin 2, ∃ hi : Word, ∃ (s : State) (i : Nat), i = hi.toNat * 2 ^ 32 + (s.takeLow path (TB_INCR d.val)).1.toNat
        ∧ 200 * nominal < 1000000 * (if i < nominal then nominal - i else i - nominal))
    ∧ ∃ t path, ∃ d : Fin 2, ∃ hi : Word, ∃ (s u : State) (i : Nat), i = hi.toNat * 2 ^ 32 + ((s.begin_ t).takeLow path (TB_INCR d.val)).1.toNat
        ∧ 200 * nominal < 1000000 * (if i < nominal then nominal - i else i - nominal) ∧ exec (.tbIncrCommit t path d hi) s = .next u :=
  ⟨⟨nominal + nominal / 5000 + 1, by decide⟩, ⟨.command, 0, 0#32, bench, _, rfl, by decide +kernel⟩,
    ⟨noon, .command, 0, 0#32, bench, _, _, rfl, by decide +kernel, rfl⟩⟩

theorem test_meets_HubCommandFrames : ∃ t p s u, flagReply p = false ∧ exec (.ping t p) s = .next u := ⟨noon, ask 0x0001 [], bench, _, rfl, rfl⟩

theorem test_meets_SignalCommandFrames : ∃ t p s u, flagReply p = false ∧ exec (.chQuery t p) s = .next u :=
  ⟨noon, ask 0x1002 (le 4 0), bench, _, rfl, rfl⟩

theorem test_meets_HubEventFrames : ∃ t s u, exec (.spiStatus t) s = .next u := ⟨noon, bench, _, rfl⟩

theorem test_meets_SignalEventFrames : ∃ t s u, exec (.transomStart t) s = .next u := ⟨noon, bench, _, rfl⟩

/-! One step each, with what the manual says of it. -/

/-- The status of the last reply the cache holds, its first four bytes (12_command_packets.md R381). -/
def said (s : State) : Option Nat := s.cmd.cache.getLast?.map fun e => num e.reply 0 4

/-- RFC 4493, example 1. -/
theorem test_cmac :
    cmac ([0x2B, 0x7E, 0x15, 0x16, 0x28, 0xAE, 0xD2, 0xA6, 0xAB, 0xF7, 0x15, 0x88, 0x09, 0xCF, 0x4F, 0x3C].map byte) []
      = [0xBB, 0x1D, 0x69, 0x29, 0xE9, 0x59, 0x37, 0x28, 0x7F, 0xA3, 0x7D, 0x12, 0x9B, 0x75, 0x67, 0x46].map byte := by decide +kernel

/-- No word spells a command (log entry 2). -/
theorem test_decode : decodeTableWord 32 0x1234 = none := rfl

/-- 00_scope.md R5: the Reset column. -/
theorem test_reset_increment : State.reset.rd64 (TB_INCR 0) = 0x0053E2D6238DA3C2 := by decide +kernel

/-- 09_queues_and_retention.md Table 09-2: Q49 has LIMIT 8,192 and RESERVE 1,024. -/
theorem test_reset_queue : State.reset.rd (QM_Q_CFG 49) = 0x20000400#32 := by decide +kernel

/-- The front of the queue runs, the rest waits. -/
theorem test_step_queue :
    (after (step { bench with pending := [.consoleLock noon, .pmcClear noon] })).pending = [.pmcClear noon] := by decide +kernel

/-- 05_time_base.md R143: XC counts on an empty queue. -/
theorem test_step_idle : (after (step State.reset)).xc = 1 := by decide +kernel

theorem test_ping : said (after (exec (.ping noon (ask 0x0001 [])) bench)) = some stOK := by decide +kernel

/-- 12_command_packets.md R380: a PING of four bytes. -/
theorem test_ping_length : said (after (exec (.ping noon (ask 0x0001 (le 4 0))) bench)) = some stBAD_LENGTH := by decide +kernel

/-- 12_command_packets.md R375: an accepted counter is the last accepted one. -/
theorem test_counter : (after (exec (.ping noon (ask 0x0001 [])) bench)).lastCtr 0 = 1 := by decide +kernel

/-- 01_architecture.md R33. -/
theorem test_power_reserved : said (after (exec (.setPowerState noon (ask 0x0003 (le 4 4))) bench)) = some stBAD_PARAM := by decide +kernel

/-- 01_architecture.md R20. -/
theorem test_nextAddr : (after (exec (.nextAddrWrite noon 0x123) bench)).nvm.nextAddr = some 0x123 := by decide +kernel

/-- 15_porter_management.md R473: NVM takes nothing while PFW_N is low. -/
theorem test_nextAddr_pfw :
    (after (exec (.nextAddrWrite noon 0x123) (bench.onSys fun y => { y with pfwNLow := true }))).nvm.nextAddr = none := by decide +kernel

/-- 18_electrical_and_package.md R523: a pulse of less than 10 us is no reset (log entry 36). -/
theorem test_short_pulse : (after (exec (.resetNPulse noon 9999) bench)).now = noon := by decide +kernel

/-- 05_time_base.md R147: an increment in range waits for its boundary. -/
theorem test_increment :
    (after (exec (.tbIncrCommit noon .command 0 0x0053E2D6#32) bench)).on (TB_DOM_STAT 0) TB_DOM_STAT_INCR_PENDING = true := by decide +kernel

/-- 05_time_base.md R150: GO in TRACK is refused and counted. -/
theorem test_anchor :
    (after (exec (.anchorGo noon 0) timed)).fld (TB_ANCHOR_CTRL 0) TB_ANCHOR_CTRL_REFUSED_COUNT = 1 := by decide +kernel

/-- 02_front_end.md R61: a clamp is counted. -/
theorem test_clamp : (after (exec (.clampOnset noon 3 0) bench)).fld (AFE_CH_STAT 3) AFE_CH_STAT_CLAMP_COUNT = 1 := by decide +kernel

/-- 06_interval_unit.md R180: a stamp for the host holds the fine count of its edge. -/
theorem test_stamp : (after (exec (.edgeStamp noon 0x22 false []) (sourced linked 1))).tiu.host.map Stamp.fine = [noon] := by decide +kernel

/-- 11_serial_lanes_and_syrilink.md R328: blocks between START and END are a cell's data; an END without a START is no cell. -/
theorem test_cell_data :
    ((after (exec (.cellReceived noon 0 [blk 2 0x2A1, blk 1 7]) (linked.onPort 0 fun y => { y with given := { s := 1 } }))).port 0).rx
      = [⟨2, le 8 7, false⟩] := by decide +kernel
theorem test_cell_none : ((after (exec (.cellReceived noon 0 [blk 2 0xA2]) linked)).port 0).rxNext = 0 := by decide +kernel

/-- 13_head_redundancy.md R418: a free latch goes to the head that asks. -/
theorem test_latch :
    (after (exec (.latchRequest noon (told 0xC003 (le 8 1))) witness)).fld (RED_WIT_STAT 0) RED_WIT_STAT_HOLDER = 5 := by decide +kernel

/-- 08_field_ports_and_outputs.md R266. -/
theorem test_tripLock : (after (exec (.tripLock noon) bench)).on FLD_CTRL FLD_CTRL_TRIP_LOCK = true := by decide +kernel

/-- 12_command_packets.md R400: 0x5A, then the word, low byte first. -/
theorem test_spi_read : (after (exec (.spiRegRead noon (TB_INCR 0) 1) bench)).cmd.spiOut = [0x5A, 0xC2, 0xA3, 0x8D, 0x23].map byte := by decide +kernel

/-- 17_counters_and_test.md R505: PMC_CYCLE counts eight clocks in each crystal tick. -/
theorem test_cycle : (after (step bench)).pmcBlk.cycle = 8 := by decide +kernel

/-- 18_electrical_and_package.md Table 18-13. -/
theorem test_balls :
    ballCount (fun b => match b with | .ch .. => true | _ => false) = 1024
    ∧ ballCount (fun b => match b with | .tx .. => true | .rx .. => true | _ => false) = 128 := by decide +kernel
theorem test_balls_vss : ballCount (fun b => b == vss) = 837 := by decide +kernel

/-! Ill-formed terms, which `Instr.wf` refuses. -/

/-- A command whose header `f` changes is refused. -/
def bad (f : Packet → Packet) : Bool := !(Instr.ping 0 (f (ask 0 []))).wf

theorem test_wf_packet :
    ((Instr.ping 0 (ask 0 [])).wf && bad (fun p => { p with arrival := 9 }) && bad (fun p => { p with version := 256 })
      && bad (fun p => { p with flags := 256 }) && bad (fun p => { p with tag := 65536 }) && bad (fun p => { p with source := 65536 })
      && bad (fun p => { p with dest := 65536 }) && bad (fun p => { p with length := 65536 }) && bad (fun p => { p with slot := 65536 })
      && bad (fun p => { p with rsvd14 := 65536 }) && bad (fun p => { p with counter := 2 ^ 32 }) && bad (fun p => { p with ttl := 256 })
      && bad (fun p => { p with b21 := 256 }) && bad (fun p => { p with rsvd22 := [] }) && !(Instr.packetRelay 0 65536 (ask 0 [])).wf) = true := by
  decide +kernel

/-- A time cell whose fields are zero. -/
def hush : TimeCell := ⟨0, 0, ⟨0, 0, 0, 0, 0, 0, 0, 0⟩, ⟨0, 0, 0, 0, 0, 0, 0, 0⟩, true⟩
def badHalf (f : TimeCellDom → TimeCellDom) : Bool := !({ hush with domA := f hush.domA }).wf && !({ hush with domB := f hush.domB }).wf

theorem test_wf_timeCell :
    (hush.wf && !(Instr.timeCellReceived 0 0 { hush with seq := 65536 }).wf && !({ hush with sender := 2048 }).wf
      && badHalf (fun d => { d with txTime := 2 ^ 64 }) && badHalf (fun d => { d with rxTime := 2 ^ 64 }) && badHalf (fun d => { d with rxSeq := 65536 })
      && badHalf (fun d => { d with flags := 256 }) && badHalf (fun d => { d with hops := 256 }) && badHalf (fun d => { d with secHigh := 2 ^ 24 })
      && badHalf (fun d => { d with taiUtc := 32768 }) && badHalf (fun d => { d with taiUtc := -32769 }) && badHalf (fun d => { d with root := 65536 }))
      = true := by decide +kernel

def badRx (b : Block) : Bool := !(Instr.cellReceived 0 0 [b]).wf

theorem test_wf_cell : (!badRx (blk 1 0) && badRx { blk 1 0 with lane := 4 } && badRx { blk 1 0 with sync := 4 }) = true := by decide +kernel

def badBlock (f : LinkBlock → LinkBlock) : Bool := !(Instr.linkBlockReceived 0 0 (f ⟨0, 0, false, 0, 0, 0, 0⟩)).wf
def badLink (f : LinkState → LinkState) : Bool := !(Instr.linkStateReceived 0 0 (f ⟨0, 0, 0, List.replicate 8 ⟨0, false, false⟩⟩)).wf
def badIdent (f : Ident → Ident) : Bool := !(Instr.trainIdentReceived 0 0 (f ⟨0, 0, 0, 0, 0, 0⟩)).wf

theorem test_wf_link :
    (!badBlock id && badBlock (fun x => { x with lane := 4 }) && badBlock (fun x => { x with ack := 65536 }) && badBlock (fun x => { x with credC := 256 })
      && badBlock (fun x => { x with credT := 256 }) && badBlock (fun x => { x with credS := 256 }) && badBlock (fun x => { x with credB := 256 })
      && !badLink id && badLink (fun x => { x with origin := 2048 }) && badLink (fun x => { x with generation := 65536 })
      && badLink (fun x => { x with head := 256 }) && badLink (fun x => { x with ports := [] })
      && badLink (fun x => { x with ports := List.replicate 8 ⟨16, false, false⟩ })
      && !badIdent id && badIdent (fun x => { x with addr := 2048 }) && badIdent (fun x => { x with port := 8 })
      && badIdent (fun x => { x with role := 16 }) && badIdent (fun x => { x with rate := 4 }) && badIdent (fun x => { x with width := 4 })
      && badIdent (fun x => { x with lockMask := 16 })) = true := by decide +kernel

def badBeat (f : Heartbeat → Heartbeat) : Bool := !(Instr.heartbeatReceived 0 0 (f (beat 0))).wf
def badMirror (f : MirrorCell → MirrorCell) : Bool := !(Instr.mirrorReceived 0 0 (f ⟨0, 0, 0, 0, 1, [List.replicate 32 0#8]⟩)).wf
def badDigest (f : DigestCell → DigestCell) : Bool := !(Instr.digestReceived 0 0 (f ⟨0, 0, 0, 0, 0, 0, 0⟩)).wf

theorem test_wf_head :
    (!badBeat id && badBeat (fun x => { x with sender := 2048 }) && badBeat (fun x => { x with dest := 2048 })
      && badBeat (fun x => { x with path := 256 }) && badBeat (fun x => { x with seq := 2 ^ 32 }) && badBeat (fun x => { x with state := 256 })
      && badBeat (fun x => { x with flags := 256 }) && badBeat (fun x => { x with witness := 65536 }) && badBeat (fun x => { x with epoch := 2 ^ 32 })
      && badBeat (fun x => { x with leaseMs := 65536 }) && badBeat (fun x => { x with mirrorSeq := 2 ^ 32 }) && badBeat (fun x => { x with st64 := 2 ^ 64 })
      && !badMirror id && badMirror (fun x => { x with sender := 2048 }) && badMirror (fun x => { x with dest := 2048 })
      && badMirror (fun x => { x with path := 256 }) && badMirror (fun x => { x with firstSeq := 2 ^ 32 }) && badMirror (fun x => { x with itemType := 256 })
      && badMirror (fun x => { x with items := [] }) && badMirror (fun x => { x with items := List.replicate 8 (List.replicate 32 0#8) })
      && badMirror (fun x => { x with items := [[]] })
      && !badDigest id && badDigest (fun x => { x with sender := 2048 }) && badDigest (fun x => { x with dest := 2048 })
      && badDigest (fun x => { x with path := 256 }) && badDigest (fun x => { x with cutoff := 2 ^ 32 }) && badDigest (fun x => { x with digest := 2 ^ 32 })
      && badDigest (fun x => { x with entries := 2 ^ 32 }) && badDigest (fun x => { x with st64 := 2 ^ 64 })) = true := by decide +kernel

/-- What an empty fill found, and a module that answers nothing. -/
def badFill (f : FillResult → FillResult) : Bool := !(Instr.memoryFillDone 0 (f ⟨0, List.replicate 6 [], false, 1, 1, 0, 0, false⟩)).wf
def badModule (f : ModuleRead → ModuleRead) : Bool :=
  !(Instr.modulePoll 0 0 (f ⟨false, false, 0, 0, false, 0, 0, List.replicate 4 0, List.replicate 4 0, List.replicate 4 0⟩)).wf
def badReady (l : List (Option Marker)) : Bool := !(Instr.trainReadyReceived 0 0 l).wf

theorem test_wf_rest :
    (!badFill id && badFill (fun r => { r with fillFailed := 32 }) && badFill (fun r => { r with answers := [] })
      && badFill (fun r => { r with fillMs := 65536 }) && badFill (fun r => { r with deskewFailed := 256 })
      && !badModule id && badModule (fun r => { r with ident := 256 }) && badModule (fun r => { r with los := 16 })
      && badModule (fun r => { r with temp := 65536 }) && badModule (fun r => { r with bias := [] }) && badModule (fun r => { r with tx := [] })
      && badModule (fun r => { r with rx := [] })
      && !badReady (List.replicate 4 none) && badReady [] && badReady [none, none, none, some ⟨0, 4, 0⟩] && badReady [none, none, none, some ⟨0, 0, 8⟩]
      && !(Instr.timeBlockReceived 0 0 65536).wf && !(Instr.laneLost 0 0 (.sync (List.replicate 65 0))).wf && !(Instr.laneLost 0 0 (.sync [4])).wf
      && !(Instr.restripeReceived 0 0 16 false).wf && !(Instr.spiRegRead 0 (2 ^ 32) 1).wf && !(Instr.spiRegRead 0 0 256).wf
      && !(Instr.spiRegWrite 0 (2 ^ 32) []).wf && !(Instr.spiRegWrite 0 0 (List.replicate 256 0#32)).wf && !(Instr.spiPktWrite 0 [] (2 ^ 32) true).wf
      && !(Instr.nextAddrWrite 0 2048).wf && !(Instr.registerWrite 0 .command (2 ^ 32) 0#32).wf && !(Instr.dramTempPoll 0 256).wf) = true := by
  decide +kernel
/-! The hypotheses of the completion statements are met, clause by clause. -/

theorem test_meets_EmptyOffsets :
    Meets 0x0004 (fun _ ps _ => num ps 4 4 = 1 ∧ rangeOk (num ps 0 4) 1 = true ∧ findReg (num ps 0 4) = none)
    ∧ Meets 0x0005 (fun _ ps _ => num ps 4 4 = 1 ∧ rangeOk (num ps 0 4) 1 = true ∧ findReg (num ps 0 4) = none ∧ ps.length = 12)
    ∧ (∃ a : Nat, Comes (fun x => findReg a = none ∧ x.nvmRefuses a 1 = false))
    ∧ Meets 0x0004 (fun _ ps _ => 0x100000 < num ps 0 4 + 4 * num ps 4 4)
    ∧ Meets 0x0005 (fun _ ps _ => 0x100000 < num ps 0 4 + 4 * num ps 4 4)
    ∧ Meets 0x0006 (fun _ ps _ => 0x100000 < num ps 0 4 + 8)
    ∧ (∃ a : Nat, ∃ n : Nat, Comes (fun _ => 0x100000 < a + 4 * n))
    ∧ ∃ a : Nat, ∃ ws : List Word, Comes (fun _ => 0x100000 < a + 4 * ws.length) :=
  ⟨meets (le 4 0xFFF0 ++ le 4 1) bench,
    meets (le 4 0xFFF0 ++ le 4 1 ++ le 4 5) bench,
    ⟨0xFFF0, comes bench⟩,
    meets (le 4 0x100000 ++ le 4 1) bench,
    meets (le 4 0x100000 ++ le 4 1 ++ le 4 5) bench,
    meets (le 4 0x100000) bench,
    ⟨0x100000, 1, comes bench⟩,
    ⟨0x100000, [0#32], comes bench⟩⟩

theorem test_meets_PowerStateRequests :
    Meets 0x0003 (fun _ ps x => x.isMinimal = false ∧ (num ps 0 1 = 0 ∨ 4 ≤ num ps 0 1))
    ∧ Meets 0x0003 (fun _ _ x => x.isMinimal = true)
    ∧ Meets 0x0003 (fun _ ps x => x.isMinimal = false ∧ num ps 0 1 = x.power ∧ 1 ≤ x.power ∧ x.power ≤ 3 ∧ num ps 1 1 < 2 ∧ zeroAt ps 2 2 = true
        ∧ (num ps 0 1 = 1 → x.fld RED_CFG RED_CFG_ROLE ≠ 1 ∧ x.isActive = false) ∧ x.on SYS_PWR_STATE SYS_PWR_STATE_IN_TRANSITION = false)
    ∧ Meets 0x0003 (fun _ ps x => x.isMinimal = false ∧ num ps 0 1 = 1 ∧ num ps 1 1 < 2 ∧ zeroAt ps 2 2 = true
        ∧ (x.fld RED_CFG RED_CFG_ROLE = 1 ∨ x.isActive = true))
    ∧ Meets 0x0003 (fun _ ps x => x.isMinimal = false ∧ 1 ≤ num ps 0 1 ∧ num ps 0 1 ≤ 3 ∧ num ps 1 1 < 2 ∧ zeroAt ps 2 2 = true
      ∧ (num ps 0 1 = 1 → x.fld RED_CFG RED_CFG_ROLE ≠ 1 ∧ x.isActive = false) ∧ x.on SYS_PWR_STATE SYS_PWR_STATE_IN_TRANSITION = true) :=
  ⟨meets (le 4 0) bench,
    meets (le 4 3) (bench.onSys fun y => { y with phase := .minimal }),
    meets (le 4 3) bench,
    meets (le 4 1) (put bench [(RED_CFG, RED_CFG_ROLE, 1)]),
    meets (le 4 1) (put bench [(SYS_PWR_STATE, SYS_PWR_STATE_IN_TRANSITION, 1)])⟩

theorem test_meets_TripLockHolds :
    Meets 0x7003 (fun _ ps x =>
        let w := word (num ps 4 4)
        x.on FLD_CTRL FLD_CTRL_TRIP_LOCK = true ∧ num ps 0 1 < 16 ∧ zeroAt ps 1 3 = true ∧ bits w.toNat 10 16 = 0
        ∧ signed 32 (num ps 12 4) < signed 32 (num ps 8 4)
        ∧ (if wfld w FLD_TRIP_CFG_SRC = 3 then wfld w FLD_TRIP_CFG_SEL < 64 else wfld w FLD_TRIP_CFG_SEL < 512))
    ∧ Meets 0x7005 (fun _ ps x => x.on FLD_CTRL FLD_CTRL_TRIP_LOCK = true ∧ zeroAt ps 2 2 = true)
    ∧ ∃ s : State, (∀ e ∈ s.nvm.words, e.1 ≠ FLD_CTRL) ∧ s.on FLD_CTRL FLD_CTRL_TRIP_LOCK = true :=
  ⟨meets (le 4 0 ++ le 4 0 ++ le 4 10 ++ le 4 5 ++ le 4 0) (put bench [(FLD_CTRL, FLD_CTRL_TRIP_LOCK, 1)]),
    meets (le 4 1) (put bench [(FLD_CTRL, FLD_CTRL_TRIP_LOCK, 1)]),
    ⟨put bench [(FLD_CTRL, FLD_CTRL_TRIP_LOCK, 1)], (by decide +kernel)⟩⟩

theorem test_meets_StatusCommandsComplete :
    Meets 0x0001 (fun _ _ _ => True)
    ∧ Meets 0x0002 (fun _ _ _ => True)
    ∧ Meets 0x0030 (fun _ _ _ => True)
    ∧ Meets 0x0020 (fun _ ps x => (num ps 0 2 = 0xFFFF ∨ num ps 0 2 < 2048 ∧ x.address = some (num ps 0 2)) ∧ zeroAt ps 2 2 = true ∧ 1 ≤ num ps 8 1
        ∧ num ps 8 1 ≤ 63 ∧ zeroAt ps 9 3 = true) :=
  ⟨meets [] bench,
    meets [] bench,
    meets [] bench,
    meets (le 4 0xFFFF ++ le 4 0 ++ le 4 1) bench⟩

theorem test_meets_UpdateCommandsComplete :
    Meets 0x0010 (fun _ ps x => num ps 0 1 < 2 ∧ 192 ≤ num ps 4 4 ∧ num ps 4 4 ≤ 29360128 ∧ zeroAt ps 1 3 = true ∧ num ps 0 1 ≠ x.slotNow)
    ∧ (∃ e : Session, Meets 0x0011 (fun _ ps x => x.sys.session = some e ∧ num ps 0 4 = e.received ∧ num ps 0 4 + (ps.drop 4).length ≤
        e.length ∧ (ps.drop 4).length % 4 = 0))
    ∧ (∃ e : Session, Meets 0x0012 (fun _ _ x => x.sys.session = some e ∧ e.received = e.length))
    ∧ Meets 0x0013 (fun _ ps x => num ps 0 1 < 2 ∧ zeroAt ps 1 3 = true ∧ (x.nvm.slot (num ps 0 1)).valid = true ∧ x.sys.commits = [])
    ∧ Meets 0x0007 (fun c _ _ => c.hears stOK = true) :=
  ⟨meets (le 4 1 ++ le 4 192) bench,
    ⟨⟨1, 192, 0⟩, meets (le 4 0 ++ le 4 7) (bench.onSys fun y => { y with session := some ⟨1, 192, 0⟩ })⟩,
    ⟨⟨1, 192, 192⟩, meets [] (bench.onSys fun y => { y with session := some ⟨1, 192, 192⟩ })⟩,
    meets (le 4 0) bench,
    meets [] bench⟩

theorem test_meets_PowerCommandsComplete :
    Meets 0x0021 (fun _ _ x => x.bbAllowance ≠ 0)
    ∧ Meets 0x0003 (fun _ ps x => x.isMinimal = false ∧ 1 ≤ num ps 0 1 ∧ num ps 0 1 ≤ 3 ∧ num ps 1 1 < 2 ∧ zeroAt ps 2 2 = true
        ∧ ¬ (num ps 0 1 = 1 ∧ (x.fld RED_CFG RED_CFG_ROLE = 1 ∨ x.isActive = true)) ∧ x.on SYS_PWR_STATE SYS_PWR_STATE_IN_TRANSITION = false
        ∧ num ps 0 1 = x.power)
    ∧ MeetsHost 0x0003 (fun _ ps x => x.isMinimal = false ∧ 1 ≤ num ps 0 1 ∧ num ps 0 1 ≤ 3 ∧ num ps 1 1 < 2 ∧ zeroAt ps 2 2 = true
        ∧ ¬ (num ps 0 1 = 1 ∧ (x.fld RED_CFG RED_CFG_ROLE = 1 ∨ x.isActive = true)) ∧ x.on SYS_PWR_STATE SYS_PWR_STATE_IN_TRANSITION = false
        ∧ num ps 0 1 ≠ x.power)
    ∧ ∃ tr n, Comes (fun x => x.sys.transition = some tr ∧ x.transit tr.target = some n) :=
  ⟨meets (List.replicate 32 0#8) (put bench [(SYS_BB_STAT, SYS_BB_STAT_ALLOWANCE, 5)]),
    meets (le 4 3) bench,
    meetsHost (le 4 2) bench,
    ⟨⟨2, false, asker 7 3⟩, _, comes (bench.onSys fun y => { y with transition := some ⟨2, false, asker 7 3⟩ }) ⟨rfl, rfl⟩⟩⟩

theorem test_meets_ResetEventsComplete :
    Comes (fun _ => True)
    ∧ (∃ w : Nat, Comes (fun _ => 10000 ≤ w))
    ∧ (∃ d : Nat, Comes (fun x => 2000 < d ∧ x.sys.pfwNLow = false))
    ∧ (∃ since, Comes (fun x => x.sys.pfwRoseAt = some since ∧ since + fineMs 10 ≤ x.now))
    ∧ ∃ at_, ∃ cause, Comes (fun x => x.cmd.resetArmed = some (at_, cause) ∧ at_ ≤ x.now) :=
  ⟨comes bench,
    ⟨10000, comes bench⟩,
    ⟨2001, comes bench⟩,
    ⟨0, comes (bench.onSys fun y => { y with pfwRoseAt := some 0 })⟩,
    ⟨0, 4, comes (bench.onCmd fun y => { y with resetArmed := some (0, 4) })⟩⟩

theorem test_meets_BootEventsComplete :
    (∃ r : FillResult, ∃ k, ∃ trial, Comes (fun x => x.sys.phase = .fill ∧ bootFailMask r.fillFailed r.answers = 0 ∧ r.trainFailed = false ∧ r.gib0 = r.gib1 ∧ 4 ≤ r.gib0 + r.gib1
        ∧ r.gib0 + r.gib1 < 32 ∧ x.nvm.choose = some (k, trial)))
    ∧ (∃ r : FillResult, Comes (fun x => x.sys.phase = .fill ∧ bit (bootFailMask r.fillFailed r.answers) 2 = true))
    ∧ (∃ r : FillResult, Comes (fun x => x.sys.phase = .fill ∧ bootFailMask r.fillFailed r.answers ≠ 0 ∧ bit (bootFailMask r.fillFailed
        r.answers) 2 = false))
    ∧ Comes (fun x => x.sys.phase = .imageLoad ∧ x.imageFault x.sys.bootSlot true = none)
    ∧ (∃ reason, Comes (fun x => starting x ∧ x.sys.phase = .imageLoad ∧ x.imageFault x.sys.bootSlot true = some reason))
    ∧ Comes (fun x => x.sys.phase = .configLoad ∧ x.nvm.storeBroken = false ∧ x.nvm.bootPower < 4 ∧ x.sys.bootSlot < 2)
    ∧ (∃ refused : Bool, Comes (fun x => starting x ∧ x.sys.phase = .configLoad ∧ (x.nvm.storeBroken = true ∨ refused = true ∧
        x.nvm.store.isSome = true)))
    ∧ Comes (fun x => starting x ∧ x.sys.stepFourAt + fineMs 30000 ≤ x.now) :=
  ⟨⟨⟨0, soundReads, false, 2, 2, 0, 0, false⟩, 0, false, comes State.reset ⟨(by decide +kernel), mask_sound, rfl, rfl,
        (by decide +kernel), (by decide +kernel), (by decide +kernel)⟩⟩,
    ⟨⟨0, [], false, 2, 2, 0, 0, false⟩, comes State.reset⟩,
    ⟨⟨1, soundReads, false, 2, 2, 0, 0, false⟩, comes State.reset ⟨(by decide +kernel), by rw [mask_dram]; decide,
        by rw [mask_dram]; decide⟩⟩,
    comes (imaged.onSys fun y => { y with phase := .imageLoad }),
    ⟨1, comes (bench.onSys fun y => { y with phase := .imageLoad }) (by unfold starting Powered; decide +kernel)⟩,
    comes (bench.onSys fun y => { y with phase := .configLoad }),
    ⟨false, comes ((bench.onSys fun y => { y with phase := .configLoad }).onNvm fun n =>
        { n with cfg0 := ⟨false, false, 0, []⟩, cfg1 := ⟨false, false, 0, []⟩ }) (by unfold starting Powered; decide +kernel)⟩,
    comes (bench.onSys fun y => { y with phase := .configLoad }) (by unfold starting Powered; decide +kernel)⟩

theorem test_meets_PowerFailAndRestartsComplete :
    Comes (fun x => x.sys.pfwNLow = false)
    ∧ Comes (fun x => x.sys.pfwNLow = true ∧ x.sys.phase ≠ .waitPfw)
    ∧ Comes (fun x => x.sys.pfwNLow = true ∧ x.sys.phase = .waitPfw)
    ∧ Comes (fun x => x.sys.phase = .running ∧ x.sys.reloading = false)
    ∧ Comes (fun x => starting x ∧ x.sys.phase = .configLoad)
    ∧ Comes (fun x => x.booted = true ∧ x.sys.reloading = false)
    ∧ Comes starting
    ∧ Comes (fun x => x.sys.reloading = true)
    ∧ Comes (fun x => x.sys.reloading = true) :=
  ⟨comes bench,
    comes (bench.onSys fun y => { y with pfwNLow := true }),
    comes (bench.onSys fun y => { y with pfwNLow := true, phase := .waitPfw }),
    comes bench,
    comes (bench.onSys fun y => { y with phase := .configLoad }) (by unfold starting Powered; decide +kernel),
    comes bench,
    comes (bench.onSys fun y => { y with phase := .configLoad }) (by unfold starting Powered; decide +kernel),
    comes (bench.onSys fun y => { y with reloading := true }),
    comes (bench.onSys fun y => { y with reloading := true })⟩

theorem test_meets_PorterEventsComplete :
    Comes (fun x => (x.transomRuns || x.isMinimal) = true ∧ x.sys.reloading = false ∧ x.acq.transom.poll = []
        ∧ (x.sys.sensorAt = none ∨ ∃ f, x.sys.sensorAt = some f ∧ f + fineMs 1000 ≤ x.now))
    ∧ Comes (fun x => x.sys.bbLastSecond < x.second ∧ x.sys.bbDropped = 0)
    ∧ Comes (fun x => x.on SYS_CON_CFG SYS_CON_CFG_INPUT = true)
    ∧ Comes (fun _ => True)
    ∧ Comes (fun x => x.memFailed 3 = false)
    ∧ (∃ c, ∃ e, ∃ rest, Comes (fun x => x.sys.commits = (c, e) :: rest ∧ x.imageFault e.slot false = none))
    ∧ Comes (fun x => x.sys.phase = .running ∧ x.sys.reloading = false ∧ x.memFailed 3 = false ∧ x.config ≠ (x.nvm.store.map
        CfgCopy.words).getD []) :=
  ⟨comes bench,
    comes bench,
    comes (put bench [(SYS_CON_CFG, SYS_CON_CFG_INPUT, 1)]),
    comes bench,
    comes bench,
    ⟨asker 7 0x12, ⟨0, 192, 192⟩, [], comes (imaged.onSys fun y => { y with commits := [(asker 7 0x12, ⟨0, 192, 192⟩)] })⟩,
    comes (put bench [(SYS_CON_CFG, SYS_CON_CFG_INPUT, 1)])⟩

theorem test_meets_CommandBlockCommandsComplete :
    (∃ o : LongOp, Meets 0x0040 (fun c ps x => (x.cmd.ops.find? fun o => o.caller.tag == num ps 0 2 && o.caller.opcode == num ps 2 2 && o.caller.source == c.source) = some o
        ∧ x.committed o.caller = false ∧ num ps 2 2 ≠ 0xA003))
    ∧ (∃ o : LongOp, Meets 0x0040 (fun c ps x => (x.cmd.ops.find? fun o => o.caller.tag == num ps 0 2 && o.caller.opcode == num ps 2 2 && o.caller.source == c.source) = some o
        ∧ x.committed o.caller = false ∧ num ps 2 2 = 0xA003))
    ∧ (∃ key : List Byte, Meets 0xB001 (fun c ps _ => 1 ≤ num ps 0 1 ∧ num ps 0 1 ≤ 15 ∧ num ps 2 2 < 4096 ∧ zeroAt ps 1 1 = true ∧ zeroAt ps 28 4 = true
        ∧ keyUnwrap c.key (bytesAt ps 4 24) = some key))
    ∧ (∃ old : Cred, Meets 0xB002 (fun _ ps x => 1 ≤ num ps 0 1 ∧ num ps 0 1 ≤ 15 ∧ zeroAt ps 1 3 = true ∧ x.cred (num ps 0 1) = some
        old))
    ∧ Meets 0xB003 (fun _ _ _ => True) :=
  ⟨⟨⟨asker 1 0x5002⟩, meets (le 2 1 ++ le 2 0x5002) (bench.onCmd fun y => { y with ops := [⟨asker 1 0x5002⟩] })⟩,
    ⟨⟨asker 1 0xA003⟩, meets (le 2 1 ++ le 2 0xA003) (bench.onCmd fun y => { y with ops := [⟨asker 1 0xA003⟩] })⟩,
    ⟨unwrapped, meets (le 2 1 ++ le 2 0xFFF ++ wrapped ++ le 4 0) bench⟩,
    ⟨benchCred, meets (le 4 1) (bench.onNvm fun n => { n with creds := [benchCred, benchCred] })⟩,
    meets [] bench⟩

theorem test_meets_CommandBlockEventsComplete :
    (∃ p : Packet, Comes (fun x => x.booted = true ∧ x.malformed p = false ∧ flagScoped p = false ∧ flagOrigin p = false ∧ x.forSpiHost p = false ∧ x.forHere p = false
        ∧ x.relays p = true))
    ∧ (∃ p : Packet, Comes (fun x => x.booted = true ∧ x.malformed p = false ∧ flagScoped p = false ∧ flagOrigin p = false ∧ x.forSpiHost p = false ∧ x.forHere p = false
        ∧ p.ttl ≤ 1))
    ∧ (∃ p : Packet, Comes (fun x => x.booted = true ∧ x.malformed p = false ∧ flagScoped p = false ∧ flagOrigin p = false ∧ flagReply p = true ∧ x.forSpiHost p = false
        ∧ x.forHere p = false ∧ 1 < p.ttl ∧ x.isActive = false ∧ (p.arrival < 8 → x.role p.arrival ≠ rUplink)))
    ∧ (∃ op : Nat, ∃ p : Packet, ∃ cr, Comes (fun x => x.booted = true ∧ x.malformed p = false ∧ flagScoped p = false ∧ flagOrigin p = false ∧ flagReply p = true ∧ x.forSpiHost p = false
        ∧ x.forHere p = true ∧ x.authentic op p = some cr))
    ∧ (∃ op : Nat, ∃ p : Packet, ∃ e, Comes (fun x => (x.cmd.inflight.find? fun e => e.1.opcode == op && e.1.tag == p.tag && e.1.source == p.source && e.1.slot == p.slot
        && e.1.counter == p.counter && decide (x.now ≥ e.2 + fineMs 1000) && ((opRow op).map OpRow.kind) == some .p) = some e))
    ∧ Comes (fun _ => True)
    ∧ Comes (fun _ => True) :=
  ⟨⟨passing 0, comes bench⟩,
    ⟨{ passing 0 with ttl := 1 }, comes bench⟩,
    ⟨passing 1, comes bench⟩,
    ⟨0x0001, answer, benchCred, comes bench⟩,
    ⟨0x0001, blank [], (asker 7 1, 0), comes (bench.onCmd fun y => { y with inflight := [(asker 7 1, 0)] })⟩,
    comes bench,
    comes bench⟩

theorem test_meets_ServiceSpiComplete :
    Comes (fun _ => True)
    ∧ (∃ a : Nat, ∃ n : Nat, Comes (fun x => 1 ≤ n ∧ n ≤ 64 ∧ rangeOk a n = true ∧ x.directReadOk a n = true))
    ∧ (∃ a : Nat, ∃ ws : List Word, Comes (fun x => x.booted = true ∧ x.on CMD_SPI_CTRL CMD_SPI_CTRL_DIRECT_WR = true ∧ 1 ≤ ws.length ∧ ws.length ≤ 64 ∧ rangeOk a ws.length = true
        ∧ x.nvmRefuses a ws.length = false))
    ∧ (∃ bs : List Byte, Comes (fun x => x.booted = true ∧ 48 ≤ bs.length ∧ bs.length ≤ 4144 ∧ ceilDiv bs.length 240 ≤ x.room 60))
    ∧ (∃ i, ∃ op, ∃ p, Comes (fun x => x.booted = true ∧ x.q61Head = some (i, op, p)))
    ∧ ∃ code : Byte, Comes (fun _ => [0x05#8, 0x0B#8, 0x02#8, 0x12#8, 0x13#8].contains code = false) :=
  ⟨comes bench,
    ⟨SYS_PWR_STATE, 1, comes bench⟩,
    ⟨SYS_CON_CFG, [0#32], comes (put bench [(CMD_SPI_CTRL, CMD_SPI_CTRL_DIRECT_WR, 1)])⟩,
    ⟨List.replicate 48 0#8, comes bench⟩,
    ⟨⟨0, 61, 1, .packet 1 answer, 8, false, 1, 0, 0⟩, 1, answer, comes (bench.onQm fun q =>
        { q with items := [⟨0, 61, 1, .packet 1 answer, 8, false, 1, 0, 0⟩] })⟩,
    ⟨0x99#8, comes bench⟩⟩

theorem test_meets_RegisterAccessCompletes :
    Meets 0x0004 (fun _ ps _ => 1 ≤ num ps 4 4 ∧ num ps 4 4 ≤ 1023 ∧ rangeOk (num ps 0 4) (num ps 4 4) = true)
    ∧ Meets 0x0006 (fun _ ps _ => num ps 0 4 % 8 = 0 ∧ rangeOk (num ps 0 4) 2 = true)
    ∧ Meets 0x0005 (fun _ ps x => 1 ≤ num ps 4 4 ∧ num ps 4 4 ≤ 1022 ∧ rangeOk (num ps 0 4) (num ps 4 4) = true ∧ x.nvmRefuses (num ps 0
        4) (num ps 4 4) = false)
    ∧ (∃ a : Nat, Comes (fun x => rangeOk a 1 = true ∧ x.nvmRefuses a 1 = false))
    ∧ Comes (fun _ => True) :=
  ⟨meets (le 4 0xC0 ++ le 4 1) bench,
    meets (le 4 0x40) bench,
    meets (le 4 0xC0 ++ le 4 1 ++ le 4 0) bench,
    ⟨SYS_CON_CFG, comes bench⟩,
    comes bench⟩

theorem test_meets_MemoryCommandsComplete :
    Meets 0xD001 (fun _ ps x =>
        let m := num ps 0 1
        let size := x.memSize m
        x.power ≠ 1 ∧ m ≤ 4 ∧ num ps 1 1 ≤ 1 ∧ zeroAt ps 2 2 = true ∧ ¬ (num ps 1 1 = 1 ∧ m = 3) ∧ num ps 4 8 < size ∧ num ps 4 8 + num ps 12 8 ≤ size
        ∧ (m = 0 → num ps 20 4 ≤ 8000) ∧ ¬ (x.isMinimal = true ∧ m = 0 ∧ x.memFailed 0 = true) ∧ x.mem.scrub = none)
    ∧ Meets 0xD002 (fun _ ps _ => num ps 0 4 < 2)
    ∧ Meets 0xD003 (fun _ ps x => num ps 0 1 ≤ 4 ∧ num ps 0 1 ≠ 3 ∧ num ps 1 1 ≤ 2 ∧ zeroAt ps 2 2 = true ∧ ¬ (num ps 0 1 = 2 ∧ num ps 1 1 ≠ 0)
        ∧ num ps 4 8 < x.memSize (num ps 0 1) ∧ (x.memRead (num ps 0 1) (num ps 4 8) 6).1 = true)
    ∧ Comes (fun x => x.power ≠ 1 ∧ x.sys.phase ≠ .waitPfw)
    ∧ ∃ k, Comes (fun x => x.mem.scrub = some k ∧ x.power ≠ 1 ∧ ¬ (k.mem = 0 ∧ (x.now - k.since) * k.rate < (k.stop - k.start) * 419431)) :=
  ⟨meets (le 4 1 ++ le 8 0 ++ le 8 64 ++ le 4 1000) bench,
    meets (le 4 0) bench,
    meets (le 4 1 ++ le 8 0) bench,
    comes bench,
    ⟨⟨1, false, 0, 64, 0, 0, asker 7 0xD001⟩, comes (bench.onMem fun y =>
        { y with scrub := some ⟨1, false, 0, 64, 0, 0, asker 7 0xD001⟩ })⟩⟩

theorem test_meets_CounterCommandsComplete :
    Meets 0xE001 (fun _ ps _ => num ps 1 1 < 8 ∧ zeroAt ps 2 2 = true ∧ ¬ (bit (num ps 1 1) 1 = true ∧ bit (num ps 1 1) 2 = true)
        ∧ ∀ i, i < 8 → bit (num ps 0 1) i = true → pmcCfgOk (word (num ps (4 + 4 * i) 4)) = true ∧ bits (num ps (4 + 4 * i) 4) 23 7 = 0
          ∧ bits (num ps (4 + 4 * i) 4) 12 4 = 0)
    ∧ Meets 0xE002 (fun _ ps _ => num ps 0 4 < 2)
    ∧ Meets 0xE003 (fun _ ps _ => 10 ≤ wfld (word (num ps 0 4)) PMC_DUMP_PERIOD ∧ bits (num ps 0 4) 24 6 = 0)
    ∧ Comes (fun x => x.on PMC_DUMP PMC_DUMP_DUMP_EN = true ∧ x.coreClock = true ∧ x.pmcBlk.nextDump ≤ x.served40 ∧ x.address.isSome =
        true ∧ x.full 58 = false)
    ∧ Comes (fun x => x.on PMC_DUMP PMC_DUMP_DUMP_EN = true ∧ x.coreClock = true ∧ x.pmcBlk.nextDump ≤ x.served40 ∧ x.address.isSome =
        true ∧ x.full 58 = true)
    ∧ Comes (fun _ => True)
    ∧ (∃ b : Fin 64, ∃ w : Word, Comes (fun x => wfld w PMC_TONE_EN = 1 ∧ (x.fld (AFE_BAY_EXC b) AFE_BAY_EXC_EMODE ≠ 1 ∨ ∃ c ∈ x.sampled
        b, x.chMode c ≠ 2 ∧ x.chMode c ≠ 3)))
    ∧ (∃ b : Fin 64, ∃ w : Word, Comes (fun x => wfld w PMC_TONE_EN = 1 ∧ x.fld (AFE_BAY_EXC b) AFE_BAY_EXC_EMODE = 1 ∧ (∀ c ∈ x.sampled b, x.chMode c = 2 ∨ x.chMode c = 3)
        ∧ x.toned b = false ∧ x.bayRuns b = true))
    ∧ ∃ b : Fin 64, ∃ w : Word, Comes (fun x => wfld w PMC_TONE_EN = 0 ∧ x.toned b = false) :=
  ⟨meets (le 4 1 ++ le 4 2 ++ List.replicate 28 0#8) bench,
    meets (le 4 0) bench,
    meets (le 4 10) bench,
    comes (put bench [(PMC_DUMP, PMC_DUMP_DUMP_EN, 1)]),
    comes ((put bench [(PMC_DUMP, PMC_DUMP_DUMP_EN, 1), (QM_Q_CFG 58, QM_Q_CFG_LIMIT, 0)])),
    comes bench,
    ⟨0, setBits 0#32 PMC_TONE_EN 1, comes bench⟩,
    ⟨0, setBits 0#32 PMC_TONE_EN 1, comes (put bench ([(AFE_BAY_EXC 0, AFE_BAY_EXC_EMODE, 1), (CONV_BAY_MODE 0, CONV_BAY_MODE_BMODE, 1)]
        ++ (List.range 8).map fun i => (AFE_CH_CFG i, AFE_CH_CFG_MODE, 2)))⟩,
    ⟨0, 0#32, comes bench⟩⟩

theorem test_meets_CalibrationCommandsComplete :
    Meets 0xF001 (fun _ ps x => num ps 0 1 < 6 ∧ 1 ≤ num ps 2 1 ∧ num ps 1 1 + num ps 2 1 ≤ calCount (num ps 0 1) ∧ num ps 3 1 < 2
        ∧ (num ps 0 1 = 0 → (allIn (num ps 1 1) (num ps 2 1) fun k => allIn 0 16 fun i => x.bmode (dieBay k i) == 0) = true)
        ∧ (num ps 0 1 = 3 → (allIn (num ps 1 1) (num ps 2 1) fun p => x.on (LNK_PORT_CFG p) LNK_PORT_CFG_TEST) = true)
        ∧ (x.cal.running.any fun r => (calItem r.g).1 == num ps 0 1) = false)
    ∧ Meets 0xF002 (fun _ _ _ => True)
    ∧ Meets 0xF003 (fun _ ps x => num ps 0 1 < 6 ∧ num ps 1 1 < calCount (num ps 0 1) ∧ zeroAt ps 2 2 = true ∧ 1 ≤ num ps 8 4 ∧ num ps 8 4 ≤ 4000
        ∧ num ps 4 4 + num ps 8 4 ≤ (x.calImage (calGroup (num ps 0 1) (num ps 1 1))).length)
    ∧ Meets 0xF004 (fun _ ps _ => bits (num ps 0 4) 24 5 = 0 ∧ bits (num ps 0 4) 0 16 = 0 ∧ bits (num ps 0 4) 16 8 ≠ 0) :=
  ⟨meets (le 1 5 ++ le 1 0 ++ le 1 1 ++ le 1 0) bench,
    meets [] bench,
    meets (le 4 0 ++ le 4 0 ++ le 4 1) bench,
    meets (le 4 0x10000 ++ le 4 0) bench⟩

theorem test_meets_CalibrationEventsComplete :
    (∃ g : Fin 29, Comes (fun x => x.sys.reloading = false ∧ (x.calPolicy g).1 = true ∧ (x.calPolicy g).2 ≠ 0 ∧ Tab.get 0 x.cal.lastRun g
        + (x.calPolicy g).2 ≤ x.now))
    ∧ (∃ g : Fin 29, Comes (fun x => x.calReady g = true ∧ (x.cal.queued.any fun h => decide (h < g) && (calItem h).1 == (calItem g).1 && x.calReady h) = false
        ∧ (calItem g).1 ≠ 1 ∧ (calItem g).1 ≠ 2 ∧ (calItem g).1 ≠ 5))
    ∧ (∃ g : Fin 29, Comes (fun x => x.calReady g = true ∧ (x.cal.queued.any fun h => decide (h < g) && (calItem h).1 == (calItem g).1 && x.calReady h) = false
        ∧ (calItem g).1 = 1))
    ∧ (∃ g : Fin 29, Comes (fun x => x.calReady g = true ∧ (x.cal.queued.any fun h => decide (h < g) && (calItem h).1 == (calItem g).1 && x.calReady h) = false
        ∧ (calItem g).1 = 2))
    ∧ (∃ g : Fin 29, Comes (fun x => x.calReady g = true ∧ (x.cal.queued.any fun h => decide (h < g) && (calItem h).1 == (calItem g).1 && x.calReady h) = false
        ∧ (calItem g).1 = 5))
    ∧ (∃ g : Fin 29, Comes (fun x => (x.cal.running.any fun r => r.g == g) = true ∧ (calItem g).1 ≠ 1 ∧ (calItem g).1 ≠ 2 ∧ (calItem g).1
        ≠ 4))
    ∧ (∃ g : Fin 29, Comes (fun x => (x.cal.running.any fun r => r.g == g) = true ∧ (calItem g).1 = 4))
    ∧ (∃ g : Fin 29, Comes (fun x => (x.cal.running.any fun r => r.g == g) = true ∧ (calItem g).1 = 1 ∧ (x.takeover (calItem g).2).left = []
        ∧ (x.takeover (calItem g).2).bay = none ∧ (x.takeover (calItem g).2).reliefDue = false))
    ∧ (∃ g : Fin 29, Comes (fun x => (Tab.get (0, 0) x.cal.retryAt g).1 ≠ 0 ∧ (Tab.get (0, 0) x.cal.retryAt g).1 ≤ x.now))
    ∧ ∃ v : Fin 8, ∃ r, Comes (fun x => (x.cal.running.find? fun r => r.g == 8 + v.val) = some r) :=
  ⟨⟨4, comes (put bench [(CAL_POLICY, CAL_POLICY_CONV_AUTO, 1), (CAL_PERIOD, CAL_PERIOD_CONV_MIN, 10)])⟩,
    ⟨24, comes (bench.onCal fun y => { y with queued := [24] })⟩,
    ⟨4, comes (bench.onCal fun y => { y with queued := [4] })⟩,
    ⟨8, comes (linked.onCal fun y => { y with queued := [8] })⟩,
    ⟨28, comes (bench.onCal fun y => { y with queued := [28] })⟩,
    ⟨0, comes (bench.onCal fun y => { y with running := [⟨0, 0, 0, false, 0, noRec, []⟩] })⟩,
    ⟨24, comes (bench.onCal fun y => { y with running := [⟨24, 0, 0, false, 0, noRec, []⟩] })⟩,
    ⟨4, comes (bench.onCal fun y => { y with running := [⟨4, 0, 0, false, 0, noRec, []⟩] })⟩,
    ⟨0, comes (bench.onCal fun y => { y with retryAt := [(0, (1, 1))] })⟩,
    ⟨0, ⟨8, 0, 0, false, 0, noRec, []⟩, comes (bench.onCal fun y => { y with running := [⟨8, 0, 0, false, 0, noRec, []⟩] })⟩⟩

theorem test_meets_FrontEndCommandsComplete :
    Meets 0x1001 (fun _ ps x => 1 ≤ num ps 2 2 ∧ num ps 0 2 + num ps 2 2 ≤ 512 ∧ chWordsClean (word (num ps 4 4)).toNat (word (num ps 8 4)).toNat = true
        ∧ ∀ o ∈ x.chChecks (num ps 0 2) (num ps 2 2) (word (num ps 4 4)) (word (num ps 8 4)), o = none)
    ∧ Meets 0x1002 (fun _ ps _ => num ps 0 2 < 512 ∧ zeroAt ps 2 2 = true)
    ∧ Meets 0x1003 (fun _ ps x => num ps 0 1 < 64 ∧ zeroAt ps 1 3 = true ∧ bits (word (num ps 4 4)).toNat 28 1 = 0 ∧ bits (word (num ps 4 4)).toNat 12 4 = 0
        ∧ bits (word (num ps 8 4)).toNat 16 4 = 0 ∧ ∀ o ∈ x.excChecks (num ps 0 1) (word (num ps 4 4)) (word (num ps 8 4)), o = none)
    ∧ Meets 0x1004 (fun _ ps x => num ps 6 1 < 4 ∧ zeroAt ps 7 1 = true ∧ num ps 8 12 = 0 ∧ ∀ o ∈ x.injectChecks (num ps 0 2) (num ps 2 2)
        (num ps 4 2) (num ps 20 4), o = none)
    ∧ (∃ i, Meets 0x1004 (fun _ ps x => num ps 6 1 < 4 ∧ zeroAt ps 7 1 = true ∧ num ps 8 12 ≠ 0 ∧ x.armTimeOk (num ps 8 12 / 2 ^ 8) = true ∧ x.tq ≠ 3 ∧ x.freeAction = some i
        ∧ ∀ o ∈ x.injectChecks (num ps 0 2) (num ps 2 2) (num ps 4 2) (num ps 20 4), o = none))
    ∧ Meets 0x1005 (fun _ ps _ => 1 ≤ num ps 2 2 ∧ num ps 0 2 + num ps 2 2 ≤ 512 ∧ num ps 4 1 < 2 ∧ zeroAt ps 5 3 = true) :=
  ⟨meets (le 2 0 ++ le 2 1 ++ held (AFE_CH_CFG 0) ++ held (AFE_CH_THR 0)) bench,
    meets (le 4 0) bench,
    meets (le 4 0 ++ held (AFE_BAY_EXC 0) ++ held (AFE_BAY_SWEEP 0)) bench,
    meets (le 2 0 ++ le 2 1 ++ le 4 100 ++ le 12 0 ++ le 4 10) charge,
    ⟨0, meets (le 2 0 ++ le 2 1 ++ le 4 100 ++ le 12 (2400 * 2 ^ 48) ++ le 4 10) charge⟩,
    meets (le 2 0 ++ le 2 1 ++ le 4 0) bench⟩

theorem test_meets_FrontEndEventsComplete :
    (∃ c : Fin 512, Comes (fun x =>
        let step := x.scanN (c.val / 8) * clk
        let k := x.now / step * step
        x.modeAt c.val k = 1 ∧ x.bayRuns (c.val / 8) = true ∧ (x.ch c.val).resetDue = true ∧ (x.ch c.val).switches = []
          ∧ (∀ e, (x.ch c.val).edgeAt = some e → ¬ (k ≤ e ∧ e ≤ k + step))
          ∧ ∀ i, (x.ch c.val).inject = some i → ¬ (k ≤ i.edge ∧ i.edge ≤ k + step) ∧ ¬ (k ≤ i.back ∧ i.back ≤ k + step)))
    ∧ (∃ c : Fin 512, Comes (fun x => x.driven c.val = false))
    ∧ (∃ b : Fin 64, Comes (fun x => x.on (AFE_BAY_EXC b.val) AFE_BAY_EXC_BOOST = false ∧ wfld (x.excWord b.val) AFE_BAY_EXC_EMODE ≠ 0
        ∧ x.on (AFE_BAY_MON b.val) AFE_BAY_MON_LIMIT = false))
    ∧ (∃ b : Fin 64, ∃ m : ExcMeasure, Comes (fun x => wfld (x.excWord b.val) AFE_BAY_EXC_EMODE ≠ 0 ∧ wfld (x.excWord b.val) AFE_BAY_EXC_EMODE ≠ 1
        ∧ (m.limit = false ∨ x.on (AFE_BAY_EXC b.val) AFE_BAY_EXC_BOOST = true)))
    ∧ (∃ b : Fin 64, Comes (fun x => wfld (x.excWord b.val) AFE_BAY_EXC_EMODE = 1 ∧ (x.bayOf b.val).perFrom = none))
    ∧ (∃ b : Fin 64, ∃ f, Comes (fun x => wfld (x.excWord b.val) AFE_BAY_EXC_EMODE = 1 ∧ (x.bayOf b.val).perFrom = some f ∧ f +
        x.excPeriod b.val ≤ x.now))
    ∧ (∃ c : Fin 512, Comes (fun x => x.chMode c.val = 1 ∧ x.wireEn c.val = true ∧ x.on (AFE_CH_CFG c.val) AFE_CH_CFG_PILOT = true
        ∧ (x.on (AFE_CH_CFG c.val) AFE_CH_CFG_CM_CHECK = false ∨ ∀ f, x.acq.tickAt = some f → x.now ≤ f ∨ f + fineUs 264 ≤ x.now)))
    ∧ Comes (fun x => x.fld AFE_CTRL AFE_CTRL_TEST_TICK ≠ 0
        ∧ x.fld AFE_CTRL AFE_CTRL_TEST_TICK * periodOf (max 1 (x.fld AFE_CTRL AFE_CTRL_TEST_TICK)) x.served ≠ x.acq.lastTick)
    ∧ ∃ c : Fin 512, ∃ i, Comes (fun x => (x.ch c.val).inject = some i ∧ i.back ≤ x.now) :=
  ⟨⟨0, comes (charge.onCh 0 fun h => { h with resetDue := true })⟩,
    ⟨0, comes bench⟩,
    ⟨0, comes (put bench [(AFE_BAY_EXC 0, AFE_BAY_EXC_EMODE, 2)])⟩,
    ⟨0, ⟨10, 10, true, false, [], false⟩, comes (put bench [(AFE_BAY_EXC 0, AFE_BAY_EXC_EMODE, 2)])⟩,
    ⟨0, comes (put bench [(AFE_BAY_EXC 0, AFE_BAY_EXC_EMODE, 1)])⟩,
    ⟨0, 0, comes ((put bench [(AFE_BAY_EXC 0, AFE_BAY_EXC_EMODE, 1)]).onBay 0 fun y => { y with perFrom := some 0 })⟩,
    ⟨0, comes (put charge [(AFE_CH_CFG 0, AFE_CH_CFG_WIRE_EN, 1), (AFE_CH_CFG 0, AFE_CH_CFG_PILOT, 1)])⟩,
    comes (put timed [(AFE_CTRL, AFE_CTRL_TEST_TICK, 1)]),
    ⟨0, ⟨0,0,1,0,0,0,10,false,false⟩, comes (charge.onCh 0 fun h => { h with inject := some ⟨0,0,1,0,0,0,10,false,false⟩ })⟩⟩

theorem test_meets_ConversionCommandsComplete :
    Meets 0x2001 (fun _ ps x => 1 ≤ num ps 1 1 ∧ num ps 0 1 + num ps 1 1 ≤ 64 ∧ zeroAt ps 2 2 = true ∧ bits (word (num ps 4 4)).toNat 6 26 = 0
        ∧ bits (word (num ps 4 4)).toNat 2 2 = 0 ∧ ∀ i, i < num ps 1 1 →
          ∀ o ∈ x.bayChecks ((List.range (num ps 1 1)).map fun i => num ps 0 1 + i) (word (num ps 4 4)) (word (num ps 8 4)) (num ps 0 1 + i), o = none)
    ∧ Meets 0x2002 (fun _ ps _ => num ps 0 1 < 64 ∧ num ps 1 1 ≤ 64 ∧ num ps 0 1 + num ps 1 1 ≤ 64 ∧ num ps 2 1 < 4 ∧ zeroAt ps 3 1 = true
        ∧ bits (word (num ps 4 4)).toNat 10 2 = 0 ∧ bits (word (num ps 4 4)).toNat 6 2 = 0
        ∧ (((wordsOf (ps.drop 8) (num ps 1 1)).map word).all tseqOk) = true)
    ∧ MeetsHost 0x2003 (fun _ ps x => tseqOk (setBits (word (num ps 0 4)) CONV_TSEQ_LAST 0) = true ∧ x.transomRuns = true ∧
        x.acq.transom.urgent.length < 4)
    ∧ Comes (fun x => x.transomRuns = true ∧ x.acq.transom.running = none ∧ x.acq.transom.calibrating = false ∧ x.acq.transom.fullAt ≠
        some (x.now / clk))
    ∧ Comes (fun x => x.transomRuns = true ∧ x.acq.transom.running.isSome = true ∧ x.acq.transom.fullAt ≠ some (x.now / clk)
        ∧ x.acq.transom.pendingSlot = false)
    ∧ Comes (fun x => x.transomRuns = true ∧ x.acq.transom.running.isSome = true ∧ x.acq.transom.pendingSlot = true)
    ∧ Comes (fun _ => True) :=
  ⟨meets (le 1 0 ++ le 1 1 ++ le 2 0 ++ held (CONV_BAY_MODE 0) ++ held (CONV_BAY_BURST 0)) bench,
    meets (le 1 0 ++ le 1 1 ++ le 2 0 ++ le 4 0 ++ held (CONV_TSEQ 0)) bench,
    meetsHost (held (CONV_TSEQ 0)) bench,
    comes bench,
    comes (bench.onTransom fun y => { y with running := some 0 }),
    comes (bench.onTransom fun y => { y with running := some 0, pendingSlot := true }),
    comes bench⟩

theorem test_meets_ConversionEventsComplete :
    (∃ b : Fin 64, ∃ w, Comes (fun x => x.scanHolds = false ∧ x.bmode b.val = 2 ∧ x.bayReady b.val = true ∧ (x.bayOf b.val).window = none
        ∧ x.nextWindow b.val = some w))
    ∧ (∃ b : Fin 64, ∃ w, Comes (fun x => (x.bayOf b.val).window = some w ∧ (x.windowStrobes b.val w).2 + (14 + x.scanN b.val - 1) * clk ≤
        x.now))
    ∧ (∃ b : Fin 64, ∃ scan, ∃ at_, Comes (fun x => (x.bayOf b.val).scanNext = some (scan, at_) ∧ at_ ≤ x.now))
    ∧ Comes (fun x => x.fld CONV_TSEQ_CTRL CONV_TSEQ_CTRL_PERIOD ≠ 0 ∧ x.acq.transom.lastPeriodAt
        < ceilDiv (periodOf (max 1 (x.fld CONV_TSEQ_CTRL CONV_TSEQ_CTRL_PERIOD)) x.served * x.fld CONV_TSEQ_CTRL CONV_TSEQ_CTRL_PERIOD * 2 ^ 80) 1000)
    ∧ Comes (fun _ => True)
    ∧ (∃ u, ∃ c, Comes (fun x => x.acq.transom.urgentNow = some u ∧ u.caller = some c ∧ x.acq.transom.since + settleOf u.entry + convOf
        u.entry ≤ x.now))
    ∧ (∃ u, Comes (fun x => x.acq.transom.urgentNow = some u ∧ u.caller = none ∧ x.acq.transom.since + settleOf u.entry + convOf u.entry ≤
        x.now))
    ∧ (∃ i, Comes (fun x => x.acq.transom.urgentNow = none ∧ x.acq.transom.running = some i ∧ x.acq.transom.calibrating = false
        ∧ x.acq.transom.since + settleOf (x.acq.transom.entry i) + convOf (x.acq.transom.entry i) ≤ x.now
        ∧ wfld (x.acq.transom.entry i) CONV_TSEQ_LAST ≠ 1 ∧ i ≠ 63))
    ∧ (∃ i, Comes (fun x => x.acq.transom.urgentNow = none ∧ x.acq.transom.running = some i ∧ x.acq.transom.calibrating = false
        ∧ x.acq.transom.since + settleOf (x.acq.transom.entry i) + convOf (x.acq.transom.entry i) ≤ x.now
        ∧ (wfld (x.acq.transom.entry i) CONV_TSEQ_LAST = 1 ∨ i = 63)))
    ∧ Comes (fun x => x.acq.transom.calibrating = true ∧ x.acq.transom.since + fineMs 1 ≤ x.now)
    ∧ (∃ k : Fin 4, ∃ diffs : List Int, ∃ i, Comes (fun x => (x.takeover k.val).bay = some i ∧ (x.takeover k.val).step = 1
        ∧ (x.takeover k.val).since + 64 * x.scanN (dieBay k.val i) * clk ≤ x.now ∧ (worstDiff diffs).2.natAbs ≤ 32))
    ∧ (∃ k : Fin 4, ∃ diffs : List Int, ∃ i, Comes (fun x => (x.takeover k.val).bay = some i ∧ (x.takeover k.val).step = 1
        ∧ (x.takeover k.val).since + 64 * x.scanN (dieBay k.val i) * clk ≤ x.now ∧ 32 < (worstDiff diffs).2.natAbs))
    ∧ (∃ k : Fin 4, ∃ i, Comes (fun x => (x.takeover k.val).bay = some i ∧ (x.takeover k.val).step = 5
        ∧ (x.takeover k.val).since + 64 * x.scanN (dieBay k.val i) * clk ≤ x.now))
    ∧ ∃ k : Fin 4, ∃ vs : List CalValue, ∃ i, Comes (fun x => (x.cal.running.any fun r => r.g == 4 + k.val) = true ∧ (x.takeover k.val).bay = some i ∧ (x.takeover k.val).step = 4
        ∧ ∀ v ∈ vs, v.element = i) :=
  ⟨⟨0, ((bursts.begin_ noon).nextWindow 0).getD (0, 0#32), comes bursts⟩,
    ⟨0, (0, 0#32), comes (timed.onBay 0 fun y => { y with window := some (0, 0#32) })⟩,
    ⟨0, 1, 0, comes (bench.onBay 0 fun y => { y with scanNext := some (1, 0) })⟩,
    comes (put timed [(CONV_TSEQ_CTRL, CONV_TSEQ_CTRL_PERIOD, 1000)]),
    comes bench,
    ⟨⟨0#32, some (asker 7 0x3006)⟩, asker 7 0x3006, comes (bench.onTransom fun y =>
        { y with urgentNow := some ⟨0#32, some (asker 7 0x3006)⟩ })⟩,
    ⟨⟨0#32, none⟩, comes (bench.onTransom fun y => { y with urgentNow := some ⟨0#32, none⟩ })⟩,
    ⟨0, comes (bench.onTransom fun y => { y with running := some 0 })⟩,
    ⟨63, comes (bench.onTransom fun y => { y with running := some 63 })⟩,
    comes (bench.onTransom fun y => { y with calibrating := true }),
    ⟨0, [], 0, comes (bench.onTakeover 0 fun y => { y with bay := some 0, step := 1 })⟩,
    ⟨0, [33], 0, comes (bench.onTakeover 0 fun y => { y with bay := some 0, step := 1 })⟩,
    ⟨0, 0, comes (bench.onTakeover 0 fun y => { y with bay := some 0, step := 5 })⟩,
    ⟨0, [], 0, comes ((bench.onTakeover 0 fun y => { y with bay := some 0, step := 4 }).onCal fun y =>
        { y with running := [⟨4, 0, 0, false, 0, noRec, []⟩] })⟩⟩

theorem test_meets_DecimationCommandsComplete :
    Meets 0x3001 (fun _ ps x =>
        let first := num ps 0 2
        let count := num ps 2 2
        let w := word (num ps 4 4)
        let bw := word (num ps 12 4)
        let apply := bit (num ps 8 1) 0
        let chans := (List.range count).map fun i => first + i
        1 ≤ count ∧ first + count ≤ 512 ∧ bits w.toNat 12 20 = 0 ∧ bits w.toNat 9 1 = 0 ∧ num ps 8 1 < 2 ∧ zeroAt ps 9 3 = true
        ∧ (apply = true → bits bw.toNat 17 3 = 0 ∧ bits bw.toNat 8 8 = 0
          ∧ ∀ b ∈ (chans.map (· / 8)).eraseDups, histOk (x.scanCfg b) (wfld bw DEC_BAY_CFG_HIST_RATE) = true)
        ∧ x.loadFits (fun c => if decide (first ≤ c) && decide (c < first + count) then wfld w DEC_CH_CFG_RATE else x.chRate c) x.streaming
            x.acq.taps = true
        ∧ ∀ c ∈ chans, ∀ o ∈ x.chainChecks c w, o = none)
    ∧ Meets 0x3002 (fun _ ps x => 1 ≤ num ps 2 2 ∧ num ps 0 2 + num ps 2 2 ≤ 512 ∧ bits (word (num ps 4 4)).toNat 21 6 = 0 ∧ bits (word (num ps 4 4)).toNat 0 16 = 0
        ∧ ∀ i, i < num ps 2 2 → ∀ o ∈ x.detChecks (num ps 0 2 + i) (word (num ps 4 4)), o = none)
    ∧ Meets 0x3003 (fun _ ps x => 1 ≤ num ps 2 2 ∧ num ps 0 2 + num ps 2 2 ≤ 592 ∧ num ps 4 1 = 1 ∧ zeroAt ps 5 3 = true ∧ bits (word (num ps 8 4)).toNat 16 12 = 0
        ∧ ∀ o ∈ x.enableChecks ((List.range (num ps 2 2)).map fun i => num ps 0 2 + i) (word (num ps 8 4)), o = none)
    ∧ Meets 0x3003 (fun _ ps _ => 1 ≤ num ps 2 2 ∧ num ps 0 2 + num ps 2 2 ≤ 592 ∧ num ps 4 1 = 0 ∧ zeroAt ps 5 3 = true ∧ bits (word (num
        ps 8 4)).toNat 16 12 = 0) :=
  ⟨meets (le 2 0 ++ le 2 1 ++ held (DEC_CH_CFG 0) ++ le 4 0 ++ le 4 0) bench,
    meets (le 2 0 ++ le 2 1 ++ held (DEC_DET_CFG 0)) bench,
    meets (le 2 0 ++ le 2 1 ++ le 4 1 ++ le 4 100) volts,
    meets (le 2 0 ++ le 2 1 ++ le 4 0 ++ le 4 0) bench⟩

theorem test_meets_DecimationEventsComplete :
    (∃ c : Fin 512, Comes (fun x => codeDue x c.val))
    ∧ (∃ c : Fin 512, Comes (fun x => codeDue x c.val ∧ (x.modeAt c.val (arriving x c.val) = 0 ∨ x.modeAt c.val (arriving x c.val) = 5)))
    ∧ (∃ c : Fin 512, ∃ idx : Nat, Comes (fun x => c.val % 8 < x.scanN (c.val / 8) ∧ (x.strm c.val).tail = none ∧ x.on (DEC_CH_STAT c.val) DEC_CH_STAT_RUNNING = true
        ∧ x.burstDue c.val (x.course c.val).rate (x.course c.val).grid (x.strm c.val).next
            (x.sampleAt c.val (x.course c.val).rate (x.course c.val).grid idx) = some idx
        ∧ x.supportIn c.val (x.course c.val).mode (x.course c.val).rate (x.course c.val).grid idx = true))
    ∧ (∃ c : Fin 512, ∃ idx : Nat, Comes (fun x =>
        let rate := x.histRate (c.val / 8)
        c.val % 8 < x.scanN (c.val / 8) ∧ x.on (DEC_BAY_STAT (c.val / 8)) DEC_BAY_STAT_HIST_RUN = true
        ∧ idx = max (x.ch c.val).histNext (x.firstFrom c.val rate false (x.ch c.val).histFrom)
        ∧ x.supportIn c.val (x.chMode c.val) rate false idx = true))
    ∧ (∃ c : Fin 512, Comes (fun x => c.val % 8 < x.scanN (c.val / 8)))
    ∧ (∃ c : Fin 512, Comes (fun x => c.val % 8 < x.scanN (c.val / 8)))
    ∧ ∃ c : Fin 512, Comes (fun x =>
        let rate := x.chRate c.val
        let grid := x.chGrid c.val
        x.on (DEC_CH_STAT c.val) DEC_CH_STAT_WAITING = true ∧ x.live c.val = true
        ∧ (x.burstDue c.val rate grid (streamFirst x c.val) (x.sampleAt c.val rate grid (streamFirst x c.val))).isSome = true
        ∧ x.centre c.val rate grid (streamFirst x c.val) + x.halfSupport c.val rate grid ≤ x.now) :=
  ⟨⟨0, comes (volts.setConv 0 0 true) (by unfold codeDue arriving; decide +kernel)⟩,
    ⟨0, comes ((put volts [(AFE_CH_CFG 0, AFE_CH_CFG_MODE, 5)]).setConv 0 0 true) (by unfold codeDue arriving; decide +kernel)⟩,
    ⟨0, 0, comes ((put volts [(DEC_CH_STAT 0, DEC_CH_STAT_RUNNING, 1)]).onCh 0 fun h => { h with outs := [(noon, 0)] })⟩,
    ⟨0, (((put volts [(DEC_BAY_STAT 0, DEC_BAY_STAT_HIST_RUN, 1)]).onCh 0 fun h => { h with outs := [(noon, 0)] }).begin_ noon).firstFrom
        0 ((((put volts [(DEC_BAY_STAT 0, DEC_BAY_STAT_HIST_RUN, 1)]).onCh 0 fun h => { h with outs := [(noon, 0)] }).begin_
        noon).histRate 0) false 0, comes ((put volts [(DEC_BAY_STAT 0, DEC_BAY_STAT_HIST_RUN, 1)]).onCh 0 fun h =>
        { h with outs := [(noon, 0)] })⟩,
    ⟨0, comes volts⟩,
    ⟨0, comes volts⟩,
    ⟨0, comes ((put volts [(DEC_CH_STAT 0, DEC_CH_STAT_WAITING, 1)]).onStrm 0 fun y => { y with inForce := true })⟩⟩

theorem test_meets_CaptureCommandsComplete :
    Meets 0x6002 (fun _ ps x =>
        let y : Template := ⟨word (num ps 4 4), word (num ps 8 4), num ps 12 4, num ps 16 4, num ps 20 4, num ps 24 4⟩
        num ps 0 1 < 16 ∧ num ps 1 1 = 0 ∧ zeroAt ps 2 2 = true ∧ bits (num ps 4 4) 8 15 = 0 ∧ bits (num ps 8 4) 9 7 = 0 ∧ bits (num ps 8 4) 23 9 = 0
        ∧ zeroAt ps 15 1 = true ∧ zeroAt ps 19 1 = true ∧ zeroAt ps 23 1 = true ∧ (∀ o ∈ x.armChecks (num ps 0 1) y, o = none)
        ∧ x.engArmed (num ps 0 1) = false)
    ∧ Meets 0x6002 (fun _ ps x => num ps 0 1 < 16 ∧ num ps 1 1 = 1 ∧ zeroAt ps 2 2 = true ∧ x.served < num ps 28 12 * 2 ^ 32
        ∧ num ps 28 12 * 2 ^ 32 ≤ x.served + 2592000 * 2 ^ 80 ∧ x.engArmed (num ps 0 1) = true ∧ x.address.isSome = true ∧ x.slotsUsed (num ps 0 1) < 4)
    ∧ (∃ id, Meets 0x6002 (fun _ ps x =>
        let T := if num ps 28 12 = 0 then x.served else num ps 28 12 * 2 ^ 32
        num ps 0 1 < 16 ∧ num ps 1 1 = 1 ∧ zeroAt ps 2 2 = true ∧ T ≤ x.served ∧ x.engArmed (num ps 0 1) = true ∧ x.address.isSome = true
        ∧ ((x.judge (num ps 0 1) T 32 x.addr 65536 none).1 = .opened id ∨ (x.judge (num ps 0 1) T 32 x.addr 65536 none).1 = .nothing id)))
    ∧ Meets 0x6002 (fun _ ps x => num ps 0 1 < 16 ∧ num ps 1 1 = 2 ∧ zeroAt ps 2 2 = true ∧ x.engArmed (num ps 0 1) = true ∧ x.address.isSome = true
        ∧ x.slotsUsed (num ps 0 1) < 4)
    ∧ (∃ pane, Meets 0x6003 (fun _ ps x => num ps 0 1 < 16 ∧ num ps 1 1 = 0 ∧ (x.eng (num ps 0 1)).issued.contains (num ps 2 2) = true
        ∧ ((x.eng (num ps 0 1)).panes.find? fun q => q.id == num ps 2 2) = some pane))
    ∧ Meets 0x6003 (fun _ ps _ => num ps 0 1 < 16 ∧ num ps 1 1 = 1)
    ∧ Meets 0x6003 (fun _ ps _ => num ps 0 1 < 16 ∧ num ps 1 1 = 2)
    ∧ Meets 0x6004 (fun c ps x => bits (num ps 13 1) 3 5 = 0 ∧ bits (num ps 16 2) 11 5 = 0 ∧ zeroAt ps 18 2 = true ∧ c.origin = false
        ∧ heardBefore x ps = false)
    ∧ Meets 0x6004 (fun c ps x => bits (num ps 13 1) 3 5 = 0 ∧ bits (num ps 16 2) 11 5 = 0 ∧ zeroAt ps 18 2 = true ∧ c.origin = true
        ∧ heardBefore x ps = false ∧ num ps 16 2 % 2048 ≠ x.addr)
    ∧ Meets 0x6005 (fun _ ps x => 1 ≤ num ps 2 2 ∧ num ps 0 2 + num ps 2 2 ≤ 512 ∧ num ps 4 12 < num ps 16 12
        ∧ num ps 16 12 * 2 ^ 32 ≤ x.served + 10 * 2 ^ 80 ∧ num ps 28 1 < 2 ∧ zeroAt ps 29 3 = true
        ∧ (allIn (num ps 0 2) (num ps 2 2) fun ch => x.histEn (ch / 8)) = true)
    ∧ Meets 0x6006 (fun _ ps _ => 1 ≤ num ps 2 2 ∧ num ps 0 2 + num ps 2 2 ≤ 512 ∧ bits (num ps 4 4) 24 6 = 0 ∧ bits (num ps 4 4) 6 14 =
        0) :=
  ⟨meets (paneAsk 0 0) volts,
    meets (paneAsk 1 (2400 * 2 ^ 48)) engined,
    ⟨1, meets (paneAsk 1 0) engined⟩,
    meets (paneAsk 2 0) engined,
    ⟨pane0 true none, meets (le 4 0) (engined.onEng 0 fun y => { y with panes := [pane0 true none], issued := [0] })⟩,
    meets (le 4 0x100) bench,
    meets (le 4 0x200) bench,
    meets (le 12 0 ++ le 8 0) bench,
    ⟨noon, told 0x6004 (le 12 0 ++ le 4 0 ++ le 4 9), benchCred, bench, by unfold Accepts; decide +kernel, (by decide +kernel)⟩,
    meets (le 2 0 ++ le 2 1 ++ le 12 0 ++ le 12 1 ++ le 4 0) (put bench [(DEC_BAY_CFG 0, DEC_BAY_CFG_HIST_EN, 1)]),
    meets (le 2 0 ++ le 2 1 ++ le 4 0) bench⟩

theorem test_meets_CaptureEventsComplete :
    (∃ u : Fin 32, Comes (fun x =>
        let p := x.fld (CAP_TRIG_PARAM u.val) CAP_TRIG_PARAM_PARAM
        (x.unitsOf 6).contains u.val = true ∧ p ≠ 0 ∧ (x.unit u.val).lastTime < periodOf p x.served ∧ (x.power = 2 ∨ x.power = 3)))
    ∧ (∃ id : Nat, ∃ p, ∃ h, Comes (fun x => ((x.eng (id / 4096)).panes.find? fun p => p.id == id && !p.opened) = some p ∧ p.heldTime =
        some h ∧ h ≤ x.served))
    ∧ (∃ id : Nat, ∃ p, Comes (fun x => ((x.eng (id / 4096)).panes.find? fun p => p.id == id && p.opened) = some p ∧ x.engHist p.engine =
        true ∧ x.historyHolds p = true))
    ∧ (∃ tag : Nat, ∃ source : Nat, ∃ e, Comes (fun x => (x.cap.extracts.find? fun e => e.caller.tag == tag && e.caller.source == source) = some e ∧ e.out = none ∧ x.power ≠ 1
        ∧ x.extractReady e = true))
    ∧ (∃ tag : Nat, ∃ source : Nat, ∃ e, ∃ o, Comes (fun x => (x.cap.extracts.find? fun e => e.caller.tag == tag && e.caller.source ==
        source) = some e ∧ e.out = some o))
    ∧ (∃ k, Comes (fun x => x.cap.repartAt = some k ∧ k * 2 ^ 80 ≤ x.served))
    ∧ (∃ e : Fin 16, Comes (fun x => x.engArmed e.val = false ∧ ∀ o ∈ x.armChecks e.val (engineTemplate x e.val), o = none))
    ∧ ∃ e : Fin 16, Comes (fun x => x.engArmed e.val = true) :=
  ⟨⟨0, comes (put timed [(CAP_TRIG_CFG 0, CAP_TRIG_CFG_EN, 1), (CAP_TRIG_CFG 0, CAP_TRIG_CFG_TYPE, 6), (CAP_TRIG_PARAM 0,
        CAP_TRIG_PARAM_PARAM, 10)])⟩,
    ⟨0, pane0 false (some 0), 0, comes (engined.onEng 0 fun y => { y with panes := [pane0 false (some 0)] })⟩,
    ⟨0, pane0 true none, comes (((put engined [(CAP_ENG_CFG 0, CAP_ENG_CFG_SOURCE, 1), (CAP_ENG_CFG 0, CAP_ENG_CFG_GRID, 0), (DEC_BAY_STAT
        0, DEC_BAY_STAT_HIST_RUN, 1)]).onCh 0 fun h => { h with histNext := 1000 }).onEng 0 fun y =>
        { y with panes := [pane0 true none] })⟩,
    ⟨7, 7 * 2048, ⟨0, 1, 0, 1, false, asker 7 0x6005, none⟩, comes (timed.onCap fun y =>
        { y with extracts := [⟨0, 1, 0, 1, false, asker 7 0x6005, none⟩] })⟩,
    ⟨7, 7 * 2048, ⟨0, 1, 0, 1, false, asker 7 0x6005, some ⟨[], 0, 0, 0⟩⟩, ⟨[], 0, 0, 0⟩, comes (timed.onCap fun y =>
        { y with extracts := [⟨0, 1, 0, 1, false, asker 7 0x6005, some ⟨[], 0, 0, 0⟩⟩] })⟩,
    ⟨1, comes (timed.onCap fun y => { y with repartAt := some 1 })⟩,
    ⟨0, comes (put engined [(CAP_ENG_CFG 0, CAP_ENG_CFG_ARM, 0)])⟩,
    ⟨0, comes engined⟩⟩

theorem test_meets_TimeCommandsComplete :
    Meets 0x4001 (fun _ _ _ => True)
    ∧ Meets 0x4002 (fun _ ps x =>
        let w := word (num ps 4 4)
        num ps 0 1 < 2 ∧ zeroAt ps 1 3 = true ∧ num ps 12 1 < 4 ∧ zeroAt ps 13 3 = true ∧ wfld w TB_DOM_CFG_TOD_FMT ≠ 3
        ∧ wfld w TB_DOM_CFG_HOLD_LIMIT ≠ 0 ∧ bit w.toNat 24 = false
        ∧ (bit (num ps 12 1) 0 = true → x.domState (num ps 0 1) = 2 ∨ x.domState (num ps 0 1) = 3))
    ∧ Meets 0x4003 (fun _ ps x => num ps 0 1 ≤ 2 ∧ num ps 1 1 < 2 ∧ zeroAt ps 2 2 = true ∧ (num ps 0 1 = 0 ∨ x.domTq (num ps 0 1 - 1) ≠
        3))
    ∧ (∃ i, Meets 0x4004 (fun _ ps x =>
        let w := num ps 4 4
        let a := bits w 24 4
        num ps 0 1 = 0 ∧ zeroAt ps 2 2 = true ∧ ((num ps 1 1 = 255 ∧ x.freeAction = some i) ∨ (num ps 1 1 = i ∧ i < 32 ∧ x.armed i = false))
        ∧ a < 8 ∧ bits w 28 3 = 0 ∧ bits w 20 2 = 0 ∧ (a = 1 ∨ a = 2 → num ps 8 4 = 0) ∧ (a = 3 ∨ a = 7 → bits w 0 20 = 0)
        ∧ x.armTimeOk (num ps 12 12 / 256) = true ∧ x.tq ≠ 3))
    ∧ Meets 0x4004 (fun _ ps x => num ps 0 1 = 1 ∧ zeroAt ps 2 2 = true ∧ num ps 1 1 < 32
        ∧ x.actDue (num ps 1 1) = false ∧ (x.armed (num ps 1 1) = true ∨ (x.act (num ps 1 1)).launched = false))
    ∧ Meets 0x4004 (fun _ ps x => num ps 0 1 = 1 ∧ zeroAt ps 2 2 = true ∧ num ps 1 1 < 32
        ∧ (x.actDue (num ps 1 1) = true ∨ (x.armed (num ps 1 1) = false ∧ (x.act (num ps 1 1)).launched = true)))
    ∧ Meets 0x4004 (fun _ ps _ => num ps 0 1 = 2 ∧ zeroAt ps 2 2 = true)
    ∧ Meets 0x4005 (fun _ ps _ => num ps 0 1 < 8 ∧ zeroAt ps 1 3 = true ∧ (signed 32 (num ps 4 4)).natAbs ≤ 1000000)
    ∧ Meets 0x4006 (fun _ _ _ => True) :=
  ⟨meets [] bench,
    meets (le 4 0 ++ held (TB_DOM_CFG 0) ++ le 16 0) bench,
    meets (le 4 1) timed,
    ⟨0, meets (le 4 0xFF00 ++ le 8 0 ++ le 12 (2400 * 2 ^ 48)) timed⟩,
    meets (le 4 1 ++ le 20 0) (entry0 7 (2400 * 2 ^ 40)),
    meets (le 4 1 ++ le 20 0) (entry0 7 0),
    meets (le 4 2 ++ le 20 0) bench,
    meets (le 8 0) bench,
    meets [] bench⟩

theorem test_meets_TimeEventsComplete :
    Comes (fun x => x.tb.lastSecond < x.second)
    ∧ Comes (fun x => x.tb.lastBoundary < x.xc / 50000)
    ∧ (∃ p : Fin 8, ∃ st, Comes (fun x => x.portUp p.val = true ∧ (x.stampEdge (0x32 + p.val) false x.now).1 = some st))
    ∧ (∃ p : Fin 8, ∃ c : TimeCell, Comes (fun x => c.crcOk = true ∧ x.portUp p.val = true))
    ∧ (∃ d : Fin 2, Comes (fun x => x.domState d.val = 2 ∧ x.servoRuns = true ∧ x.gmEn d.val = false ∧ x.chooseUp d.val = none
        ∧ max (x.dom d.val).lastCell (x.dom d.val).lastOther + 16 ≤ x.tb.lastBoundary))
    ∧ (∃ d : Fin 2, ∃ e : PpsEdge, Comes (fun x => x.domState d.val = 2 ∧ x.servoRuns = true ∧ x.gmEn d.val = true ∧ (x.dom d.val).gm.edges.head? = some e
        ∧ e.fine + 76800000 * 8192 ≤ x.now))
    ∧ (∃ d : Fin 2, ∃ falling : Bool, ∃ st, Comes (fun x => x.gmEn d.val = true ∧ x.on (TB_DOM_CFG d.val) TB_DOM_CFG_PPS_FALL = falling
        ∧ (x.stampEdge (0x20 + d.val) falling x.now).1 = some st ∧ (x.stampEdge (0x20 + d.val) falling x.now).2.servoRuns = true))
    ∧ (∃ d : Fin 2, ∃ falling : Bool, Comes (fun x => x.gmEn d.val = true ∧ x.on (TB_DOM_CFG d.val) TB_DOM_CFG_PPS_FALL = falling
        ∧ (x.stampEdge (0x20 + d.val) falling x.now).1 = none))
    ∧ (∃ n : Fin 4, Comes (fun x => x.fpMode n.val = 1 ∧ x.fldRuns = true ∧ x.servoRuns = true))
    ∧ (∃ p : Path, ∃ d : Fin 2, ∃ hi : Word, Comes (fun x => incrOk (hi.toNat * 2 ^ 32 + (x.takeLow p (TB_INCR d.val)).1.toNat) = true))
    ∧ (∃ d : Fin 2, Comes (fun x => x.domState d.val = 1 ∨ (x.dom d.val).stepReq.isSome = true))
    ∧ (∃ d : Fin 2, Comes (fun x => x.domState d.val ≠ 1 ∧ (x.dom d.val).stepReq.isSome = false))
    ∧ (∃ i : Fin 32, Comes (fun x => x.armed i.val = true ∧ (x.act i.val).time ≤ x.served40 ∧ x.actDue i.val = true ∧ (∀ j, j < i.val → x.actDue j = false)
        ∧ x.supportsAction (x.action i.val) = true ∧ firstFail (x.actionChecks i.val) = none))
    ∧ (∃ i : Fin 32, ∃ st, Comes (fun x => x.armed i.val = true ∧ (x.act i.val).time ≤ x.served40 ∧ x.actDue i.val = true ∧ (∀ j, j < i.val → x.actDue j = false)
        ∧ x.supportsAction (x.action i.val) = true ∧ firstFail (x.actionChecks i.val) = some st))
    ∧ (∃ i : Fin 32, Comes (fun x => x.armed i.val = true ∧ (x.act i.val).time ≤ x.served40 ∧ x.actDue i.val = true ∧ (∀ j, j < i.val → x.actDue j = false)
        ∧ x.supportsAction (x.action i.val) = false))
    ∧ (∃ i : Fin 32, ∃ w : Word, Comes (fun x => x.armed i.val = false ∧ wfld w TB_ACT_CTRL_ACTION < 8 ∧ x.armTimeOk (actionTime x i.val)
        = true ∧ x.tq ≠ 3))
    ∧ ∃ i : Fin 32, Comes (fun x => x.armed i.val = true ∧ x.actDue i.val = false) :=
  ⟨comes bench,
    comes bench,
    ⟨0, stampOf linked 0x32, comes linked⟩,
    ⟨0, ⟨0, 0, ⟨0, 0, 0, 0, 0, 0, 0, 0⟩, ⟨0, 0, 0, 0, 0, 0, 0, 0⟩, true⟩, comes linked⟩,
    ⟨0, comes (timed.onTb fun y => { y with lastBoundary := 100 })⟩,
    ⟨0, ⟨0, none, false⟩, comes ((put timed [(TB_DOM_CFG 0, TB_DOM_CFG_GM_EN, 1)]).onDom 0 fun y =>
        { y with gm := { y.gm with edges := [⟨0, none, false⟩] } })⟩,
    ⟨0, false, stampOf (put linked [(TB_DOM_CFG 0, TB_DOM_CFG_GM_EN, 1)]) 0x20, comes (put linked [(TB_DOM_CFG 0, TB_DOM_CFG_GM_EN, 1)])⟩,
    ⟨0, false, comes (put timed [(TB_DOM_CFG 0, TB_DOM_CFG_GM_EN, 1)])⟩,
    ⟨0, comes (put bench [(FLD_PORT_CFG 0, FLD_PORT_CFG_MODE, 1)])⟩,
    ⟨.command, 0, 0x0053E2D6#32, comes bench⟩,
    ⟨0, comes (put bench [(TB_DOM_STAT 0, TB_DOM_STAT_STATE, 1)])⟩,
    ⟨0, comes timed⟩,
    ⟨0, comes (entry0 7 0)⟩,
    ⟨0, stBAD_STATE, comes (put (entry0 7 0) [(TB_ACT_ARG 0, TB_ACT_ARG_ARG, 1)])⟩,
    ⟨0, comes (put (entry0 1 0) [(SYS_PWR_STATE, SYS_PWR_STATE_CURRENT, 1)])⟩,
    ⟨0, 0#32, comes (timed.wr64 (TB_ACT_TIME 0) (2400 * 2 ^ 40))⟩,
    ⟨0, comes (entry0 7 (2400 * 2 ^ 40))⟩⟩

theorem test_meets_TimeIntervalCommandsComplete :
    Meets 0x5001 (fun _ ps x => zeroAt ps 6 2 = true ∧ ∀ o ∈ x.routeChecks (num ps 0 1) (num ps 1 1) (num ps 2 1) (num ps 3 1) (num ps 4
        2), o = none)
    ∧ Meets 0x5002 (fun _ ps x =>
        let first := num ps 0 2
        let count := num ps 2 1
        let em := x.fld (AFE_BAY_EXC (first / 8)) AFE_BAY_EXC_EMODE
        first < 512 ∧ 1 ≤ count ∧ count ≤ 8 ∧ (first + count - 1) / 8 = first / 8 ∧ num ps 3 1 < 8 ∧ 10 ≤ num ps 4 4 ∧ num ps 4 4 ≤ 60000
        ∧ 2000 ≤ num ps 8 4 ∧ num ps 12 4 ≤ 500000000 ∧ num ps 8 4 < num ps 12 4
        ∧ (allIn first count fun ch => x.chMode ch != 0 && x.chMode ch != 1) = true ∧ (bit (num ps 3 1) 0 = true → em = 2 ∨ em = 3)
        ∧ (x.tiu.gates.any fun g => g.bay == first / 8) = false ∧ count ≤ x.freeComps.length)
    ∧ Meets 0x5003 (fun _ ps _ => 1 ≤ num ps 0 1 ∧ num ps 0 1 ≤ 64 ∧ zeroAt ps 1 3 = true)
    ∧ Meets 0x6001 (fun _ ps x => num ps 0 1 < 32 ∧ zeroAt ps 1 3 = true ∧ bits (word (num ps 4 4)).toNat 10 6 = 0
        ∧ ∀ o ∈ x.trigChecks (num ps 0 1) (word (num ps 4 4)) (num ps 8 4) (num ps 12 4) (num ps 16 4), o = none) :=
  ⟨meets (le 1 0x22 ++ le 1 2 ++ le 1 1 ++ le 5 0) bench,
    meets (le 2 0 ++ le 2 1 ++ le 4 10 ++ le 4 2000 ++ le 4 500000000) volts,
    meets (le 4 1) bench,
    meets (le 8 0 ++ le 4 10 ++ le 4 5 ++ le 4 0) bench⟩

theorem test_meets_TimeIntervalEventsComplete :
    (∃ n : Fin 64, ∃ falling : Bool, Comes (fun x => x.takesEdge n.val falling = true ∧ x.srcUser n.val ≠ 3 ∧ (x.stampEdge n.val falling
        x.now).1 = none))
    ∧ (∃ n : Fin 64, ∃ falling : Bool, ∃ st, Comes (fun x => x.takesEdge n.val falling = true ∧ x.srcUser n.val ≠ 3 ∧ (x.stampEdge n.val falling x.now).1 = some st
        ∧ (x.stampEdge n.val falling x.now).2.srcUser st.src = 1))
    ∧ (∃ n : Fin 64, ∃ falling : Bool, ∃ st, Comes (fun x => x.takesEdge n.val falling = true ∧ x.srcUser n.val ≠ 3 ∧ (x.stampEdge n.val falling x.now).1 = some st
        ∧ (x.stampEdge n.val falling x.now).2.srcUser st.src = 2))
    ∧ (∃ n : Fin 64, ∃ falling : Bool, ∃ st, Comes (fun x => x.takesEdge n.val falling = true ∧ x.srcUser n.val = 3 ∧ (x.gateEdge n.val falling).1 = true
        ∧ ((x.gateEdge n.val falling).2.stampEdge n.val falling (x.gateEdge n.val falling).2.now).1 = some st
        ∧ ((x.gateEdge n.val falling).2.stampEdge n.val falling (x.gateEdge n.val falling).2.now).2.srcUser st.src = 3))
    ∧ (∃ n : Fin 64, ∃ falling : Bool, Comes (fun x => x.takesEdge n.val falling = true ∧ x.srcUser n.val = 3 ∧ (x.gateEdge n.val
        falling).1 = false))
    ∧ Comes (fun _ => True)
    ∧ Comes (fun _ => True)
    ∧ Comes (fun _ => True)
    ∧ (∃ b : Fin 64, ∃ g, Comes (fun x => (x.tiu.gates.find? fun g => g.bay == b.val) = some g ∧ g.openAt = none ∧ g.driveEnd ≤ x.now))
    ∧ ∃ b : Fin 64, ∃ g, ∃ a, Comes (fun x => (x.tiu.gates.find? fun g => g.bay == b.val) = some g ∧ g.openAt = some a ∧ g.pausedAt = none
        ∧ a + g.paused + fineMs g.gateMs ≤ x.now) :=
  ⟨⟨0x22, false, comes (sourced bench 1)⟩,
    ⟨0x22, false, stampOf (sourced linked 1) 0x22, comes (sourced linked 1)⟩,
    ⟨0x22, false, stampOf (sourced linked 2) 0x22, comes (sourced linked 2)⟩,
    ⟨0x22, false, stampOf ((sourced linked 3).onTiu fun y =>
        { y with gates := [{ gate0 (some 0) with chans := [⟨0, 0x22, 0, [], false, false, false, 0⟩] }] }) 0x22, comes ((sourced linked
        3).onTiu fun y => { y with gates := [{ gate0 (some 0) with chans := [⟨0, 0x22, 0, [], false, false, false, 0⟩] }] })⟩,
    ⟨0x22, false, comes (sourced linked 3)⟩,
    comes bench,
    comes bench,
    comes bench,
    ⟨0, gate0 none, comes (bench.onTiu fun y => { y with gates := [gate0 none] })⟩,
    ⟨0, gate0 (some 0), 0, comes (bench.onTiu fun y => { y with gates := [gate0 (some 0)] })⟩⟩

theorem test_meets_FieldCommandsComplete :
    Meets 0x7001 (fun _ ps x => num ps 0 1 < 4 ∧ zeroAt ps 1 3 = true ∧ ∀ o ∈ x.fpChecks (num ps 0 1) (word (num ps 4 4)) (word (num ps 8
        4)), o = none)
    ∧ Meets 0x7002 (fun _ ps _ => num ps 0 1 < 64 ∧ zeroAt ps 1 3 = true ∧ bits (word (num ps 4 4)).toNat 11 5 = 0 ∧ bits (word (num ps 4 4)).toNat 22 2 = 0
        ∧ bits (word (num ps 8 4)).toNat 8 8 = 0 ∧ ∀ o ∈ decChecks (word (num ps 4 4)), o = none)
    ∧ Meets 0x7003 (fun _ ps x => num ps 0 1 < 16 ∧ zeroAt ps 1 3 = true ∧ bits (word (num ps 4 4)).toNat 10 16 = 0 ∧ x.on FLD_CTRL FLD_CTRL_TRIP_LOCK = false
        ∧ ∀ o ∈ x.tripChecks (word (num ps 4 4)) (num ps 8 4) (num ps 12 4), o = none)
    ∧ Meets 0x7004 (fun _ ps _ => num ps 0 1 < 8 ∧ zeroAt ps 1 3 = true ∧ bits (word (num ps 4 4)).toNat 10 18 = 0
        ∧ ∀ o ∈ foutChecks (word (num ps 4 4)) (num ps 8 4) (num ps 12 4) (num ps 16 4), o = none)
    ∧ Meets 0x7005 (fun _ ps _ => zeroAt ps 2 2 = true) :=
  ⟨meets (le 4 0 ++ held (FLD_PORT_CFG 0) ++ held (FLD_PORT_TIMING 0) ++ le 4 0) bench,
    meets (le 4 0 ++ built [(FLD_DEC_CFG_WIDTH, 8)] ++ le 16 0) bench,
    meets (le 4 0 ++ built [(FLD_TRIP_CFG_SRC, 3)] ++ le 4 10 ++ le 4 5 ++ le 4 0) bench,
    meets (le 8 0 ++ le 4 5 ++ le 4 10 ++ le 4 0) bench,
    meets (le 4 1) bench⟩

theorem test_meets_FieldEventsComplete :
    (∃ n : Fin 4, Comes (fun x => x.fld (FLD_PORT_TIMING n.val) FLD_PORT_TIMING_POLL ≠ 0 ∧ x.fpMode n.val ≠ 0 ∧ x.fldRuns = true
        ∧ (x.fport n.val).lastPoll < periodOf (x.fld (FLD_PORT_TIMING n.val) FLD_PORT_TIMING_POLL) x.served ∧ x.fpBusy n.val = false))
    ∧ (∃ n : Fin 4, Comes (fun x => x.fld (FLD_PORT_TIMING n.val) FLD_PORT_TIMING_POLL ≠ 0 ∧ x.fpMode n.val ≠ 0 ∧ x.fldRuns = true
        ∧ (x.fport n.val).lastPoll < periodOf (x.fld (FLD_PORT_TIMING n.val) FLD_PORT_TIMING_POLL) x.served ∧ x.fpBusy n.val = true))
    ∧ (∃ n : Fin 4, ∃ chars, ∃ cfg, ∃ start, ∃ bytes, Comes (fun x => x.fldRuns = true ∧ x.frameOf n.val chars = some (cfg, start, bytes) ∧ (x.fport n.val).from_ ≤ start ∧ bytes.length ≤ 256
        ∧ frameCheck cfg (frameBytes cfg bytes) = true))
    ∧ (∃ n : Fin 4, ∃ chars, ∃ cfg, ∃ start, ∃ bytes, Comes (fun x => x.fldRuns = true ∧ x.frameOf n.val chars = some (cfg, start, bytes) ∧ (x.fport n.val).from_ ≤ start
        ∧ wfld cfg FLD_PORT_CFG_MODE = 1))
    ∧ (∃ o : Fin 16, Comes (fun x => x.fld (FLD_TRIP_TIME o.val) FLD_TRIP_TIME_STALE ≠ 0 ∧ x.fldRuns = true ∧ x.on (FLD_TRIP_CFG o.val) FLD_TRIP_CFG_EN = true
        ∧ (x.trip o.val).since + fineMs (x.fld (FLD_TRIP_TIME o.val) FLD_TRIP_TIME_STALE) ≤ x.now))
    ∧ (∃ o : Fin 16, Comes (fun x => (x.trip o.val).minOnEnd ≤ x.now ∧ (x.trip o.val).resetPending = false))
    ∧ (∃ o : Fin 16, Comes (fun x => (x.trip o.val).minOnEnd ≤ x.now ∧ (x.trip o.val).resetPending = true))
    ∧ Comes (fun _ => True) :=
  ⟨⟨0, comes (put timed [(FLD_PORT_TIMING 0, FLD_PORT_TIMING_POLL, 10), (FLD_PORT_CFG 0, FLD_PORT_CFG_MODE, 1)])⟩,
    ⟨0, comes ((put timed [(FLD_PORT_TIMING 0, FLD_PORT_TIMING_POLL, 10), (FLD_PORT_CFG 0, FLD_PORT_CFG_MODE, 1)]).onFport 0 fun y =>
        { y with xfer := some ⟨0, 2 * noon, 0#32, 0#32, []⟩ })⟩,
    ⟨0, [(10#8, 0)], (put bench [(FLD_PORT_CFG 0, FLD_PORT_CFG_MODE, 1), (FLD_PORT_CFG 0, FLD_PORT_CFG_END_DELIM, 1), (FLD_PORT_CFG 0,
        FLD_PORT_CFG_DELIM, 10)]).rd (FLD_PORT_CFG 0), 0, [10#8], comes (put bench [(FLD_PORT_CFG 0, FLD_PORT_CFG_MODE, 1), (FLD_PORT_CFG
        0, FLD_PORT_CFG_END_DELIM, 1), (FLD_PORT_CFG 0, FLD_PORT_CFG_DELIM, 10)])⟩,
    ⟨0, [(10#8, 0)], (put bench [(FLD_PORT_CFG 0, FLD_PORT_CFG_MODE, 1), (FLD_PORT_CFG 0, FLD_PORT_CFG_END_DELIM, 1), (FLD_PORT_CFG 0,
        FLD_PORT_CFG_DELIM, 10)]).rd (FLD_PORT_CFG 0), 0, [10#8], comes (put bench [(FLD_PORT_CFG 0, FLD_PORT_CFG_MODE, 1), (FLD_PORT_CFG
        0, FLD_PORT_CFG_END_DELIM, 1), (FLD_PORT_CFG 0, FLD_PORT_CFG_DELIM, 10)])⟩,
    ⟨0, comes (put bench [(FLD_TRIP_TIME 0, FLD_TRIP_TIME_STALE, 10), (FLD_TRIP_CFG 0, FLD_TRIP_CFG_EN, 1)])⟩,
    ⟨0, comes bench⟩,
    ⟨0, comes (bench.onTrip 0 fun y => { y with resetPending := true })⟩,
    comes bench⟩

theorem test_meets_QueueCommandsComplete :
    Meets 0x8001 (fun _ ps x => num ps 0 1 < 64 ∧ zeroAt ps 1 3 = true ∧ ∀ o ∈ x.queueRefuses (num ps 0 1) (word (num ps 4 4)) (word (num
        ps 8 4)), o = none)
    ∧ Meets 0x8002 (fun _ ps _ => 1 ≤ num ps 1 1 ∧ num ps 1 1 ≤ 64 ∧ num ps 0 1 + num ps 1 1 ≤ 64 ∧ num ps 2 1 < 2 ∧ zeroAt ps 3 1 = true)
    ∧ Meets 0x8004 (fun _ ps _ => retCfgOk (word (num ps 0 4)) = true ∧ bits (word (num ps 0 4)).toNat 24 7 = 0 ∧ qmCtrlOk (word (num ps 4 4)) = true
        ∧ bits (word (num ps 4 4)).toNat 16 8 = 0)
    ∧ (∃ i, Meets 0x8005 (fun _ ps x => num ps 0 2 ≠ 0xFFFF ∧ num ps 2 1 < 8 ∧ num ps 2 1 / 2 ≠ 0 ∧ zeroAt ps 3 1 = true ∧ zeroAt ps 14 2 = true
        ∧ num ps 4 2 ≤ num ps 6 2 ∧ num ps 6 2 < 2048 ∧ num ps 8 2 ≤ num ps 10 2 ∧ num ps 10 2 < 1024
        ∧ num ps 12 2 ≠ 0 ∧ num ps 12 2 < 512 ∧ num ps 16 4 ≤ 86400000 ∧ x.shutEntry (num ps 0 2) = some i))
    ∧ Meets 0x8006 (fun _ ps _ => zeroAt ps 2 2 = true)
    ∧ Meets 0x8003 (fun _ ps _ => 1 ≤ num ps 0 2 ∧ num ps 0 2 ≤ 170 ∧ num ps 2 1 = 1 ∧ zeroAt ps 3 1 = true
        ∧ (allIn 0 (num ps 0 2) fun i => zeroAt ps (10 + 24 * i) 2) = true)
    ∧ Meets 0x8003 (fun _ ps _ => 1 ≤ num ps 0 2 ∧ num ps 0 2 ≤ 170 ∧ num ps 2 1 = 0 ∧ zeroAt ps 3 1 = true
        ∧ (allIn 0 (num ps 0 2) fun i => zeroAt ps (10 + 24 * i) 2) = true) :=
  ⟨meets (le 4 0 ++ held (QM_Q_CFG 0) ++ held (QM_Q_WM 0)) bench,
    meets (le 1 0 ++ le 1 1 ++ le 2 0) bench,
    meets (held QM_RET_CFG ++ held QM_CTRL) bench,
    ⟨0, meets (le 2 1 ++ le 2 2 ++ le 8 0 ++ le 2 1 ++ le 6 0) bench⟩,
    meets (le 4 0) bench,
    meets (le 2 1 ++ le 2 1 ++ le 24 0) bench,
    meets (le 2 1 ++ le 2 0 ++ le 24 0) bench⟩

theorem test_meets_QueueEventsComplete :
    Comes (fun _ => True)
    ∧ (∃ rid : Nat, ∃ r, Comes (fun x => (x.qm.recs.find? fun r => r.id == rid && r.spillable) = some r ∧ x.spillDue r = true))
    ∧ (∃ rid : Nat, ∃ r, Comes (fun x => (x.qm.recs.find? fun r => x.wanted r) = some r ∧ (x.qm.recs.find? fun r => r.id == rid && x.wanted r) = some r ∧ r.id = rid
        ∧ x.power ≠ 1 ∧ r.cells ≤ x.room 53 ∧ r.spilled = none
        ∧ (x.memReadRange 0 (x.retentionBase rid) (32 + (pad4 r.kept).length) 3).1 = true))
    ∧ (∃ rid : Nat, ∃ r, ∃ f, Comes (fun x => (x.qm.recs.find? fun r => x.wanted r) = some r ∧ (x.qm.recs.find? fun r => r.id == rid && x.wanted r) = some r ∧ r.id = rid
        ∧ x.power ≠ 1 ∧ r.cells ≤ x.room 53 ∧ r.spilled = some f ∧ (decodeStream f).err = none
        ∧ (x.memReadRange 0 (x.retentionBase rid) (32 + (pad4 r.kept).length) 3).1 = true))
    ∧ (∃ rid : Nat, ∃ r, Comes (fun x => (x.qm.recs.find? fun r => x.wanted r) = some r ∧ (x.qm.recs.find? fun r => r.id == rid && x.wanted r) = some r ∧ r.id = rid
        ∧ x.power ≠ 1 ∧ r.cells ≤ x.room 53 ∧ (x.memReadRange 0 (x.retentionBase rid) (32 + (pad4 r.kept).length) 3).1 = false))
    ∧ (∃ q : Fin 64, Comes (fun x => (x.qm.recs.any fun r => r.q == q.val && match r.deliveredAt with
        | some d => decide (x.now ≥ d + fineMs (x.fld QM_CTRL QM_CTRL_REL_TIMEOUT))
        | none => false) = true))
    ∧ (∃ q : Fin 64, ∃ c, Comes (fun x => (x.qst q.val).rewindCause = some c ∧ x.sending q.val = false))
    ∧ (∃ i : Fin 32, Comes (fun x => x.on (QM_SHUT_CTRL i.val) QM_SHUT_CTRL_ACTIVE = true ∧ Tab.get 0 x.qm.shutEnd i.val ≠ 0 ∧ Tab.get 0
        x.qm.shutEnd i.val ≤ x.now))
    ∧ ∃ r, Comes (fun x => x.qm.evRec = some r ∧ r.openedAt + fineMs 10 ≤ x.now) :=
  ⟨comes bench,
    ⟨0, rec0 .queued, comes (bench.onQm fun q => { q with recs := [rec0 .queued] })⟩,
    ⟨0, rec0 .returning, comes (bench.onQm fun q => { q with recs := [rec0 .returning] })⟩,
    ⟨0, { rec0 .returning with spilled := some (encodeStream 1 0 0 []) }, encodeStream 1 0 0 [], comes (bench.onQm fun q =>
        { q with recs := [{ rec0 .returning with spilled := some (encodeStream 1 0 0 []) }] })⟩,
    ⟨0, rec0 .returning, comes (((bench.onQm fun q => { q with recs := [rec0 .returning] }).onMem fun y => { y with damage := [⟨0, 0, 1, none, none⟩] })) (by 
    refine ⟨by decide +kernel, by decide +kernel, rfl, by decide +kernel, by decide +kernel, ?_⟩
    have h : (((bench.onQm fun q => { q with recs := [rec0 .returning] }).onMem fun y => { y with damage := [⟨0, 0, 1, none, none⟩] }).begin_ noon).retentionBase 0 = 0 := by
      unfold State.retentionBase
      rw [show max 1 (State.begin_ ((bench.onQm fun q => { q with recs := [rec0 .returning] }).onMem fun y => { y with damage := [⟨0, 0, 1, none, none⟩] }) noon).retArea = 1 from by decide +kernel, Nat.mod_one]
      decide +kernel
    rw [h]
    decide +kernel)⟩,
    ⟨0, comes (bench.onQm fun q => { q with recs := [rec0 .delivered] })⟩,
    ⟨0, 1, comes (bench.onQst 0 fun y => { y with rewindCause := some 1 })⟩,
    ⟨0, comes ((put bench [(QM_SHUT_CTRL 0, QM_SHUT_CTRL_ACTIVE, 1)]).onQm fun q => { q with shutEnd := [(0, 1)] })⟩,
    ⟨⟨0, 0, []⟩, comes (bench.onQm fun q => { q with evRec := some ⟨0, 0, []⟩ })⟩⟩

theorem test_meets_CompressionComplete :
    Meets 0x9001 (fun _ ps _ => cmpCtrlOk (word (num ps 0 4)) = true ∧ bits (word (num ps 0 4)).toNat 28 3 = 0 ∧ bits (word (num ps 0
        4)).toNat 12 14 = 0)
    ∧ Meets 0x9002 (fun _ ps x =>
        let k := num ps 1 1
        let w := if (x.slot k).opened then (x.slot k).width else num ps 3 1
        let orig := ofLe (Mem.readBytes 0#8 x.bufs.work (num ps 4 8 + 4) 4)
        x.power ≠ 1 ∧ num ps 0 1 ≤ 2 ∧ num ps 2 1 < 4 ∧ 1 ≤ num ps 16 1 ∧ num ps 16 1 ≤ 8 ∧ zeroAt ps 17 3 = true
        ∧ (∀ i, i < num ps 16 1 → zeroAt ps (32 + 16 * i) 4 = true)
        ∧ x.inWork (num ps 4 8) (num ps 12 4) = true ∧ (∀ b ∈ jobBufs ps, x.inWork b.1 b.2 = true)
        ∧ (num ps 0 1 = 0 → k < 4 ∧ (w = 1 ∨ w = 3 ∨ w = 4) ∧ num ps 12 4 % w = 0 ∧ (x.cmp.jobs.any fun j => j.op == 0 && j.slot == k) = false
          ∧ fsfBound (num ps 12 4 + w * (x.slot k).pending.length) w ≤ chainLen (jobBufs ps))
        ∧ (num ps 0 1 = 1 → num ps 12 4 < 8 ∨ orig = 0xFFFFFFFF ∨ orig ≤ chainLen (jobBufs ps)))
    ∧ Meets 0x9003 (fun _ ps x => num ps 0 1 < 16 ∧ num ps 1 1 < 2 ∧ zeroAt ps 2 2 = true ∧ (num ps 1 1 = 0 ∨ (flushAll x (num ps 0
        1)).2.inEngine = []))
    ∧ MeetsHost 0x9003 (fun _ ps x => num ps 0 1 < 16 ∧ num ps 1 1 = 1 ∧ zeroAt ps 2 2 = true ∧ (flushAll x (num ps 0 1)).2.inEngine ≠ [])
    ∧ (∃ rid : Nat, ∃ r, Comes (fun x => (x.qm.recs.filter fun r => r.place == .engine).head? = some r ∧ r.id = rid ∧ r.inAsm = r.cells))
    ∧ (∃ rid : Nat, ∃ r, Comes (fun x => (x.qm.recs.filter fun r => r.place == .engine) = [] ∧ (x.qm.recs.find? fun r => r.id == rid &&
        r.place == .spilling) = some r))
    ∧ (∃ tag : Nat, ∃ source : Nat, ∃ j, Comes (fun x => (x.cmp.jobs.find? fun j => j.caller.tag == tag && j.caller.source == source) = some j
        ∧ ((x.onCmp fun c => { c with jobs := c.jobs.filter fun y => y != j }).workRead j.src j.len).1 = true))
    ∧ (∃ tag : Nat, ∃ source : Nat, ∃ j, Comes (fun x => (x.cmp.jobs.find? fun j => j.caller.tag == tag && j.caller.source == source) = some j
        ∧ ((x.onCmp fun c => { c with jobs := c.jobs.filter fun y => y != j }).workRead j.src j.len).1 = false))
    ∧ ∃ d, Comes (fun x => x.cmp.drains = [d] ∧ (d.recs.any fun i => x.inEngine.contains i) = false) :=
  ⟨meets (held CMP_CTRL) bench,
    meets (le 3 0 ++ le 1 1 ++ le 8 0 ++ le 4 8 ++ le 4 1 ++ le 8 64 ++ le 8 64) (put bench [(MEM_DRAM_CFG, MEM_DRAM_CFG_WORK_NOW, 1)]),
    meets (le 4 1) bench,
    meetsHost (le 4 0x101) (bench.onQm fun q => { q with recs := [rec0 .engine] }),
    ⟨0, { rec0 .engine with inAsm := 1 }, comes (bench.onQm fun q => { q with recs := [{ rec0 .engine with inAsm := 1 }] })⟩,
    ⟨0, rec0 .spilling, comes (bench.onQm fun q => { q with recs := [rec0 .spilling] })⟩,
    ⟨7, 7 * 2048, ⟨0, 0, false, false, 1, 0, 8, [], true, asker 7 0x9002⟩, comes (bench.onCmp fun y =>
        { y with jobs := [⟨0, 0, false, false, 1, 0, 8, [], true, asker 7 0x9002⟩] })⟩,
    ⟨7, 7 * 2048, ⟨0, 0, false, false, 1, 0, 8, [], true, asker 7 0x9002⟩, comes ((bench.onCmp fun y =>
        { y with jobs := [⟨0, 0, false, false, 1, 0, 8, [], true, asker 7 0x9002⟩] }).onMem fun y =>
        { y with damage := [⟨0, 0, 1, none, none⟩] })⟩,
    ⟨⟨[0], 0, asker 7 0x9003⟩, comes (bench.onCmp fun y => { y with drains := [⟨[0], 0, asker 7 0x9003⟩] })⟩⟩

theorem test_meets_LinkCommandsComplete :
    Meets 0xA001 (fun _ ps x => num ps 0 1 < 8 ∧ zeroAt ps 1 3 = true ∧ bits (word (num ps 4 4)).toNat 12 3 = 0 ∧ bits (word (num ps 8 4)).toNat 16 16 = 0
        ∧ x.portWordsOk (num ps 0 1) (word (num ps 4 4)) (word (num ps 8 4)) = true ∧ x.portFits (num ps 0 1) (word (num ps 4 4)) = true)
    ∧ Meets 0xA002 (fun _ ps _ => num ps 0 1 < 8 ∧ zeroAt ps 1 3 = true)
    ∧ Meets 0xA003 (fun _ ps x =>
        let l := num ps 0 1
        l < 32 ∧ 16 ≤ num ps 1 1 ∧ num ps 1 1 ≤ 40 ∧ zeroAt ps 2 2 = true ∧ zeroAt ps 10 2 = true
        ∧ 1 ≤ num ps 5 1 ∧ num ps 5 1 ≤ 128 ∧ 1 ≤ num ps 6 1 ∧ num ps 6 1 ≤ 32 ∧ 1 ≤ num ps 8 1 ∧ num ps 8 1 ≤ 63 ∧ 1 ≤ num ps 9 1 ∧ num ps 9 1 ≤ 31
        ∧ num ps 5 1 * num ps 8 1 ≤ 2000 ∧ -64 ≤ numI ps 4 1 ∧ numI ps 4 1 + ((num ps 5 1 - 1) * num ps 6 1 : Nat) ≤ 63
        ∧ -31 ≤ numI ps 7 1 ∧ numI ps 7 1 + ((num ps 8 1 - 1) * num ps 9 1 : Nat) ≤ 31
        ∧ (x.on (LNK_LANE_STAT l) LNK_LANE_STAT_IN_USE || x.underTest l) = true ∧ (x.lnk.scans.any fun y => y.port == l / 4) = false)
    ∧ Meets 0xA004 (fun _ ps x => num ps 0 1 < 32 ∧ num ps 1 1 ≤ 3 ∧ num ps 2 1 ≤ 6 ∧ zeroAt ps 3 5 = true ∧ x.underTest (num ps 0 1) =
        true)
    ∧ Meets 0xA004 (fun _ ps x => num ps 0 1 < 32 ∧ (num ps 1 1 = 4 ∨ num ps 1 1 = 5) ∧ num ps 2 1 ≤ 6 ∧ zeroAt ps 3 5 = true ∧
        x.underTest (num ps 0 1) = true)
    ∧ Meets 0xA005 (fun _ ps x => num ps 0 1 < 32 ∧ num ps 1 1 ≤ 3 ∧ zeroAt ps 2 2 = true ∧ x.underTest (num ps 0 1) = true)
    ∧ Meets 0xA006 (fun _ ps x => num ps 0 1 < 8 ∧ num ps 1 1 < 2 ∧ zeroAt ps 2 2 = true ∧ x.portRuns (num ps 0 1) = true ∧ x.pstate (num
        ps 0 1) ≠ 2) :=
  ⟨meets (le 4 0 ++ held (LNK_PORT_CFG 0) ++ held (LNK_PORT_CREDIT 0)) bench,
    meets (le 4 0) bench,
    meets (le 1 0 ++ le 1 16 ++ le 3 0 ++ le 1 1 ++ le 1 1 ++ le 1 0 ++ le 1 1 ++ le 1 1 ++ le 2 0) (put bench [(LNK_LANE_STAT 0,
        LNK_LANE_STAT_IN_USE, 1)]),
    meets (le 16 0) (put bench [(LNK_PORT_CFG 0, LNK_PORT_CFG_TEST, 1)]),
    meets (le 1 0 ++ le 1 4 ++ le 14 0) (put bench [(LNK_PORT_CFG 0, LNK_PORT_CFG_TEST, 1)]),
    meets (le 4 0) (put bench [(LNK_PORT_CFG 0, LNK_PORT_CFG_TEST, 1)]),
    meets (le 4 0) (put bench [(LNK_PORT_CFG 0, LNK_PORT_CFG_ROLE, 1)])⟩

theorem test_meets_TrainingEventsComplete :
    (∃ p : Fin 8, Comes (fun x => x.portRuns p.val = true ∧ (x.pstate p.val = 0 ∨ x.pstate p.val = 1)))
    ∧ (∃ p : Fin 8, ∃ i : Ident, Comes (fun x => (x.port p.val).train = .ident ∧ (x.pstate p.val = 2 ∨ x.pstate p.val = 5)
        ∧ (rolesFit ((heardIdent x p.val i).role p.val) i.role = false ∨ (heardIdent x p.val i).address = some i.addr)))
    ∧ (∃ p : Fin 8, ∃ i : Ident, Comes (fun x => (x.port p.val).train = .ident ∧ (x.pstate p.val = 2 ∨ x.pstate p.val = 5)
        ∧ rolesFit ((heardIdent x p.val i).role p.val) i.role = true ∧ (heardIdent x p.val i).address ≠ some i.addr ∧ i.rate ≠ 1))
    ∧ (∃ p : Fin 8, ∃ markers, Comes (fun x => (x.port p.val).train = .agreed ∧ x.pstate p.val = 2 ∧ x.laneChoice p.val (readyLanes x p.val markers) ≠ 0
        ∧ x.now < (x.port p.val).trainAt + fineMs 5))
    ∧ (∃ p : Fin 8, Comes (fun x => x.pstate p.val = 2 ∧ (x.port p.val).train ≠ .paused ∧ (x.port p.val).trainAt + fineMs 5 ≤ x.now))
    ∧ (∃ p : Fin 8, Comes (fun x => x.pstate p.val = 2 ∧ (x.port p.val).train = .paused ∧ (x.port p.val).trainAt + fineMs 10 ≤ x.now))
    ∧ ∃ p : Fin 8, Comes (fun x => x.pstate p.val = 5 ∧ (x.port p.val).trainAt + fineMs 1000 ≤ x.now) :=
  ⟨⟨0, comes (put bench [(LNK_PORT_CFG 0, LNK_PORT_CFG_ROLE, 1)])⟩,
    ⟨0, ⟨1, 0, 1, 0, 2, 15⟩, comes ((put bench [(LNK_PORT_STAT 0, LNK_PORT_STAT_STATE, 2), (LNK_PORT_CFG 0, LNK_PORT_CFG_ROLE, 1)]).onPort
        0 fun y => { y with train := .ident })⟩,
    ⟨0, ⟨1, 0, 2, 0, 2, 15⟩, comes ((put bench [(LNK_PORT_STAT 0, LNK_PORT_STAT_STATE, 2), (LNK_PORT_CFG 0, LNK_PORT_CFG_ROLE, 1)]).onPort
        0 fun y => { y with train := .ident })⟩,
    ⟨0, (List.range 4).map fun i => some ⟨0, i, 0⟩, comes ((put bench [(LNK_PORT_STAT 0, LNK_PORT_STAT_STATE, 2), (LNK_PORT_CFG 0,
        LNK_PORT_CFG_ROLE, 1)]).onPort 0 fun y => { y with train := .agreed, trainAt := noon })⟩,
    ⟨0, comes ((put bench [(LNK_PORT_STAT 0, LNK_PORT_STAT_STATE, 2)]).onPort 0 fun y => { y with train := .ident })⟩,
    ⟨0, comes ((put bench [(LNK_PORT_STAT 0, LNK_PORT_STAT_STATE, 2)]).onPort 0 fun y => { y with train := .paused })⟩,
    ⟨0, comes ((put bench [(LNK_PORT_STAT 0, LNK_PORT_STAT_STATE, 5)]).onPort 0 fun y => { y with train := .idle })⟩⟩

theorem test_meets_LaneEventsComplete :
    (∃ l : Fin 32, ∃ f : LaneFault, Comes (fun x => x.portUp (l.val / 4) = true ∧ bit (x.fld (LNK_PORT_STAT (l.val / 4)) LNK_PORT_STAT_LANES) (l.val % 4) = true ∧ x.laneFails l.val f = true
        ∧ lanesLeft x l.val f = 0))
    ∧ (∃ l : Fin 32, ∃ f : LaneFault, Comes (fun x => x.portUp (l.val / 4) = true ∧ bit (x.fld (LNK_PORT_STAT (l.val / 4)) LNK_PORT_STAT_LANES) (l.val % 4) = true ∧ x.laneFails l.val f = true
        ∧ lanesLeft x l.val f ≠ 0 ∧ (laneOut x l.val f).legacyPort (l.val / 4) = true))
    ∧ (∃ l : Fin 32, ∃ f : LaneFault, Comes (fun x => x.portUp (l.val / 4) = true ∧ bit (x.fld (LNK_PORT_STAT (l.val / 4)) LNK_PORT_STAT_LANES) (l.val % 4) = true ∧ x.laneFails l.val f = true
        ∧ lanesLeft x l.val f ≠ 0 ∧ (laneOut x l.val f).legacyPort (l.val / 4) = false))
    ∧ (∃ p : Fin 8, ∃ mask : Nat, Comes (fun x => x.portUp p.val = true ∧ mask % 16 ≠ 0))
    ∧ (∃ l : Fin 32, ∃ lockAt : Nat, ∃ skew : Nat, Comes (fun x => mayReturn x l.val lockAt skew
        ∧ laneCount ((laneBack x l.val skew).laneChoice (l.val / 4) (goodWith x l.val))
            ≤ laneCount ((laneBack x l.val skew).fld (LNK_PORT_STAT (l.val / 4)) LNK_PORT_STAT_LANES)))
    ∧ (∃ l : Fin 32, ∃ lockAt : Nat, ∃ skew : Nat, Comes (fun x => mayReturn x l.val lockAt skew
        ∧ laneCount ((laneBack x l.val skew).fld (LNK_PORT_STAT (l.val / 4)) LNK_PORT_STAT_LANES)
            < laneCount ((laneBack x l.val skew).laneChoice (l.val / 4) (goodWith x l.val))))
    ∧ (∃ l : Fin 32, Comes (fun x => x.idles l.val = true ∧ x.rateNow (l.val / 4) = 0 ∧ 2 ^ 20 ≤ idleOf (blocksIn 0 (x.now - (x.lane
        l.val).idleFrom)) (x.lane l.val).idleOther))
    ∧ (∃ l : Fin 32, Comes (fun x => x.idles l.val = true
        ∧ 2 ^ 20 + 8192 * ((x.lane l.val).refreshes + 1)
            ≤ idleOf (blocksIn (x.rateNow (l.val / 4)) (x.now - (x.lane l.val).txIdleFrom)) (x.lane l.val).txIdleOther))
    ∧ (∃ p : Fin 8, ∃ r : ModuleRead, Comes (fun x => x.fld (LNK_PORT_CFG p.val) LNK_PORT_CFG_MODULE ≠ 0 ∧ pollDue x p.val = true ∧
        moduleTold x p.val r = false))
    ∧ (∃ p : Fin 8, ∃ r : ModuleRead, Comes (fun x => x.fld (LNK_PORT_CFG p.val) LNK_PORT_CFG_MODULE ≠ 0 ∧ pollDue x p.val = true ∧
        moduleTold x p.val r = true))
    ∧ (∃ p : Fin 8, ∃ e, Comes (fun x => (x.lnk.scans.find? fun y => y.port == p.val) = some e ∧ x.scanEnd e ≤ x.now))
    ∧ ∃ l : Fin 32, Comes (fun x => (x.lane l.val).chk = true ∧ x.underTest l.val = true ∧ ((x.lane l.val).loopback == 1 && (x.lane
        l.val).gen) = false) :=
  ⟨⟨0, .lock, comes ((put linked [(LNK_PORT_STAT 0, LNK_PORT_STAT_LANES, 15), (LNK_PORT_CFG 0, LNK_PORT_CFG_RATE, 0)]).onPort 0 fun y =>
        { y with goodMask := 1 })⟩,
    ⟨0, .lock, comes ((put linked [(LNK_PORT_STAT 0, LNK_PORT_STAT_LANES, 15), (LNK_PORT_CFG 0, LNK_PORT_CFG_RATE, 1)]).onPort 0 fun y =>
        { y with goodMask := 15 })⟩,
    ⟨0, .lock, comes ((put linked [(LNK_PORT_STAT 0, LNK_PORT_STAT_LANES, 15), (LNK_PORT_CFG 0, LNK_PORT_CFG_RATE, 0)]).onPort 0 fun y =>
        { y with goodMask := 15 })⟩,
    ⟨0, 1, comes linked⟩,
    ⟨0, 0, 0, comes (put linked [(LNK_PORT_STAT 0, LNK_PORT_STAT_LANES, 1)]) (by unfold mayReturn; decide +kernel)⟩,
    ⟨0, 0, 0, comes linked (by unfold mayReturn; decide +kernel)⟩,
    ⟨0, comes (put linked [(LNK_LANE_STAT 0, LNK_LANE_STAT_IN_USE, 1), (LNK_PORT_STAT 0, LNK_PORT_STAT_RATE_NOW, 0)])⟩,
    ⟨0, comes (put linked [(LNK_LANE_STAT 0, LNK_LANE_STAT_IN_USE, 1)])⟩,
    ⟨0, ⟨true, true, 0, 0, false, 0, 0, [], [], []⟩, comes (put linked [(LNK_PORT_CFG 0, LNK_PORT_CFG_MODULE, 1)])⟩,
    ⟨0, ⟨true, true, 0, 0, true, 0, 0, [], [], []⟩, comes (put linked [(LNK_PORT_CFG 0, LNK_PORT_CFG_MODULE, 1)])⟩,
    ⟨0, ⟨0, 0, 16, 0, 1, 1, 0, 1, 1, 0, asker 7 0xA003⟩, comes (bench.onLnk fun y =>
        { y with scans := [⟨0, 0, 16, 0, 1, 1, 0, 1, 1, 0, asker 7 0xA003⟩] })⟩,
    ⟨0, comes ((put bench [(LNK_PORT_CFG 0, LNK_PORT_CFG_TEST, 1)]).onLane 0 fun y => { y with chk := true })⟩⟩

theorem test_meets_CellEventsComplete :
    (∃ p : Fin 8, ∃ c, Comes (fun x => x.portUp p.val = true ∧ (x.tidyLine p.val).atBoundary p.val = true ∧ ((x.tidyLine p.val).port p.val).replayFrom = none
        ∧ ((x.tidyLine p.val).port p.val).replay.length < ((x.tidyLine p.val).port p.val).replaySize ∧ (x.tidyLine p.val).nextClass p.val = some c))
    ∧ (∃ p : Fin 8, Comes (fun x => x.portUp p.val = true ∧ (x.tidyLine p.val).atBoundary p.val = false ∧ ((x.tidyLine p.val).port p.val).replayFrom = none
        ∧ ((x.tidyLine p.val).port p.val).replay.length < ((x.tidyLine p.val).port p.val).replaySize ∧ (x.tidyLine p.val).canSuspend p.val = true
        ∧ (x.tidyLine p.val).canSend p.val 0 = true))
    ∧ (∃ p : Fin 8, ∃ k, ∃ e, Comes (fun x => x.portUp p.val = true ∧ (x.tidyLine p.val).atBoundary p.val = true ∧ ((x.tidyLine p.val).port p.val).replayFrom = some k
        ∧ (((x.tidyLine p.val).port p.val).replay.find? fun e => e.seq == k) = some e))
    ∧ (∃ p : Fin 8, ∃ b, ∃ cls, Comes (fun x => x.portUp p.val = true ∧ blockKind b = .start cls false ∧ (x.port p.val).rx = []))
    ∧ (∃ p : Fin 8, ∃ b, ∃ d, ∃ c, ∃ r, Comes (fun x => x.portUp p.val = true ∧ blockKind b = .data d ∧ (x.port p.val).rx = c :: r ∧
        c.data.length ≤ 256))
    ∧ (∃ p : Fin 8, ∃ b, ∃ k, ∃ seq, ∃ crc, ∃ c, ∃ r, Comes (fun x => x.portUp p.val = true ∧ blockKind b = .finish k false seq crc ∧ (x.port p.val).rx = c :: r ∧ c.bad = false ∧ 2 ≤ c.cls
        ∧ rightCell (cellClosed x p.val r) p.val c.cls seq crc c.data))
    ∧ (∃ p : Fin 8, ∃ b, ∃ k, ∃ seq, ∃ crc, ∃ c, ∃ r, Comes (fun x => x.portUp p.val = true ∧ blockKind b = .finish k false seq crc ∧ (x.port p.val).rx = c :: r ∧ c.bad = false ∧ c.cls ≠ 0
        ∧ c.data.length = 256 ∧ crc ≠ crc32c c.data))
    ∧ (∃ p : Fin 8, ∃ b : LinkBlock, Comes (fun x => x.portUp p.val = true ∧ (x.port p.val).replay.length < newlyAcked x p.val b))
    ∧ (∃ p : Fin 8, ∃ b : LinkBlock, ∃ e, Comes (fun x => x.portUp p.val = true ∧ b.nak = false ∧ newlyAcked x p.val b ≤ (x.port p.val).replay.length ∧ creditBack x p.val b = false
        ∧ ((x.port p.val).replay.take (newlyAcked x p.val b)).getLast? = some e ∧ (x.port p.val).replayFrom = none))
    ∧ (∃ p : Fin 8, Comes (fun x => x.portUp p.val = true ∧ ((x.port p.val).linkDue = true ∨ (x.port p.val).linkAt + fineUs 10 ≤ x.now)))
    ∧ ∃ p : Fin 8, ∃ e, Comes (fun x => (x.port p.val).replay.head? = some e ∧ x.portUp p.val = true
        ∧ (x.port p.val).ackAt + (fineUs 10 + 4 * x.fld (LNK_PORT_RTT p.val) LNK_PORT_RTT_RTT * 4194304 / 10000) ≤ x.now) :=
  ⟨⟨0, 0, comes waits⟩,
    ⟨0, comes (waits.onPort 0 fun y => { y with wire := List.replicate 40 (1, 0), wireAt := 2 ^ 60, suspendAt := some 0 })⟩,
    ⟨0, 0, ⟨0, 2, none, none, true, false, [], 0⟩, comes (linked.onPort 0 fun y =>
        { y with replay := [⟨0, 2, none, none, true, false, [], 0⟩], replayFrom := some 0 })⟩,
    ⟨0, blk 2 0x2A1, 2, comes (linked.onPort 0 fun y => { y with given := { s := 1 } })⟩,
    ⟨0, blk 1 0, le 8 0, ⟨2, [], false⟩, [], comes (linked.onPort 0 fun y => { y with given := { s := 1 }, rx := [⟨2, [], false⟩] })⟩,
    ⟨0, blk 2 (0xA2 + 620862487 * 2 ^ 32), 0, 0, 620862487, ⟨2, cellS, false⟩, [], comes (linked.onPort 0 fun y =>
        { y with given := { s := 1 }, rx := [⟨2, cellS, false⟩] }) (by exact ⟨by decide +kernel, by decide +kernel, by decide +kernel,
        rfl, by decide, by decide +kernel, crc_cellS.symm, by decide +kernel, by decide +kernel, by decide +kernel⟩)⟩,
    ⟨0, blk 2 0xA2, 0, 0, 0, ⟨2, cellS, false⟩, [], comes (linked.onPort 0 fun y =>
        { y with given := { s := 1 }, rx := [⟨2, cellS, false⟩] }) (by exact ⟨by decide +kernel, by decide +kernel, by decide +kernel,
        rfl, by decide, by decide +kernel, by rw [crc_cellS]; decide⟩)⟩,
    ⟨0, ⟨0, 1, false, 0, 0, 0, 0⟩, comes linked⟩,
    ⟨0, ⟨0, 1, false, 0, 0, 0, 0⟩, ⟨0, 2, none, none, true, false, [], 0⟩, comes (linked.onPort 0 fun y =>
        { y with replay := [⟨0, 2, none, none, true, false, [], 0⟩], txSeq := 1 })⟩,
    ⟨0, comes linked⟩,
    ⟨0, ⟨0, 2, none, none, true, false, [], 0⟩, comes (linked.onPort 0 fun y =>
        { y with replay := [⟨0, 2, none, none, true, false, [], 0⟩] })⟩⟩

theorem test_meets_LinkStateEventsComplete :
    Comes (fun x => x.booted = true ∧ x.lnk.refreshedAt + fineMs 100 ≤ x.now)
    ∧ (∃ p : Fin 8, ∃ l : LinkState, Comes (fun x => x.portUp p.val = true ∧ 1 ≤ x.role p.val ∧ x.role p.val ≤ 4 ∧ x.address ≠ some l.origin
        ∧ (x.lnk.table.find? fun e => e.ls.origin == l.origin) = none))
    ∧ (∃ p : Fin 8, ∃ l : LinkState, ∃ e, Comes (fun x => x.portUp p.val = true ∧ 1 ≤ x.role p.val ∧ x.role p.val ≤ 4 ∧ x.address ≠ some l.origin
        ∧ (x.lnk.table.find? fun e => e.ls.origin == l.origin) = some e ∧ newer l.generation e.ls.generation = true))
    ∧ (∃ origin : Nat, Comes (fun x => (x.lnk.table.any fun e => e.ls.origin == origin && decide (x.now ≥ e.at_ + fineMs 350)) = true))
    ∧ Comes (fun _ => True) :=
  ⟨comes bench,
    ⟨0, ⟨5, 0, 0, []⟩, comes ringed⟩,
    ⟨0, ⟨1, 1, 0, []⟩, ⟨⟨1, 0, 0, [⟨2, true, true⟩]⟩, 0⟩, comes ringed⟩,
    ⟨1, comes ringed⟩,
    comes bench⟩

theorem test_meets_HeadCommandsComplete :
    Meets 0xC001 (fun _ ps x =>
        num ps 0 1 = 0 ∧ num ps 1 1 < 2 ∧ zeroAt ps 2 2 = true ∧ bits (word (num ps 4 4)).toNat 28 1 = 0 ∧ bits (word (num ps 4 4)).toNat 9 15 = 0
        ∧ bits (word (num ps 8 4)).toNat 11 21 = 0 ∧ bits (word (num ps 12 4)).toNat 27 5 = 0 ∧ bits (word (num ps 12 4)).toNat 11 5 = 0
        ∧ ∀ o ∈ x.headRefuses (word (num ps 4 4)) (word (num ps 8 4)) (word (num ps 12 4)) (bit (num ps 1 1) 0), o = none)
    ∧ Meets 0xC001 (fun _ ps _ => num ps 0 1 = 1 ∧ num ps 1 1 < 4 ∧ zeroAt ps 2 2 = true ∧ bits (word (num ps 4 4)).toNat 27 4 = 0)
    ∧ Meets 0xC002 (fun _ ps _ => num ps 0 1 = 0 ∧ zeroAt ps 1 3 = true)
    ∧ Meets 0xC002 (fun _ ps _ => num ps 0 1 = 1 ∧ zeroAt ps 1 3 = true)
    ∧ Meets 0xC002 (fun _ ps _ => num ps 0 1 = 2 ∧ zeroAt ps 1 3 = true ∧ zeroAt ps 9 3 = true ∧ 1 ≤ num ps 8 1 ∧ num ps 8 1 ≤ 64)
    ∧ Meets 0xC006 (fun _ ps x => num ps 0 1 = 0 ∧ zeroAt ps 1 3 = true ∧ x.head = hStandby ∧ x.red.drill = none)
    ∧ Meets 0xC006 (fun _ ps x => num ps 0 1 = 1 ∧ zeroAt ps 1 3 = true ∧ x.head = hStandby ∧ x.red.drill = none)
    ∧ Meets 0xC006 (fun _ ps x => num ps 0 1 = 2 ∧ zeroAt ps 1 3 = true ∧ x.isActive = true ∧ x.red.drill = none)
    ∧ (∃ k, Meets 0xC003 (fun c ps x => asksWitness c ps x k ∧ (x.wit k).quiet = none ∧ bit (num ps 1 1) 0 = false ∧ x.witHeld k = false
        ∧ ¬ (holdsLatch c x k ∧ num ps 4 4 = x.fld (RED_WIT_EPOCH k) RED_WIT_EPOCH_EPOCH)))
    ∧ (∃ k, Meets 0xC003 (fun c ps x => asksWitness c ps x k ∧ (x.wit k).quiet = none ∧ bit (num ps 1 1) 0 = true))
    ∧ (∃ k, Meets 0xC004 (fun c ps x => asksWitness c ps x k ∧ (x.wit k).quiet = none ∧ holdsLatch c x k ∧ num ps 4 4 = x.fld
        (RED_WIT_EPOCH k) RED_WIT_EPOCH_EPOCH))
    ∧ (∃ k, Meets 0xC003 (fun c ps x => asksWitness c ps x k ∧ (x.wit k).quiet = none ∧ bit (num ps 1 1) 0 = false ∧ holdsLatch c x k
        ∧ num ps 4 4 = x.fld (RED_WIT_EPOCH k) RED_WIT_EPOCH_EPOCH))
    ∧ ∃ k, Meets 0xC005 (fun c ps x => asksWitness c ps x k ∧ (x.wit k).quiet = none ∧ holdsLatch c x k) :=
  ⟨meets (le 4 0 ++ built [(RED_CFG_LEDGER_AGE, 60)] ++ built [(RED_PARTNER_PARTNER, 1)] ++ built [(RED_WITNESS_WIT_A, 2),
        (RED_WITNESS_WIT_B, 3)]) bench,
    meets (le 4 1 ++ le 4 0) bench,
    meets (le 4 0) bench,
    meets (le 4 1) bench,
    meets (le 4 2 ++ le 4 0 ++ le 4 1) bench,
    meets (le 4 0) (headed 2),
    meets (le 4 1) (headed 2),
    meets (le 4 2) (headed 3),
    ⟨0, ⟨noon, told 0xC003 (le 8 1), benchCred, witness, by unfold Accepts; decide +kernel,
        by dsimp only [asksWitness, holdsLatch]; decide +kernel⟩⟩,
    ⟨0, ⟨noon, told 0xC003 (le 1 1 ++ le 1 1 ++ le 6 0), benchCred, witness, by unfold Accepts; decide +kernel,
        by dsimp only [asksWitness, holdsLatch]; decide +kernel⟩⟩,
    ⟨0, ⟨noon, told 0xC004 (le 8 1), benchCred, latched, by unfold Accepts; decide +kernel,
        by dsimp only [asksWitness, holdsLatch]; decide +kernel⟩⟩,
    ⟨0, ⟨noon, told 0xC003 (le 8 1), benchCred, latched, by unfold Accepts; decide +kernel,
        by dsimp only [asksWitness, holdsLatch]; decide +kernel⟩⟩,
    ⟨0, ⟨noon, told 0xC005 (le 8 1), benchCred, latched, by unfold Accepts; decide +kernel,
        by dsimp only [asksWitness, holdsLatch]; decide +kernel⟩⟩⟩

theorem test_meets_LatchEventsComplete :
    Comes (fun x => x.headOn = true ∧ x.red.hbSentAt + fineMs 5 ≤ x.now)
    ∧ (∃ p : Fin 8, ∃ h : Heartbeat, ∃ q, Comes (fun x => passesTo x p.val h.dest q))
    ∧ (∃ h : Heartbeat, Comes (fun x => x.address = some h.dest ∧ h.sender = x.partner ∧ x.head = hStandby ∧ x.red.drill = none))
    ∧ (∃ h : Heartbeat, Comes (fun x => x.address = some h.dest ∧ h.sender = x.partner ∧ x.head = hFenced ∧ x.red.drill = none ∧ bit
        h.flags 0 = true ∧ x.epoch < h.epoch))
    ∧ (∃ h : Heartbeat, Comes (fun x => x.address = some h.dest ∧ h.sender = x.partner ∧ x.head = hActive ∧ x.red.drill = none ∧ x.red.acked < h.mirrorSeq
        ∧ bit h.flags 4 = false))
    ∧ (∃ h : Heartbeat, Comes (fun x => x.address = some h.dest ∧ h.sender = x.partner ∧ x.head = hActive ∧ x.red.drill = none ∧ h.mirrorSeq ≤ x.red.acked
        ∧ bit h.flags 4 = true ∧ x.red.partnerResync = false))
    ∧ (∃ ring : Bool, ∃ r, Comes (fun x => (x.red.path ring).lastRx = some r ∧ (x.red.path ring).up = true ∧ r + fineMs 20 ≤ x.now))
    ∧ (∃ ring : Bool, Comes (fun x => (x.red.path ring).up = false ∧ 8 ≤ (x.red.path ring).run))
    ∧ Comes (fun x => x.isActive = true ∧ x.red.renewOut = none ∧ x.red.renewSentAt + fineMs 50 ≤ x.now)
    ∧ (∃ o, Comes (fun x => x.isActive = true ∧ x.red.renewOut = some o ∧ o + fineMs 10 ≤ x.now))
    ∧ Comes (fun x => x.isActive = true ∧ x.red.confirmedAt + fineMs 198 ≤ x.now)
    ∧ Comes (fun x => x.mayAsk = true ∧ (x.red.requestSentAt = 0 ∨ x.red.requestSentAt + fineMs 5 ≤ x.now))
    ∧ Comes (fun x => x.head = hStarting ∧ x.red.asking = false
        ∧ x.red.stateSince + fineMs (if x.on RED_CFG RED_CFG_PRIMARY then 500 else 1000) ≤ x.now)
    ∧ (∃ k : Fin 4, ∃ e, Comes (fun x => (x.wit k.val).lease = some e ∧ e ≤ x.now ∧ x.on (RED_WIT_STAT k.val) RED_WIT_STAT_HELD = true))
    ∧ (∃ k : Fin 4, ∃ e, ∃ ep, ∃ who, Comes (fun x => (x.wit k.val).quiet = some e ∧ e ≤ x.now ∧ (x.wit k.val).best = some (ep, who)))
    ∧ ∃ k : Fin 4, ∃ e, Comes (fun x => (x.wit k.val).quiet = some e ∧ e ≤ x.now ∧ (x.wit k.val).best = none) :=
  ⟨comes (headed 2),
    ⟨0, beat 3, 1, comes nameless (by exact Or.inl (by decide +kernel))⟩,
    ⟨beat 0, comes (paired 2)⟩,
    ⟨{ beat 0 with flags := 1, epoch := 1 }, comes (paired hFenced)⟩,
    ⟨{ beat 0 with mirrorSeq := 1 }, comes (paired 3)⟩,
    ⟨{ beat 0 with flags := 16 }, comes (paired 3)⟩,
    ⟨false, 0, comes ((headed 2).onRed fun r => { r with direct := { up := true, lastRx := some 0 } })⟩,
    ⟨false, comes ((headed 2).onRed fun r => { r with direct := { run := 8 } })⟩,
    comes (headed 3),
    ⟨0, comes ((headed 3).onRed fun r => { r with renewOut := some 0 })⟩,
    comes (headed 3),
    comes (headed 4),
    comes (headed 1),
    ⟨0, 0, comes ((put witness [(RED_WIT_STAT 0, RED_WIT_STAT_HELD, 1)]).onWit 0 fun y => { y with lease := some 0 })⟩,
    ⟨0, 0, 3, 5, comes (witness.onWit 0 fun y => { y with quiet := some 0, best := some (3, 5) })⟩,
    ⟨0, 0, comes (witness.onWit 0 fun y => { y with quiet := some 0 })⟩⟩

theorem test_meets_MirrorEventsComplete :
    (∃ p : Fin 8, ∃ m : MirrorCell, ∃ q, Comes (fun x => passesTo x p.val m.dest q))
    ∧ (∃ m : MirrorCell, Comes (fun x => x.address = some m.dest ∧ x.head = hStandby ∧ m.sender = x.partner ∧ x.red.digestWait = none))
    ∧ Comes (fun x => x.isActive = true ∧ x.red.unacked.isEmpty = false ∧ x.red.ackedAt + fineMs 20 ≤ x.now)
    ∧ Comes (fun x => x.isActive = true ∧ x.red.stateSentAt + fineMs 10000 ≤ x.now)
    ∧ Comes (fun x => x.isActive = true ∧ x.red.digestSecond < x.served40 / 2 ^ 40)
    ∧ (∃ p : Fin 8, ∃ d : DigestCell, ∃ q, Comes (fun x => passesTo x p.val d.dest q))
    ∧ (∃ d : DigestCell, Comes (fun x => x.address = some d.dest ∧ x.head = hStandby ∧ d.sender = x.partner ∧ d.cutoff ≤ x.red.mirrorNext
        ∧ (x.digestOf d.cutoff d.st64).1 = d.digest))
    ∧ (∃ d : DigestCell, Comes (fun x => x.address = some d.dest ∧ x.head = hStandby ∧ d.sender = x.partner ∧ d.cutoff ≤ x.red.mirrorNext
        ∧ (x.digestOf d.cutoff d.st64).1 ≠ d.digest))
    ∧ (∃ d : DigestCell, Comes (fun x => x.address = some d.dest ∧ x.head = hStandby ∧ d.sender = x.partner ∧ x.red.mirrorNext <
        d.cutoff))
    ∧ (∃ d, ∃ a, Comes (fun x => x.red.digestWait = some (d, a) ∧ x.head = hStandby ∧ a + fineMs 1000 ≤ x.now))
    ∧ Comes (fun x => x.red.replayLeft = some [] ∧ x.isActive = true ∧ (x.red.replayAt = 0 ∨ x.red.replayAt + fineUs 50 ≤ x.now))
    ∧ (∃ left, Comes (fun x => x.red.replayLeft = some left ∧ x.isActive = true ∧ (x.red.replayAt = 0 ∨ x.red.replayAt + fineUs 50 ≤ x.now)
        ∧ left ≠ [] ∧ (x.readLedger (left.take 170)).1 ≠ []))
    ∧ (∃ d, ∃ c, Comes (fun x => x.red.drill = some d ∧ d.committedAt = some c ∧ d.kind = 2 ∧ c + fineMs 500 ≤ x.now))
    ∧ (∃ d, Comes (fun x => x.red.drill = some d ∧ d.kind = 0 ∧ d.answered = true))
    ∧ (∃ d, Comes (fun x => x.red.drill = some d ∧ d.kind = 1 ∧ (d.answered = true ∨ d.startAt + fineMs 10 ≤ x.now)))
    ∧ ∃ d, Comes (fun x => x.red.drill = some d ∧ d.kind = 2 ∧ d.committedAt = none ∧ d.startAt + fineMs 2000 ≤ x.now) :=
  ⟨⟨0, ⟨5, 3, 0, 0, 0, []⟩, 1, comes nameless (by exact Or.inl (by decide +kernel))⟩,
    ⟨⟨5, 0, 0, 0, 0, []⟩, comes (paired 2)⟩,
    comes ((headed 3).onRed fun r => { r with unacked := [(0, 0, [])] }),
    comes (headed 3),
    comes (headed 3),
    ⟨0, ⟨5, 3, 0, 0, 0, 0, 0⟩, 1, comes nameless (by exact Or.inl (by decide +kernel))⟩,
    ⟨⟨5, 0, 0, 0, ((((paired 2).begin_ noon).digestOf 0 0).1), 0, 0⟩, comes (paired 2)⟩,
    ⟨⟨5, 0, 0, 0, ((((paired 2).begin_ noon).digestOf 0 0).1 + 1), 0, 0⟩, comes (paired 2)⟩,
    ⟨⟨5, 0, 0, 1, 0, 0, 0⟩, comes (paired 2)⟩,
    ⟨⟨5, 0, 0, 1, 0, 0, 0⟩, 0, comes ((paired 2).onRed fun r => { r with digestWait := some (⟨5, 0, 0, 1, 0, 0, 0⟩, 0) })⟩,
    comes ((headed 3).onRed fun r => { r with replayLeft := some [] }),
    ⟨[⟨0, le 4 0, 0⟩], comes ((headed 3).onRed fun r => { r with replayLeft := some [⟨0, le 4 0, 0⟩] })⟩,
    ⟨drill 2 (some 0) false, 0, comes (bench.onRed fun r => { r with drill := some (drill 2 (some 0) false) })⟩,
    ⟨drill 0 none true, comes (bench.onRed fun r => { r with drill := some (drill 0 none true) })⟩,
    ⟨drill 1 none false, comes (bench.onRed fun r => { r with drill := some (drill 1 none false) })⟩,
    ⟨drill 2 none false, comes (bench.onRed fun r => { r with drill := some (drill 2 none false) })⟩⟩

end Sys2Proof.Tests
end

section
/-!
PROOFS. SET_POWER_STATE where it is answered at once (01_architecture.md R32 to R34; 15_porter_management.md R477): what its body
answers, case by case in the order of its checks, and obligation O15.
-/

namespace Sys2Proof

open Sys2Proof.Machine Sys2Proof.Machine.Reg Sys2Proof.Machine.Bits

/-- A body that answers: its row is answered with that status, whatever the status is. -/
theorem command_replies {op t : Nat} {p : Packet} {cr : Cred} {s x : State} {b : Body} {st : Nat} {d : List Byte} (h : Accepts op t p cr s)
    (hb : b (callerOf op p cr) p.params (taken op t p s) = .reply x st d) :
    command op b t p s = .next (closing s (x.reply (callerOf op p cr) st d)) := by
  rw [command_accepts b h]
  unfold State.carryOut
  rw [hb]

/-- A reply and the end of its row leave every part of `keptParts` and every register but CMD_CACHE and `logRegs` as the reply found them. -/
theorem closing_reply_leaves (s x : State) (c : Caller) (st : Nat) (d : List Byte) :
    Leaves keptParts [(CMD_CACHE, 0, 1)] x (closing s (x.reply c st d)) :=
  ((reply_leaves x c st d).weaken (by decide) (by decide)).trans ((closing_closed s _).rest.weaken (by decide) (by decide))

/-- The parameters of SET_POWER_STATE name one of the three states of Table 01-7 that can be asked for and set no reserved bit (R32). -/
def powerParamsOk (ps : List Byte) : Bool := 1 ≤ num ps 0 1 && num ps 0 1 ≤ 3 && num ps 1 1 < 2 && zeroAt ps 2 2

/-- DORMANT is asked of a hub that is configured as a head or holds the latch (R34). -/
def dormantBarred (ps : List Byte) (x : State) : Bool := num ps 0 1 == 1 && (x.fld RED_CFG RED_CFG_ROLE == 1 || x.isActive)

theorem powerParamsOk_of_fields {ps : List Byte} (h1 : 1 ≤ num ps 0 1) (h3 : num ps 0 1 ≤ 3) (hflags : num ps 1 1 < 2)
    (hzero : zeroAt ps 2 2 = true) : powerParamsOk ps = true := by
  simp [powerParamsOk, h1, h3, hflags, hzero]

theorem powerParamsOk_of_badCode {ps : List Byte} (h : num ps 0 1 = 0 ∨ 4 ≤ num ps 0 1) : powerParamsOk ps = false := by
  have hrange : ¬ (1 ≤ num ps 0 1 ∧ num ps 0 1 ≤ 3) := by omega
  rw [← Bool.not_eq_true]
  simp only [powerParamsOk, Bool.and_eq_true, decide_eq_true_eq]
  exact fun ⟨⟨range, _⟩, _⟩ => hrange range

theorem dormantBarred_of_head {ps : List Byte} {x : State} (hcode : num ps 0 1 = 1)
    (hhead : x.fld RED_CFG RED_CFG_ROLE = 1 ∨ x.isActive = true) : dormantBarred ps x = true := by
  simpa [dormantBarred, hcode] using hhead

theorem dormantBarred_of_no_head {ps : List Byte} {x : State}
    (h : num ps 0 1 = 1 → x.fld RED_CFG RED_CFG_ROLE ≠ 1 ∧ x.isActive = false) : dormantBarred ps x = false := by
  simpa [dormantBarred] using h

section Answers

variable {c : Caller} {ps : List Byte} {x : State}

theorem bodySetPowerState_minimal (hm : x.isMinimal = true) : bodySetPowerState c ps x = refuse x stMINIMAL_MODE :=
  if_pos hm

/-- What SET_POWER_STATE answers outside MINIMAL, its checks named: the first that fails gives the status (R545). -/
theorem bodySetPowerState_checks (hm : x.isMinimal = false) : ∃ transition,
    bodySetPowerState c ps x = checked x
      [need (powerParamsOk ps) stBAD_PARAM, need (!dormantBarred ps x) stBAD_STATE, need (!x.on SYS_PWR_STATE SYS_PWR_STATE_IN_TRANSITION) stBUSY]
      (if num ps 0 1 = x.power then ok (if bit (num ps 1 1) 0 then x.onNvm fun n => { n with bootPower := num ps 0 1 } else x)
       else .quiet transition) :=
  ⟨_, if_neg (Bool.eq_false_iff.mp hm)⟩

theorem bodySetPowerState_badParam (hm : x.isMinimal = false) (hps : powerParamsOk ps = false) :
    bodySetPowerState c ps x = refuse x stBAD_PARAM := by
  obtain ⟨_, checks⟩ := bodySetPowerState_checks (c := c) (ps := ps) hm
  rw [checks, hps]
  cases dormantBarred ps x <;> cases x.on SYS_PWR_STATE SYS_PWR_STATE_IN_TRANSITION <;> rfl

theorem bodySetPowerState_barred (hm : x.isMinimal = false) (hps : powerParamsOk ps = true) (hd : dormantBarred ps x = true) :
    bodySetPowerState c ps x = refuse x stBAD_STATE := by
  obtain ⟨_, checks⟩ := bodySetPowerState_checks (c := c) (ps := ps) hm
  rw [checks, hps, hd]
  cases x.on SYS_PWR_STATE SYS_PWR_STATE_IN_TRANSITION <;> rfl

theorem bodySetPowerState_busy (hm : x.isMinimal = false) (hps : powerParamsOk ps = true) (hd : dormantBarred ps x = false)
    (hbusy : x.on SYS_PWR_STATE SYS_PWR_STATE_IN_TRANSITION = true) : bodySetPowerState c ps x = refuse x stBUSY := by
  obtain ⟨_, checks⟩ := bodySetPowerState_checks (c := c) (ps := ps) hm
  rw [checks, hps, hd, hbusy]
  rfl

theorem bodySetPowerState_current (hm : x.isMinimal = false) (hps : powerParamsOk ps = true) (hd : dormantBarred ps x = false)
    (hidle : x.on SYS_PWR_STATE SYS_PWR_STATE_IN_TRANSITION = false) (hcode : num ps 0 1 = x.power) :
    bodySetPowerState c ps x = ok (if bit (num ps 1 1) 0 then x.onNvm fun n => { n with bootPower := num ps 0 1 } else x) := by
  obtain ⟨_, checks⟩ := bodySetPowerState_checks (c := c) (ps := ps) hm
  rw [checks, hps, hd, hidle, if_pos hcode]
  rfl

end Answers

/-- A request that finds a transition in progress is answered BUSY, and the transition and SYS_PWR_STATE stay (R33). -/
theorem setPowerState_busy {t : Nat} {p : Packet} {cr : Cred} {s : State} (h : Accepts 0x0003 t p cr s)
    (hb : bodySetPowerState (callerOf 0x0003 p cr) p.params (taken 0x0003 t p s) = refuse (taken 0x0003 t p s) stBUSY) :
    let x := taken 0x0003 t p s
    ∃ u, exec (.setPowerState t p) s = .next u ∧ u = closing s (x.reply (callerOf 0x0003 p cr) stBUSY [])
      ∧ u.sys.transition = x.sys.transition ∧ u.rd SYS_PWR_STATE = x.rd SYS_PWR_STATE := by
  intro x
  have kept := closing_reply_leaves s x (callerOf 0x0003 p cr) stBUSY []
  refine ⟨_, command_replies h hb, rfl, ?_, kept.rd (by decide)⟩
  rw [kept.1 .sys (by decide)]

/-- How SET_POWER_STATE is shown to be answered at once: by what its body answers. -/
theorem setPowerState_completes {cond : Caller → List Byte → State → Prop} {st : Nat} {eff : Caller → List Byte → State → State}
    (hb : ∀ c ps x, cond c ps x → bodySetPowerState c ps x = .reply (eff c ps x) st []) (h1 : st ≠ stBUSY) (h2 : st ≠ stNO_RESOURCE) :
    Completes 0x0003 .setPowerState cond st (fun _ _ _ => []) eff :=
  completes_of (fun _ _ _ => rfl) hb h1 h2

/-- Settles O15: the checks of the body in their order give each status, and what a reply with the end of a row leaves alone gives that a
transition in progress goes on. That MINIMAL is judged before the parameters is log entry 16; that PERSIST stores the present state too is
R477 as log entry 39 reads it. -/
theorem powerStateRequests : Obligations.PowerStateRequests := by
  refine ⟨?badParam, ?minimal, ?current, ?dormant, ?busy⟩
  case badParam =>
    refine setPowerState_completes (fun c ps x ⟨hm, hcode⟩ => ?_) (by decide) (by decide)
    exact bodySetPowerState_badParam hm (powerParamsOk_of_badCode hcode)
  case minimal =>
    exact setPowerState_completes (fun c ps x hm => bodySetPowerState_minimal hm) (by decide) (by decide)
  case current =>
    refine setPowerState_completes (fun c ps x ⟨hm, hcode, h1, h3, hflags, hzero, hdormant, hidle⟩ => ?_) (by decide) (by decide)
    have hps := powerParamsOk_of_fields (hcode ▸ h1) (hcode ▸ h3) hflags hzero
    exact bodySetPowerState_current hm hps (dormantBarred_of_no_head hdormant) hidle hcode
  case dormant =>
    refine setPowerState_completes (fun c ps x ⟨hm, hcode, hflags, hzero, hhead⟩ => ?_) (by decide) (by decide)
    have hps := powerParamsOk_of_fields (by omega) (by omega) hflags hzero
    exact bodySetPowerState_barred hm hps (dormantBarred_of_head hcode hhead)
  case busy =>
    intro t p cr s h x hm h1 h3 hflags hzero hdormant hbusy
    have hps := powerParamsOk_of_fields h1 h3 hflags hzero
    exact setPowerState_busy h (bodySetPowerState_busy hm hps (dormantBarred_of_no_head hdormant) hbusy)

end Sys2Proof
end

section
/-!
PROOFS. An increment that is too far from nominal (05_time_base.md R148): the range as the model decides it, the two ways a register write
comes to a commit (R147), and obligation O14.
-/

namespace Sys2Proof

open Sys2Proof.Machine Sys2Proof.Machine.Reg

theorem incrOk_iff {i : Nat} :
    incrOk i = true ↔ nominal - nominal * 200 / 1000000 ≤ i ∧ i ≤ nominal + nominal * 200 / 1000000 := by
  simp only [incrOk, Bool.and_eq_true, decide_eq_true_eq]

/-- More than 200 ppm away from nominal is out of the range of R148: that the model divides 200 ppm of nominal to a whole number loses no
increment, since increments are whole numbers too. -/
theorem incrOk_false_of_far {i : Nat} (h : 200 * nominal < 1000000 * (if i < nominal then nominal - i else i - nominal)) :
    incrOk i = false := by
  rw [← Bool.not_eq_true, incrOk_iff]
  by_cases low : i < nominal
  · rw [if_pos low] at h
    omega
  · rw [if_neg low] at h
    omega

theorem commitIncr_of_incrOk_false (s : State) (d : Nat) {i : Nat} (h : incrOk i = false) : s.commitIncr d i = s :=
  if_neg (Bool.eq_false_iff.mp h)

/-- A refused increment uses up the low word held, and that is all (R398). -/
theorem incrWrite_of_incrOk_false {s : State} {path : Path} {d : Nat} {hi : Word}
    (h : incrOk (hi.toNat * 2 ^ 32 + (s.takeLow path (TB_INCR d)).1.toNat) = false) :
    s.incrWrite path d hi = (s.takeLow path (TB_INCR d)).2 :=
  commitIncr_of_incrOk_false _ d h

/-- The address above TB_INCR(d) is the high word of that 64-bit register, which can be written (05_time_base.md, Registers). -/
theorem findReg_incr_high (d : Fin 2) : ∃ r f, findReg (TB_INCR d.val + 4) = some (r, d.val, 1)
    ∧ r.words = 2 ∧ r.base = TB_INCR 0 ∧ (r.fields.find? fun f => f.acc == .rw) = some f := by
  match d with
  | 0 => exact ⟨_, _, rfl, rfl, rfl, rfl⟩
  | 1 => exact ⟨_, _, rfl, rfl, rfl, rfl⟩

/-- A write of the high word of TB_INCR(d) on any path commits (R147). -/
theorem writeReg_incr_high (s : State) (path : Path) (d : Fin 2) (hi : Word) :
    s.writeReg path (TB_INCR d.val + 4) hi = s.incrWrite path d.val hi := by
  obtain ⟨r, f, hreg, hwords, hbase, hfield⟩ := findReg_incr_high d
  have notActTime : TB_INCR 0 ≠ TB_ACT_TIME 0 := by decide
  simp [State.writeReg, State.write64, hreg, hwords, hbase, hfield, notActTime]

/-- Time passing, taking the low word held and the end of the row leave the time base and every register but `logRegs`. -/
theorem closing_takeLow_leaves (s : State) (t : Nat) (path : Path) (a : Nat) :
    Leaves [.tb] [] s (closing s ((s.begin_ t).takeLow path a).2) :=
  have taking : Leaves [.tb] [] s ((s.begin_ t).takeLow path a).2 :=
    State.takeLow_keep (keeps_leaves s [.tb] [] (by decide) (by decide))
      (State.begin__keep (keeps_leaves s [.tb] [] (by decide) (by decide)) (leaves_refl _ _ s))
  taking.trans ((closing_closed s _).rest.weaken (by decide) (by decide))

/-- TB_INCR(d) reads as before where a frame names no register beside `logRegs`. -/
theorem Leaves.incr {ps : List Part} {s u : State} (h : Leaves ps [] s u) (d : Fin 2) :
    u.rd (TB_INCR d.val) = s.rd (TB_INCR d.val) ∧ u.rd (TB_INCR d.val + 4) = s.rd (TB_INCR d.val + 4) := by
  match d with
  | 0 => exact ⟨h.rd (by decide), h.rd (by decide)⟩
  | 1 => exact ⟨h.rd (by decide), h.rd (by decide)⟩

/-- Settles O14: the commit refuses the increment, whoever asks for it (the servo commits by the same `State.commitIncr`); a register
write and the row then only use up the low word held, and neither time that passes nor the end of the row moves TB_INCR. -/
theorem incrementRange : Obligations.IncrementRange := by
  refine ⟨?commit, ?access, ?row⟩
  case commit =>
    exact fun s d i far => commitIncr_of_incrOk_false s d (incrOk_false_of_far far)
  case access =>
    rintro path d hi s _ rfl far
    rw [writeReg_incr_high, incrWrite_of_incrOk_false (incrOk_false_of_far far)]
  case row =>
    rintro t path d hi s u _ rfl far hexec
    have closes : exec (.tbIncrCommit t path d hi) s = .next (closing s ((s.begin_ t).incrWrite path d.val hi)) := rfl
    rw [closes, incrWrite_of_incrOk_false (incrOk_false_of_far far)] at hexec
    obtain rfl := Host.Outcome.next.inj hexec
    have kept := closing_takeLow_leaves s t path (TB_INCR d.val)
    exact ⟨kept.1 .tb (by decide), kept.incr d⟩

end Sys2Proof
end

section
/-!
PROOFS. The lock of the trip outputs (08_field_ports_and_outputs.md R266): which failed check of a command gives its status, what a register
reads after a hub reset, and obligation O16.
-/

namespace Sys2Proof

open Sys2Proof.Machine Sys2Proof.Machine.Reg Sys2Proof.Machine.Bits

theorem need_eq_some {c : Bool} {st y : Nat} : need c st = some y ↔ c = false ∧ st = y := by
  cases c <;> simp [need]

theorem firstFail_none_cons (l : List (Option Nat)) : firstFail (none :: l) = firstFail l := rfl

/-- A failed check gives the status where no later one goes before it in the order of R545. -/
theorem firstFail_some_cons {st : Nat} {l : List (Option Nat)} (h : ∀ y, some y ∈ l → rank st ≤ rank y) :
    firstFail (some st :: l) = some st := by
  induction l with
  | nil => rfl
  | cons o l ih =>
    have later : firstFail (some st :: l) = some st := ih fun y hy => h y (List.mem_cons_of_mem _ hy)
    cases o with
    | none => exact later
    | some y =>
      have first : ¬ rank y < rank st := Nat.not_lt.mpr (h y List.mem_cons_self)
      simpa [firstFail, first] using later

theorem checked_some {s : State} {l : List (Option Nat)} {go : Res} {st : Nat} (h : firstFail l = some st) :
    checked s l go = refuse s st := by
  rw [checked, h]

theorem checked_none {s : State} {l : List (Option Nat)} {go : Res} (h : firstFail l = none) : checked s l go = go := by
  rw [checked, h]

/-- Where the limits and the selected source of a trip configuration are in range, its checks can only fail as BAD_STATE (R261). -/
theorem tripChecks_badState {s : State} {w : Word} {lintel sill y : Nat} (hlimits : signed 32 sill < signed 32 lintel)
    (hsel : if wfld w FLD_TRIP_CFG_SRC = 3 then wfld w FLD_TRIP_CFG_SEL < 64 else wfld w FLD_TRIP_CFG_SEL < 512)
    (hy : some y ∈ s.tripChecks w lintel sill) : y = stBAD_STATE := by
  have inRange : (if wfld w FLD_TRIP_CFG_SRC = 3 then decide (wfld w FLD_TRIP_CFG_SEL < 64) else decide (wfld w FLD_TRIP_CFG_SEL < 512)) = true := by
    split at hsel <;> simp [*]
  simp only [State.tripChecks, List.mem_cons, List.not_mem_nil, eq_comm (a := some y), need_eq_some] at hy
  rcases hy with ⟨limits, _⟩ | ⟨sel, _⟩ | ⟨_, hy⟩ | ⟨_, hy⟩ | ⟨_, hy⟩ | absent
  · exact absurd hlimits (of_decide_eq_false limits)
  · exact absurd (inRange.symm.trans sel) (by decide)
  · exact hy.symm
  · exact hy.symm
  · exact hy.symm
  · exact absent.elim

/-- A whole TRIP_CONFIG that finds TRIP_LOCK set is refused with BAD_STATE (R266). -/
theorem bodyTripConfig_locked {c : Caller} {ps : List Byte} {x : State} (hlock : x.on FLD_CTRL FLD_CTRL_TRIP_LOCK = true)
    (ho : num ps 0 1 < 16) (hzero : zeroAt ps 1 3 = true) (hres : bits (word (num ps 4 4)).toNat 10 16 = 0)
    (hlimits : signed 32 (num ps 12 4) < signed 32 (num ps 8 4))
    (hsel : if wfld (word (num ps 4 4)) FLD_TRIP_CFG_SRC = 3 then wfld (word (num ps 4 4)) FLD_TRIP_CFG_SEL < 64
      else wfld (word (num ps 4 4)) FLD_TRIP_CFG_SEL < 512) :
    bodyTripConfig c ps x = refuse x stBAD_STATE := by
  have whole : (decide (num ps 0 1 < 16) && zeroAt ps 1 3 && bits (word (num ps 4 4)).toNat 10 16 == 0) = true := by
    simp [ho, hzero, hres]
  refine checked_some ?_
  rw [whole, hlock]
  refine (firstFail_none_cons _).trans (firstFail_some_cons fun y hy => ?_)
  exact Nat.le_of_eq (congrArg rank (tripChecks_badState hlimits hsel hy).symm)

/-- TRIP_RESET asks for its reserved bytes alone, and so takes place under TRIP_LOCK too (R265, R266). -/
theorem bodyTripReset_ok {c : Caller} {ps : List Byte} {x : State} (hzero : zeroAt ps 2 2 = true) :
    let r := resetAll x (num ps 0 2)
    bodyTripReset c ps x = .reply r.2 stOK (le 2 r.1 ++ le 2 (((List.range 16).filter fun o => bit (num ps 0 2) o).foldl
      (fun n o => if r.2.on (FLD_TRIP_STAT o) FLD_TRIP_STAT_HEALTHY then n else n + 2 ^ o) 0)) := by
  have passes : firstFail [need (zeroAt ps 2 2) stBAD_PARAM] = none := by rw [hzero]; rfl
  exact checked_none passes

/-- Storing words in turn, none of them at `a`, leaves what stands at `a`. -/
theorem get_foldl_of_ne {α : Type} {f : Tab Word → α → Tab Word} {l : List α} {d : Word} {a : Nat} {t : Tab Word}
    (hf : ∀ r, ∀ x ∈ l, Tab.get d (f r x) a = Tab.get d r a) : Tab.get d (l.foldl f t) a = Tab.get d t a :=
  List.foldlRecOn (motive := fun r => Tab.get d r a = Tab.get d t a) l f rfl fun r hr x hx => (hf r x hx).trans hr

/-- A register that NVM holds no word of, and that is none of those a hub reset loads, has no word stored after it (R5). -/
theorem get_resetRegs {n : Nvm} {cause a : Nat} {d : Word} (hwords : ∀ e ∈ n.words, e.1 ≠ a) (haddr : a ≠ SYS_HUB_ADDR)
    (hcause : a ≠ SYS_RESET_CAUSE) (hctr : ∀ k, a ≠ CMD_SLOT_CTR k) : Tab.get d (resetRegs n cause) a = d := by
  unfold resetRegs
  rw [get_foldl_of_ne ?slots, Tab.get_set_ne _ _ _ _ hcause, Tab.get_set_ne _ _ _ _ haddr, get_foldl_of_ne ?words]
  case words => exact fun r e he => Tab.get_set_ne _ _ _ _ (hwords e he).symm
  case slots =>
    intro r c _
    split
    · exact Tab.get_set_ne _ _ _ _ (hctr _)
    · rfl
  rfl

/-- Such a register reads its reset value after a hub reset (R5). -/
theorem hubReset_rd {s : State} {cause a : Nat} (hwords : ∀ e ∈ s.nvm.words, e.1 ≠ a) (haddr : a ≠ SYS_HUB_ADDR)
    (hcause : a ≠ SYS_RESET_CAUSE) (hctr : ∀ k, a ≠ CMD_SLOT_CTR k) : (s.hubReset cause).rd a = resetWord a :=
  get_resetRegs hwords haddr hcause hctr

theorem fldCtrl_ne_slotCtr (k : Nat) : FLD_CTRL ≠ CMD_SLOT_CTR k := by
  unfold FLD_CTRL CMD_SLOT_CTR
  omega

theorem resetWord_fldCtrl : resetWord FLD_CTRL = 0#32 := by decide

theorem hubReset_unlocks {s : State} {cause : Nat} (hwords : ∀ e ∈ s.nvm.words, e.1 ≠ FLD_CTRL) :
    (s.hubReset cause).on FLD_CTRL FLD_CTRL_TRIP_LOCK = false := by
  have cleared : (s.hubReset cause).rd FLD_CTRL = 0#32 :=
    (hubReset_rd hwords (by decide) (by decide) fldCtrl_ne_slotCtr).trans resetWord_fldCtrl
  rw [State.on, State.fld_eq _ _ _ (by decide), cleared]
  rfl

/-- Settles O16: the lock is TRIP_CONFIG's first failed check and none of the others goes before BAD_STATE; TRIP_RESET does not ask for the
lock; and FLD_CTRL, which NVM holds no word of, reads its reset value after a hub reset. -/
theorem tripLockHolds : Obligations.TripLockHolds := by
  refine ⟨?config, ?reset, ?hubReset⟩
  case config =>
    refine completes_of (fun _ _ _ => rfl) (fun c ps x ⟨hlock, ho, hzero, hres, hlimits, hsel⟩ => ?_) (by decide) (by decide)
    exact bodyTripConfig_locked hlock ho hzero hres hlimits hsel
  case reset =>
    exact completes_of (fun _ _ _ => rfl) (fun c ps x ⟨_, hzero⟩ => bodyTripReset_ok hzero) (by decide) (by decide)
  case hubReset => exact fun s cause hwords => hubReset_unlocks hwords

end Sys2Proof
end

section
/-!
PROOFS. What holds of every row: that it ends with its closing part, that safety and the queue outlast it, and how its frame follows from
its footprint (Laws/Keep.lean); obligations O1 to O6.
-/

namespace Sys2Proof

set_option Elab.async false

open Sys2Proof.Machine Sys2Proof.Machine.Reg Sys2Proof.Machine.Bits

/-- Every row, whatever it does, ends with its closing part. -/
theorem exec_closing (c : Instr) (s : State) : ∃ x, exec c s = .next (closing s x) := by
  cases c <;> exact ⟨_, rfl⟩

/-- Settles O1: the step takes the front command off the queue by definition. -/
theorem stepRunsFront : Obligations.StepRunsFront := fun _ _ _ => rfl

/-- Kinds of change that move the instant: time, the instant alone, and a hub reset, which starts it again. -/
def movesNow : Prim → Bool
  | .time | .now | .reset => true
  | _ => false

/-- Any other kind of change leaves the instant as it is. -/
theorem now_closed (n : Nat) (q : Prim) (h : movesNow q = false) : q.Closed fun u => u.now = n := by
  cases q with
  | log => exact ⟨fun _ _ _ _ hu => hu, fun _ _ hu => hu, fun _ hu => hu, fun _ _ _ hu => hu, fun _ _ _ _ hu => hu, fun _ _ hu => hu⟩
  | arr => exact fun _ _ _ _ hu => hu
  | anyReg => exact fun _ _ _ hu => hu
  | free => exact fun _ hu => hu
  | work => exact fun _ _ _ hu => hu
  | flash => exact fun _ _ _ _ hu => hu
  | fresh => exact fun _ _ _ _ hu => hu
  | guard =>
    intro u v _ hv
    rcases guardNvm_cases u v with e | e <;> rw [e] <;> exact hv
  | mend =>
    intro u m off len hu
    unfold State.wroteWhole
    split <;> exact hu
  | time | now | reset => exact absurd h (by decide)
  | _ => exact fun _ _ hu => hu

theorem keeps_now (n : Nat) {l : List Prim} (h : (l.all fun q => !movesNow q) = true := by decide) : Keeps l fun u => u.now = n :=
  fun q hq => now_closed n q (by simpa using List.all_eq_true.mp h q hq)

theorem closing_now (s x : State) : (closing s x).now = x.now := by
  have mirrored : x.mirrorChanges.now = x.now := State.mirrorChanges_keep (keeps_now x.now) rfl
  have guarded : (State.guardNvm s x.mirrorChanges).now = x.now := by
    rcases guardNvm_cases s x.mirrorChanges with e | e <;> rw [e] <;> exact mirrored
  exact State.settle_keep (keeps_now x.now) guarded

theorem begin_now (s : State) (t : Nat) : (s.begin_ t).now = max s.now t := by
  unfold State.begin_
  extract_lets later s' clocks
  have ended : s'.now = max s.now t := by
    have : (if later then s.endClock else s).now = s.now := by
      split
      · exact State.endClock_keep (keeps_now s.now) rfl
      · rfl
    show max (if later then s.endClock else s).now t = _
    rw [this]
  have begun : (if later then s'.newClock else s').now = max s.now t := by
    split
    · exact State.newClock_keep (keeps_now _) ended
    · exact ended
  exact State.countUnseen_keep (keeps_now _) (State.countStalls_keep (keeps_now _) begun)

/-- Settles O2: an idle step is the passing of one crystal period, whose frame is that of time. -/
theorem emptyQueueTicks : Obligations.EmptyQueueTicks := by
  intro s u hq hstep
  unfold step at hstep
  rw [hq] at hstep
  obtain rfl := Host.Outcome.next.inj hstep
  have kept : Leaves (allBut [.free]) [] s (idle s) :=
    State.begin__keep (keeps_leaves s _ _ (by decide) (by decide)) (leaves_refl _ _ s)
  refine ⟨?_, ?_, kept.1, fun a ha => kept.2 a ha⟩
  · show (s.begin_ (s.now + 8192)).now / 8192 = s.now / 8192 + 1
    rw [begin_now]
    omega
  · exact (kept.1 .waiting (by decide)).trans hq

/-- Settles O3: every row answers, and no kind of change touches the queue. -/
theorem everyCommandAnswers : Obligations.EveryCommandAnswers := by
  intro c s
  obtain ⟨u, hu⟩ := exec_next c s
  exact ⟨u, hu, exec_keep (keeps_part s .waiting) rfl u hu⟩

/-- Settles O4: the reset state stores no byte, and of registers only words that are not their reset words. -/
theorem resetSafe : Obligations.ResetSafe := Tests.test_reset_safe

/-- Safety outlasts every kind of change. -/
theorem safe_closed : Keeps Prim.every Safe := by
  intro q hq
  cases q with
  | log => exact ⟨fun u a w _ hu => hu.wr a w, fun _ _ hu => ⟨hu.regs, hu.flash, hu.work⟩, fun _ hu => ⟨hu.regs, hu.flash, hu.work⟩,
      fun _ _ _ hu => ⟨hu.regs, hu.flash, hu.work⟩, fun _ _ _ _ hu => ⟨hu.regs, hu.flash, hu.work⟩, fun _ _ hu => ⟨hu.regs, hu.flash, hu.work⟩⟩
  | arr => exact fun u a w _ hu => hu.wr a w
  | anyReg => exact fun u a w hu => hu.wr a w
  | free => exact fun u hu => ⟨hu.regs, hu.flash, hu.work⟩
  | work => exact fun u o bs hu => hu.putWork o bs
  | flash => exact fun u k o bs hu => hu.program k o bs
  | reset => exact fun u c hu => hu.hubReset c
  | guard => exact fun u v _ hv => hv.guardNvm
  | fresh => exact fun u _ _ _ hu => ⟨hu.regs, hu.flash, hu.work⟩
  | mend =>
    intro u m off len hu
    unfold State.wroteWhole
    split
    · exact hu
    · exact ⟨hu.regs, hu.flash, hu.work⟩
  | _ => exact fun u _ hu => ⟨hu.regs, hu.flash, hu.work⟩

/-- Settles O5: each kind of change keeps the canonical form, so every step does. -/
theorem stepKeepsSafe : Obligations.StepKeepsSafe :=
  fun _ u h hstep => step_keep safe_closed (fun _ _ hs => ⟨hs.regs, hs.flash, hs.work⟩) h u hstep

/-- While supply power fails the guard takes back every change of NVM but those of the black box (R473). -/
theorem guardNvm_same {s : State} (h : s.sys.pfwNLow = true ∨ s.sys.pfwRoseAt.isSome = true) (x : State) :
    Part.nvm.Same s (State.guardNvm s x) := by
  unfold State.guardNvm
  rw [if_pos (by simpa using h)]
  rfl

/-- Settles O6: the closing part guards NVM, and the queues that settle after it write only the black box. -/
theorem nvmGuarded : Obligations.NvmGuarded := by
  intro c s u h hexec
  obtain ⟨x, hx⟩ := exec_closing c s
  obtain rfl := Host.Outcome.next.inj (hx.symm.trans hexec)
  exact Part.same_trans (guardNvm_same h _) (State.settle_keep (keeps_part _ .nvm) (Part.same_refl _ _))

end Sys2Proof
end

section
/-!
PROOFS. The frames of the rows: what a row may change follows from the kinds of change its function makes (Laws/KeepA and on), so each
line of the statements is that function's footprint against the parts and registers it names; obligations O57 to O60.
-/

namespace Sys2Proof

set_option Elab.async false

open Sys2Proof.Machine Sys2Proof.Machine.Reg Sys2Proof.Machine.Bits

/-- A packet's row makes the changes of every packet and those of its body, and RELEASE those of the ledger. -/
theorem commandLeaves_of {row : Nat → Packet → Instr} {op : Nat} {b : Body} {l : List Prim} {ps : List Part} {rs : List (Nat × Nat × Nat)}
    (hr : (fun t p s => exec (row t p) s) = command op b)
    (hb : ∀ {P : State → Prop}, Keeps l P → ∀ c a s, P s → (b c a s).Holds P)
    (hl : ∀ {P : State → Prop}, Keeps l P → op = 0x8003 → ∀ m s, P s → P (State.ledgerAdd s m))
    (h1 : ((packetPrims ++ l).all fun q => ps.all fun p => !q.touches p) = true) (h2 : ((packetPrims ++ l).all fun q => !q.strays rs) = true)
    (t : Nat) (p : Packet) (hp : flagReply p = false) : Framed (row t p) ps rs := by
  intro s u hu
  have k : Keeps (packetPrims ++ l) (Leaves ps rs s) := keeps_leaves s ps rs h1 h2
  have kl : Keeps l (Leaves ps rs s) := fun q hq => k q (List.mem_append_right _ hq)
  have e : command op b t p s = .next u := (congrFun (congrFun (congrFun hr t) p) s).symm.trans hu
  exact packet_frame (fun q hq => k q (List.mem_append_left _ hq)) hp (leaves_refl _ _ s) (hb kl) (hl kl) u e

/-- The frame of the row of any command but RELEASE, from the footprint of its body. -/
theorem commandFrame_of {row : Nat → Packet → Instr} {op : Nat} {b : Body} {l : List Prim} {ps : List Part} {rs : List (Nat × Nat × Nat)}
    (hr : (fun t p s => exec (row t p) s) = command op b)
    (hb : ∀ {P : State → Prop}, Keeps l P → ∀ c a s, P s → (b c a s).Holds P)
    (hop : op ≠ 0x8003 := by decide)
    (h1 : ((packetPrims ++ l).all fun q => (allBut ([.cmd, .red, .nvm, .free] ++ ps)).all fun p => !q.touches p) = true := by decide)
    (h2 : ((packetPrims ++ l).all fun q => !q.strays (packetRegs ++ rs)) = true := by decide) : CommandFrame row ps rs :=
  commandLeaves_of hr hb (fun _ h => absurd h hop) h1 h2

/-- The parts that the row of any command but RELEASE leaves alone, from the footprint of its body. -/
theorem commandParts_of {row : Nat → Packet → Instr} {op : Nat} {b : Body} {l : List Prim} {ps : List Part}
    (hr : (fun t p s => exec (row t p) s) = command op b)
    (hb : ∀ {P : State → Prop}, Keeps l P → ∀ c a s, P s → (b c a s).Holds P)
    (hop : op ≠ 0x8003 := by decide)
    (h1 : ((packetPrims ++ l).all fun q => (allBut ([.cmd, .red, .nvm, .free] ++ ps)).all fun p => !q.touches p) = true := by decide) :
    CommandParts row ps := by
  intro t p s u hp hu q hq
  have k : Keeps (packetPrims ++ l) fun x => q.Same s x := by
    refine keeps_part s q (List.all_eq_true.mpr fun r hr => ?_)
    exact List.all_eq_true.mp (List.all_eq_true.mp h1 r hr) q hq
  have e : command op b t p s = .next u := (congrFun (congrFun (congrFun hr t) p) s).symm.trans hu
  exact packet_frame (fun r hr => k r (List.mem_append_left _ hr)) hp (Part.same_refl q s) (hb fun r hr => k r (List.mem_append_right _ hr))
    (fun h => absurd h hop) u e

/-- The frame of any other row, from the footprint of its function. -/
theorem eventFrame_of {row : Nat → Instr} {l : List Prim} {ps : List Part} {rs : List (Nat × Nat × Nat)}
    (hk : ∀ {P : State → Prop}, Keeps l P → ∀ t s, P s → ∀ u, exec (row t) s = .next u → P u)
    (h1 : (l.all fun q => (allBut ([.red, .free] ++ ps)).all fun p => !q.touches p) = true := by decide)
    (h2 : (l.all fun q => !q.strays rs) = true := by decide) : EventFrame row ps rs :=
  fun t s u hu => hk (keeps_leaves s _ rs h1 h2) t s (leaves_refl _ _ s) u hu

/-- The parts that any other row leaves alone, from the footprint of its function. -/
theorem eventParts_of {row : Nat → Instr} {l : List Prim} {ps : List Part}
    (hk : ∀ {P : State → Prop}, Keeps l P → ∀ t s, P s → ∀ u, exec (row t) s = .next u → P u)
    (h1 : (l.all fun q => (allBut ([.red, .free] ++ ps)).all fun p => !q.touches p) = true := by decide) : EventParts row ps :=
  fun t s u hu q hq =>
    hk (keeps_part s q (List.all_eq_true.mpr fun r hr => List.all_eq_true.mp (List.all_eq_true.mp h1 r hr) q hq)) t s (Part.same_refl q s) u hu

/-- A kind of change other than programming flash, a hub reset among them, leaves the flash and the queue alone. -/
theorem flash_pending_closed (s : State) (q : Prim) (h : q ≠ .flash) : q.Closed fun u => u.bufs.flash = s.bufs.flash ∧ u.pending = s.pending := by
  cases q with
  | flash => exact absurd rfl h
  | reset => exact fun _ _ hu => hu
  | guard =>
    have c := fun p hp => part_closed s .guard p hp
    exact fun u v hu hv => ⟨c .flash rfl u v hu.1 hv.1, c .waiting rfl u v hu.2 hv.2⟩
  | mend =>
    have c := fun p hp => part_closed s .mend p hp
    exact fun u m o n hu => ⟨c .flash rfl u m o n hu.1, c .waiting rfl u m o n hu.2⟩
  | log => exact ⟨fun _ _ _ _ hu => hu, fun _ _ hu => hu, fun _ hu => hu, fun _ _ _ hu => hu, fun _ _ _ _ hu => hu, fun _ _ hu => hu⟩
  | arr => exact fun _ _ _ _ hu => hu
  | anyReg => exact fun _ _ _ hu => hu
  | free => exact fun _ hu => hu
  | work => exact fun _ _ _ hu => hu
  | fresh => exact fun _ _ _ _ hu => hu
  | _ => exact fun _ _ hu => hu

/-- The frame of a row that may reset the hub, from the footprint of its function. -/
theorem resetFrame_of {row : Nat → Instr} {l : List Prim}
    (hk : ∀ {P : State → Prop}, Keeps l P → ∀ t s, P s → ∀ u, exec (row t) s = .next u → P u)
    (h1 : (l.all fun q => q != .flash) = true := by decide) : ResetFrame row :=
  fun t s u hu => hk (fun q hq => flash_pending_closed s q (by simpa using List.all_eq_true.mp h1 q hq)) t s ⟨rfl, rfl⟩ u hu

/-- RELEASE changes the ledger wherever a hub that relays it takes its part. -/
theorem releaseFrame : CommandFrame .release [.mem] [(RED_LEDGER, 0, 1), (MEM_ERR 0, 32, 5), (MEM_ERR_INFO 0, 32, 5), (MEM_ERR_ADDR 0, 32, 5),
    (MEM_ERR_ADDR 0 + 4, 32, 5), (QM_REL_STAT, 0, 1)] :=
  commandLeaves_of rfl (fun k _ _ _ h => bodyRelease_keep k h) (fun k _ _ _ h => State.ledgerAdd_keep k.sub h) (by decide) (by decide)

/-- Settles O57: line by line, each body against its line. -/
theorem hubCommandFrames : Obligations.HubCommandFrames :=
  ⟨commandFrame_of rfl fun k _ _ _ h => bodyPing_keep k h,
    commandFrame_of rfl fun k _ _ _ h => bodyIdentify_keep k h,
    commandFrame_of rfl fun k _ _ _ h => bodySoftReset_keep k h,
    commandFrame_of rfl fun k _ _ _ h => bodyUpdateBegin_keep k h,
    commandFrame_of rfl fun k _ _ _ h => bodyUpdateData_keep k h,
    commandFrame_of rfl fun k _ _ _ h => bodyUpdateCommit_keep k h,
    commandFrame_of rfl fun k _ _ _ h => bodyUpdateActivate_keep k h,
    commandFrame_of rfl fun k _ _ _ h => bodyLogRead_keep k h,
    commandFrame_of rfl fun k _ _ _ h => bodyLogMark_keep k h,
    commandFrame_of rfl fun k _ _ _ h => bodySensorRead_keep k h,
    commandFrame_of rfl fun k _ _ _ h => bodySetPowerState_keep k h,
    commandFrame_of rfl fun k _ _ _ h => bodyAbort_keep k h,
    commandFrame_of rfl fun k _ _ _ h => bodyCredInstall_keep k h,
    commandFrame_of rfl fun k _ _ _ h => bodyCredRevoke_keep k h,
    commandFrame_of rfl fun k _ _ _ h => bodyCredStatus_keep k h,
    commandParts_of rfl fun k _ _ _ h => bodyRegRead_keep k h,
    commandParts_of rfl fun k _ _ _ h => bodyRegWrite_keep k h,
    commandParts_of rfl fun k _ _ _ h => bodyRegRead64_keep k h,
    commandFrame_of rfl fun k _ _ _ h => bodyScrub_keep k h,
    commandFrame_of rfl fun k _ _ _ h => bodyMemStatus_keep k h,
    commandFrame_of rfl fun k _ _ _ h => bodyMemInject_keep k h,
    commandFrame_of rfl fun k _ _ _ h => bodyPmcConfig_keep k h,
    commandFrame_of rfl fun k _ _ _ h => bodyPmcRead_keep k h,
    commandFrame_of rfl fun k _ _ _ h => bodyPmcDumpConfig_keep k h,
    commandFrame_of rfl fun k _ _ _ h => bodyCalRun_keep k h,
    commandFrame_of rfl fun k _ _ _ h => bodyCalStatus_keep k h,
    commandFrame_of rfl fun k _ _ _ h => bodyCalCoeffRead_keep k h,
    commandFrame_of rfl fun k _ _ _ h => bodyCalPolicy_keep k h,
    commandFrame_of rfl fun k _ _ _ h => bodyQueueConfig_keep k h,
    commandFrame_of rfl fun k _ _ _ h => bodyQueueStatus_keep k h,
    releaseFrame,
    commandFrame_of rfl fun k _ _ _ h => bodyRetentionConfig_keep k h,
    commandFrame_of rfl fun k _ _ _ h => bodyShutter_keep k h,
    commandFrame_of rfl fun k _ _ _ h => bodyShutterOpen_keep k h,
    commandFrame_of rfl fun k _ _ _ h => bodyCmpConfig_keep k h,
    commandFrame_of rfl fun k _ _ _ h => bodyCmpJob_keep k h,
    commandFrame_of rfl fun k _ _ _ h => bodyCmpFlush_keep k h,
    commandFrame_of rfl fun k _ _ _ h => bodyPortConfig_keep k h,
    commandFrame_of rfl fun k _ _ _ h => bodyPortStatus_keep k h,
    commandFrame_of rfl fun k _ _ _ h => bodyLaneEyeScan_keep k h,
    commandFrame_of rfl fun k _ _ _ h => bodyLanePattern_keep k h,
    commandFrame_of rfl fun k _ _ _ h => bodyLaneLoopback_keep k h,
    commandFrame_of rfl fun k _ _ _ h => bodyPortRetrain_keep k h,
    commandFrame_of rfl fun k _ _ _ h => bodyHeadConfig_keep k h,
    commandFrame_of rfl fun k _ _ _ h => bodyHeadStatus_keep k h,
    commandFrame_of rfl fun k _ _ _ h => bodyLatchRequest_keep k h,
    commandFrame_of rfl fun k _ _ _ h => bodyLatchRenew_keep k h,
    commandFrame_of rfl fun k _ _ _ h => bodyLatchRelease_keep k h,
    commandFrame_of rfl fun k _ _ _ h => bodyHeadDrill_keep k h⟩

/-- Settles O58: line by line, each body against its line. -/
theorem signalCommandFrames : Obligations.SignalCommandFrames :=
  ⟨commandFrame_of rfl fun k _ _ _ h => bodyChConfig_keep k h,
    commandFrame_of rfl fun k _ _ _ h => bodyChQuery_keep k h,
    commandFrame_of rfl fun k _ _ _ h => bodyBayExcitation_keep k h,
    commandFrame_of rfl fun k _ _ _ h => bodyChTestInject_keep k h,
    commandFrame_of rfl fun k _ _ _ h => bodyClampStatus_keep k h,
    commandFrame_of rfl fun k _ _ _ h => bodyBayMode_keep k h,
    commandFrame_of rfl fun k _ _ _ h => bodyTransomSequence_keep k h,
    commandFrame_of rfl fun k _ _ _ h => bodyTransomUrgent_keep k h,
    commandFrame_of rfl fun k _ _ _ h => bodyChainConfig_keep k h,
    commandFrame_of rfl fun k _ _ _ h => bodyDetectorConfig_keep k h,
    commandFrame_of rfl fun k _ _ _ h => bodyStreamEnable_keep k h,
    commandFrame_of rfl fun k _ _ _ h => bodyTimeRead_keep k h,
    commandFrame_of rfl fun k _ _ _ h => bodyTimeDomainConfig_keep k h,
    commandFrame_of rfl fun k _ _ _ h => bodyTimeSelectDomain_keep k h,
    commandFrame_of rfl fun k _ _ _ h => bodyTimeSchedule_keep k h,
    commandFrame_of rfl fun k _ _ _ h => bodyTimeAsymmetrySet_keep k h,
    commandFrame_of rfl fun k _ _ _ h => bodyTimeStatus_keep k h,
    commandFrame_of rfl fun k _ _ _ h => bodyTiuRoute_keep k h,
    commandFrame_of rfl fun k _ _ _ h => bodyStampRead_keep k h,
    commandFrame_of rfl fun k _ _ _ h => bodyTriggerConfig_keep k h,
    fun _ => commandFrame_of rfl fun k _ _ _ h => bodyFreqMeasure_keep k h,
    commandFrame_of rfl fun k _ _ _ h => bodyPaneOpen_keep k h,
    commandFrame_of rfl fun k _ _ _ h => bodyPaneClose_keep k h,
    commandFrame_of rfl fun k _ _ _ h => bodyTriggerAnnounce_keep k h,
    commandFrame_of rfl fun k _ _ _ h => bodyHistoryExtract_keep k h,
    commandFrame_of rfl fun k _ _ _ h => bodyMeasureConfig_keep k h,
    commandFrame_of rfl fun k _ _ _ h => bodyFieldPortConfig_keep k h,
    commandFrame_of rfl fun k _ _ _ h => bodyFieldDecoderConfig_keep k h,
    commandFrame_of rfl fun k _ _ _ h => bodyTripConfig_keep k h,
    commandFrame_of rfl fun k _ _ _ h => bodyFoutConfig_keep k h,
    commandFrame_of rfl fun k _ _ _ h => bodyTripReset_keep k h⟩

/-- Settles O59: line by line, each row's function against its line. -/
theorem hubEventFrames : Obligations.HubEventFrames :=
  ⟨eventFrame_of fun k _ _ h => execPfwNFall_keep k h,
    fun _ => eventParts_of fun k _ _ h => execMemoryFillDone_keep k h,
    eventFrame_of fun k _ _ h => execPfwNRise_keep k h,
    eventFrame_of fun k _ _ h => execPowerTransitionDone_keep k h,
    eventFrame_of fun k _ _ h => execBbAllowanceRefill_keep k h,
    fun _ => eventFrame_of fun k _ _ h => execConsoleStatusQuery_keep k h,
    fun _ => eventFrame_of fun k _ _ h => execNextAddrWrite_keep k h,
    eventFrame_of fun k _ _ h => execConsoleLock_keep k h,
    eventFrame_of fun k _ _ h => execUpdateCommitDone_keep k h,
    eventFrame_of fun k _ _ h => execConfigStoreWrite_keep k h,
    fun _ _ => eventFrame_of fun k _ _ h => execCommandTimeout_keep k h,
    eventFrame_of fun k _ _ h => execSeenCacheExpiry_keep k h,
    eventFrame_of fun k _ _ h => execReplyCacheExpiry_keep k h,
    eventFrame_of fun k _ _ h => execSpiStatus_keep k h,
    fun _ _ => eventParts_of fun k _ _ h => execSpiRegRead_keep k h,
    fun _ _ => eventParts_of fun k _ _ h => execSpiRegWrite_keep k h,
    fun _ => eventFrame_of fun k _ _ h => execSpiPktRead_keep k h,
    fun _ => eventFrame_of fun k _ _ h => execSpiFrameIgnored_keep k h,
    fun _ _ _ => eventParts_of fun k _ _ h => execRegisterWrite_keep k h,
    fun _ => eventFrame_of fun k _ _ h => execDramTempPoll_keep k h,
    eventFrame_of fun k _ _ h => execScrubDone_keep k h,
    eventFrame_of fun k _ _ h => execPmcDump_keep k h,
    fun _ => eventFrame_of fun k _ _ h => execJtagInstruction_keep k h,
    eventFrame_of fun k _ _ h => execPmcClear_keep k h,
    fun _ _ _ => eventFrame_of fun k _ _ h => execVernierCalDone_keep k h,
    fun _ => eventFrame_of fun k _ _ h => execCalPeriodExpiry_keep k h,
    fun _ => eventFrame_of fun k _ _ h => execCalGroupStart_keep k h,
    fun _ _ _ => eventFrame_of fun k _ _ h => execCalGroupDone_keep k h,
    fun _ => eventFrame_of fun k _ _ h => execCalRetry_keep k h,
    fun _ => eventFrame_of fun k _ _ h => execPushResumed_keep k h,
    fun _ => eventFrame_of fun k _ _ h => execSpill_keep k h,
    fun _ => eventFrame_of fun k _ _ h => execRetentionReturn_keep k h,
    fun _ => eventFrame_of fun k _ _ h => execRewindTimeout_keep k h,
    fun _ => eventFrame_of fun k _ _ h => execRewindApply_keep k h,
    fun _ => eventFrame_of fun k _ _ h => execShutterExpiry_keep k h,
    eventFrame_of fun k _ _ h => execEventRecordClose_keep k h,
    fun _ => eventFrame_of fun k _ _ h => execCmpRecordDone_keep k h,
    fun _ _ => eventFrame_of fun k _ _ h => execCmpJobDone_keep k h,
    eventFrame_of fun k _ _ h => execCmpFlushDrained_keep k h,
    fun _ => eventFrame_of fun k _ _ h => execPortTrainingStart_keep k h,
    fun _ _ => eventFrame_of fun k _ _ h => execTrainIdentReceived_keep k h,
    fun _ _ => eventFrame_of fun k _ _ h => execTrainReadyReceived_keep k h,
    fun _ => eventFrame_of fun k _ _ h => execTrainingTimeout_keep k h,
    fun _ => eventFrame_of fun k _ _ h => execTrainingRestart_keep k h,
    fun _ => eventFrame_of fun k _ _ h => execMismatchRetry_keep k h,
    fun _ _ => eventFrame_of fun k _ _ h => execLaneLost_keep k h,
    fun _ _ _ => eventFrame_of fun k _ _ h => execRestripeReceived_keep k h,
    fun _ _ _ => eventFrame_of fun k _ _ h => execLaneReadmitted_keep k h,
    fun _ => eventFrame_of fun k _ _ h => execIdleFreeze_keep k h,
    fun _ => eventFrame_of fun k _ _ h => execIdleRefresh_keep k h,
    fun _ => eventFrame_of fun k _ _ h => execEgressCellStart_keep k h,
    fun _ _ => eventFrame_of fun k _ _ h => execCellReceived_keep k h,
    fun _ _ => eventFrame_of fun k _ _ h => execLinkBlockReceived_keep k h,
    fun _ => eventFrame_of fun k _ _ h => execLinkBlockSend_keep k h,
    fun _ => eventFrame_of fun k _ _ h => execReplayTimeout_keep k h,
    eventFrame_of fun k _ _ h => execLinkStateRefresh_keep k h,
    fun _ _ => eventFrame_of fun k _ _ h => execLinkStateReceived_keep k h,
    fun _ => eventFrame_of fun k _ _ h => execLinkStateExpiry_keep k h,
    eventFrame_of fun k _ _ h => execTransitHoldExpiry_keep k h,
    fun _ _ => eventFrame_of fun k _ _ h => execModulePoll_keep k h,
    fun _ _ => eventFrame_of fun k _ _ h => execEyeScanDone_keep k h,
    fun _ _ => eventFrame_of fun k _ _ h => execCheckerLockChange_keep k h,
    eventFrame_of fun k _ _ h => execHeartbeatSend_keep k h,
    fun _ _ => eventFrame_of fun k _ _ h => execHeartbeatReceived_keep k h,
    fun _ => eventFrame_of fun k _ _ h => execPathFailed_keep k h,
    fun _ => eventFrame_of fun k _ _ h => execPathRestored_keep k h,
    eventFrame_of fun k _ _ h => execLatchRenewSend_keep k h,
    eventFrame_of fun k _ _ h => execLeaseExpiry_keep k h,
    eventFrame_of fun k _ _ h => execLatchRequestSend_keep k h,
    eventFrame_of fun k _ _ h => execStartHoldoffExpiry_keep k h,
    fun _ => eventFrame_of fun k _ _ h => execWitnessLeaseExpiry_keep k h,
    fun _ => eventFrame_of fun k _ _ h => execQuietPeriodEnd_keep k h,
    fun _ _ => eventFrame_of fun k _ _ h => execMirrorReceived_keep k h,
    eventFrame_of fun k _ _ h => execMirrorResend_keep k h,
    eventFrame_of fun k _ _ h => execMirrorStateRefresh_keep k h,
    eventFrame_of fun k _ _ h => execDigestSend_keep k h,
    fun _ _ => eventFrame_of fun k _ _ h => execDigestReceived_keep k h,
    eventFrame_of fun k _ _ h => execDigestTimeout_keep k h,
    eventFrame_of fun k _ _ h => execLedgerReplaySend_keep k h,
    eventFrame_of fun k _ _ h => execSwitchoverTimeout_keep k h,
    eventFrame_of fun k _ _ h => execDrillDone_keep k h,
    resetFrame_of fun k _ _ h => execPowerOn_keep k h,
    fun _ => resetFrame_of fun k _ _ h => execResetNPulse_keep k h,
    fun _ => resetFrame_of fun k _ _ h => execSupplyBrownout_keep k h,
    resetFrame_of fun k _ _ h => execPfwRecoveryReset_keep k h,
    fun _ => resetFrame_of fun k _ _ h => execBootOk_keep k h,
    resetFrame_of fun k _ _ h => execBootTimeout_keep k h,
    resetFrame_of fun k _ _ h => execWatchdogExpiry_keep k h,
    resetFrame_of fun k _ _ h => execLockstepMismatch_keep k h,
    resetFrame_of fun k _ _ h => execImageLoadDone_keep k h,
    resetFrame_of fun k _ _ h => execResetAfterReply_keep k h⟩

/-- Settles O60: line by line, each row's function against its line. -/
theorem signalEventFrames : Obligations.SignalEventFrames :=
  ⟨fun _ => eventFrame_of fun k _ _ h => execChargeReset_keep k h,
    fun _ _ => eventFrame_of fun k _ _ h => execClampOnset_keep k h,
    fun _ => eventFrame_of fun k _ _ h => execExcLimit_keep k h,
    fun _ _ => eventFrame_of fun k _ _ h => execPilotWindow_keep k h,
    fun _ => eventFrame_of fun k _ _ h => execTestTick_keep k h,
    fun _ => eventFrame_of fun k _ _ h => execInjectOppositeEdge_keep k h,
    fun _ _ => eventFrame_of fun k _ _ h => execExcitationPeriod_keep k h,
    fun _ => eventFrame_of fun k _ _ h => execBurstWindowWake_keep k h,
    fun _ => eventFrame_of fun k _ _ h => execBurstWindowEnd_keep k h,
    eventFrame_of fun k _ _ h => execTransomPeriodTrigger_keep k h,
    fun _ _ => eventFrame_of fun k _ _ h => execTrigInEdge_keep k h,
    eventFrame_of fun k _ _ h => execTransomStart_keep k h,
    eventFrame_of fun k _ _ h => execTransomCommit_keep k h,
    fun _ _ => eventFrame_of fun k _ _ h => execPmcToneWrite_keep k h,
    fun _ => eventFrame_of fun k _ _ h => execNewScanSetting_keep k h,
    fun _ _ => eventFrame_of fun k _ _ h => execReliefCompareEnd_keep k h,
    fun _ _ => eventFrame_of fun k _ _ h => execBayCalibrationDone_keep k h,
    fun _ _ => eventFrame_of fun k _ _ h => execRawCodeArrival_keep k h,
    fun _ _ _ => eventFrame_of fun k _ _ h => execOutputSampleDelivered_keep k h,
    fun _ => eventFrame_of fun k _ _ h => execStreamStart_keep k h,
    fun _ _ _ => eventFrame_of fun k _ _ h => execEdgeStamp_keep k h,
    fun _ _ => eventFrame_of fun k _ _ h => execLoopUnlock_keep k h,
    fun _ => eventFrame_of fun k _ _ h => execLoopRelock_keep k h,
    fun _ => eventFrame_of fun k _ _ h => execTripStale_keep k h,
    fun _ => eventFrame_of fun k _ _ h => execTripMinOnExpiry_keep k h,
    fun _ => eventFrame_of fun k _ _ h => execFieldPortPoll_keep k h,
    fun _ _ _ => eventFrame_of fun k _ _ h => execFrameReceived_keep k h,
    eventFrame_of fun k _ _ h => execTripLock_keep k h,
    fun _ => eventFrame_of fun k _ _ h => execCrystalSecond_keep k h,
    eventFrame_of fun k _ _ h => execIncrementBoundary_keep k h,
    fun _ _ => eventFrame_of fun k _ _ h => execTimeBlockReceived_keep k h,
    fun _ _ => eventFrame_of fun k _ _ h => execTimeCellReceived_keep k h,
    fun _ => eventFrame_of fun k _ _ h => execHoldoverEntry_keep k h,
    fun _ _ => eventFrame_of fun k _ _ h => execPpsEdge_keep k h,
    fun _ _ _ => eventFrame_of fun k _ _ h => execTodMessage_keep k h,
    fun _ => eventFrame_of fun k _ _ h => execTimedActionLaunch_keep k h,
    fun _ _ _ => eventFrame_of fun k _ _ h => execTbIncrCommit_keep k h,
    fun _ => eventFrame_of fun k _ _ h => execAnchorGo_keep k h,
    fun _ _ => eventFrame_of fun k _ _ h => execTimedActionArm_keep k h,
    fun _ => eventFrame_of fun k _ _ h => execTimedActionCancel_keep k h,
    fun _ => eventFrame_of fun k _ _ h => execTimeTrigger_keep k h,
    fun _ => eventFrame_of fun k _ _ h => execPaneHeldTime_keep k h,
    fun _ => eventFrame_of fun k _ _ h => execPaneCut_keep k h,
    fun _ _ => eventFrame_of fun k _ _ h => execExtractServe_keep k h,
    eventFrame_of fun k _ _ h => execHistoryRepartition_keep k h,
    fun _ _ => eventFrame_of fun k _ _ h => execEngineArmWrite_keep k h,
    fun _ => eventFrame_of fun k _ _ h => execFreqGateOpen_keep k h,
    fun _ => eventFrame_of fun k _ _ h => execFreqGateClose_keep k h,
    eventFrame_of fun k _ _ h => execSensorPoll_keep k h,
    fun _ => eventFrame_of fun k _ _ h => execTransomEntryDone_keep k h,
    eventFrame_of fun k _ _ h => execTransomCalibrationDone_keep k h⟩

end Sys2Proof
end

section
/-!
PROOFS. The rows of command packets taken together: a packet with REPLY never comes to its command's body, one that is turned away or
refused leaves it out too, and a scoped FREQ_MEASURE is carried out by another body than a relayed one; obligations O8 to O11.
-/

namespace Sys2Proof

set_option Elab.async false

open Sys2Proof.Machine Sys2Proof.Machine.Reg Sys2Proof.Machine.Bits

/-- Every row of the tables of commands is the judging of its opcode with some body. -/
theorem commandRows_body (loops : List Nat) : ∀ e ∈ commandRows loops, ∃ b, ∀ t p s, exec (e.2 t p) s = command e.1 b t p s := by
  intro e he
  simp only [commandRows, commandRows0, commandRows1, commandRows2, commandRows3, List.mem_append, List.mem_cons, List.not_mem_nil, or_false] at he
  rcases he with ((he | he) | he) | he <;> rcases he with _ | _ | _ | _ | _ | _ | _ | _ | _ | _ | _ | _ | _ | _ | _ | _ | _ | _ | _ | _ <;>
    subst e <;> exact ⟨_, fun _ _ _ => rfl⟩

/-- A packet with REPLY never comes to a body (R544). -/
theorem receive_reply (s : State) (b b' : Body) (op : Nat) {p : Packet} (hp : flagReply p = true) : s.receive b op p = s.receive b' op p := by
  have judged : ∀ x : State, x.judgeHere b op p = x.judgeHere b' op p := by
    intro x
    unfold State.judgeHere
    simp only [hp, if_true]
  have relayed : ∀ x : State, x.relayAct b op p = x.relayAct b' op p := by
    intro x
    unfold State.relayAct
    simp only [hp, Bool.true_or, if_true]
  unfold State.receive
  simp only [judged, relayed]

/-- What a packet with REPLY may change, whatever its opcode. -/
theorem reply_frame {row : Instr} {b : Body} {op t : Nat} {p : Packet} (hr : ∀ s, exec row s = command op b t p s) (hp : flagReply p = true) :
    Framed row (allBut [.cmd, .red, .nvm, .lnk, .mem, .free]) (packetRegs ++ replyRegs) := by
  intro s u hu
  have e : command op (fun _ _ x => .quiet x) t p s = .next u := by
    rw [← hu, hr]
    unfold command
    rw [receive_reply _ _ b op hp]
  exact command_keep (b := fun _ _ x => .quiet x) (keeps_leaves s _ _ (by decide) (by decide)) (leaves_refl _ _ s) (fun _ _ _ h => h) u e

/-- Settles O8: no body runs, so only the judging and the handing over of the reply leave a trace. -/
theorem replyFrames : Obligations.ReplyFrames := by
  refine ⟨fun loops e he t p hp => ?_, fun op t p hp => reply_frame (fun _ => rfl) hp⟩
  obtain ⟨b, hb⟩ := commandRows_body loops e he
  exact reply_frame (hb t p) hp

/-- How a row of the tables of commands is shown to do what its judging does. -/
theorem commandOccurs_of {row : Nat → Instr} {op : Nat} {b : Body} {p : Packet} {due : State → Prop} {eff : State → State}
    (hr : ∀ t s, exec (row t) s = command op b t p s) (hf : ∀ x, due x → x.receive b op p = eff x) : Occurs row due eff := by
  intro t s hd y
  refine ⟨?_, closing_closed s y⟩
  rw [hr]
  show Host.Outcome.next (closing s _) = _
  rw [hf _ hd]

theorem receive_unbooted {x : State} (b : Body) (op : Nat) (p : Packet) (h : x.booted = false) :
    x.receive b op p = if p.arrival = 8 then x.setBit CMD_SPI_CTRL CMD_SPI_CTRL_FRAME_ERR 0 else x := by
  unfold State.receive
  rw [h]
  rfl

theorem receive_malformed {x : State} (b : Body) (op : Nat) {p : Packet} (h : x.booted = true) (hm : x.malformed p = true) :
    x.receive b op p = x.bump CMD_ERR CMD_ERR_MALFORMED := by
  unfold State.receive
  rw [h, hm]
  rfl

theorem receive_seen {x : State} (b : Body) {op : Nat} {p : Packet} (h : x.booted = true) (hm : x.malformed p = false)
    (hc : flagScoped p = true ∨ flagOrigin p = true) (hf : x.cacheFailed = false) (hs : x.seenBefore op p = true) :
    x.receive b op p = x.bump CMD_CACHE CMD_CACHE_DUPLICATES := by
  have e : (flagScoped p || flagOrigin p) = true := by simpa using hc
  unfold State.receive
  simp [h, hm, hf, hs, e]

/-- A unicast packet of no hub that is for this hub is judged here. -/
theorem receive_unicast {x : State} (b : Body) {op : Nat} {p : Packet} (h : x.booted = true) (hm : x.malformed p = false)
    (hs : flagScoped p = false) (ho : flagOrigin p = false) (hq : x.forSpiHost p = false) (hh : x.forHere p = true) :
    x.receive b op p = x.judgeHere b op p := by
  unfold State.receive
  simp [h, hm, hs, ho, hq, hh]

/-- A packet whose counter was accepted before, and whose reply is not kept, is answered REPLAYED where its caller hears that. -/
theorem judgeHere_replayed {x : State} (b : Body) {op : Nat} {p : Packet} {cr : Cred} (hs : flagScoped p = false) (ho : flagOrigin p = false)
    (hr : flagReply p = false) (ha : x.authentic op p = some cr)
    (hc : ((x.pmc 0xB01 0 1).cached.find? fun a => a.isFor (callerOf op p cr)) = none)
    (hl : p.counter ≤ (x.pmc 0xB01 0 1).lastCtr p.slot) (hv : (callerOf op p cr).hears stREPLAYED = true) :
    x.judgeHere b op p =
      let z := (x.pmc 0xB01 0 1).noteReplay p
      z.emit (callerOf op p cr) (replyPacket z (callerOf op p cr) false (replyParams stREPLAYED (le 4 (z.lastCtr p.slot))) false) := by
  unfold State.judgeHere
  simp [hs, ho, hr, ha, hc, hl, hv]

/-- Settles O9: by the steps of the judging, in their order. -/
theorem packetsTurnedAway : Obligations.PacketsTurnedAway := by
  intro loops e he p
  obtain ⟨b, hb⟩ := commandRows_body loops e he
  refine ⟨?_, ?_, ?_, ?_, ?_, fun cr => ?_⟩ <;> refine commandOccurs_of (fun t s => hb t p s) ?_
  · rintro x ⟨h, ha⟩
    rw [receive_unbooted b e.1 p h, if_neg ha]
  · rintro x ⟨h, ha⟩
    rw [receive_unbooted b e.1 p h, if_pos ha]
  · rintro x ⟨h, hm⟩
    exact receive_malformed b e.1 h hm
  · rintro x ⟨h, hm, hc, hf, hs⟩
    exact receive_seen b h hm hc hf hs
  · rintro x ⟨h, hm, hs, ho, hq, hh, ha⟩
    rw [receive_unicast b h hm hs ho hq hh]
    unfold State.judgeHere
    rw [ha]
  · rintro x ⟨h, hm, hs, ho, hr, hq, hh, ha, hc, hl, hv⟩
    rw [receive_unicast b h hm hs ho hq hh, judgeHere_replayed b hs ho hr ha hc hl hv]
    rfl

/-- A packet that has come to step 9 of Table 12-4 has its counter accepted and is judged on. -/
theorem receive_permissions {x : State} (b : Body) {op : Nat} {p : Packet} {cr : Cred} (h : comesToPermissions op p cr x) :
    x.receive b op p = ((x.pmc 0xB01 0 1).acceptCtr p.slot p.counter).execute b op p cr := by
  obtain ⟨hb, hm, hs, ho, hr, hq, hh, ha, hc, hl⟩ := h
  rw [receive_unicast b hb hm hs ho hq hh]
  unfold State.judgeHere
  simp [hs, ho, hr, ha, hc, Nat.not_le.mpr hl]

/-- A refusal other than BUSY changes nothing but that it is answered. -/
theorem execute_refused {x : State} (b : Body) {op st : Nat} {p : Packet} {cr : Cred} (h : x.admits op p cr.perms = some st) (hst : st ≠ stBUSY) :
    x.execute b op p cr = x.reply (callerOf op p cr) st [] := by
  unfold State.execute
  simp [h, hst]

theorem admits_not_permitted {x : State} {op : Nat} {r : OpRow} {p : Packet} {perms : Nat} (hr : opRow op = some r)
    (h : ¬ permsNeeded x op p.params &&& perms = permsNeeded x op p.params) : x.admits op p perms = some stNOT_PERMITTED := by
  unfold State.admits
  simp [hr, h]

theorem admits_minimal {x : State} {op : Nat} {r : OpRow} {p : Packet} {perms : Nat} (hr : opRow op = some r)
    (h : permsNeeded x op p.params &&& perms = permsNeeded x op p.params) (hm : x.isMinimal = true) (hn : r.minimal = false) :
    x.admits op p perms = some stMINIMAL_MODE := by
  unfold State.admits
  simp [hr, h, hm, hn]

theorem served_of_minimal {x : State} {r : OpRow} (h : x.isMinimal = true → r.minimal = true) : (x.isMinimal && !r.minimal) = false := by
  simpa using h

theorem admits_bad_length {x : State} {op : Nat} {r : OpRow} {p : Packet} {perms : Nat} (hr : opRow op = some r)
    (h : permsNeeded x op p.params &&& perms = permsNeeded x op p.params) (hm : x.isMinimal = true → r.minimal = true)
    (hl : lenOk op p.params = false) : x.admits op p perms = some stBAD_LENGTH := by
  unfold State.admits
  simp only [hr, h, bne_self_eq_false, Bool.false_eq_true, if_false, served_of_minimal hm, hl, Bool.not_false, if_true]

theorem admits_reserved {x : State} {op : Nat} {r : OpRow} {p : Packet} {perms : Nat} (hr : opRow op = some r)
    (h : permsNeeded x op p.params &&& perms = permsNeeded x op p.params) (hm : x.isMinimal = true → r.minimal = true)
    (hl : lenOk op p.params = true)
    (hv : p.rsvd14 ≠ 0 ∨ p.rsvd22 ≠ List.replicate 10 0#8 ∨ p.b21 / 2 % 128 ≠ 0 ∨ p.flags / 16 % 16 ≠ 0) :
    x.admits op p perms = some stBAD_PARAM := by
  have e : (p.rsvd14 != 0 || p.b21 / 2 % 128 != 0 || p.rsvd22 != List.replicate 10 0#8 || p.flags / 16 % 16 != 0) = true := by
    simp only [Bool.or_eq_true, bne_iff_ne]
    rcases hv with h | h | h | h
    · exact .inl (.inl (.inl h))
    · exact .inl (.inr h)
    · exact .inl (.inl (.inr h))
    · exact .inr h
  unfold State.admits
  simp only [hr, h, bne_self_eq_false, Bool.false_eq_true, if_false, served_of_minimal hm, hl, Bool.not_true, e, if_true]

/-- Settles O10: each refusal of steps 9 to 12 is the first that applies. -/
theorem commandsRefused : Obligations.CommandsRefused := by
  intro loops e he p cr r hr
  obtain ⟨b, hb⟩ := commandRows_body loops e he
  refine ⟨?_, ?_, ?_, ?_⟩ <;> refine commandOccurs_of (fun t s => hb t p s) ?_
  · rintro x ⟨hx, hn⟩
    exact (receive_permissions b hx).trans (execute_refused b (admits_not_permitted hr hn) (by decide))
  · rintro x ⟨hx, hp, hm, hn⟩
    exact (receive_permissions b hx).trans (execute_refused b (admits_minimal hr hp hm hn) (by decide))
  · rintro x ⟨hx, hp, hm, hl⟩
    exact (receive_permissions b hx).trans (execute_refused b (admits_bad_length hr hp hm hl) (by decide))
  · rintro x ⟨hx, hp, hm, hl, hv⟩
    exact (receive_permissions b hx).trans (execute_refused b (admits_reserved hr hp hm hl hv) (by decide))

end Sys2Proof
end

section
/-!
PROOFS. FREQ_MEASURE as a scoped packet: the row of its command carries the readings of the loop checks with it, where the body that a
relayed or queued packet comes to draws them as free values (log entry 27), so the two part in the count of free values drawn;
obligation O11.
-/

namespace Sys2Proof

set_option Elab.async false

open Sys2Proof.Machine Sys2Proof.Machine.Reg Sys2Proof.Machine.Bits

/-- A FREQ_MEASURE to every hub, with sixteen zero bytes for its parameters. -/
def scopedFreqMeasure : Packet := Tests.askAs 0x5002 (fun p => { p with dest := 2 ^ 14 }) (List.replicate 16 0#8)

/-- The free values drawn by the end of an outcome. -/
def drawn : Host.Outcome State Fault Refusal → Option Nat
  | .next u => some u.free
  | _ => none

/-- Refutes O11: the bench, a hub at address 0 that runs, receives a FREQ_MEASURE to every hub which names no channel, a packet new to it
and in its scope. The row answers BAD_PARAM without drawing a free value, where the body that the statement names draws eight first. -/
theorem not_scopedPacketsSpread : ¬ Obligations.ScopedPacketsSpread := by
  intro h
  have row : (0x5002, (Instr.freqMeasure · · [])) ∈ commandRows [] := by simp [commandRows, commandRows1]
  have spread := (h [] _ row scopedFreqMeasure Tests.benchCred Tests.noon Tests.bench (by decide +kernel)).1
  have counts := congrArg drawn spread
  revert counts
  decide +kernel

end Sys2Proof
end

section
/-!
PROOFS. How the checks of a command come out: all of them pass, or the parameters fail, which no other failure goes before (R545).
-/

namespace Sys2Proof

open Sys2Proof.Machine Sys2Proof.Machine.Reg Sys2Proof.Machine.Bits

theorem firstFail_need {c : Bool} (h : c = true) (st : Nat) (l : List (Option Nat)) : firstFail (need c st :: l) = firstFail l := by
  rw [h]
  rfl

theorem firstFail_nil : firstFail [] = none := rfl

/-- Checks none of which fails pass. -/
theorem firstFail_of_forall {l : List (Option Nat)} (h : ∀ o ∈ l, o = none) : firstFail l = none := by
  induction l with
  | nil => rfl
  | cons o l ih =>
    rw [h o List.mem_cons_self, firstFail_none_cons]
    exact ih fun o ho => h o (List.mem_cons_of_mem _ ho)

theorem rank_badParam_le (st : Nat) : rank stBAD_PARAM ≤ rank st := Nat.zero_le _

/-- A failed check of the parameters goes before any other. -/
theorem checked_badParam {c : Bool} (h : c = false) (s : State) (l : List (Option Nat)) (go : Res) :
    checked s (need c stBAD_PARAM :: l) go = refuse s stBAD_PARAM := by
  refine checked_some ?_
  rw [h]
  exact firstFail_some_cons fun y _ => rank_badParam_le y

end Sys2Proof
end

section
/-!
PROOFS. The commands of the SYS block (15_porter_management.md R468, R476 to R484; 12_command_packets.md R391, R392): what each body
answers where its checks pass; obligations O17 to O19.
-/

namespace Sys2Proof

set_option Elab.async false

open Sys2Proof.Machine Sys2Proof.Machine.Reg Sys2Proof.Machine.Bits

/-- Settles O17: PING, IDENTIFY and SENSOR_READ have no checks, and LOG_READ of this hub passes its own. -/
theorem statusCommandsComplete : Obligations.StatusCommandsComplete := by
  refine ⟨?ping, ?identify, ?sensorRead, ?logRead⟩
  case ping => exact completes_of (fun _ _ _ => rfl) (fun _ _ _ _ => rfl) (by decide) (by decide)
  case identify => exact completes_of (fun _ _ _ => rfl) (fun _ _ _ _ => rfl) (by decide) (by decide)
  case sensorRead => exact completes_of (fun _ _ _ => rfl) (fun _ _ _ _ => rfl) (by decide) (by decide)
  case logRead =>
    refine completes_of (fun _ _ _ => rfl) (fun c ps x ⟨ha, hz, h1, h63, hz'⟩ => ?_) (by decide) (by decide)
    have own : (num ps 0 2 == 0xFFFF || x.address == some (num ps 0 2)) = true := by
      rcases ha with ha | ⟨_, ha⟩ <;> simp [ha]
    have named : (num ps 0 2 == 0xFFFF || decide (num ps 0 2 < 2048)) = true := by
      rcases ha with ha | ⟨ha, _⟩ <;> simp [ha]
    unfold bodyLogRead
    simp only [own, named]
    exact checked_none (by simp [firstFail_need, firstFail_nil, h1, h63, hz, hz'])

theorem slot_onSlot_self (n : Nvm) (k : Nat) (f : SlotMark → SlotMark) : (n.onSlot k f).slot k = f (n.slot k) := by
  unfold Nvm.onSlot Nvm.slot
  split <;> rfl

/-- Settles O18: each body passes its checks, and marking a slot leaves the version it is told with. -/
theorem updateCommandsComplete : Obligations.UpdateCommandsComplete := by
  refine ⟨?begin_, fun e => ?data, fun e => ?commit, ?activate, ?softReset⟩
  case begin_ =>
    refine completes_of (fun _ _ _ => rfl) (fun c ps x ⟨hk, h1, h2, hz, hn⟩ => ?_) (by decide) (by decide)
    unfold bodyUpdateBegin
    dsimp only
    rw [checked_none (by simp [firstFail_need, firstFail_nil, *])]
    simp only [State.onSys_nvm, State.onNvm_nvm, slot_onSlot_self]
    rfl
  case data =>
    refine completes_of (fun _ _ _ => rfl) (fun c ps x ⟨he, ho, hl, h4⟩ => ?_) (by decide) (by decide)
    unfold bodyUpdateData
    simp only [he]
    rw [checked_none (by simp [firstFail_need, firstFail_nil, ← ho, hl, h4, -List.length_drop]), ho]
  case commit =>
    refine completes_long (fun _ _ _ => rfl) (fun c ps x ⟨he, hl⟩ => ?_)
    unfold bodyUpdateCommit
    simp only [he]
    exact if_pos hl
  case activate =>
    refine completes_of (fun _ _ _ => rfl) (fun c ps x ⟨hk, hz, hv, hc⟩ => ?_) (by decide) (by decide)
    unfold bodyUpdateActivate
    dsimp only
    rw [checked_none (by simp [firstFail_need, firstFail_nil, *])]
    split
    · rfl
    · simp only [State.onNvm_nvm, slot_onSlot_self]
      rfl
  case softReset =>
    refine completes_of (fun _ _ _ => rfl) (fun c ps x hc => ?_) (by decide) (by decide)
    unfold bodySoftReset State.resetAfter
    rw [if_pos hc]
    rfl

end Sys2Proof
end

section
/-!
PROOFS. Power states, the events that reset the hub, and Porter's own timed work (01_architecture.md R20, R31 to R33;
15_porter_management.md R461, R470 to R477, R480, R483; 18_electrical_and_package.md R521 to R525): what each function does where its
event is due; obligations O19, O20 and O23.
-/

namespace Sys2Proof

set_option Elab.async false

open Sys2Proof.Machine Sys2Proof.Machine.Reg Sys2Proof.Machine.Bits

theorem bit_zero_of_lt_two {n : Nat} (h : n < 2) : bit n 0 = (n == 1) := by
  match n, h with
  | 0, _ => rfl
  | 1, _ => rfl

/-- A request for another state than the present one begins the transition (R31). -/
theorem bodySetPowerState_other {c : Caller} {ps : List Byte} {x : State} (hm : x.isMinimal = false) (hps : powerParamsOk ps = true)
    (hd : dormantBarred ps x = false) (hidle : x.on SYS_PWR_STATE SYS_PWR_STATE_IN_TRANSITION = false) (hcode : num ps 0 1 ≠ x.power) :
    bodySetPowerState c ps x = .quiet (((x.setFld SYS_PWR_STATE SYS_PWR_STATE_IN_TRANSITION 1).setFld SYS_PWR_STATE SYS_PWR_STATE_TARGET (num ps 0 1)).onSys
      fun y => { y with transition := some ⟨num ps 0 1, bit (num ps 1 1) 0, c⟩ }) := by
  have pass : firstFail [need (powerParamsOk ps) stBAD_PARAM, need (!dormantBarred ps x) stBAD_STATE,
      need (!x.on SYS_PWR_STATE SYS_PWR_STATE_IN_TRANSITION) stBUSY] = none := by
    rw [hps, hd, hidle]
    rfl
  unfold bodySetPowerState
  rw [if_neg (Bool.eq_false_iff.mp hm)]
  exact (checked_none pass).trans (if_neg hcode)

theorem dormantBarred_of_not {ps : List Byte} {x : State} (h : ¬ (num ps 0 1 = 1 ∧ (x.fld RED_CFG RED_CFG_ROLE = 1 ∨ x.isActive = true))) :
    dormantBarred ps x = false := by
  refine dormantBarred_of_no_head fun h1 => ?_
  have hno := fun hhead => h ⟨h1, hhead⟩
  exact ⟨fun hr => hno (Or.inl hr), by simpa using fun ha => hno (Or.inr ha)⟩

/-- Settles O19: the checks pass; of a flags byte below 2 PERSIST is the whole. -/
theorem powerCommandsComplete : Obligations.PowerCommandsComplete := by
  refine ⟨?mark, ?current, ?other, fun tr n => ?done⟩
  case mark =>
    refine completes_of (fun _ _ _ => rfl) (fun c ps x h => ?_) (by decide) (by decide)
    exact checked_none (by simp [firstFail_need, firstFail_nil, h])
  case current =>
    refine completes_of (fun _ _ _ => rfl) (fun c ps x ⟨hm, h1, h3, hflags, hzero, hdormant, hidle, hcode⟩ => ?_) (by decide) (by decide)
    rw [bodySetPowerState_current hm (powerParamsOk_of_fields h1 h3 hflags hzero) (dormantBarred_of_not hdormant) hidle hcode,
      bit_zero_of_lt_two hflags]
    simp only [beq_iff_eq]
    rfl
  case other =>
    refine completes_later (fun _ _ _ => rfl) (fun c ps x ⟨hm, h1, h3, hflags, hzero, hdormant, hidle, hcode⟩ => ?_) (by decide)
    rw [bodySetPowerState_other hm (powerParamsOk_of_fields h1 h3 hflags hzero) (dormantBarred_of_not hdormant) hidle hcode,
      bit_zero_of_lt_two hflags]
  case done =>
    refine occurs_of (fun _ _ => rfl) (fun x ⟨htr, hn⟩ => ?_)
    unfold State.transitionDone
    simp only [htr, hn]

/-- Settles O20: each event's own condition lets its hub reset through. -/
theorem resetEventsComplete : Obligations.ResetEventsComplete := by
  refine ⟨?powerOn, fun w => ?pulse, fun d => ?brownout, fun since => ?recovery, fun at_ cause => ?reply⟩
  case powerOn => exact occurs_of (fun _ _ => rfl) (fun _ _ => rfl)
  case pulse =>
    refine occurs_of (f := (State.resetPulse · w)) (fun _ _ => rfl) (fun x hw => ?_)
    unfold State.resetPulse
    rw [if_neg (Nat.not_lt.mpr hw)]
  case brownout =>
    refine occurs_of (f := (State.brownout · d)) (fun _ _ => rfl) (fun x ⟨hd, hlow⟩ => ?_)
    exact if_neg (not_or.mpr ⟨Nat.not_le.mpr hd, ne_true_of_eq_false hlow⟩)
  case recovery =>
    refine occurs_of (fun _ _ => rfl) (fun x ⟨hrose, hlate⟩ => ?_)
    unfold State.recoveryReset
    simp [hrose, hlate]
  case reply =>
    refine occurs_of (fun _ _ => rfl) (fun x ⟨harmed, hlate⟩ => ?_)
    unfold State.resetNow
    simp [harmed, hlate]

/-- Whether an image verifies rests on flash and NVM alone. -/
theorem imageFault_congr {s u : State} (hf : u.bufs.flash = s.bufs.flash) (hn : u.nvm = s.nvm) (k : Nat) (valid : Bool) :
    u.imageFault k valid = s.imageFault k valid := by
  unfold State.imageFault State.imageSound State.flash
  rw [hf, hn]

theorem imageFault_onSys (s : State) (f : Sys → Sys) (k : Nat) (valid : Bool) : (s.onSys f).imageFault k valid = s.imageFault k valid :=
  imageFault_congr rfl rfl k valid

/-- Settles O23: each function under its own conditions; what Porter's timed work reads is left alone by what it has written before. -/
theorem porterEventsComplete : Obligations.PorterEventsComplete := by
  refine ⟨?poll, ?refill, ?console, ?lock, fun a => ?nextAddr, fun c e rest => ?commit, ?store⟩
  case poll =>
    refine occurs_of (fun _ _ => rfl) (fun x ⟨hon, hload, hpoll, hdue⟩ => ?_)
    have late : (x.sys.sensorAt.any fun f => decide (x.now < f + fineMs 1000)) = false := by
      rcases hdue with h | ⟨f, h, hf⟩
      · rw [h]
        rfl
      · rw [h, Option.any_some]
        exact decide_eq_false (Nat.not_lt.mpr hf)
    unfold State.sensorPoll
    simp only [hon, hload, hpoll, late]
    rfl
  case refill =>
    refine occurs_of (fun _ _ => rfl) (fun x ⟨hsec, hdrop⟩ => ?_)
    have some_ : x.second - x.sys.bbLastSecond ≠ 0 := by omega
    unfold State.bbRefill
    simp only
    rw [if_neg some_, if_pos]
    exact hdrop
  case console =>
    refine occurs_of (f := (State.consoleQuery · 0x73#8)) (fun _ _ => rfl) (fun x h => ?_)
    exact if_pos (by simpa using h)
  case lock => exact occurs_of (fun _ _ => rfl) (fun _ _ => rfl)
  case nextAddr =>
    refine occurs_of (f := (State.writeNextAddr · a)) (fun _ _ => rfl) (fun x h => ?_)
    have failed : (x.setFld SYS_HUB_ADDR SYS_HUB_ADDR_NEXT_ADDR (a % 2048)).memFailed 3 = false := by
      unfold State.memFailed
      rw [State.fld_setFld_ne _ _ _ _ (by decide) (by decide) (by decide)]
      exact h
    unfold State.writeNextAddr
    simp only [failed, Bool.false_eq_true, if_false]
    rfl
  case commit =>
    refine occurs_of (fun _ _ => rfl) (fun x ⟨hc, hf⟩ => ?_)
    unfold State.commitDone
    simp only [hc, imageFault_onSys, hf]
    rfl
  case store =>
    refine occurs_of (fun _ _ => rfl) (fun x ⟨hp, hl, hm, hne⟩ => ?_)
    unfold State.storeConfig
    simp [hp, hl, hm, hne]

end Sys2Proof
end

section
/-!
PROOFS. Register access, the command block and the service SPI (12_command_packets.md R370 to R406, R544): an unused offset reads 0 and
takes no write, a packet that is not for this hub is relayed, and a frame that is whole is served; obligations O13 and O24 to O27.
-/

namespace Sys2Proof

set_option Elab.async false

open Sys2Proof.Machine Sys2Proof.Machine.Reg Sys2Proof.Machine.Bits

theorem readReg_none (s : State) (path : Path) {a : Nat} (h : findReg a = none) : s.readReg path a = (0#32, s) := by
  unfold State.readReg
  rw [h]

theorem writeReg_none (s : State) (path : Path) {a : Nat} (w : Word) (h : findReg a = none) : s.writeReg path a w = s := by
  unfold State.writeReg
  rw [h]

/-- A read of one word of an unused offset reads 0 and changes nothing (R13). -/
theorem readRegs_none (s : State) (path : Path) {a : Nat} (step : Nat) (h : findReg a = none) : s.readRegs path a 1 step = ([0#32], s) := by
  unfold State.readRegs
  simp only [List.range_one, List.foldl_cons, List.foldl_nil, Nat.mul_zero, Nat.add_zero, readReg_none _ _ h]
  rfl

/-- A write of one word to an unused offset changes nothing (R13). -/
theorem writeRegs_none (s : State) (path : Path) {a : Nat} {ws : List Word} (hw : ws.length = 1) (h : findReg a = none) :
    s.writeRegs path a ws = s := by
  obtain ⟨w, rfl⟩ := List.length_eq_one_iff.mp hw
  unfold State.writeRegs
  simp only [List.length_singleton, List.range_one, List.zip_cons_cons, List.zip_nil_left, List.foldl_cons, List.foldl_nil, Nat.mul_zero, Nat.add_zero,
    writeReg_none _ _ _ h]
  rfl

theorem rangeOk_false_of_beyond {a n : Nat} (h : 0x100000 < a + 4 * n) : rangeOk a n = false := by
  unfold rangeOk
  rw [decide_eq_false (Nat.not_le.mpr h), Bool.and_false]

theorem nvmRefuses_of_none (s : State) {a : Nat} (h : findReg a = none) : s.nvmRefuses a 1 = false := by
  unfold State.nvmRefuses
  simp [h]

/-- Settles O13: no register is found at the offset, so a read answers 0 and a write finds nothing to write; beyond the register space
the range is not one that an access may name. -/
theorem emptyOffsets : Obligations.EmptyOffsets := by
  refine ⟨?read, ?write, fun path a w => ?path, ?readBeyond, ?writeBeyond, ?read64Beyond, fun a n => ?spiRead, fun a ws => ?spiWrite⟩
  case read =>
    refine completes_of (fun _ _ _ => rfl) (fun c ps x ⟨hn, hr, hf⟩ => ?_) (by decide) (by decide)
    unfold bodyRegRead
    simp only [hn]
    rw [checked_none (by simp [firstFail_need, firstFail_nil, hr]), readRegs_none _ _ _ hf]
    rfl
  case write =>
    refine completes_of (fun _ _ _ => rfl) (fun c ps x ⟨hn, hr, hf, hl⟩ => ?_) (by decide) (by decide)
    unfold bodyRegWrite
    simp only [hn]
    rw [checked_none (by simp [firstFail_need, firstFail_nil, hr, nvmRefuses_of_none x hf]), writeRegs_none _ _ ?_ hf]
    · rfl
    · simp [wordsOf]
  case path =>
    refine occurs_of (f := fun s => s.registerWrite path a w) (fun _ _ => rfl) (fun x ⟨hf, hn⟩ => ?_)
    unfold State.registerWrite
    rw [writeReg_none _ _ _ hf, ite_self]
  case readBeyond =>
    refine completes_of (fun _ _ _ => rfl) (fun c ps x h => ?_) (by decide) (by decide)
    exact checked_badParam (by rw [rangeOk_false_of_beyond h, Bool.and_false]) _ _ _
  case writeBeyond =>
    refine completes_of (fun _ _ _ => rfl) (fun c ps x h => ?_) (by decide) (by decide)
    exact checked_badParam (by rw [rangeOk_false_of_beyond h, Bool.and_false]) _ _ _
  case read64Beyond =>
    refine completes_of (fun _ _ _ => rfl) (fun c ps x h => ?_) (by decide) (by decide)
    exact checked_badParam (by rw [rangeOk_false_of_beyond h, Bool.and_false]) _ _ _
  case spiRead =>
    refine occurs_of (f := fun s => s.spiRead a n) (fun _ _ => rfl) (fun x h => ?_)
    unfold State.spiRead
    rw [rangeOk_false_of_beyond h, Bool.and_false, Bool.false_and]
    rfl
  case spiWrite =>
    refine occurs_of (f := fun s => s.spiWrite a ws) (fun _ _ => rfl) (fun x h => ?_)
    unfold State.spiWrite
    simp only [rangeOk_false_of_beyond h, Bool.and_false, Bool.false_and]
    rfl

/-- Settles O27: the checks pass, and the access is the read or the write of its words. -/
theorem registerAccessCompletes : Obligations.RegisterAccessCompletes := by
  refine ⟨?read, ?read64, ?write, fun path a w => ?path, fun j => ?jtag⟩
  case read =>
    refine completes_of (fun _ _ _ => rfl) (fun c ps x ⟨h1, h2, hr⟩ => ?_) (by decide) (by decide)
    exact checked_none (by simp [firstFail_need, firstFail_nil, h1, h2, hr])
  case read64 =>
    refine completes_of (fun _ _ _ => rfl) (fun c ps x ⟨h8, hr⟩ => ?_) (by decide) (by decide)
    exact checked_none (by simp [firstFail_need, firstFail_nil, h8, hr])
  case write =>
    refine completes_of (fun _ _ _ => rfl) (fun c ps x ⟨h1, h2, hr, hn⟩ => ?_) (by decide) (by decide)
    exact checked_none (by simp [firstFail_need, firstFail_nil, h1, h2, hr, hn])
  case path =>
    refine occurs_of (f := fun s => s.registerWrite path a w) (fun _ _ => rfl) (fun x ⟨hr, hn⟩ => ?_)
    exact if_pos (by rw [hr, hn]; rfl)
  case jtag => exact occurs_of (f := fun x => x.onSys fun y => { y with jtag := some j }) (fun _ _ => rfl) (fun _ _ => rfl)

/-- Settles O24: what ABORT finds among the long operations decides it, and the credentials' parameters pass. -/
theorem commandBlockCommandsComplete : Obligations.CommandBlockCommandsComplete := by
  refine ⟨fun o => ?abort, fun o => ?abortScan, fun key => ?install, fun old => ?revoke, ?status⟩
  case abort =>
    refine completes_of (fun _ _ _ => rfl) (fun c ps x ⟨ho, hc, hop⟩ => ?_) (by decide) (by decide)
    unfold bodyAbort
    simp only [ho, hc, if_neg hop, Bool.false_eq_true, if_false]
  case abortScan =>
    refine completes_of (fun _ _ _ => rfl) (fun c ps x ⟨ho, hc, hop⟩ => ?_) (by decide) (by decide)
    unfold bodyAbort
    simp only [ho, hc, if_pos hop, Bool.false_eq_true, if_false]
  case install =>
    refine completes_of (fun _ _ _ => rfl) (fun c ps x ⟨h1, h15, hperms, hz, hz', hkey⟩ => ?_) (by decide) (by decide)
    unfold bodyCredInstall
    simp only [h1, h15, hperms, hz, hz', and_self, if_true, hkey]
    rfl
  case revoke =>
    refine completes_of (fun _ _ _ => rfl) (fun c ps x ⟨h1, h15, hz, ho⟩ => ?_) (by decide) (by decide)
    unfold bodyCredRevoke
    simp only [ho]
    exact checked_none (by simp [firstFail_need, firstFail_nil, h1, h15, hz])
  case status => exact completes_of (fun _ _ _ => rfl) (fun _ _ _ _ => rfl) (by decide) (by decide)

/-- A unicast packet of no hub that is not for this hub is relayed, after the part a relaying hub takes in it where it is passed on. -/
theorem receive_elsewhere {x : State} (b : Body) {op : Nat} {p : Packet} (h : x.booted = true) (hm : x.malformed p = false)
    (hs : flagScoped p = false) (ho : flagOrigin p = false) (hq : x.forSpiHost p = false) (hh : x.forHere p = false) :
    x.receive b op p = (if x.relays p then x.relayAct b op p else x).relay op p := by
  unfold State.receive
  simp [h, hm, hs, ho, hq, hh]

theorem relays_false_of_ttl {x : State} {p : Packet} (h : p.ttl ≤ 1) : x.relays p = false := by
  unfold State.relays
  rw [decide_eq_false (by omega), Bool.false_and]

/-- A packet with REPLY that has not come by UPLINK is passed on by a hub that is not an ACTIVE head. -/
theorem relay_reply {x : State} (op : Nat) {p : Packet} (hr : flagReply p = true) (ht : 1 < p.ttl) (ha : x.isActive = false)
    (hu : p.arrival < 8 → x.role p.arrival ≠ rUplink) : x.relay op p = x.forward op { p with ttl := p.ttl - 1 } p.arrival := by
  have inward : (decide (p.arrival < 8) && x.role p.arrival == rUplink) = false := by
    simpa using hu
  unfold State.relay
  simp only [inward, ha, hr, Nat.not_le.mpr ht, Bool.false_and, Bool.false_eq_true, if_false]

/-- Settles O25: by where the judging sends the packet, and by the filters of the caches. -/
theorem commandBlockEventsComplete : Obligations.CommandBlockEventsComplete := by
  refine ⟨fun op p => ?relayed, fun op p => ?ttl, fun op p => ?reply, fun op p cr => ?handed, fun op p e => ?timeout, ?seen, ?replies⟩
  case relayed =>
    refine commandOccurs_of (b := bodyOf op) (fun _ _ => rfl) (fun x ⟨h, hm, hs, ho, hq, hh, hr⟩ => ?_)
    rw [receive_elsewhere _ h hm hs ho hq hh, if_pos hr]
  case ttl =>
    refine commandOccurs_of (b := bodyOf op) (fun _ _ => rfl) (fun x ⟨h, hm, hs, ho, hq, hh, ht⟩ => ?_)
    rw [receive_elsewhere _ h hm hs ho hq hh, relays_false_of_ttl ht]
    unfold State.relay
    simp only [ht, Bool.false_eq_true, if_false, if_true]
  case reply =>
    refine commandOccurs_of (b := bodyOf op) (fun _ _ => rfl) (fun x ⟨h, hm, hs, ho, hr, hq, hh, ht, ha, hu⟩ => ?_)
    have noPart : x.relayAct (bodyOf op) op p = x := by
      unfold State.relayAct
      rw [hr]
      rfl
    rw [receive_elsewhere _ h hm hs ho hq hh, noPart, ite_self, relay_reply op hr ht ha hu]
  case handed =>
    refine commandOccurs_of (b := bodyOf op) (fun _ _ => rfl) (fun x ⟨h, hm, hs, ho, hr, hq, hh, ha⟩ => ?_)
    rw [receive_unicast _ h hm hs ho hq hh]
    unfold State.judgeHere
    simp only [ha, hr, if_true]
  case timeout =>
    refine occurs_of (f := fun s => s.commandTimeout op p) (fun _ _ => rfl) (fun x h => ?_)
    unfold State.commandTimeout
    simp only [h]
  case seen => exact occurs_of (fun _ _ => rfl) (fun _ _ => rfl)
  case replies => exact occurs_of (fun _ _ => rfl) (fun _ _ => rfl)

/-- Settles O26: each frame passes what is asked of it. -/
theorem serviceSpiComplete : Obligations.ServiceSpiComplete := by
  refine ⟨?status, fun a n => ?read, fun a ws => ?write, fun bs => ?packet, fun i op p => ?fetch, fun code => ?ignored⟩
  case status => exact occurs_of (f := fun s => s.spiFrame (le 1 s.spiStatusByte)) (fun _ _ => rfl) (fun _ _ => rfl)
  case read =>
    refine occurs_of (f := fun s => s.spiRead a n) (fun _ _ => rfl) (fun x ⟨h1, h64, hr, hd⟩ => ?_)
    exact if_neg (by simp [h1, h64, hr, hd])
  case write =>
    refine occurs_of (f := fun s => s.spiWrite a ws) (fun _ _ => rfl) (fun x ⟨hb, hw, h1, h64, hr, hn⟩ => ?_)
    exact if_neg (by simp [hb, hw, h1, h64, hr, hn])
  case packet =>
    refine occurs_of (f := fun s => s.spiPacket bs (crc32c bs) true) (fun _ _ => rfl) (fun x ⟨hb, h48, h4144, hroom⟩ => ?_)
    exact if_neg (by simp [hb, h48, h4144, hroom])
  case fetch =>
    refine occurs_of (f := (State.spiFetch · true)) (fun _ _ => rfl) (fun x ⟨hb, hq⟩ => ?_)
    unfold State.spiFetch
    simp only [hb, hq, if_true]
  case ignored =>
    refine occurs_of (f := (State.spiIgnored · code)) (fun _ _ => rfl) (fun x h => ?_)
    exact if_neg (by simpa using h)

end Sys2Proof
end

section
/-!
PROOFS. Setting a field of a register changes the register file alone: what stands beside it is as it was.
-/

namespace Sys2Proof.Machine

set_option Elab.async false

section SetFld

variable (s : State) (a : Nat) (f : Fld) (v : Nat)

/-- What no register write changes, no field that is set changes. -/
theorem State.setFld_same {α : Type} {g : State → α} (h : ∀ s a w, g (State.wr s a w) = g s) : g (s.setFld a f v) = g s := by
  unfold State.setFld
  split
  · exact h _ _ _
  · exact (h _ _ _).trans (h _ _ _)

@[simp] theorem State.setFld_now : (s.setFld a f v).now = s.now := State.setFld_same (g := State.now) _ _ _ _ fun _ _ _ => rfl
@[simp] theorem State.setFld_pending : (s.setFld a f v).pending = s.pending := State.setFld_same (g := State.pending) _ _ _ _ fun _ _ _ => rfl
@[simp] theorem State.setFld_sys : (s.setFld a f v).sys = s.sys := State.setFld_same (g := State.sys) _ _ _ _ fun _ _ _ => rfl
@[simp] theorem State.setFld_nvm : (s.setFld a f v).nvm = s.nvm := State.setFld_same (g := State.nvm) _ _ _ _ fun _ _ _ => rfl
@[simp] theorem State.setFld_bufs : (s.setFld a f v).bufs = s.bufs := State.setFld_same (g := State.bufs) _ _ _ _ fun _ _ _ => rfl
@[simp] theorem State.setFld_qm : (s.setFld a f v).qm = s.qm := State.setFld_same (g := State.qm) _ _ _ _ fun _ _ _ => rfl
@[simp] theorem State.setFld_acq : (s.setFld a f v).acq = s.acq := State.setFld_same (g := State.acq) _ _ _ _ fun _ _ _ => rfl
@[simp] theorem State.setFld_tb : (s.setFld a f v).tb = s.tb := State.setFld_same (g := State.tb) _ _ _ _ fun _ _ _ => rfl
@[simp] theorem State.setFld_tiu : (s.setFld a f v).tiu = s.tiu := State.setFld_same (g := State.tiu) _ _ _ _ fun _ _ _ => rfl
@[simp] theorem State.setFld_cap : (s.setFld a f v).cap = s.cap := State.setFld_same (g := State.cap) _ _ _ _ fun _ _ _ => rfl
@[simp] theorem State.setFld_fblk : (s.setFld a f v).fblk = s.fblk := State.setFld_same (g := State.fblk) _ _ _ _ fun _ _ _ => rfl
@[simp] theorem State.setFld_cmp : (s.setFld a f v).cmp = s.cmp := State.setFld_same (g := State.cmp) _ _ _ _ fun _ _ _ => rfl
@[simp] theorem State.setFld_lnk : (s.setFld a f v).lnk = s.lnk := State.setFld_same (g := State.lnk) _ _ _ _ fun _ _ _ => rfl
@[simp] theorem State.setFld_cmd : (s.setFld a f v).cmd = s.cmd := State.setFld_same (g := State.cmd) _ _ _ _ fun _ _ _ => rfl
@[simp] theorem State.setFld_red : (s.setFld a f v).red = s.red := State.setFld_same (g := State.red) _ _ _ _ fun _ _ _ => rfl
@[simp] theorem State.setFld_mem : (s.setFld a f v).mem = s.mem := State.setFld_same (g := State.mem) _ _ _ _ fun _ _ _ => rfl
@[simp] theorem State.setFld_cal : (s.setFld a f v).cal = s.cal := State.setFld_same (g := State.cal) _ _ _ _ fun _ _ _ => rfl
@[simp] theorem State.setFld_pmcBlk : (s.setFld a f v).pmcBlk = s.pmcBlk := State.setFld_same (g := State.pmcBlk) _ _ _ _ fun _ _ _ => rfl
@[simp] theorem State.setFld_free : (s.setFld a f v).free = s.free := State.setFld_same (g := State.free) _ _ _ _ fun _ _ _ => rfl
@[simp] theorem State.setFld_fresh : (s.setFld a f v).fresh = s.fresh := State.setFld_same (g := State.fresh) _ _ _ _ fun _ _ _ => rfl

end SetFld

end Sys2Proof.Machine
end

section
/-!
PROOFS. The MEM and PMC blocks (14_memory_and_ecc.md R438, R451 to R454; 17_counters_and_test.md R507 to R515): the counts of one memory
outlast the clearing of another's, the words of PMC_CONFIG stand each four bytes on, and a write of PMC_TONE leaves alone what tells
whether a bay converts; obligations O28 and O29.
-/

namespace Sys2Proof

set_option Elab.async false

open Sys2Proof.Machine Sys2Proof.Machine.Reg Sys2Proof.Machine.Bits

/-- An RC count is taken from its register and from what the present clock has counted, and from nothing else. -/
theorem takeRc_fst_congr {s u : State} {a : Nat} {f : Fld} (hf : f.lo + f.width ≤ 32) (hr : u.rd a = s.rd a) (hfresh : u.fresh = s.fresh)
    (hnow : u.now = s.now) : (u.takeRc a f).1 = (s.takeRc a f).1 := by
  unfold State.takeRc State.freshCount State.clock
  rw [State.fld_eq _ _ _ hf, State.fld_eq _ _ _ hf, hr, hfresh, hnow]

theorem takeRc_rd_ne {s : State} {a b : Nat} {f : Fld} (hf : f.lo + f.width ≤ 32) (h : b ≠ a) : (s.takeRc a f).2.rd b = s.rd b :=
  State.rd_setFld_ne _ _ _ hf h

theorem takeRc_snd (s : State) (a : Nat) (f : Fld) : (s.takeRc a f).2 = s.setFld a f (min (s.freshCount a f) (s.fld a f)) := rfl

/-- A memory's error counts are taken (R453, R9). -/
def clearErrors (s : State) (m : Nat) : State := ((s.takeRc (MEM_ERR m) MEM_ERR_CORRECTED).2.takeRc (MEM_ERR m) MEM_ERR_UNCORR).2

/-- The two counts of a memory as they are taken. -/
def takenErrors (s : State) (m : Nat) : Nat :=
  (s.takeRc (MEM_ERR m) MEM_ERR_CORRECTED).1 * 65536 + ((s.takeRc (MEM_ERR m) MEM_ERR_CORRECTED).2.takeRc (MEM_ERR m) MEM_ERR_UNCORR).1

/-- The counts of a memory stand in `u` as in `s`. -/
def SameErrors (s u : State) (m : Nat) : Prop := u.rd (MEM_ERR m) = s.rd (MEM_ERR m) ∧ u.fresh = s.fresh ∧ u.now = s.now

theorem clearErrors_same {s u : State} {k m : Nat} (h : SameErrors s u m) (hk : MEM_ERR m ≠ MEM_ERR k) : SameErrors s (clearErrors u k) m := by
  obtain ⟨hr, hf, hn⟩ := h
  unfold clearErrors
  refine ⟨?_, ?_, ?_⟩
  · rw [takeRc_rd_ne (by decide) hk, takeRc_rd_ne (by decide) hk, hr]
  · rw [takeRc_snd, takeRc_snd, State.setFld_fresh, State.setFld_fresh, hf]
  · rw [takeRc_snd, takeRc_snd, State.setFld_now, State.setFld_now, hn]

theorem takenErrors_same {s u : State} {m : Nat} (h : SameErrors s u m) : takenErrors u m = takenErrors s m := by
  obtain ⟨hr, hf, hn⟩ := h
  have first : (u.takeRc (MEM_ERR m) MEM_ERR_CORRECTED).1 = (s.takeRc (MEM_ERR m) MEM_ERR_CORRECTED).1 := takeRc_fst_congr (by decide) hr hf hn
  have word : (u.takeRc (MEM_ERR m) MEM_ERR_CORRECTED).2.rd (MEM_ERR m) = (s.takeRc (MEM_ERR m) MEM_ERR_CORRECTED).2.rd (MEM_ERR m) := by
    rw [takeRc_snd, takeRc_snd, State.setFld_eq _ _ _ _ (by decide), State.setFld_eq _ _ _ _ (by decide), State.rd_wr_self, State.rd_wr_self]
    unfold State.freshCount State.clock
    rw [State.fld_eq _ _ _ (by decide), State.fld_eq _ _ _ (by decide), hr, hf, hn]
  have second := takeRc_fst_congr (f := MEM_ERR_UNCORR) (by decide) word
    (by rw [takeRc_snd, takeRc_snd, State.setFld_fresh, State.setFld_fresh, hf]) (by rw [takeRc_snd, takeRc_snd, State.setFld_now, State.setFld_now, hn])
  unfold takenErrors
  rw [first, second]

theorem memErr_ne {m k : Nat} (hm : m < 5) (hk : k < 5) (h : m ≠ k) : MEM_ERR m ≠ MEM_ERR k := by
  unfold MEM_ERR
  omega

/-- MEM_STATUS with CLEAR takes the counts of the memories in turn, each as it stood before the command. -/
theorem memStatus_taken (s : State) (g h : Nat → List Byte) : ∀ (l : List Nat) (d : List Byte) (u : State), l.Nodup → (∀ m ∈ l, m < 5) →
    (∀ m ∈ l, SameErrors s u m) →
    l.foldl (fun (a : List Byte × State) m => (a.1 ++ le 4 (takenErrors a.2 m) ++ g m ++ h m, clearErrors a.2 m)) (d, u) =
      (d ++ l.flatMap fun m => le 4 (takenErrors s m) ++ g m ++ h m, l.foldl clearErrors u)
  | [], d, u, _, _, _ => by simp
  | k :: l, d, u, hnodup, hlt, hsame => by
    obtain ⟨hk, hl⟩ := List.nodup_cons.mp hnodup
    have rest : ∀ m ∈ l, SameErrors s (clearErrors u k) m := by
      intro m hm
      refine clearErrors_same (hsame m (List.mem_cons_of_mem _ hm)) (memErr_ne (hlt m (List.mem_cons_of_mem _ hm)) (hlt k List.mem_cons_self) ?_)
      rintro rfl
      exact hk hm
    rw [List.foldl_cons, memStatus_taken s g h l _ _ hl (fun m hm => hlt m (List.mem_cons_of_mem _ hm)) rest,
      takenErrors_same (hsame k List.mem_cons_self)]
    simp [List.append_assoc]

/-- MEM_STATUS without CLEAR reads the memories in turn and changes nothing. -/
theorem memStatus_read (s : State) (e g h : Nat → List Byte) : ∀ (l : List Nat) (d : List Byte),
    l.foldl (fun (a : List Byte × State) m => (a.1 ++ e m ++ g m ++ h m, a.2)) (d, s) = (d ++ l.flatMap fun m => e m ++ g m ++ h m, s)
  | [], d => by simp
  | k :: l, d => by
    rw [List.foldl_cons, memStatus_read s e g h l]
    simp [List.append_assoc]

/-- Settles O28: the checks pass, and what SCRUB and MEM_STATUS read is not what they have written before. -/
theorem memoryCommandsComplete : Obligations.MemoryCommandsComplete := by
  refine ⟨?scrub, ?status, ?inject, fun mr4 => ?temp, fun k => ?scrubDone⟩
  case scrub =>
    refine completes_long (fun _ _ _ => rfl) (fun c ps x ⟨hp, hm, hmode, hz, hnvm, hstart, hstop, hrate, hmin, hidle⟩ => ?_)
    have stops : (if num ps 12 8 = 0 then x.memSize (num ps 0 1) else num ps 4 8 + num ps 12 8) ≤ x.memSize (num ps 0 1) := by
      split
      · exact Nat.le_refl _
      · exact hstop
    have rates : (num ps 0 1 != 0 || decide ((if num ps 20 4 = 0 then 1000 else num ps 20 4) ≤ 8000)) = true := by
      by_cases h0 : num ps 0 1 = 0
      · have := hrate h0
        rw [Bool.or_eq_true, decide_eq_true_eq]
        right
        split <;> omega
      · simp [h0]
    have mode : (!(num ps 1 1 == 1 && num ps 0 1 == 3)) = true := by
      grind
    have usable : (!(x.isMinimal && num ps 0 1 == 0 && x.memFailed 0)) = true := by
      grind
    unfold bodyScrub
    dsimp only
    rw [checked_none (by
      simp only [firstFail_need, firstFail_nil, bne_iff_ne, ne_eq, hp, not_false_eq_true, hm, hmode, hz, mode, hstart, stops, rates, usable, hidle,
        decide_true, Bool.and_self, Option.isNone_none])]
    simp only [State.setFld_now]
  case status =>
    refine completes_of (fun _ _ _ => rfl) (fun c ps x h => ?_) (by decide) (by decide)
    unfold bodyMemStatus
    dsimp only
    rw [checked_none (by simp [firstFail_need, firstFail_nil, h])]
    cases hc : bit (num ps 0 1) 0
    · simp only [Bool.false_eq_true, if_false]
      rw [memStatus_read]
      rfl
    · simp only [if_true]
      have taken := memStatus_taken x (fun m => le 4 (x.rd (MEM_ERR_INFO m)).toNat) (fun m => le 8 (x.rd64 (MEM_ERR_ADDR m))) (List.range 5) [] x
        (by decide) (by decide) fun _ _ => ⟨rfl, rfl, rfl⟩
      unfold takenErrors clearErrors at taken
      rw [taken]
      show Res.reply _ _ (_ ++ (_ ++ _)) = _
      rw [List.nil_append]
  case inject =>
    refine completes_of (fun _ _ _ => rfl) (fun c ps x ⟨hm, hm3, hk, hz, h2, hoff, hread⟩ => ?_) (by decide) (by decide)
    have kind : (!(num ps 0 1 == 2 && num ps 1 1 != 0)) = true := by
      grind
    unfold bodyMemInject
    dsimp only
    rw [checked_none (by simp [firstFail_need, firstFail_nil, hm, hm3, hk, hz, kind, hoff]), hread]
    rfl
  case temp =>
    refine occurs_of (f := (State.dramTemp · mr4)) (fun _ _ => rfl) (fun x ⟨hp, hw⟩ => ?_)
    exact if_neg (by simp [hp, hw])
  case scrubDone =>
    refine occurs_of (fun _ _ => rfl) (fun x ⟨hk, hp, hr⟩ => ?_)
    unfold State.scrubDone
    simp only [hk]
    exact if_neg (by simp only [hp, false_or]; exact hr)

theorem ofLe_wordsOf_getD (bs : List Byte) : ∀ n i, i < n → (wordsOf bs n).getD i 0 = num bs (4 * i) 4
  | 0, _, h => absurd h (Nat.not_lt_zero _)
  | n + 1, 0, _ => rfl
  | n + 1, i + 1, h => by
    have ih := ofLe_wordsOf_getD (bs.drop 4) n i (by omega)
    show (wordsOf (bs.drop 4) n).getD i 0 = _
    rw [ih]
    unfold num bytesAt
    rw [List.drop_drop, show 4 + 4 * i = 4 * (i + 1) by omega]

/-- Word `i` of a list of words that begins at an offset. -/
theorem wordsOf_drop_getD (bs : List Byte) (off : Nat) {n i : Nat} (h : i < n) : (wordsOf (bs.drop off) n).getD i 0 = num bs (off + 4 * i) 4 := by
  rw [ofLe_wordsOf_getD _ _ _ h]
  unfold num bytesAt
  rw [List.drop_drop]

/-- A write of PMC_TONE leaves alone what tells whether a bay's converter runs. -/
theorem bayRuns_setTone (x : State) (b k : Nat) (f : Fld) (v : Nat) (hf : f.lo + f.width ≤ 32) : (x.setFld (PMC_TONE b) f v).bayRuns k = x.bayRuns k := by
  have power : (x.setFld (PMC_TONE b) f v).fld SYS_PWR_STATE SYS_PWR_STATE_CURRENT = x.fld SYS_PWR_STATE SYS_PWR_STATE_CURRENT :=
    State.fld_setFld_ne _ _ _ _ hf (by decide) (by unfold PMC_TONE SYS_PWR_STATE; omega)
  have mode : (x.setFld (PMC_TONE b) f v).fld (CONV_BAY_MODE k) CONV_BAY_MODE_BMODE = x.fld (CONV_BAY_MODE k) CONV_BAY_MODE_BMODE :=
    State.fld_setFld_ne _ _ _ _ hf (by decide) (by unfold PMC_TONE CONV_BAY_MODE; omega)
  unfold State.bayRuns State.power State.bmode
  rw [State.setFld_sys, power, mode]

/-- Two walks along a list that agree at each of its elements end alike. -/
theorem foldl_agree {α β : Type} {f g : β → α → β} {l : List α} (h : ∀ b, ∀ a ∈ l, f b a = g b a) (b : β) : l.foldl f b = l.foldl g b := by
  induction l generalizing b with
  | nil => rfl
  | cons a l ih =>
    rw [List.foldl_cons, List.foldl_cons, h b a List.mem_cons_self]
    exact ih (fun b x hx => h b x (List.mem_cons_of_mem _ hx)) _

/-- Settles O29: the words of PMC_CONFIG are those four bytes apart; each event's conditions choose its branch. -/
theorem counterCommandsComplete : Obligations.CounterCommandsComplete := by
  refine ⟨?config, ?read, ?dumpConfig, ?dump, ?dumpFull, ?clear, fun b w => ?toneIgnored, fun b w => ?toneStart, fun b w => ?toneOff⟩
  case config =>
    refine completes_of (fun _ _ _ => rfl) (fun c ps x ⟨hf, hz, hee, hcfg⟩ => ?_) (by decide) (by decide)
    have word_ : ∀ i ∈ (List.range 8).filter fun i => bit (num ps 0 1) i, (wordsOf (ps.drop 4) 8).getD i 0 = num ps (4 + 4 * i) 4 :=
      fun i hi => wordsOf_drop_getD ps 4 (List.mem_range.mp (List.mem_filter.mp hi).1)
    have named : (((List.range 8).filter fun i => bit (num ps 0 1) i).all fun i => pmcCfgOk (word ((wordsOf (ps.drop 4) 8).getD i 0))
        && bits ((wordsOf (ps.drop 4) 8).getD i 0) 23 7 == 0 && bits ((wordsOf (ps.drop 4) 8).getD i 0) 12 4 == 0) = true := by
      refine List.all_eq_true.mpr fun i hi => ?_
      obtain ⟨hlt, hbit⟩ := List.mem_filter.mp hi
      obtain ⟨h1, h2, h3⟩ := hcfg i (List.mem_range.mp hlt) hbit
      rw [word_ i hi, h1, h2, h3]
      rfl
    have flags : (decide (num ps 1 1 < 8) && zeroAt ps 2 2 && !(bit (num ps 1 1) 1 && bit (num ps 1 1) 2)) = true := by
      grind
    unfold bodyPmcConfig
    dsimp only
    rw [checked_none (by rw [firstFail_need flags, firstFail_need named, firstFail_nil])]
    have written : ∀ y : State, ((List.range 8).filter fun i => bit (num ps 0 1) i).foldl
        (fun s i => s.wr (PMC_CFG i) (word ((wordsOf (ps.drop 4) 8).getD i 0))) y = ((List.range 8).filter fun i => bit (num ps 0 1) i).foldl
        (fun s i => s.wr (PMC_CFG i) (word (num ps (4 + 4 * i) 4))) y :=
      foldl_agree fun s i hi => by rw [word_ i hi]
    simp only [written]
    rfl
  case read =>
    refine completes_of (fun _ _ _ => rfl) (fun c ps x h => ?_) (by decide) (by decide)
    exact checked_none (by simp [firstFail_need, firstFail_nil, h])
  case dumpConfig =>
    refine completes_of (fun _ _ _ => rfl) (fun c ps x ⟨h, hz⟩ => ?_) (by decide) (by decide)
    exact checked_none (by simp [firstFail_need, firstFail_nil, h, hz])
  case dump =>
    refine occurs_of (fun _ _ => rfl) (fun x ⟨hon, hclk, hdue, ha, hfull⟩ => ?_)
    have none_ : x.address.isNone = false := by simpa [Option.isSome_iff_ne_none] using ha
    unfold State.pmcDump
    rw [if_neg (by simp [hon, hclk, hdue]), none_, hfull]
    rfl
  case dumpFull =>
    refine occurs_of (fun _ _ => rfl) (fun x ⟨hon, hclk, hdue, ha, hfull⟩ => ?_)
    have none_ : x.address.isNone = false := by simpa [Option.isSome_iff_ne_none] using ha
    unfold State.pmcDump
    rw [if_neg (by simp [hon, hclk, hdue]), none_, hfull]
    rfl
  case clear => exact occurs_of (fun _ _ => rfl) (fun _ _ => rfl)
  case toneIgnored =>
    refine occurs_of (f := (State.toneWrite · b w)) (fun _ _ => rfl) (fun x ⟨hen, hfit⟩ => ?_)
    have unfit : (x.fld (AFE_BAY_EXC b) AFE_BAY_EXC_EMODE == 1 && (x.sampled b).all fun c => x.chMode c == 2 || x.chMode c == 3) = false := by
      rcases hfit with h | ⟨c, hc, h2, h3⟩
      · simp [h]
      · rw [Bool.and_eq_false_iff]
        right
        exact List.all_eq_false.mpr ⟨c, hc, by simp [h2, h3]⟩
    exact if_pos (by rw [unfit, hen]; rfl)
  case toneStart =>
    refine occurs_of (f := (State.toneWrite · b w)) (fun _ _ => rfl) (fun x ⟨hen, hsine, hall, hoff, hruns⟩ => ?_)
    have fit : (x.fld (AFE_BAY_EXC b) AFE_BAY_EXC_EMODE == 1 && (x.sampled b).all fun c => x.chMode c == 2 || x.chMode c == 3) = true := by
      rw [hsine, Bool.and_eq_true]
      exact ⟨rfl, List.all_eq_true.mpr fun c hc => by simpa using hall c hc⟩
    have on_ : (wfld w PMC_TONE_EN == 1) = true := by
      rw [hen]
      rfl
    unfold State.toneWrite
    simp only [fit, hoff, on_, bayRuns_setTone _ _ _ _ _ (show PMC_TONE_LEVEL.lo + PMC_TONE_LEVEL.width ≤ 32 by decide),
      bayRuns_setTone _ _ _ _ _ (show PMC_TONE_EN.lo + PMC_TONE_EN.width ≤ 32 by decide), hruns, Bool.not_true, Bool.and_false, Bool.or_false,
      Bool.false_eq_true, if_false, show (true == false) = false from rfl, show b2n true = 1 from rfl]
  case toneOff =>
    refine occurs_of (f := (State.toneWrite · b w)) (fun _ _ => rfl) (fun x ⟨hen, hoff⟩ => ?_)
    have off : (wfld w PMC_TONE_EN == 1) = false := by
      rw [hen]
      rfl
    unfold State.toneWrite
    simp only [hoff, off, Bool.false_and, Bool.false_eq_true, if_false, beq_self_eq_true, Bool.true_or, if_true, show b2n false = 0 from rfl]

end Sys2Proof
end

section
/-!
PROOFS. The CAL block (16_calibration.md R489 to R503): its commands pass their checks, and its events take the branch of the group's item;
obligations O30 and O31.
-/

namespace Sys2Proof

set_option Elab.async false

open Sys2Proof.Machine Sys2Proof.Machine.Reg Sys2Proof.Machine.Bits

/-- Settles O30: the checks pass. -/
theorem calibrationCommandsComplete : Obligations.CalibrationCommandsComplete := by
  refine ⟨?run, ?status, ?coeff, ?policy⟩
  case run =>
    refine completes_long (fun _ _ _ => rfl) (fun c ps x ⟨hi, h1, hc, hf, h0, h3, hr⟩ => ?_)
    have idle : (num ps 0 1 != 0 || allIn (num ps 1 1) (num ps 2 1) fun k => allIn 0 16 fun i => x.bmode (dieBay k i) == 0) = true := by
      by_cases h : num ps 0 1 = 0
      · rw [h0 h, Bool.or_true]
      · simp [h]
    have test : (num ps 0 1 != 3 || allIn (num ps 1 1) (num ps 2 1) fun p => x.on (LNK_PORT_CFG p) LNK_PORT_CFG_TEST) = true := by
      by_cases h : num ps 0 1 = 3
      · rw [h3 h, Bool.or_true]
      · simp [h]
    have named : (decide (num ps 0 1 < 6) && decide (1 ≤ num ps 2 1) && decide (num ps 1 1 + num ps 2 1 ≤ calCount (num ps 0 1))
        && decide (num ps 3 1 < 2)) = true := by
      simp [hi, h1, hc, hf]
    exact checked_none (by rw [firstFail_need named, firstFail_need idle, firstFail_need test, firstFail_need (by rw [hr]; rfl), firstFail_nil])
  case status => exact completes_of (fun _ _ _ => rfl) (fun _ _ _ _ => rfl) (by decide) (by decide)
  case coeff =>
    refine completes_of (fun _ _ _ => rfl) (fun c ps x ⟨hi, hn, hz, h1, h4000, hl⟩ => ?_) (by decide) (by decide)
    exact checked_none (by rw [firstFail_need (by simp [hi, hn, hz, h1, h4000, hl]), firstFail_nil])
  case policy =>
    refine completes_of (fun _ _ _ => rfl) (fun c ps x ⟨h24, h0, h16⟩ => ?_) (by decide) (by decide)
    exact checked_none (by rw [firstFail_need (by simp [h24, h0, h16]), firstFail_nil])

/-- A group that is ready, and the lowest of its item that is, starts. -/
theorem calStart_ready {x : State} {g : Nat} (hr : x.calReady g = true)
    (hq : (x.cal.queued.any fun h => decide (h < g) && (calItem h).1 == (calItem g).1 && x.calReady h) = false) :
    x.calStart g = match (calItem g).1 with
      | 1 =>
        let k := (calItem g).2
        let s := (List.range 16).foldl (fun s i =>
          if s.bayIdle (dieBay k i) then s.setFld (CONV_BAY_STAT (dieBay k i)) CONV_BAY_STAT_CAL_BUSY 1 else s) (x.calBegin g)
        (s.onTakeover k fun _ => { left := List.range 17 }).nextTakeover k
      | 2 => (x.calBegin g).coreOut (calItem g).2
      | 5 =>
        let y := x.calBegin g
        (y.onTransom fun m => { m with calibrating := true, since := y.now, lastCal := some (y.now, y.calTemp 28) }).showTransom
      | _ => x.calBegin g := by
  unfold State.calStart
  exact if_neg (by rw [hr, hq]; decide)

/-- The run of a group that is running, and is no core's, ends; a CONV run does so once its rotation is over. -/
theorem calDone_running {x : State} {g q : Nat} {vs : List CalValue} (hr : (x.cal.running.any fun r => r.g == g) = true) (h2 : (calItem g).1 ≠ 2)
    (h1 : (calItem g).1 = 1 →
      (x.takeover (calItem g).2).left = [] ∧ (x.takeover (calItem g).2).bay = none ∧ (x.takeover (calItem g).2).reliefDue = false) :
    x.calDone g vs q = (if (calItem g).1 = 1 then x
      else (vs.filter fun v => (calItem g).1 != 4 || x.excTakes (calItem g).2 v).foldl (fun s v => s.calValue g v) x).calFinish g q := by
  unfold State.calDone
  refine if_neg ?_
  by_cases h : (calItem g).1 = 1
  · obtain ⟨hl, hb, hd⟩ := h1 h
    simp [hr, h, hl, hb, hd]
  · simp [hr, h, h2]

/-- Settles O31: what is due or ready takes its branch. -/
theorem calibrationEventsComplete : Obligations.CalibrationEventsComplete := by
  refine ⟨fun g => ?period, fun g => ?start, fun g => ?startConv, fun g => ?startVern, fun g => ?startTran, fun g vs q => ?done,
    fun g vs q => ?doneExc, fun g vs q => ?doneConv, fun g => ?retry, fun v vs q r => ?vernier⟩
  case period =>
    refine occurs_of (f := (State.calPeriodDue · g)) (fun _ _ => rfl) (fun x ⟨hl, hp, hn, hdue⟩ => ?_)
    exact if_neg (by simp [hl, hp, hn, hdue])
  case start =>
    refine occurs_of (f := (State.calStart · g)) (fun _ _ => rfl) (fun x ⟨hr, hq, h1, h2, h5⟩ => ?_)
    rw [calStart_ready hr hq]
    split
    · exact absurd ‹_› h1
    · exact absurd ‹_› h2
    · exact absurd ‹_› h5
    · rfl
  case startConv =>
    refine occurs_of (f := (State.calStart · g)) (fun _ _ => rfl) (fun x ⟨hr, hq, h⟩ => ?_)
    rw [calStart_ready hr hq]
    simp only [h]
  case startVern =>
    refine occurs_of (f := (State.calStart · g)) (fun _ _ => rfl) (fun x ⟨hr, hq, h⟩ => ?_)
    rw [calStart_ready hr hq]
    simp only [h]
  case startTran =>
    refine occurs_of (f := (State.calStart · g)) (fun _ _ => rfl) (fun x ⟨hr, hq, h⟩ => ?_)
    rw [calStart_ready hr hq]
    simp only [h]
  case done =>
    refine occurs_of (f := fun s => s.calDone g vs q) (fun _ _ => rfl) (fun x ⟨hr, h1, h2, h4⟩ => ?_)
    have all : (vs.filter fun v => (calItem g).1 != 4 || x.excTakes (calItem g).2 v) = vs := by
      simp [h4]
    rw [calDone_running hr h2 fun h => absurd h h1, if_neg h1, all]
  case doneExc =>
    refine occurs_of (f := fun s => s.calDone g vs q) (fun _ _ => rfl) (fun x ⟨hr, h⟩ => ?_)
    have taken : (vs.filter fun v => (calItem g).1 != 4 || x.excTakes (calItem g).2 v) = vs.filter fun v => x.excTakes (calItem g).2 v := by
      simp [h]
    rw [calDone_running hr (by omega) fun h1 => absurd (h1.symm.trans h) (by decide), if_neg (by omega), taken]
  case doneConv =>
    refine occurs_of (f := fun s => s.calDone g vs q) (fun _ _ => rfl) (fun x ⟨hr, h, hrest⟩ => ?_)
    rw [calDone_running hr (by omega) fun _ => hrest, if_pos h]
  case retry =>
    refine occurs_of (f := (State.calRetry · g)) (fun _ _ => rfl) (fun x ⟨hset, hdue⟩ => ?_)
    exact if_neg (by simp [hset, hdue])
  case vernier =>
    refine occurs_of (f := fun s => s.vernierDone v vs q) (fun _ _ => rfl) (fun x hr => ?_)
    unfold State.vernierDone
    simp only [hr]

end Sys2Proof
end

section
/-!
PROOFS. The AFE block (02_front_end.md R47 to R79): CLAMP_STATUS with CLEAR reads each channel as it stood before the command, and the
events take their branch; obligations O32 and O33.
-/

namespace Sys2Proof

set_option Elab.async false

open Sys2Proof.Machine Sys2Proof.Machine.Reg Sys2Proof.Machine.Bits

/-- Checks none of which fails leave those that follow to tell. -/
theorem firstFail_append {l : List (Option Nat)} (h : ∀ o ∈ l, o = none) (r : List (Option Nat)) : firstFail (l ++ r) = firstFail r := by
  induction l with
  | nil => rfl
  | cons o l ih =>
    rw [h o List.mem_cons_self, List.cons_append, firstFail_none_cons]
    exact ih fun o ho => h o (List.mem_cons_of_mem _ ho)

/-- A set bit taken out of a number leaves the others. -/
theorem bit_sub_two_pow_ne {v i j : Nat} (h : bit v i = true) (hij : i ≠ j) : bit (v - 2 ^ i) j = bit v j := by
  have odd : v / 2 ^ i % 2 = 1 := by simpa [bit] using h
  have less (k n : Nat) : (v - 2 ^ k * n) / 2 ^ k = v / 2 ^ k - n := Nat.sub_mul_div v (2 ^ k) n
  unfold bit
  rcases Nat.lt_or_gt_of_ne hij with hlt | hgt
  · obtain ⟨k, rfl⟩ := Nat.exists_eq_add_of_lt hlt
    have half : (v - 2 ^ i) / 2 ^ i / 2 = v / 2 ^ i / 2 := by
      have := less i 1
      rw [Nat.mul_one] at this
      rw [this]
      generalize v / 2 ^ i = q at odd ⊢
      omega
    rw [show i + k + 1 = i + 1 + k by omega, Nat.pow_add, Nat.pow_succ, ← Nat.div_div_eq_div_mul, ← Nat.div_div_eq_div_mul, half,
      ← Nat.div_div_eq_div_mul, ← Nat.div_div_eq_div_mul]
  · obtain ⟨k, rfl⟩ := Nat.exists_eq_add_of_lt hgt
    have large : 2 ^ (k + 1) ≤ v / 2 ^ j := by
      refine (Nat.le_div_iff_mul_le (Nat.two_pow_pos j)).mpr ?_
      rw [← Nat.pow_add, show k + 1 + j = j + k + 1 by omega]
      exact Nat.le_of_not_lt fun hlt => by simp [Nat.div_eq_of_lt hlt] at odd
    rw [show j + k + 1 = j + (k + 1) by omega, Nat.pow_add, less]
    rw [Nat.pow_succ] at large ⊢
    rw [show (v / 2 ^ j - 2 ^ k * 2) % 2 = v / 2 ^ j % 2 by omega]

/-- The four bytes of a channel in the reply of CLAMP_STATUS (R79). -/
def clampBytes (s : State) (c : Nat) : List Byte :=
  le 2 (s.takeRc (AFE_CH_STAT c) AFE_CH_STAT_CLAMP_COUNT).1 ++ le 1 (wfld (s.chStat c) AFE_CH_STAT_CLAMP_NOW
    + 2 * b2n (bit (s.fld (AFE_CLAMP_SEEN (c / 32)) AFE_CLAMP_SEEN_SEEN) (c % 32)
      && !bit (s.freshBits (AFE_CLAMP_SEEN (c / 32)) AFE_CLAMP_SEEN_SEEN) (c % 32))) ++ le 1 0

/-- The state after a channel's onsets are cleared (R79, R9). -/
def clampCleared (s : State) (c : Nat) : State :=
  let a := AFE_CLAMP_SEEN (c / 32)
  let v := s.fld a AFE_CLAMP_SEEN_SEEN
  (s.takeRc (AFE_CH_STAT c) AFE_CH_STAT_CLAMP_COUNT).2.setFld a AFE_CLAMP_SEEN_SEEN
    (if bit v (c % 32) && !bit (s.freshBits a AFE_CLAMP_SEEN_SEEN) (c % 32) then v - 2 ^ (c % 32) else v)

theorem clampRead_eq (s : State) (c : Nat) (clear : Bool) :
    s.clampRead c clear = (if clear then clampCleared s c else s, clampBytes s c) := rfl

/-- What CLAMP_STATUS reads of a channel stands in `u` as in `s`. -/
structure SameClamp (s u : State) (c : Nat) : Prop where
  stat : u.rd (AFE_CH_STAT c) = s.rd (AFE_CH_STAT c)
  seen : bit (u.fld (AFE_CLAMP_SEEN (c / 32)) AFE_CLAMP_SEEN_SEEN) (c % 32) = bit (s.fld (AFE_CLAMP_SEEN (c / 32)) AFE_CLAMP_SEEN_SEEN) (c % 32)
  fresh : u.fresh = s.fresh
  now : u.now = s.now
  acq : u.acq = s.acq

theorem clampBytes_same {s u : State} {c : Nat} (h : SameClamp s u c) : clampBytes u c = clampBytes s c := by
  have stat : u.chStat c = s.chStat c := by
    unfold State.chStat State.ch
    rw [h.stat, h.now, h.acq]
  have fresh : u.freshBits (AFE_CLAMP_SEEN (c / 32)) AFE_CLAMP_SEEN_SEEN = s.freshBits (AFE_CLAMP_SEEN (c / 32)) AFE_CLAMP_SEEN_SEEN := by
    unfold State.freshBits State.clock
    rw [h.fresh, h.now]
  unfold clampBytes
  rw [takeRc_fst_congr (by decide) h.stat h.fresh h.now, stat, fresh, h.seen]

theorem clampCleared_same {s u : State} {c d : Nat} (h : SameClamp s u d) (hc : c < 512) (hd : d < 512) (hne : c ≠ d) : SameClamp s (clampCleared u c) d := by
  have count : (u.takeRc (AFE_CH_STAT c) AFE_CH_STAT_CLAMP_COUNT).2
      = u.setFld (AFE_CH_STAT c) AFE_CH_STAT_CLAMP_COUNT (min (u.freshCount (AFE_CH_STAT c) AFE_CH_STAT_CLAMP_COUNT) (u.fld (AFE_CH_STAT c) AFE_CH_STAT_CLAMP_COUNT)) :=
    takeRc_snd _ _ _
  unfold clampCleared
  dsimp only
  rw [count]
  refine ⟨?_, ?_, by simp [h.fresh], by simp [h.now], by simp [h.acq]⟩
  · rw [State.rd_setFld_ne _ _ _ (by decide) (by unfold AFE_CH_STAT AFE_CLAMP_SEEN; omega),
      State.rd_setFld_ne _ _ _ (by decide) (by unfold AFE_CH_STAT; omega), h.stat]
  · rw [← h.seen]
    by_cases hk : d / 32 = c / 32
    · have lt : u.fld (AFE_CLAMP_SEEN (c / 32)) AFE_CLAMP_SEEN_SEEN < 2 ^ 32 := by
        rw [State.fld_eq _ _ _ (by decide)]
        exact bits_lt _ _ _
      rw [hk, State.fld_setFld_self _ _ _ _ (by decide)]
      split
      · rename_i hs
        rw [show AFE_CLAMP_SEEN_SEEN.width = 32 from rfl, Nat.mod_eq_of_lt (Nat.lt_of_le_of_lt (Nat.sub_le _ _) lt)]
        exact bit_sub_two_pow_ne (by simpa using (Bool.and_eq_true _ _ ▸ hs).1) (by omega)
      · rw [show AFE_CLAMP_SEEN_SEEN.width = 32 from rfl, Nat.mod_eq_of_lt lt]
    · rw [State.fld_setFld_ne _ _ _ _ (by decide) (by decide) (by unfold AFE_CLAMP_SEEN; omega),
        State.fld_setFld_ne _ _ _ _ (by decide) (by decide) (by unfold AFE_CLAMP_SEEN AFE_CH_STAT; omega)]

/-- CLAMP_STATUS reads its channels in turn, each as it stood before the command. -/
theorem clampStatus_read (s : State) (clear : Bool) : ∀ (l : List Nat) (u : State) (d : List Byte), l.Nodup → (∀ c ∈ l, c < 512) →
    (∀ c ∈ l, SameClamp s u c) →
    l.foldl (fun (a : State × List Byte) c => let k := a.1.clampRead c clear; (k.1, a.2 ++ k.2)) (u, d)
      = (if clear then l.foldl clampCleared u else u, d ++ l.flatMap (clampBytes s))
  | [], u, d, _, _, _ => by simp
  | c :: l, u, d, hnodup, hlt, hsame => by
    obtain ⟨hc, hl⟩ := List.nodup_cons.mp hnodup
    have rest : ∀ k ∈ l, SameClamp s (if clear then clampCleared u c else u) k := by
      intro k hk
      split
      · exact clampCleared_same (hsame k (List.mem_cons_of_mem _ hk)) (hlt c List.mem_cons_self) (hlt k (List.mem_cons_of_mem _ hk))
          fun h => hc (h ▸ hk)
      · exact hsame k (List.mem_cons_of_mem _ hk)
    rw [List.foldl_cons, clampRead_eq]
    dsimp only
    rw [clampStatus_read s clear l _ _ hl (fun k hk => hlt k (List.mem_cons_of_mem _ hk)) rest, clampBytes_same (hsame c List.mem_cons_self)]
    cases clear <;> simp [List.append_assoc]

/-- Settles O32: the checks pass; the bytes of CLAMP_STATUS are those of the state before it. -/
theorem frontEndCommandsComplete : Obligations.FrontEndCommandsComplete := by
  refine ⟨?config, ?query, ?exc, ?inject, fun i => ?timed, ?clamp⟩
  case config =>
    refine completes_of (fun _ _ _ => rfl) (fun c ps x ⟨h1, h512, hclean, hall⟩ => ?_) (by decide) (by decide)
    unfold bodyChConfig
    refine checked_none ?_
    rw [List.cons_append, List.cons_append, List.nil_append, firstFail_need (by simp [h1, h512]), firstFail_need hclean, firstFail_of_forall hall]
  case query =>
    refine completes_of (fun _ _ _ => rfl) (fun c ps x ⟨h, hz⟩ => ?_) (by decide) (by decide)
    exact checked_none (by rw [firstFail_need (by simp [h, hz]), firstFail_nil])
  case exc =>
    refine completes_of (fun _ _ _ => rfl) (fun c ps x ⟨hb, hz, h28, h12, h16, hall⟩ => ?_) (by decide) (by decide)
    unfold bodyBayExcitation
    refine checked_none ?_
    rw [List.cons_append, List.nil_append, firstFail_need (by simp [hb, hz, h28, h12, h16]), firstFail_of_forall hall]
  case inject =>
    refine completes_of (fun _ _ _ => rfl) (fun c ps x ⟨hf, hz, htm, hall⟩ => ?_) (by decide) (by decide)
    unfold bodyChTestInject
    dsimp only
    rw [checked_none, if_pos htm]
    · rfl
    · rw [List.append_assoc, List.cons_append, List.nil_append, firstFail_need (by simp [hf, hz]), firstFail_append hall,
        firstFail_need (by simp [htm]), firstFail_need (by simp [htm]), firstFail_need (by simp [htm]), firstFail_nil]
  case timed =>
    refine completes_of (fun _ _ _ => rfl) (fun c ps x ⟨hf, hz, htm, harm, htq, hfree, hall⟩ => ?_) (by decide) (by decide)
    unfold bodyChTestInject
    dsimp only
    rw [checked_none, if_neg htm]
    · rw [hfree]
      rfl
    · rw [List.append_assoc, List.cons_append, List.nil_append, firstFail_need (by simp [hf, hz]), firstFail_append hall,
        firstFail_need (by rw [harm, Bool.or_true]), firstFail_need (by simp [htq]), firstFail_need (by simp [hfree]), firstFail_nil]
  case clamp =>
    refine completes_of (fun _ _ _ => rfl) (fun c ps x ⟨h1, h512, h2, hz⟩ => ?_) (by decide) (by decide)
    have chans : ∀ k ∈ (List.range (num ps 2 2)).map fun i => num ps 0 2 + i, k < 512 := by
      intro k hk
      obtain ⟨i, hi, rfl⟩ := List.mem_map.mp hk
      have := List.mem_range.mp hi
      omega
    have distinct : ((List.range (num ps 2 2)).map fun i => num ps 0 2 + i).Nodup :=
      List.Pairwise.map _ (fun i j h e => h (Nat.add_left_cancel e)) List.nodup_range
    unfold bodyClampStatus
    dsimp only
    rw [checked_none (by rw [firstFail_need (by simp [h1, h512, h2, hz]), firstFail_nil]),
      clampStatus_read x (bit (num ps 4 1) 0) _ x [] distinct chans fun _ _ => ⟨rfl, rfl, rfl, rfl, rfl⟩]
    rfl

/-- Settles O33: what is due takes its branch. -/
theorem frontEndEventsComplete : Obligations.FrontEndEventsComplete := by
  refine ⟨fun c => ?reset, fun c u => ?clamp, fun b => ?limit, fun b m => ?other, fun b m => ?start, fun b m f => ?period, fun c r => ?pilot,
    fun caps => ?tick, fun c i => ?opposite⟩
  case reset =>
    refine occurs_of (f := (State.chargeReset · c)) (fun _ _ => rfl) (fun x ⟨hmode, hrun, hdue, hsw, hedge, hinj⟩ => ?_)
    refine if_neg ?_
    have edges : (((x.ch c.val).edgeAt.toList ++ (x.ch c.val).inject.elim [] fun i => [i.edge, i.back]).any fun e =>
        decide (x.now / (x.scanN (c.val / 8) * clk) * (x.scanN (c.val / 8) * clk) ≤ e)
          && decide (e ≤ x.now / (x.scanN (c.val / 8) * clk) * (x.scanN (c.val / 8) * clk) + x.scanN (c.val / 8) * clk)) = false := by
      rw [List.any_eq_false]
      intro e he hin
      rw [Bool.and_eq_true, decide_eq_true_eq, decide_eq_true_eq] at hin
      rcases List.mem_append.mp he with he | he
      · exact hedge e (Option.mem_toList.mp he) hin
      · cases hi : (x.ch c.val).inject with
        | none => simp [hi] at he
        | some i =>
          obtain ⟨h1, h2⟩ := hinj i hi
          simp only [hi, Option.elim_some, List.mem_cons, List.not_mem_nil, or_false] at he
          rcases he with rfl | rfl
          · exact h1 hin
          · exact h2 hin
    simp only [hmode, hrun, hdue, hsw, edges, List.any_nil]
    decide
  case clamp =>
    refine occurs_of (f := (State.clampOnset · c u)) (fun _ _ => rfl) (fun x hd => ?_)
    exact if_neg (by simp [hd])
  case limit =>
    refine occurs_of (f := (State.excLimit · b)) (fun _ _ => rfl) (fun x ⟨hb, he, hl⟩ => ?_)
    exact if_neg (by simp [hb, he, hl])
  case other =>
    refine occurs_of (f := fun s => s.excPeriodEnd b m) (fun _ _ => rfl) (fun x ⟨h0, h1, hl⟩ => ?_)
    unfold State.excPeriodEnd
    dsimp only
    rw [if_neg h0, if_pos h1, if_neg]
    rcases hl with hl | hl <;> simp [hl]
  case start =>
    refine occurs_of (f := fun s => s.excPeriodEnd b m) (fun _ _ => rfl) (fun x ⟨h1, hp⟩ => ?_)
    unfold State.excPeriodEnd
    dsimp only
    rw [if_neg (by omega), if_neg (by omega), hp]
  case period =>
    refine occurs_of (f := fun s => s.excPeriodEnd b m) (fun _ _ => rfl) (fun x ⟨h1, hp, hnow⟩ => ?_)
    unfold State.excPeriodEnd
    dsimp only
    rw [if_neg (by omega), if_neg (by omega), hp]
    exact if_neg (Nat.not_lt.mpr hnow)
  case pilot =>
    refine occurs_of (f := (State.pilotWindow · c r)) (fun _ _ => rfl) (fun x ⟨hm, hw, hp, htick⟩ => ?_)
    refine if_neg ?_
    have paused : (x.on (AFE_CH_CFG c.val) AFE_CH_CFG_CM_CHECK
        && x.acq.tickAt.any fun f => decide (f < x.now) && decide (x.now < f + tickLen + fineUs 64)) = false := by
      rcases htick with h | h
      · rw [h, Bool.false_and]
      · cases ht : x.acq.tickAt with
        | none => simp
        | some f =>
          have : tickLen + fineUs 64 = fineUs 264 := by decide
          have := h f ht
          simp only [Option.any_some, Bool.and_eq_false_iff, decide_eq_false_iff_not]
          omega
    simp only [hm, hw, hp, paused]
    decide
  case tick =>
    refine occurs_of (f := (State.testTick · caps)) (fun _ _ => rfl) (fun x ⟨h0, hk⟩ => ?_)
    exact if_neg (not_or.mpr ⟨h0, hk⟩)
  case opposite =>
    refine occurs_of (f := (State.oppositeEdge · c)) (fun _ _ => rfl) (fun x ⟨hi, hback⟩ => ?_)
    unfold State.oppositeEdge
    rw [hi]
    exact if_neg (Nat.not_lt.mpr hback)

end Sys2Proof
end

section
/-!
PROOFS. The CONV block (03_conversion.md R86 to R110; 16_calibration.md R488): its commands pass their checks, its events take their branch,
and the bay under takeover is the one that a calibration's values of it go to; obligations O34 and O35.
-/

namespace Sys2Proof

set_option Elab.async false

open Sys2Proof.Machine Sys2Proof.Machine.Reg Sys2Proof.Machine.Bits

/-- A trigger that finds the slot full, or the sequence at the end of a run that left it full, is an overrun. -/
theorem transomTrigger_running {x : State} (hr : x.transomRuns = true) (h : x.acq.transom.running.isSome = true) :
    x.transomTrigger = if x.acq.transom.fullAt = some (x.now / clk) ∨ x.acq.transom.pendingSlot = true then
        (x.bump CONV_TSEQ_STAT CONV_TSEQ_STAT_OVERRUN).issueLim 0x2002 0 1 0 true [0, x.st]
      else (x.onTransom fun y => { y with pendingSlot := true }).showTransom := by
  have busy : ¬ (x.acq.transom.running.isNone && !x.acq.transom.calibrating) = true := by
    rw [← Option.not_isSome, h]
    exact Bool.false_ne_true
  unfold State.transomTrigger
  dsimp only
  rw [if_neg (by rw [hr]; decide), if_neg busy]
  split
  · exact (if_pos (Or.inl ‹_›)).symm
  · split
    · exact (if_pos (Or.inr ‹_›)).symm
    · exact (if_neg (not_or.mpr ⟨‹_›, ‹_›⟩)).symm

/-- Settles O34: the checks pass; a start takes the branch of the transom's slot. -/
theorem conversionCommandsComplete : Obligations.ConversionCommandsComplete := by
  refine ⟨?mode, ?sequence, ?urgent, ?start, ?pend, ?overrun, ?commit⟩
  case mode =>
    refine completes_of (fun _ _ _ => rfl) (fun c ps x ⟨h1, h64, hz, h6, h2, hall⟩ => ?_) (by decide) (by decide)
    have bays : ∀ o ∈ ((List.range (num ps 1 1)).map fun i => num ps 0 1 + i).flatMap fun b =>
        x.bayChecks ((List.range (num ps 1 1)).map fun i => num ps 0 1 + i) (word (num ps 4 4)) (word (num ps 8 4)) b, o = none := by
      intro o ho
      obtain ⟨b, hb, ho⟩ := List.mem_flatMap.mp ho
      obtain ⟨i, hi, rfl⟩ := List.mem_map.mp hb
      exact hall i (List.mem_range.mp hi) o ho
    unfold bodyBayMode
    refine checked_none ?_
    rw [List.cons_append, List.nil_append, firstFail_need (by simp [h1, h64, hz, h6, h2]), firstFail_of_forall bays]
  case sequence =>
    refine completes_of (fun _ _ _ => rfl) (fun c ps x ⟨hf, hn, hfn, h4, hz, h10, h6, hall⟩ => ?_) (by decide) (by decide)
    exact checked_none (by rw [firstFail_need (by simp [hf, hn, hfn, h4, hz]), firstFail_need (by rw [h10, h6, hall]; rfl), firstFail_nil])
  case urgent =>
    refine completes_later (fun _ _ _ => rfl) (fun c ps x ⟨hok, hr, hl⟩ => ?_) (by decide)
    exact checked_none (by rw [firstFail_need hok, firstFail_need hr, firstFail_need (decide_eq_true hl), firstFail_nil])
  case start =>
    refine occurs_of (f := State.transomTrigger) (fun _ _ => rfl) (fun x ⟨hr, hn, hc, hf⟩ => ?_)
    unfold State.transomTrigger
    dsimp only
    rw [if_neg (by rw [hr]; decide), if_neg hf, if_pos (by rw [hn, hc]; rfl)]
  case pend =>
    refine occurs_of (f := State.transomTrigger) (fun _ _ => rfl) (fun x ⟨hr, hn, hf, hp⟩ => ?_)
    rw [transomTrigger_running hr hn, if_neg (by rw [hp]; exact not_or.mpr ⟨hf, by decide⟩)]
  case overrun =>
    refine occurs_of (f := State.transomTrigger) (fun _ _ => rfl) (fun x ⟨hr, hn, hp⟩ => ?_)
    rw [transomTrigger_running hr hn, if_pos (Or.inr hp)]
  case commit => exact occurs_of (f := State.transomCommit) (fun _ _ => rfl) (fun _ _ => rfl)

/-- A register below window 0x8 other than SYS_BB_STAT is none of those that any row may change. -/
theorem not_logRegs {a : Nat} (h : a < 0x80000) (hs : a ≠ SYS_BB_STAT) : ∀ r ∈ [] ++ logRegs, ¬ InArray r.1 r.2.1 r.2.2 a := by
  intro r hr ⟨j, hj⟩
  simp only [List.nil_append, logRegs, List.mem_cons, List.not_mem_nil, or_false] at hr
  rcases hr with rfl | rfl | rfl | rfl | rfl | rfl | rfl <;>
    simp only [SYS_BB_STAT, QM_DROP_STAT, QM_Q_FLAGS, PMC_STAT, PMC_CNT, RED_MIRROR, CMP_ERR] at hj hs <;> omega

@[simp] theorem State.takeover_onTakeover (s : State) (k : Nat) (f : Takeover → Takeover) : (s.onTakeover k f).takeover k = f (s.takeover k) :=
  Tab.get_set_self _ _ _ _

@[simp] theorem State.fld_onTakeover (s : State) (k : Nat) (f : Takeover → Takeover) (a : Nat) (g : Fld) : (s.onTakeover k f).fld a g = s.fld a g := rfl

/-- A comparison of a takeover ends once its 64 strobes have passed (R96). -/
theorem reliefCompare_due {x : State} {k i : Nat} (diffs : List Int) (hb : (x.takeover k).bay = some i)
    (hs : (x.takeover k).step = 1 ∨ (x.takeover k).step = 5) (hnow : (x.takeover k).since + 64 * x.scanN (dieBay k i) * clk ≤ x.now) :
    x.reliefCompare k diffs =
      let b := dieBay k i
      let w := worstDiff diffs
      let y := x.setFld (CONV_RELIEF k) CONV_RELIEF_LAST_DIFF (unsigned 8 (satI 8 w.2))
      let z := if decide (w.2.natAbs > 32) then
          ((y.bump (CONV_RELIEF k) CONV_RELIEF_MISMATCH_COUNT).issue 0x2001 [b, if (x.takeover k).step = 1 then 2 else 5, w.1, item w.2]).calReject
            (4 + k) i 3 w.2
        else y
      if (x.takeover k).step = 1 then
        if decide (w.2.natAbs > 32) then ((z.endTakeover k).onTakeover k fun t => { t with left := t.left.filter (· != i), reliefDue := true }).nextTakeover k
        else
          let v := (z.sampled b).foldl (fun s c => s.openSpan c fRelief (s.strobeFrom b s.now)) z
          (((v.setFld (CONV_BAY_STAT b) CONV_BAY_STAT_RELIEF 1).setFld (CONV_BAY_STAT b) CONV_BAY_STAT_CAL_BUSY 1).pmc 0x201 k 1).onTakeover k
            fun t => { t with step := 4, since := v.now }
      else
        let v := if decide (w.2.natAbs > 32) then z.restoreBay k else z
        ((v.endTakeover k).onTakeover k fun t => { t with left := t.left.filter (· != i) }).nextTakeover k := by
  unfold State.reliefCompare
  dsimp only
  rw [hb]
  dsimp only
  rw [if_neg (by rw [decide_eq_false (Nat.not_lt.mpr hnow)]; rcases hs with h | h <;> simp [h])]
  simp only [State.setFld_now]

/-- The bay under takeover rejoins the scan with values that are all its own; no other bay and not the relief converter takes any (R94). -/
theorem bayCalibrated_own {x : State} {k i : Nat} {vs : List CalValue} (hr : (x.cal.running.any fun r => r.g == 4 + k) = true)
    (hb : (x.takeover k).bay = some i) (hs : (x.takeover k).step = 4) (hv : ∀ v ∈ vs, v.element = i) :
    x.bayCalibrated k vs =
      let y := vs.foldl (fun s v => s.calValue (4 + k) v) x
      (((y.setFld (CONV_BAY_STAT (dieBay k i)) CONV_BAY_STAT_CAL_BUSY 0).onTakeover k fun t =>
          { t with step := 5, since := y.strobeFrom (dieBay k i) y.now, prev := bytesAt (x.calPayload (4 + k)) (16 * i) 16 }).onTakeover k
        fun t => { t with left := t.left.filter fun _ => true }).nextTakeover k := by
  have els : ∀ e ∈ (vs.map CalValue.element).eraseDups, e = i := by
    intro e he
    obtain ⟨v, hm, rfl⟩ := List.mem_map.mp (List.mem_eraseDups.mp he)
    exact hv v hm
  have idle : ((vs.map CalValue.element).eraseDups.filter fun e =>
      decide (e < 16) && (x.takeover k).left.contains e && some i != some e && x.bayIdle (dieBay k e)) = [] := by
    refine List.filter_eq_nil_iff.mpr fun e he => ?_
    rw [els e he]
    simp
  have own : ((vs.map CalValue.element).eraseDups.contains i || vs.isEmpty) = true := by
    cases vs with
    | nil => simp
    | cons v l => simp [hv v List.mem_cons_self, List.mem_eraseDups]
  have takes : (vs.filter fun v => some i == some v.element) = vs :=
    List.filter_eq_self.mpr fun v hm => by simp [hv v hm]
  unfold State.bayCalibrated
  dsimp only
  rw [if_neg (by rw [hr]; decide), hb]
  simp only [idle, own, hs, Option.isNone_some, Bool.and_false, Bool.false_and, BEq.rfl, Bool.true_and, Bool.and_true, List.contains_nil, Bool.or_false,
    List.foldl_nil, Bool.not_false, takes, Option.getD_some, if_true]

/-- Settles O35: what is due takes its branch. -/
theorem conversionEventsComplete : Obligations.ConversionEventsComplete := by
  refine ⟨fun b w => ?wake, fun b w => ?sleep, fun b scan at_ => ?scan, ?period, fun j falling => ?trig, fun codes u c => ?urgent,
    fun codes u => ?sensor, fun codes i => ?entry, fun codes i => ?last, ?calibrated, fun k diffs i => ?agree, fun k diffs i => ?differ,
    fun k diffs i => ?after, fun k vs i => ?done⟩
  case wake =>
    refine occurs_of (f := (State.burstWake · b)) (fun _ _ => rfl) (fun x ⟨hh, hm, hr, hw, hn⟩ => ?_)
    unfold State.burstWake
    rw [if_neg (by simp [hh, hm, hr, hw]), hn]
  case sleep =>
    refine occurs_of (f := (State.burstEnd · b)) (fun _ _ => rfl) (fun x ⟨hw, hnow⟩ => ?_)
    unfold State.burstEnd
    rw [hw]
    exact if_neg (Nat.not_lt.mpr hnow)
  case scan =>
    refine occurs_of (f := (State.newScan · b)) (fun _ _ => rfl) (fun x ⟨hn, hnow⟩ => ?_)
    unfold State.newScan
    rw [hn]
    exact if_neg (Nat.not_lt.mpr hnow)
  case period =>
    refine occurs_of (f := State.transomPeriod) (fun _ _ => rfl) (fun x ⟨h0, hlt⟩ => ?_)
    exact if_neg (not_or.mpr ⟨h0, Nat.not_le.mpr hlt⟩)
  case trig => exact occurs_of (f := (State.trigInEdge · j falling)) (fun _ _ => rfl) (fun _ _ => rfl)
  case urgent =>
    refine occurs_of (f := (State.transomDone · codes)) (fun _ _ => rfl) (fun x ⟨hu, hc, hnow⟩ => ?_)
    unfold State.transomDone
    dsimp only
    rw [hu]
    dsimp only
    rw [if_neg (Nat.not_lt.mpr hnow), hc]
  case sensor =>
    refine occurs_of (f := (State.transomDone · codes)) (fun _ _ => rfl) (fun x ⟨hu, hc, hnow⟩ => ?_)
    unfold State.transomDone
    dsimp only
    rw [hu]
    dsimp only
    rw [if_neg (Nat.not_lt.mpr hnow), hc]
  case entry =>
    refine occurs_of (f := (State.transomDone · codes)) (fun _ _ => rfl) (fun x ⟨hu, hi, hc, hnow, hl, h63⟩ => ?_)
    unfold State.transomDone
    dsimp only
    rw [hu, hi]
    dsimp only
    rw [if_neg (by rw [hc, Bool.false_or, decide_eq_true_eq]; exact Nat.not_lt.mpr hnow), if_neg (not_or.mpr ⟨hl, h63⟩)]
  case last =>
    refine occurs_of (f := (State.transomDone · codes)) (fun _ _ => rfl) (fun x ⟨hu, hi, hc, hnow, hl⟩ => ?_)
    unfold State.transomDone
    dsimp only
    rw [hu, hi]
    dsimp only
    rw [if_neg (by rw [hc, Bool.false_or, decide_eq_true_eq]; exact Nat.not_lt.mpr hnow), if_pos hl]
  case calibrated =>
    refine occurs_of (f := State.transomCalibrated) (fun _ _ => rfl) (fun x ⟨hc, hnow⟩ => ?_)
    refine if_neg ?_
    rw [hc, Bool.not_true, Bool.false_or, decide_eq_true_eq]
    exact Nat.not_lt.mpr hnow
  case agree =>
    refine occurs_of (f := fun s => s.reliefCompare k diffs) (fun _ _ => rfl) (fun x ⟨hb, hs, hnow, hle⟩ => ?_)
    rw [reliefCompare_due diffs hb (Or.inl hs) hnow, hs, if_pos rfl]
    dsimp only
    rw [decide_eq_false (Nat.not_lt.mpr hle)]
    simp only [Bool.false_eq_true, if_false]
  case differ =>
    refine occurs_of (f := fun s => s.reliefCompare k diffs) (fun _ _ => rfl) (fun x ⟨hb, hs, hnow, hlt⟩ => ?_)
    rw [reliefCompare_due diffs hb (Or.inl hs) hnow, hs, if_pos rfl]
    dsimp only
    rw [decide_eq_true hlt]
    simp only [if_true]
  case after =>
    refine occurs_of (f := fun s => s.reliefCompare k diffs) (fun _ _ => rfl) (fun x ⟨hb, hs, hnow⟩ => ?_)
    rw [reliefCompare_due diffs hb (Or.inr hs) hnow, hs]
    have five : ¬ (5 : Nat) = 1 := by decide
    by_cases hlt : (worstDiff diffs).2.natAbs > 32
    · simp only [five, hlt, decide_true, if_true, if_false]
    · simp only [five, hlt, decide_false, Bool.false_eq_true, if_false]
  case done =>
    refine yields_of (f := fun s => s.bayCalibrated k vs) (fun _ _ => rfl) (fun s x u ⟨hr, hb, hs, hv⟩ _ hu => ?_)
    rw [bayCalibrated_own hr hb hs hv] at hu
    dsimp only at hu
    have same : (vs.foldl (fun s v => s.calValue (4 + k.val) v) x).takeover k = x.takeover k := by
      have : (vs.foldl (fun s v => s.calValue (4 + k.val) v) x).acq = x.acq :=
        foldl_keep (P := fun u => Part.acq.Same x u) (fun _ _ h => State.calValue_keep (keeps_part x .acq) h) rfl
      unfold State.takeover
      rw [this]
    generalize vs.foldl (fun s v => s.calValue (4 + k.val) v) x = y at hu same
    generalize hz : ((y.setFld (CONV_BAY_STAT (dieBay k i)) CONV_BAY_STAT_CAL_BUSY 0).onTakeover k fun t =>
          { t with step := 5, since := y.strobeFrom (dieBay k i) y.now, prev := bytesAt (x.calPayload (4 + k.val)) (16 * i) 16 }).onTakeover k
        (fun t => { t with left := t.left.filter fun _ => true }) = z at hu
    have own : z.takeover k = { x.takeover k with step := 5, since := y.strobeFrom (dieBay k i) y.now, prev := bytesAt (x.calPayload (4 + k.val)) (16 * i) 16 } := by
      have : (y.setFld (CONV_BAY_STAT (dieBay k i)) CONV_BAY_STAT_CAL_BUSY 0).takeover k = x.takeover k := by
        rw [← same]
        unfold State.takeover
        rw [State.setFld_acq]
      rw [← hz, State.takeover_onTakeover, State.takeover_onTakeover, this]
      simp
    have stays : z.nextTakeover k = z := by
      unfold State.nextTakeover
      exact if_pos (by rw [own, hb]; rfl)
    rw [stays] at hu
    have acq : u.acq = z.acq := hu.rest.1 .acq (by decide)
    have taken : u.takeover k = z.takeover k := by
      unfold State.takeover
      rw [acq]
    rw [taken, own]
    refine ⟨hb, rfl, ?_, rfl, rfl⟩
    have kept : u.rd (CONV_BAY_STAT (dieBay k i)) = z.rd (CONV_BAY_STAT (dieBay k i)) := by
      exact hu.rest.2 _ (not_logRegs (by unfold CONV_BAY_STAT; omega) (by unfold CONV_BAY_STAT SYS_BB_STAT; omega))
    rw [State.fld_eq _ _ _ (by decide), kept, ← State.fld_eq _ _ _ (by decide), ← hz]
    rw [State.fld_onTakeover, State.fld_onTakeover, State.fld_setFld_self _ _ _ _ (by decide), Nat.zero_mod]

end Sys2Proof
end

section
/-!
PROOFS. The DEC block (04_decimation.md R113 to R142): its commands pass their checks, and its events take their branch; obligations O36
and O37.
-/

namespace Sys2Proof

set_option Elab.async false

open Sys2Proof.Machine Sys2Proof.Machine.Reg Sys2Proof.Machine.Bits

/-- Checks made of each element of a list pass where each element's do. -/
theorem none_flatMap {α : Type} {l : List α} {f : α → List (Option Nat)} (h : ∀ a ∈ l, ∀ o ∈ f a, o = none) : ∀ o ∈ l.flatMap f, o = none := by
  intro o ho
  obtain ⟨a, ha, ho⟩ := List.mem_flatMap.mp ho
  exact h a ha o ho

/-- What holds of the channels from `first` on that a command names. -/
theorem forall_chans {p : Nat → Prop} {first count : Nat} (h : ∀ i, i < count → p (first + i)) :
    ∀ c ∈ (List.range count).map fun i => first + i, p c := by
  intro c hc
  obtain ⟨i, hi, rfl⟩ := List.mem_map.mp hc
  exact h i (List.mem_range.mp hi)

/-- Settles O36: the checks pass. -/
theorem decimationCommandsComplete : Obligations.DecimationCommandsComplete := by
  refine ⟨?chain, ?detector, ?enable, ?disable⟩
  case chain =>
    refine completes_of (fun _ _ _ => rfl) (fun c ps x ⟨h1, h512, h12, h9, h2, hz, happly, hload, hall⟩ => ?_) (by decide) (by decide)
    have reserved : (!bit (num ps 8 1) 0 || (bits (word (num ps 12 4)).toNat 17 3 == 0 && bits (word (num ps 12 4)).toNat 8 8 == 0)) = true := by
      by_cases ha : bit (num ps 8 1) 0 = true
      · obtain ⟨h17, h8, -⟩ := happly ha
        rw [h17, h8]
        exact Bool.or_true _
      · rw [Bool.eq_false_iff.mpr ha]
        rfl
    have hist : ((if bit (num ps 8 1) 0 then (((List.range (num ps 2 2)).map fun i => num ps 0 2 + i).map (· / 8)).eraseDups else []).all fun b =>
        histOk (x.scanCfg b) (wfld (word (num ps 12 4)) DEC_BAY_CFG_HIST_RATE)) = true := by
      split
      · obtain ⟨-, -, hist⟩ := happly ‹_›
        exact List.all_eq_true.mpr hist
      · rfl
    unfold bodyChainConfig
    refine checked_none ?_
    rw [List.cons_append, List.cons_append, List.cons_append, List.cons_append, List.nil_append, firstFail_need (by simp [h1, h512, h12, h9]),
      firstFail_need (by rw [decide_eq_true h2, hz, reserved]; rfl), firstFail_need hist, firstFail_need hload, firstFail_of_forall (none_flatMap hall)]
  case detector =>
    refine completes_of (fun _ _ _ => rfl) (fun c ps x ⟨h1, h512, h21, h0, hall⟩ => ?_) (by decide) (by decide)
    unfold bodyDetectorConfig
    refine checked_none ?_
    rw [List.cons_append, List.nil_append, firstFail_need (by simp [h1, h512, h21, h0]), firstFail_of_forall (none_flatMap (forall_chans hall))]
  case enable =>
    refine completes_of (fun _ _ _ => rfl) (fun c ps x ⟨h1, h592, hen, hz, h16, hall⟩ => ?_) (by decide) (by decide)
    have on_ : bit (num ps 4 1) 0 = true := by rw [hen]; rfl
    unfold bodyStreamEnable
    dsimp only
    rw [on_, checked_none]
    · simp only [if_true]
    · rw [if_pos rfl, List.cons_append, List.nil_append, firstFail_need (by simp [h1, h592, hen, hz, h16]), firstFail_of_forall hall]
  case disable =>
    refine completes_of (fun _ _ _ => rfl) (fun c ps x ⟨h1, h592, hen, hz, h16⟩ => ?_) (by decide) (by decide)
    have off : bit (num ps 4 1) 0 = false := by rw [hen]; rfl
    unfold bodyStreamEnable
    dsimp only
    rw [off, checked_none]
    · simp only [Bool.false_eq_true, if_false]
    · rw [if_neg Bool.false_ne_true, List.append_nil, firstFail_need (by simp [h1, h592, hen, hz, h16]), firstFail_nil]

/-- A code that is due is taken (R84). -/
theorem rawCode_due {x : State} {c : Nat} (code : BitVec 16) (h : codeDue x c) :
    x.rawCode c code =
      let n := x.scanAt (c / 8) (x.now - (22 + c % 8) * clk)
      let k := arriving x c
      let v := (x.chainStart c (x.modeAt c k) k (n * clk)).correction c (x.modeAt c k) k (n * clk) code
      let y := v.2.onCh c fun h => { h with outs := (k, v.1) :: h.outs }
      y.feedSignal c 0 v.1 (y.holdAt c k) (spanFlags (y.ch c).spans (n * clk) k k k) := by
  obtain ⟨hh, hnow, hconv, hslot, hnew⟩ := h
  have next : ((x.ch c).outs.head?.any fun e => decide (arriving x c ≤ e.1)) = false := by
    cases he : (x.ch c).outs.head? with
    | none => rfl
    | some e => exact decide_eq_false (Nat.not_le.mpr (hnew e he))
  unfold arriving at hconv next
  refine if_neg ?_
  rw [hh, decide_eq_false (Nat.not_lt.mpr hnow), hconv, decide_eq_false (Nat.not_le.mpr hslot), next]
  exact Bool.false_ne_true

/-- The code of a SWITCH channel is its comparator's state, and that of an OFF channel is 0 (R39, R113). -/
theorem correction_unsampled (x : State) {c mode : Nat} (hold step : Nat) (code : BitVec 16) (h : mode = 0 ∨ mode = 5) :
    x.correction c mode hold step code = (if mode = 5 ∧ code ≠ 0#16 then 1 else 0, x) := by
  unfold State.correction
  rcases h with rfl | rfl
  · simp
  · by_cases hc : code = 0#16 <;> simp [hc, b2n]

/-- Settles O37: what is due takes its branch. -/
theorem decimationEventsComplete : Obligations.DecimationEventsComplete := by
  refine ⟨fun c code => ?code, fun c code => ?plain, fun c idx => ?stream, fun c idx => ?history, fun c idx => ?tap0, fun c idx => ?tap1, fun c => ?start⟩
  case code => exact occurs_of (f := (State.rawCode · c code)) (fun _ _ => rfl) (fun x h => rawCode_due code h)
  case plain =>
    refine occurs_of (f := (State.rawCode · c code)) (fun _ _ => rfl) (fun x ⟨h, hmode⟩ => ?_)
    rw [rawCode_due code h]
    simp only [correction_unsampled _ _ _ _ hmode]
  case stream =>
    refine occurs_of (f := fun s => s.outputSample c .stream idx) (fun _ _ => rfl) (fun x ⟨hslot, htail, hrun, hdue, hin⟩ => ?_)
    unfold State.outputSample
    rw [if_neg (Nat.not_le.mpr hslot)]
    unfold State.streamOut
    dsimp only
    rw [htail, Option.filter_none]
    dsimp only
    rw [hrun]
    simp only [if_true]
    rw [if_neg (by rw [hdue, hin]; simp)]
  case history =>
    refine occurs_of (f := fun s => s.outputSample c .history idx) (fun _ _ => rfl) (fun x ⟨hslot, hrun, hidx, hin⟩ => ?_)
    unfold State.outputSample
    rw [if_neg (Nat.not_le.mpr hslot)]
    unfold State.historyOut
    dsimp only
    rw [if_neg (by rw [hrun, hin, ← hidx]; simp)]
  case tap0 =>
    refine occurs_of (f := fun s => s.outputSample c .tap0 idx) (fun _ _ => rfl) (fun x hslot => ?_)
    exact if_neg (Nat.not_le.mpr hslot)
  case tap1 =>
    refine occurs_of (f := fun s => s.outputSample c .tap1 idx) (fun _ _ => rfl) (fun x hslot => ?_)
    exact if_neg (Nat.not_le.mpr hslot)
  case start =>
    refine occurs_of (f := (State.streamStart · c)) (fun _ _ => rfl) (fun x ⟨hw, hl, hb, hnow⟩ => ?_)
    have open_ : ∀ a b c d : Bool, a = true → b = true → c = false → d = false → ¬ (!a || !b || c || d) = true := by decide
    have due : ∀ {α : Type} (o : Option α), o.isSome = true → o.isNone = false := fun o h => by rw [← Option.not_isSome, h]; rfl
    exact if_neg (open_ _ _ _ _ hw hl (due _ hb) (decide_eq_false (Nat.not_lt.mpr hnow)))

end Sys2Proof
end

section
/-!
PROOFS. The CAP block (07_panes_and_triggers.md R215 to R244): its commands pass their checks, and its events take their branch; obligations
O38 and O39.
-/

namespace Sys2Proof

set_option Elab.async false

open Sys2Proof.Machine Sys2Proof.Machine.Reg Sys2Proof.Machine.Bits

/-- A body that answers without a reply, to a packet that a hub originated, leaves the state as it made it, but for the reply cache. -/
theorem completes_unheard {op : Nat} {row : Nat → Packet → Instr} {b : Body} {cond : Caller → List Byte → State → Prop}
    {eff : Caller → List Byte → State → State} (hr : ∀ t p s, exec (row t p) s = command op b t p s)
    (ho : ∀ c ps x, cond c ps x → c.origin = true) (hb : ∀ c ps x, cond c ps x → b c ps x = .quiet (eff c ps x)) :
    CompletesSilently op row cond eff := by
  intro t p cr s h c x hc
  refine ⟨_, (hr t p s).trans (command_accepts b h), ?_⟩
  have settled : ∀ y : State, y.cmd = { (eff c p.params x).cmd with cache := y.cmd.cache } →
      Leaves (keptParts ++ [.red, .nvm]) [(CMD_CACHE, 0, 1)] (eff c p.params x) y → Settled s (eff c p.params x) (closing s y) := by
    intro y hcmd hleft
    have closed := closing_closed s y
    refine ⟨(hleft.weaken (by decide) (by decide)).trans (closed.rest.weaken (by decide) (by decide)), ?_, ?_, ?_⟩
    · rw [closed.cmd]
      exact hcmd
    · have red := closed.red
      rw [hleft.1 .red (by decide)] at red
      exact red
    · exact fun hp => Part.same_trans (hleft.1 .nvm (by decide)) (closed.nvm hp)
  have hub : (callerOf op p cr).origin = true := ho _ _ _ hc
  have unheard : ((opRow (callerOf op p cr).opcode).map OpRow.kind == some Kind.p && !(callerOf op p cr).origin) = false := by
    rw [hub, Bool.not_true, Bool.and_false]
  unfold State.carryOut
  rw [hb _ _ _ hc]
  simp only [unheard, Bool.false_eq_true, if_false]
  split
  · exact settled _ rfl (leaves_refl _ _ _)
  · exact settled _ (cacheReply_cmd _ _ _ _) (State.cacheReply_keep (keeps_leaves _ _ _ (by decide) (by decide)) (leaves_refl _ _ _))

/-- A PANE_OPEN for a trigger whose time is in the parameters as `num ps 28 12` (R240). -/
theorem paneOpen_trigger {c : Caller} {ps : List Byte} {x : State} {T : Nat} (he : num ps 0 1 < 16) (hop : num ps 1 1 = 1) (hz : zeroAt ps 2 2 = true)
    (hT : (if num ps 28 12 * 2 ^ 32 = 0 then x.served else num ps 28 12 * 2 ^ 32) = T) (hmax : num ps 28 12 * 2 ^ 32 ≤ x.served + 2592000 * 2 ^ 80)
    (harm : x.engArmed (num ps 0 1) = true) (haddr : x.address.isSome = true) (hslot : x.served < T → x.slotsUsed (num ps 0 1) < 4) :
    bodyPaneOpen c ps x = if x.served < T then .reply (x.takeSlot (num ps 0 1) (some T)).2 stOK (le 2 (x.takeSlot (num ps 0 1) (some T)).1)
      else match (x.judge (num ps 0 1) T 32 x.addr 65536 none).1 with
        | .lost => refuse x stNO_RESOURCE
        | .nothing id | .opened id => .reply (x.judge (num ps 0 1) T 32 x.addr 65536 none).2 stOK (le 2 id) := by
  have slot : (!decide (x.served < T) || decide (x.slotsUsed (num ps 0 1) < 4)) = true := by
    by_cases h : x.served < T
    · rw [decide_eq_true (hslot h), Bool.or_true]
    · rw [decide_eq_false h]
      rfl
  unfold bodyPaneOpen
  dsimp only
  rw [if_neg (by rw [hop]; decide), if_pos hop, hT, checked_none]
  · by_cases h : x.served < T
    · rw [if_pos h, if_pos (decide_eq_true h)]
    · rw [if_neg h]
      exact if_neg (by rw [decide_eq_false h]; exact Bool.false_ne_true)
  · rw [List.cons_append, List.nil_append, firstFail_need (by rw [hz, decide_eq_true he, hop]; rfl), firstFail_need (decide_eq_true hmax),
      firstFail_need (by rw [harm, haddr]; rfl), firstFail_need slot, firstFail_nil]

/-- An announcement not heard before, that this hub did not originate itself, fires its group's units (R235, R242). -/
theorem triggerAnnounce_fires {c : Caller} {ps : List Byte} {x : State} (h3 : bits (num ps 13 1) 3 5 = 0) (h11 : bits (num ps 16 2) 11 5 = 0)
    (hz : zeroAt ps 18 2 = true) (hown : ∀ y : State, y.addr = x.addr → (num ps 16 2 % 2048 == y.addr && c.origin) = false)
    (hnew : heardBefore x ps = false) :
    bodyTriggerAnnounce c ps x = if c.origin then .quiet (announce x ps).2.2
      else .reply (announce x ps).2.2 stOK (le 1 (satN 8 (announce x ps).1) ++ le 1 (satN 8 (announce x ps).2.1)) := by
  unfold heardBefore heardLately at hnew
  unfold bodyTriggerAnnounce
  dsimp only
  rw [checked_none (by rw [firstFail_need (by rw [h3, h11, hz]; rfl), firstFail_nil]), hnew]
  simp only [hown x rfl, hown (x.onCap _) rfl, Bool.or_false, Bool.false_eq_true, if_false]
  rfl

/-- Settles O38: the checks pass. -/
theorem captureCommandsComplete : Obligations.CaptureCommandsComplete := by
  refine ⟨?arm, ?later, fun id => ?now, ?host, fun pane => ?one, ?all, ?disarm, ?announced, ?heard, ?extract, ?measure⟩
  case arm =>
    refine completes_of (fun _ _ _ => rfl) (fun c ps x ⟨he, hop, hz, h8, h9, h23, h15, h19, hz23, hall, harm⟩ => ?_) (by decide) (by decide)
    have reserved : (bits (num ps 4 4) 8 15 == 0 && bits (num ps 8 4) 9 7 == 0 && bits (num ps 8 4) 23 9 == 0 && zeroAt ps 15 1 && zeroAt ps 19 1
        && zeroAt ps 23 1) = true := by
      rw [h8, h9, h23, h15, h19, hz23]
      rfl
    unfold bodyPaneOpen
    dsimp only
    rw [if_pos hop, checked_none]
    rw [List.append_assoc, List.append_assoc, List.cons_append, List.nil_append,
      firstFail_need (by rw [hz, decide_eq_true he, hop]; rfl), List.cons_append, List.nil_append, firstFail_need reserved, firstFail_append hall, firstFail_need (by rw [harm]; rfl), firstFail_nil]
  case later =>
    refine completes_of (fun _ _ _ => rfl) (fun c ps x ⟨he, hop, hz, hlt, hmax, harm, haddr, hs⟩ => ?_) (by decide) (by decide)
    have set : ¬ num ps 28 12 * 2 ^ 32 = 0 := by omega
    rw [paneOpen_trigger he hop hz (if_neg set) hmax harm haddr fun _ => hs, if_pos hlt]
  case now =>
    refine completes_of (fun _ _ _ => rfl) (fun c ps x ⟨he, hop, hz, hle, harm, haddr, hj⟩ => ?_) (by decide) (by decide)
    have time : (if num ps 28 12 * 2 ^ 32 = 0 then x.served else num ps 28 12 * 2 ^ 32)
        = if num ps 28 12 = 0 then x.served else num ps 28 12 * 2 ^ 32 :=
      ite_congr (propext (by rw [Nat.mul_eq_zero]; simp)) (fun _ => rfl) fun _ => rfl
    have past : num ps 28 12 * 2 ^ 32 ≤ x.served := by
      by_cases h : num ps 28 12 = 0
      · rw [h, Nat.zero_mul]
        exact Nat.zero_le _
      · rwa [if_neg h] at hle
    rw [paneOpen_trigger he hop hz time (Nat.le_trans past (Nat.le_add_right _ _)) harm haddr fun h => absurd h (Nat.not_lt.mpr hle),
      if_neg (Nat.not_lt.mpr hle)]
    rcases hj with hj | hj <;> rw [hj]
  case host =>
    refine completes_of (fun _ _ _ => rfl) (fun c ps x ⟨he, hop, hz, harm, haddr, hs⟩ => ?_) (by decide) (by decide)
    unfold bodyPaneOpen
    dsimp only
    rw [if_neg (by rw [hop]; decide), if_neg (by rw [hop]; decide), checked_none]
    rw [List.cons_append, List.nil_append, firstFail_need (by rw [hz, decide_eq_true he, hop]; rfl), firstFail_need (by rw [harm, haddr]; rfl),
      firstFail_need (decide_eq_true hs), firstFail_nil]
  case one =>
    refine completes_of (fun _ _ _ => rfl) (fun c ps x ⟨he, hop, hi, hf⟩ => ?_) (by decide) (by decide)
    unfold bodyPaneClose
    dsimp only
    rw [checked_none (by rw [firstFail_need (by rw [decide_eq_true he, hop]; rfl), firstFail_need (by rw [hi, Bool.or_true]), firstFail_nil]), if_pos hop, hf]
    rfl
  case all =>
    refine completes_of (fun _ _ _ => rfl) (fun c ps x ⟨he, hop⟩ => ?_) (by decide) (by decide)
    unfold bodyPaneClose
    dsimp only
    rw [checked_none (by rw [firstFail_need (by rw [decide_eq_true he, hop]; rfl), firstFail_need (by rw [hop]; rfl), firstFail_nil]),
      if_neg (by rw [hop]; decide), if_pos hop]
    rfl
  case disarm =>
    refine completes_of (fun _ _ _ => rfl) (fun c ps x ⟨he, hop⟩ => ?_) (by decide) (by decide)
    unfold bodyPaneClose
    dsimp only
    rw [checked_none (by rw [firstFail_need (by rw [decide_eq_true he, hop]; rfl), firstFail_need (by rw [hop]; rfl), firstFail_nil]),
      if_neg (by rw [hop]; decide), if_neg (by rw [hop]; decide)]
    rfl
  case announced =>
    refine completes_of (fun _ _ _ => rfl) (fun c ps x ⟨h3, h11, hz, ho, hnew⟩ => ?_) (by decide) (by decide)
    rw [triggerAnnounce_fires h3 h11 hz (fun _ _ => by rw [ho, Bool.and_false]) hnew, if_neg (by rw [ho]; exact Bool.false_ne_true)]
  case heard =>
    refine completes_unheard (fun _ _ _ => rfl) (fun c ps x ⟨_, _, _, ho, _⟩ => ho) (fun c ps x ⟨h3, h11, hz, ho, hnew, hown⟩ => ?_)
    rw [triggerAnnounce_fires h3 h11 hz (fun y hy => by rw [hy, beq_false_of_ne hown, Bool.false_and]) hnew, if_pos ho]
  case extract =>
    refine completes_long (fun _ _ _ => rfl) (fun c ps x ⟨h1, h512, hab, hend, h2, hz, hen⟩ => ?_)
    have span : num ps 4 12 * 2 ^ 32 < num ps 16 12 * 2 ^ 32 := Nat.mul_lt_mul_of_pos_right hab (Nat.two_pow_pos 32)
    refine checked_none ?_
    rw [firstFail_need (by rw [decide_eq_true h1, decide_eq_true h512]; rfl), firstFail_need (by rw [decide_eq_true span, decide_eq_true hend]; rfl),
      firstFail_need (by rw [decide_eq_true h2, hz]; rfl), firstFail_need hen, firstFail_nil]
  case measure =>
    refine completes_of (fun _ _ _ => rfl) (fun c ps x ⟨h1, h512, h24, h6⟩ => ?_) (by decide) (by decide)
    exact checked_none (by rw [firstFail_need (by rw [decide_eq_true h1, decide_eq_true h512, h24, h6]; rfl), firstFail_nil])

/-- Settles O39: what is due takes its branch. -/
theorem captureEventsComplete : Obligations.CaptureEventsComplete := by
  refine ⟨fun u => ?time, fun id p h => ?held, fun id p => ?cut, fun tag source e => ?formed, fun tag source e o => ?waiting, fun k => ?repart,
    fun e => ?arm, fun e => ?disarm⟩
  case time =>
    refine occurs_of (f := (State.timeFire · u)) (fun _ _ => rfl) (fun x ⟨hu, hp, hlast, hpow⟩ => ?_)
    unfold State.timeFire
    dsimp only
    have power : (x.power == 2 || x.power == 3) = true := by
      rcases hpow with h | h <;> rw [h] <;> rfl
    rw [Nat.max_eq_right (Nat.one_le_iff_ne_zero.mpr hp), if_pos (by rw [hu, bne_iff_ne.mpr hp, decide_eq_true hlast, power]; rfl)]
  case held =>
    refine occurs_of (f := (State.heldTime · id)) (fun _ _ => rfl) (fun x ⟨hf, hh, hle⟩ => ?_)
    unfold State.heldTime State.openHeld
    rw [hf]
    dsimp only
    rw [hh]
    exact if_pos hle
  case cut =>
    refine occurs_of (f := (State.paneCut · id)) (fun _ _ => rfl) (fun x ⟨hf, hh, hold⟩ => ?_)
    unfold State.paneCut
    rw [hf]
    exact if_pos (by rw [hh, hold]; rfl)
  case formed =>
    refine occurs_of (f := fun s => s.serveExtract tag source) (fun _ _ => rfl) (fun x ⟨hf, ho, hp, hr⟩ => ?_)
    unfold State.serveExtract
    dsimp only
    rw [hf]
    dsimp only
    rw [ho, if_neg (by rw [beq_false_of_ne hp, hr]; exact Bool.false_ne_true)]
  case waiting =>
    refine occurs_of (f := fun s => s.serveExtract tag source) (fun _ _ => rfl) (fun x ⟨hf, ho⟩ => ?_)
    unfold State.serveExtract
    dsimp only
    rw [hf]
    dsimp only
    rw [ho, if_neg (by exact Bool.false_ne_true)]
  case repart =>
    refine occurs_of (f := State.repartition) (fun _ _ => rfl) (fun x ⟨hr, hle⟩ => ?_)
    unfold State.repartition
    rw [hr]
    exact if_neg (Nat.not_lt.mpr hle)
  case arm =>
    refine occurs_of (f := (State.armWrite · e true)) (fun _ _ => rfl) (fun x ⟨ha, hall⟩ => ?_)
    have checks : (x.engArmed e || (firstFail (x.armChecks e (engineTemplate x e))).isSome) = false := by
      rw [ha, firstFail_of_forall hall]
      rfl
    unfold engineTemplate at checks ⊢
    unfold State.armWrite
    rw [if_pos rfl]
    refine if_neg ?_
    rw [checks]
    exact Bool.false_ne_true
  case disarm =>
    refine occurs_of (f := (State.armWrite · e false)) (fun _ _ => rfl) (fun x ha => ?_)
    exact if_pos ha

end Sys2Proof
end

section
/-!
PROOFS. The TIME block (05_time_base.md R147 to R178): its commands pass their checks, its events take their branch, and of the entries
up to a timed action the one that is due alone launches; obligations O40 and O41.
-/

namespace Sys2Proof

set_option Elab.async false

open Sys2Proof.Machine Sys2Proof.Machine.Reg Sys2Proof.Machine.Bits

/-- TIME_SCHEDULE arms the entry it is told to, or the lowest free one (R169, R176). -/
theorem timeSchedule_arms {c : Caller} {ps : List Byte} {x : State} {i : Nat} (hop : num ps 0 1 = 0) (hz : zeroAt ps 2 2 = true)
    (hi : (num ps 1 1 = 255 ∧ x.freeAction = some i) ∨ (num ps 1 1 = i ∧ i < 32 ∧ x.armed i = false)) (ha : bits (num ps 4 4) 24 4 < 8)
    (h28 : bits (num ps 4 4) 28 3 = 0) (h20 : bits (num ps 4 4) 20 2 = 0)
    (harg : bits (num ps 4 4) 24 4 = 1 ∨ bits (num ps 4 4) 24 4 = 2 → num ps 8 4 = 0)
    (hrange : bits (num ps 4 4) 24 4 = 3 ∨ bits (num ps 4 4) 24 4 = 7 → bits (num ps 4 4) 0 20 = 0)
    (htime : x.armTimeOk (num ps 12 12 / 256) = true) (htq : x.tq ≠ 3) :
    bodyTimeSchedule c ps x = .reply (x.armEntry i (word (num ps 4 4)) (num ps 8 4) (num ps 12 12 / 256)) stOK (le 4 i) := by
  have entry : (if num ps 1 1 = 255 then x.freeAction.getD 0 else num ps 1 1) = i := by
    rcases hi with ⟨h255, hfree⟩ | ⟨rfl, h32, -⟩
    · rw [if_pos h255, hfree]
      rfl
    · exact if_neg (by omega)
  have named : (decide (num ps 1 1 < 32) || num ps 1 1 == 255) = true := by
    rcases hi with ⟨h255, -⟩ | ⟨rfl, h32, -⟩
    · rw [h255]
      rfl
    · rw [decide_eq_true h32, Bool.true_or]
  have free : (num ps 1 1 == 255 || !x.armed (num ps 1 1)) = true := by
    rcases hi with ⟨h255, -⟩ | ⟨rfl, -, hfree⟩
    · rw [h255]
      rfl
    · rw [hfree]
      exact Bool.or_true _
  have found : (num ps 1 1 != 255 || x.freeAction.isSome) = true := by
    rcases hi with ⟨-, hfree⟩ | ⟨rfl, h32, -⟩
    · rw [hfree]
      exact Bool.or_true _
    · rw [bne_iff_ne.mpr (by omega), Bool.true_or]
  have params : (!((bits (num ps 4 4) 24 4 == 1 || bits (num ps 4 4) 24 4 == 2) && num ps 8 4 != 0)
      && !((bits (num ps 4 4) 24 4 == 3 || bits (num ps 4 4) 24 4 == 7) && bits (num ps 4 4) 0 20 != 0)) = true := by
    grind
  unfold bodyTimeSchedule
  simp only [hop]
  rw [entry, checked_none]
  rw [List.cons_append, List.nil_append, firstFail_need (by rw [hz]; rfl), firstFail_need named, firstFail_need (by rw [decide_eq_true ha, h28, h20]; rfl),
    firstFail_need params, firstFail_need htime, firstFail_need (bne_iff_ne.mpr htq), firstFail_need free, firstFail_need found, firstFail_nil]

/-- TIME_SCHEDULE cancels an entry that has not launched and does not launch now (R176). -/
theorem timeSchedule_cancels {c : Caller} {ps : List Byte} {x : State} (hop : num ps 0 1 = 1) (hz : zeroAt ps 2 2 = true) (hi : num ps 1 1 < 32) :
    bodyTimeSchedule c ps x = if x.actDue (num ps 1 1) || (!x.armed (num ps 1 1) && (x.act (num ps 1 1)).launched) then
        .reply x stDONE_BEFORE_ABORT (le 4 (num ps 1 1))
      else .reply (x.cancelEntry (num ps 1 1)) stOK (le 4 (num ps 1 1)) := by
  unfold bodyTimeSchedule
  simp only [hop]
  rw [checked_none]
  rw [List.cons_append, List.nil_append, firstFail_need (by rw [hz]; rfl), firstFail_need (decide_eq_true hi), firstFail_nil]

/-- Settles O40: the checks pass. -/
theorem timeCommandsComplete : Obligations.TimeCommandsComplete := by
  refine ⟨?read, ?config, ?select, fun i => ?arm, ?cancel, ?done, ?all, ?asym, ?status⟩
  case read => exact completes_of (fun _ _ _ => rfl) (fun _ _ _ _ => rfl) (by decide) (by decide)
  case config =>
    refine completes_of (fun _ _ _ => rfl) (fun c ps x ⟨hd, hz, hf, hz13, htod, hlimit, h24, hstep⟩ => ?_) (by decide) (by decide)
    have state : (!bit (num ps 12 1) 0 || x.domState (num ps 0 1) == 2 || x.domState (num ps 0 1) == 3) = true := by
      grind
    unfold bodyTimeDomainConfig
    dsimp only
    rw [checked_none]
    · rfl
    · rw [firstFail_need (by rw [decide_eq_true hd, hz, decide_eq_true hf, hz13, bne_iff_ne.mpr htod, bne_iff_ne.mpr hlimit, h24]; rfl),
        firstFail_need state, firstFail_nil]
  case select =>
    refine completes_of (fun _ _ _ => rfl) (fun c ps x ⟨h2, hp, hz, htq⟩ => ?_) (by decide) (by decide)
    refine checked_none ?_
    rw [firstFail_need (by rw [decide_eq_true h2, decide_eq_true hp, hz]; rfl), firstFail_need (by grind), firstFail_nil]
  case arm =>
    refine completes_of (fun _ _ _ => rfl) (fun c ps x ⟨hop, hz, hi, ha, h28, h20, harg, hrange, htime, htq⟩ => ?_) (by decide) (by decide)
    exact timeSchedule_arms hop hz hi ha h28 h20 harg hrange htime htq
  case cancel =>
    refine completes_of (fun _ _ _ => rfl) (fun c ps x ⟨hop, hz, hi, hdue, h⟩ => ?_) (by decide) (by decide)
    rw [timeSchedule_cancels hop hz hi, if_neg (by grind)]
  case done =>
    refine completes_of (fun _ _ _ => rfl) (fun c ps x ⟨hop, hz, hi, h⟩ => ?_) (by decide) (by decide)
    rw [timeSchedule_cancels hop hz hi, if_pos (by grind)]
  case all =>
    refine completes_of (fun _ _ _ => rfl) (fun c ps x ⟨hop, hz⟩ => ?_) (by decide) (by decide)
    unfold bodyTimeSchedule
    simp only [hop]
    rw [checked_none (by rw [firstFail_need (by rw [hz]; rfl), firstFail_nil])]
    rfl
  case asym =>
    refine completes_of (fun _ _ _ => rfl) (fun c ps x ⟨hp, hz, ha⟩ => ?_) (by decide) (by decide)
    exact checked_none (by rw [firstFail_need (by rw [decide_eq_true hp, hz, decide_eq_true ha]; rfl), firstFail_nil])
  case status => exact completes_of (fun _ _ _ => rfl) (fun _ _ _ _ => rfl) (by decide) (by decide)

/-- An entry that is not due does not launch. -/
theorem launchOne_idle {x : State} {j : Nat} (h : x.actDue j = false) : x.launchOne j = x :=
  if_pos (by rw [h]; rfl)

/-- Of the entries up to `i` the last alone launches where it alone is due. -/
theorem launch_alone {x : State} {i : Nat} (ha : x.armed i = true) (ht : (x.act i).time ≤ x.served40) (hj : ∀ j, j < i → x.actDue j = false) :
    x.launch i = x.launchOne i := by
  have before : ∀ k ≤ i, (List.range k).foldl (fun s j => s.launchOne j) x = x := by
    intro k
    induction k with
    | zero => exact fun _ => rfl
    | succ k ih =>
      intro hk
      rw [List.range_succ, List.foldl_append, ih (by omega)]
      exact launchOne_idle (hj k (by omega))
  unfold State.launch
  rw [if_pos (by rw [ha, decide_eq_true ht]; rfl), List.range_succ, List.foldl_append, before i (Nat.le_refl i)]
  rfl

/-- Bit 31 outlasts the mask of an action's control word. -/
theorem armed_masked {v : Nat} (h : bits v 31 1 = 1) : wfld (word (v &&& 0x8FCFFFFF)) TB_ACT_CTRL_ARMED = 1 := by
  have lt : v &&& 0x8FCFFFFF < 2 ^ 32 := Nat.lt_of_le_of_lt Nat.and_le_right (by decide)
  unfold wfld word
  rw [BitVec.toNat_ofNat, Nat.mod_eq_of_lt lt]
  show bits (v &&& 0x8FCFFFFF) 31 1 = 1
  unfold bits at h ⊢
  rw [Nat.and_div_two_pow, show 0x8FCFFFFF / 2 ^ 31 = 1 from rfl, Nat.and_one_is_mod, Nat.mod_mod_of_dvd _ (by decide)]
  exact h

/-- Settles O41: what is due takes its branch. -/
theorem timeEventsComplete : Obligations.TimeEventsComplete := by
  refine ⟨fun span => ?second, ?boundary, fun p seq st => ?block, fun p c => ?cell, fun d => ?holdLink, fun d e => ?holdPps, fun d falling st => ?pps,
    fun d falling => ?ppsFull, fun n bytes start => ?tod, fun p d hi => ?incr, fun d => ?go, fun d => ?refused, fun i => ?launch, fun i st => ?failed,
    fun i => ?discarded, fun i w => ?arm, fun i => ?cancel⟩
  case second =>
    refine occurs_of (f := (State.crystalSecond · span)) (fun _ _ => rfl) (fun x h => ?_)
    exact if_neg (Nat.not_le.mpr h)
  case boundary =>
    refine occurs_of (f := State.boundary) (fun _ _ => rfl) (fun x h => ?_)
    exact if_neg (Nat.not_le.mpr h)
  case block =>
    refine occurs_of (f := (State.timeBlock · p seq)) (fun _ _ => rfl) (fun x ⟨hup, hst⟩ => ?_)
    unfold State.timeBlock
    dsimp only
    rw [if_neg (by rw [hup]; decide), hst]
  case cell =>
    refine occurs_of (f := (State.timeCell · p c)) (fun _ _ => rfl) (fun x ⟨hcrc, hup⟩ => ?_)
    exact if_neg (by rw [hcrc, hup]; decide)
  case holdLink =>
    refine occurs_of (f := (State.holdover · d)) (fun _ _ => rfl) (fun x ⟨hs, hr, hg, hc, hb⟩ => ?_)
    unfold State.holdover
    dsimp only
    rw [if_neg]
    rw [hg, hc, decide_eq_true hb, hs, hr]
    exact Bool.false_ne_true
  case holdPps =>
    refine occurs_of (f := (State.holdover · d)) (fun _ _ => rfl) (fun x ⟨hs, hr, hg, he, hb⟩ => ?_)
    unfold State.holdover
    dsimp only
    rw [if_neg]
    simp only [hg, he, if_true]
    rw [decide_eq_true hb, hs, hr]
    decide
  case pps =>
    refine occurs_of (f := (State.ppsEdge · d falling)) (fun _ _ => rfl) (fun x ⟨hg, hf, hst, hr⟩ => ?_)
    unfold State.ppsEdge
    dsimp only
    rw [if_neg (by rw [hg, hf]; simp), hst]
    exact if_neg (by rw [hr]; decide)
  case ppsFull =>
    refine occurs_of (f := (State.ppsEdge · d falling)) (fun _ _ => rfl) (fun x ⟨hg, hf, hst⟩ => ?_)
    unfold State.ppsEdge
    dsimp only
    rw [if_neg (by rw [hg, hf]; simp), hst]
  case tod =>
    refine occurs_of (f := fun s => s.todMessage n bytes start) (fun _ _ => rfl) (fun x ⟨hm, hf, hr⟩ => ?_)
    exact if_neg (by rw [hm, hf, hr]; decide)
  case incr =>
    refine occurs_of (f := fun s => s.incrWrite p d hi) (fun _ _ => rfl) (fun x h => ?_)
    exact if_pos h
  case go =>
    refine occurs_of (f := (State.anchorGo · d)) (fun _ _ => rfl) (fun x h => ?_)
    exact if_pos h
  case refused =>
    refine occurs_of (f := (State.anchorGo · d)) (fun _ _ => rfl) (fun x ⟨hs, hr⟩ => ?_)
    exact if_neg (not_or.mpr ⟨hs, by rw [hr]; exact Bool.false_ne_true⟩)
  case launch =>
    refine occurs_of (f := (State.launch · i)) (fun _ _ => rfl) (fun x ⟨ha, ht, hdue, hj, hs, hc⟩ => ?_)
    rw [launch_alone ha ht hj]
    unfold State.launchOne
    dsimp only
    rw [if_neg (by rw [hdue]; decide), if_neg (by rw [hs]; decide), hc]
  case failed =>
    refine occurs_of (f := (State.launch · i)) (fun _ _ => rfl) (fun x ⟨ha, ht, hdue, hj, hs, hc⟩ => ?_)
    rw [launch_alone ha ht hj]
    unfold State.launchOne
    dsimp only
    rw [if_neg (by rw [hdue]; decide), if_neg (by rw [hs]; decide), hc]
  case discarded =>
    refine occurs_of (f := (State.launch · i)) (fun _ _ => rfl) (fun x ⟨ha, ht, hdue, hj, hs⟩ => ?_)
    rw [launch_alone ha ht hj]
    unfold State.launchOne
    dsimp only
    rw [if_neg (by rw [hdue]; decide), if_pos (by rw [hs]; rfl)]
  case arm =>
    refine occurs_of (f := fun s => s.armWriteEntry i (setBits w TB_ACT_CTRL_ARMED 1)) (fun _ _ => rfl) (fun x ⟨ha, h8, ht, htq⟩ => ?_)
    have action : ¬ wfld (setBits w TB_ACT_CTRL_ARMED 1) TB_ACT_CTRL_ACTION ≥ 8 := by
      rw [wfld_setBits_ne _ _ _ _ (by decide) (by decide)]
      omega
    have armed : wfld (word ((setBits w TB_ACT_CTRL_ARMED 1).toNat &&& 0x8FCFFFFF)) TB_ACT_CTRL_ARMED = 1 :=
      armed_masked (wfld_setBits_self w TB_ACT_CTRL_ARMED 1 (by decide))
    unfold State.armWriteEntry
    dsimp only
    rw [if_neg (by rw [ha]; decide), if_neg action]
    exact if_pos ⟨armed, ht, htq⟩
  case cancel =>
    refine occurs_of (f := (State.cancelWrite · i)) (fun _ _ => rfl) (fun x ⟨ha, hdue⟩ => ?_)
    unfold State.cancelWrite State.cancelEntry
    rw [if_neg (by rw [hdue]; decide), if_pos ha]

end Sys2Proof
end

section
/-!
PROOFS. The TIU block (06_interval_unit.md R182 to R200): its commands pass their checks; an edge that comes alone is judged against no
other, so it is stamped or missed by itself; obligations O42 and O43.
-/

namespace Sys2Proof

set_option Elab.async false

open Sys2Proof.Machine Sys2Proof.Machine.Reg Sys2Proof.Machine.Bits

/-- Served time is read from the time base, the present instant and the increments. -/
theorem servedAt_congr {s u : State} (htb : u.tb = s.tb) (hincr : ∀ d, u.incr d = s.incr d) (f : Nat) : u.servedAt f = s.servedAt f := by
  have map (d : Nat) : u.mapAt d f = s.mapAt d f := by
    unfold State.mapAt State.dom
    rw [htb, hincr]
  unfold State.servedAt State.servedMap State.domTime
  rw [htb]
  simp only [map]

theorem st_congr {s u : State} (htb : u.tb = s.tb) (hnow : u.now = s.now) (hincr : ∀ d, u.incr d = s.incr d) : u.st = s.st := by
  unfold State.st State.served
  rw [hnow, servedAt_congr htb hincr]

/-- A field that is set in a register other than an increment leaves the increments. -/
theorem incr_setFld {s : State} {a : Nat} {f : Fld} {v : Nat} (hf : f.lo + f.width ≤ 32) (ha : ∀ d, TB_INCR d ≠ a ∧ TB_INCR d + 4 ≠ a) (d : Nat) :
    (s.setFld a f v).incr d = s.incr d := by
  unfold State.incr State.rd64
  rw [State.rd_setFld_ne _ _ _ hf (ha d).1, State.rd_setFld_ne _ _ _ hf (ha d).2]

/-- Settles O42: the checks pass. -/
theorem timeIntervalCommandsComplete : Obligations.TimeIntervalCommandsComplete := by
  refine ⟨?route, fun loops => ?measure, ?stamps, ?trigger⟩
  case route =>
    refine completes_of (fun _ _ _ => rfl) (fun c ps x ⟨hz, hall⟩ => ?_) (by decide) (by decide)
    unfold bodyTiuRoute
    dsimp only
    rw [checked_none (by rw [firstFail_append hall, firstFail_need hz, firstFail_nil])]
    split <;> rfl
  case measure =>
    refine completes_long (fun _ _ _ => rfl) (fun c ps x ⟨h512, h1, h8, hbay, hf, h10, h60000, h2000, hmax, hlt, hmode, hdrive, hgate, hfree⟩ => ?_)
    have em : (!bit (num ps 3 1) 0 || x.fld (AFE_BAY_EXC (num ps 0 2 / 8)) AFE_BAY_EXC_EMODE == 2
        || x.fld (AFE_BAY_EXC (num ps 0 2 / 8)) AFE_BAY_EXC_EMODE == 3) = true := by
      grind
    refine checked_none ?_
    rw [firstFail_need (by rw [decide_eq_true h512, decide_eq_true h1, decide_eq_true h8, hbay, decide_eq_true hf]; simp),
      firstFail_need (by rw [decide_eq_true h10, decide_eq_true h60000, decide_eq_true h2000, decide_eq_true hmax, decide_eq_true hlt]; rfl),
      firstFail_need hmode, firstFail_need em, firstFail_need (by rw [hgate]; rfl), firstFail_need (decide_eq_true hfree), firstFail_nil]
  case stamps =>
    refine completes_of (fun _ _ _ => rfl) (fun c ps x ⟨h1, h64, hz⟩ => ?_) (by decide) (by decide)
    exact checked_none (by rw [firstFail_need (by rw [decide_eq_true h1, decide_eq_true h64, hz]; rfl), firstFail_nil])
  case trigger =>
    refine completes_of (fun _ _ _ => rfl) (fun c ps x ⟨hu, hz, h10, hall⟩ => ?_) (by decide) (by decide)
    unfold bodyTriggerConfig
    refine checked_none ?_
    rw [List.cons_append, List.nil_append, firstFail_need (by rw [decide_eq_true hu, hz, h10]; rfl), firstFail_of_forall hall]

/-- What becomes of an edge of source `n` in a state in which it is to be stamped now (R184, R190). -/
def stampNow (s : State) (n : Nat) (falling : Bool) : State :=
  match (s.stampEdge n falling s.now).1 with
  | none => (s.stampEdge n falling s.now).2
  | some st => (s.stampEdge n falling s.now).2.deliverStamp st

/-- An edge that no core serves is missed on its own core (R184). -/
theorem stampNow_unserved {s : State} {n : Nat} (falling : Bool) (h : s.servingCore n = none) : stampNow s n falling = s.missEdge (s.srcCore n) := by
  unfold stampNow State.stampEdge
  simp only [h]

/-- An edge alone is stamped where a gate or its consumer wants it (R186, R193). -/
theorem edgeStamp_alone {s : State} {n : Nat} {falling : Bool} (ht : s.takesEdge n falling = true) :
    s.edgeStamp n falling [] = if s.srcUser n = 3 then
        if (s.gateEdge n falling).1 then stampNow (s.gateEdge n falling).2 n falling else (s.gateEdge n falling).2
      else stampNow s n falling := by
  have single (y : State) : [(n, falling, 0)].foldl (fun (s : State) (e : Nat × Bool × Nat) =>
      match s.servingCore e.1 with
      | some v =>
        if [(n, falling, 0)].any (fun (x : Nat × Bool × Nat) => s.servingCore x.1 == s.servingCore e.1
            && (decide (x.1 < e.1) || (x.1 == e.1 && decide (x.2.2 < e.2.2)))) then s.missEdge v
        else match (s.stampEdge e.1 e.2.1 (s.now + e.2.2)).1 with
          | none => (s.stampEdge e.1 e.2.1 (s.now + e.2.2)).2
          | some st => (s.stampEdge e.1 e.2.1 (s.now + e.2.2)).2.deliverStamp st
      | none => s.missEdge (s.srcCore e.1)) y = stampNow y n falling := by
    rw [List.foldl_cons, List.foldl_nil]
    cases h : y.servingCore n with
    | none => exact (stampNow_unserved falling h).symm
    | some v =>
      simp only [List.any_cons, List.any_nil, Nat.lt_irrefl, decide_false, Bool.and_false, Bool.or_false, Bool.false_eq_true, if_false, Nat.add_zero]
      rfl
  have offer : s.offerEdge n falling = if s.srcUser n = 3 then s.gateEdge n falling else (true, s) := by
    unfold State.offerEdge
    rw [ht]
    rfl
  unfold State.edgeStamp
  dsimp only
  rw [List.filter_nil, List.map_nil, List.foldl_cons, List.foldl_nil]
  dsimp only
  rw [offer]
  by_cases hu : s.srcUser n = 3
  · rw [if_pos hu, if_pos hu]
    by_cases hg : (s.gateEdge n falling).1 = true
    · rw [if_pos hg, if_pos hg]
      exact single _
    · rw [if_neg hg, if_neg hg]
      rfl
  · rw [if_neg hu, if_neg hu]
    exact single _

/-- The loss of a loop's lock leaves served time. -/
theorem loopLost_st {s : State} {v : Nat} {f : Fld} {g : CoreState → CoreState} (hf : f.lo + f.width ≤ 32) :
    ((s.setFld (TIU_CORE_STAT v) f 0).onCore v g).st = s.st := by
  have core : ((s.setFld (TIU_CORE_STAT v) f 0).onCore v g).st = (s.setFld (TIU_CORE_STAT v) f 0).st := rfl
  rw [core]
  refine st_congr (State.setFld_tb _ _ _ _) (State.setFld_now _ _ _ _) (incr_setFld hf fun d => ?_)
  unfold TB_INCR TIU_CORE_STAT
  omega

/-- Settles O43: what is due takes its branch. -/
theorem timeIntervalEventsComplete : Obligations.TimeIntervalEventsComplete := by
  refine ⟨fun n falling => ?missed, fun n falling st => ?host, fun n falling st => ?cap, fun n falling st => ?gate, fun n falling => ?skipped,
    fun v => ?slow, fun v => ?fast, fun v => ?relock, fun b g => ?opens, fun b g a => ?closes⟩
  case missed =>
    refine occurs_of (f := fun s => s.edgeStamp n falling []) (fun _ _ => rfl) (fun x ⟨ht, hu, hs⟩ => ?_)
    rw [edgeStamp_alone ht, if_neg hu]
    unfold stampNow
    rw [hs]
  case host =>
    refine occurs_of (f := fun s => s.edgeStamp n falling []) (fun _ _ => rfl) (fun x ⟨ht, hu, hs, hd⟩ => ?_)
    rw [edgeStamp_alone ht, if_neg hu]
    unfold stampNow State.deliverStamp
    rw [hs]
    simp only [hd]
  case cap =>
    refine occurs_of (f := fun s => s.edgeStamp n falling []) (fun _ _ => rfl) (fun x ⟨ht, hu, hs, hd⟩ => ?_)
    rw [edgeStamp_alone ht, if_neg hu]
    unfold stampNow State.deliverStamp
    rw [hs]
    simp only [hd]
  case gate =>
    refine occurs_of (f := fun s => s.edgeStamp n falling []) (fun _ _ => rfl) (fun x ⟨ht, hu, hg, hs, hd⟩ => ?_)
    rw [edgeStamp_alone ht, if_pos hu, if_pos hg]
    unfold stampNow State.deliverStamp
    rw [hs]
    simp only [hd]
  case skipped =>
    refine occurs_of (f := fun s => s.edgeStamp n falling []) (fun _ _ => rfl) (fun x ⟨ht, hu, hg⟩ => ?_)
    rw [edgeStamp_alone ht, if_pos hu, if_neg (by rw [hg]; exact Bool.false_ne_true)]
  case slow =>
    refine occurs_of (f := (State.loopUnlock · v true)) (fun _ _ => rfl) (fun x _ => ?_)
    unfold State.loopUnlock
    simp only [if_true, loopLost_st (f := TIU_CORE_STAT_LOCK_S) (by decide), State.setFld_now, b2n]
  case fast =>
    refine occurs_of (f := (State.loopUnlock · v false)) (fun _ _ => rfl) (fun x _ => ?_)
    unfold State.loopUnlock
    simp only [Bool.false_eq_true, if_false, loopLost_st (f := TIU_CORE_STAT_LOCK_F) (by decide), State.setFld_now, b2n]
  case relock => exact occurs_of (f := (State.loopRelock · v)) (fun _ _ => rfl) (fun _ _ => rfl)
  case opens =>
    refine occurs_of (f := (State.gateOpen · b)) (fun _ _ => rfl) (fun x ⟨hf, ho, hd⟩ => ?_)
    unfold State.gateOpen
    rw [hf]
    exact if_neg (by rw [ho, decide_eq_false (Nat.not_lt.mpr hd)]; decide)
  case closes =>
    refine occurs_of (f := (State.gateClose · b)) (fun _ _ => rfl) (fun x ⟨hf, ho, hp, hnow⟩ => ?_)
    unfold State.gateClose
    rw [hf]
    dsimp only
    rw [ho]
    exact if_neg (by rw [hp, decide_eq_false (Nat.not_lt.mpr hnow)]; decide)

end Sys2Proof
end

section
/-!
PROOFS. The FLD block (08_field_ports_and_outputs.md R247 to R269): its commands pass their checks, and its events take their branch;
obligations O44 and O45.
-/

namespace Sys2Proof

set_option Elab.async false

open Sys2Proof.Machine Sys2Proof.Machine.Reg Sys2Proof.Machine.Bits

/-- Settles O44: the checks pass. -/
theorem fieldCommandsComplete : Obligations.FieldCommandsComplete := by
  refine ⟨?port, ?decoder, ?trip, ?fout, ?reset⟩
  case port =>
    refine completes_of (fun _ _ _ => rfl) (fun c ps x ⟨hn, hz, hall⟩ => ?_) (by decide) (by decide)
    unfold bodyFieldPortConfig
    refine checked_none ?_
    rw [List.cons_append, List.nil_append, firstFail_need (by rw [decide_eq_true hn, hz]; rfl), firstFail_of_forall hall]
  case decoder =>
    refine completes_of (fun _ _ _ => rfl) (fun c ps x ⟨hd, hz, h11, h22, h8, hall⟩ => ?_) (by decide) (by decide)
    unfold bodyFieldDecoderConfig
    refine checked_none ?_
    rw [List.cons_append, List.nil_append, firstFail_need (by rw [decide_eq_true hd, hz, h11, h22, h8]; rfl), firstFail_of_forall hall]
  case trip =>
    refine completes_of (fun _ _ _ => rfl) (fun c ps x ⟨ho, hz, h10, hlock, hall⟩ => ?_) (by decide) (by decide)
    unfold bodyTripConfig
    refine checked_none ?_
    rw [List.cons_append, List.cons_append, List.nil_append, firstFail_need (by rw [decide_eq_true ho, hz, h10]; rfl), firstFail_need (by rw [hlock]; rfl),
      firstFail_of_forall hall]
  case fout =>
    refine completes_of (fun _ _ _ => rfl) (fun c ps x ⟨ho, hz, h10, hall⟩ => ?_) (by decide) (by decide)
    unfold bodyFoutConfig
    refine checked_none ?_
    rw [List.cons_append, List.nil_append, firstFail_need (by rw [decide_eq_true ho, hz, h10]; rfl), firstFail_of_forall hall]
  case reset =>
    refine completes_of (fun _ _ _ => rfl) (fun c ps x hz => ?_) (by decide) (by decide)
    exact checked_none (by rw [firstFail_need hz, firstFail_nil])

@[simp] theorem State.fport_onFport (s : State) (n : Nat) (f : FPort → FPort) : (s.onFport n f).fport n = f (s.fport n) :=
  Tab.get_set_self _ _ _ _

/-- A poll that is due starts a transaction, or finds the port busy (R248, R250). -/
theorem fieldPoll_due {x : State} {n : Nat} (hp : x.fld (FLD_PORT_TIMING n) FLD_PORT_TIMING_POLL ≠ 0) (hm : x.fpMode n ≠ 0) (hr : x.fldRuns = true)
    (hk : (x.fport n).lastPoll < periodOf (x.fld (FLD_PORT_TIMING n) FLD_PORT_TIMING_POLL) x.served) :
    x.fieldPoll n =
      let cfg := x.rd (FLD_PORT_CFG n)
      let timing := x.rd (FLD_PORT_TIMING n)
      let y := x.onFport n fun z => { z with lastPoll := periodOf (wfld timing FLD_PORT_TIMING_POLL) x.served }
      if x.fpBusy n then y.frameError n 3
      else y.onFport n fun z => { z with
        xfer := some ⟨x.now, x.now + xferLen cfg timing, cfg, timing,
          if x.fpMode n = 3 then [] else le (min 4 (wfld cfg FLD_PORT_CFG_TX_LEN)) (x.rd (FLD_PORT_TX n)).toNat⟩,
        taken := false } := by
  rw [State.fld_eq _ _ _ (by decide)] at hp hk
  unfold State.fieldPoll
  dsimp only
  rw [Nat.max_eq_right (Nat.one_le_iff_ne_zero.mpr hp),
    if_neg (by rw [decide_eq_false hp, beq_false_of_ne hm, hr, decide_eq_false (Nat.not_le.mpr hk)]; decide)]
  rfl

/-- Settles O45: what is due takes its branch. -/
theorem fieldEventsComplete : Obligations.FieldEventsComplete := by
  refine ⟨fun n => ?poll, fun n => ?busy, fun n chars cfg start bytes => ?frame, fun n chars cfg start bytes => ?error, fun o => ?stale, fun o => ?minOn,
    fun o => ?reset, ?lock⟩
  case poll =>
    refine occurs_of (f := (State.fieldPoll · n)) (fun _ _ => rfl) (fun x ⟨hp, hm, hr, hk, hb⟩ => ?_)
    rw [fieldPoll_due hp hm hr hk]
    dsimp only
    rw [if_neg (by rw [hb]; exact Bool.false_ne_true)]
  case busy =>
    refine occurs_of (f := (State.fieldPoll · n)) (fun _ _ => rfl) (fun x ⟨hp, hm, hr, hk, hb⟩ => ?_)
    rw [fieldPoll_due hp hm hr hk]
    dsimp only
    rw [if_pos hb, State.fld_eq _ _ _ (by decide)]
  case frame =>
    refine occurs_of (f := fun s => s.frameIn n chars false) (fun _ _ => rfl) (fun x ⟨hr, hf, hfrom, hlen, hcheck⟩ => ?_)
    unfold State.frameIn
    rw [if_neg (by rw [hr]; decide), hf]
    dsimp only
    rw [State.fport_onFport, if_neg (Nat.not_lt.mpr hfrom), if_neg (by exact Bool.false_ne_true), if_neg (Nat.not_lt.mpr hlen),
      if_neg (by rw [hcheck]; decide)]
  case error =>
    refine occurs_of (f := fun s => s.frameIn n chars true) (fun _ _ => rfl) (fun x ⟨hr, hf, hfrom, hmode⟩ => ?_)
    unfold State.frameIn
    rw [if_neg (by rw [hr]; decide), hf]
    dsimp only
    rw [State.fport_onFport, if_neg (Nat.not_lt.mpr hfrom), if_pos (by rw [hmode]; rfl)]
  case stale =>
    refine occurs_of (f := (State.tripStale · o)) (fun _ _ => rfl) (fun x ⟨hs, hr, he, hnow⟩ => ?_)
    exact if_neg (by rw [decide_eq_false hs, hr, he, decide_eq_false (Nat.not_lt.mpr hnow)]; decide)
  case minOn =>
    refine occurs_of (f := (State.tripMinOn · o)) (fun _ _ => rfl) (fun x ⟨hend, hp⟩ => ?_)
    unfold State.tripMinOn
    dsimp only
    rw [if_neg (Nat.not_lt.mpr hend), if_neg (by rw [hp]; exact Bool.false_ne_true)]
  case reset =>
    refine occurs_of (f := (State.tripMinOn · o)) (fun _ _ => rfl) (fun x ⟨hend, hp⟩ => ?_)
    unfold State.tripMinOn
    dsimp only
    rw [if_neg (Nat.not_lt.mpr hend), if_pos hp]
  case lock => exact occurs_of (f := State.lockTrips) (fun _ _ => rfl) (fun _ _ => rfl)

end Sys2Proof
end

section
/-!
PROOFS. The queues and the compression engine (09_queues_and_retention.md R274 to R299; 10_compression.md R304 to R322): the commands pass
their checks, and the events take their branch; obligations O46, O47 and O48.
-/

namespace Sys2Proof

set_option Elab.async false

open Sys2Proof.Machine Sys2Proof.Machine.Reg Sys2Proof.Machine.Bits

/-- A RELEASE whose checks pass frees what its entries name, and replies where REPLY is set (R281, R297). -/
theorem release_checked {c : Caller} {ps : List Byte} {x : State} (h1 : 1 ≤ num ps 0 2) (h170 : num ps 0 2 ≤ 170) (h2 : num ps 2 1 < 2)
    (hz : zeroAt ps 3 1 = true) (hall : (allIn 0 (num ps 0 2) fun i => zeroAt ps (10 + 24 * i) 2) = true) :
    bodyRelease c ps x =
      if bit (num ps 2 1) 0 then .reply (releaseAll c x (releaseEntries ps)).2.2.retNormal stOK
        (le 4 (releaseAll c x (releaseEntries ps)).1 ++ le 2 (releaseAll c x (releaseEntries ps)).2.1)
      else .quiet (releaseAll c x (releaseEntries ps)).2.2.retNormal :=
  checked_none (by rw [firstFail_need (by rw [decide_eq_true h1, decide_eq_true h170, decide_eq_true h2, hz]; rfl), firstFail_need hall, firstFail_nil])

/-- Settles O46: the checks pass. -/
theorem queueCommandsComplete : Obligations.QueueCommandsComplete := by
  refine ⟨?config, ?status, ?retention, fun i => ?shutter, ?opened, ?released, ?silent⟩
  case config =>
    refine completes_of (fun _ _ _ => rfl) (fun c ps x ⟨hq, hz, hall⟩ => ?_) (by decide) (by decide)
    exact checked_none (by rw [firstFail_need (by rw [decide_eq_true hq, hz]; rfl), firstFail_of_forall hall])
  case status =>
    refine completes_of (fun _ _ _ => rfl) (fun c ps x ⟨h1, h64, hsum, hf, hz⟩ => ?_) (by decide) (by decide)
    exact checked_none (by
      rw [firstFail_need (by rw [decide_eq_true h1, decide_eq_true h64, decide_eq_true hsum, decide_eq_true hf, hz]; rfl), firstFail_nil])
  case retention =>
    refine completes_of (fun _ _ _ => rfl) (fun c ps x ⟨hr, h24, hc, h16⟩ => ?_) (by decide) (by decide)
    exact checked_none (by rw [firstFail_need (by rw [hr, h24, hc, h16]; rfl), firstFail_nil])
  case shutter =>
    refine completes_of (fun _ _ _ => rfl) (fun c ps x ⟨hid, h8, hcls, h3, h14, hhub, h2048, hch, h1024, hty, h512, hdur, hi⟩ => ?_) (by decide) (by decide)
    unfold bodyShutter
    dsimp only
    rw [checked_none (by
      rw [firstFail_need (by rw [bne_iff_ne.mpr hid, decide_eq_true h8, bne_iff_ne.mpr hcls, h3, h14]; rfl),
        firstFail_need (by rw [decide_eq_true hhub, decide_eq_true h2048, decide_eq_true hch, decide_eq_true h1024]; rfl),
        firstFail_need (by rw [bne_iff_ne.mpr hty, decide_eq_true h512, decide_eq_true hdur]; rfl), firstFail_need (by rw [hi]; rfl), firstFail_nil]), hi]
    rfl
  case opened =>
    refine completes_of (fun _ _ _ => rfl) (fun c ps x hz => ?_) (by decide) (by decide)
    exact checked_none (by rw [firstFail_need hz, firstFail_nil])
  case released =>
    refine completes_of (fun _ _ _ => rfl) (fun c ps x ⟨h1, h170, h2, hz, hall⟩ => ?_) (by decide) (by decide)
    rw [release_checked h1 h170 (by omega) hz hall, h2]
    exact if_pos (by decide)
  case silent =>
    refine completes_silent (fun _ _ _ => rfl) (fun c ps x ⟨h1, h170, h2, hz, hall⟩ => ?_) (by decide)
    rw [release_checked h1 h170 (by omega) hz hall, h2]
    exact if_neg (by decide)

/-- A record in retention that is wanted and has its turn is read back, or is lost (R285, R315). -/
theorem retentionReturn_turn {x : State} {r : Rec} (hfirst : (x.qm.recs.find? fun r => x.wanted r) = some r)
    (hfind : (x.qm.recs.find? fun y => y.id == r.id && x.wanted y) = some r) (hp : x.power ≠ 1) (hroom : r.cells ≤ x.room 53) :
    x.retentionReturn r.id =
      let rd := x.memReadRange 0 (x.retentionBase r.id) (32 + (pad4 r.kept).length) 3
      if !rd.1 then rd.2.dropRec r 3
      else
        let d := match r.spilled with
          | none => (none, r.payload)
          | some f => ((decodeStream f).err, elementBytes (decodeStream f).width (decodeStream f).elems)
        match d.1 with
        | some e => (rd.2.decodeError 0 (r.addr % 2 ^ 21) e).dropRec r 3
        | none =>
          let s := rd.2.wroteCells r.id r.cells
          (s.onRec r.id fun x => { x with place := .queued, payload := d.2, spilled := none, exts := [], popped := 0, agedFrom := s.now,
                                          aq := 53, inAsm := x.cells, entered := 0 }).pmc 0x806 0 r.cells := by
  unfold State.retentionReturn
  rw [hfirst, hfind]
  exact if_neg (by rw [bne_self_eq_false, beq_false_of_ne hp, decide_eq_false (Nat.not_lt.mpr hroom)]; exact Bool.false_ne_true)

/-- Settles O47: what is due takes its branch. -/
theorem queueEventsComplete : Obligations.QueueEventsComplete := by
  refine ⟨fun q => ?push, fun rid r => ?spill, fun rid r => ?plain, fun rid r f => ?coded, fun rid r => ?lost, fun q => ?late, fun q c => ?apply,
    fun i => ?expiry, fun r => ?close⟩
  case push => exact occurs_of (f := (State.resume · q)) (fun _ _ => rfl) (fun _ _ => rfl)
  case spill =>
    refine occurs_of (f := (State.spill · rid)) (fun _ _ => rfl) (fun x ⟨hfind, hdue⟩ => ?_)
    unfold State.spill
    rw [hfind]
    exact if_pos hdue
  case plain =>
    refine occurs_of (f := (State.retentionReturn · rid)) (fun _ _ => rfl) (fun x ⟨hfirst, hfind, hid, hp, hroom, hplain, hread⟩ => ?_)
    subst hid
    rw [retentionReturn_turn hfirst hfind hp hroom]
    dsimp only
    rw [if_neg (by rw [hread]; decide), hplain]
  case coded =>
    refine occurs_of (f := (State.retentionReturn · rid)) (fun _ _ => rfl) (fun x ⟨hfirst, hfind, hid, hp, hroom, hcoded, herr, hread⟩ => ?_)
    subst hid
    rw [retentionReturn_turn hfirst hfind hp hroom]
    dsimp only
    rw [if_neg (by rw [hread]; decide), hcoded]
    dsimp only
    rw [herr]
  case lost =>
    refine occurs_of (f := (State.retentionReturn · rid)) (fun _ _ => rfl) (fun x ⟨hfirst, hfind, hid, hp, hroom, hread⟩ => ?_)
    subst hid
    rw [retentionReturn_turn hfirst hfind hp hroom]
    exact if_pos (by rw [hread]; decide)
  case late => exact occurs_of (f := (State.relTimeout · q)) (fun _ _ => rfl) (fun x hlate => if_pos hlate)
  case apply =>
    refine occurs_of (f := (State.rewindNow · q)) (fun _ _ => rfl) (fun x ⟨hc, hs⟩ => ?_)
    unfold State.rewindNow
    rw [hc]
    exact if_neg (by rw [hs]; decide)
  case expiry =>
    refine occurs_of (f := (State.shutExpire · i)) (fun _ _ => rfl) (fun x ⟨ha, hset, hend⟩ => ?_)
    exact if_pos (by rw [ha, bne_iff_ne.mpr hset, decide_eq_true hend]; rfl)
  case close =>
    refine occurs_of (f := State.evClose) (fun _ _ => rfl) (fun x ⟨hr, hend⟩ => ?_)
    unfold State.evClose
    rw [hr]
    exact if_pos hend

theorem State.onCmp_congr {x : State} {f g : Cmp → Cmp} (h : f x.cmp = g x.cmp) : x.onCmp f = x.onCmp g := by
  unfold State.onCmp
  rw [h]

/-- The checks of a CMP_FLUSH pass (R322). -/
theorem cmpFlush_checked {c : Caller} {ps : List Byte} {x : State} (hm : num ps 0 1 < 16) (hf : num ps 1 1 < 2) (hz : zeroAt ps 2 2 = true) :
    bodyCmpFlush c ps x =
      let r := flushAll x (num ps 0 1)
      if bit (num ps 1 1) 0 && !r.2.inEngine.isEmpty then .quiet (r.2.onCmp fun m => { m with drains := m.drains ++ [⟨r.2.inEngine, r.1, c⟩] })
      else .reply r.2 stOK (le 1 r.1) :=
  checked_none (by rw [firstFail_need (by rw [decide_eq_true hm, decide_eq_true hf, hz]; rfl), firstFail_nil])

/-- A check of one operation alone holds where the operation is that one and the check holds, or is another one. -/
theorem unless_op {op n : Nat} {c : Bool} (h : op = n → c = true) : (op != n || c) = true := by
  by_cases e : op = n
  · rw [h e, Bool.or_true]
  · rw [bne_iff_ne.mpr e, Bool.true_or]

/-- The check of a compress job's segment: a slot, a width of elements, and whole elements (R317). -/
theorem segment_ok {k w len : Nat} (hk : k < 4) (hw : w = 1 ∨ w = 3 ∨ w = 4) (hlen : len % w = 0) :
    (decide (k < 4) && (w == 1 || w == 3 || w == 4) && len % max 1 w == 0) = true := by
  rcases hw with rfl | rfl | rfl <;> simp [hk, hlen]

/-- The check of a decompress job's room: a stream too short to tell its length, an open one, or one that fits (R317). -/
theorem room_ok {len orig room : Nat} (h : len < 8 ∨ orig = 0xFFFFFFFF ∨ orig ≤ room) :
    (decide (len < 8) || (orig == 0xFFFFFFFF || decide (orig ≤ room))) = true := by
  simpa only [Bool.or_eq_true, decide_eq_true_eq, beq_iff_eq] using h

/-- Settles O48: the checks pass, and what is due takes its branch. -/
theorem compressionComplete : Obligations.CompressionComplete := by
  refine ⟨?config, ?job, ?flush, ?drain, fun rid r => ?record, fun rid r => ?spilled, fun tag source j => ?done, fun tag source j => ?unread,
    fun d => ?drained⟩
  case config =>
    refine completes_of (fun _ _ _ => rfl) (fun c ps x ⟨hw, h28, h12⟩ => ?_) (by decide) (by decide)
    exact checked_none (by rw [firstFail_need (by rw [hw, h28, h12]; rfl), firstFail_nil])
  case job =>
    refine completes_long (fun _ _ _ => rfl) (fun c ps x ⟨hp, hop, hf, h1, h8, hz, hpad, hin, hbufs, hcomp, hdec⟩ => ?_)
    have width := fun h0 => by
      obtain ⟨hk, hw, hlen, -, -⟩ := hcomp h0
      exact segment_ok hk hw hlen
    have idle := fun h0 => by
      obtain ⟨-, -, -, hidle, -⟩ := hcomp h0
      exact (Bool.not_eq_true' _).mpr hidle
    have fits := fun h0 => by
      obtain ⟨-, -, -, -, hfits⟩ := hcomp h0
      exact decide_eq_true hfits
    refine checked_none ?_
    rw [firstFail_need (bne_iff_ne.mpr hp),
      firstFail_need (by
        rw [decide_eq_true hop, decide_eq_true hf, decide_eq_true h1, decide_eq_true h8, hz,
          List.all_eq_true.mpr fun i hi => hpad i (List.mem_range.mp hi)]
        rfl),
      firstFail_need (by rw [hin, List.all_eq_true.mpr hbufs]; rfl), firstFail_need (unless_op width), firstFail_need (unless_op idle),
      firstFail_need (unless_op fits), firstFail_need (by rw [Bool.or_assoc, Bool.or_assoc]; exact unless_op fun h => room_ok (hdec h)), firstFail_nil]
  case flush =>
    refine completes_of (fun _ _ _ => rfl) (fun c ps x ⟨hm, hf, hz, hnow⟩ => ?_) (by decide) (by decide)
    rw [cmpFlush_checked hm hf hz]
    refine if_neg ?_
    rcases hnow with h0 | hidle
    · rw [h0]
      exact Bool.false_ne_true
    · rw [hidle, List.isEmpty_nil, Bool.not_true, Bool.and_false]
      exact Bool.false_ne_true
  case drain =>
    refine completes_later (fun _ _ _ => rfl) (fun c ps x ⟨hm, hf, hz, hbusy⟩ => ?_) (by decide)
    rw [cmpFlush_checked hm (by omega) hz]
    exact if_pos (by rw [hf, List.isEmpty_eq_false_iff.mpr hbusy]; rfl)
  case record =>
    refine occurs_of (f := (State.recordDone · rid)) (fun _ _ => rfl) (fun x ⟨hhead, hid, hwhole⟩ => ?_)
    unfold State.recordDone
    dsimp only
    rw [hhead]
    exact if_neg (by rw [hid, hwhole, bne_self_eq_false, bne_self_eq_false]; decide)
  case spilled =>
    refine occurs_of (f := (State.recordDone · rid)) (fun _ _ => rfl) (fun x ⟨hnone, hfind⟩ => ?_)
    unfold State.recordDone
    rw [hnone, hfind]
    rfl
  case done =>
    refine occurs_of (f := (State.jobDone · tag source)) (fun _ _ => rfl) (fun x ⟨hfind, hread⟩ => ?_)
    unfold State.jobDone
    rw [hfind]
    exact if_neg (by rw [hread]; decide)
  case unread =>
    refine occurs_of (f := (State.jobDone · tag source)) (fun _ _ => rfl) (fun x ⟨hfind, hread⟩ => ?_)
    unfold State.jobDone
    rw [hfind]
    exact if_pos (by rw [hread]; decide)
  case drained =>
    refine occurs_of (f := State.flushDrained) (fun _ _ => rfl) (fun x ⟨hone, hpast⟩ => ?_)
    have past : (!(d.recs.any fun i => x.inEngine.contains i)) = true := by rw [hpast]; rfl
    have gone : (x.onCmp fun c => { c with drains := c.drains.filter fun d => !!(d.recs.any fun i => x.inEngine.contains i) })
        = x.onCmp fun c => { c with drains := [] } := by
      refine State.onCmp_congr ?_
      rw [hone, List.filter_cons_of_neg (by rw [past]; decide), List.filter_nil]
    unfold State.flushDrained
    dsimp only
    rw [hone, List.filter_cons_of_pos (p := fun d : Drain => !(d.recs.any fun i => x.inEngine.contains i)) past, List.filter_nil, gone]
    rfl

end Sys2Proof
end

section
/-!
PROOFS. The LNK block's commands and the training of its ports (11_serial_lanes_and_syrilink.md R324 to R336, R356 to R365); obligations O49
and O50.
-/

namespace Sys2Proof

set_option Elab.async false

open Sys2Proof.Machine Sys2Proof.Machine.Reg Sys2Proof.Machine.Bits

@[simp] theorem State.lane_onLane (s : State) (l : Nat) (f : LaneSt → LaneSt) : (s.onLane l f).lane l = f (s.lane l) := Tab.get_set_self _ _ _ _
@[simp] theorem State.port_onPort (s : State) (p : Nat) (f : PortSt → PortSt) : (s.onPort p f).port p = f (s.port p) := Tab.get_set_self _ _ _ _

/-- The checks of a LANE_PATTERN pass (R363). -/
theorem lanePattern_checked {c : Caller} {ps : List Byte} {x : State} (hl : num ps 0 1 < 32) (hop : num ps 1 1 ≤ 5) (hpat : num ps 2 1 ≤ 6)
    (hz : zeroAt ps 3 5 = true) (ht : x.underTest (num ps 0 1) = true) :
    bodyLanePattern c ps x =
      let l := num ps 0 1
      let op := num ps 1 1
      let s := if op ≤ 3 then x.onLane l fun y =>
          { y with gen := op == 1 || op == 3, chk := op == 2 || op == 3, locked := false, pattern := num ps 2 1, user := num ps 8 8, genAt := 0,
                   window := [], wrong := [], clean := 0 }
        else x
      .reply (if op = 5 then s.onLane l fun y =>
          { y with bits := freshChecks s l 0 y.bits, errors := freshChecks s l 1 y.errors, lockLosses := freshChecks s l 2 y.lockLosses }
        else s) stOK
        (le 1 (b2n (s.lane l).gen + 2 * b2n (s.lane l).chk + 4 * b2n (s.lane l).locked) ++ le 3 0 ++ checkerCounts s l (s.lane l)) :=
  checked_none (by
    rw [firstFail_need (by rw [decide_eq_true hl, decide_eq_true hop, decide_eq_true hpat, hz]; rfl), firstFail_need ht, firstFail_nil])

/-- Settles O49: the checks pass. -/
theorem linkCommandsComplete : Obligations.LinkCommandsComplete := by
  refine ⟨?config, ?status, ?scan, ?pattern, ?counts, ?loopback, ?retrain⟩
  case config =>
    refine completes_of (fun _ _ _ => rfl) (fun c ps x ⟨hp, hz, h12, h16, hw, hfit⟩ => ?_) (by decide) (by decide)
    exact checked_none (by rw [firstFail_need (by rw [decide_eq_true hp, hz, h12, h16, hw]; rfl), firstFail_need hfit, firstFail_nil])
  case status =>
    refine completes_of (fun _ _ _ => rfl) (fun c ps x ⟨hp, hz⟩ => ?_) (by decide) (by decide)
    exact checked_none (by rw [firstFail_need (by rw [decide_eq_true hp, hz]; rfl), firstFail_nil])
  case scan =>
    refine completes_long (fun _ _ _ => rfl) (fun c ps x ⟨hl, h16, h40, hz, hz', hn, hn', hs, hs', hv, hv', ht, ht', hpoints, hph, hph', hth, hth', huse,
      hfree⟩ => ?_)
    exact checked_none (by
      rw [firstFail_need (by rw [decide_eq_true hl, decide_eq_true h16, decide_eq_true h40, hz, hz']; rfl),
        firstFail_need (by
          rw [decide_eq_true hn, decide_eq_true hn', decide_eq_true hs, decide_eq_true hs', decide_eq_true hv, decide_eq_true hv', decide_eq_true ht,
            decide_eq_true ht', decide_eq_true hpoints]
          rfl),
        firstFail_need (by rw [decide_eq_true hph, decide_eq_true hph', decide_eq_true hth, decide_eq_true hth']; rfl), firstFail_need huse,
        firstFail_need (by rw [hfree]; rfl), firstFail_nil])
  case pattern =>
    refine completes_of (fun _ _ _ => rfl) (fun c ps x ⟨hl, hop, hpat, hz, ht⟩ => ?_) (by decide) (by decide)
    rw [lanePattern_checked hl (by omega) hpat hz ht]
    dsimp only
    rw [if_pos hop, if_neg (by omega), State.lane_onLane]
    rfl
  case counts =>
    refine completes_of (fun _ _ _ => rfl) (fun c ps x ⟨hl, hop, hpat, hz, ht⟩ => ?_) (by decide) (by decide)
    rw [lanePattern_checked hl (by omega) hpat hz ht]
    dsimp only
    rw [if_neg (show ¬ num ps 1 1 ≤ 3 by omega)]
  case loopback =>
    refine completes_of (fun _ _ _ => rfl) (fun c ps x ⟨hl, hm, hz, ht⟩ => ?_) (by decide) (by decide)
    exact checked_none (by rw [firstFail_need (by rw [decide_eq_true hl, decide_eq_true hm, hz]; rfl), firstFail_need ht, firstFail_nil])
  case retrain =>
    refine completes_of (fun _ _ _ => rfl) (fun c ps x ⟨hp, hf, hz, hr, hs⟩ => ?_) (by decide) (by decide)
    exact checked_none (by
      rw [firstFail_need (by rw [decide_eq_true hp, decide_eq_true hf, hz]; rfl), firstFail_need hr, firstFail_need (bne_iff_ne.mpr hs), firstFail_nil])

/-- Settles O50: what is due takes its branch. -/
theorem trainingEventsComplete : Obligations.TrainingEventsComplete := by
  refine ⟨fun p => ?start, fun p i => ?mismatch, fun p i => ?agreed, fun p markers => ?ready, fun p => ?timeout, fun p => ?restart, fun p => ?retry⟩
  case start =>
    refine occurs_of (f := (State.trainingStart · p)) (fun _ _ => rfl) (fun x ⟨hr, hs⟩ => ?_)
    exact if_pos (by rw [hr]; rcases hs with hs | hs <;> rw [hs] <;> rfl)
  case mismatch =>
    refine occurs_of (f := (State.trainIdent · p i)) (fun _ _ => rfl) (fun x ⟨ht, hs, hmis⟩ => ?_)
    unfold State.trainIdent
    dsimp only
    rw [if_neg (by rw [ht]; rcases hs with hs | hs <;> rw [hs] <;> decide)]
    refine if_pos ?_
    rcases hmis with h | h
    · exact Bool.or_eq_true_iff.mpr (Or.inl (by rw [Bool.not_eq_true']; exact h))
    · exact Bool.or_eq_true_iff.mpr (Or.inr (beq_iff_eq.mpr h))
  case agreed =>
    refine occurs_of (f := (State.trainIdent · p i)) (fun _ _ => rfl) (fun x ⟨ht, hs, hfit, haddr, hrate⟩ => ?_)
    unfold State.trainIdent
    dsimp only
    rw [if_neg (by rw [ht]; rcases hs with hs | hs <;> rw [hs] <;> decide)]
    refine (if_neg ?_).trans (if_neg hrate)
    exact Bool.not_eq_true _ ▸ Bool.or_eq_false_iff.mpr ⟨by rw [Bool.not_eq_false']; exact hfit, beq_false_of_ne haddr⟩
  case ready =>
    refine occurs_of (f := fun s => s.trainReady p markers) (fun _ _ => rfl) (fun x ⟨ht, hs, hset, hnow⟩ => ?_)
    exact if_neg (by
      rw [ht, hs, decide_eq_false (Nat.not_le.mpr hnow)]
      exact Bool.not_eq_true _ ▸ Bool.or_eq_false_iff.mpr ⟨beq_false_of_ne hset, rfl⟩)
  case timeout =>
    refine occurs_of (f := (State.trainTimeout · p)) (fun _ _ => rfl) (fun x ⟨hs, ht, hnow⟩ => ?_)
    exact if_pos (by rw [hs, bne_iff_ne.mpr ht, decide_eq_true hnow]; rfl)
  case restart =>
    refine occurs_of (f := (State.trainRestart · p)) (fun _ _ => rfl) (fun x ⟨hs, ht, hnow⟩ => ?_)
    exact if_pos (by rw [hs, ht, decide_eq_true hnow]; rfl)
  case retry =>
    refine occurs_of (f := (State.mismatchAgain · p)) (fun _ _ => rfl) (fun x ⟨hs, hnow⟩ => ?_)
    exact if_pos (by rw [hs, decide_eq_true hnow]; rfl)

end Sys2Proof
end

section
/-!
PROOFS. The lanes of a port that is up (11_serial_lanes_and_syrilink.md R336 to R340, R356 to R359); obligation O51.
-/

namespace Sys2Proof

set_option Elab.async false

open Sys2Proof.Machine Sys2Proof.Machine.Reg Sys2Proof.Machine.Bits

/-- A lane in use that fails is told, and its port goes on with the lanes left (R336, R337, R339, R349). -/
theorem loseLane_fails {x : State} {l : Nat} {f : LaneFault} (hup : x.portUp (l / 4) = true)
    (huse : bit (x.fld (LNK_PORT_STAT (l / 4)) LNK_PORT_STAT_LANES) (l % 4) = true) (hf : x.laneFails l f = true) :
    x.loseLane l f =
      let p := l / 4
      if lanesLeft x l f = 0 then (((laneOut x l f).useLanes p 0).dropLink p).setPort p 1 1
      else if (laneOut x l f).legacyPort p then (laneOut x l f).startTraining p false 1
      else
        let y := (((laneOut x l f).useLanes p (lanesLeft x l f)).sendRestripe p (lanesLeft x l f) false).onPort p fun m =>
          { m with linkDue := true, nakDue := true, discardUntil := some m.rxNext }
        y.setPort p (y.upState p) 1 := by
  unfold State.loseLane
  dsimp only
  rw [if_neg (by rw [hup, huse, hf]; decide)]
  cases f <;> rfl

/-- A lane that may come back is good, and in lock (R338). -/
theorem readmit_back {x : State} {l lockAt skew : Nat} (h : mayReturn x l lockAt skew) :
    x.readmit l lockAt skew =
      let p := l / 4
      let set := (laneBack x l skew).laneChoice p (goodWith x l)
      if laneCount set ≤ laneCount ((laneBack x l skew).fld (LNK_PORT_STAT p) LNK_PORT_STAT_LANES) then laneBack x l skew
      else
        let z := (((laneBack x l skew).useLanes p set).sendRestripe p set false).issue 0xA003 [p, l % 4, set]
        z.setPort p (z.upState p) 1 := by
  obtain ⟨hup, hgood, hlegacy, hlost, hclean, hskew⟩ := h
  unfold State.readmit
  dsimp only
  rw [if_neg (by
    rw [hup, hgood, hlegacy, decide_eq_false (Nat.not_lt.mpr hlost), decide_eq_false (Nat.not_lt.mpr hclean), decide_eq_false (Nat.not_lt.mpr hskew)]
    decide)]
  rfl

/-- A module whose poll is due is shown, told where that is new, and its lanes without signal are lost (R359). -/
theorem moduleRead_due {x : State} {p : Nat} {r : ModuleRead} (hm : x.fld (LNK_PORT_CFG p) LNK_PORT_CFG_MODULE ≠ 0) (hdue : pollDue x p = true) :
    x.moduleRead p r = (List.range 4).foldl (fun s i => s.loseLane (4 * p + i) .los)
      (if moduleTold x p r then (moduleShown x p r).issue 0xA006 [p, b2n r.present, r.los % 16, b2n r.alarm] else moduleShown x p r) :=
  if_neg (by rw [decide_eq_false hm]; exact Bool.not_eq_true _ ▸ (by rw [Bool.false_or, Bool.not_eq_false']; exact hdue))

/-- Settles O51: what is due takes its branch. -/
theorem laneEventsComplete : Obligations.LaneEventsComplete := by
  refine ⟨fun l f => ?last, fun l f => ?legacy, fun l f => ?fewer, fun p mask => ?restripe, fun l lockAt skew => ?same, fun l lockAt skew => ?wider,
    fun l => ?freeze, fun l => ?refresh, fun p r => ?silent, fun p r => ?told, fun p counts e => ?scan, fun l got => ?checker⟩
  case last =>
    refine occurs_of (f := (State.loseLane · l f)) (fun _ _ => rfl) (fun x ⟨hup, huse, hf, hset⟩ => ?_)
    exact (loseLane_fails hup huse hf).trans (if_pos hset)
  case legacy =>
    refine occurs_of (f := (State.loseLane · l f)) (fun _ _ => rfl) (fun x ⟨hup, huse, hf, hset, hlegacy⟩ => ?_)
    exact (loseLane_fails hup huse hf).trans ((if_neg hset).trans (if_pos hlegacy))
  case fewer =>
    refine occurs_of (f := (State.loseLane · l f)) (fun _ _ => rfl) (fun x ⟨hup, huse, hf, hset, hlegacy⟩ => ?_)
    exact (loseLane_fails hup huse hf).trans ((if_neg hset).trans (if_neg (ne_true_of_eq_false hlegacy)))
  case restripe =>
    refine occurs_of (f := fun s => s.restripe p mask false) (fun _ _ => rfl) (fun x ⟨hup, hmask⟩ => ?_)
    exact if_neg (by rw [hup, beq_false_of_ne hmask]; decide)
  case same =>
    refine occurs_of (f := fun s => s.readmit l lockAt skew) (fun _ _ => rfl) (fun x ⟨hmay, hcount⟩ => ?_)
    exact (readmit_back hmay).trans (if_pos hcount)
  case wider =>
    refine occurs_of (f := fun s => s.readmit l lockAt skew) (fun _ _ => rfl) (fun x ⟨hmay, hcount⟩ => ?_)
    exact (readmit_back hmay).trans (if_neg (Nat.not_le.mpr hcount))
  case freeze =>
    refine occurs_of (f := (State.freeze · l)) (fun _ _ => rfl) (fun x ⟨hi, hrate, hrun⟩ => ?_)
    unfold State.freeze
    dsimp only
    rw [hi, hrate]
    exact if_pos (by rw [decide_eq_true hrun]; rfl)
  case refresh =>
    refine occurs_of (f := (State.sendRefresh · l)) (fun _ _ => rfl) (fun x ⟨hi, hrun⟩ => ?_)
    exact if_pos (by rw [hi, decide_eq_true hrun]; rfl)
  case silent =>
    refine occurs_of (f := fun s => s.moduleRead p r) (fun _ _ => rfl) (fun x ⟨hm, hdue, htold⟩ => ?_)
    rw [moduleRead_due hm hdue, if_neg (ne_true_of_eq_false htold)]
  case told =>
    refine occurs_of (f := fun s => s.moduleRead p r) (fun _ _ => rfl) (fun x ⟨hm, hdue, htold⟩ => ?_)
    rw [moduleRead_due hm hdue, if_pos htold]
  case scan =>
    refine occurs_of (f := fun s => s.scanReport p counts) (fun _ _ => rfl) (fun x ⟨hfind, hend⟩ => ?_)
    unfold State.scanReport
    rw [hfind]
    exact if_neg (Nat.not_lt.mpr hend)
  case checker =>
    refine occurs_of (f := (State.checkerLock · l got)) (fun _ _ => rfl) (fun x ⟨hchk, htest, hown⟩ => ?_)
    unfold State.checkerLock
    dsimp only
    rw [if_neg (by rw [hchk, htest]; decide), hown]
    simp only [Bool.false_eq_true, if_false]

end Sys2Proof
end

section
/-!
PROOFS. Cells, LINK blocks and link states (11_serial_lanes_and_syrilink.md R328 to R355); obligations O52 and O53.
-/

namespace Sys2Proof

set_option Elab.async false

open Sys2Proof.Machine Sys2Proof.Machine.Reg Sys2Proof.Machine.Bits

theorem State.onPort_congr {x : State} {p : Nat} {f g : PortSt → PortSt} (h : f (x.port p) = g (x.port p)) : x.onPort p f = x.onPort p g := by
  have ports : Tab.upd {} x.lnk.ports p f = Tab.upd {} x.lnk.ports p g := congrArg (Tab.set ({} : PortSt) x.lnk.ports p) h
  exact congrArg (fun t => x.onLnk fun n => { n with ports := t }) ports

/-- The end of an idle run leaves the cells in progress as they are. -/
theorem State.port_endIdle (x : State) (p : Nat) : ((x.endIdle p).port p) = x.port p := by
  unfold State.endIdle
  exact foldl_keep (P := fun y => State.port y p = x.port p) (fun y _ h => by
    exact h) rfl

/-- What one block does at the receiver of a port that is up is said by its kind and the cells in progress (R327). -/
theorem cellIn_one (x : State) (p : Nat) (b : Block) : x.cellIn p [b] = State.blockIn p x b := rfl

theorem replayNext_some {x : State} {p k : Nat} {e : Sent} (h : ((x.port p).replay.find? fun e => e.seq == k) = some e) :
    x.replayNext p k = x.replayCell p e := by
  unfold State.replayNext
  rw [h]

/-- An END outside class C: what it makes of the cell it ends (R345). -/
theorem blockIn_finish {x : State} {p k seq crc : Nat} {b : Block} {c : RxCell} {r : List RxCell} (hup : x.portUp p = true)
    (hk : blockKind b = .finish k false seq crc) (hrx : (x.port p).rx = c :: r) (hbad : c.bad = false) :
    State.blockIn p x b = (cellClosed x p r).cellEnd p c.cls c.data false seq crc := by
  unfold State.blockIn
  dsimp only
  rw [if_neg (by rw [hup]; decide), hk, hrx]
  exact if_neg (ne_true_of_eq_false hbad)

/-- A LINK block at a port that is up: it acknowledges, takes back a credit, or grants (R344, R345). -/
theorem linkIn_up {x : State} {p : Nat} {b : LinkBlock} (hup : x.portUp p = true) (hnak : b.nak = false) (hack : newlyAcked x p b ≤ (x.port p).replay.length)
    (hback : creditBack x p b = false) {e : Sent} (hlast : ((x.port p).replay.take (newlyAcked x p b)).getLast? = some e) :
    x.linkIn p b =
        let n := newlyAcked x p b
        let y := ((x.port p).replay.take n).foldl (fun s e => s.acked e)
          (x.onLane (4 * p + b.lane % 4) fun l => { l with idleOther := l.idleOther + 1 })
        (y.setFld (LNK_PORT_RTT p) LNK_PORT_RTT_RTT (satN 20 ((fineToPs (y.now - e.at_ : Nat)).toNat / 1000))).onPort p fun m =>
          let g := fun cls cred => (x.port p).sent.get cls + creditStep x p cls cred
          { m with replay := m.replay.drop n, granted := ⟨g 0 b.credC, g 1 b.credT, g 2 b.credS, g 3 b.credB⟩,
                   ackAt := if n = 0 then m.ackAt else y.now, replaysInRow := if n = 0 then m.replaysInRow else 0,
                   replayFrom := match m.replayFrom with
                     | some k => if ((x.port p).replay.take n).any (fun e => e.seq == k) then (m.replay.drop n).head?.map Sent.seq else some k
                     | none => none } := by
  unfold newlyAcked at hack hlast ⊢
  unfold creditBack creditStep at hback
  unfold State.linkIn creditStep
  dsimp only at hback ⊢
  rw [if_neg (by rw [hup]; decide), if_neg (Nat.not_lt.mpr hack), if_neg (ne_true_of_eq_false hback), hlast, hnak, Bool.false_and,
    if_neg Bool.false_ne_true, State.setFld_now] <;> rfl

/-- Settles O52: what comes takes its branch. -/
theorem cellEventsComplete : Obligations.CellEventsComplete := by
  refine ⟨fun p c => ?next, fun p => ?inside, fun p k e => ?replay, fun p b cls => ?start, fun p b d c r => ?data, fun p b k seq crc c r => ?right,
    fun p b k seq crc c r => ?wrong, fun p b => ?late, fun p b e => ?acked, fun p => ?link, fun p e => ?timeout⟩
  case next =>
    refine occurs_of (f := (State.egress · p)) (fun _ _ => rfl) (fun x ⟨hup, hb, hr, hroom, hc⟩ => ?_)
    unfold State.egress
    dsimp only
    rw [if_neg (by rw [hup]; decide), if_neg (by rw [hb]; decide), hr]
    dsimp only
    rw [if_neg (by rw [decide_eq_true hroom]; decide), hc]
  case inside =>
    refine occurs_of (f := (State.egress · p)) (fun _ _ => rfl) (fun x ⟨hup, hb, hr, hroom, hs, hc⟩ => ?_)
    unfold State.egress
    dsimp only
    rw [if_neg (by rw [hup]; decide), if_pos (by rw [hb]; decide), if_pos (by rw [hs, hr, decide_eq_true hroom, hc]; rfl)]
  case replay =>
    refine occurs_of (f := (State.egress · p)) (fun _ _ => rfl) (fun x ⟨hup, hb, hr, he⟩ => ?_)
    unfold State.egress
    dsimp only
    rw [if_neg (by rw [hup]; decide), if_neg (by rw [hb]; decide), hr]
    exact replayNext_some he
  case start =>
    refine occurs_of (f := fun s => s.cellIn p [b]) (fun _ _ => rfl) (fun x ⟨hup, hk, hrx⟩ => ?_)
    rw [cellIn_one]
    unfold State.blockIn
    dsimp only
    rw [if_neg (by rw [hup]; decide), hk]
    dsimp only
    unfold State.cellStart
    dsimp only
    rw [State.port_endIdle, hrx]
    refine (if_pos rfl).trans (State.onPort_congr ?_)
    rw [State.port_endIdle, hrx]
  case data =>
    refine occurs_of (f := fun s => s.cellIn p [b]) (fun _ _ => rfl) (fun x ⟨hup, hk, hrx, hlen⟩ => ?_)
    rw [cellIn_one]
    unfold State.blockIn
    dsimp only
    rw [if_neg (by rw [hup]; decide), hk, hrx]
    dsimp only
    rw [if_pos hlen]
  case right =>
    refine occurs_of (f := fun s => s.cellIn p [b]) (fun _ _ => rfl) (fun x ⟨hup, hk, hrx, hbad, hcls, hright⟩ => ?_)
    obtain ⟨hlen, hcrc, hseq, hcred, hsame⟩ := hright
    rw [cellIn_one, blockIn_finish hup hk hrx hbad]
    unfold State.cellEnd
    dsimp only
    rw [if_pos (show c.cls ≠ 0 by omega), if_neg (not_not_intro hlen), if_neg (show ¬(if false = true then crc ^^^ 0xFFFFFFFF else crc) ≠ crc32c c.data from not_not_intro hcrc), if_neg (not_not_intro hseq)]
    refine (if_neg (Nat.not_le.mpr hcred)).trans ((if_neg Bool.false_ne_true).trans ((if_neg (not_not_intro hsame)).trans ?_))
    exact if_neg (by omega)
  case wrong =>
    refine occurs_of (f := fun s => s.cellIn p [b]) (fun _ _ => rfl) (fun x ⟨hup, hk, hrx, hbad, hcls, hlen, hcrc⟩ => ?_)
    rw [cellIn_one, blockIn_finish hup hk hrx hbad]
    unfold State.cellEnd
    dsimp only
    rw [if_pos hcls, if_neg (not_not_intro hlen)]
    rw [if_pos (show (if false = true then crc ^^^ 0xFFFFFFFF else crc) ≠ crc32c c.data from hcrc), if_pos hcls]
    rfl
  case late =>
    refine occurs_of (f := fun s => s.linkIn p b) (fun _ _ => rfl) (fun x ⟨hup, hack⟩ => ?_)
    unfold State.linkIn
    dsimp only
    rw [if_neg (by rw [hup]; decide)]
    exact if_pos hack
  case acked =>
    exact occurs_of (f := fun s => s.linkIn p b) (fun _ _ => rfl) (fun x ⟨hup, hnak, hack, hback, hlast, _⟩ => linkIn_up hup hnak hack hback hlast)
  case link =>
    refine occurs_of (f := (State.linkOut · p)) (fun _ _ => rfl) (fun x ⟨hup, hdue⟩ => ?_)
    exact if_neg (by
      rw [hup]
      rcases hdue with h | h
      · rw [h]
        exact Bool.false_ne_true
      · rw [decide_eq_true h, Bool.or_true]
        exact Bool.false_ne_true)
  case timeout =>
    refine occurs_of (f := (State.replayLate · p)) (fun _ _ => rfl) (fun x ⟨he, hup, hnow⟩ => ?_)
    unfold State.replayLate
    dsimp only
    rw [he]
    exact if_pos (by rw [hup, decide_eq_true hnow]; rfl)

/-- A link state to be flooded is stored, passed on and routed by (R350, R351). -/
theorem linkStateIn_ring {x : State} {p : Nat} {l : LinkState} (hup : x.portUp p = true) (h1 : 1 ≤ x.role p) (h4 : x.role p ≤ 4)
    (hother : x.address ≠ some l.origin) :
    x.linkStateIn p l = match x.lnk.table.find? fun e => e.ls.origin == l.origin with
      | some e =>
        if newer l.generation e.ls.generation then State.linkStateIn.flood p x l
        else if l.generation = e.ls.generation then
          x.onLnk fun n => { n with table := mapIf (fun e => e.ls.origin == l.origin) (fun e => { e with at_ := x.now }) n.table }
        else x
      | none => State.linkStateIn.flood p x l :=
  if_neg (by rw [hup, decide_eq_true h1, decide_eq_true h4, beq_false_of_ne hother]; decide)

/-- Settles O53: what is due takes its branch. -/
theorem linkStateEventsComplete : Obligations.LinkStateEventsComplete := by
  refine ⟨?refresh, fun p l => ?new, fun p l e => ?newer, fun origin => ?expiry, ?hold⟩
  case refresh =>
    refine occurs_of (f := State.linkRefresh) (fun _ _ => rfl) (fun x ⟨hb, hnow⟩ => ?_)
    exact if_pos (by rw [hb, decide_eq_true hnow]; rfl)
  case new =>
    refine occurs_of (f := (State.linkStateIn · p l)) (fun _ _ => rfl) (fun x ⟨hup, h1, h4, hother, hnone⟩ => ?_)
    rw [linkStateIn_ring hup h1 h4 hother, hnone]
    rfl
  case newer =>
    refine occurs_of (f := (State.linkStateIn · p l)) (fun _ _ => rfl) (fun x ⟨hup, h1, h4, hother, hsome, hnewer⟩ => ?_)
    rw [linkStateIn_ring hup h1 h4 hother, hsome]
    exact if_pos hnewer
  case expiry =>
    refine occurs_of (f := (State.linkExpire · origin)) (fun _ _ => rfl) (fun x hany => ?_)
    exact if_pos hany
  case hold => exact occurs_of (f := State.holdExpire) (fun _ _ => rfl) (fun _ _ => rfl)

end Sys2Proof
end

section
/-!
PROOFS. The RED block's commands (13_head_redundancy.md R412, R418, R428, R431, R433 to R435); obligation O54.
-/

namespace Sys2Proof

set_option Elab.async false

open Sys2Proof.Machine Sys2Proof.Machine.Reg Sys2Proof.Machine.Bits

/-- What the witness of an entry out of its quiet period answers a head of the entry's pair (R418, Table 13-5). -/
theorem witness_asked {c : Caller} {ps : List Byte} {x : State} {k : Nat} (kind : Nat) (h : asksWitness c ps x k) (hq : (x.wit k).quiet = none) :
    x.witness kind c ps =
      let ans := fun (s : State) st => Res.reply s st (s.latchData k)
      let mine := (x.wit k).lease.isSome && x.fld (RED_WIT_STAT k) RED_WIT_STAT_HOLDER == epNum c.source
      let cur := x.fld (RED_WIT_EPOCH k) RED_WIT_EPOCH_EPOCH
      if kind == 0 && bit (num ps 1 1) 0 then ans x stOK
      else if kind ≤ 1 && mine && num ps 4 4 == cur then ans (x.witGrant k (epNum c.source) cur) stOK
      else if kind = 0 then
        if x.witHeld k then ans x stBUSY
        else ans ((x.witGrant k (epNum c.source) ((cur + 1) % 2 ^ 32)).latchEvent k 0) stOK
      else if kind = 1 then ans x stBAD_STATE
      else if mine then ans (((x.latchEvent k 2).setFld (RED_WIT_STAT k) RED_WIT_STAT_HELD 0).onWit k fun w => { w with lease := none }) stOK
      else ans x stBAD_STATE := by
  obtain ⟨hact, hk, ho, hkind, hhead, hf, hz⟩ := h
  have pair : (epNum c.source == x.fld (RED_WIT_CFG k) RED_WIT_CFG_HEAD_A || epNum c.source == x.fld (RED_WIT_CFG k) RED_WIT_CFG_HEAD_B) = true := by
    simpa only [Bool.or_eq_true, beq_iff_eq] using hhead
  unfold State.witness
  dsimp only
  rw [if_neg (by rw [hact]; decide), hk]
  dsimp only
  rw [if_neg (by rw [ho, hkind, pair, decide_eq_true hf, hz]; decide), if_neg (by rw [hq]; decide)]

/-- Is the sender the holder, as the witness sees it? -/
theorem mine_iff {c : Caller} {x : State} {k : Nat} :
    ((x.wit k).lease.isSome && x.fld (RED_WIT_STAT k) RED_WIT_STAT_HOLDER == epNum c.source) = true ↔ holdsLatch c x k := by
  rw [Bool.and_eq_true, beq_iff_eq]
  rfl

/-- A drill passes its checks (R428, R435). -/
theorem headDrill_checked {c : Caller} {ps : List Byte} {x : State} (hk : num ps 0 1 ≤ 2) (hz : zeroAt ps 1 3 = true)
    (hs : num ps 0 1 = 2 ∨ x.head = hStandby) (ha : num ps 0 1 = 2 → x.isActive = true) (hd : x.red.drill = none) :
    bodyHeadDrill c ps x =
      let y := x.onRed fun r => { r with drill := some ⟨num ps 0 1, c, x.now, none, false, false, 0, x.partnerWit⟩ }
      .long (if num ps 0 1 = 1 then y.sendLatch 0xC003 x.partnerWit puDry true 0 else if num ps 0 1 = 2 then y.trySwitch else y) :=
  checked_none (by
    rw [firstFail_need (by rw [decide_eq_true hk, hz]; rfl), firstFail_need (by simpa only [Bool.or_eq_true, beq_iff_eq] using hs),
      firstFail_need (by
        by_cases h : num ps 0 1 = 2
        · rw [ha h, Bool.or_true]
        · rw [bne_iff_ne.mpr h, Bool.true_or]),
      firstFail_need (by rw [hd]; rfl), firstFail_nil])

/-- Settles O54: the checks pass, and a witness answers by Table 13-5. -/
theorem headCommandsComplete : Obligations.HeadCommandsComplete := by
  refine ⟨?head, ?witness, ?status, ?entries, ?journal, ?shadow, ?readiness, ?switchover, fun k => ?grant, fun k => ?dry, fun k => ?renew,
    fun k => ?again, fun k => ?release⟩
  case head =>
    refine completes_of (fun _ _ _ => rfl) (fun c ps x ⟨hop, hf, hz, h28, h9, h11, h27, h11', hall⟩ => ?_) (by decide) (by decide)
    unfold bodyHeadConfig
    dsimp only
    rw [if_pos hop]
    exact checked_none (by
      rw [firstFail_need (by rw [decide_eq_true hf, hz, h28, h9, h11, h27, h11']; rfl), firstFail_of_forall hall])
  case witness =>
    refine completes_of (fun _ _ _ => rfl) (fun c ps x ⟨hop, hk, hz, h27⟩ => ?_) (by decide) (by decide)
    unfold bodyHeadConfig
    dsimp only
    rw [hop, if_neg (by decide), if_pos rfl]
    exact checked_none (by rw [firstFail_need (by rw [decide_eq_true hk, hz, h27]; rfl), firstFail_nil])
  case status =>
    refine completes_of (fun _ _ _ => rfl) (fun c ps x ⟨hpage, hz⟩ => ?_) (by decide) (by decide)
    unfold bodyHeadStatus
    dsimp only
    rw [if_pos hpage]
    exact checked_none (by rw [firstFail_need hz, firstFail_nil])
  case entries =>
    refine completes_of (fun _ _ _ => rfl) (fun c ps x ⟨hpage, hz⟩ => ?_) (by decide) (by decide)
    unfold bodyHeadStatus
    dsimp only
    rw [hpage, if_neg (by decide), if_pos rfl]
    exact checked_none (by rw [firstFail_need hz, firstFail_nil])
  case journal =>
    refine completes_of (fun _ _ _ => rfl) (fun c ps x ⟨hpage, hz, hz', h1, h64⟩ => ?_) (by decide) (by decide)
    unfold bodyHeadStatus
    dsimp only
    rw [hpage, if_neg (by decide), if_neg (by decide), if_pos rfl]
    exact checked_none (by rw [firstFail_need (by rw [hz, hz', decide_eq_true h1, decide_eq_true h64]; rfl), firstFail_nil])
  case shadow =>
    refine completes_long (fun _ _ _ => rfl) (fun c ps x ⟨hk, hz, hs, hd⟩ => ?_)
    rw [headDrill_checked (by omega) hz (Or.inr hs) (fun h => by omega) hd, hk]
    dsimp only
    rw [if_neg (by decide), if_neg (by decide)]
  case readiness =>
    refine completes_long (fun _ _ _ => rfl) (fun c ps x ⟨hk, hz, hs, hd⟩ => ?_)
    rw [headDrill_checked (by omega) hz (Or.inr hs) (fun h => by omega) hd, hk]
    dsimp only
    rw [if_pos rfl]
  case switchover =>
    refine completes_long (fun _ _ _ => rfl) (fun c ps x ⟨hk, hz, ha, hd⟩ => ?_)
    rw [headDrill_checked (by omega) hz (Or.inl hk) (fun _ => ha) hd, hk]
    dsimp only
    rw [if_neg (by decide), if_pos rfl]
  case grant =>
    refine completes_of (fun _ _ _ => rfl) (fun c ps x ⟨hask, hq, hdry, hheld, hnot⟩ => ?_) (by decide) (by decide)
    refine (witness_asked 0 hask hq).trans ?_
    dsimp only
    rw [if_neg (by rw [hdry]; decide), if_neg (fun h => hnot ?_), if_pos rfl, if_neg (by rw [hheld]; decide)]
    rw [decide_eq_true (Nat.zero_le 1), Bool.true_and, Bool.and_eq_true, mine_iff, beq_iff_eq] at h
    exact h
  case dry =>
    refine completes_of (fun _ _ _ => rfl) (fun c ps x ⟨hask, hq, hdry⟩ => ?_) (by decide) (by decide)
    exact (witness_asked 0 hask hq).trans (if_pos (by rw [hdry]; decide))
  case renew =>
    refine completes_of (fun _ _ _ => rfl) (fun c ps x ⟨hask, hq, hmine, hep⟩ => ?_) (by decide) (by decide)
    refine (witness_asked 1 hask hq).trans ((if_neg Bool.false_ne_true).trans (if_pos ?_))
    rw [mine_iff.mpr hmine, hep, beq_self_eq_true]
    rfl
  case again =>
    refine completes_of (fun _ _ _ => rfl) (fun c ps x ⟨hask, hq, hdry, hmine, hep⟩ => ?_) (by decide) (by decide)
    refine (witness_asked 0 hask hq).trans ((if_neg (by rw [hdry]; decide)).trans (if_pos ?_))
    rw [mine_iff.mpr hmine, hep, beq_self_eq_true]
    rfl
  case release =>
    refine completes_of (fun _ _ _ => rfl) (fun c ps x ⟨hask, hq, hmine⟩ => ?_) (by decide) (by decide)
    refine (witness_asked 2 hask hq).trans ?_
    dsimp only
    rw [if_neg (by exact Bool.false_ne_true), if_neg (by rw [mine_iff.mpr hmine]; exact Bool.false_ne_true), if_neg (by decide), if_neg (by decide),
      if_pos (mine_iff.mpr hmine)]

end Sys2Proof
end

section
/-!
PROOFS. Heartbeats, paths and the latch (13_head_redundancy.md R415 to R421, R430, R432); obligation O55.
-/

namespace Sys2Proof

set_option Elab.async false

open Sys2Proof.Machine Sys2Proof.Machine.Reg Sys2Proof.Machine.Bits

/-- A head cell for another hub goes on by the port that `passesTo` names (R415). -/
theorem passHead_to {x : State} {p dest q : Nat} (h : passesTo x p dest q) (c : Ctl) :
    x.headElsewhere dest = true ∧ x.passHead p dest c = x.pushT q c p := by
  unfold State.headElsewhere State.passHead
  rcases h with ⟨hnone, hq⟩ | ⟨hsome, hother, link, hhop⟩
  · rw [hnone, hq]
    exact ⟨rfl, rfl⟩
  · obtain ⟨own, hown⟩ := Option.isSome_iff_exists.mp hsome
    rw [if_neg (by rw [hown]; exact Bool.false_ne_true), hhop]
    exact ⟨bne_iff_ne.mpr hother, rfl⟩

theorem headElsewhere_own {x : State} {dest : Nat} (h : x.address = some dest) : ¬ x.headElsewhere dest = true := by
  unfold State.headElsewhere
  rw [h, bne_self_eq_false]
  exact Bool.false_ne_true

/-- A head that asks or is fenced goes to STANDBY where its partner holds the latch (R412, R421). -/
def yielded (y : State) (h : Heartbeat) : State :=
  if y.head = hStarting ∧ bit h.flags 0 then y.toStandby
  else if y.head = hFenced ∧ bit h.flags 0 ∧ h.epoch > y.epoch then y.toStandby
  else y

/-- What an active head takes of its partner's heartbeat: the mirror numbers acknowledged, a request for the whole mirror (R422, R426). -/
def acknowledged (y : State) (h : Heartbeat) : State :=
  if y.isActive then
    let z := if h.mirrorSeq > y.red.acked then
        y.onRed fun r => { r with acked := h.mirrorSeq, ackedAt := y.now, unacked := r.unacked.filter fun e => decide (e.1 > h.mirrorSeq) }
      else y
    let w := z.onRed fun r => { r with partnerResync := bit h.flags 4 }
    (if bit h.flags 4 && !z.red.partnerResync then w.resend else w).trySwitch
  else y

/-- A switchover ends with the heartbeat that shows the partner holding the latch (R428). -/
def switched (y : State) (h : Heartbeat) : State :=
  match y.red.drill with
  | some d => if d.kind = 2 ∧ d.committedAt.isSome ∧ bit h.flags 0 then y.endDrill d 0 0 h.epoch else y
  | none => y

/-- What a head does with its partner's heartbeat. -/
theorem heartbeatIn_partner {x : State} {p : Nat} {h : Heartbeat} (hown : x.address = some h.dest) (hon : x.head ≠ hNone) (hs : h.sender = x.partner) :
    x.heartbeatIn p h = switched (acknowledged (yielded (beatHeard x h) h) h) h := by
  have on : ¬ (!x.headOn || decide (h.sender ≠ x.partner)) = true := by
    unfold State.headOn
    rw [bne_iff_ne.mpr hon, decide_eq_false (not_not_intro hs)]
    decide
  unfold State.heartbeatIn
  rw [if_neg (headElsewhere_own hown), if_neg on]
  rfl

theorem beatHeard_red (x : State) (h : Heartbeat) : (beatHeard x h).red.drill = x.red.drill ∧ (beatHeard x h).red.acked = x.red.acked
    ∧ (beatHeard x h).red.partnerResync = x.red.partnerResync := by
  unfold beatHeard State.onPath
  cases h.path == 1 <;> exact ⟨rfl, rfl, rfl⟩

theorem switched_no_drill {y : State} (h : Heartbeat) (hd : y.red.drill = none) : switched y h = y := by
  unfold switched
  rw [hd]

theorem trySwitch_no_drill {y : State} (hd : y.red.drill = none) : y.trySwitch = y := by
  unfold State.trySwitch
  rw [hd]

theorem yielded_stays {y : State} (h : Heartbeat) (hs : y.head ≠ hStarting) (hf : ¬(y.head = hFenced ∧ bit h.flags 0 = true ∧ h.epoch > y.epoch)) :
    yielded y h = y := by
  unfold yielded
  rw [if_neg fun g => hs g.1, if_neg hf]

theorem acknowledged_idle {y : State} (h : Heartbeat) (ha : y.isActive = false) : acknowledged y h = y := if_neg (ne_true_of_eq_false ha)

/-- A hub whose head state is another one is no active head. -/
theorem not_active {y : State} (h : y.head ≠ hActive) : y.isActive = false := beq_false_of_ne h

/-- Neither the routes nor what any row may change holds the head state. -/
theorem redStat_apart : ∀ r ∈ [(LNK_ROUTE_STAT, 0, 1), (LNK_ROUTE_CFG, 0, 1)] ++ logRegs, ¬ InArray r.1 r.2.1 r.2.2 RED_STAT := by
  intro r hr ⟨j, hj⟩
  simp only [List.cons_append, List.nil_append, logRegs, List.mem_cons, List.not_mem_nil, or_false] at hr
  rcases hr with rfl | rfl | rfl | rfl | rfl | rfl | rfl | rfl | rfl <;>
    simp only [RED_STAT, LNK_ROUTE_STAT, LNK_ROUTE_CFG, SYS_BB_STAT, QM_DROP_STAT, QM_Q_FLAGS, PMC_STAT, PMC_CNT, RED_MIRROR, CMP_ERR] at hj <;> omega

/-- The first of what a change to STANDBY changes: the head's state, and what the state it leaves was waiting for. -/
def standing (x : State) : State :=
  ((x.setFld RED_STAT RED_STAT_STATE hStandby).setFld RED_STAT RED_STAT_HOLDS_LATCH 0).onRed fun r =>
    { r with stateSince := x.now, requestSentAt := 0, requestOut := false, asking := false }

/-- What follows a change from FENCED to STANDBY is told and routed, and leaves the head as it is (R412). -/
theorem setHead_standby {x : State} (h : x.head = hFenced) :
    Leaves [.red] [(LNK_ROUTE_STAT, 0, 1), (LNK_ROUTE_CFG, 0, 1)] (standing x) (x.setHead hStandby 5) := by
  unfold State.setHead
  dsimp only
  rw [if_neg (by rw [h]; decide), if_neg (by decide), if_neg (by decide)]
  exact State.reroute_keep (keeps_leaves (standing x) _ _ (by decide) (by decide))
    (State.sendLinkState_keep (keeps_leaves (standing x) _ _ (by decide) (by decide))
      (State.issue_keep (keeps_leaves (standing x) _ _ (by decide) (by decide)) (leaves_refl _ _ (standing x))))

theorem head_standing (x : State) : (standing x).head = hStandby := by
  unfold State.head standing
  rw [State.onRed_fld, State.fld_setFld_other _ _ _ _ _ (by decide) (by decide) (by decide), State.fld_setFld_self _ _ _ _ (by decide)]
  rfl

theorem drill_standing (x : State) : (standing x).red.drill = x.red.drill := by
  unfold standing
  rw [State.onRed_red, State.setFld_red, State.setFld_red]

/-- A fenced head that goes to STANDBY is a standby, and in the drill it was in (R412). -/
theorem toStandby_head {x : State} (h : x.head = hFenced) : x.toStandby.head = hStandby ∧ x.toStandby.red.drill = x.red.drill := by
  have kept := setHead_standby h
  have head : (x.setHead hStandby 5).head = hStandby := by
    have same : (x.setHead hStandby 5).head = (standing x).head := by
      unfold State.head
      rw [State.fld_eq _ _ _ (by decide), State.fld_eq _ _ _ (by decide), kept.2 RED_STAT redStat_apart]
    exact same.trans (head_standing x)
  have drill : (x.setHead hStandby 5).red.drill = x.red.drill := by
    have same : (x.setHead hStandby 5).red = (standing x).red := kept.1 .red (by decide)
    rw [same, drill_standing]
  have shown : ∀ y : State, (y.setFld RED_STAT RED_STAT_MIRROR_OK 0).head = y.head ∧ (y.setFld RED_STAT RED_STAT_MIRROR_OK 0).red = y.red := fun y =>
    ⟨State.fld_setFld_other _ _ _ _ _ (by decide) (by decide) (by decide), State.setFld_red _ _ _ _⟩
  unfold State.toStandby
  dsimp only
  rw [(shown _).1, (shown _).2, State.onRed_red]
  refine ⟨?_, drill⟩
  unfold State.head at head ⊢
  rw [State.onRed_fld]
  exact head

theorem mirrorItem_drill (x : State) (ty : Nat) (bytes : List Byte) : (x.mirrorItem ty bytes).red.drill = x.red.drill := by
  have sent : ∀ (y : State) c, (y.sendHead c).red = y.red := fun y c => State.sendHead_keep (keeps_part y .red) (Part.same_refl .red y)
  unfold State.mirrorItem
  dsimp only
  rw [sent]
  rfl

/-- The whole mirror that is sent again leaves the drill as it is (R426). -/
theorem resend_drill (x : State) : x.resend.red.drill = x.red.drill := by
  unfold State.resend
  refine foldl_keep (P := fun y => y.red.drill = x.red.drill) (fun y a h => ?_)
    (foldl_keep (P := fun y => y.red.drill = x.red.drill) (fun y j h => ?_)
      (foldl_keep (P := fun y => y.red.drill = x.red.drill) (fun y l h => ?_) rfl))
  · exact (mirrorItem_drill y 3 _).trans h
  · exact (mirrorItem_drill y 2 _).trans h
  · exact (mirrorItem_drill y 1 _).trans h

/-- Settles O55: what is due takes its branch. -/
theorem latchEventsComplete : Obligations.LatchEventsComplete := by
  refine ⟨?send, fun p h q => ?passed, fun p h => ?standby, fun p h => ?fenced, fun p h => ?acked, fun p h => ?resync, fun ring r => ?failed,
    fun ring => ?restored, ?renew, fun o => ?unconfirmed, ?expiry, ?request, ?holdoff, fun k e => ?lease, fun k e ep who => ?quiet, fun k e => ?unheld⟩
  case send =>
    refine occurs_of (f := State.heartbeats) (fun _ _ => rfl) (fun x ⟨hon, hnow⟩ => ?_)
    exact if_pos (by rw [hon, decide_eq_true hnow]; rfl)
  case passed =>
    refine occurs_of (f := (State.heartbeatIn · p h)) (fun _ _ => rfl) (fun x hto => ?_)
    obtain ⟨hother, hpass⟩ := passHead_to hto (.heartbeat h)
    exact (if_pos hother).trans hpass
  case standby =>
    refine occurs_of (f := (State.heartbeatIn · p h)) (fun _ _ => rfl) (fun x ⟨hown, hs, hh, hd⟩ => ?_)
    have head : (beatHeard x h).head = hStandby := hh
    obtain ⟨hdrill, -, -⟩ := beatHeard_red x h
    rw [heartbeatIn_partner hown (by rw [hh]; decide) hs, yielded_stays h (by rw [head]; decide) (fun g => absurd (head.symm.trans g.1) (by decide)),
      acknowledged_idle h (not_active (by rw [head]; decide)), switched_no_drill h (hdrill.trans hd)]
  case fenced =>
    refine occurs_of (f := (State.heartbeatIn · p h)) (fun _ _ => rfl) (fun x ⟨hown, hs, hh, hd, hholds, hep⟩ => ?_)
    have head : (beatHeard x h).head = hFenced := hh
    have yields : yielded (beatHeard x h) h = (beatHeard x h).toStandby := by
      unfold yielded
      rw [if_neg (by rw [head]; exact fun g => absurd g.1 (by decide)), if_pos ⟨head, hholds, hep⟩]
    obtain ⟨hdrill, -, -⟩ := beatHeard_red x h
    obtain ⟨hnew, hkept⟩ := toStandby_head head
    rw [heartbeatIn_partner hown (by rw [hh]; decide) hs, yields, acknowledged_idle h (not_active (by rw [hnew]; decide)),
      switched_no_drill h (hkept.trans (hdrill.trans hd))]
  case acked =>
    refine occurs_of (f := (State.heartbeatIn · p h)) (fun _ _ => rfl) (fun x ⟨hown, hs, hh, hd, hseq, hask⟩ => ?_)
    have head : (beatHeard x h).head = hActive := hh
    have active : (beatHeard x h).isActive = true := beq_iff_eq.mpr hh
    obtain ⟨hdrill, hacked, -⟩ := beatHeard_red x h
    have new : h.mirrorSeq > (beatHeard x h).red.acked := by rw [hacked]; exact hseq
    rw [heartbeatIn_partner hown (by rw [hh]; decide) hs, yielded_stays h (by rw [head]; decide) (fun g => absurd (head.symm.trans g.1) (by decide))]
    unfold acknowledged
    dsimp only
    rw [if_pos active, if_pos new, hask, Bool.false_and, if_neg Bool.false_ne_true]
    exact (congrArg (switched · h) (trySwitch_no_drill (by exact hdrill.trans hd))).trans (switched_no_drill h (by exact hdrill.trans hd))
  case resync =>
    refine occurs_of (f := (State.heartbeatIn · p h)) (fun _ _ => rfl) (fun x ⟨hown, hs, hh, hd, hseq, hask, hasked⟩ => ?_)
    have head : (beatHeard x h).head = hActive := hh
    have active : (beatHeard x h).isActive = true := beq_iff_eq.mpr hh
    obtain ⟨hdrill, hacked, hresync⟩ := beatHeard_red x h
    have old : ¬ h.mirrorSeq > (beatHeard x h).red.acked := by rw [hacked]; exact Nat.not_lt.mpr hseq
    have idle : ((beatHeard x h).onRed fun r => { r with partnerResync := true }).resend.red.drill = none :=
      (resend_drill _).trans (hdrill.trans hd)
    rw [heartbeatIn_partner hown (by rw [hh]; decide) hs, yielded_stays h (by rw [head]; decide) (fun g => absurd (head.symm.trans g.1) (by decide))]
    unfold acknowledged
    dsimp only
    rw [if_pos active, if_neg old, hask, hresync, hasked, Bool.not_false, Bool.and_self, if_pos rfl, trySwitch_no_drill idle, switched_no_drill h idle]
  case failed =>
    refine occurs_of (f := (State.pathFail · ring)) (fun _ _ => rfl) (fun x ⟨hr, hup, hnow⟩ => ?_)
    unfold State.pathFail
    dsimp only
    rw [hr]
    exact if_pos (by rw [hup, decide_eq_true hnow]; rfl)
  case restored =>
    refine occurs_of (f := (State.pathRestore · ring)) (fun _ _ => rfl) (fun x ⟨hup, hrun⟩ => ?_)
    exact if_pos (by rw [hup, decide_eq_true hrun]; rfl)
  case renew =>
    refine occurs_of (f := State.renew) (fun _ _ => rfl) (fun x ⟨ha, hout, hnow⟩ => ?_)
    unfold State.renew
    dsimp only
    rw [if_neg (by rw [ha]; decide), hout]
    exact if_pos hnow
  case unconfirmed =>
    refine occurs_of (f := State.renew) (fun _ _ => rfl) (fun x ⟨ha, hout, hnow⟩ => ?_)
    unfold State.renew
    dsimp only
    rw [if_neg (by rw [ha]; decide), hout]
    exact if_pos hnow
  case expiry =>
    refine occurs_of (f := State.leaseOut) (fun _ _ => rfl) (fun x ⟨ha, hnow⟩ => ?_)
    exact if_pos (by rw [ha, decide_eq_true hnow]; rfl)
  case request =>
    refine occurs_of (f := State.requestLatch) (fun _ _ => rfl) (fun x ⟨hmay, hdue⟩ => ?_)
    exact (if_neg (by rw [hmay]; decide)).trans (if_pos hdue)
  case holdoff =>
    refine occurs_of (f := State.holdoffEnd) (fun _ _ => rfl) (fun x ⟨hh, hask, hnow⟩ => ?_)
    exact if_pos ⟨hh, by rw [hask]; rfl, hnow⟩
  case lease =>
    refine occurs_of (f := (State.witExpire · k)) (fun _ _ => rfl) (fun x ⟨hl, hend, hheld⟩ => ?_)
    unfold State.witExpire
    rw [hl]
    exact if_pos ⟨hend, hheld⟩
  case quiet =>
    refine occurs_of (f := (State.quietEnd · k)) (fun _ _ => rfl) (fun x ⟨hq, hend, hbest⟩ => ?_)
    unfold State.quietEnd
    dsimp only
    rw [hq, hbest]
    exact if_neg (Nat.not_lt.mpr hend)
  case unheld =>
    refine occurs_of (f := (State.quietEnd · k)) (fun _ _ => rfl) (fun x ⟨hq, hend, hbest⟩ => ?_)
    unfold State.quietEnd
    dsimp only
    rw [hq, hbest]
    exact if_neg (Nat.not_lt.mpr hend)

end Sys2Proof
end

section
/-!
PROOFS. The mirror, its digest, the ledger's replay and the drills (13_head_redundancy.md R422 to R428, R435); obligation O56.
-/

namespace Sys2Proof

set_option Elab.async false

open Sys2Proof.Machine Sys2Proof.Machine.Reg Sys2Proof.Machine.Bits

/-- Mirror items that come leave a digest that waits as it is (R422). -/
theorem mirrorItems_digestWait (l : List (Nat × Nat × List Byte)) (x : State) :
    (l.foldl (fun s e =>
      if s.red.mirrorNext = 0 ∨ e.1 = s.red.mirrorNext + 1 then s.onRed fun r => { r with mirror := r.mirror ++ [e], mirrorNext := e.1 } else s) x).red.digestWait
      = x.red.digestWait := by
  refine foldl_keep (P := fun y => y.red.digestWait = x.red.digestWait) (fun y e h => ?_) rfl
  split
  · exact h
  · exact h

/-- A digest that agrees with the standby's own (R425). -/
theorem compareDigest_same {x : State} {d : DigestCell} (h : (x.digestOf d.cutoff d.st64).1 = d.digest) :
    x.compareDigest d = ((judged x 0).setFld RED_STAT RED_STAT_MIRROR_OK 1).onRed fun r => { r with resync := false } := by
  unfold State.compareDigest
  dsimp only
  rw [h, beq_self_eq_true]
  simp only [if_true]
  rfl

/-- A digest that differs from the standby's own (R425, R426). -/
theorem compareDigest_differs {x : State} {d : DigestCell} (h : (x.digestOf d.cutoff d.st64).1 ≠ d.digest) :
    x.compareDigest d =
      let y := (((judged x 1).setFld RED_STAT RED_STAT_MIRROR_OK 0).bump RED_COUNT RED_COUNT_DIGEST_FAIL).issue 0xC004
        [d.st64, (x.digestOf d.cutoff d.st64).1, d.digest, 0]
      if y.red.resync then y else y.onRed fun r => { r with resync := true, mirror := [], mirrorNext := 0 } := by
  unfold State.compareDigest
  dsimp only
  rw [beq_false_of_ne h]
  simp only [Bool.false_eq_true, if_false]
  rfl

/-- A digest from the partner comes to a standby (R425). -/
theorem digestIn_standby {x : State} {p : Nat} {d : DigestCell} (hown : x.address = some d.dest) (hh : x.head = hStandby) (hs : d.sender = x.partner) :
    x.digestIn p d = if x.red.mirrorNext ≥ d.cutoff then x.compareDigest d else x.onRed fun r => { r with digestWait := some (d, x.now) } := by
  unfold State.digestIn
  rw [if_neg (headElsewhere_own hown), if_neg (not_or.mpr ⟨not_not_intro hh, not_not_intro hs⟩)]

/-- The next packet of a ledger replay is due, or its end is (R423). -/
theorem replayLedger_due {x : State} {left : List Ledger} (hleft : x.red.replayLeft = some left) (ha : x.isActive = true)
    (hdue : x.red.replayAt = 0 ∨ x.red.replayAt + fineUs 50 ≤ x.now) :
    x.replayLedger =
      if (left.take 170).isEmpty then
        (x.issue 0xC005 [x.red.replaySent, x.red.replayOldest, x.fld RED_LEDGER RED_LEDGER_OVERFLOW]).onRed fun r => { r with replayLeft := none, replayAt := 0 }
      else
        let r := x.readLedger (left.take 170)
        let y := r.2.2.onRed fun y => { y with replayLeft := some (left.drop 170), replayAt := x.now, replaySent := y.replaySent + r.1.length }
        if r.1.isEmpty then y
        else y.originate 0x8003 (0x4000 + 64 * y.mySeg) (y.fld RED_CFG RED_CFG_HEAD_SLOT) 64 puReplay
          (le 2 r.1.length ++ le 2 0 ++ r.1.flatMap Ledger.entry) := by
  have due : (x.red.replayAt != 0 && decide (x.now < x.red.replayAt + fineUs 50)) = false := by
    rcases hdue with h | h
    · rw [h]
      rfl
    · rw [decide_eq_false (Nat.not_lt.mpr h), Bool.and_false]
  unfold State.replayLedger
  rw [hleft]
  dsimp only
  rw [if_neg (by rw [ha, due]; decide)]

/-- Settles O56: what is due takes its branch. -/
theorem mirrorEventsComplete : Obligations.MirrorEventsComplete := by
  refine ⟨fun p m q => ?passed, fun p m => ?items, ?resend, ?refresh, ?digest, fun p d q => ?digestPassed, fun p d => ?same, fun p d => ?differs,
    fun p d => ?kept, fun d a => ?missed, ?replayed, fun left => ?replay, fun d c => ?late, fun d => ?shadow, fun d => ?readiness, fun d => ?unready⟩
  case passed =>
    refine occurs_of (f := (State.mirrorIn · p m)) (fun _ _ => rfl) (fun x hto => ?_)
    obtain ⟨hother, hpass⟩ := passHead_to hto (.mirror m)
    exact (if_pos hother).trans hpass
  case items =>
    refine occurs_of (f := (State.mirrorIn · p m)) (fun _ _ => rfl) (fun x ⟨hown, hh, hs, hd⟩ => ?_)
    unfold State.mirrorIn
    dsimp only
    rw [if_neg (headElsewhere_own hown), if_neg (not_or.mpr ⟨not_not_intro hh, not_not_intro hs⟩), State.setFld_red, mirrorItems_digestWait, hd]
  case resend =>
    refine occurs_of (f := State.mirrorAgain) (fun _ _ => rfl) (fun x ⟨ha, hu, hnow⟩ => ?_)
    exact if_pos (by rw [ha, hu, decide_eq_true hnow]; rfl)
  case refresh =>
    refine occurs_of (f := State.stateRefresh) (fun _ _ => rfl) (fun x ⟨ha, hnow⟩ => ?_)
    exact if_pos (by rw [ha, decide_eq_true hnow]; rfl)
  case digest =>
    refine occurs_of (f := State.sendDigest) (fun _ _ => rfl) (fun x ⟨ha, hsec⟩ => ?_)
    exact if_neg (by rw [ha, decide_eq_false (Nat.not_le.mpr hsec)]; decide)
  case digestPassed =>
    refine occurs_of (f := (State.digestIn · p d)) (fun _ _ => rfl) (fun x hto => ?_)
    obtain ⟨hother, hpass⟩ := passHead_to hto (.digest d)
    exact (if_pos hother).trans hpass
  case same =>
    refine occurs_of (f := (State.digestIn · p d)) (fun _ _ => rfl) (fun x ⟨hown, hh, hs, hcut, hsame⟩ => ?_)
    rw [digestIn_standby hown hh hs, if_pos hcut, compareDigest_same hsame]
  case differs =>
    refine occurs_of (f := (State.digestIn · p d)) (fun _ _ => rfl) (fun x ⟨hown, hh, hs, hcut, hdiff⟩ => ?_)
    rw [digestIn_standby hown hh hs, if_pos hcut, compareDigest_differs hdiff]
  case kept =>
    refine occurs_of (f := (State.digestIn · p d)) (fun _ _ => rfl) (fun x ⟨hown, hh, hs, hcut⟩ => ?_)
    rw [digestIn_standby hown hh hs, if_neg (Nat.not_le.mpr hcut)]
  case missed =>
    refine occurs_of (f := State.digestLate) (fun _ _ => rfl) (fun x ⟨hd, hh, hnow⟩ => ?_)
    unfold State.digestLate
    rw [hd]
    exact if_pos ⟨hh, hnow⟩
  case replayed =>
    refine occurs_of (f := State.replayLedger) (fun _ _ => rfl) (fun x ⟨hleft, ha, hdue⟩ => ?_)
    rw [replayLedger_due hleft ha hdue]
    exact if_pos rfl
  case replay =>
    refine occurs_of (f := State.replayLedger) (fun _ _ => rfl) (fun x ⟨hleft, ha, hdue, hmore, hread⟩ => ?_)
    have part : (left.take 170).isEmpty = false := by
      rw [List.isEmpty_eq_false_iff, Ne, List.take_eq_nil_iff]
      simpa using hmore
    rw [replayLedger_due hleft ha hdue, if_neg (ne_true_of_eq_false part)]
    exact if_neg (by rw [List.isEmpty_eq_false_iff.mpr hread]; exact Bool.false_ne_true)
  case late =>
    refine occurs_of (f := State.switchLate) (fun _ _ => rfl) (fun x ⟨hd, hc, hk, hnow⟩ => ?_)
    unfold State.switchLate
    rw [hd]
    dsimp only
    rw [hc]
    exact if_pos ⟨hk, hnow⟩
  case shadow =>
    refine occurs_of (f := State.drillOver) (fun _ _ => rfl) (fun x ⟨hd, hk, ha⟩ => ?_)
    unfold State.drillOver
    rw [hd]
    exact (if_pos hk).trans (if_pos ha)
  case readiness =>
    refine occurs_of (f := State.drillOver) (fun _ _ => rfl) (fun x ⟨hd, hk, hend⟩ => ?_)
    unfold State.drillOver
    rw [hd]
    dsimp only
    rw [if_neg (by rw [hk]; decide), if_pos hk]
    refine if_neg ?_
    rcases hend with h | h
    · rw [h]
      exact Bool.false_ne_true
    · rw [decide_eq_false (Nat.not_lt.mpr h), Bool.and_false]
      exact Bool.false_ne_true
  case unready =>
    refine occurs_of (f := State.drillOver) (fun _ _ => rfl) (fun x ⟨hd, hk, hc, hnow⟩ => ?_)
    unfold State.drillOver
    rw [hd]
    dsimp only
    rw [if_neg (by rw [hk]; decide), if_neg (by rw [hk]; decide)]
    exact if_pos (by rw [hc, decide_eq_true hnow]; rfl)

end Sys2Proof
end

section
/-!
PROOFS. What UPDATE_DATA leaves in the flash (15_porter_management.md R479); obligation O12.
-/

namespace Sys2Proof

set_option Elab.async false

open Sys2Proof.Machine Sys2Proof.Machine.Reg Sys2Proof.Machine.Bits

/-- Entries dropped by their addresses read as erased, the others as before. -/
theorem Mem.read_filter (d : Byte) (m : Mem) (keep : Nat → Bool) (a : Nat) :
    Mem.read d (m.filter fun e => keep e.1) a = if keep a then Mem.read d m a else d := by
  unfold Mem.read
  induction m with
  | nil => exact (ite_self d).symm
  | cons e m ih =>
    by_cases he : e.1 = a
    · by_cases hk : keep a = true
      · rw [List.filter_cons_of_pos (by rw [he]; exact hk), Tab.get, Tab.get, if_pos he, if_pos hk, if_pos he]
      · rw [List.filter_cons_of_neg (by rw [he]; exact hk), ih, if_neg hk, if_neg hk]
    · by_cases hk : keep e.1 = true
      · rw [List.filter_cons_of_pos (p := fun e : Nat × Byte => keep e.1) hk, Tab.get, if_neg he, ih, Tab.get, if_neg he]
      · rw [List.filter_cons_of_neg (p := fun e : Nat × Byte => keep e.1) hk, ih, Tab.get, if_neg he]

/-- What programming leaves: the data, erased bytes in the sectors that the data is the first to reach, and what was there elsewhere (R479). -/
theorem programFlash_reads (m : Mem) (k off : Nat) (data : List Byte) :
    let lo := slotBase k + ceilDiv off 65536 * 65536
    let hi := slotBase k + ceilDiv (off + data.length) 65536 * 65536
    (∀ i, i < data.length → Mem.read 0xFF#8 (programFlash m k off data) (slotBase k + off + i) = data.getD i 0xFF#8)
    ∧ ∀ a, ¬ (slotBase k + off ≤ a ∧ a < slotBase k + off + data.length) →
      Mem.read 0xFF#8 (programFlash m k off data) a = if lo ≤ a ∧ a < hi then 0xFF#8 else Mem.read 0xFF#8 m a := by
  intro lo hi
  refine ⟨fun i hi => ?_, fun a ha => ?_⟩
  · exact (Mem.read_writeBytes_in _ _ _ _ i hi).trans (by rw [List.getD_eq_getElem?_getD, List.getElem?_eq_getElem hi, Option.getD_some])
  · refine (Mem.read_writeBytes_out _ _ _ (by omega)).trans ((Mem.read_filter _ m (fun a => decide (a < lo) || decide (hi ≤ a)) a).trans ?_)
    by_cases h : lo ≤ a ∧ a < hi
    · rw [if_pos h, if_neg (by simp; omega)]
    · rw [if_neg h, if_pos (by simp; omega)]

theorem same_ite {part : Part} {s y z : State} {b : Prop} [Decidable b] (hy : part.Same s y) (hz : part.Same s z) : part.Same s (if b then y else z) := by
  split
  · exact hy
  · exact hz

/-- A command that is taken leaves the flash as it is until its body runs. -/
theorem taken_flash (op t : Nat) (p : Packet) (s : State) : (taken op t p s).bufs.flash = s.bufs.flash := by
  have began : Part.flash.Same s (s.begin_ t) := State.begin__keep (keeps_part s .flash) (Part.same_refl .flash s)
  have seen : Part.flash.Same s ((if flagOrigin p then (s.begin_ t).see op p else s.begin_ t).pmc 0xB01 0 1) :=
    State.pmc_keep (keeps_part s .flash) (same_ite (State.see_keep (keeps_part s .flash) began) began)
  have counted := same_ite (b := flagOrigin p = true) seen (State.acceptCtr_keep (a2 := p.slot) (a3 := p.counter) (keeps_part s .flash) seen)
  exact same_ite (State.pmc_keep (keeps_part s .flash) counted) counted

/-- Settles O12: the completion of UPDATE_DATA names what it programs, and that is read. -/
theorem updateDataStores : Obligations.UpdateDataStores := by
  intro t p cr s u e h hwf he hoff hlen h4 hu
  obtain ⟨-, data, -, -⟩ := updateCommandsComplete
  obtain ⟨hexec, -, hleft, -⟩ := data e t p cr s h ⟨he, hoff, by rw [hoff]; exact hlen, h4⟩
  have flash : u.bufs.flash = programFlash s.bufs.flash e.slot e.received (p.params.drop 4) := by
    have next := Host.Outcome.next.inj (hexec.symm.trans hu)
    have kept := hleft.1 .flash (by decide)
    rw [next] at kept
    exact kept.trans (congrArg (fun m => programFlash m e.slot e.received (p.params.drop 4)) (taken_flash 0x0011 t p s))
  obtain ⟨hin, hout⟩ := programFlash_reads s.bufs.flash e.slot e.received (p.params.drop 4)
  rw [flash]
  exact ⟨hin, fun a hlo hhi ha => (hout a ha).trans (if_pos ⟨hlo, hhi⟩), fun a hr ha => (hout a ha).trans (if_neg hr)⟩

end Sys2Proof
end

section
/-!
PROOFS. A pulse on RESET_N (18_electrical_and_package.md R523; 00_scope.md R5): what a hub reset starts again, and what it keeps; obligation O7.
-/

namespace Sys2Proof

set_option Elab.async false

open Sys2Proof.Machine Sys2Proof.Machine.Reg Sys2Proof.Machine.Bits

theorem resetCause_ne_slotCtr (k : Nat) : SYS_RESET_CAUSE ≠ CMD_SLOT_CTR k := by
  unfold CMD_SLOT_CTR SYS_RESET_CAUSE
  omega

/-- A hub reset tells its cause: the counters of the slots lie elsewhere (R5). -/
theorem hubReset_cause (x : State) (cause : Nat) : (x.hubReset cause).rd SYS_RESET_CAUSE = word cause := by
  unfold State.rd State.hubReset resetRegs
  dsimp only
  rw [get_foldl_of_ne ?slots, Tab.get_set_self]
  case slots =>
    intro r c _
    split
    · exact Tab.get_set_ne _ _ _ _ (resetCause_ne_slotCtr _)
    · rfl

/-- What is of NVM but for the black box is the same where that part is (R473). -/
theorem nvm_same {α : Type} (g : Nvm → α) (hbb : ∀ n bb k, g { n with bb := bb, bbNext := k } = g n) {a b : State} (h : Part.nvm.Same a b) :
    g b.nvm = g a.nvm := by
  rw [show b.nvm = { a.nvm with bb := b.nvm.bb, bbNext := b.nvm.bbNext } from h]
  exact hbb _ _ _

/-- The parts that a hub reset starts again (R5). -/
def startedParts : List Part := [.work, .acq, .tb, .tiu, .cap, .fblk, .cmp, .lnk, .cmd, .mem, .cal, .pmc]

theorem hubReset_parts (x : State) (cause : Nat) {p : Part} (hp : p ∈ startedParts) : p.Same State.reset (x.hubReset cause) := by
  simp only [startedParts, List.mem_cons, List.not_mem_nil, or_false] at hp
  rcases hp with rfl | rfl | rfl | rfl | rfl | rfl | rfl | rfl | rfl | rfl | rfl | rfl
  case inr.inr.inr.inr.inr.inr.inr.inr.inr.inl => exact ⟨rfl, fun d hd => nomatch hd⟩
  all_goals rfl

/-- What a row keeps in NVM whatever it does stands after its end. -/
theorem closing_nvm {α : Type} (g : Nvm → α) (hbb : ∀ n bb k, g { n with bb := bb, bbNext := k } = g n) {s x : State} (h : g x.nvm = g s.nvm) :
    g (closing s x).nvm = g s.nvm := by
  have mirrored : g x.mirrorChanges.nvm = g s.nvm := (nvm_same g hbb (State.mirrorChanges_keep (keeps_part x .nvm) (Part.same_refl .nvm x))).trans h
  have guarded : g (State.guardNvm s x.mirrorChanges).nvm = g s.nvm := by
    rcases guardNvm_cases s x.mirrorChanges with e | e <;> rw [e]
    · exact mirrored
    · exact hbb _ _ _
  exact (nvm_same g hbb (State.settle_keep (keeps_part _ .nvm) (Part.same_refl .nvm _))).trans guarded

/-- Settles O7: the row ends from the state after the reset, and its end changes none of what is named. -/
theorem resetPulseResets : Obligations.ResetPulseResets := by
  intro t w s u hw hu
  have pulse : exec (.resetNPulse t w) s = .next (closing s ((s.begin_ t).hubReset 1)) :=
    (event_closes t (State.resetPulse · w) s).trans (congrArg (fun y => Host.Outcome.next (closing s y)) (if_neg (Nat.not_lt.mpr hw)))
  obtain rfl := Host.Outcome.next.inj (pulse.symm.trans hu)
  have closed := closing_closed s ((s.begin_ t).hubReset 1)
  have now : (closing s ((s.begin_ t).hubReset 1)).now = 0 := closing_now s _
  have began : Part.nvm.Same s (s.begin_ t) := State.begin__keep (keeps_part s .nvm) (Part.same_refl .nvm s)
  have words : (s.begin_ t).nvm.words = s.nvm.words := nvm_same Nvm.words (fun _ _ _ => rfl) began
  have creds : (s.begin_ t).nvm.creds = s.nvm.creds := nvm_same Nvm.creds (fun _ _ _ => rfl) began
  have flash : Part.flash.Same s (s.begin_ t) := State.begin__keep (keeps_part s .flash) (Part.same_refl .flash s)
  have waiting : Part.waiting.Same s (s.begin_ t) := State.begin__keep (keeps_part s .waiting) (Part.same_refl .waiting s)
  refine ⟨now, ?xc, ?cause, ?flash, closing_nvm Nvm.words (fun _ _ _ => rfl) words, closing_nvm Nvm.creds (fun _ _ _ => rfl) creds, ?waiting, ?parts, ?regs⟩
  case xc =>
    unfold State.xc
    rw [now]
  case cause =>
    rw [closed.rest.2 SYS_RESET_CAUSE (not_logRegs (by decide) (by decide)), hubReset_cause]
    rfl
  case flash => exact (closed.rest.1 .flash (by decide)).trans flash
  case waiting => exact (closed.rest.1 .waiting (by decide)).trans waiting
  case parts =>
    intro p hp
    have kept : p = .cmd ∨ p ∈ keptParts := by revert p; decide
    refine Part.same_trans (hubReset_parts (s.begin_ t) 1 hp) ?_
    rcases kept with rfl | kept
    · exact closed.cmd
    · exact closed.rest.1 p kept
  case regs =>
    intro a hc ha hs hlog hwords
    rw [closed.rest.2 a hlog]
    exact hubReset_rd (by rw [words]; exact hwords) ha hc fun k hk => hs ⟨k, hk⟩

end Sys2Proof
end

section
/-!
PROOFS. Failed starts, Porter restarts and PFW_N (15_porter_management.md R457 to R473); obligation O22.
-/

namespace Sys2Proof

set_option Elab.async false

open Sys2Proof.Machine Sys2Proof.Machine.Reg Sys2Proof.Machine.Bits

/-- The boot state that a failed start writes (R463, R469). -/
def failMarks (reason : Nat) (n : Nvm) : Nvm :=
  let n := { n with fails := satN 4 (n.fails + 1), reason := reason }
  match n.trialRunning with
  | some k => { n.onSlot k (fun m => { m with valid := false }) with trialRunning := none, trialFailed := true, trialFailedSince := true }
  | none => n

/-- A start that has failed, before the hub resets: the marks written, and START_FAILED committed and told. -/
def failedBeforeReset (reason : Nat) (x : State) : State :=
  ((x.onNvm (failMarks reason)).bbCommit 0x0002 [reason, x.sys.bootSlot, (failMarks reason x.nvm).fails]).conLine (.startFailed reason)

theorem failedStart_starting {x : State} (h : starting x) (reason : Nat) :
    x.failedStart reason = ((failedBeforeReset reason x).hubReset 4).onSys fun y => { y with conOut := (failedBeforeReset reason x).sys.conOut ++ y.conOut } := by
  obtain ⟨⟨hlow, hrose⟩, hphase⟩ := h
  refine if_neg ?_
  rw [hlow, hrose]
  rcases hphase with h | h <;> rw [h] <;> decide

/-- The marks of a failed start (R463, R469). -/
theorem failMarks_marks (reason : Nat) (n : Nvm) :
    (failMarks reason n).fails = satN 4 (n.fails + 1) ∧ (failMarks reason n).reason = reason ∧ (failMarks reason n).trialRunning = none
      ∧ ∀ k, n.trialRunning = some k → ((failMarks reason n).slot k).valid = false ∧ (failMarks reason n).trialFailed = true := by
  unfold failMarks
  cases h : n.trialRunning with
  | none => exact ⟨rfl, rfl, rfl, fun k hk => nomatch hk⟩
  | some k =>
    dsimp only
    unfold Nvm.onSlot Nvm.slot
    by_cases hk : k = 0 <;> simp [hk]

/-- NVM after a failed start is as it was marked, but for the black box and what the reset itself stores. -/
theorem failedStart_nvm {α : Type} (g : Nvm → α) (hbb : ∀ n bb k, g { n with bb := bb, bbNext := k } = g n)
    (hreset : ∀ n a k o, g { n with hubAddr := a, nextAddr := none, heldAtReset := k, heldOldest := o } = g n) {x : State} (h : starting x) (reason : Nat) :
    g (x.failedStart reason).nvm = g (failMarks reason x.nvm) := by
  have told : Part.nvm.Same (x.onNvm (failMarks reason)) (failedBeforeReset reason x) :=
    State.conLine_keep (keeps_part _ .nvm) (State.bbCommit_keep (keeps_part _ .nvm) (Part.same_refl .nvm _))
  rw [failedStart_starting h]
  exact (hreset _ _ _ _).trans (nvm_same g hbb told)

/-- A failed start resets the hub with cause 0x04 (R463). -/
theorem failedStart_resets {s x z u : State} {reason : Nat} (h : starting z) (hnvm : z.nvm = x.nvm) (hp : Powered s)
    (closed : Closed s (z.failedStart reason) u) : AfterFailedStart reason x u := by
  have cause : (z.failedStart reason).rd SYS_RESET_CAUSE = 4#32 := by
    rw [failedStart_starting h]
    exact hubReset_cause (failedBeforeReset reason z) 4
  have low : (failedBeforeReset reason z).sys.pfwNLow = false := by
    have told : Part.sys.Same z ((z.onNvm (failMarks reason)).bbCommit 0x0002 [reason, z.sys.bootSlot, (failMarks reason z.nvm).fails]) :=
      State.bbCommit_keep (keeps_part _ .sys) (Part.same_refl .sys z)
    exact (congrArg Sys.pfwNLow told).trans h.1.1
  have phase : (z.failedStart reason).sys.phase = .fill := by
    rw [failedStart_starting h]
    exact if_neg (ne_true_of_eq_false low)
  have marks : ∀ {α : Type} (g : Nvm → α), (∀ n bb k, g { n with bb := bb, bbNext := k } = g n) →
      (∀ n a k o, g { n with hubAddr := a, nextAddr := none, heldAtReset := k, heldOldest := o } = g n) → g u.nvm = g (failMarks reason x.nvm) :=
    fun g hbb hreset => (nvm_same g hbb (closed.nvm hp)).trans ((failedStart_nvm g hbb hreset h reason).trans (by rw [hnvm]))
  obtain ⟨hfails, hreason, hrunning, htrial⟩ := failMarks_marks reason x.nvm
  refine ⟨(closed.rest.2 SYS_RESET_CAUSE (not_logRegs (by decide) (by decide))).trans cause, ?_,
    (marks Nvm.fails (fun _ _ _ => rfl) (fun _ _ _ _ => rfl)).trans hfails, (marks Nvm.reason (fun _ _ _ => rfl) (fun _ _ _ _ => rfl)).trans hreason,
    (marks Nvm.trialRunning (fun _ _ _ => rfl) (fun _ _ _ _ => rfl)).trans hrunning, fun k hk => ⟨?_, ?_⟩⟩
  · exact (congrArg Sys.phase (closed.rest.1 .sys (by decide))).trans phase
  · exact (marks (fun n => (n.slot k).valid) (fun _ _ _ => rfl) (fun _ _ _ _ => rfl)).trans (htrial k hk).1
  · exact (marks Nvm.trialFailed (fun _ _ _ => rfl) (fun _ _ _ _ => rfl)).trans (htrial k hk).2

/-- A start under way has not booted. -/
theorem starting_phase {x : State} (h : starting x) : x.sys.phase ≠ .running ∧ x.sys.phase ≠ .minimal := by
  obtain ⟨-, h | h⟩ := h <;> rw [h] <;> decide

/-- Settles O22: what is due takes its branch, and a failed start resets the hub. -/
theorem powerFailAndRestartsComplete : Obligations.PowerFailAndRestartsComplete := by
  refine ⟨?fall, ?rise, ?waits, ?watchdog, ?early, ?lockstep, ?failed, ?broken, ?resumed⟩
  case fall =>
    refine occurs_of (f := State.powerFail) (fun _ _ => rfl) (fun x hlow => ?_)
    exact if_neg (ne_true_of_eq_false hlow)
  case rise =>
    refine occurs_of (f := State.powerBack) (fun _ _ => rfl) (fun x ⟨hlow, hphase⟩ => ?_)
    unfold State.powerBack
    rw [if_neg (by rw [hlow]; decide), if_neg (by rw [beq_false_of_ne hphase]; exact Bool.false_ne_true)]
  case waits =>
    refine occurs_of (f := State.powerBack) (fun _ _ => rfl) (fun x ⟨hlow, hphase⟩ => ?_)
    unfold State.powerBack
    rw [if_neg (by rw [hlow]; decide), if_pos (by rw [hphase]; decide)]
  case watchdog =>
    refine occurs_of (f := State.watchdog) (fun _ _ => rfl) (fun x ⟨hphase, hloading⟩ => ?_)
    unfold State.watchdog
    rw [if_pos (by rw [hphase]; decide), if_neg (by rw [hloading]; decide)]
    rfl
  case early =>
    refine yields_of (f := State.watchdog) (fun _ _ => rfl) (fun s x u ⟨hstart, hphase⟩ hp closed => ?_)
    have fails : x.watchdog = x.failedStart 3 := by
      unfold State.watchdog
      rw [if_neg (by rw [hphase]; decide), if_pos (by rw [hphase]; decide)]
    rw [fails] at closed
    exact failedStart_resets hstart rfl (hp hstart.1) closed
  case lockstep =>
    refine occurs_of (f := State.lockstep) (fun _ _ => rfl) (fun x ⟨hbooted, hloading⟩ => ?_)
    unfold State.lockstep
    rw [if_pos hbooted, if_neg (by rw [hloading]; decide)]
    rfl
  case failed =>
    refine yields_of (f := State.lockstep) (fun _ _ => rfl) (fun s x u hstart hp closed => ?_)
    obtain ⟨hrun, hmin⟩ := starting_phase hstart
    have fails : x.lockstep = x.failedStart 4 := by
      unfold State.lockstep State.booted
      rw [if_neg (by rw [beq_false_of_ne hrun, beq_false_of_ne hmin]; decide)]
    rw [fails] at closed
    exact failedStart_resets hstart rfl (hp hstart.1) closed
  case broken =>
    refine occurs_of (f := (State.reloadDone · false)) (fun _ _ => rfl) (fun x hloading => ?_)
    unfold State.reloadDone
    rw [if_neg (by rw [hloading]; decide), if_pos (by decide)]
  case resumed =>
    refine occurs_of (f := (State.reloadDone · true)) (fun _ _ => rfl) (fun x hloading => ?_)
    unfold State.reloadDone
    dsimp only
    rw [if_neg (by rw [hloading]; decide)]
    exact if_neg Bool.false_ne_true

end Sys2Proof
end

section
/-!
PROOFS. Boot (14_memory_and_ecc.md R448, R450; 15_porter_management.md R461 to R469): the filling of the memories, the choice of a slot, MINIMAL,
BOOT_OK; obligation O21.
-/

namespace Sys2Proof

set_option Elab.async false

open Sys2Proof.Machine Sys2Proof.Machine.Reg Sys2Proof.Machine.Bits

/-- A register below all those that may change is none of them. -/
theorem below_apart {a : Nat} {l : List (Nat × Nat × Nat)} (h : (l.all fun r => decide (a < r.1)) = true) : ∀ r ∈ l, ¬ InArray r.1 r.2.1 r.2.2 a := by
  intro r hr ⟨i, hi⟩
  have low := of_decide_eq_true (List.all_eq_true.mp h r hr)
  omega

theorem fld_of_rd {x y : State} {a : Nat} (h : y.rd a = x.rd a) {f : Fld} (hf : f.lo + f.width ≤ 32) : y.fld a f = x.fld a f := by
  rw [State.fld_eq _ _ _ hf, State.fld_eq _ _ _ hf, h]

/-- Bits above the lowest are those of a mask, whatever the lowest is. -/
theorem bit_or_lowest (m : Nat) (b : Bool) {i : Nat} (h : i ≠ 0) : bit (m ||| (if b then 1 else 0)) i = bit m i := by
  have test : ∀ n, bit n i = n.testBit i := fun n => by
    rw [Nat.testBit_eq_decide_div_mod_eq]
    rfl
  rw [test, test, Nat.testBit_or]
  cases b
  · exact (congrArg (m.testBit i || ·) (Nat.zero_testBit i)).trans (Bool.or_false _)
  · rw [if_pos rfl, Bool.eq_false_iff.mpr fun e => h (Nat.testBit_one_eq_true_iff_self_eq_zero.mp e), Bool.or_false]

/-- The state in which the memories have been filled and tested, whatever came of it (R448, R449). -/
def filledMems (x : State) (r : FillResult) : State :=
  let s := (List.range 8).foldl (fun s v => (s.setFld (TIU_CORE_STAT v) TIU_CORE_STAT_LOCK_F 1).setFld (TIU_CORE_STAT v) TIU_CORE_STAT_LOCK_S 1) x
  let s := (s.wr MEM_BOOT_STAT 0#32).setFld MEM_BOOT_STAT MEM_BOOT_STAT_FILL_DONE 1
  ((s.setFld MEM_BOOT_STAT MEM_BOOT_STAT_TEST_DONE 1).setFld MEM_BOOT_STAT MEM_BOOT_STAT_FILL_MS (satN 16 r.fillMs)).conLine (.bootStep 3)

/-- Is the DRAM no use: training failed, or its two channels do not give a size in range (R440, R450)? -/
def dramFails (r : FillResult) : Bool := r.trainFailed || r.gib0 != r.gib1 || decide (r.gib0 + r.gib1 < 4)

/-- The memories that have failed, as MEM_BOOT_STAT tells them (R450). -/
def failedMems (r : FillResult) : Nat := bootFailMask r.fillFailed r.answers ||| (if dramFails r then 1 else 0)

/-- The state that tells which memories have failed. -/
def toldFailed (x : State) (r : FillResult) : State :=
  let s := (((filledMems x r).setFld MEM_BOOT_STAT MEM_BOOT_STAT_FAILED 1).setFld MEM_BOOT_STAT MEM_BOOT_STAT_FAIL_MEM (failedMems r)).onNvm fun n =>
    { n with reason := if dramFails r then 0x11 else 0x10 }
  s.onSys fun y => { y with deskewFailed := r.deskewFailed, cacheFailed := r.cacheFailed }

/-- What follows the filling of the memories: a start, or the branch of the memories that have failed (R450, R462). -/
theorem fillDone_filled {x : State} {r : FillResult} (h : x.sys.phase = .fill) :
    x.fillDone r =
      if failedMems r = 0 then ((filledMems x r).layOut (r.gib0 + r.gib1)).chooseSlot
      else
        let s := if bit (failedMems r) 3 then (toldFailed x r).withoutNvm else toldFailed x r
        if bit (failedMems r) 2 then s.onSys fun y => { y with phase := .held }
        else
          let s := if bit (failedMems r) 0 then s else s.layOut (r.gib0 + r.gib1)
          (s.onNvm fun n => { n with startCount := n.startCount + 1 }).enterMinimal 3 := by
  unfold State.fillDone
  rw [if_neg (by rw [h]; decide)]
  rfl

theorem filledMems_bootStat (x : State) (r : FillResult) :
    (filledMems x r).on MEM_BOOT_STAT MEM_BOOT_STAT_FILL_DONE = true ∧ (filledMems x r).on MEM_BOOT_STAT MEM_BOOT_STAT_TEST_DONE = true
      ∧ (filledMems x r).on MEM_BOOT_STAT MEM_BOOT_STAT_FAILED = false := by
  unfold filledMems State.conLine State.on
  dsimp only
  rw [State.onSys_fld, State.onSys_fld, State.onSys_fld]
  refine ⟨?_, ?_, ?_⟩
  · rw [State.fld_setFld_other _ _ _ _ _ (by decide) (by decide) (by decide), State.fld_setFld_other _ _ _ _ _ (by decide) (by decide) (by decide),
      State.fld_setFld_self _ _ _ _ (by decide)]
    rfl
  · rw [State.fld_setFld_other _ _ _ _ _ (by decide) (by decide) (by decide), State.fld_setFld_self _ _ _ _ (by decide)]
    rfl
  · rw [State.fld_setFld_other _ _ _ _ _ (by decide) (by decide) (by decide), State.fld_setFld_other _ _ _ _ _ (by decide) (by decide) (by decide),
      State.fld_setFld_other _ _ _ _ _ (by decide) (by decide) (by decide), State.fld_eq _ _ _ (by decide), State.rd_wr_self]
    rfl

/-- The filling of the memories changes registers alone, and the console's lines. -/
theorem filledMems_keeps {α : Type} (g : State → α) (hg : ∀ s a w, g (State.wr s a w) = g s)
    (hc : ∀ s l, g (State.conLine s l) = g s) (x : State) (r : FillResult) : g (filledMems x r) = g x := by
  have set : ∀ s a f v, g (State.setFld s a f v) = g s := fun s a f v => State.setFld_same (g := g) s a f v hg
  unfold filledMems
  dsimp only
  rw [hc, set, set, set]
  refine (hg _ _ _).trans ?_
  refine foldl_keep (P := fun s => g s = g x) (fun s v hs => ?_) rfl
  rw [set, set, hs]

theorem toldFailed_on (x : State) (r : FillResult) : (toldFailed x r).on MEM_BOOT_STAT MEM_BOOT_STAT_FAILED = true := by
  unfold toldFailed State.on
  dsimp only
  rw [State.onSys_fld, State.onNvm_fld, State.fld_setFld_other _ _ _ _ _ (by decide) (by decide) (by decide), State.fld_setFld_self _ _ _ _ (by decide)]
  rfl

/-- The layout leaves all but MEM_DRAM_CFG and what an event tells (R440, R441). -/
theorem layOut_leaves (x : State) (gib : Nat) : Leaves [.sys, .nvm] [(MEM_DRAM_CFG, 0, 1)] x (x.layOut gib) :=
  State.layOut_keep (keeps_leaves x _ _ (by decide) (by decide)) (leaves_refl _ _ x)

theorem bootStat_apart : ∀ r ∈ [(MEM_DRAM_CFG, 0, 1)] ++ logRegs, ¬ InArray r.1 r.2.1 r.2.2 MEM_BOOT_STAT := by
  intro r hr ⟨j, hj⟩
  simp only [List.cons_append, List.nil_append, logRegs, List.mem_cons, List.not_mem_nil, or_false] at hr
  rcases hr with rfl | rfl | rfl | rfl | rfl | rfl | rfl | rfl <;>
    simp only [MEM_BOOT_STAT, MEM_DRAM_CFG, SYS_BB_STAT, QM_DROP_STAT, QM_Q_FLAGS, PMC_STAT, PMC_CNT, RED_MIRROR, CMP_ERR] at hj <;> omega

theorem dramCfg_apart : ∀ r ∈ [] ++ logRegs, ¬ InArray r.1 r.2.1 r.2.2 MEM_DRAM_CFG := by
  intro r hr ⟨j, hj⟩
  simp only [List.nil_append, logRegs, List.mem_cons, List.not_mem_nil, or_false] at hr
  rcases hr with rfl | rfl | rfl | rfl | rfl | rfl | rfl <;>
    simp only [MEM_DRAM_CFG, SYS_BB_STAT, QM_DROP_STAT, QM_Q_FLAGS, PMC_STAT, PMC_CNT, RED_MIRROR, CMP_ERR] at hj <;> omega

theorem layOut_installed (x : State) {gib : Nat} (h : gib < 32) : (x.layOut gib).fld MEM_DRAM_CFG MEM_DRAM_CFG_INSTALLED = gib := by
  have issued : ∀ (y : State) c l, (y.issue c l).fld MEM_DRAM_CFG MEM_DRAM_CFG_INSTALLED = y.fld MEM_DRAM_CFG MEM_DRAM_CFG_INSTALLED := fun y c l =>
    fld_of_rd ((State.issue_keep (keeps_leaves y [] [] (by decide) (by decide)) (leaves_refl _ _ y)).2 MEM_DRAM_CFG dramCfg_apart) (by decide)
  have shown : ∀ a b c, ((((x.setFld MEM_DRAM_CFG MEM_DRAM_CFG_INSTALLED gib).setFld MEM_DRAM_CFG MEM_DRAM_CFG_HIST_NOW a).setFld MEM_DRAM_CFG
      MEM_DRAM_CFG_RET_NOW b).setFld MEM_DRAM_CFG MEM_DRAM_CFG_WORK_NOW c).fld MEM_DRAM_CFG MEM_DRAM_CFG_INSTALLED = gib := fun a b c => by
    rw [State.fld_setFld_other _ _ _ _ _ (by decide) (by decide) (by decide), State.fld_setFld_other _ _ _ _ _ (by decide) (by decide) (by decide),
      State.fld_setFld_other _ _ _ _ _ (by decide) (by decide) (by decide), State.fld_setFld_self _ _ _ _ (by decide)]
    exact Nat.mod_eq_of_lt h
  unfold State.layOut
  extract_lets h0 w0 d h' w usable fits l y
  by_cases hfits : fits = true
  · rw [if_pos hfits]
    exact shown _ _ _
  · rw [if_neg hfits]
    exact (issued _ _ _).trans (shown _ _ _)

/-- A start from slot `k` (R462, R464). -/
theorem chooseSlot_some {x : State} {k : Nat} {trial : Bool} (h : x.nvm.choose = some (k, trial)) :
    x.chooseSlot =
      let s := (x.onNvm fun n => { n with startCount := n.startCount + 1 }).conLine (.bootStep 4)
      (s.onNvm fun n => { n.onSlot k (fun m => if trial then { m with trial := false } else m) with trialRunning := if trial then some k else none }).onSys
        fun y => { y with phase := .imageLoad, bootSlot := k, bootFromTrial := trial, stepFourAt := s.now } := by
  have chosen : ((x.onNvm fun n => { n with startCount := n.startCount + 1 }).conLine (.bootStep 4)).nvm.choose = some (k, trial) := h
  unfold State.chooseSlot
  dsimp only
  rw [chosen]
  rfl

theorem chooseSlot_rd {x : State} {k : Nat} {trial : Bool} (h : x.nvm.choose = some (k, trial)) (a : Nat) : x.chooseSlot.rd a = x.rd a := by
  rw [chooseSlot_some h]
  rfl

theorem chooseSlot_startCount {x : State} {k : Nat} {trial : Bool} (h : x.nvm.choose = some (k, trial)) :
    x.chooseSlot.nvm.startCount = x.nvm.startCount + 1 := by
  rw [chooseSlot_some h]
  show (Nvm.onSlot _ k _).startCount = _
  unfold Nvm.onSlot
  split <;> rfl

theorem chooseSlot_sys {x : State} {k : Nat} {trial : Bool} (h : x.nvm.choose = some (k, trial)) :
    x.chooseSlot.sys.phase = .imageLoad ∧ x.chooseSlot.sys.bootSlot = k ∧ x.chooseSlot.sys.bootFromTrial = trial
      ∧ x.chooseSlot.sys.stepFourAt = x.now := by
  rw [chooseSlot_some h]
  exact ⟨rfl, rfl, rfl, rfl⟩

/-- No memory has failed, and the DRAM is of use. -/
theorem failedMems_none {r : FillResult} (hmask : bootFailMask r.fillFailed r.answers = 0) (ht : r.trainFailed = false) (hg : r.gib0 = r.gib1)
    (h4 : 4 ≤ r.gib0 + r.gib1) : failedMems r = 0 := by
  have fine : dramFails r = false := by
    unfold dramFails
    rw [ht, hg, bne_self_eq_false, decide_eq_false (by omega)]
    rfl
  unfold failedMems
  rw [hmask, fine]
  rfl

theorem failedMems_bit (r : FillResult) {i : Nat} (h : i ≠ 0) : bit (failedMems r) i = bit (bootFailMask r.fillFailed r.answers) i :=
  bit_or_lowest _ _ h

theorem failedMems_some {r : FillResult} (h : bootFailMask r.fillFailed r.answers ≠ 0) : failedMems r ≠ 0 := fun e =>
  h (Nat.or_eq_zero_iff.mp e).1

/-- Sound memories lead on to a slot (R462). -/
theorem fillDone_starts {x : State} {r : FillResult} {k : Nat} {trial : Bool} (hf : x.sys.phase = .fill) (h0 : failedMems r = 0)
    (hk : x.nvm.choose = some (k, trial)) :
    x.fillDone r = ((filledMems x r).layOut (r.gib0 + r.gib1)).chooseSlot
      ∧ ((filledMems x r).layOut (r.gib0 + r.gib1)).nvm.choose = some (k, trial)
      ∧ ((filledMems x r).layOut (r.gib0 + r.gib1)).nvm.startCount = x.nvm.startCount ∧ ((filledMems x r).layOut (r.gib0 + r.gib1)).now = x.now
      ∧ ((filledMems x r).layOut (r.gib0 + r.gib1)).rd MEM_BOOT_STAT = (filledMems x r).rd MEM_BOOT_STAT := by
  have left := layOut_leaves (filledMems x r) (r.gib0 + r.gib1)
  have filled : (filledMems x r).nvm = x.nvm := filledMems_keeps State.nvm (fun _ _ _ => rfl) (fun _ _ => rfl) x r
  have now : ((filledMems x r).layOut (r.gib0 + r.gib1)).now = (filledMems x r).now := State.layOut_keep (keeps_now _) rfl
  have choose := nvm_same Nvm.choose (fun _ _ _ => rfl) (left.1 .nvm (by decide))
  have count := nvm_same Nvm.startCount (fun _ _ _ => rfl) (left.1 .nvm (by decide))
  rw [filled] at choose count
  refine ⟨(fillDone_filled hf).trans (if_pos h0), choose.trans hk, count, ?_, left.2 MEM_BOOT_STAT bootStat_apart⟩
  exact now.trans (filledMems_keeps State.now (fun _ _ _ => rfl) (fun _ _ => rfl) x r)

/-- The ports' registers alone change as the ports take a configuration. -/
theorem loadPorts_rd (x : State) (words : Tab Word) {a : Nat} (hcfg : ∀ p, a ≠ LNK_PORT_CFG p) (hcred : ∀ p, a ≠ LNK_PORT_CREDIT p) :
    (x.loadPorts words).rd a = x.rd a := by
  unfold State.loadPorts
  refine foldl_keep (P := fun s => s.rd a = x.rd a) (fun s p hs => ?_) rfl
  dsimp only
  refine List.foldlRecOn (motive := fun s => s.rd a = x.rd a) _ State.putConfig ((State.rd_wr_ne _ _ (hcfg p)).trans hs) fun y hy e he => ?_
  have other : a ≠ e.1 := by
    obtain ⟨-, hport⟩ := List.mem_filter.mp he
    rcases Bool.or_eq_true_iff.mp hport with h | h <;> rw [beq_iff_eq.mp h]
    · exact hcfg p
    · exact hcred p
  exact (State.rd_wr_ne _ _ other).trans hy

theorem bootStat_ne_port (p : Nat) : MEM_BOOT_STAT ≠ LNK_PORT_CFG p ∧ MEM_BOOT_STAT ≠ LNK_PORT_CREDIT p := by
  unfold MEM_BOOT_STAT LNK_PORT_CFG LNK_PORT_CREDIT
  omega

/-- A power state that is entered is told in SYS_PWR_STATE, and nothing else changes but what an event may (R28). -/
theorem enterPower_power (x : State) {new : Nat} (cause : Nat) (h : new < 8) : (x.enterPower new cause).power = new := by
  have told : ∀ y : State, ∀ c l, (y.issue c l).rd SYS_PWR_STATE = y.rd SYS_PWR_STATE := fun y c l =>
    (State.issue_keep (keeps_leaves y [] [] (by decide) (by decide)) (leaves_refl _ _ y)).2 SYS_PWR_STATE (not_logRegs (by decide) (by decide))
  unfold State.enterPower State.power
  dsimp only
  rw [State.fld_eq _ _ _ (by decide), told, State.rd_wr_self]
  unfold wfld word bits
  rw [BitVec.toNat_ofNat]
  show (cause * 4096 + new * 256 + new) % 2 ^ 32 / 2 ^ 0 % 2 ^ 3 = new
  omega

theorem enterPower_leaves (x : State) (new cause : Nat) : Leaves [.sys, .nvm] [(SYS_PWR_STATE, 0, 1)] x (x.enterPower new cause) :=
  State.enterPower_keep (keeps_leaves x _ _ (by decide) (by decide)) (leaves_refl _ _ x)

theorem bootStat_apart_pwr : ∀ r ∈ [(SYS_PWR_STATE, 0, 1)] ++ logRegs, ¬ InArray r.1 r.2.1 r.2.2 MEM_BOOT_STAT := by
  intro r hr
  rcases List.mem_append.mp hr with h | h
  · obtain rfl := List.mem_singleton.mp h
    rintro ⟨i, hi⟩
    simp only [MEM_BOOT_STAT, SYS_PWR_STATE] at hi
    omega
  · exact bootStat_apart r (List.mem_append_right _ h)

/-- MINIMAL is entered: its power state is 4, and the memories told failed stay so (R456, R466). -/
theorem enterMinimal_enters (x : State) (cause : Nat) :
    (x.enterMinimal cause).sys.phase = .minimal ∧ (x.enterMinimal cause).power = 4 ∧ (x.enterMinimal cause).rd MEM_BOOT_STAT = x.rd MEM_BOOT_STAT := by
  unfold State.enterMinimal
  extract_lets words s
  have entered := enterPower_leaves s 4 cause
  refine ⟨?_, enterPower_power s cause (by decide), ?_⟩
  · exact congrArg Sys.phase (entered.1 .sys (by decide))
  · exact (entered.2 MEM_BOOT_STAT bootStat_apart_pwr).trans (loadPorts_rd x words (fun p => (bootStat_ne_port p).1) (fun p => (bootStat_ne_port p).2))

/-- The registers of what starts at BOOT_OK, once its power state has been entered (R465; 01_architecture.md R29). -/
def bootRegs : List (Nat × Nat × Nat) :=
  [(CONV_BAY_STAT 0, 16, 64), (DEC_DET_VAL 0, 8, 512), (DEC_CH_STAT 0, 16, 512), (CONV_RELIEF 0, 4, 4), (DEC_BAY_STAT 0, 16, 64), (CAP_HIST_STAT, 0, 1),
   (CAP_ENG_TRIG 0, 64, 16), (CAP_ENG_MAXLEN 0, 64, 16), (CAP_ENG_POST 0, 64, 16), (CAP_ENG_PRE 0, 64, 16), (CAP_ENG_CHAN 0, 64, 16),
   (CAP_ENG_CFG 0, 64, 16), (DEC_LOAD, 0, 1), (CMP_ERR, 0, 1), (MEM_ERR 0, 32, 5), (MEM_ERR_INFO 0, 32, 5), (MEM_ERR_ADDR 0, 32, 5),
   (MEM_ERR_ADDR 0 + 4, 32, 5), (CAP_ENG_STAT 0, 64, 16), (FLD_TRIP_STAT 0, 32, 16), (CAL_GRP_STAT 0, 16, 29), (RED_WIT_STAT 0, 16, 4),
   (RED_STAT, 0, 1), (RED_COUNT, 0, 1), (LNK_ROUTE_STAT, 0, 1), (LNK_ROUTE_CFG, 0, 1)]

/-- What a start that has reached BOOT_OK has confirmed: its slot and no failed start (R465). -/
theorem confirmSlot_confirms (x : State) : x.confirmSlot.nvm.fails = 0 ∧ x.confirmSlot.nvm.activeSlot = x.sys.bootSlot := by
  have told : ∀ y : State, ∀ c l, Part.nvm.Same y (y.issue c l) := fun y c l => State.issue_keep (keeps_part y .nvm) (Part.same_refl .nvm y)
  unfold State.confirmSlot
  extract_lets k m state s
  split
  · exact ⟨rfl, rfl⟩
  · exact ⟨nvm_same Nvm.fails (fun _ _ _ => rfl) (told s _ _), nvm_same Nvm.activeSlot (fun _ _ _ => rfl) (told s _ _)⟩

/-- What starts last at BOOT_OK leaves NVM and what boot has told (R465, R499; 13_head_redundancy.md R412, R420). -/
theorem startApplied_leaves (x : State) : Leaves [.sys, .nvm] bootRegs x x.queueBadCal.startApplied.quietAll :=
  State.quietAll_keep (keeps_leaves x _ _ (by decide) (by decide)) (State.startApplied_keep (keeps_leaves x _ _ (by decide) (by decide))
    (State.queueBadCal_keep (keeps_leaves x _ _ (by decide) (by decide)) (leaves_refl _ _ x)))

/-- What is of the system block but for limits and drops is the same where that part is. -/
theorem sys_same {α : Type} (g : Sys → α) (hfree : ∀ y l d, g { y with limits := l, bbDropped := d } = g y) {a b : State} (h : Part.sys.Same a b) :
    g b.sys = g a.sys := by
  rw [show b.sys = { a.sys with limits := b.sys.limits, bbDropped := b.sys.bbDropped } from h]
  exact hfree _ _ _

/-- From the power state's entry on, a start that has come up keeps what it has told in SYS_BOOT_STAT and SYS_PWR_STATE, and has its slot
confirmed (R465). -/
theorem bootOk_tail {x : State} (told : State) (hx : Leaves [.sys, .nvm] bootRegs x told) {held end_ : State}
    (hheld : Leaves [.sys, .nvm] bootRegs (told.confirmSlot.conLine (.bootStep 8)) held)
    (hend : Leaves [.sys, .nvm] bootRegs (held.onNvm fun n => { n with heldAtReset := 0, heldOldest := 0 }) end_) :
    end_.sys.phase = x.sys.phase ∧ (∀ a, (∀ r ∈ bootRegs ++ logRegs, ¬ InArray r.1 r.2.1 r.2.2 a) → end_.rd a = x.rd a)
      ∧ end_.nvm.fails = 0 ∧ end_.nvm.activeSlot = x.sys.bootSlot ∧ end_.nvm.heldAtReset = 0 := by
  have confirmed : Leaves [.sys] bootRegs told told.confirmSlot :=
    State.confirmSlot_keep (keeps_leaves told _ _ (by decide) (by decide)) (leaves_refl _ _ told)
  obtain ⟨hfails, hslot⟩ := confirmSlot_confirms told
  have phase : ∀ {a b : State}, Part.sys.Same a b → b.sys.phase = a.sys.phase := fun h => sys_same Sys.phase (fun _ _ _ => rfl) h
  have slots : told.sys.bootSlot = x.sys.bootSlot := sys_same Sys.bootSlot (fun _ _ _ => rfl) (hx.1 .sys (by decide))
  have kept : ∀ {α : Type} (g : Nvm → α), (∀ n bb k, g { n with bb := bb, bbNext := k } = g n) → (∀ n, g { n with heldAtReset := 0, heldOldest := 0 } = g n) →
      g end_.nvm = g told.confirmSlot.nvm := fun g hbb hzero =>
    (nvm_same g hbb (hend.1 .nvm (by decide))).trans ((hzero held.nvm).trans (nvm_same g hbb (hheld.1 .nvm (by decide))))
  refine ⟨(phase (hend.1 .sys (by decide))).trans ((phase (hheld.1 .sys (by decide))).trans ((phase (confirmed.1 .sys (by decide))).trans
    (phase (hx.1 .sys (by decide))))), fun a ha => ?_, ?_, ?_, ?_⟩
  · exact (hend.2 a ha).trans ((hheld.2 a ha).trans ((confirmed.2 a ha).trans (hx.2 a ha)))
  · exact (kept Nvm.fails (fun _ _ _ => rfl) fun _ => rfl).trans hfails
  · exact (kept Nvm.activeSlot (fun _ _ _ => rfl) fun _ => rfl).trans (hslot.trans slots)
  · exact nvm_same Nvm.heldAtReset (fun _ _ _ => rfl) (hend.1 .nvm (by decide))

/-- A start with its configuration applied, as it tells BOOT_OK (R465). -/
def bootTold (y : State) (ms : Nat) : State :=
  ((y.setFld SYS_BOOT_STAT SYS_BOOT_STAT_SLOT_NOW y.sys.bootSlot).setFld SYS_BOOT_STAT SYS_BOOT_STAT_BOOT_OK 1).setFld SYS_BOOT_STAT
    SYS_BOOT_STAT_BOOT_MS ms

/-- A start that has told BOOT_OK, as it enters its power state (R461, R465). -/
def powerEntered (z : State) : State := (z.onSys fun m => { m with phase := .running }).enterPower z.nvm.bootPower 0

/-- A start with its configuration applied and BOOT_OK told, in its power state. -/
def bootEntered (x : State) : State :=
  powerEntered (bootTold (x.conLine (.bootStep 7)).loadCal.loadConfig (satN 16 ((x.conLine (.bootStep 7)).now / fineMs 1)))

theorem bootOk_stages {x : State} (hphase : x.sys.phase = .configLoad) (hstore : x.nvm.storeBroken = false) : ∃ told held : State,
    Leaves [.sys, .nvm] bootRegs (bootEntered x) told ∧ Leaves [.sys, .nvm] bootRegs (told.confirmSlot.conLine (.bootStep 8)) held
      ∧ Leaves [.sys, .nvm] bootRegs (held.onNvm fun n => { n with heldAtReset := 0, heldOldest := 0 }) (x.bootOk false) := by
  unfold State.bootOk
  rw [if_neg (by rw [hphase]; decide), if_neg (by rw [hstore]; exact Bool.false_ne_true)]
  extract_lets y0 ms loaded shown entered told confirmed held zeroed last
  refine ⟨told, held, ?_, ?_, ?_⟩
  · exact State.issue_keep (keeps_leaves (bootEntered x) _ _ (by decide) (by decide)) (leaves_refl _ _ _)
  · unfold held
    split
    · exact leaves_refl _ _ _
    · exact State.issue_keep (keeps_leaves confirmed _ _ (by decide) (by decide)) (leaves_refl _ _ _)
  · have begun : Leaves [.sys, .nvm] bootRegs zeroed last := startApplied_leaves zeroed
    split
    · exact State.setHead_keep (keeps_leaves zeroed _ _ (by decide) (by decide)) begun
    · exact begun

theorem bootOkStat_apart_pwr : ∀ r ∈ [(SYS_PWR_STATE, 0, 1)] ++ logRegs, ¬ InArray r.1 r.2.1 r.2.2 SYS_BOOT_STAT := by
  intro r hr
  rcases List.mem_append.mp hr with h | h
  · obtain rfl := List.mem_singleton.mp h
    rintro ⟨i, hi⟩
    simp only [SYS_BOOT_STAT, SYS_PWR_STATE] at hi
    omega
  · exact below_apart (l := logRegs) (by decide) r h

theorem bootTold_told {y : State} (ms : Nat) (hslot : y.sys.bootSlot < 2) :
    (bootTold y ms).sys = y.sys ∧ (bootTold y ms).nvm = y.nvm ∧ (bootTold y ms).on SYS_BOOT_STAT SYS_BOOT_STAT_BOOT_OK = true
      ∧ (bootTold y ms).fld SYS_BOOT_STAT SYS_BOOT_STAT_SLOT_NOW = y.sys.bootSlot := by
  unfold bootTold
  refine ⟨?_, ?_, ?_, ?_⟩
  · rw [State.setFld_sys, State.setFld_sys, State.setFld_sys]
  · rw [State.setFld_nvm, State.setFld_nvm, State.setFld_nvm]
  · unfold State.on
    rw [State.fld_setFld_other _ _ _ _ _ (by decide) (by decide) (by decide), State.fld_setFld_self _ _ _ _ (by decide)]
    rfl
  · rw [State.fld_setFld_other _ _ _ _ _ (by decide) (by decide) (by decide), State.fld_setFld_other _ _ _ _ _ (by decide) (by decide) (by decide),
      State.fld_setFld_self _ _ _ _ (by decide)]
    exact Nat.mod_eq_of_lt (Nat.lt_of_lt_of_le hslot (by decide))

theorem powerEntered_enters {z : State} (hpower : z.nvm.bootPower < 8) :
    (powerEntered z).sys.phase = .running ∧ (powerEntered z).sys.bootSlot = z.sys.bootSlot ∧ (powerEntered z).power = z.nvm.bootPower
      ∧ (powerEntered z).rd SYS_BOOT_STAT = z.rd SYS_BOOT_STAT := by
  have entered : Leaves [.sys, .nvm] [(SYS_PWR_STATE, 0, 1)] (z.onSys fun m => { m with phase := .running }) (powerEntered z) :=
    enterPower_leaves _ z.nvm.bootPower 0
  have sys := entered.1 .sys (by decide)
  have slot : (powerEntered z).sys.bootSlot = (z.onSys fun m => { m with phase := .running }).sys.bootSlot :=
    sys_same Sys.bootSlot (fun _ _ _ => rfl) sys
  exact ⟨sys_same Sys.phase (fun _ _ _ => rfl) sys, slot, enterPower_power _ 0 hpower,
    entered.2 SYS_BOOT_STAT bootOkStat_apart_pwr⟩

/-- What BOOT_OK tells, and the power state entered (R465). -/
theorem bootEntered_told {x : State} (hpower : x.nvm.bootPower < 4) (hslot : x.sys.bootSlot < 2) :
    (bootEntered x).sys.phase = .running ∧ (bootEntered x).sys.bootSlot = x.sys.bootSlot ∧ (bootEntered x).power = x.nvm.bootPower
      ∧ (bootEntered x).on SYS_BOOT_STAT SYS_BOOT_STAT_BOOT_OK = true ∧ (bootEntered x).fld SYS_BOOT_STAT SYS_BOOT_STAT_SLOT_NOW = x.sys.bootSlot := by
  have slot : (x.conLine (.bootStep 7)).loadCal.loadConfig.sys.bootSlot = x.sys.bootSlot :=
    sys_same (a := x.conLine (.bootStep 7)) Sys.bootSlot (fun _ _ _ => rfl) (State.loadConfig_keep (keeps_part _ .sys)
      (State.loadCal_keep (keeps_part _ .sys) (Part.same_refl .sys _)))
  have power : (x.conLine (.bootStep 7)).loadCal.loadConfig.nvm.bootPower = x.nvm.bootPower :=
    nvm_same (a := x.conLine (.bootStep 7)) Nvm.bootPower (fun _ _ _ => rfl) (State.loadConfig_keep (keeps_part _ .nvm)
      (State.loadCal_keep (keeps_part _ .nvm) (Part.same_refl .nvm _)))
  unfold bootEntered
  generalize (x.conLine (.bootStep 7)).loadCal.loadConfig = y at slot power ⊢
  generalize satN 16 ((x.conLine (.bootStep 7)).now / fineMs 1) = ms
  obtain ⟨zsys, znvm, ok, slotNow⟩ := bootTold_told (y := y) ms (by omega)
  have zpower : (bootTold y ms).nvm.bootPower = x.nvm.bootPower := (congrArg Nvm.bootPower znvm).trans power
  obtain ⟨running, eslot, epower, stat⟩ := powerEntered_enters (z := bootTold y ms) (by omega)
  refine ⟨running, eslot.trans ((congrArg Sys.bootSlot zsys).trans slot), epower.trans zpower, ?_,
    (fld_of_rd stat (by decide)).trans (slotNow.trans slot)⟩
  unfold State.on at ok ⊢
  rw [fld_of_rd stat (by decide)]
  exact ok

/-- A row that ends keeps what BOOT_OK has told (R465). -/
theorem bootOk_runs {x s u : State} (hphase : x.sys.phase = .configLoad) (hstore : x.nvm.storeBroken = false) (hpower : x.nvm.bootPower < 4)
    (hslot : x.sys.bootSlot < 2) (hp : Powered x → Powered s) (closed : Closed s (x.bootOk false) u) :
    u.sys.phase = .running ∧ u.power = x.nvm.bootPower ∧ u.on SYS_BOOT_STAT SYS_BOOT_STAT_BOOT_OK = true
      ∧ u.fld SYS_BOOT_STAT SYS_BOOT_STAT_SLOT_NOW = x.sys.bootSlot
      ∧ (Powered x → u.nvm.fails = 0 ∧ u.nvm.activeSlot = x.sys.bootSlot ∧ u.nvm.heldAtReset = 0) := by
  obtain ⟨told, held, htold, hheld, hend⟩ := bootOk_stages hphase hstore
  obtain ⟨phase, regs, fails, active, zeroed⟩ := bootOk_tail told htold hheld hend
  obtain ⟨running, slot, power, ok, slotNow⟩ := bootEntered_told hpower hslot
  have stat : u.rd SYS_BOOT_STAT = (bootEntered x).rd SYS_BOOT_STAT :=
    (closed.rest.2 SYS_BOOT_STAT (below_apart (by decide))).trans (regs SYS_BOOT_STAT (below_apart (by decide)))
  have pwr : u.rd SYS_PWR_STATE = (bootEntered x).rd SYS_PWR_STATE :=
    (closed.rest.2 SYS_PWR_STATE (below_apart (by decide))).trans (regs SYS_PWR_STATE (below_apart (by decide)))
  refine ⟨(sys_same Sys.phase (fun _ _ _ => rfl) (closed.rest.1 .sys (by decide))).trans (phase.trans running),
    (fld_of_rd pwr (by decide)).trans power, ?_, (fld_of_rd stat (by decide)).trans slotNow, fun hpow => ?_⟩
  · unfold State.on
    rw [fld_of_rd stat (by decide)]
    exact ok
  · have nvm := closed.nvm (hp hpow)
    exact ⟨(nvm_same Nvm.fails (fun _ _ _ => rfl) nvm).trans fails, (nvm_same Nvm.activeSlot (fun _ _ _ => rfl) nvm).trans (active.trans slot),
      (nvm_same Nvm.heldAtReset (fun _ _ _ => rfl) nvm).trans zeroed⟩

/-- A row that ends keeps the fields of MEM_BOOT_STAT. -/
theorem closed_bootStat {s x u : State} (closed : Closed s x u) : u.rd MEM_BOOT_STAT = x.rd MEM_BOOT_STAT :=
  closed.rest.2 MEM_BOOT_STAT fun r hr => bootStat_apart r (List.mem_append_right _ hr)

/-- A start that the state after the memories' filling makes, as the end of the row leaves it (R450, R462). -/
theorem fillDone_started {x s u : State} {r : FillResult} {k : Nat} {trial : Bool} (hf : x.sys.phase = .fill) (h0 : failedMems r = 0)
    (h32 : r.gib0 + r.gib1 < 32) (hk : x.nvm.choose = some (k, trial)) (hp : Powered x → Powered s) (closed : Closed s (x.fillDone r) u) :
    u.sys.phase = .imageLoad ∧ u.sys.bootSlot = k ∧ u.sys.bootFromTrial = trial ∧ u.sys.stepFourAt = x.now
      ∧ u.rd MEM_BOOT_STAT = (filledMems x r).rd MEM_BOOT_STAT ∧ u.fld MEM_DRAM_CFG MEM_DRAM_CFG_INSTALLED = r.gib0 + r.gib1
      ∧ (Powered x → u.nvm.startCount = x.nvm.startCount + 1) := by
  obtain ⟨hstart, hchoose, hcount, hnow, hstat⟩ := fillDone_starts hf h0 hk
  rw [hstart] at closed
  have installed := layOut_installed (filledMems x r) h32
  generalize (filledMems x r).layOut (r.gib0 + r.gib1) = y at *
  have sys : Part.sys.Same y.chooseSlot u := closed.rest.1 .sys (by decide)
  obtain ⟨phase, slot, from_, at_⟩ := chooseSlot_sys hchoose
  have count := chooseSlot_startCount hchoose
  have kept := chooseSlot_rd hchoose
  generalize y.chooseSlot = z at *
  have same : ∀ {α : Type} (g : Sys → α), (∀ m l d, g { m with limits := l, bbDropped := d } = g m) → g u.sys = g z.sys := fun g hg => sys_same g hg sys
  refine ⟨(same Sys.phase fun _ _ _ => rfl).trans phase, (same Sys.bootSlot fun _ _ _ => rfl).trans slot,
    (same Sys.bootFromTrial fun _ _ _ => rfl).trans from_, (same Sys.stepFourAt fun _ _ _ => rfl).trans (at_.trans hnow), ?_, ?_, fun hpow => ?_⟩
  · exact (closed_bootStat closed).trans ((kept MEM_BOOT_STAT).trans hstat)
  · have dram : u.rd MEM_DRAM_CFG = y.rd MEM_DRAM_CFG := (closed.rest.2 MEM_DRAM_CFG dramCfg_apart).trans (kept MEM_DRAM_CFG)
    exact (fld_of_rd dram (by decide)).trans installed
  · exact (nvm_same Nvm.startCount (fun _ _ _ => rfl) (closed.nvm (hp hpow))).trans (count.trans (congrArg (· + 1) hcount))

/-- What the end of a row keeps of a memory told failed, where NVM is sound. -/
theorem toldFailed_kept {x y s u : State} {r : FillResult} (hy : y.rd MEM_BOOT_STAT = (toldFailed x r).rd MEM_BOOT_STAT) (closed : Closed s y u) :
    u.on MEM_BOOT_STAT MEM_BOOT_STAT_FAILED = true := by
  unfold State.on
  rw [fld_of_rd ((closed_bootStat closed).trans hy) (by decide)]
  exact toldFailed_on x r

/-- A failed Porter SRAM holds the hub in BOOT (R450). -/
theorem fillDone_held {x : State} {r : FillResult} (hf : x.sys.phase = .fill) (h2 : bit (bootFailMask r.fillFailed r.answers) 2 = true) :
    x.fillDone r = (if bit (bootFailMask r.fillFailed r.answers) 3 then (toldFailed x r).withoutNvm else toldFailed x r).onSys
      fun y => { y with phase := .held } := by
  have some_ : failedMems r ≠ 0 := fun e => by
    rw [← failedMems_bit r (by decide), e] at h2
    exact absurd h2 (by decide)
  rw [fillDone_filled hf, if_neg some_, failedMems_bit r (by decide), failedMems_bit r (by decide)]
  exact if_pos h2

/-- The layout in force unless the DRAM has failed (R440, R450). -/
def laidOut (x : State) (r : FillResult) : State := if bit (failedMems r) 0 then x else x.layOut (r.gib0 + r.gib1)

theorem laidOut_bootStat (x : State) (r : FillResult) : (laidOut x r).rd MEM_BOOT_STAT = x.rd MEM_BOOT_STAT := by
  unfold laidOut
  split
  · rfl
  · exact (layOut_leaves x _).2 MEM_BOOT_STAT bootStat_apart

/-- The state in which MINIMAL is entered after a memory has failed, the start counted (R450). -/
def beforeMinimal (x : State) (r : FillResult) : State :=
  (laidOut (if bit (failedMems r) 3 then (toldFailed x r).withoutNvm else toldFailed x r) r).onNvm fun n => { n with startCount := n.startCount + 1 }

/-- Any other failed memory leads to MINIMAL (R450, R456). -/
theorem fillDone_minimal {x : State} {r : FillResult} (hf : x.sys.phase = .fill) (h0 : bootFailMask r.fillFailed r.answers ≠ 0)
    (h2 : bit (bootFailMask r.fillFailed r.answers) 2 = false) : x.fillDone r = (beforeMinimal x r).enterMinimal 3 := by
  have h2 : bit (failedMems r) 2 = false := (failedMems_bit r (by decide)).trans h2
  rw [fillDone_filled hf, if_neg (failedMems_some h0)]
  dsimp only
  rw [if_neg (ne_true_of_eq_false h2)]
  unfold beforeMinimal laidOut
  rfl

theorem beforeMinimal_bootStat (x : State) {r : FillResult} (h3 : bit (bootFailMask r.fillFailed r.answers) 3 = false) :
    (beforeMinimal x r).rd MEM_BOOT_STAT = (toldFailed x r).rd MEM_BOOT_STAT := by
  have h3 : bit (failedMems r) 3 = false := (failedMems_bit r (by decide)).trans h3
  unfold beforeMinimal
  rw [if_neg (ne_true_of_eq_false h3)]
  exact laidOut_bootStat (toldFailed x r) r

/-- Settles O21: each outcome of boot by its branch, and a failed start by the hub reset it makes. -/
theorem bootEventsComplete : Obligations.BootEventsComplete := by
  refine ⟨fun r k trial => ?start, fun r => ?held, fun r => ?minimal, ?image, fun reason => ?fault, ?ok, fun refused => ?store, ?late⟩
  case start =>
    refine yields_of (f := (State.fillDone · r)) (fun _ _ => rfl) (fun s x u ⟨hf, hmask, ht, hg, h4, h32, hk⟩ hp closed => ?_)
    obtain ⟨phase, slot, from_, at_, stat, dram, count⟩ := fillDone_started hf (failedMems_none hmask ht hg h4) h32 hk hp closed
    obtain ⟨filled, tested, failed⟩ := filledMems_bootStat x r
    unfold State.on at filled tested failed ⊢
    rw [fld_of_rd stat (by decide), fld_of_rd stat (by decide), fld_of_rd stat (by decide)]
    exact ⟨phase, slot, from_, at_, filled, tested, failed, dram, count⟩
  case held =>
    refine yields_of (f := (State.fillDone · r)) (fun _ _ => rfl) (fun s x u ⟨hf, h2⟩ hp closed => ?_)
    rw [fillDone_held hf h2] at closed
    have told : bit (bootFailMask r.fillFailed r.answers) 3 = false →
        (if bit (bootFailMask r.fillFailed r.answers) 3 then (toldFailed x r).withoutNvm else toldFailed x r).rd MEM_BOOT_STAT
          = (toldFailed x r).rd MEM_BOOT_STAT := fun h3 => by rw [if_neg (ne_true_of_eq_false h3)]
    generalize (if bit (bootFailMask r.fillFailed r.answers) 3 then (toldFailed x r).withoutNvm else toldFailed x r) = y at told closed
    have phase : u.sys.phase = (y.onSys fun m => { m with phase := .held }).sys.phase :=
      sys_same Sys.phase (fun _ _ _ => rfl) (closed.rest.1 .sys (by decide))
    exact ⟨phase, fun h3 => toldFailed_kept (y := y.onSys fun m => { m with phase := .held }) (told h3) closed⟩
  case minimal =>
    refine yields_of (f := (State.fillDone · r)) (fun _ _ => rfl) (fun s x u ⟨hf, h0, h2⟩ hp closed => ?_)
    obtain ⟨phase, power, stat⟩ := enterMinimal_enters (beforeMinimal x r) 3
    rw [fillDone_minimal hf h0 h2] at closed
    have pwr : u.rd SYS_PWR_STATE = ((beforeMinimal x r).enterMinimal 3).rd SYS_PWR_STATE := closed.rest.2 SYS_PWR_STATE (below_apart (by decide))
    exact ⟨(sys_same Sys.phase (fun _ _ _ => rfl) (closed.rest.1 .sys (by decide))).trans phase, (fld_of_rd pwr (by decide)).trans power,
      fun h3 => toldFailed_kept (stat.trans (beforeMinimal_bootStat x h3)) closed⟩
  case image =>
    refine occurs_of (f := State.imageLoaded) (fun _ _ => rfl) (fun x ⟨hphase, hsound⟩ => ?_)
    have sound : (x.conLine (.bootStep 5)).imageFault (x.conLine (.bootStep 5)).sys.bootSlot true = none := hsound
    unfold State.imageLoaded
    rw [if_neg (by rw [hphase]; decide)]
    dsimp only
    rw [sound]
  case fault =>
    refine yields_of (f := State.imageLoaded) (fun _ _ => rfl) (fun s x u ⟨hstart, hphase, hfault⟩ hp closed => ?_)
    have faulty : (x.conLine (.bootStep 5)).imageFault (x.conLine (.bootStep 5)).sys.bootSlot true = some reason := hfault
    have fails : x.imageLoaded = (x.conLine (.bootStep 5)).failedStart reason := by
      unfold State.imageLoaded
      rw [if_neg (by rw [hphase]; decide)]
      dsimp only
      rw [faulty]
    rw [fails] at closed
    exact failedStart_resets (z := x.conLine (.bootStep 5)) hstart rfl (hp hstart.1) closed
  case ok =>
    exact yields_of (f := (State.bootOk · false)) (fun _ _ => rfl) fun s x u ⟨hphase, hstore, hpower, hslot⟩ hp closed =>
      bootOk_runs hphase hstore hpower hslot hp closed
  case store =>
    refine yields_of (f := (State.bootOk · refused)) (fun _ _ => rfl) (fun s x u ⟨hstart, hphase, hstore⟩ hp closed => ?_)
    have broken : (x.nvm.storeBroken || (refused && x.nvm.store.isSome)) = true := by
      rcases hstore with h | ⟨h, hs⟩
      · rw [h, Bool.true_or]
      · rw [h, hs, Bool.and_self, Bool.or_true]
    have fails : x.bootOk refused = (x.conLine (.bootStep 7)).failedStart 5 := by
      unfold State.bootOk
      rw [if_neg (by rw [hphase]; decide)]
      exact if_pos broken
    rw [fails] at closed
    exact failedStart_resets (z := x.conLine (.bootStep 7)) hstart rfl (hp hstart.1) closed
  case late =>
    refine yields_of (f := State.bootTimeout) (fun _ _ => rfl) (fun s x u ⟨hstart, hlate⟩ hp closed => ?_)
    have fails : x.bootTimeout = x.failedStart 3 := if_pos hlate
    rw [fails] at closed
    exact failedStart_resets hstart rfl (hp hstart.1) closed

end Sys2Proof
end
